-- ==== Sys2Proof/Word.lean ====
section
/-! DEFINITION. The word types of the device and the container of sparse data.

The names are the spec's: a byte, a 16-bit half, a 32-bit lane word (an instruction word, a lane
register) and a 64-bit uniform word. -/

namespace Sys2Proof

/-- One byte of memory (R89). -/
abbrev Byte := BitVec 8

/-- A 16-bit quantity (a packed element, a block header). -/
abbrev Half := BitVec 16

/-- A 32-bit word: a lane register or an instruction word (R27, R37). -/
abbrev Word := BitVec 32

/-- A 64-bit value: a uniform register, an address, a program counter (R27). -/
abbrev DWord := BitVec 64

/-- Sparse data: pairs of a key and a value, in rising order of the key, none equal to the value
that an unlisted key reads as. The operations over it stand in `Machine/Sparse.lean`. -/
abbrev SMap (α : Type) := List (Nat × α)

/-- The 32 lanes of a crew in ascending order (R20, R22). -/
def lanes : List Nat :=
  [0, 1, 2, 3, 4, 5, 6, 7, 8, 9, 10, 11, 12, 13, 14, 15,
   16, 17, 18, 19, 20, 21, 22, 23, 24, 25, 26, 27, 28, 29, 30, 31]

end Sys2Proof
end

