-- ==== Sys2Proof/Config.lean ====
section
/-! DEFINITION. What an implementation fixes and what the spec leaves open: constants without a body, so that
nothing can be proved of their values. A counter in the state (`State.free`) or the operands they depend on
choose among the values of the functions. -/

namespace Sys2Proof

/-- Nanoseconds that pass between two steps of the model while FTIME runs (R326; log entry 4). -/
opaque Config.freeTick : Nat → Nat

/-- A value that the spec leaves undefined, by the count of such values so far (log entry 5). -/
opaque Config.freeWord : Nat → Word

/-- What a word of a spill area or a seat record that a program has overwritten gives the crew or the cell (R30, R287), and what a word
of a record that does not translate gives the device (R298): by which word it is and when it is read (log entries 11, 23). -/
opaque Config.freeStored : List Nat → Word

/-- What SCALE is where the spec gives no value for its group (R92, R108): by the format and the operand bits of the group (log entry
42). -/
opaque Config.openScale : List Nat → Word

/-- The position on the ring of a core's station (R226; log entry 17). -/
opaque Config.stationAt : Nat → Nat

/-- The fused serial number (Table 26.2; log entry 22). -/
opaque Config.serial : DWord

/-- The spares that the device was made with, by die (R372; log entry 22). -/
opaque Config.spares : Nat → Nat

/-- SHA-512 (R370, R371; log entry 22). -/
opaque Config.sha512 : List Byte → BitVec 512

/-- The fused hash of the public key that firmware is signed under (R370; log entry 22). -/
opaque Config.fusedKeyHash : BitVec 512

/-- Whether a signature over a hash verifies under a public key: RSA-4096 RSASSA-PSS (R370; log entry 22). -/
opaque Config.verifies : List Byte → BitVec 512 → List Byte → Bool

/-- The signed configuration of a firmware image (R370; log entry 22). -/
opaque Config.configOf : List Byte → List Byte

/-- MGMTEP of a configuration (R370; log entry 22). -/
opaque Config.mgmtEp : List Byte → BitVec 14

/-- MGMTKEY of a configuration (R370; log entry 22). -/
opaque Config.mgmtKey : List Byte → BitVec 16

/-- MYEP of a configuration (R370; log entry 22). -/
opaque Config.myEp : List Byte → BitVec 14

/-- The bytes of an RSA-4096 RSASSA-PSS signature under the device's key over a hash (R371; log entry 22). -/
opaque Config.signature : BitVec 512 → Nat → Byte

/-- The average power in W of the last millisecond (R368; log entry 22). -/
opaque Config.power : Nat → Half

end Sys2Proof
end

