-- ==== Sys2Proof/Syntax.lean ====
section
/-! DEFINITION. The instructions and events of the device: one constructor for each row of
`spec/opcode_table.json`.

The first 268 constructors are the encoded instructions of the lane and uniform instruction sets
(R37-R51); their operands are the fields of the word. The others are the events of the device
(`spec/95_what_each_step_holds.md`); they have no word, and their operands say which unit, split or
record the event concerns, or what an outside party sends. -/

namespace Sys2Proof

/-- An 8-bit source operand field of the lane instructions (Table 3.2): a lane register of the window, a
broadcast uniform register, or register `j` of the neighbour in direction `dir`. -/
inductive Src where
  | v (n : BitVec 7)
  | s (n : BitVec 6)
  | nbr (dir : BitVec 3) (j : BitVec 3)
  deriving DecidableEq, Repr

/-- The scope of an access (Table 3.3). -/
inductive Scope where
  | team | squad | dev | sys
  deriving DecidableEq, Repr

/-- The ordering semantic of an access (Table 3.3). -/
inductive Sem where
  | relaxed | acq | rel | ar
  deriving DecidableEq, Repr

/-- A rounding mode (Table 2.4, Table 3.8). -/
inductive Rnd where
  | rn | rz | ru | rd
  deriving DecidableEq, Repr

/-- Where an uncorrectable error strikes (R345): a word of device memory by physical word address,
a word of a team's scratchpad, a lane register by absolute index, a uniform register, a word of an
accumulator tile, a word of a shell's payload, a word of a seat's publish buffers (word k of buffer b at 32b + k), or a word
that a core's L1 holds. -/
inductive Place where
  | memory (word : Nat)
  | scratch (lid tid word : Nat)
  | laneReg (cid abs lane : Nat)
  | uniformReg (cid n : Nat)
  | tile (core asid num word : Nat)
  | shell (shell word : Nat)
  | buffer (lid index k : Nat)
  | l1 (core word : Nat)
  deriving DecidableEq, Repr

/-- What the boot ROM reads at reset (R370): the firmware image, the public key that comes with it, and the signature over the image's
hash. -/
structure BootImage where
  image     : List Byte
  key       : List Byte
  signature : List Byte
  deriving DecidableEq, Repr

/-- One instruction or event of the opcode table. -/
inductive Instr where
  /-- ADD_LR (R96): Lane 32-bit wrapping add of two operands in each active lane. -/
  | addLr (d : BitVec 8) (a b : Src)
  /-- ADD_LI (R97): Lane add of a sign-extended 8-bit immediate. -/
  | addLi (d : BitVec 8) (a : Src) (i : BitVec 8)
  /-- SUB_LR (R96): Lane 32-bit wrapping subtract. -/
  | subLr (d : BitVec 8) (a b : Src)
  /-- ADD_SAT_S (R96): Lane signed saturating add. -/
  | addSatS (d : BitVec 8) (a b : Src)
  /-- ADD_SAT_U (R96): Lane unsigned saturating add. -/
  | addSatU (d : BitVec 8) (a b : Src)
  /-- SUB_SAT_S (R96): Lane signed saturating subtract. -/
  | subSatS (d : BitVec 8) (a b : Src)
  /-- SUB_SAT_U (R96): Lane unsigned saturating subtract. -/
  | subSatU (d : BitVec 8) (a b : Src)
  /-- MUL_LR (R96): Lane low 32 bits of the product. -/
  | mulLr (d : BitVec 8) (a b : Src)
  /-- MULHI_U_LR (R96): Lane high 32 bits of the unsigned product. -/
  | mulhiULr (d : BitVec 8) (a b : Src)
  /-- MIN_S_LR (R96): Lane signed minimum. -/
  | minSLr (d : BitVec 8) (a b : Src)
  /-- MIN_U_LR (R96): Lane unsigned minimum. -/
  | minULr (d : BitVec 8) (a b : Src)
  /-- MAX_S_LR (R96): Lane signed maximum. -/
  | maxSLr (d : BitVec 8) (a b : Src)
  /-- MAX_U_LR (R96): Lane unsigned maximum. -/
  | maxULr (d : BitVec 8) (a b : Src)
  /-- AND_LR (R96): Lane bitwise AND. -/
  | andLr (d : BitVec 8) (a b : Src)
  /-- AND_LI (R97): Lane AND with a zero-extended 8-bit immediate. -/
  | andLi (d : BitVec 8) (a : Src) (i : BitVec 8)
  /-- OR_LR (R96): Lane bitwise OR. -/
  | orLr (d : BitVec 8) (a b : Src)
  /-- OR_LI (R97): Lane OR with a zero-extended 8-bit immediate. -/
  | orLi (d : BitVec 8) (a : Src) (i : BitVec 8)
  /-- XOR_LR (R96): Lane bitwise XOR. -/
  | xorLr (d : BitVec 8) (a b : Src)
  /-- XOR_LI (R97): Lane XOR with a zero-extended 8-bit immediate. -/
  | xorLi (d : BitVec 8) (a : Src) (i : BitVec 8)
  /-- SHL_LR (R96): Lane shift left by the low five bits of b. -/
  | shlLr (d : BitVec 8) (a b : Src)
  /-- SHL_LI (R97): Lane shift left by a 5-bit immediate. -/
  | shlLi (d : BitVec 8) (a : Src) (i : BitVec 5)
  /-- SHR_U_LR (R96): Lane logical shift right. -/
  | shrULr (d : BitVec 8) (a b : Src)
  /-- SHR_U_LI (R97): Lane logical shift right by a 5-bit immediate. -/
  | shrULi (d : BitVec 8) (a : Src) (i : BitVec 5)
  /-- SHR_S_LR (R96): Lane arithmetic shift right. -/
  | shrSLr (d : BitVec 8) (a b : Src)
  /-- SHR_S_LI (R97): Lane arithmetic shift right by a 5-bit immediate. -/
  | shrSLi (d : BitVec 8) (a : Src) (i : BitVec 5)
  /-- NOT_L (R98): Lane bitwise complement. -/
  | notL (d : BitVec 8) (a : Src)
  /-- NEG_L (R98): Lane two's complement negation. -/
  | negL (d : BitVec 8) (a : Src)
  /-- ABS_L (R98): Lane absolute value modulo 2^32. -/
  | absL (d : BitVec 8) (a : Src)
  /-- POPC_L (R98): Lane population count. -/
  | popcL (d : BitVec 8) (a : Src)
  /-- CLZ_L (R98): Lane count of leading zeros. -/
  | clzL (d : BitVec 8) (a : Src)
  /-- BREV_L (R98): Lane bit reversal. -/
  | brevL (d : BitVec 8) (a : Src)
  /-- SEXT_B_L (R164): Lane sign extension of byte 0. -/
  | sextBL (d : BitVec 8) (a : Src)
  /-- SEXT_H_L (R164): Lane sign extension of halfword 0. -/
  | sextHL (d : BitVec 8) (a : Src)
  /-- CMPEQ_LR (R96): Lane integer equality compare. -/
  | cmpeqLr (d : BitVec 8) (a b : Src)
  /-- CMPLT_S_LR (R96): Lane signed less-than compare. -/
  | cmpltSLr (d : BitVec 8) (a b : Src)
  /-- CMPLT_U_LR (R96): Lane unsigned less-than compare. -/
  | cmpltULr (d : BitVec 8) (a b : Src)
  /-- CMPLE_S_LR (R96): Lane signed less-or-equal compare. -/
  | cmpleSLr (d : BitVec 8) (a b : Src)
  /-- CMPLE_U_LR (R96): Lane unsigned less-or-equal compare. -/
  | cmpleULr (d : BitVec 8) (a b : Src)
  /-- FADD (R99): Lane FP32 add rounded in FPMODE. -/
  | fadd (d : BitVec 8) (a b : Src)
  /-- FSUB (R99): Lane FP32 subtract. -/
  | fsub (d : BitVec 8) (a b : Src)
  /-- FMUL (R99): Lane FP32 multiply. -/
  | fmul (d : BitVec 8) (a b : Src)
  /-- FFMA (R99): Lane FP32 fused multiply-add into D. -/
  | ffma (d : BitVec 8) (a b : Src)
  /-- FFNMA (R99): Lane FP32 fused d minus x times y. -/
  | ffnma (d : BitVec 8) (a b : Src)
  /-- FMIN (R100): Lane FP32 minimumNumber. -/
  | fmin (d : BitVec 8) (a b : Src)
  /-- FMAX (R100): Lane FP32 maximumNumber. -/
  | fmax (d : BitVec 8) (a b : Src)
  /-- FRCP (R102): Lane correctly rounded FP32 reciprocal. -/
  | frcp (d : BitVec 8) (a : Src)
  /-- FSQRT (R102): Lane correctly rounded FP32 square root. -/
  | fsqrt (d : BitVec 8) (a : Src)
  /-- FRSQ (R102): Lane correctly rounded reciprocal square root. -/
  | frsq (d : BitVec 8) (a : Src)
  /-- FEXP2 (R102): Lane correctly rounded 2^x. -/
  | fexp2 (d : BitVec 8) (a : Src)
  /-- FLOG2 (R102): Lane correctly rounded log2 x. -/
  | flog2 (d : BitVec 8) (a : Src)
  /-- FCMPEQ (R101): Lane FP32 equality compare. -/
  | fcmpeq (d : BitVec 8) (a b : Src)
  /-- FCMPLT (R101): Lane FP32 less-than compare. -/
  | fcmplt (d : BitVec 8) (a b : Src)
  /-- FCMPLE (R101): Lane FP32 less-or-equal compare. -/
  | fcmple (d : BitVec 8) (a b : Src)
  /-- FCMPUN (R101): Lane FP32 unordered compare. -/
  | fcmpun (d : BitVec 8) (a b : Src)
  /-- HADD2_F16 (R103): Packed FP16 add of two elements. -/
  | hadd2F16 (d : BitVec 8) (a b : Src)
  /-- HADD2_BF16 (R103): Packed BF16 add of two elements. -/
  | hadd2Bf16 (d : BitVec 8) (a b : Src)
  /-- HSUB2_F16 (R103): Packed FP16 subtract. -/
  | hsub2F16 (d : BitVec 8) (a b : Src)
  /-- HSUB2_BF16 (R103): Packed BF16 subtract. -/
  | hsub2Bf16 (d : BitVec 8) (a b : Src)
  /-- HMUL2_F16 (R103): Packed FP16 multiply. -/
  | hmul2F16 (d : BitVec 8) (a b : Src)
  /-- HMUL2_BF16 (R103): Packed BF16 multiply. -/
  | hmul2Bf16 (d : BitVec 8) (a b : Src)
  /-- HFMA2_F16 (R103): Packed FP16 fused multiply-add into D. -/
  | hfma2F16 (d : BitVec 8) (a b : Src)
  /-- HFMA2_BF16 (R103): Packed BF16 fused multiply-add into D. -/
  | hfma2Bf16 (d : BitVec 8) (a b : Src)
  /-- HMIN2_F16 (R103): Packed FP16 minimumNumber. -/
  | hmin2F16 (d : BitVec 8) (a b : Src)
  /-- HMIN2_BF16 (R103): Packed BF16 minimumNumber. -/
  | hmin2Bf16 (d : BitVec 8) (a b : Src)
  /-- HMAX2_F16 (R103): Packed FP16 maximumNumber. -/
  | hmax2F16 (d : BitVec 8) (a b : Src)
  /-- HMAX2_BF16 (R103): Packed BF16 maximumNumber. -/
  | hmax2Bf16 (d : BitVec 8) (a b : Src)
  /-- HDOT2_F16 (R104): FP16 pair dot product added to FP32 D with one rounding. -/
  | hdot2F16 (d : BitVec 8) (a b : Src)
  /-- HDOT2_BF16 (R104): BF16 pair dot product added to FP32 D with one rounding. -/
  | hdot2Bf16 (d : BitVec 8) (a b : Src)
  /-- CVT (R105): Lane conversion between integer and floating types in the encoded rounding mode. -/
  | cvt (d : BitVec 8) (a : Src) (m : Rnd) (t s : BitVec 3)
  /-- CVT2_F16 (R106): Narrows two FP32 values into one packed FP16 register. -/
  | cvt2F16 (d : BitVec 8) (a b : Src)
  /-- CVT2_BF16 (R106): Narrows two FP32 values into one packed BF16 register. -/
  | cvt2Bf16 (d : BitVec 8) (a b : Src)
  /-- QSCALE (R108): Computes the block descriptor of each 16-lane group. -/
  | qscale (d : BitVec 8) (a : Src) (f : BitVec 3) (l : BitVec 1)
  /-- QPACK (R109): Encodes each seat's four values into one narrow-element field. -/
  | qpack (d : BitVec 8) (a b : Src)
  /-- QUNPK (R110): Decodes a lane's element from a seat field to FP32. -/
  | qunpk (d : BitVec 8) (a b : Src)
  /-- MOV_L (R111): Lane register copy. -/
  | movL (d : BitVec 8) (a : Src)
  /-- MOVI_L (R111): Lane move of a sign-extended 16-bit immediate. -/
  | moviL (d : BitVec 8) (i : BitVec 16)
  /-- MOVH (R111): Lane write of the upper halfword keeping the lower. -/
  | movh (d : BitVec 8) (i : BitVec 16)
  /-- SEL (R112): Per-lane select of a or b by the condition in D. -/
  | sel (d : BitVec 8) (a b : Src)
  /-- SHFL (R113): Reads a register of another lane of the crew. -/
  | shfl (d : BitVec 8) (a b : Src)
  /-- PERM (R114): Assembles result bytes from a byte pool by the selector in D. -/
  | perm (d : BitVec 8) (a b : Src)
  /-- IF (R244): Opens an IF level on lane nesting counters. -/
  | ifLc (a : Src) (r : BitVec 16)
  /-- ELSE (R244): Swaps active and just-deactivated lanes of the IF level. -/
  | elseLc (r : BitVec 16)
  /-- ENDIF (R244): Closes an IF level by decrementing nonzero counters. -/
  | endif (r : BitVec 16)
  /-- LOOP (R244): Opens a loop level on lane nesting counters. -/
  | loop (r : BitVec 16)
  /-- BRK (R244): Breaks active lanes out d levels. -/
  | brk (d : BitVec 8) (r : BitVec 16)
  /-- CONT (R244): Continues active lanes to the next pass, setting the continue bit. -/
  | cont (d : BitVec 8) (r : BitVec 16)
  /-- LEND (R245): Closes a loop pass, branching back while any lane is active. -/
  | lend (r : BitVec 16)
  /-- SPLIT (R253): Divides active lanes and opens an inline, real or fallback construct. -/
  | split (a : Src) (r : BitVec 16)
  /-- MEET (R256): Ends the true arm of a split construct. -/
  | meet (r : BitVec 16)
  /-- JOIN (R256): Parks a split at the construct's join or completes the construct. -/
  | join (r : BitVec 16)
  /-- LDG_B (R162): Lane global byte load, zero-extended. -/
  | ldgB (t x : BitVec 8) (b : BitVec 6) (s : BitVec 2)
  /-- LDG_H (R162): Lane global halfword load. -/
  | ldgH (t x : BitVec 8) (b : BitVec 6) (s : BitVec 2)
  /-- LDG_W (R162): Lane global word load. -/
  | ldgW (t x : BitVec 8) (b : BitVec 6) (s : BitVec 2)
  /-- LDG_D (R162): Lane global doubleword load into a pair. -/
  | ldgD (t x : BitVec 8) (b : BitVec 6) (s : BitVec 2)
  /-- LDG_Q (R162): Lane global 16-byte load into four registers. -/
  | ldgQ (t x : BitVec 8) (b : BitVec 6) (s : BitVec 2)
  /-- STG_B (R162): Lane global byte store. -/
  | stgB (t x : BitVec 8) (b : BitVec 6) (s : BitVec 2)
  /-- STG_H (R162): Lane global halfword store. -/
  | stgH (t x : BitVec 8) (b : BitVec 6) (s : BitVec 2)
  /-- STG_W (R162): Lane global word store. -/
  | stgW (t x : BitVec 8) (b : BitVec 6) (s : BitVec 2)
  /-- STG_D (R162): Lane global doubleword store. -/
  | stgD (t x : BitVec 8) (b : BitVec 6) (s : BitVec 2)
  /-- STG_Q (R162): Lane global 16-byte store. -/
  | stgQ (t x : BitVec 8) (b : BitVec 6) (s : BitVec 2)
  /-- LDS_B (R162): Lane scratchpad byte load. -/
  | ldsB (t x : BitVec 8) (b : BitVec 6) (s : BitVec 2)
  /-- LDS_H (R162): Lane scratchpad halfword load. -/
  | ldsH (t x : BitVec 8) (b : BitVec 6) (s : BitVec 2)
  /-- LDS_W (R162): Lane scratchpad word load. -/
  | ldsW (t x : BitVec 8) (b : BitVec 6) (s : BitVec 2)
  /-- LDS_D (R162): Lane scratchpad doubleword load. -/
  | ldsD (t x : BitVec 8) (b : BitVec 6) (s : BitVec 2)
  /-- LDS_Q (R162): Lane scratchpad 16-byte load. -/
  | ldsQ (t x : BitVec 8) (b : BitVec 6) (s : BitVec 2)
  /-- STS_B (R162): Lane scratchpad byte store. -/
  | stsB (t x : BitVec 8) (b : BitVec 6) (s : BitVec 2)
  /-- STS_H (R162): Lane scratchpad halfword store. -/
  | stsH (t x : BitVec 8) (b : BitVec 6) (s : BitVec 2)
  /-- STS_W (R162): Lane scratchpad word store. -/
  | stsW (t x : BitVec 8) (b : BitVec 6) (s : BitVec 2)
  /-- STS_D (R162): Lane scratchpad doubleword store. -/
  | stsD (t x : BitVec 8) (b : BitVec 6) (s : BitVec 2)
  /-- STS_Q (R162): Lane scratchpad 16-byte store. -/
  | stsQ (t x : BitVec 8) (b : BitVec 6) (s : BitVec 2)
  /-- LDQ_W (R162): Lane word load through the squad window. -/
  | ldqW (t x : BitVec 8) (b : BitVec 6) (s : BitVec 2)
  /-- STQ_W (R162): Lane word store through the squad window. -/
  | stqW (t x : BitVec 8) (b : BitVec 6) (s : BitVec 2)
  /-- LDA_W (R166): Lane word load with acquire semantics at a scope. -/
  | ldaW (t a : BitVec 8) (s : Scope)
  /-- STL_W (R166): Lane word store with release semantics at a scope. -/
  | stlW (t a : BitVec 8) (s : Scope)
  /-- LDR_W (R168): Lane word load that sets the lane's reservation. -/
  | ldrW (t a : BitVec 8)
  /-- STC_W (R168): Lane conditional store that succeeds only on a valid reservation. -/
  | stcW (t a : BitVec 8)
  /-- ATOM_ADD (R170): Lane 32-bit atomic add at the home slice returning the old value. -/
  | atomAdd (t a : BitVec 8) (c : Scope) (e : Sem)
  /-- ATOM_AND (R170): Lane atomic AND. -/
  | atomAnd (t a : BitVec 8) (c : Scope) (e : Sem)
  /-- ATOM_OR (R170): Lane atomic OR. -/
  | atomOr (t a : BitVec 8) (c : Scope) (e : Sem)
  /-- ATOM_XOR (R170): Lane atomic XOR. -/
  | atomXor (t a : BitVec 8) (c : Scope) (e : Sem)
  /-- ATOM_MIN_S (R170): Lane atomic signed minimum. -/
  | atomMinS (t a : BitVec 8) (c : Scope) (e : Sem)
  /-- ATOM_MIN_U (R170): Lane atomic unsigned minimum. -/
  | atomMinU (t a : BitVec 8) (c : Scope) (e : Sem)
  /-- ATOM_MAX_S (R170): Lane atomic signed maximum. -/
  | atomMaxS (t a : BitVec 8) (c : Scope) (e : Sem)
  /-- ATOM_MAX_U (R170): Lane atomic unsigned maximum. -/
  | atomMaxU (t a : BitVec 8) (c : Scope) (e : Sem)
  /-- ATOM_XCHG (R170): Lane atomic 32-bit exchange. -/
  | atomXchg (t a : BitVec 8) (c : Scope) (e : Sem)
  /-- ATOM_CAS (R170): Lane atomic 32-bit compare and swap. -/
  | atomCas (t a : BitVec 8) (c : Scope) (e : Sem)
  /-- ATOM_ADD_F (R170): Lane atomic FP32 add rounded RN. -/
  | atomAddF (t a : BitVec 8) (c : Scope) (e : Sem)
  /-- ATOM_ADD_D (R170): Lane atomic 64-bit add. -/
  | atomAddD (t a : BitVec 8) (c : Scope) (e : Sem)
  /-- ATOM_XCHG_D (R170): Lane atomic 64-bit exchange. -/
  | atomXchgD (t a : BitVec 8) (c : Scope) (e : Sem)
  /-- ATOM_CAS_D (R170): Lane atomic 64-bit compare and swap. -/
  | atomCasD (t a : BitVec 8) (c : Scope) (e : Sem)
  /-- ATOM_SEQ_ADD (R171): Atomic add that also returns the line's WSEQ. -/
  | atomSeqAdd (t a : BitVec 8) (c : Scope) (e : Sem)
  /-- ATOM_SEQ_AND (R171): Atomic AND returning WSEQ. -/
  | atomSeqAnd (t a : BitVec 8) (c : Scope) (e : Sem)
  /-- ATOM_SEQ_OR (R171): Atomic OR returning WSEQ. -/
  | atomSeqOr (t a : BitVec 8) (c : Scope) (e : Sem)
  /-- ATOM_SEQ_XOR (R171): Atomic XOR returning WSEQ. -/
  | atomSeqXor (t a : BitVec 8) (c : Scope) (e : Sem)
  /-- ATOM_SEQ_MIN_S (R171): Atomic signed minimum returning WSEQ. -/
  | atomSeqMinS (t a : BitVec 8) (c : Scope) (e : Sem)
  /-- ATOM_SEQ_MIN_U (R171): Atomic unsigned minimum returning WSEQ. -/
  | atomSeqMinU (t a : BitVec 8) (c : Scope) (e : Sem)
  /-- ATOM_SEQ_MAX_S (R171): Atomic signed maximum returning WSEQ. -/
  | atomSeqMaxS (t a : BitVec 8) (c : Scope) (e : Sem)
  /-- ATOM_SEQ_MAX_U (R171): Atomic unsigned maximum returning WSEQ. -/
  | atomSeqMaxU (t a : BitVec 8) (c : Scope) (e : Sem)
  /-- ATOM_SEQ_XCHG (R171): Atomic exchange returning WSEQ. -/
  | atomSeqXchg (t a : BitVec 8) (c : Scope) (e : Sem)
  /-- ATOM_SEQ_CAS (R171): Atomic compare and swap returning WSEQ. -/
  | atomSeqCas (t a : BitVec 8) (c : Scope) (e : Sem)
  /-- ATOM_SEQ_ADD_F (R171): Atomic FP32 add returning WSEQ. -/
  | atomSeqAddF (t a : BitVec 8) (c : Scope) (e : Sem)
  /-- ATOM_SEQ_ADD_D (R171): Atomic 64-bit add returning WSEQ. -/
  | atomSeqAddD (t a : BitVec 8) (c : Scope) (e : Sem)
  /-- ATOM_SEQ_XCHG_D (R171): Atomic 64-bit exchange returning WSEQ. -/
  | atomSeqXchgD (t a : BitVec 8) (c : Scope) (e : Sem)
  /-- ATOM_SEQ_CAS_D (R171): Atomic 64-bit compare and swap returning WSEQ. -/
  | atomSeqCasD (t a : BitVec 8) (c : Scope) (e : Sem)
  /-- RED_ADD (R172): Posted 32-bit add reduction at the home slice. -/
  | redAdd (t a : BitVec 8) (c : Scope) (e : Sem)
  /-- RED_AND (R172): Posted AND reduction. -/
  | redAnd (t a : BitVec 8) (c : Scope) (e : Sem)
  /-- RED_OR (R172): Posted OR reduction. -/
  | redOr (t a : BitVec 8) (c : Scope) (e : Sem)
  /-- RED_XOR (R172): Posted XOR reduction. -/
  | redXor (t a : BitVec 8) (c : Scope) (e : Sem)
  /-- RED_MIN_S (R172): Posted signed minimum reduction. -/
  | redMinS (t a : BitVec 8) (c : Scope) (e : Sem)
  /-- RED_MIN_U (R172): Posted unsigned minimum reduction. -/
  | redMinU (t a : BitVec 8) (c : Scope) (e : Sem)
  /-- RED_MAX_S (R172): Posted signed maximum reduction. -/
  | redMaxS (t a : BitVec 8) (c : Scope) (e : Sem)
  /-- RED_MAX_U (R172): Posted unsigned maximum reduction. -/
  | redMaxU (t a : BitVec 8) (c : Scope) (e : Sem)
  /-- RED_ADD_F (R172): Posted FP32 add reduction rounded RN. -/
  | redAddF (t a : BitVec 8) (c : Scope) (e : Sem)
  /-- RED_ADD_D (R172): Posted 64-bit add reduction. -/
  | redAddD (t a : BitVec 8) (c : Scope) (e : Sem)
  /-- ADD_U (R50): Uniform 64-bit add. -/
  | addU (d a b : BitVec 6)
  /-- SUB_U (R50): Uniform 64-bit subtract. -/
  | subU (d a b : BitVec 6)
  /-- MUL_U (R50): Uniform low 64 bits of the product. -/
  | mulU (d a b : BitVec 6)
  /-- MULHI_S_U (R50): Uniform signed high 64 bits of the product. -/
  | mulhiSU (d a b : BitVec 6)
  /-- MULHI_U_U (R50): Uniform unsigned high 64 bits of the product. -/
  | mulhiUU (d a b : BitVec 6)
  /-- AND_U (R50): Uniform bitwise AND. -/
  | andU (d a b : BitVec 6)
  /-- OR_U (R50): Uniform bitwise OR. -/
  | orU (d a b : BitVec 6)
  /-- XOR_U (R50): Uniform bitwise XOR. -/
  | xorU (d a b : BitVec 6)
  /-- ANDN_U (R50): Uniform AND with complement. -/
  | andnU (d a b : BitVec 6)
  /-- SHL_U (R50): Uniform shift left. -/
  | shlU (d a b : BitVec 6)
  /-- SHR_U_U (R50): Uniform logical shift right. -/
  | shrUU (d a b : BitVec 6)
  /-- SHR_S_U (R50): Uniform arithmetic shift right. -/
  | shrSU (d a b : BitVec 6)
  /-- MIN_S_U (R50): Uniform signed minimum. -/
  | minSU (d a b : BitVec 6)
  /-- MIN_U_U (R50): Uniform unsigned minimum. -/
  | minUU (d a b : BitVec 6)
  /-- MAX_S_U (R50): Uniform signed maximum. -/
  | maxSU (d a b : BitVec 6)
  /-- MAX_U_U (R50): Uniform unsigned maximum. -/
  | maxUU (d a b : BitVec 6)
  /-- CMPEQ_U (R50): Uniform equality compare. -/
  | cmpeqU (d a b : BitVec 6)
  /-- CMPNE_U (R50): Uniform inequality compare. -/
  | cmpneU (d a b : BitVec 6)
  /-- CMPLT_S_U (R50): Uniform signed less-than compare. -/
  | cmpltSU (d a b : BitVec 6)
  /-- CMPLT_U_U (R50): Uniform unsigned less-than compare. -/
  | cmpltUU (d a b : BitVec 6)
  /-- CMPLE_S_U (R50): Uniform signed less-or-equal compare. -/
  | cmpleSU (d a b : BitVec 6)
  /-- CMPLE_U_U (R50): Uniform unsigned less-or-equal compare. -/
  | cmpleUU (d a b : BitVec 6)
  /-- MOV_U (R52): Uniform register copy. -/
  | movU (d a : BitVec 6)
  /-- NOT_U (R52): Uniform bitwise complement. -/
  | notU (d a : BitVec 6)
  /-- NEG_U (R52): Uniform negation. -/
  | negU (d a : BitVec 6)
  /-- ABS_U (R52): Uniform absolute value. -/
  | absU (d a : BitVec 6)
  /-- POPC_U (R52): Uniform population count. -/
  | popcU (d a : BitVec 6)
  /-- CLZ_U (R52): Uniform count of leading zeros. -/
  | clzU (d a : BitVec 6)
  /-- BREV_U (R52): Uniform 64-bit bit reversal. -/
  | brevU (d a : BitVec 6)
  /-- SEXT_B_U (R52): Uniform sign extension of a byte. -/
  | sextBU (d a : BitVec 6)
  /-- SEXT_H_U (R52): Uniform sign extension of a halfword. -/
  | sextHU (d a : BitVec 6)
  /-- SEXT_W_U (R52): Uniform sign extension of a word. -/
  | sextWU (d a : BitVec 6)
  /-- ADD_UI (R52): Uniform add of a sign-extended 12-bit immediate. -/
  | addUi (d a : BitVec 6) (i : BitVec 12)
  /-- AND_UI (R52): Uniform AND with a zero-extended immediate. -/
  | andUi (d a : BitVec 6) (i : BitVec 12)
  /-- OR_UI (R52): Uniform OR with a zero-extended immediate. -/
  | orUi (d a : BitVec 6) (i : BitVec 12)
  /-- XOR_UI (R52): Uniform XOR with a zero-extended immediate. -/
  | xorUi (d a : BitVec 6) (i : BitVec 12)
  /-- SHL_UI (R52): Uniform shift left by a 6-bit immediate. -/
  | shlUi (d a i : BitVec 6)
  /-- SHR_U_UI (R52): Uniform logical shift right by an immediate. -/
  | shrUUi (d a i : BitVec 6)
  /-- SHR_S_UI (R52): Uniform arithmetic shift right by an immediate. -/
  | shrSUi (d a i : BitVec 6)
  /-- CMPEQ_UI (R52): Uniform equality compare with an immediate. -/
  | cmpeqUi (d a : BitVec 6) (i : BitVec 12)
  /-- CMPLT_S_UI (R52): Uniform signed less-than compare with an immediate. -/
  | cmpltSUi (d a : BitVec 6) (i : BitVec 12)
  /-- CMPLT_U_UI (R52): Uniform unsigned less-than compare with an immediate. -/
  | cmpltUUi (d a : BitVec 6) (i : BitVec 12)
  /-- MOVI_U (R52): Uniform move of a sign-extended 18-bit immediate. -/
  | moviU (d : BitVec 6) (i : BitVec 18)
  /-- MOVX (R52): Shifts sD left 18 bits and ORs in an immediate. -/
  | movx (d : BitVec 6) (i : BitVec 18)
  /-- BRA (R248): Unconditional uniform branch. -/
  | bra (r : BitVec 18)
  /-- BZ (R248): Branch when a uniform register is zero. -/
  | bz (a : BitVec 6) (r : BitVec 18)
  /-- BNZ (R248): Branch when a uniform register is nonzero. -/
  | bnz (a : BitVec 6) (r : BitVec 18)
  /-- JMP (R248): Jump to the address in a uniform register. -/
  | jmp (a : BitVec 6)
  /-- CALL (R249): Slides the register window, writes the link and branches. -/
  | call (n : BitVec 6) (r : BitVec 18)
  /-- TRAP (R332): Raises SWTRAP with a software code. -/
  | trap (c : BitVec 18)
  /-- ANY (R251): Vote: 1 if any active lane's operand is nonzero. -/
  | any (d : BitVec 6) (f : Src)
  /-- ALL (R251): Vote: 1 if every active lane's operand is nonzero. -/
  | all (d : BitVec 6) (f : Src)
  /-- BALLOT (R251): Vote: mask of active lanes with a nonzero operand. -/
  | ballot (d : BitVec 6) (f : Src)
  /-- SRD_S (R32): Reads a special register into a uniform register. -/
  | srdS (d : BitVec 6) (p : BitVec 8)
  /-- SRD_V (R32): Reads a special register into a lane register per lane. -/
  | srdV (d : BitVec 6) (p : BitVec 8) (h : BitVec 1)
  /-- SWR (R33): Writes a special register from a uniform register. -/
  | swr (a : BitVec 6) (p : BitVec 8)
  /-- FENCE (R167): Release and/or acquire fence at a scope for the issuing split. -/
  | fence (c : Scope) (e : Sem)
  /-- FQPOP (R338): Pops the crew's oldest store-fault record into four uniform registers. -/
  | fqpop (d : BitVec 6)
  /-- LAUNCH (R62): Reads a launch record, checks it, creates the launch and writes STATUS. -/
  | launch (a : BitVec 6)
  /-- LAUNCH_AT (R62): Launch held until a fabric time. -/
  | launchAt (a b : BitVec 6)
  /-- FB_MARK (R349): Takes an explicit flashback mark with pins and a recipe address. -/
  | fbMark (a b c : BitVec 6)
  /-- BAR_ALLOC (R177): Allocates a barrier object and its backing word. -/
  | barAlloc (d : BitVec 6)
  /-- BAR_INIT (R178): Sets a barrier object's expected arrivals, bytes and scope. -/
  | barInit (a b c : BitVec 6)
  /-- BAR_EXPECT (R179): Adds expected bytes and evaluates the object. -/
  | barExpect (a b : BitVec 6)
  /-- BAR_ARRIVE (R180): Releases and counts one arrival on the team's object. -/
  | barArrive (a : BitVec 6)
  /-- BAR_ARRIVE_Q (R181): Arrives on an object of a squad peer team. -/
  | barArriveQ (a b : BitVec 6)
  /-- BAR_WAIT (R182): Parks until a phase flip then acquires at the object's scope. -/
  | barWait (a : BitVec 6)
  /-- BAR_TEST (R183): Reads the object's phase bit. -/
  | barTest (d a : BitVec 6)
  /-- BAR_FREE (R184): Frees a barrier object and advances its generation. -/
  | barFree (a : BitVec 6)
  /-- CP_TILE (R191): Issues a rectangle copy command. -/
  | cpTile (a b c e : BitVec 6)
  /-- CP_BULK (R190): Issues a contiguous copy command. -/
  | cpBulk (a b c e : BitVec 6)
  /-- CP_GATHER (R192): Issues an indexed row gather command. -/
  | cpGather (a b c e : BitVec 6)
  /-- CP_RED (R193): Issues a reduction of words into device memory. -/
  | cpRed (a b c e : BitVec 6)
  /-- CP_AT (R194): Issues a copy command timed to a fabric time. -/
  | cpAt (a b e : BitVec 6)
  /-- MMA (R126): Queues one chunk matrix product into an accumulator tile. -/
  | mma (a b c e : BitVec 6)
  /-- ACC_ZERO (R127): Claims and queues clearing of a tile. -/
  | accZero (a : BitVec 6)
  /-- ACC_LD (R127): Claims and queues loading of a tile image. -/
  | accLd (a b : BitVec 6)
  /-- ACC_ST (R128): Queues conversion and store of a tile to scratchpad. -/
  | accSt (a b c e : BitVec 6)
  /-- ACC_RED (R129): Translates, registers and queues a tile reduction into device memory. -/
  | accRed (a b c e : BitVec 6)
  /-- SLD_B (R165): Uniform global byte load. -/
  | sldB (d a : BitVec 6) (i : BitVec 12)
  /-- SLD_H (R165): Uniform global halfword load. -/
  | sldH (d a : BitVec 6) (i : BitVec 12)
  /-- SLD_W (R165): Uniform global word load. -/
  | sldW (d a : BitVec 6) (i : BitVec 12)
  /-- SLD_D (R165): Uniform global doubleword load. -/
  | sldD (d a : BitVec 6) (i : BitVec 12)
  /-- SST_B (R165): Uniform global byte store. -/
  | sstB (t a : BitVec 6) (i : BitVec 12)
  /-- SST_H (R165): Uniform global halfword store. -/
  | sstH (t a : BitVec 6) (i : BitVec 12)
  /-- SST_W (R165): Uniform global word store. -/
  | sstW (t a : BitVec 6) (i : BitVec 12)
  /-- SST_D (R165): Uniform global doubleword store. -/
  | sstD (t a : BitVec 6) (i : BitVec 12)
  /-- SH_GET_W (R230): Queues a read of one shell word. -/
  | shGetW (d a : BitVec 6) (e : Sem)
  /-- SH_GET_P (R230): Queues a copy of a whole shell payload to scratchpad. -/
  | shGetP (a b : BitVec 6) (e : Sem)
  /-- SH_OP_ADD (R231): Queues a 32-bit add on a shell word. -/
  | shOpAdd (d a b : BitVec 6) (e : Sem)
  /-- SH_OP_ADD_F (R231): Queues an FP32 add on a shell word. -/
  | shOpAddF (d a b : BitVec 6) (e : Sem)
  /-- SH_OP_MIN (R231): Queues an FP32 minimum on a shell word. -/
  | shOpMin (d a b : BitVec 6) (e : Sem)
  /-- SH_OP_MAX (R231): Queues an FP32 maximum on a shell word. -/
  | shOpMax (d a b : BitVec 6) (e : Sem)
  /-- SH_OP_MIN_S (R231): Queues a signed minimum on a shell word. -/
  | shOpMinS (d a b : BitVec 6) (e : Sem)
  /-- SH_OP_MIN_U (R231): Queues an unsigned minimum on a shell word. -/
  | shOpMinU (d a b : BitVec 6) (e : Sem)
  /-- SH_OP_MAX_S (R231): Queues a signed maximum on a shell word. -/
  | shOpMaxS (d a b : BitVec 6) (e : Sem)
  /-- SH_OP_MAX_U (R231): Queues an unsigned maximum on a shell word. -/
  | shOpMaxU (d a b : BitVec 6) (e : Sem)
  /-- SH_OP_AND (R231): Queues an AND on a shell word. -/
  | shOpAnd (d a b : BitVec 6) (e : Sem)
  /-- SH_OP_OR (R231): Queues an OR on a shell word. -/
  | shOpOr (d a b : BitVec 6) (e : Sem)
  /-- SH_OP_XOR (R231): Queues an XOR on a shell word. -/
  | shOpXor (d a b : BitVec 6) (e : Sem)
  /-- SH_OP_SWAP (R231): Queues a swap of a shell word. -/
  | shOpSwap (d a b : BitVec 6) (e : Sem)
  /-- SH_OP_CAS (R231): Queues a compare and swap of a shell word. -/
  | shOpCas (d a b : BitVec 6) (e : Sem)
  /-- SH_LAND (R235): Queues the landing of a shell into a station berth. -/
  | shLand (a : BitVec 6)
  /-- SH_PUT (R235): Writes the working copy of a landed shell. -/
  | shPut (a b : BitVec 6)
  /-- SH_FLOAT (R236): Posts the return of a landed shell to the ring. -/
  | shFloat (a : BitVec 6) (e : Sem)
  /-- RET (R250): Returns from a CALL, restoring the window base. -/
  | ret
  /-- EXIT (R67): Drains stores and retires the split's active lanes. -/
  | exit
  /-- YIELD (R248): Removes the split from issue candidacy for 16 cycles. -/
  | yield
  /-- NOP (R248): No operation. -/
  | nop
  /-- RETT (R333): Returns from a trap handler restoring set-aside control state. -/
  | rett
  /-- TERM (R67): Retires every lane of the crew at once. -/
  | term
  /-- STDRAIN (R337): Waits for earlier stores to translate, taking any due store fault. -/
  | stdrain
  /-- STEP (R285): Publishes the cells' registers and advances their step counters once neighbours allow. -/
  | step
  /-- FB_GO (R354): Ends recipe mode and resumes at the mark PC. -/
  | fbGo
  /-- TEAM_RETIRE (R68): A team whose crews and engine commands are done frees scratchpad and barrier entries. -/
  | teamRetire (lid tid : Nat)
  /-- GRID_RETIRE (R68): A launch whose teams and children have retired makes writes visible, writes STATUS, arrives on DONE and notifies. -/
  | gridRetire (lid : Nat)
  /-- LAUNCH_AT_DUE (R262): A held timed launch becomes pending once FTIME reaches its time. -/
  | launchAtDue (lid : Nat)
  /-- DISTRIBUTOR_PASS (R267): The distributor places pending launches by priority and acceptance order after a change. -/
  | distributorPass (part : Nat)
  /-- CONTEXT_SWITCH_OUT (R355): The context scheduler pre-empts every team of a context and ends its landings. -/
  | contextSwitchOut (asid : Nat)
  /-- CONTEXT_SWITCH_IN (R268): The context scheduler makes a switched-out context resident again. -/
  | contextSwitchIn (asid : Nat)
  /-- PREEMPT (R352): A team is stopped, drained, saved and its core resources freed. -/
  | preempt (lid tid : Nat)
  /-- TEAM_RESUME (R353): A pre-empted team is restored on a core, its splits re-created and recipes run. -/
  | teamResume (lid tid : Nat)
  /-- SPLIT_WAKE (R273): A parked split re-enters its row's age order after a flip or merge. -/
  | splitWake (cid sid : Nat)
  /-- FAIRNESS_SWAP (R255): A fallback construct swaps arms after the 4,096th issued instruction. -/
  | fairnessSwap (cid sid : Nat)
  /-- YIELD_SHADOW_END (R248): The 16-cycle YIELD shadow expires and the split is again a candidate. -/
  | yieldShadowEnd (cid sid : Nat)
  /-- MMA_EXEC (R130): The matrix engine adds one chunk sum into every word of a tile. -/
  | mmaExec (core : Nat)
  /-- ACC_ZERO_EXEC (R127): The engine clears a tile. -/
  | accZeroExec (core : Nat)
  /-- ACC_LD_EXEC (R127): The engine loads a tile image into a tile. -/
  | accLdExec (core : Nat)
  /-- ACC_ST_EXEC (R128): The engine converts a tile and writes it to scratchpad. -/
  | accStExec (core : Nat)
  /-- ACC_ST_COMPLETE (R128): All ACC.ST destination bytes are written and the byte count is delivered. -/
  | accStComplete (core : Nat)
  /-- ACC_RED_EXEC (R129): The engine sends a tile's additions to their home-slice adders. -/
  | accRedExec (core : Nat)
  /-- ACC_RED_COMPLETE (R129): All 4,096 additions are performed and 16,384 bytes are delivered. -/
  | accRedComplete (core : Nat)
  /-- COPY_DISPATCH (R185): A queued copy command is dispatched to a free engine of the partition. -/
  | copyDispatch (core : Nat)
  /-- CP_AT_DISPATCH (R194): A timed copy is dispatched once FTIME reaches its time. -/
  | cpAtDispatch (core seq : Nat)
  /-- COPY_COMPLETE (R188): A copy's words are all written and its byte count is delivered as a release. -/
  | copyComplete (die engine : Nat)
  /-- SLICE_ADDER_OP (R152): A slice adder performs one atomic or reduction on a word. -/
  | sliceAdderOp (seq : Nat)
  /-- HELD_WRITE_PERFORM (R187): A write held on a pending or engine-read word is performed after the engine. -/
  | heldWritePerform (seq : Nat)
  /-- STORE_REGISTRATION (R144): A home slice grants a sector registration to a writing core. -/
  | storeRegistration (seq : Nat)
  /-- SECTOR_REVOKE (R144): A home slice revokes a sector from its owner. -/
  | sectorRevoke (sector : Nat)
  /-- OWNER_WRITE_BACK (R144): A revoked owner writes back its dirty words to the home slice. -/
  | ownerWriteBack (sector : Nat)
  /-- READ_FORWARD (R144): A read of a registered word is forwarded to and served by the owner. -/
  | readForward (core word : Nat)
  /-- MIRROR_INVALIDATE (R147): A home slice invalidates live mirrors before a write event. -/
  | mirrorInvalidate (line : Nat)
  /-- LINE_FILL (R150): A fill completes into a chosen victim way. -/
  | lineFill (slice line : Nat)
  /-- SPILL_QUEUE_REFILL (R149): A spilled general request is fetched back into a free general entry. -/
  | spillQueueRefill (slice : Nat)
  /-- PEER_L1_PROBE (R142): An L1 miss probes a peer L1 of the cluster. -/
  | peerL1Probe (core line : Nat)
  /-- REGISTRATION_ACK (R205): A home slice acknowledges a registration counted by the core. -/
  | registrationAck (core asid : Nat)
  /-- STORE_TRANSLATE (R334): An issued store translates per lane, performing or recording a fault. -/
  | storeTranslate (cid sid : Nat)
  /-- FAULT_QUEUE_ADMIT (R335): A held store fault enters the record queue when an entry frees. -/
  | faultQueueAdmit (core : Nat)
  /-- PAGE_WALK_DONE (R342): A page-table walk completes, filling the TLB or faulting. -/
  | pageWalkDone (core asid va : Nat)
  /-- TRAP_ENTRY (R329): A due trap is taken, saving control state and entering the handler. -/
  | trapEntry (cid sid : Nat)
  /-- SHELL_OP_EFFECT (R233): An eligible shell operation takes effect as its shell passes the station. -/
  | shellOpEffect (core shell : Nat)
  /-- SHELL_LAND_EFFECT (R235): A queued landing takes the shell off the ring into a berth. -/
  | shellLandEffect (core shell : Nat)
  /-- SHELL_FLOAT_EFFECT (R236): The working copy becomes the payload as the hole passes the holder's station. -/
  | shellFloatEffect (shell : Nat)
  /-- SHELL_OVERSTAY (R237): After 14 passes without a float the original floats back and SHOVERSTAY is due. -/
  | shellOverstay (shell : Nat)
  /-- SHELL_LANDING_LOSS (R236): A holder that traps, is pre-empted or ceases loses its landing at the next pass. -/
  | shellLandingLoss (shell : Nat)
  /-- SHELL_COOLDOWN_END (R236): A shell leaves cooldown 576 cycles after its float. -/
  | shellCooldownEnd (shell : Nat)
  /-- NEIGHBOUR_READ (R284): A waiting neighbour operand is served once the neighbour's step counter allows. -/
  | neighbourRead (cid sid : Nat)
  /-- STEP_COMPLETE (R285): A parked STEP captures buffers and advances sigma once neighbours reach it. -/
  | stepComplete (cid sid : Nat)
  /-- PAGE_OUT (R288): A seat's state is written to its record and its lanes removed from the host. -/
  | pageOut (lid seat : Nat)
  /-- HOST_CUT (R293): A field host not evictable 1 ms after a switch request is ended as by TERM. -/
  | hostCut (cid : Nat)
  /-- CTX_START (R308): CTXCMD START checks an entry, grants shells and creates the steering crew. -/
  | ctxStart (part asid : Nat)
  /-- CTX_STOP (R308): CTXCMD STOP terminates a context and releases its resources. -/
  | ctxStop (part asid : Nat)
  /-- PCTL_WRITE (R304): A PCTL write enables, disables or reshapes a partition. -/
  | pctlWrite (part : Nat) (value : Word)
  /-- ENG_MASK_WRITE (R304): A write to ENG0-ENG3 is checked and changes the partition's copy engines. -/
  | engMaskWrite (part die : Nat) (value : Word)
  /-- SCRUB_COMPLETE (R306): A background bay scrub finishes and BUMPS is reset. -/
  | scrubComplete (bay : Nat)
  /-- L2_BUCKET_TICK (R309): Each 1 us a slice refills context buckets and shares the overflow pool. -/
  | l2BucketTick (slice : Nat)
  /-- PORT_BUCKET_TICK (R310): Each 1 us a fabric port refills key buckets. -/
  | portBucketTick (port : Nat)
  /-- KBKT_WRITE (R310): A KBKT write, ignored if rates exceed 390, takes effect at the next tick. -/
  | kbktWrite (entry : Nat) (value : DWord)
  /-- INGRESS_FLIT (R322): An arriving flit is checked against the key table and admitted to a slot or dropped. -/
  | ingressFlit (port src key offset : Nat) (write : Bool) (data : DWord)
  /-- EXPORT_REQUEST (R316): An ingress request is mapped through the export table and served locally. -/
  | exportRequest (src key offset : Nat) (write : Bool) (data : DWord)
  /-- REMOTE_ARRIVE (R70): A write to RARRIVE arrives and is checked as a remote arrival. -/
  | remoteArrive (asid src key count : Nat) (value : DWord)
  /-- ARRIVAL_PERFORM (R319): A held remote arrival is performed once the source's earlier writes are. -/
  | arrivalPerform (n : Nat)
  /-- ROUTE_UNUSABLE_TIMEOUT (R320): Messages held 100 us on an unusable route complete with poison or are dropped. -/
  | routeUnusableTimeout (ep : Nat)
  /-- STRICT_RETRANSMIT (R321): Strict messages lost on a failed path are resent in order on the new path. -/
  | strictRetransmit (dst key : Nat)
  /-- RSWAP_ROUTE (R324): RSWAP swaps the active routing table copy. -/
  | rswapRoute
  /-- RSWAP_KEY (R324): RSWAP swaps the active key table copy. -/
  | rswapKey
  /-- SWAP_COMPLETE (R324): A table swap completes, clearing BUSY and posting a notice. -/
  | swapComplete
  /-- PORT_FAIL (R325): A port fails on replay timeout or lost lock and leaves all live sets. -/
  | portFail (port : Nat)
  /-- PORT_LIVE (R325): A retrained port rejoins the live sets and a notice is posted. -/
  | portLive (port : Nat)
  /-- PORTCTL_EN (R325): A PORTCTL write of EN enables or fails a port. -/
  | portctlEn (port : Nat) (en : Bool)
  /-- PORTCTL_FAIL_CLEAR (R323): Writing 1 to FAIL clears the port's failed flag. -/
  | portctlFailClear (port : Nat)
  /-- PORTCTL_KCLR (R323): Writing KCLR clears the port's KDROP counter. -/
  | portctlKclr (port : Nat)
  /-- FTIME_SYNC_EXCHANGE (R326): A delay request-response exchange with the time master slews FTIME. -/
  | ftimeSyncExchange (master : DWord) (offset : Half)
  /-- FTIME_LOCK_LOSS (R326): LOCK clears after 1 ms without a successful exchange. -/
  | ftimeLockLoss
  /-- SHOOTDOWN_PAGE (R344): SDCMD with ALL = 0 starts shooting down one page of an ASID. -/
  | shootdownPage (part asid size : Nat)
  /-- SHOOTDOWN_ALL (R344): SDCMD with ALL = 1 starts shooting down every translation of an ASID. -/
  | shootdownAll (part asid : Nat)
  /-- SHOOTDOWN_COMPLETE (R344): A shootdown finishes its removals and drains and writes RESULT. -/
  | shootdownComplete (part : Nat)
  /-- CORRECTABLE_ERROR (R345): A correctable ECC error is corrected and counted. -/
  | correctableError (unit : Nat)
  /-- UNCORRECTABLE_ERROR (R345): An uncorrectable ECC error poisons its word. -/
  | uncorrectableError (place : Place)
  /-- POWER_THROTTLE (R368): The 1 ms power average above PWRCAP withholds issue slots. -/
  | powerThrottle (on : Bool)
  /-- HOT_STOP (R368): Outlet temperature reaching 95 C stops issue and sets HOT. -/
  | hotStop (outlet : Half)
  /-- HOT_CLEAR (R368): Outlet temperature below 85 C resumes issue. -/
  | hotClear (outlet : Half)
  /-- DEVICE_RESET (R370): Reset runs the boot ROM, verifies firmware, measures it and sets BOOTOK. -/
  | deviceReset (image : BootImage)
  /-- ATT_GO (R371): ATTCMD GO starts producing a quote. -/
  | attGo
  /-- ATT_QUOTE_DONE (R371): The quote signature is written and VALID set. -/
  | attQuoteDone
  /-- ATTNONCE_WRITE (R371): A nonce write stores the nonce and clears VALID. -/
  | attnonceWrite (offset : Nat) (value : DWord)
  /-- CORERET_WRITE (R372): CORERET requests retirement of a core. -/
  | coreretWrite (value : DWord)
  /-- CORE_MARGIN_FAIL (R372): A monitor finds a core's margin below limit and retires it. -/
  | coreMarginFail (core : Nat)
  /-- EOL_UPDATE (R372): The device recomputes the predicted end-of-life date at most hourly. -/
  | eolUpdate (date : Word)
  /-- CECLR_WRITE (R345): A CECLR write clears selected error counters. -/
  | ceclrWrite (value : DWord)
  /-- MGMT_REGISTER_WRITE (R369): A management-window write to a register with no behaviour of its own. -/
  | mgmtRegisterWrite (offset size : Nat) (value : DWord)
  /-- LOAD_DATA_ARRIVAL (R53): The data of an earlier load (lane load or SLD) arrives and is written to its destination registers. -/
  | loadDataArrival (cid sid : Nat)
  /-- BAY_RETIRE (R372): A bay whose L2 slices or channel group can no longer hold their data is retired and BAYGEN.RETIRED is set. -/
  | bayRetire (bay : Nat)
  deriving DecidableEq, Repr

end Sys2Proof
end

