-- ==== Sys2Proof/Decode.lean ====
section
/-! DEFINITION. The words of the two instruction sets: decoding, and after it the encoder.

Both are written from Tables 3.1 to 3.11 (R37-R51). A word that no row of the table admits is rejected
with the reason of R54 that applies; a word that a row admits decodes to that row's instruction with its
fields, also where a field holds a code that the instruction's own description reserves (R48, R42, R54):
those codes are met by the instruction's meaning, which raises ILLOP.

The decoder is marked noncomputable because Lean's runtime numbers at most 245 constructors with fields of
one type and the opcode table has more rows; the kernel evaluates it all the same. -/

namespace Sys2Proof

/-- Why a word is no instruction (R54). -/
inductive Reject where
  /-- the opcode is reserved in Tables 3.5 and 3.9 -/
  | reservedOpcode
  /-- a function code, sub-code or field that must be zero does not match any row of the opcode -/
  | reservedField
  deriving DecidableEq, Repr

/-- The field of `n` bits of the number `x` from bit `lo` up. -/
def fld (x lo n : Nat) : BitVec n := BitVec.ofNat n (x >>> lo)

/-- The number with the field `f` below the bits of `x`. -/
def cat {n : Nat} (x : Nat) (f : BitVec n) : Nat := x <<< n + f.toNat

/-- The operand that an 8-bit operand field names (Table 3.2). -/
def Src.ofField (f : BitVec 8) : Src :=
  if fld f.toNat 7 1 = 0#1 then .v (fld f.toNat 0 7)
  else if fld f.toNat 6 1 = 0#1 then .s (fld f.toNat 0 6)
  else .nbr (fld f.toNat 3 3) (fld f.toNat 0 3)

/-- The operand field that names an operand (Table 3.2). -/
def Src.toField : Src → BitVec 8
  | .v n => .ofNat 8 (cat 0 n)
  | .s n => .ofNat 8 (cat 0b10 n)
  | .nbr dir j => .ofNat 8 (cat (cat 0b11 dir) j)

/-- The scope of a SCOPE field (Table 3.3). -/
def Scope.ofField (f : BitVec 2) : Scope :=
  if f = 0#2 then .team else if f = 1#2 then .squad else if f = 2#2 then .dev else .sys

/-- The SCOPE field of a scope (Table 3.3). -/
def Scope.toField : Scope → BitVec 2
  | .team => 0#2 | .squad => 1#2 | .dev => 2#2 | .sys => 3#2

/-- The semantic of a SEM field (Table 3.3). -/
def Sem.ofField (f : BitVec 2) : Sem :=
  if f = 0#2 then .relaxed else if f = 1#2 then .acq else if f = 2#2 then .rel else .ar

/-- The SEM field of a semantic (Table 3.3). -/
def Sem.toField : Sem → BitVec 2
  | .relaxed => 0#2 | .acq => 1#2 | .rel => 2#2 | .ar => 3#2

/-- The rounding mode of an RM field (Table 3.8, and FPMODE in Table 2.4). -/
def Rnd.ofField (f : BitVec 2) : Rnd :=
  if f = 0#2 then .rn else if f = 1#2 then .rz else if f = 2#2 then .ru else .rd

/-- The RM field of a rounding mode (Table 3.8). -/
def Rnd.toField : Rnd → BitVec 2
  | .rn => 0#2 | .rz => 1#2 | .ru => 2#2 | .rd => 3#2


/-- Opcodes 0x00 to 0x0F of the opcode maps (Table 3.5), bit 31 included: `lo` is the low digit. -/
def decodeRow0 (lo x : Nat) : Except Reject Instr :=
  match lo with
  | 1 => .ok (.addLr (fld x 16 8) (Src.ofField (fld x 8 8)) (Src.ofField (fld x 0 8)))
  | 2 => .ok (.addLi (fld x 16 8) (Src.ofField (fld x 8 8)) (fld x 0 8))
  | 3 => .ok (.subLr (fld x 16 8) (Src.ofField (fld x 8 8)) (Src.ofField (fld x 0 8)))
  | 4 => .ok (.addSatS (fld x 16 8) (Src.ofField (fld x 8 8)) (Src.ofField (fld x 0 8)))
  | 5 => .ok (.addSatU (fld x 16 8) (Src.ofField (fld x 8 8)) (Src.ofField (fld x 0 8)))
  | 6 => .ok (.subSatS (fld x 16 8) (Src.ofField (fld x 8 8)) (Src.ofField (fld x 0 8)))
  | 7 => .ok (.subSatU (fld x 16 8) (Src.ofField (fld x 8 8)) (Src.ofField (fld x 0 8)))
  | 8 => .ok (.mulLr (fld x 16 8) (Src.ofField (fld x 8 8)) (Src.ofField (fld x 0 8)))
  | 9 => .ok (.mulhiULr (fld x 16 8) (Src.ofField (fld x 8 8)) (Src.ofField (fld x 0 8)))
  | 10 => .ok (.minSLr (fld x 16 8) (Src.ofField (fld x 8 8)) (Src.ofField (fld x 0 8)))
  | 11 => .ok (.minULr (fld x 16 8) (Src.ofField (fld x 8 8)) (Src.ofField (fld x 0 8)))
  | 12 => .ok (.maxSLr (fld x 16 8) (Src.ofField (fld x 8 8)) (Src.ofField (fld x 0 8)))
  | 13 => .ok (.maxULr (fld x 16 8) (Src.ofField (fld x 8 8)) (Src.ofField (fld x 0 8)))
  | 14 => .ok (.andLr (fld x 16 8) (Src.ofField (fld x 8 8)) (Src.ofField (fld x 0 8)))
  | 15 => .ok (.andLi (fld x 16 8) (Src.ofField (fld x 8 8)) (fld x 0 8))
  | _ => .error .reservedOpcode

/-- Opcodes 0x10 to 0x1F of the opcode maps (Table 3.5), bit 31 included: `lo` is the low digit. -/
def decodeRow1 (lo x : Nat) : Except Reject Instr :=
  match lo with
  | 0 => .ok (.orLr (fld x 16 8) (Src.ofField (fld x 8 8)) (Src.ofField (fld x 0 8)))
  | 1 => .ok (.orLi (fld x 16 8) (Src.ofField (fld x 8 8)) (fld x 0 8))
  | 2 => .ok (.xorLr (fld x 16 8) (Src.ofField (fld x 8 8)) (Src.ofField (fld x 0 8)))
  | 3 => .ok (.xorLi (fld x 16 8) (Src.ofField (fld x 8 8)) (fld x 0 8))
  | 4 => .ok (.shlLr (fld x 16 8) (Src.ofField (fld x 8 8)) (Src.ofField (fld x 0 8)))
  | 5 =>
    if fld x 5 3 = 0#3 then .ok (.shlLi (fld x 16 8) (Src.ofField (fld x 8 8)) (fld x 0 5))
    else .error .reservedField
  | 6 => .ok (.shrULr (fld x 16 8) (Src.ofField (fld x 8 8)) (Src.ofField (fld x 0 8)))
  | 7 =>
    if fld x 5 3 = 0#3 then .ok (.shrULi (fld x 16 8) (Src.ofField (fld x 8 8)) (fld x 0 5))
    else .error .reservedField
  | 8 => .ok (.shrSLr (fld x 16 8) (Src.ofField (fld x 8 8)) (Src.ofField (fld x 0 8)))
  | 9 =>
    if fld x 5 3 = 0#3 then .ok (.shrSLi (fld x 16 8) (Src.ofField (fld x 8 8)) (fld x 0 5))
    else .error .reservedField
  | 10 =>
    if fld x 0 8 = 1#8 then .ok (.notL (fld x 16 8) (Src.ofField (fld x 8 8)))
    else if fld x 0 8 = 2#8 then .ok (.negL (fld x 16 8) (Src.ofField (fld x 8 8)))
    else if fld x 0 8 = 3#8 then .ok (.absL (fld x 16 8) (Src.ofField (fld x 8 8)))
    else if fld x 0 8 = 4#8 then .ok (.popcL (fld x 16 8) (Src.ofField (fld x 8 8)))
    else if fld x 0 8 = 5#8 then .ok (.clzL (fld x 16 8) (Src.ofField (fld x 8 8)))
    else if fld x 0 8 = 6#8 then .ok (.brevL (fld x 16 8) (Src.ofField (fld x 8 8)))
    else if fld x 0 8 = 7#8 then .ok (.sextBL (fld x 16 8) (Src.ofField (fld x 8 8)))
    else if fld x 0 8 = 8#8 then .ok (.sextHL (fld x 16 8) (Src.ofField (fld x 8 8)))
    else .error .reservedField
  | 11 => .ok (.cmpeqLr (fld x 16 8) (Src.ofField (fld x 8 8)) (Src.ofField (fld x 0 8)))
  | 12 => .ok (.cmpltSLr (fld x 16 8) (Src.ofField (fld x 8 8)) (Src.ofField (fld x 0 8)))
  | 13 => .ok (.cmpltULr (fld x 16 8) (Src.ofField (fld x 8 8)) (Src.ofField (fld x 0 8)))
  | 14 => .ok (.cmpleSLr (fld x 16 8) (Src.ofField (fld x 8 8)) (Src.ofField (fld x 0 8)))
  | 15 => .ok (.cmpleULr (fld x 16 8) (Src.ofField (fld x 8 8)) (Src.ofField (fld x 0 8)))
  | _ => .error .reservedOpcode

/-- Opcodes 0x20 to 0x2F of the opcode maps (Table 3.5), bit 31 included: `lo` is the low digit. -/
def decodeRow2 (lo x : Nat) : Except Reject Instr :=
  match lo with
  | 0 => .ok (.fadd (fld x 16 8) (Src.ofField (fld x 8 8)) (Src.ofField (fld x 0 8)))
  | 1 => .ok (.fsub (fld x 16 8) (Src.ofField (fld x 8 8)) (Src.ofField (fld x 0 8)))
  | 2 => .ok (.fmul (fld x 16 8) (Src.ofField (fld x 8 8)) (Src.ofField (fld x 0 8)))
  | 3 => .ok (.ffma (fld x 16 8) (Src.ofField (fld x 8 8)) (Src.ofField (fld x 0 8)))
  | 4 => .ok (.ffnma (fld x 16 8) (Src.ofField (fld x 8 8)) (Src.ofField (fld x 0 8)))
  | 5 => .ok (.fmin (fld x 16 8) (Src.ofField (fld x 8 8)) (Src.ofField (fld x 0 8)))
  | 6 => .ok (.fmax (fld x 16 8) (Src.ofField (fld x 8 8)) (Src.ofField (fld x 0 8)))
  | 7 =>
    if fld x 0 8 = 0#8 then .ok (.frcp (fld x 16 8) (Src.ofField (fld x 8 8)))
    else .error .reservedField
  | 8 =>
    if fld x 0 8 = 0#8 then .ok (.fsqrt (fld x 16 8) (Src.ofField (fld x 8 8)))
    else .error .reservedField
  | 9 =>
    if fld x 0 8 = 0#8 then .ok (.frsq (fld x 16 8) (Src.ofField (fld x 8 8)))
    else .error .reservedField
  | 10 =>
    if fld x 0 8 = 0#8 then .ok (.fexp2 (fld x 16 8) (Src.ofField (fld x 8 8)))
    else .error .reservedField
  | 11 =>
    if fld x 0 8 = 0#8 then .ok (.flog2 (fld x 16 8) (Src.ofField (fld x 8 8)))
    else .error .reservedField
  | 12 => .ok (.fcmpeq (fld x 16 8) (Src.ofField (fld x 8 8)) (Src.ofField (fld x 0 8)))
  | 13 => .ok (.fcmplt (fld x 16 8) (Src.ofField (fld x 8 8)) (Src.ofField (fld x 0 8)))
  | 14 => .ok (.fcmple (fld x 16 8) (Src.ofField (fld x 8 8)) (Src.ofField (fld x 0 8)))
  | 15 => .ok (.fcmpun (fld x 16 8) (Src.ofField (fld x 8 8)) (Src.ofField (fld x 0 8)))
  | _ => .error .reservedOpcode

/-- Opcodes 0x30 to 0x3F of the opcode maps (Table 3.5), bit 31 included: `lo` is the low digit. -/
def decodeRow3 (lo x : Nat) : Except Reject Instr :=
  match lo with
  | 0 => .ok (.hadd2F16 (fld x 16 8) (Src.ofField (fld x 8 8)) (Src.ofField (fld x 0 8)))
  | 1 => .ok (.hadd2Bf16 (fld x 16 8) (Src.ofField (fld x 8 8)) (Src.ofField (fld x 0 8)))
  | 2 => .ok (.hsub2F16 (fld x 16 8) (Src.ofField (fld x 8 8)) (Src.ofField (fld x 0 8)))
  | 3 => .ok (.hsub2Bf16 (fld x 16 8) (Src.ofField (fld x 8 8)) (Src.ofField (fld x 0 8)))
  | 4 => .ok (.hmul2F16 (fld x 16 8) (Src.ofField (fld x 8 8)) (Src.ofField (fld x 0 8)))
  | 5 => .ok (.hmul2Bf16 (fld x 16 8) (Src.ofField (fld x 8 8)) (Src.ofField (fld x 0 8)))
  | 6 => .ok (.hfma2F16 (fld x 16 8) (Src.ofField (fld x 8 8)) (Src.ofField (fld x 0 8)))
  | 7 => .ok (.hfma2Bf16 (fld x 16 8) (Src.ofField (fld x 8 8)) (Src.ofField (fld x 0 8)))
  | 8 => .ok (.hmin2F16 (fld x 16 8) (Src.ofField (fld x 8 8)) (Src.ofField (fld x 0 8)))
  | 9 => .ok (.hmin2Bf16 (fld x 16 8) (Src.ofField (fld x 8 8)) (Src.ofField (fld x 0 8)))
  | 10 => .ok (.hmax2F16 (fld x 16 8) (Src.ofField (fld x 8 8)) (Src.ofField (fld x 0 8)))
  | 11 => .ok (.hmax2Bf16 (fld x 16 8) (Src.ofField (fld x 8 8)) (Src.ofField (fld x 0 8)))
  | 12 => .ok (.hdot2F16 (fld x 16 8) (Src.ofField (fld x 8 8)) (Src.ofField (fld x 0 8)))
  | 13 => .ok (.hdot2Bf16 (fld x 16 8) (Src.ofField (fld x 8 8)) (Src.ofField (fld x 0 8)))
  | _ => .error .reservedOpcode

/-- Opcodes 0x40 to 0x4F of the opcode maps (Table 3.5), bit 31 included: `lo` is the low digit. -/
def decodeRow4 (lo x : Nat) : Except Reject Instr :=
  match lo with
  | 0 => .ok (.cvt (fld x 16 8) (Src.ofField (fld x 8 8)) (Rnd.ofField (fld x 6 2)) (fld x 3 3) (fld x 0 3))
  | 1 => .ok (.cvt2F16 (fld x 16 8) (Src.ofField (fld x 8 8)) (Src.ofField (fld x 0 8)))
  | 2 => .ok (.cvt2Bf16 (fld x 16 8) (Src.ofField (fld x 8 8)) (Src.ofField (fld x 0 8)))
  | 3 =>
    if fld x 0 4 = 0#4 then .ok (.qscale (fld x 16 8) (Src.ofField (fld x 8 8)) (fld x 5 3) (fld x 4 1))
    else .error .reservedField
  | 4 => .ok (.qpack (fld x 16 8) (Src.ofField (fld x 8 8)) (Src.ofField (fld x 0 8)))
  | 5 => .ok (.qunpk (fld x 16 8) (Src.ofField (fld x 8 8)) (Src.ofField (fld x 0 8)))
  | 12 =>
    if fld x 0 8 = 0#8 then .ok (.movL (fld x 16 8) (Src.ofField (fld x 8 8)))
    else .error .reservedField
  | 13 => .ok (.moviL (fld x 16 8) (fld x 0 16))
  | 14 => .ok (.movh (fld x 16 8) (fld x 0 16))
  | 15 => .ok (.sel (fld x 16 8) (Src.ofField (fld x 8 8)) (Src.ofField (fld x 0 8)))
  | _ => .error .reservedOpcode

/-- Opcodes 0x50 to 0x5F of the opcode maps (Table 3.5), bit 31 included: `lo` is the low digit. -/
def decodeRow5 (lo x : Nat) : Except Reject Instr :=
  match lo with
  | 0 => .ok (.shfl (fld x 16 8) (Src.ofField (fld x 8 8)) (Src.ofField (fld x 0 8)))
  | 1 => .ok (.perm (fld x 16 8) (Src.ofField (fld x 8 8)) (Src.ofField (fld x 0 8)))
  | 4 => .ok (.ifLc (Src.ofField (fld x 16 8)) (fld x 0 16))
  | 5 =>
    if fld x 16 8 = 0#8 then .ok (.elseLc (fld x 0 16))
    else .error .reservedField
  | 6 =>
    if fld x 16 8 = 0#8 then .ok (.endif (fld x 0 16))
    else .error .reservedField
  | 7 =>
    if fld x 16 8 = 0#8 then .ok (.loop (fld x 0 16))
    else .error .reservedField
  | 8 => .ok (.brk (fld x 16 8) (fld x 0 16))
  | 9 => .ok (.cont (fld x 16 8) (fld x 0 16))
  | 10 =>
    if fld x 16 8 = 0#8 then .ok (.lend (fld x 0 16))
    else .error .reservedField
  | 11 => .ok (.split (Src.ofField (fld x 16 8)) (fld x 0 16))
  | 12 =>
    if fld x 16 8 = 0#8 then .ok (.meet (fld x 0 16))
    else .error .reservedField
  | 13 =>
    if fld x 16 8 = 0#8 then .ok (.join (fld x 0 16))
    else .error .reservedField
  | _ => .error .reservedOpcode

/-- Opcodes 0x60 to 0x6F of the opcode maps (Table 3.5), bit 31 included: `lo` is the low digit. -/
def decodeRow6 (lo x : Nat) : Except Reject Instr :=
  match lo with
  | 0 => .ok (.ldgB (fld x 16 8) (fld x 8 8) (fld x 2 6) (fld x 0 2))
  | 1 => .ok (.ldgH (fld x 16 8) (fld x 8 8) (fld x 2 6) (fld x 0 2))
  | 2 => .ok (.ldgW (fld x 16 8) (fld x 8 8) (fld x 2 6) (fld x 0 2))
  | 3 => .ok (.ldgD (fld x 16 8) (fld x 8 8) (fld x 2 6) (fld x 0 2))
  | 4 => .ok (.ldgQ (fld x 16 8) (fld x 8 8) (fld x 2 6) (fld x 0 2))
  | 5 => .ok (.stgB (fld x 16 8) (fld x 8 8) (fld x 2 6) (fld x 0 2))
  | 6 => .ok (.stgH (fld x 16 8) (fld x 8 8) (fld x 2 6) (fld x 0 2))
  | 7 => .ok (.stgW (fld x 16 8) (fld x 8 8) (fld x 2 6) (fld x 0 2))
  | 8 => .ok (.stgD (fld x 16 8) (fld x 8 8) (fld x 2 6) (fld x 0 2))
  | 9 => .ok (.stgQ (fld x 16 8) (fld x 8 8) (fld x 2 6) (fld x 0 2))
  | 10 => .ok (.ldsB (fld x 16 8) (fld x 8 8) (fld x 2 6) (fld x 0 2))
  | 11 => .ok (.ldsH (fld x 16 8) (fld x 8 8) (fld x 2 6) (fld x 0 2))
  | 12 => .ok (.ldsW (fld x 16 8) (fld x 8 8) (fld x 2 6) (fld x 0 2))
  | 13 => .ok (.ldsD (fld x 16 8) (fld x 8 8) (fld x 2 6) (fld x 0 2))
  | 14 => .ok (.ldsQ (fld x 16 8) (fld x 8 8) (fld x 2 6) (fld x 0 2))
  | 15 => .ok (.stsB (fld x 16 8) (fld x 8 8) (fld x 2 6) (fld x 0 2))
  | _ => .error .reservedOpcode

/-- Opcodes 0x70 to 0x7F of the opcode maps (Table 3.5), bit 31 included: `lo` is the low digit. -/
def decodeRow7 (lo x : Nat) : Except Reject Instr :=
  match lo with
  | 0 => .ok (.stsH (fld x 16 8) (fld x 8 8) (fld x 2 6) (fld x 0 2))
  | 1 => .ok (.stsW (fld x 16 8) (fld x 8 8) (fld x 2 6) (fld x 0 2))
  | 2 => .ok (.stsD (fld x 16 8) (fld x 8 8) (fld x 2 6) (fld x 0 2))
  | 3 => .ok (.stsQ (fld x 16 8) (fld x 8 8) (fld x 2 6) (fld x 0 2))
  | 4 => .ok (.ldqW (fld x 16 8) (fld x 8 8) (fld x 2 6) (fld x 0 2))
  | 5 => .ok (.stqW (fld x 16 8) (fld x 8 8) (fld x 2 6) (fld x 0 2))
  | 6 =>
    if fld x 4 4 = 0#4 ∧ fld x 0 2 = 0#2 then .ok (.ldaW (fld x 16 8) (fld x 8 8) (Scope.ofField (fld x 2 2)))
    else .error .reservedField
  | 7 =>
    if fld x 4 4 = 0#4 ∧ fld x 0 2 = 0#2 then .ok (.stlW (fld x 16 8) (fld x 8 8) (Scope.ofField (fld x 2 2)))
    else .error .reservedField
  | 8 =>
    if fld x 0 8 = 0#8 then .ok (.ldrW (fld x 16 8) (fld x 8 8))
    else .error .reservedField
  | 9 =>
    if fld x 0 8 = 0#8 then .ok (.stcW (fld x 16 8) (fld x 8 8))
    else .error .reservedField
  | 10 =>
    if fld x 4 4 = 0#4 then .ok (.atomAdd (fld x 16 8) (fld x 8 8) (Scope.ofField (fld x 2 2)) (Sem.ofField (fld x 0 2)))
    else if fld x 4 4 = 1#4 then .ok (.atomAnd (fld x 16 8) (fld x 8 8) (Scope.ofField (fld x 2 2)) (Sem.ofField (fld x 0 2)))
    else if fld x 4 4 = 2#4 then .ok (.atomOr (fld x 16 8) (fld x 8 8) (Scope.ofField (fld x 2 2)) (Sem.ofField (fld x 0 2)))
    else if fld x 4 4 = 3#4 then .ok (.atomXor (fld x 16 8) (fld x 8 8) (Scope.ofField (fld x 2 2)) (Sem.ofField (fld x 0 2)))
    else if fld x 4 4 = 4#4 then .ok (.atomMinS (fld x 16 8) (fld x 8 8) (Scope.ofField (fld x 2 2)) (Sem.ofField (fld x 0 2)))
    else if fld x 4 4 = 5#4 then .ok (.atomMinU (fld x 16 8) (fld x 8 8) (Scope.ofField (fld x 2 2)) (Sem.ofField (fld x 0 2)))
    else if fld x 4 4 = 6#4 then .ok (.atomMaxS (fld x 16 8) (fld x 8 8) (Scope.ofField (fld x 2 2)) (Sem.ofField (fld x 0 2)))
    else if fld x 4 4 = 7#4 then .ok (.atomMaxU (fld x 16 8) (fld x 8 8) (Scope.ofField (fld x 2 2)) (Sem.ofField (fld x 0 2)))
    else if fld x 4 4 = 8#4 then .ok (.atomXchg (fld x 16 8) (fld x 8 8) (Scope.ofField (fld x 2 2)) (Sem.ofField (fld x 0 2)))
    else if fld x 4 4 = 9#4 then .ok (.atomCas (fld x 16 8) (fld x 8 8) (Scope.ofField (fld x 2 2)) (Sem.ofField (fld x 0 2)))
    else if fld x 4 4 = 10#4 then .ok (.atomAddF (fld x 16 8) (fld x 8 8) (Scope.ofField (fld x 2 2)) (Sem.ofField (fld x 0 2)))
    else if fld x 4 4 = 11#4 then .ok (.atomAddD (fld x 16 8) (fld x 8 8) (Scope.ofField (fld x 2 2)) (Sem.ofField (fld x 0 2)))
    else if fld x 4 4 = 12#4 then .ok (.atomXchgD (fld x 16 8) (fld x 8 8) (Scope.ofField (fld x 2 2)) (Sem.ofField (fld x 0 2)))
    else if fld x 4 4 = 13#4 then .ok (.atomCasD (fld x 16 8) (fld x 8 8) (Scope.ofField (fld x 2 2)) (Sem.ofField (fld x 0 2)))
    else .error .reservedField
  | 11 =>
    if fld x 4 4 = 0#4 then .ok (.atomSeqAdd (fld x 16 8) (fld x 8 8) (Scope.ofField (fld x 2 2)) (Sem.ofField (fld x 0 2)))
    else if fld x 4 4 = 1#4 then .ok (.atomSeqAnd (fld x 16 8) (fld x 8 8) (Scope.ofField (fld x 2 2)) (Sem.ofField (fld x 0 2)))
    else if fld x 4 4 = 2#4 then .ok (.atomSeqOr (fld x 16 8) (fld x 8 8) (Scope.ofField (fld x 2 2)) (Sem.ofField (fld x 0 2)))
    else if fld x 4 4 = 3#4 then .ok (.atomSeqXor (fld x 16 8) (fld x 8 8) (Scope.ofField (fld x 2 2)) (Sem.ofField (fld x 0 2)))
    else if fld x 4 4 = 4#4 then .ok (.atomSeqMinS (fld x 16 8) (fld x 8 8) (Scope.ofField (fld x 2 2)) (Sem.ofField (fld x 0 2)))
    else if fld x 4 4 = 5#4 then .ok (.atomSeqMinU (fld x 16 8) (fld x 8 8) (Scope.ofField (fld x 2 2)) (Sem.ofField (fld x 0 2)))
    else if fld x 4 4 = 6#4 then .ok (.atomSeqMaxS (fld x 16 8) (fld x 8 8) (Scope.ofField (fld x 2 2)) (Sem.ofField (fld x 0 2)))
    else if fld x 4 4 = 7#4 then .ok (.atomSeqMaxU (fld x 16 8) (fld x 8 8) (Scope.ofField (fld x 2 2)) (Sem.ofField (fld x 0 2)))
    else if fld x 4 4 = 8#4 then .ok (.atomSeqXchg (fld x 16 8) (fld x 8 8) (Scope.ofField (fld x 2 2)) (Sem.ofField (fld x 0 2)))
    else if fld x 4 4 = 9#4 then .ok (.atomSeqCas (fld x 16 8) (fld x 8 8) (Scope.ofField (fld x 2 2)) (Sem.ofField (fld x 0 2)))
    else if fld x 4 4 = 10#4 then .ok (.atomSeqAddF (fld x 16 8) (fld x 8 8) (Scope.ofField (fld x 2 2)) (Sem.ofField (fld x 0 2)))
    else if fld x 4 4 = 11#4 then .ok (.atomSeqAddD (fld x 16 8) (fld x 8 8) (Scope.ofField (fld x 2 2)) (Sem.ofField (fld x 0 2)))
    else if fld x 4 4 = 12#4 then .ok (.atomSeqXchgD (fld x 16 8) (fld x 8 8) (Scope.ofField (fld x 2 2)) (Sem.ofField (fld x 0 2)))
    else if fld x 4 4 = 13#4 then .ok (.atomSeqCasD (fld x 16 8) (fld x 8 8) (Scope.ofField (fld x 2 2)) (Sem.ofField (fld x 0 2)))
    else .error .reservedField
  | 12 =>
    if fld x 4 4 = 0#4 then .ok (.redAdd (fld x 16 8) (fld x 8 8) (Scope.ofField (fld x 2 2)) (Sem.ofField (fld x 0 2)))
    else if fld x 4 4 = 1#4 then .ok (.redAnd (fld x 16 8) (fld x 8 8) (Scope.ofField (fld x 2 2)) (Sem.ofField (fld x 0 2)))
    else if fld x 4 4 = 2#4 then .ok (.redOr (fld x 16 8) (fld x 8 8) (Scope.ofField (fld x 2 2)) (Sem.ofField (fld x 0 2)))
    else if fld x 4 4 = 3#4 then .ok (.redXor (fld x 16 8) (fld x 8 8) (Scope.ofField (fld x 2 2)) (Sem.ofField (fld x 0 2)))
    else if fld x 4 4 = 4#4 then .ok (.redMinS (fld x 16 8) (fld x 8 8) (Scope.ofField (fld x 2 2)) (Sem.ofField (fld x 0 2)))
    else if fld x 4 4 = 5#4 then .ok (.redMinU (fld x 16 8) (fld x 8 8) (Scope.ofField (fld x 2 2)) (Sem.ofField (fld x 0 2)))
    else if fld x 4 4 = 6#4 then .ok (.redMaxS (fld x 16 8) (fld x 8 8) (Scope.ofField (fld x 2 2)) (Sem.ofField (fld x 0 2)))
    else if fld x 4 4 = 7#4 then .ok (.redMaxU (fld x 16 8) (fld x 8 8) (Scope.ofField (fld x 2 2)) (Sem.ofField (fld x 0 2)))
    else if fld x 4 4 = 10#4 then .ok (.redAddF (fld x 16 8) (fld x 8 8) (Scope.ofField (fld x 2 2)) (Sem.ofField (fld x 0 2)))
    else if fld x 4 4 = 11#4 then .ok (.redAddD (fld x 16 8) (fld x 8 8) (Scope.ofField (fld x 2 2)) (Sem.ofField (fld x 0 2)))
    else .error .reservedField
  | _ => .error .reservedOpcode

/-- Opcodes 0x80 to 0x8F of the opcode maps (Table 3.9), bit 31 included: `lo` is the low digit. -/
def decodeRow8 (lo x : Nat) : Except Reject Instr :=
  match lo with
  | 0 =>
    if fld x 0 6 = 0#6 then .ok (.addU (fld x 18 6) (fld x 12 6) (fld x 6 6))
    else if fld x 0 6 = 1#6 then .ok (.subU (fld x 18 6) (fld x 12 6) (fld x 6 6))
    else if fld x 0 6 = 2#6 then .ok (.mulU (fld x 18 6) (fld x 12 6) (fld x 6 6))
    else if fld x 0 6 = 3#6 then .ok (.mulhiSU (fld x 18 6) (fld x 12 6) (fld x 6 6))
    else if fld x 0 6 = 4#6 then .ok (.mulhiUU (fld x 18 6) (fld x 12 6) (fld x 6 6))
    else if fld x 0 6 = 5#6 then .ok (.andU (fld x 18 6) (fld x 12 6) (fld x 6 6))
    else if fld x 0 6 = 6#6 then .ok (.orU (fld x 18 6) (fld x 12 6) (fld x 6 6))
    else if fld x 0 6 = 7#6 then .ok (.xorU (fld x 18 6) (fld x 12 6) (fld x 6 6))
    else if fld x 0 6 = 8#6 then .ok (.andnU (fld x 18 6) (fld x 12 6) (fld x 6 6))
    else if fld x 0 6 = 9#6 then .ok (.shlU (fld x 18 6) (fld x 12 6) (fld x 6 6))
    else if fld x 0 6 = 10#6 then .ok (.shrUU (fld x 18 6) (fld x 12 6) (fld x 6 6))
    else if fld x 0 6 = 11#6 then .ok (.shrSU (fld x 18 6) (fld x 12 6) (fld x 6 6))
    else if fld x 0 6 = 12#6 then .ok (.minSU (fld x 18 6) (fld x 12 6) (fld x 6 6))
    else if fld x 0 6 = 13#6 then .ok (.minUU (fld x 18 6) (fld x 12 6) (fld x 6 6))
    else if fld x 0 6 = 14#6 then .ok (.maxSU (fld x 18 6) (fld x 12 6) (fld x 6 6))
    else if fld x 0 6 = 15#6 then .ok (.maxUU (fld x 18 6) (fld x 12 6) (fld x 6 6))
    else if fld x 0 6 = 16#6 then .ok (.cmpeqU (fld x 18 6) (fld x 12 6) (fld x 6 6))
    else if fld x 0 6 = 17#6 then .ok (.cmpneU (fld x 18 6) (fld x 12 6) (fld x 6 6))
    else if fld x 0 6 = 18#6 then .ok (.cmpltSU (fld x 18 6) (fld x 12 6) (fld x 6 6))
    else if fld x 0 6 = 19#6 then .ok (.cmpltUU (fld x 18 6) (fld x 12 6) (fld x 6 6))
    else if fld x 0 6 = 20#6 then .ok (.cmpleSU (fld x 18 6) (fld x 12 6) (fld x 6 6))
    else if fld x 0 6 = 21#6 then .ok (.cmpleUU (fld x 18 6) (fld x 12 6) (fld x 6 6))
    else .error .reservedField
  | 1 =>
    if fld x 0 12 = 0#12 then .ok (.movU (fld x 18 6) (fld x 12 6))
    else if fld x 0 12 = 1#12 then .ok (.notU (fld x 18 6) (fld x 12 6))
    else if fld x 0 12 = 2#12 then .ok (.negU (fld x 18 6) (fld x 12 6))
    else if fld x 0 12 = 3#12 then .ok (.absU (fld x 18 6) (fld x 12 6))
    else if fld x 0 12 = 4#12 then .ok (.popcU (fld x 18 6) (fld x 12 6))
    else if fld x 0 12 = 5#12 then .ok (.clzU (fld x 18 6) (fld x 12 6))
    else if fld x 0 12 = 6#12 then .ok (.brevU (fld x 18 6) (fld x 12 6))
    else if fld x 0 12 = 7#12 then .ok (.sextBU (fld x 18 6) (fld x 12 6))
    else if fld x 0 12 = 8#12 then .ok (.sextHU (fld x 18 6) (fld x 12 6))
    else if fld x 0 12 = 9#12 then .ok (.sextWU (fld x 18 6) (fld x 12 6))
    else .error .reservedField
  | 2 => .ok (.addUi (fld x 18 6) (fld x 12 6) (fld x 0 12))
  | 3 => .ok (.andUi (fld x 18 6) (fld x 12 6) (fld x 0 12))
  | 4 => .ok (.orUi (fld x 18 6) (fld x 12 6) (fld x 0 12))
  | 5 => .ok (.xorUi (fld x 18 6) (fld x 12 6) (fld x 0 12))
  | 6 =>
    if fld x 6 6 = 0#6 then .ok (.shlUi (fld x 18 6) (fld x 12 6) (fld x 0 6))
    else .error .reservedField
  | 7 =>
    if fld x 6 6 = 0#6 then .ok (.shrUUi (fld x 18 6) (fld x 12 6) (fld x 0 6))
    else .error .reservedField
  | 8 =>
    if fld x 6 6 = 0#6 then .ok (.shrSUi (fld x 18 6) (fld x 12 6) (fld x 0 6))
    else .error .reservedField
  | 9 => .ok (.cmpeqUi (fld x 18 6) (fld x 12 6) (fld x 0 12))
  | 10 => .ok (.cmpltSUi (fld x 18 6) (fld x 12 6) (fld x 0 12))
  | 11 => .ok (.cmpltUUi (fld x 18 6) (fld x 12 6) (fld x 0 12))
  | 12 => .ok (.moviU (fld x 18 6) (fld x 0 18))
  | 13 => .ok (.movx (fld x 18 6) (fld x 0 18))
  | _ => .error .reservedOpcode

/-- Opcodes 0xA0 to 0xAF of the opcode maps (Table 3.9), bit 31 included: `lo` is the low digit. -/
def decodeRowA (lo x : Nat) : Except Reject Instr :=
  match lo with
  | 0 =>
    if fld x 18 6 = 0#6 then .ok (.bra (fld x 0 18))
    else .error .reservedField
  | 1 => .ok (.bz (fld x 18 6) (fld x 0 18))
  | 2 => .ok (.bnz (fld x 18 6) (fld x 0 18))
  | 3 =>
    if fld x 18 6 = 0#6 ∧ fld x 0 12 = 0#12 then .ok (.jmp (fld x 12 6))
    else .error .reservedField
  | 4 => .ok (.call (fld x 18 6) (fld x 0 18))
  | 5 =>
    if fld x 0 24 = 0#24 then .ok (.ret)
    else .error .reservedField
  | 6 =>
    if fld x 0 24 = 0#24 then .ok (.exit)
    else .error .reservedField
  | 7 =>
    if fld x 0 24 = 0#24 then .ok (.yield)
    else .error .reservedField
  | 8 =>
    if fld x 0 24 = 0#24 then .ok (.nop)
    else .error .reservedField
  | 9 =>
    if fld x 18 6 = 0#6 then .ok (.trap (fld x 0 18))
    else .error .reservedField
  | 10 =>
    if fld x 0 24 = 0#24 then .ok (.rett)
    else .error .reservedField
  | 11 =>
    if fld x 0 24 = 0#24 then .ok (.term)
    else .error .reservedField
  | 12 =>
    if fld x 8 10 = 0#10 then .ok (.any (fld x 18 6) (Src.ofField (fld x 0 8)))
    else .error .reservedField
  | 13 =>
    if fld x 8 10 = 0#10 then .ok (.all (fld x 18 6) (Src.ofField (fld x 0 8)))
    else .error .reservedField
  | 14 =>
    if fld x 8 10 = 0#10 then .ok (.ballot (fld x 18 6) (Src.ofField (fld x 0 8)))
    else .error .reservedField
  | _ => .error .reservedOpcode

/-- Opcodes 0xB0 to 0xBF of the opcode maps (Table 3.9), bit 31 included: `lo` is the low digit. -/
def decodeRowB (lo x : Nat) : Except Reject Instr :=
  match lo with
  | 0 =>
    if fld x 0 10 = 0#10 then .ok (.srdS (fld x 18 6) (fld x 10 8))
    else if fld x 9 1 = 1#1 ∧ fld x 0 8 = 0#8 then .ok (.srdV (fld x 18 6) (fld x 10 8) (fld x 8 1))
    else .error .reservedField
  | 1 =>
    if fld x 0 10 = 0#10 then .ok (.swr (fld x 18 6) (fld x 10 8))
    else .error .reservedField
  | 2 =>
    if fld x 4 20 = 0#20 then .ok (.fence (Scope.ofField (fld x 2 2)) (Sem.ofField (fld x 0 2)))
    else .error .reservedField
  | 3 =>
    if fld x 0 24 = 0#24 then .ok (.stdrain)
    else .error .reservedField
  | 4 =>
    if fld x 0 18 = 0#18 then .ok (.fqpop (fld x 18 6))
    else .error .reservedField
  | 5 =>
    if fld x 0 24 = 0#24 then .ok (.step)
    else .error .reservedField
  | 6 =>
    if fld x 0 18 = 0#18 then .ok (.launch (fld x 18 6))
    else .error .reservedField
  | 7 =>
    if fld x 0 12 = 0#12 then .ok (.launchAt (fld x 18 6) (fld x 12 6))
    else .error .reservedField
  | 8 =>
    if fld x 0 6 = 0#6 then .ok (.fbMark (fld x 18 6) (fld x 12 6) (fld x 6 6))
    else .error .reservedField
  | 9 =>
    if fld x 0 24 = 0#24 then .ok (.fbGo)
    else .error .reservedField
  | _ => .error .reservedOpcode

/-- Opcodes 0xC0 to 0xCF of the opcode maps (Table 3.9), bit 31 included: `lo` is the low digit. -/
def decodeRowC (lo x : Nat) : Except Reject Instr :=
  match lo with
  | 0 =>
    if fld x 0 18 = 0#18 then .ok (.barAlloc (fld x 18 6))
    else .error .reservedField
  | 1 =>
    if fld x 0 6 = 0#6 then .ok (.barInit (fld x 18 6) (fld x 12 6) (fld x 6 6))
    else .error .reservedField
  | 2 =>
    if fld x 0 12 = 0#12 then .ok (.barExpect (fld x 18 6) (fld x 12 6))
    else .error .reservedField
  | 3 =>
    if fld x 0 18 = 0#18 then .ok (.barArrive (fld x 18 6))
    else .error .reservedField
  | 4 =>
    if fld x 0 12 = 0#12 then .ok (.barArriveQ (fld x 18 6) (fld x 12 6))
    else .error .reservedField
  | 5 =>
    if fld x 0 18 = 0#18 then .ok (.barWait (fld x 18 6))
    else .error .reservedField
  | 6 =>
    if fld x 0 12 = 0#12 then .ok (.barTest (fld x 18 6) (fld x 12 6))
    else .error .reservedField
  | 7 =>
    if fld x 0 18 = 0#18 then .ok (.barFree (fld x 18 6))
    else .error .reservedField
  | _ => .error .reservedOpcode

/-- Opcodes 0xD0 to 0xDF of the opcode maps (Table 3.9), bit 31 included: `lo` is the low digit. -/
def decodeRowD (lo x : Nat) : Except Reject Instr :=
  match lo with
  | 0 => .ok (.cpTile (fld x 18 6) (fld x 12 6) (fld x 6 6) (fld x 0 6))
  | 1 => .ok (.cpBulk (fld x 18 6) (fld x 12 6) (fld x 6 6) (fld x 0 6))
  | 2 => .ok (.cpGather (fld x 18 6) (fld x 12 6) (fld x 6 6) (fld x 0 6))
  | 3 => .ok (.cpRed (fld x 18 6) (fld x 12 6) (fld x 6 6) (fld x 0 6))
  | 4 =>
    if fld x 6 6 = 0#6 then .ok (.cpAt (fld x 18 6) (fld x 12 6) (fld x 0 6))
    else .error .reservedField
  | _ => .error .reservedOpcode

/-- Opcodes 0xE0 to 0xEF of the opcode maps (Table 3.9), bit 31 included: `lo` is the low digit. -/
def decodeRowE (lo x : Nat) : Except Reject Instr :=
  match lo with
  | 0 => .ok (.mma (fld x 18 6) (fld x 12 6) (fld x 6 6) (fld x 0 6))
  | 1 =>
    if fld x 0 18 = 0#18 then .ok (.accZero (fld x 18 6))
    else .error .reservedField
  | 2 =>
    if fld x 0 12 = 0#12 then .ok (.accLd (fld x 18 6) (fld x 12 6))
    else .error .reservedField
  | 3 => .ok (.accSt (fld x 18 6) (fld x 12 6) (fld x 6 6) (fld x 0 6))
  | 4 => .ok (.accRed (fld x 18 6) (fld x 12 6) (fld x 6 6) (fld x 0 6))
  | _ => .error .reservedOpcode

/-- Opcodes 0xF0 to 0xFF of the opcode maps (Table 3.9), bit 31 included: `lo` is the low digit. -/
noncomputable def decodeRowF (lo x : Nat) : Except Reject Instr :=
  match lo with
  | 0 =>
    if fld x 2 10 = 0#10 then .ok (.shGetW (fld x 18 6) (fld x 12 6) (Sem.ofField (fld x 0 2)))
    else if fld x 18 6 = 0#6 ∧ fld x 2 4 = 4#4 then .ok (.shGetP (fld x 12 6) (fld x 6 6) (Sem.ofField (fld x 0 2)))
    else .error .reservedField
  | 1 =>
    if fld x 2 4 = 0#4 then .ok (.shOpAdd (fld x 18 6) (fld x 12 6) (fld x 6 6) (Sem.ofField (fld x 0 2)))
    else if fld x 2 4 = 1#4 then .ok (.shOpAddF (fld x 18 6) (fld x 12 6) (fld x 6 6) (Sem.ofField (fld x 0 2)))
    else if fld x 2 4 = 2#4 then .ok (.shOpMin (fld x 18 6) (fld x 12 6) (fld x 6 6) (Sem.ofField (fld x 0 2)))
    else if fld x 2 4 = 3#4 then .ok (.shOpMax (fld x 18 6) (fld x 12 6) (fld x 6 6) (Sem.ofField (fld x 0 2)))
    else if fld x 2 4 = 4#4 then .ok (.shOpMinS (fld x 18 6) (fld x 12 6) (fld x 6 6) (Sem.ofField (fld x 0 2)))
    else if fld x 2 4 = 5#4 then .ok (.shOpMinU (fld x 18 6) (fld x 12 6) (fld x 6 6) (Sem.ofField (fld x 0 2)))
    else if fld x 2 4 = 6#4 then .ok (.shOpMaxS (fld x 18 6) (fld x 12 6) (fld x 6 6) (Sem.ofField (fld x 0 2)))
    else if fld x 2 4 = 7#4 then .ok (.shOpMaxU (fld x 18 6) (fld x 12 6) (fld x 6 6) (Sem.ofField (fld x 0 2)))
    else if fld x 2 4 = 8#4 then .ok (.shOpAnd (fld x 18 6) (fld x 12 6) (fld x 6 6) (Sem.ofField (fld x 0 2)))
    else if fld x 2 4 = 9#4 then .ok (.shOpOr (fld x 18 6) (fld x 12 6) (fld x 6 6) (Sem.ofField (fld x 0 2)))
    else if fld x 2 4 = 10#4 then .ok (.shOpXor (fld x 18 6) (fld x 12 6) (fld x 6 6) (Sem.ofField (fld x 0 2)))
    else if fld x 2 4 = 11#4 then .ok (.shOpSwap (fld x 18 6) (fld x 12 6) (fld x 6 6) (Sem.ofField (fld x 0 2)))
    else if fld x 2 4 = 12#4 then .ok (.shOpCas (fld x 18 6) (fld x 12 6) (fld x 6 6) (Sem.ofField (fld x 0 2)))
    else .error .reservedField
  | 2 =>
    if fld x 18 6 = 0#6 ∧ fld x 0 12 = 0#12 then .ok (.shLand (fld x 12 6))
    else .error .reservedField
  | 3 =>
    if fld x 18 6 = 0#6 ∧ fld x 0 6 = 0#6 then .ok (.shPut (fld x 12 6) (fld x 6 6))
    else .error .reservedField
  | 4 =>
    if fld x 18 6 = 0#6 ∧ fld x 2 10 = 0#10 then .ok (.shFloat (fld x 12 6) (Sem.ofField (fld x 0 2)))
    else .error .reservedField
  | 8 => .ok (.sldB (fld x 18 6) (fld x 12 6) (fld x 0 12))
  | 9 => .ok (.sldH (fld x 18 6) (fld x 12 6) (fld x 0 12))
  | 10 => .ok (.sldW (fld x 18 6) (fld x 12 6) (fld x 0 12))
  | 11 => .ok (.sldD (fld x 18 6) (fld x 12 6) (fld x 0 12))
  | 12 => .ok (.sstB (fld x 18 6) (fld x 12 6) (fld x 0 12))
  | 13 => .ok (.sstH (fld x 18 6) (fld x 12 6) (fld x 0 12))
  | 14 => .ok (.sstW (fld x 18 6) (fld x 12 6) (fld x 0 12))
  | 15 => .ok (.sstD (fld x 18 6) (fld x 12 6) (fld x 0 12))
  | _ => .error .reservedOpcode

/-- The instruction of a word, or why it is none (R37, R45, R49, R54). Bits 31:28 choose a row of sixteen
opcodes, bits 27:24 the opcode in it. -/
noncomputable def decode (w : Word) : Except Reject Instr :=
  let x := w.toNat
  let lo := (fld x 24 4).toNat
  match (fld x 28 4).toNat with
  | 0 => decodeRow0 lo x
  | 1 => decodeRow1 lo x
  | 2 => decodeRow2 lo x
  | 3 => decodeRow3 lo x
  | 4 => decodeRow4 lo x
  | 5 => decodeRow5 lo x
  | 6 => decodeRow6 lo x
  | 7 => decodeRow7 lo x
  | 8 => decodeRow8 lo x
  | 10 => decodeRowA lo x
  | 11 => decodeRowB lo x
  | 12 => decodeRowC lo x
  | 13 => decodeRowD lo x
  | 14 => decodeRowE lo x
  | 15 => decodeRowF lo x
  | _ => .error .reservedOpcode

/-- The word at the lowest four bytes of a list, least significant byte first (R37). -/
def wordOfBytes : List Byte → Word
  | b0 :: b1 :: b2 :: b3 :: _ => b3 ++ b2 ++ b1 ++ b0
  | _ => 0#32

/-- The bytes of a word as memory holds them, lowest address first (R37). -/
def bytesOfWord (w : Word) : List Byte :=
  [fld w.toNat 0 8, fld w.toNat 8 8, fld w.toNat 16 8, fld w.toNat 24 8]

/-- The decoder over memory bytes: the first four bytes hold the word. -/
noncomputable def decodeBytes (bs : List Byte) : Except Reject Instr := decode (wordOfBytes bs)

/-- Whether an instruction has a word: the events of the device have none. -/
def Instr.isWord : Instr → Bool
  | .teamRetire _ _ => false
  | .gridRetire _ => false
  | .launchAtDue _ => false
  | .distributorPass _ => false
  | .contextSwitchOut _ => false
  | .contextSwitchIn _ => false
  | .preempt _ _ => false
  | .teamResume _ _ => false
  | .splitWake _ _ => false
  | .fairnessSwap _ _ => false
  | .yieldShadowEnd _ _ => false
  | .mmaExec _ => false
  | .accZeroExec _ => false
  | .accLdExec _ => false
  | .accStExec _ => false
  | .accStComplete _ => false
  | .accRedExec _ => false
  | .accRedComplete _ => false
  | .copyDispatch _ => false
  | .cpAtDispatch _ _ => false
  | .copyComplete _ _ => false
  | .sliceAdderOp _ => false
  | .heldWritePerform _ => false
  | .storeRegistration _ => false
  | .sectorRevoke _ => false
  | .ownerWriteBack _ => false
  | .readForward _ _ => false
  | .mirrorInvalidate _ => false
  | .lineFill _ _ => false
  | .spillQueueRefill _ => false
  | .peerL1Probe _ _ => false
  | .registrationAck _ _ => false
  | .storeTranslate _ _ => false
  | .faultQueueAdmit _ => false
  | .pageWalkDone _ _ _ => false
  | .trapEntry _ _ => false
  | .shellOpEffect _ _ => false
  | .shellLandEffect _ _ => false
  | .shellFloatEffect _ => false
  | .shellOverstay _ => false
  | .shellLandingLoss _ => false
  | .shellCooldownEnd _ => false
  | .neighbourRead _ _ => false
  | .stepComplete _ _ => false
  | .pageOut _ _ => false
  | .hostCut _ => false
  | .ctxStart _ _ => false
  | .ctxStop _ _ => false
  | .pctlWrite _ _ => false
  | .engMaskWrite _ _ _ => false
  | .scrubComplete _ => false
  | .l2BucketTick _ => false
  | .portBucketTick _ => false
  | .kbktWrite _ _ => false
  | .ingressFlit _ _ _ _ _ _ => false
  | .exportRequest _ _ _ _ _ => false
  | .remoteArrive _ _ _ _ _ => false
  | .arrivalPerform _ => false
  | .routeUnusableTimeout _ => false
  | .strictRetransmit _ _ => false
  | .rswapRoute => false
  | .rswapKey => false
  | .swapComplete => false
  | .portFail _ => false
  | .portLive _ => false
  | .portctlEn _ _ => false
  | .portctlFailClear _ => false
  | .portctlKclr _ => false
  | .ftimeSyncExchange _ _ => false
  | .ftimeLockLoss => false
  | .shootdownPage _ _ _ => false
  | .shootdownAll _ _ => false
  | .shootdownComplete _ => false
  | .correctableError _ => false
  | .uncorrectableError _ => false
  | .powerThrottle _ => false
  | .hotStop _ => false
  | .hotClear _ => false
  | .deviceReset _ => false
  | .attGo => false
  | .attQuoteDone => false
  | .attnonceWrite _ _ => false
  | .coreretWrite _ => false
  | .coreMarginFail _ => false
  | .eolUpdate _ => false
  | .ceclrWrite _ => false
  | .mgmtRegisterWrite _ _ _ => false
  | .loadDataArrival _ _ => false
  | .bayRetire _ => false
  | _ => true

/-- The word of an instruction, its fields at the places of Tables 3.1 and 3.4 (R38, R43). An event has no
word: its entry here is the all-zero word, which is no instruction (R45). -/
def encode : Instr → Word
  | .addLr d a b => .ofNat 32 (cat (cat (cat 0x1 d) a.toField) b.toField)
  | .addLi d a i => .ofNat 32 (cat (cat (cat 0x2 d) a.toField) i)
  | .subLr d a b => .ofNat 32 (cat (cat (cat 0x3 d) a.toField) b.toField)
  | .addSatS d a b => .ofNat 32 (cat (cat (cat 0x4 d) a.toField) b.toField)
  | .addSatU d a b => .ofNat 32 (cat (cat (cat 0x5 d) a.toField) b.toField)
  | .subSatS d a b => .ofNat 32 (cat (cat (cat 0x6 d) a.toField) b.toField)
  | .subSatU d a b => .ofNat 32 (cat (cat (cat 0x7 d) a.toField) b.toField)
  | .mulLr d a b => .ofNat 32 (cat (cat (cat 0x8 d) a.toField) b.toField)
  | .mulhiULr d a b => .ofNat 32 (cat (cat (cat 0x9 d) a.toField) b.toField)
  | .minSLr d a b => .ofNat 32 (cat (cat (cat 0xA d) a.toField) b.toField)
  | .minULr d a b => .ofNat 32 (cat (cat (cat 0xB d) a.toField) b.toField)
  | .maxSLr d a b => .ofNat 32 (cat (cat (cat 0xC d) a.toField) b.toField)
  | .maxULr d a b => .ofNat 32 (cat (cat (cat 0xD d) a.toField) b.toField)
  | .andLr d a b => .ofNat 32 (cat (cat (cat 0xE d) a.toField) b.toField)
  | .andLi d a i => .ofNat 32 (cat (cat (cat 0xF d) a.toField) i)
  | .orLr d a b => .ofNat 32 (cat (cat (cat 0x10 d) a.toField) b.toField)
  | .orLi d a i => .ofNat 32 (cat (cat (cat 0x11 d) a.toField) i)
  | .xorLr d a b => .ofNat 32 (cat (cat (cat 0x12 d) a.toField) b.toField)
  | .xorLi d a i => .ofNat 32 (cat (cat (cat 0x13 d) a.toField) i)
  | .shlLr d a b => .ofNat 32 (cat (cat (cat 0x14 d) a.toField) b.toField)
  | .shlLi d a i => .ofNat 32 (cat (cat (cat (cat 0x15 d) a.toField) 0x00#3) i)
  | .shrULr d a b => .ofNat 32 (cat (cat (cat 0x16 d) a.toField) b.toField)
  | .shrULi d a i => .ofNat 32 (cat (cat (cat (cat 0x17 d) a.toField) 0x00#3) i)
  | .shrSLr d a b => .ofNat 32 (cat (cat (cat 0x18 d) a.toField) b.toField)
  | .shrSLi d a i => .ofNat 32 (cat (cat (cat (cat 0x19 d) a.toField) 0x00#3) i)
  | .notL d a => .ofNat 32 (cat (cat (cat 0x1A d) a.toField) 0x01#8)
  | .negL d a => .ofNat 32 (cat (cat (cat 0x1A d) a.toField) 0x02#8)
  | .absL d a => .ofNat 32 (cat (cat (cat 0x1A d) a.toField) 0x03#8)
  | .popcL d a => .ofNat 32 (cat (cat (cat 0x1A d) a.toField) 0x04#8)
  | .clzL d a => .ofNat 32 (cat (cat (cat 0x1A d) a.toField) 0x05#8)
  | .brevL d a => .ofNat 32 (cat (cat (cat 0x1A d) a.toField) 0x06#8)
  | .sextBL d a => .ofNat 32 (cat (cat (cat 0x1A d) a.toField) 0x07#8)
  | .sextHL d a => .ofNat 32 (cat (cat (cat 0x1A d) a.toField) 0x08#8)
  | .cmpeqLr d a b => .ofNat 32 (cat (cat (cat 0x1B d) a.toField) b.toField)
  | .cmpltSLr d a b => .ofNat 32 (cat (cat (cat 0x1C d) a.toField) b.toField)
  | .cmpltULr d a b => .ofNat 32 (cat (cat (cat 0x1D d) a.toField) b.toField)
  | .cmpleSLr d a b => .ofNat 32 (cat (cat (cat 0x1E d) a.toField) b.toField)
  | .cmpleULr d a b => .ofNat 32 (cat (cat (cat 0x1F d) a.toField) b.toField)
  | .fadd d a b => .ofNat 32 (cat (cat (cat 0x20 d) a.toField) b.toField)
  | .fsub d a b => .ofNat 32 (cat (cat (cat 0x21 d) a.toField) b.toField)
  | .fmul d a b => .ofNat 32 (cat (cat (cat 0x22 d) a.toField) b.toField)
  | .ffma d a b => .ofNat 32 (cat (cat (cat 0x23 d) a.toField) b.toField)
  | .ffnma d a b => .ofNat 32 (cat (cat (cat 0x24 d) a.toField) b.toField)
  | .fmin d a b => .ofNat 32 (cat (cat (cat 0x25 d) a.toField) b.toField)
  | .fmax d a b => .ofNat 32 (cat (cat (cat 0x26 d) a.toField) b.toField)
  | .frcp d a => .ofNat 32 (cat (cat (cat 0x27 d) a.toField) 0x00#8)
  | .fsqrt d a => .ofNat 32 (cat (cat (cat 0x28 d) a.toField) 0x00#8)
  | .frsq d a => .ofNat 32 (cat (cat (cat 0x29 d) a.toField) 0x00#8)
  | .fexp2 d a => .ofNat 32 (cat (cat (cat 0x2A d) a.toField) 0x00#8)
  | .flog2 d a => .ofNat 32 (cat (cat (cat 0x2B d) a.toField) 0x00#8)
  | .fcmpeq d a b => .ofNat 32 (cat (cat (cat 0x2C d) a.toField) b.toField)
  | .fcmplt d a b => .ofNat 32 (cat (cat (cat 0x2D d) a.toField) b.toField)
  | .fcmple d a b => .ofNat 32 (cat (cat (cat 0x2E d) a.toField) b.toField)
  | .fcmpun d a b => .ofNat 32 (cat (cat (cat 0x2F d) a.toField) b.toField)
  | .hadd2F16 d a b => .ofNat 32 (cat (cat (cat 0x30 d) a.toField) b.toField)
  | .hadd2Bf16 d a b => .ofNat 32 (cat (cat (cat 0x31 d) a.toField) b.toField)
  | .hsub2F16 d a b => .ofNat 32 (cat (cat (cat 0x32 d) a.toField) b.toField)
  | .hsub2Bf16 d a b => .ofNat 32 (cat (cat (cat 0x33 d) a.toField) b.toField)
  | .hmul2F16 d a b => .ofNat 32 (cat (cat (cat 0x34 d) a.toField) b.toField)
  | .hmul2Bf16 d a b => .ofNat 32 (cat (cat (cat 0x35 d) a.toField) b.toField)
  | .hfma2F16 d a b => .ofNat 32 (cat (cat (cat 0x36 d) a.toField) b.toField)
  | .hfma2Bf16 d a b => .ofNat 32 (cat (cat (cat 0x37 d) a.toField) b.toField)
  | .hmin2F16 d a b => .ofNat 32 (cat (cat (cat 0x38 d) a.toField) b.toField)
  | .hmin2Bf16 d a b => .ofNat 32 (cat (cat (cat 0x39 d) a.toField) b.toField)
  | .hmax2F16 d a b => .ofNat 32 (cat (cat (cat 0x3A d) a.toField) b.toField)
  | .hmax2Bf16 d a b => .ofNat 32 (cat (cat (cat 0x3B d) a.toField) b.toField)
  | .hdot2F16 d a b => .ofNat 32 (cat (cat (cat 0x3C d) a.toField) b.toField)
  | .hdot2Bf16 d a b => .ofNat 32 (cat (cat (cat 0x3D d) a.toField) b.toField)
  | .cvt d a m t s => .ofNat 32 (cat (cat (cat (cat (cat 0x40 d) a.toField) m.toField) t) s)
  | .cvt2F16 d a b => .ofNat 32 (cat (cat (cat 0x41 d) a.toField) b.toField)
  | .cvt2Bf16 d a b => .ofNat 32 (cat (cat (cat 0x42 d) a.toField) b.toField)
  | .qscale d a f l => .ofNat 32 (cat (cat (cat (cat (cat 0x43 d) a.toField) f) l) 0x00#4)
  | .qpack d a b => .ofNat 32 (cat (cat (cat 0x44 d) a.toField) b.toField)
  | .qunpk d a b => .ofNat 32 (cat (cat (cat 0x45 d) a.toField) b.toField)
  | .movL d a => .ofNat 32 (cat (cat (cat 0x4C d) a.toField) 0x00#8)
  | .moviL d i => .ofNat 32 (cat (cat 0x4D d) i)
  | .movh d i => .ofNat 32 (cat (cat 0x4E d) i)
  | .sel d a b => .ofNat 32 (cat (cat (cat 0x4F d) a.toField) b.toField)
  | .shfl d a b => .ofNat 32 (cat (cat (cat 0x50 d) a.toField) b.toField)
  | .perm d a b => .ofNat 32 (cat (cat (cat 0x51 d) a.toField) b.toField)
  | .ifLc a r => .ofNat 32 (cat (cat 0x54 a.toField) r)
  | .elseLc r => .ofNat 32 (cat (cat 0x55 0x00#8) r)
  | .endif r => .ofNat 32 (cat (cat 0x56 0x00#8) r)
  | .loop r => .ofNat 32 (cat (cat 0x57 0x00#8) r)
  | .brk d r => .ofNat 32 (cat (cat 0x58 d) r)
  | .cont d r => .ofNat 32 (cat (cat 0x59 d) r)
  | .lend r => .ofNat 32 (cat (cat 0x5A 0x00#8) r)
  | .split a r => .ofNat 32 (cat (cat 0x5B a.toField) r)
  | .meet r => .ofNat 32 (cat (cat 0x5C 0x00#8) r)
  | .join r => .ofNat 32 (cat (cat 0x5D 0x00#8) r)
  | .ldgB t x b s => .ofNat 32 (cat (cat (cat (cat 0x60 t) x) b) s)
  | .ldgH t x b s => .ofNat 32 (cat (cat (cat (cat 0x61 t) x) b) s)
  | .ldgW t x b s => .ofNat 32 (cat (cat (cat (cat 0x62 t) x) b) s)
  | .ldgD t x b s => .ofNat 32 (cat (cat (cat (cat 0x63 t) x) b) s)
  | .ldgQ t x b s => .ofNat 32 (cat (cat (cat (cat 0x64 t) x) b) s)
  | .stgB t x b s => .ofNat 32 (cat (cat (cat (cat 0x65 t) x) b) s)
  | .stgH t x b s => .ofNat 32 (cat (cat (cat (cat 0x66 t) x) b) s)
  | .stgW t x b s => .ofNat 32 (cat (cat (cat (cat 0x67 t) x) b) s)
  | .stgD t x b s => .ofNat 32 (cat (cat (cat (cat 0x68 t) x) b) s)
  | .stgQ t x b s => .ofNat 32 (cat (cat (cat (cat 0x69 t) x) b) s)
  | .ldsB t x b s => .ofNat 32 (cat (cat (cat (cat 0x6A t) x) b) s)
  | .ldsH t x b s => .ofNat 32 (cat (cat (cat (cat 0x6B t) x) b) s)
  | .ldsW t x b s => .ofNat 32 (cat (cat (cat (cat 0x6C t) x) b) s)
  | .ldsD t x b s => .ofNat 32 (cat (cat (cat (cat 0x6D t) x) b) s)
  | .ldsQ t x b s => .ofNat 32 (cat (cat (cat (cat 0x6E t) x) b) s)
  | .stsB t x b s => .ofNat 32 (cat (cat (cat (cat 0x6F t) x) b) s)
  | .stsH t x b s => .ofNat 32 (cat (cat (cat (cat 0x70 t) x) b) s)
  | .stsW t x b s => .ofNat 32 (cat (cat (cat (cat 0x71 t) x) b) s)
  | .stsD t x b s => .ofNat 32 (cat (cat (cat (cat 0x72 t) x) b) s)
  | .stsQ t x b s => .ofNat 32 (cat (cat (cat (cat 0x73 t) x) b) s)
  | .ldqW t x b s => .ofNat 32 (cat (cat (cat (cat 0x74 t) x) b) s)
  | .stqW t x b s => .ofNat 32 (cat (cat (cat (cat 0x75 t) x) b) s)
  | .ldaW t a s => .ofNat 32 (cat (cat (cat (cat (cat 0x76 t) a) 0x00#4) s.toField) 0x00#2)
  | .stlW t a s => .ofNat 32 (cat (cat (cat (cat (cat 0x77 t) a) 0x00#4) s.toField) 0x00#2)
  | .ldrW t a => .ofNat 32 (cat (cat (cat 0x78 t) a) 0x00#8)
  | .stcW t a => .ofNat 32 (cat (cat (cat 0x79 t) a) 0x00#8)
  | .atomAdd t a c e => .ofNat 32 (cat (cat (cat (cat (cat 0x7A t) a) 0x00#4) c.toField) e.toField)
  | .atomAnd t a c e => .ofNat 32 (cat (cat (cat (cat (cat 0x7A t) a) 0x01#4) c.toField) e.toField)
  | .atomOr t a c e => .ofNat 32 (cat (cat (cat (cat (cat 0x7A t) a) 0x02#4) c.toField) e.toField)
  | .atomXor t a c e => .ofNat 32 (cat (cat (cat (cat (cat 0x7A t) a) 0x03#4) c.toField) e.toField)
  | .atomMinS t a c e => .ofNat 32 (cat (cat (cat (cat (cat 0x7A t) a) 0x04#4) c.toField) e.toField)
  | .atomMinU t a c e => .ofNat 32 (cat (cat (cat (cat (cat 0x7A t) a) 0x05#4) c.toField) e.toField)
  | .atomMaxS t a c e => .ofNat 32 (cat (cat (cat (cat (cat 0x7A t) a) 0x06#4) c.toField) e.toField)
  | .atomMaxU t a c e => .ofNat 32 (cat (cat (cat (cat (cat 0x7A t) a) 0x07#4) c.toField) e.toField)
  | .atomXchg t a c e => .ofNat 32 (cat (cat (cat (cat (cat 0x7A t) a) 0x08#4) c.toField) e.toField)
  | .atomCas t a c e => .ofNat 32 (cat (cat (cat (cat (cat 0x7A t) a) 0x09#4) c.toField) e.toField)
  | .atomAddF t a c e => .ofNat 32 (cat (cat (cat (cat (cat 0x7A t) a) 0x0A#4) c.toField) e.toField)
  | .atomAddD t a c e => .ofNat 32 (cat (cat (cat (cat (cat 0x7A t) a) 0x0B#4) c.toField) e.toField)
  | .atomXchgD t a c e => .ofNat 32 (cat (cat (cat (cat (cat 0x7A t) a) 0x0C#4) c.toField) e.toField)
  | .atomCasD t a c e => .ofNat 32 (cat (cat (cat (cat (cat 0x7A t) a) 0x0D#4) c.toField) e.toField)
  | .atomSeqAdd t a c e => .ofNat 32 (cat (cat (cat (cat (cat 0x7B t) a) 0x00#4) c.toField) e.toField)
  | .atomSeqAnd t a c e => .ofNat 32 (cat (cat (cat (cat (cat 0x7B t) a) 0x01#4) c.toField) e.toField)
  | .atomSeqOr t a c e => .ofNat 32 (cat (cat (cat (cat (cat 0x7B t) a) 0x02#4) c.toField) e.toField)
  | .atomSeqXor t a c e => .ofNat 32 (cat (cat (cat (cat (cat 0x7B t) a) 0x03#4) c.toField) e.toField)
  | .atomSeqMinS t a c e => .ofNat 32 (cat (cat (cat (cat (cat 0x7B t) a) 0x04#4) c.toField) e.toField)
  | .atomSeqMinU t a c e => .ofNat 32 (cat (cat (cat (cat (cat 0x7B t) a) 0x05#4) c.toField) e.toField)
  | .atomSeqMaxS t a c e => .ofNat 32 (cat (cat (cat (cat (cat 0x7B t) a) 0x06#4) c.toField) e.toField)
  | .atomSeqMaxU t a c e => .ofNat 32 (cat (cat (cat (cat (cat 0x7B t) a) 0x07#4) c.toField) e.toField)
  | .atomSeqXchg t a c e => .ofNat 32 (cat (cat (cat (cat (cat 0x7B t) a) 0x08#4) c.toField) e.toField)
  | .atomSeqCas t a c e => .ofNat 32 (cat (cat (cat (cat (cat 0x7B t) a) 0x09#4) c.toField) e.toField)
  | .atomSeqAddF t a c e => .ofNat 32 (cat (cat (cat (cat (cat 0x7B t) a) 0x0A#4) c.toField) e.toField)
  | .atomSeqAddD t a c e => .ofNat 32 (cat (cat (cat (cat (cat 0x7B t) a) 0x0B#4) c.toField) e.toField)
  | .atomSeqXchgD t a c e => .ofNat 32 (cat (cat (cat (cat (cat 0x7B t) a) 0x0C#4) c.toField) e.toField)
  | .atomSeqCasD t a c e => .ofNat 32 (cat (cat (cat (cat (cat 0x7B t) a) 0x0D#4) c.toField) e.toField)
  | .redAdd t a c e => .ofNat 32 (cat (cat (cat (cat (cat 0x7C t) a) 0x00#4) c.toField) e.toField)
  | .redAnd t a c e => .ofNat 32 (cat (cat (cat (cat (cat 0x7C t) a) 0x01#4) c.toField) e.toField)
  | .redOr t a c e => .ofNat 32 (cat (cat (cat (cat (cat 0x7C t) a) 0x02#4) c.toField) e.toField)
  | .redXor t a c e => .ofNat 32 (cat (cat (cat (cat (cat 0x7C t) a) 0x03#4) c.toField) e.toField)
  | .redMinS t a c e => .ofNat 32 (cat (cat (cat (cat (cat 0x7C t) a) 0x04#4) c.toField) e.toField)
  | .redMinU t a c e => .ofNat 32 (cat (cat (cat (cat (cat 0x7C t) a) 0x05#4) c.toField) e.toField)
  | .redMaxS t a c e => .ofNat 32 (cat (cat (cat (cat (cat 0x7C t) a) 0x06#4) c.toField) e.toField)
  | .redMaxU t a c e => .ofNat 32 (cat (cat (cat (cat (cat 0x7C t) a) 0x07#4) c.toField) e.toField)
  | .redAddF t a c e => .ofNat 32 (cat (cat (cat (cat (cat 0x7C t) a) 0x0A#4) c.toField) e.toField)
  | .redAddD t a c e => .ofNat 32 (cat (cat (cat (cat (cat 0x7C t) a) 0x0B#4) c.toField) e.toField)
  | .addU d a b => .ofNat 32 (cat (cat (cat (cat 0x80 d) a) b) 0x00#6)
  | .subU d a b => .ofNat 32 (cat (cat (cat (cat 0x80 d) a) b) 0x01#6)
  | .mulU d a b => .ofNat 32 (cat (cat (cat (cat 0x80 d) a) b) 0x02#6)
  | .mulhiSU d a b => .ofNat 32 (cat (cat (cat (cat 0x80 d) a) b) 0x03#6)
  | .mulhiUU d a b => .ofNat 32 (cat (cat (cat (cat 0x80 d) a) b) 0x04#6)
  | .andU d a b => .ofNat 32 (cat (cat (cat (cat 0x80 d) a) b) 0x05#6)
  | .orU d a b => .ofNat 32 (cat (cat (cat (cat 0x80 d) a) b) 0x06#6)
  | .xorU d a b => .ofNat 32 (cat (cat (cat (cat 0x80 d) a) b) 0x07#6)
  | .andnU d a b => .ofNat 32 (cat (cat (cat (cat 0x80 d) a) b) 0x08#6)
  | .shlU d a b => .ofNat 32 (cat (cat (cat (cat 0x80 d) a) b) 0x09#6)
  | .shrUU d a b => .ofNat 32 (cat (cat (cat (cat 0x80 d) a) b) 0x0A#6)
  | .shrSU d a b => .ofNat 32 (cat (cat (cat (cat 0x80 d) a) b) 0x0B#6)
  | .minSU d a b => .ofNat 32 (cat (cat (cat (cat 0x80 d) a) b) 0x0C#6)
  | .minUU d a b => .ofNat 32 (cat (cat (cat (cat 0x80 d) a) b) 0x0D#6)
  | .maxSU d a b => .ofNat 32 (cat (cat (cat (cat 0x80 d) a) b) 0x0E#6)
  | .maxUU d a b => .ofNat 32 (cat (cat (cat (cat 0x80 d) a) b) 0x0F#6)
  | .cmpeqU d a b => .ofNat 32 (cat (cat (cat (cat 0x80 d) a) b) 0x10#6)
  | .cmpneU d a b => .ofNat 32 (cat (cat (cat (cat 0x80 d) a) b) 0x11#6)
  | .cmpltSU d a b => .ofNat 32 (cat (cat (cat (cat 0x80 d) a) b) 0x12#6)
  | .cmpltUU d a b => .ofNat 32 (cat (cat (cat (cat 0x80 d) a) b) 0x13#6)
  | .cmpleSU d a b => .ofNat 32 (cat (cat (cat (cat 0x80 d) a) b) 0x14#6)
  | .cmpleUU d a b => .ofNat 32 (cat (cat (cat (cat 0x80 d) a) b) 0x15#6)
  | .movU d a => .ofNat 32 (cat (cat (cat 0x81 d) a) 0x00#12)
  | .notU d a => .ofNat 32 (cat (cat (cat 0x81 d) a) 0x01#12)
  | .negU d a => .ofNat 32 (cat (cat (cat 0x81 d) a) 0x02#12)
  | .absU d a => .ofNat 32 (cat (cat (cat 0x81 d) a) 0x03#12)
  | .popcU d a => .ofNat 32 (cat (cat (cat 0x81 d) a) 0x04#12)
  | .clzU d a => .ofNat 32 (cat (cat (cat 0x81 d) a) 0x05#12)
  | .brevU d a => .ofNat 32 (cat (cat (cat 0x81 d) a) 0x06#12)
  | .sextBU d a => .ofNat 32 (cat (cat (cat 0x81 d) a) 0x07#12)
  | .sextHU d a => .ofNat 32 (cat (cat (cat 0x81 d) a) 0x08#12)
  | .sextWU d a => .ofNat 32 (cat (cat (cat 0x81 d) a) 0x09#12)
  | .addUi d a i => .ofNat 32 (cat (cat (cat 0x82 d) a) i)
  | .andUi d a i => .ofNat 32 (cat (cat (cat 0x83 d) a) i)
  | .orUi d a i => .ofNat 32 (cat (cat (cat 0x84 d) a) i)
  | .xorUi d a i => .ofNat 32 (cat (cat (cat 0x85 d) a) i)
  | .shlUi d a i => .ofNat 32 (cat (cat (cat (cat 0x86 d) a) 0x00#6) i)
  | .shrUUi d a i => .ofNat 32 (cat (cat (cat (cat 0x87 d) a) 0x00#6) i)
  | .shrSUi d a i => .ofNat 32 (cat (cat (cat (cat 0x88 d) a) 0x00#6) i)
  | .cmpeqUi d a i => .ofNat 32 (cat (cat (cat 0x89 d) a) i)
  | .cmpltSUi d a i => .ofNat 32 (cat (cat (cat 0x8A d) a) i)
  | .cmpltUUi d a i => .ofNat 32 (cat (cat (cat 0x8B d) a) i)
  | .moviU d i => .ofNat 32 (cat (cat 0x8C d) i)
  | .movx d i => .ofNat 32 (cat (cat 0x8D d) i)
  | .bra r => .ofNat 32 (cat (cat 0xA0 0x00#6) r)
  | .bz a r => .ofNat 32 (cat (cat 0xA1 a) r)
  | .bnz a r => .ofNat 32 (cat (cat 0xA2 a) r)
  | .jmp a => .ofNat 32 (cat (cat (cat 0xA3 0x00#6) a) 0x00#12)
  | .call n r => .ofNat 32 (cat (cat 0xA4 n) r)
  | .ret => .ofNat 32 (cat 0xA5 0x00#24)
  | .exit => .ofNat 32 (cat 0xA6 0x00#24)
  | .yield => .ofNat 32 (cat 0xA7 0x00#24)
  | .nop => .ofNat 32 (cat 0xA8 0x00#24)
  | .trap c => .ofNat 32 (cat (cat 0xA9 0x00#6) c)
  | .rett => .ofNat 32 (cat 0xAA 0x00#24)
  | .term => .ofNat 32 (cat 0xAB 0x00#24)
  | .any d f => .ofNat 32 (cat (cat (cat 0xAC d) 0x00#10) f.toField)
  | .all d f => .ofNat 32 (cat (cat (cat 0xAD d) 0x00#10) f.toField)
  | .ballot d f => .ofNat 32 (cat (cat (cat 0xAE d) 0x00#10) f.toField)
  | .srdS d p => .ofNat 32 (cat (cat (cat 0xB0 d) p) 0x00#10)
  | .srdV d p h => .ofNat 32 (cat (cat (cat (cat (cat 0xB0 d) p) 0x01#1) h) 0x00#8)
  | .swr a p => .ofNat 32 (cat (cat (cat 0xB1 a) p) 0x00#10)
  | .fence c e => .ofNat 32 (cat (cat (cat 0xB2 0x00#20) c.toField) e.toField)
  | .stdrain => .ofNat 32 (cat 0xB3 0x00#24)
  | .fqpop d => .ofNat 32 (cat (cat 0xB4 d) 0x00#18)
  | .step => .ofNat 32 (cat 0xB5 0x00#24)
  | .launch a => .ofNat 32 (cat (cat 0xB6 a) 0x00#18)
  | .launchAt a b => .ofNat 32 (cat (cat (cat 0xB7 a) b) 0x00#12)
  | .fbMark a b c => .ofNat 32 (cat (cat (cat (cat 0xB8 a) b) c) 0x00#6)
  | .fbGo => .ofNat 32 (cat 0xB9 0x00#24)
  | .barAlloc d => .ofNat 32 (cat (cat 0xC0 d) 0x00#18)
  | .barInit a b c => .ofNat 32 (cat (cat (cat (cat 0xC1 a) b) c) 0x00#6)
  | .barExpect a b => .ofNat 32 (cat (cat (cat 0xC2 a) b) 0x00#12)
  | .barArrive a => .ofNat 32 (cat (cat 0xC3 a) 0x00#18)
  | .barArriveQ a b => .ofNat 32 (cat (cat (cat 0xC4 a) b) 0x00#12)
  | .barWait a => .ofNat 32 (cat (cat 0xC5 a) 0x00#18)
  | .barTest d a => .ofNat 32 (cat (cat (cat 0xC6 d) a) 0x00#12)
  | .barFree a => .ofNat 32 (cat (cat 0xC7 a) 0x00#18)
  | .cpTile a b c e => .ofNat 32 (cat (cat (cat (cat 0xD0 a) b) c) e)
  | .cpBulk a b c e => .ofNat 32 (cat (cat (cat (cat 0xD1 a) b) c) e)
  | .cpGather a b c e => .ofNat 32 (cat (cat (cat (cat 0xD2 a) b) c) e)
  | .cpRed a b c e => .ofNat 32 (cat (cat (cat (cat 0xD3 a) b) c) e)
  | .cpAt a b e => .ofNat 32 (cat (cat (cat (cat 0xD4 a) b) 0x00#6) e)
  | .mma a b c e => .ofNat 32 (cat (cat (cat (cat 0xE0 a) b) c) e)
  | .accZero a => .ofNat 32 (cat (cat 0xE1 a) 0x00#18)
  | .accLd a b => .ofNat 32 (cat (cat (cat 0xE2 a) b) 0x00#12)
  | .accSt a b c e => .ofNat 32 (cat (cat (cat (cat 0xE3 a) b) c) e)
  | .accRed a b c e => .ofNat 32 (cat (cat (cat (cat 0xE4 a) b) c) e)
  | .shGetW d a e => .ofNat 32 (cat (cat (cat (cat 0xF0 d) a) 0x00#10) e.toField)
  | .shGetP a b e => .ofNat 32 (cat (cat (cat (cat (cat 0xF0 0x00#6) a) b) 0x04#4) e.toField)
  | .shOpAdd d a b e => .ofNat 32 (cat (cat (cat (cat (cat 0xF1 d) a) b) 0x00#4) e.toField)
  | .shOpAddF d a b e => .ofNat 32 (cat (cat (cat (cat (cat 0xF1 d) a) b) 0x01#4) e.toField)
  | .shOpMin d a b e => .ofNat 32 (cat (cat (cat (cat (cat 0xF1 d) a) b) 0x02#4) e.toField)
  | .shOpMax d a b e => .ofNat 32 (cat (cat (cat (cat (cat 0xF1 d) a) b) 0x03#4) e.toField)
  | .shOpMinS d a b e => .ofNat 32 (cat (cat (cat (cat (cat 0xF1 d) a) b) 0x04#4) e.toField)
  | .shOpMinU d a b e => .ofNat 32 (cat (cat (cat (cat (cat 0xF1 d) a) b) 0x05#4) e.toField)
  | .shOpMaxS d a b e => .ofNat 32 (cat (cat (cat (cat (cat 0xF1 d) a) b) 0x06#4) e.toField)
  | .shOpMaxU d a b e => .ofNat 32 (cat (cat (cat (cat (cat 0xF1 d) a) b) 0x07#4) e.toField)
  | .shOpAnd d a b e => .ofNat 32 (cat (cat (cat (cat (cat 0xF1 d) a) b) 0x08#4) e.toField)
  | .shOpOr d a b e => .ofNat 32 (cat (cat (cat (cat (cat 0xF1 d) a) b) 0x09#4) e.toField)
  | .shOpXor d a b e => .ofNat 32 (cat (cat (cat (cat (cat 0xF1 d) a) b) 0x0A#4) e.toField)
  | .shOpSwap d a b e => .ofNat 32 (cat (cat (cat (cat (cat 0xF1 d) a) b) 0x0B#4) e.toField)
  | .shOpCas d a b e => .ofNat 32 (cat (cat (cat (cat (cat 0xF1 d) a) b) 0x0C#4) e.toField)
  | .shLand a => .ofNat 32 (cat (cat (cat 0xF2 0x00#6) a) 0x00#12)
  | .shPut a b => .ofNat 32 (cat (cat (cat (cat 0xF3 0x00#6) a) b) 0x00#6)
  | .shFloat a e => .ofNat 32 (cat (cat (cat (cat 0xF4 0x00#6) a) 0x00#10) e.toField)
  | .sldB d a i => .ofNat 32 (cat (cat (cat 0xF8 d) a) i)
  | .sldH d a i => .ofNat 32 (cat (cat (cat 0xF9 d) a) i)
  | .sldW d a i => .ofNat 32 (cat (cat (cat 0xFA d) a) i)
  | .sldD d a i => .ofNat 32 (cat (cat (cat 0xFB d) a) i)
  | .sstB t a i => .ofNat 32 (cat (cat (cat 0xFC t) a) i)
  | .sstH t a i => .ofNat 32 (cat (cat (cat 0xFD t) a) i)
  | .sstW t a i => .ofNat 32 (cat (cat (cat 0xFE t) a) i)
  | .sstD t a i => .ofNat 32 (cat (cat (cat 0xFF t) a) i)
  | .teamRetire _ _ => 0x00000000#32
  | .gridRetire _ => 0x00000000#32
  | .launchAtDue _ => 0x00000000#32
  | .distributorPass _ => 0x00000000#32
  | .contextSwitchOut _ => 0x00000000#32
  | .contextSwitchIn _ => 0x00000000#32
  | .preempt _ _ => 0x00000000#32
  | .teamResume _ _ => 0x00000000#32
  | .splitWake _ _ => 0x00000000#32
  | .fairnessSwap _ _ => 0x00000000#32
  | .yieldShadowEnd _ _ => 0x00000000#32
  | .mmaExec _ => 0x00000000#32
  | .accZeroExec _ => 0x00000000#32
  | .accLdExec _ => 0x00000000#32
  | .accStExec _ => 0x00000000#32
  | .accStComplete _ => 0x00000000#32
  | .accRedExec _ => 0x00000000#32
  | .accRedComplete _ => 0x00000000#32
  | .copyDispatch _ => 0x00000000#32
  | .cpAtDispatch _ _ => 0x00000000#32
  | .copyComplete _ _ => 0x00000000#32
  | .sliceAdderOp _ => 0x00000000#32
  | .heldWritePerform _ => 0x00000000#32
  | .storeRegistration _ => 0x00000000#32
  | .sectorRevoke _ => 0x00000000#32
  | .ownerWriteBack _ => 0x00000000#32
  | .readForward _ _ => 0x00000000#32
  | .mirrorInvalidate _ => 0x00000000#32
  | .lineFill _ _ => 0x00000000#32
  | .spillQueueRefill _ => 0x00000000#32
  | .peerL1Probe _ _ => 0x00000000#32
  | .registrationAck _ _ => 0x00000000#32
  | .storeTranslate _ _ => 0x00000000#32
  | .faultQueueAdmit _ => 0x00000000#32
  | .pageWalkDone _ _ _ => 0x00000000#32
  | .trapEntry _ _ => 0x00000000#32
  | .shellOpEffect _ _ => 0x00000000#32
  | .shellLandEffect _ _ => 0x00000000#32
  | .shellFloatEffect _ => 0x00000000#32
  | .shellOverstay _ => 0x00000000#32
  | .shellLandingLoss _ => 0x00000000#32
  | .shellCooldownEnd _ => 0x00000000#32
  | .neighbourRead _ _ => 0x00000000#32
  | .stepComplete _ _ => 0x00000000#32
  | .pageOut _ _ => 0x00000000#32
  | .hostCut _ => 0x00000000#32
  | .ctxStart _ _ => 0x00000000#32
  | .ctxStop _ _ => 0x00000000#32
  | .pctlWrite _ _ => 0x00000000#32
  | .engMaskWrite _ _ _ => 0x00000000#32
  | .scrubComplete _ => 0x00000000#32
  | .l2BucketTick _ => 0x00000000#32
  | .portBucketTick _ => 0x00000000#32
  | .kbktWrite _ _ => 0x00000000#32
  | .ingressFlit _ _ _ _ _ _ => 0x00000000#32
  | .exportRequest _ _ _ _ _ => 0x00000000#32
  | .remoteArrive _ _ _ _ _ => 0x00000000#32
  | .arrivalPerform _ => 0x00000000#32
  | .routeUnusableTimeout _ => 0x00000000#32
  | .strictRetransmit _ _ => 0x00000000#32
  | .rswapRoute => 0x00000000#32
  | .rswapKey => 0x00000000#32
  | .swapComplete => 0x00000000#32
  | .portFail _ => 0x00000000#32
  | .portLive _ => 0x00000000#32
  | .portctlEn _ _ => 0x00000000#32
  | .portctlFailClear _ => 0x00000000#32
  | .portctlKclr _ => 0x00000000#32
  | .ftimeSyncExchange _ _ => 0x00000000#32
  | .ftimeLockLoss => 0x00000000#32
  | .shootdownPage _ _ _ => 0x00000000#32
  | .shootdownAll _ _ => 0x00000000#32
  | .shootdownComplete _ => 0x00000000#32
  | .correctableError _ => 0x00000000#32
  | .uncorrectableError _ => 0x00000000#32
  | .powerThrottle _ => 0x00000000#32
  | .hotStop _ => 0x00000000#32
  | .hotClear _ => 0x00000000#32
  | .deviceReset _ => 0x00000000#32
  | .attGo => 0x00000000#32
  | .attQuoteDone => 0x00000000#32
  | .attnonceWrite _ _ => 0x00000000#32
  | .coreretWrite _ => 0x00000000#32
  | .coreMarginFail _ => 0x00000000#32
  | .eolUpdate _ => 0x00000000#32
  | .ceclrWrite _ => 0x00000000#32
  | .mgmtRegisterWrite _ _ _ => 0x00000000#32
  | .loadDataArrival _ _ => 0x00000000#32
  | .bayRetire _ => 0x00000000#32

/-- The instruction that the decoder reads from the word `w` laid out in memory as the hardware stores it
(R37); the device's instructions are all one word of 32 bits. An event of the table has no bits and no
word. -/
noncomputable def decodeTableWord (nbits w : Nat) : Option Instr :=
  if nbits = 0 then none
  else
    match decodeBytes (bytesOfWord (BitVec.ofNat 32 w)) with
    | .ok i => some i
    | .error _ => none

end Sys2Proof
end

