-- ==== Sys2Proof/Machine/Float.lean ====
section
/-! DEFINITION. Number formats (R74 to R91): reading a value, rounding an exact value once, and the
operations that deliver a rounded result with its flags.

An exact nonzero value is a sign, a natural number `mant` and an exponent `exp`: its magnitude is
`mant · 2^exp`, or, where `sticky` is set, lies strictly between `mant · 2^exp` and
`(mant + 1) · 2^exp`. -/

namespace Sys2Proof

/-- The flags of FPFLAGS (Table 2.4): invalid, divide-by-zero, overflow, underflow, inexact. -/
abbrev Flags := BitVec 5

/-- No flag. -/
def Flags.none : Flags := 0b00000#5
/-- Invalid (bit 4). -/
def Flags.invalid : Flags := 0b10000#5
/-- Divide-by-zero (bit 3). -/
def Flags.divZero : Flags := 0b01000#5

/-- The flags overflow, underflow and inexact together (bits 2, 1 and 0). -/
def Flags.ofRound (ovf under inexact : Bool) : Flags :=
  BitVec.ofNat 5 ((if ovf then 4 else 0) + (if under then 2 else 0) + (if inexact then 1 else 0))

/-- A binary format (Tables 5.1 and 5.5): fraction bits, bias, and the code of its largest finite
magnitude. -/
structure Fmt where
  frac   : Nat
  bias   : Nat
  maxMag : Nat
  deriving DecidableEq, Repr

/-- FP32 (Table 5.1). -/
def Fmt.f32 : Fmt := ⟨23, 127, 0x7F7FFFFF⟩
/-- FP16 (Table 5.1). -/
def Fmt.f16 : Fmt := ⟨10, 15, 0x7BFF⟩
/-- BF16 (Table 5.1). -/
def Fmt.bf16 : Fmt := ⟨7, 127, 0x7F7F⟩
/-- E2M1 (Table 5.5). -/
def Fmt.e2m1 : Fmt := ⟨1, 1, 0b0111⟩
/-- E3M2 (Table 5.5). -/
def Fmt.e3m2 : Fmt := ⟨2, 3, 0b011111⟩
/-- E2M3 (Table 5.5). -/
def Fmt.e2m3 : Fmt := ⟨3, 1, 0b011111⟩
/-- E4M3 (Table 5.5). -/
def Fmt.e4m3 : Fmt := ⟨3, 7, 0x7E⟩
/-- E5M2 (Table 5.5). -/
def Fmt.e5m2 : Fmt := ⟨2, 15, 0x7B⟩

/-- A value read from a format: a NaN (signalling or quiet), an infinity, or a finite value
`(-1)^neg · mant · 2^exp`. -/
inductive FVal where
  | nan (signalling : Bool)
  | inf (neg : Bool)
  | fin (neg : Bool) (mant : Nat) (exp : Int)
  deriving DecidableEq, Repr

/-- The finite value of a magnitude code: exponent field and fraction (R74, R83). -/
def Fmt.finite (f : Fmt) (neg : Bool) (mag : Nat) : FVal :=
  let e := mag / 2 ^ f.frac
  let m := mag % 2 ^ f.frac
  if e = 0 then .fin neg m (1 - (f.bias : Int) - (f.frac : Int))
  else .fin neg (2 ^ f.frac + m) ((e : Int) - (f.bias : Int) - (f.frac : Int))

/-- The value of an IEEE format's bits (R74); `total` is the number of bits. -/
def Fmt.read (f : Fmt) (total bits : Nat) : FVal :=
  let neg := bits.testBit (total - 1)
  let mag := bits % 2 ^ (total - 1)
  if mag ≤ f.maxMag then f.finite neg mag
  else if mag = f.maxMag + 1 then .inf neg
  else .nan (!mag.testBit (f.frac - 1))

/-- The FP32 value of a word. -/
def readF32 (x : Word) : FVal := Fmt.f32.read 32 x.toNat
/-- The FP16 value of 16 bits. -/
def readF16 (x : Half) : FVal := Fmt.f16.read 16 x.toNat
/-- The BF16 value of 16 bits. -/
def readBf16 (x : Half) : FVal := Fmt.bf16.read 16 x.toNat

/-- Whether a value is a signalling NaN. -/
def FVal.isSnan : FVal → Bool
  | .nan s => s
  | _ => false

/-- Whether a value is a NaN. -/
def FVal.isNan : FVal → Bool
  | .nan _ => true
  | _ => false

/-- Whether a value is an infinity. -/
def FVal.isInf : FVal → Bool
  | .inf _ => true
  | _ => false

/-- Whether a value is a zero of either sign. -/
def FVal.isZero : FVal → Bool
  | .fin _ m _ => m == 0
  | _ => false

/-- The value with the opposite sign. -/
def FVal.neg : FVal → FVal
  | .nan s => .nan s
  | .inf s => .inf (!s)
  | .fin s m e => .fin (!s) m e

/-- The magnitude of a finite value. -/
def FVal.abs : FVal → FVal
  | .fin _ m e => .fin false m e
  | x => x

/-- Rounds the magnitude to a whole number of units `2^q` (R77), with whether that changed the value. A
sticky magnitude must have `exp < q`. -/
def roundAt (r : Rnd) (neg : Bool) (mant : Nat) (exp : Int) (sticky : Bool) (q : Int) : Nat × Bool :=
  if q ≤ exp then
    let fl := mant * 2 ^ (exp - q).toNat
    let up := sticky && (match r with
      | .rn => false
      | .rz => false
      | .ru => !neg
      | .rd => neg)
    (if up then fl + 1 else fl, sticky)
  else
    let unit := 2 ^ (q - exp).toNat
    let fl := mant / unit
    let rem := mant % unit
    let inexact := rem != 0 || sticky
    let twice := 2 * rem
    let up := match r with
      | .rn => decide (unit < twice) || (twice == unit && (sticky || fl % 2 == 1))
      | .rz => false
      | .ru => inexact && !neg
      | .rd => inexact && neg
    (if up then fl + 1 else fl, inexact)

/-- A rounded magnitude code with what happened on the way: `ovf` before the overflow rule. -/
structure Rounded where
  mag     : Nat
  ovf     : Bool
  under   : Bool
  inexact : Bool
  deriving DecidableEq, Repr

/-- Rounds an exact magnitude (`mant > 0`) to the format with an unbounded exponent above and the
subnormal grid below (R77), and finds overflow (R78) and a tiny inexact result (R79). -/
def Fmt.round (f : Fmt) (r : Rnd) (neg : Bool) (mant : Nat) (exp : Int) (sticky : Bool) : Rounded :=
  let lead : Int := exp + (Nat.log2 mant : Int)
  let emin : Int := 1 - (f.bias : Int)
  let q0 : Int := emin - (f.frac : Int)
  let qU : Int := lead - (f.frac : Int)
  let q : Int := if q0 ≤ qU then qU else q0
  let (k, inexact) := roundAt r neg mant exp sticky q
  let mag := k + (q - q0).toNat * 2 ^ f.frac
  let tiny := decide (lead < emin) &&
    (decide (lead < emin - 1) || decide ((roundAt r neg mant exp sticky qU).1 < 2 ^ (f.frac + 1)))
  { mag, ovf := decide (f.maxMag < mag), under := tiny && inexact, inexact }

/-- Puts a sign on a magnitude code of `total` bits. -/
def withSign (total : Nat) (neg : Bool) (mag : Nat) : Nat := if neg then 2 ^ (total - 1) + mag else mag

/-- Rounds an exact nonzero value into an IEEE format (R77 to R79). -/
def Fmt.roundFinite (f : Fmt) (total : Nat) (r : Rnd) (neg : Bool) (mant : Nat) (exp : Int)
    (sticky : Bool) : Nat × Flags :=
  let x := f.round r neg mant exp sticky
  if x.ovf then
    let toInf := match r with
      | .rn => true
      | .rz => false
      | .ru => !neg
      | .rd => neg
    (withSign total neg (if toInf then f.maxMag + 1 else f.maxMag), Flags.ofRound true false true)
  else (withSign total neg x.mag, Flags.ofRound false x.under x.inexact)

/-- The canonical NaN of an IEEE format (Table 5.1). -/
def Fmt.canonicalNan (f : Fmt) : Nat := f.maxMag + 1 + 2 ^ (f.frac - 1)

/-- Delivers an exact value in an IEEE format. -/
def Fmt.deliver (f : Fmt) (total : Nat) (r : Rnd) : FVal → Nat × Flags
  | .nan _ => (f.canonicalNan, Flags.none)
  | .inf s => (withSign total s (f.maxMag + 1), Flags.none)
  | .fin s m e => if m = 0 then (withSign total s 0, Flags.none) else f.roundFinite total r s m e false

/-- The exact sum of finite terms as an integer count of `2^exp`. -/
def sumTerms (exp : Int) : List FVal → Int
  | [] => 0
  | .fin s m e :: t =>
    let x : Int := (m * 2 ^ (e - exp).toNat : Nat)
    (if s then -x else x) + sumTerms exp t
  | _ :: t => sumTerms exp t

/-- The smallest exponent of the finite terms. -/
def minExp : List FVal → Int
  | [] => 0
  | [.fin _ _ e] => e
  | .fin _ _ e :: t => if e ≤ minExp t then e else minExp t
  | _ :: t => minExp t

/-- Whether every term is a finite value with sign `s`. -/
def allSign (s : Bool) : List FVal → Bool
  | [] => true
  | .fin s' _ _ :: t => s' == s && allSign s t
  | _ :: _ => false

/-- The exact sum of a list of values (R79, R81): NaN with `invalid` for a signalling NaN or infinities of
both signs; an exact zero takes its sign by R79. -/
def exactSum (r : Rnd) (ts : List FVal) : FVal × Flags :=
  let both := ts.contains (.inf false) && ts.contains (.inf true)
  if ts.any FVal.isNan then
    (.nan false, if ts.any FVal.isSnan || both then Flags.invalid else Flags.none)
  else if ts.any FVal.isInf then
    if both then (.nan false, Flags.invalid) else (.inf (ts.contains (.inf true)), Flags.none)
  else
    let e := minExp ts
    let x := sumTerms e ts
    if x = 0 then
      let neg := if allSign true ts then true else if allSign false ts then false else r == .rd
      (.fin neg 0 0, Flags.none)
    else (.fin (decide (x < 0)) x.natAbs e, Flags.none)

/-- The exact product of two values; 0 · ∞ is invalid (Table 5.4). -/
def exactMul (x y : FVal) : FVal × Flags :=
  let snan := if x.isSnan || y.isSnan then Flags.invalid else Flags.none
  match x, y with
  | .nan _, _ => (.nan false, snan)
  | _, .nan _ => (.nan false, snan)
  | .inf s, .inf t => (.inf (s != t), Flags.none)
  | .inf s, .fin t m _ => if m = 0 then (.nan false, Flags.invalid) else (.inf (s != t), Flags.none)
  | .fin s m _, .inf t => if m = 0 then (.nan false, Flags.invalid) else (.inf (s != t), Flags.none)
  | .fin s m e, .fin t n g => (.fin (s != t) (m * n) (e + g), Flags.none)

/-- The sum of values, rounded once into a format (R99, R103, R104). The flags of the terms' products are
`fl`. -/
def Fmt.sumRounded (f : Fmt) (total : Nat) (r : Rnd) (fl : Flags) (ts : List FVal) : Nat × Flags :=
  let (v, fs) := exactSum r ts
  let (b, fd) := f.deliver total r v
  (b, fl ||| fs ||| fd)

/-- x + y rounded. -/
def Fmt.add (f : Fmt) (total : Nat) (r : Rnd) (x y : FVal) : Nat × Flags :=
  f.sumRounded total r Flags.none [x, y]

/-- x · y rounded. -/
def Fmt.mul (f : Fmt) (total : Nat) (r : Rnd) (x y : FVal) : Nat × Flags :=
  let (p, fp) := exactMul x y
  let (b, fd) := f.deliver total r p
  (b, fp ||| fd)

/-- x · y + d with one rounding. -/
def Fmt.fma (f : Fmt) (total : Nat) (r : Rnd) (x y d : FVal) : Nat × Flags :=
  let (p, fp) := exactMul x y
  f.sumRounded total r fp [p, d]

/-- d − x · y with one rounding, as the sum of d and −(x · y) (R99). -/
def Fmt.fnma (f : Fmt) (total : Nat) (r : Rnd) (x y d : FVal) : Nat × Flags :=
  let (p, fp) := exactMul x y
  f.sumRounded total r fp [p.neg, d]

/-- Whether x < y for values that are no NaN; −0 and +0 are equal. -/
def FVal.lt (x y : FVal) : Bool :=
  match x, y with
  | .nan _, _ => false
  | _, .nan _ => false
  | .inf s, .inf t => s && !t
  | .inf s, .fin _ _ _ => s
  | .fin _ _ _, .inf t => !t
  | .fin s m e, .fin t n g =>
    let q := if e ≤ g then e else g
    decide (sumTerms q [.fin s m e] < sumTerms q [.fin t n g])

/-- Whether x = y for values that are no NaN. -/
def FVal.eq (x y : FVal) : Bool := !x.isNan && !y.isNan && !x.lt y && !y.lt x

/-- minimumNumber or maximumNumber (R100) on the bits `a`, `b` of a format: −0 is below +0. -/
def Fmt.minMax (f : Fmt) (total : Nat) (wantMax : Bool) (a b : Nat) : Nat × Flags :=
  let x := f.read total a
  let y := f.read total b
  let fl := if x.isSnan || y.isSnan then Flags.invalid else Flags.none
  if x.isNan && y.isNan then (f.canonicalNan, fl)
  else if x.isNan then (b, fl)
  else if y.isNan then (a, fl)
  else
    let less := x.lt y || (x.isZero && y.isZero && a.testBit (total - 1) && !b.testBit (total - 1))
    (if less != wantMax then a else b, fl)

/-- The greatest `s` of at most `n` bits with `s² ≤ x`, from the bits already found. -/
def isqrtFrom (x : Nat) : Nat → Nat → Nat
  | 0, s => s
  | n + 1, s =>
    let t := s + 2 ^ n
    isqrtFrom x n (if t * t ≤ x then t else s)

/-- 1 / x (R102): the quotient to 64 more bits than the divisor has. -/
def recipF32 (r : Rnd) (x : FVal) : Nat × Flags :=
  match x with
  | .nan s => (Fmt.f32.canonicalNan, if s then Flags.invalid else Flags.none)
  | .inf s => (withSign 32 s 0, Flags.none)
  | .fin s m e =>
    if m = 0 then (withSign 32 s 0x7F800000, Flags.divZero)
    else
      let n := 2 ^ 96
      Fmt.f32.roundFinite 32 r s (n / m) (-96 - e) (n % m != 0)

/-- √x (R102): the root to at least 32 bits. -/
def sqrtF32 (r : Rnd) (x : FVal) : Nat × Flags :=
  match x with
  | .nan s => (Fmt.f32.canonicalNan, if s then Flags.invalid else Flags.none)
  | .inf s => if s then (Fmt.f32.canonicalNan, Flags.invalid) else (0x7F800000, Flags.none)
  | .fin s m e =>
    if m = 0 then (withSign 32 s 0, Flags.none)
    else if s then (Fmt.f32.canonicalNan, Flags.invalid)
    else
      let odd := (e % 2).toNat
      let n := m * 2 ^ (odd + 64)
      let root := isqrtFrom n 50 0
      Fmt.f32.roundFinite 32 r false root ((e - odd) / 2 - 32) (root * root != n)

/-- 1 / √x (R102): the root of the quotient to at least 36 bits. -/
def rsqrtF32 (r : Rnd) (x : FVal) : Nat × Flags :=
  match x with
  | .nan s => (Fmt.f32.canonicalNan, if s then Flags.invalid else Flags.none)
  | .inf s => if s then (Fmt.f32.canonicalNan, Flags.invalid) else (0, Flags.none)
  | .fin s m e =>
    if m = 0 then (withSign 32 s 0x7F800000, Flags.divZero)
    else if s then (Fmt.f32.canonicalNan, Flags.invalid)
    else
      let odd := (e % 2).toNat
      let d := m * 2 ^ odd
      let n := 2 ^ 100
      let root := isqrtFrom (n / d) 51 0
      Fmt.f32.roundFinite 32 r false root (-50 - (e - odd) / 2) (root * root * d != n)

/-- The natural logarithm of 2 in units of `2^-256`, rounded down. -/
def ln2Fixed : Nat :=
  0xB17217F7D1CF79ABC9E3B39803F2F6AF40F343267298B62D8A0D175B8BAAFA2B

/-- The sum of the series of `e^y` from its term `n` on, for `y` and `term` in units of `2^-256`. -/
def expSeries (y : Nat) : Nat → Nat → Nat → Nat
  | 0, _, _ => 0
  | k + 1, n, term => term + expSeries y k (n + 1) (term * y / 2 ^ 256 / (n + 1))

/-- `2^x` for an exact x (R102). An integer exponent is exact; else the fraction of x goes through the series
of `e^(f · ln 2)` in units of `2^-256`, cut to 128 bits with sticky set, since the exact value is
irrational. -/
def exp2F32 (r : Rnd) (x : FVal) : Nat × Flags :=
  match x with
  | .nan s => (Fmt.f32.canonicalNan, if s then Flags.invalid else Flags.none)
  | .inf s => (if s then 0 else 0x7F800000, Flags.none)
  | .fin s m e =>
    if m = 0 then (0x3F800000, Flags.none)
    else
      let big : Bool := decide (9 ≤ e + (Nat.log2 m : Int))
      if big then
        if s then Fmt.f32.roundFinite 32 r false (2 ^ 40) (-600) true
        else Fmt.f32.roundFinite 32 r false 1 600 false
      else
        let fixed : Int := if 0 ≤ e + 256 then (m * 2 ^ (e + 256).toNat : Nat) else 0
        let v : Int := if s then -fixed else fixed
        let n := v / 2 ^ 256
        let f := (v % 2 ^ 256).toNat
        if f = 0 then Fmt.f32.roundFinite 32 r false 1 n false
        else
          let y := f * ln2Fixed / 2 ^ 256
          let g := expSeries y 80 0 (2 ^ 256)
          Fmt.f32.roundFinite 32 r false (g / 2 ^ 128) (n - 128) true

/-- The sum of the series of `artanh z` from the term of power `2n + 1` on, in units of `2^-256`; `p` is
`z^(2n+1)` and `zz` is `z²`. -/
def artanhSeries (zz : Nat) : Nat → Nat → Nat → Nat
  | 0, _, _ => 0
  | k + 1, n, p => p / (2 * n + 1) + artanhSeries zz k (n + 1) (p * zz / 2 ^ 256)

/-- `log2 x` for an exact x (R102). A power of two is exact; else the logarithm of its fraction in [1, 2) goes
through the series of `2 · artanh ((f − 1) / (f + 1)) / ln 2` in units of `2^-256`, cut to units of
`2^-128` with sticky set, since the exact value is irrational. -/
def log2F32 (r : Rnd) (x : FVal) : Nat × Flags :=
  match x with
  | .nan s => (Fmt.f32.canonicalNan, if s then Flags.invalid else Flags.none)
  | .inf s => if s then (Fmt.f32.canonicalNan, Flags.invalid) else (0x7F800000, Flags.none)
  | .fin s m e =>
    if m = 0 then (0xFF800000, Flags.divZero)
    else if s then (Fmt.f32.canonicalNan, Flags.invalid)
    else
      let l := Nat.log2 m
      let k : Int := e + (l : Int)
      if m = 2 ^ l then
        if k = 0 then (0, Flags.none)
        else Fmt.f32.roundFinite 32 r (decide (k < 0)) k.natAbs 0 false
      else
        let z : Nat := (m - 2 ^ l) * 2 ^ 256 / (m + 2 ^ l)
        let zz : Nat := z * z / 2 ^ 256
        let lg : Nat := 2 * artanhSeries zz 90 0 z * 2 ^ 256 / ln2Fixed
        let v : Int := k * 2 ^ 256 + (lg : Int)
        Fmt.f32.roundFinite 32 r (decide (v < 0)) (v.natAbs / 2 ^ 128) (-128) true

/-- An FP32 compare (R101): the value 1 or 0 with the flags. -/
def cmpF32 (rel : FVal → FVal → Bool) (quietInvalid : Bool) (a b : Word) : Word × Flags :=
  let x := readF32 a
  let y := readF32 b
  let nan := x.isNan || y.isNan
  let snan := x.isSnan || y.isSnan
  (if rel x y then 1 else 0, if snan || (quietInvalid && nan) then Flags.invalid else Flags.none)

/-- A floating value to an integer in `lo` to `hi` (R89): the value written and the flags. -/
def toInteger (r : Rnd) (lo hi : Int) : FVal → Int × Flags
  | .nan _ => (0, Flags.invalid)
  | .inf s => (if s then lo else hi, Flags.invalid)
  | .fin s m e =>
    let (k, inexact) := roundAt r s m e false 0
    let v : Int := if s then -(k : Int) else k
    if v < lo then (lo, Flags.invalid)
    else if hi < v then (hi, Flags.invalid)
    else (v, Flags.ofRound false false inexact)

/-- A floating value into an IEEE format, with `invalid` for a signalling NaN (R91). -/
def Fmt.convert (f : Fmt) (total : Nat) (r : Rnd) (x : FVal) : Nat × Flags :=
  let (b, fl) := f.deliver total r x
  (b, fl ||| (if x.isSnan then Flags.invalid else Flags.none))

/-- The narrow format of an FMT code (Table 3.8); codes 5 to 7 name none. -/
def narrowFmt (code : Nat) : Option Fmt :=
  match code with
  | 0 => some .e2m1
  | 1 => some .e3m2
  | 2 => some .e2m3
  | 3 => some .e4m3
  | 4 => some .e5m2
  | _ => none

/-- The element width in bits of an FMT code (Table 5.5). -/
def narrowWidth (code : Nat) : Nat :=
  match code with
  | 0 => 4
  | 1 => 6
  | 2 => 6
  | 3 => 8
  | 4 => 8
  | _ => 0

/-- The value of an element code of narrow format `fmt` (R83, NarrowValue); the special code of E2M1 is left
to the caller. -/
def narrowValue (fmt code : Nat) : FVal :=
  match narrowFmt fmt with
  | none => .nan false
  | some f =>
    let w := narrowWidth fmt
    let neg := code.testBit (w - 1)
    let mag := code % 2 ^ (w - 1)
    if fmt = 3 ∧ mag = 0x7F then .nan false
    else if fmt = 4 ∧ mag = 0x7C then .inf neg
    else if fmt = 4 ∧ 0x7C < mag then .nan false
    else f.finite neg mag

/-- The product of a value and `2^k`, exact. -/
def FVal.scale (k : Int) : FVal → FVal
  | .nan s => .nan s
  | .inf s => .inf s
  | .fin s m e => .fin s m (e + k)

/-- The real value of an element of a block with its header (R87, BlockElem). -/
def blockElem (fmt code scale special : Nat) : FVal :=
  if scale = 0xFF then .nan false
  else
    let v := if fmt = 0 ∧ code = 0b1000 then narrowValue 3 special else narrowValue fmt code
    v.scale ((scale : Int) - 127)

/-- The element code of a value in narrow format `fmt`, always in RN (R88, NarrowOf). -/
def narrowOf (fmt : Nat) (x : FVal) : Nat × Flags :=
  match narrowFmt fmt with
  | none => (0, Flags.none)
  | some f =>
    let w := narrowWidth fmt
    match x with
    | .nan s =>
      if fmt = 3 then (0x7F, if s then Flags.invalid else Flags.none)
      else if fmt = 4 then (0x7E, if s then Flags.invalid else Flags.none)
      else (0, Flags.invalid)
    | .inf s =>
      if fmt = 4 then (withSign w s 0x7C, Flags.none) else (withSign w s f.maxMag, Flags.invalid)
    | .fin s m e =>
      let x := f.round .rn s m e false
      let (mag, fl) :=
        if m = 0 then (0, Flags.none)
        else if x.ovf then (f.maxMag, Flags.ofRound true false true)
        else (x.mag, Flags.ofRound false x.under x.inexact)
      (if fmt = 0 ∧ mag = 0 then 0 else withSign w s mag, fl)

end Sys2Proof
end

