-- ==== Sys2Proof/Machine/Sparse.lean ====
section
/-! DEFINITION. Sparse tables in one canonical form: pairs of a key and a value, the keys strictly rising,
no value equal to the default `d` that an unlisted key reads as. Two tables that read alike at every
key are then equal data. -/

namespace Sys2Proof

/-- The value at key `k`, or `d` where nothing is listed. -/
def sget {α : Type} (d : α) : SMap α → Nat → α
  | [], _ => d
  | (j, x) :: t, k => if j = k then x else sget d t k

/-- Lists the pair `(k, x)` at its place, in place of an older pair of key `k`. -/
def sput {α : Type} (k : Nat) (x : α) : SMap α → SMap α
  | [] => [(k, x)]
  | (j, y) :: t =>
    if k < j then (k, x) :: (j, y) :: t
    else if k = j then (k, x) :: t
    else (j, y) :: sput k x t

/-- Takes key `k` out of the list. -/
def sdel {α : Type} (k : Nat) : SMap α → SMap α
  | [] => []
  | (j, y) :: t => if j = k then sdel k t else (j, y) :: sdel k t

/-- Writes `x` at key `k`: the default is not listed. -/
def sset {α : Type} [DecidableEq α] (d : α) (m : SMap α) (k : Nat) (x : α) : SMap α :=
  if x = d then sdel k m else sput k x m

/-- Every key of the table is above `b`, the keys rise strictly, and no value is the default. -/
def swfFrom {α : Type} [DecidableEq α] (d : α) : Option Nat → SMap α → Bool
  | _, [] => true
  | b, (j, x) :: t =>
    (match b with
     | none => true
     | some n => decide (n < j)) && decide (x ≠ d) && swfFrom d (some j) t

/-- The canonical form of a table with default `d`. -/
def swf {α : Type} [DecidableEq α] (d : α) (m : SMap α) : Bool := swfFrom d none m

/-- Writes consecutive values from key `k` on. -/
def ssetList {α : Type} [DecidableEq α] (d : α) (m : SMap α) (k : Nat) : List α → SMap α
  | [] => m
  | x :: t => ssetList d (sset d m k x) (k + 1) t

/-- Reads `n` consecutive values from key `k` on. -/
def sgetList {α : Type} (d : α) (m : SMap α) (k : Nat) : Nat → List α
  | 0 => []
  | n + 1 => sget d m k :: sgetList d m (k + 1) n

/-- Sets the keys of a list to one value. -/
def sfill {α : Type} [DecidableEq α] (d : α) (m : SMap α) (x : α) : List Nat → SMap α
  | [] => m
  | k :: t => sfill d (sset d m k x) x t

/-- Drops every listed key for which `p` holds: those keys read as the default. -/
def sdrop {α : Type} (p : Nat → Bool) (m : SMap α) : SMap α := m.filter fun e => !p e.1

end Sys2Proof
end

