-- ==== Sys2Proof/Machine/State.lean ====
section
/-! DEFINITION. The state of the whole device as plain data, the ways a step can stop, and the state
after reset.

Every piece of state that the spec names has a field here. Sparse tables (`SMap`) read as their
default where nothing is listed. `INVENTORY.md` lists each piece with the rule that names it. -/

namespace Sys2Proof.Machine

/-- Why the machine stops. Only two things stop it: both are safe (the spec's machine never gets
there, so no claim about the device is made from such a state). -/
inductive Fault where
  /-- Raised by the meaning of an encoded instruction when no live split is selected as its issuer
  (`State.cur`). SAFE: the spec's instructions are always issued by a split (R22). -/
  | noIssuer
  deriving DecidableEq, Repr

/-- Why a step has no meaning. -/
inductive Refusal where
  /-- Raised by an arm of `exec` whose instruction has no meaning in the model. SAFE. -/
  | notModelled (mnemonic : String)
  deriving DecidableEq, Repr

/-- The trap causes of Table 21.1. -/
inductive Cause where
  | illop | illopnd | align | sprange | qgone | ldfault | stfault | fetchfault | engarg | badbar
  | shrange | shoverstay | nbrdir | splitesc | splitstate | ncovf | spillovf | pinwrite | poison
  | swtrap
  deriving DecidableEq, Repr

/-- A trap about to be taken or due: its cause and the values of TRAPPC, TADDR and TAUX (R328). -/
structure Trap where
  cause  : Cause
  pc     : DWord
  taddr  : DWord
  taux   : DWord
  deriving DecidableEq, Repr

/-- The mode of an open SPLIT construct (Table 14.4). -/
inductive Mode where
  | real | fallback | inline
  deriving DecidableEq, Repr

/-- One entry of a split's construct stack (Table 14.1). `join` names the join record of a real
construct. -/
structure Construct where
  mode     : Mode
  addr     : DWord
  lf       : DWord
  lj       : Option DWord
  depth    : Nat
  falseArm : Bool
  join     : Nat
  deriving DecidableEq, Repr

/-- A crew's join record (Table 14.1): one per open real construct. `outer` is the record of the enclosing real construct,
`trueSid` the true split (R256). -/
structure JoinRec where
  id       : Nat
  outer    : Option Nat
  members  : BitVec 32
  parentAd : Nat
  trueSid  : Nat
  deriving DecidableEq, Repr

/-- The fallback record of a split (Table 14.1, R255). `fb` is FB, `ra` RA and `rm` RM of the running
arm; the parked arm's fields follow. An arm that has closed more regions than it opened stands below FB, at a depth under 0. -/
structure Fallback where
  fb       : Nat
  ra       : Int
  rm       : BitVec 32
  pm       : BitVec 32
  pa       : Int
  ppc      : DWord
  pwb      : Nat
  pdepth   : Nat
  savedNc  : SMap (BitVec 8)
  pupper   : List Construct
  level    : Nat
  finished : Bool
  count    : Nat
  deriving DecidableEq, Repr

/-- The control state of a split (Table 14.1): saved at trap entry (R329) and held by a mark record
(R348). NC and MARK are keyed by lane; `cb` has one bit a lane. -/
structure Ctl where
  nc    : SMap (BitVec 8)
  cb    : BitVec 32
  mark  : SMap (BitVec 8)
  ad    : Nat
  stack : List Construct
  fb    : Option Fallback
  deriving DecidableEq, Repr

/-- What a trap sets aside while the split runs its handler (R329): the control state, DEPTH, and the count
of identifiers at entry, which tells causes within the handler from earlier ones (R331). -/
structure Handler where
  ctl   : Ctl
  depth : Nat
  since : Nat
  deriving DecidableEq, Repr

/-- The mark record of a split (Table 22.1). `seq` orders marks by the time they were taken (R353). -/
structure MarkRec where
  pc     : DWord
  wb     : Nat
  depth  : Nat
  lpin   : List Nat
  upin   : List Nat
  recipe : DWord
  mask   : BitVec 32
  ctl    : Ctl
  fpmode : BitVec 2
  cpol   : BitVec 8
  seq    : Nat
  deriving DecidableEq, Repr

/-- The address space of an access (R134). -/
inductive Space where
  | global | scratch | squad
  deriving DecidableEq, Repr

/-- An operation of a slice adder or of a reduction (Tables 9.4, 9.7, R129), and the store of an STC (R168). -/
inductive AOp where
  | add | and | or | xor | minS | minU | maxS | maxU | xchg | cas | addF | addD | xchgD | casD | stc
  deriving DecidableEq, Repr

/-- One lane access of an issued store: the lane, its address (a virtual address, a scratchpad offset
or a squad-window address) and its bytes, lowest first. -/
structure LaneStore where
  lane : Nat
  addr : DWord
  data : List Byte
  deriving DecidableEq, Repr

/-- A store instruction in the store path of its split (R334), not yet translated, checked or performed:
`sid` and `anc` are the split that issued it and the earlier splits whose accesses precede it (`Split.anc`), which it keeps through a
merge; `red` holds the operation of a RED, `word` its instruction word (Table 21.2), `uniform` whether it is an
SST, `size` the bytes of one access, `rel` the scope of an STL or of a RED with .REL (R166, R172), `bad` the
lanes of a RED whose operand is poisoned (Table 21.8). -/
structure PStore where
  space   : Space
  lanes   : List LaneStore
  size    : Nat
  red     : Option AOp
  word    : Word
  uniform : Bool
  pc      : DWord
  sid     : Nat
  seq     : Nat
  anc     : List (Nat × Nat)
  hint    : BitVec 2
  rel     : Option Scope
  bad     : List Nat
  deriving DecidableEq, Repr

/-- One lane access of an issued load: the lane, its place (a physical address for the global space, else
an offset in the scratchpad of team `team`), the address that it named, and whether it is done: its data and the poison of its
words. -/
structure LaneLoad where
  lane : Nat
  team : Nat
  addr : Nat
  va   : DWord
  got  : Option (List Byte × Bool)
  deriving DecidableEq, Repr

/-- A load whose data have not all arrived (R53, R160): `uniform` for an SLD to s`dst`, else a lane load
to absolute register `dst` of `regs` registers. `cpol` is CPOL at issue (R151). `acq` is the scope of an LDA; `reserve` marks an
LDR. `anc` names the earlier splits whose accesses precede it (`Split.anc`), `after` is the split's last acquire at device or
system scope when it issued (R223). `fresh` says that the split has issued nothing since (R346). -/
structure PLoad where
  sid     : Nat
  space   : Space
  lanes   : List LaneLoad
  size    : Nat
  uniform : Bool
  dst     : Nat
  regs    : Nat
  pc      : DWord
  seq     : Nat
  cpol    : BitVec 8
  acq     : Option Scope
  reserve : Bool
  anc     : List (Nat × Nat)
  after   : Nat
  fresh   : Bool
  deriving DecidableEq, Repr

/-- What has become of a split parked at BAR.WAIT (R182, R184): nothing yet, a flip has released it, or its object was freed. -/
inductive Wake where
  | parked | flipped | freed
  deriving DecidableEq, Repr

/-- Where a split stands in the scheduler (R269, R270). `barWait` parks at BAR.WAIT on the object of a handle, to return with an acquire
at a scope; `joinWait` parks at a JOIN, of target offset `rel`, that does
not merge yet and `waking` is a merged split that has not yet entered the age order (R273); `stepWait` parks at a STEP;
`nbrWait` waits for neighbours' steps, for the operands (direction, j) of its instruction (R284); `recipeWait` is held out while another split of the crew
runs its recipe (R353). -/
inductive SStatus where
  | ready
  | barWait (handle : DWord) (scope : Scope) (wake : Wake)
  | joinWait (rel : BitVec 16)
  | waking
  | stepWait
  | nbrWait (ops : List (Nat × Nat))
  | recipeWait
  deriving DecidableEq, Repr

/-- A FENCE whose parts are not yet done: the later accesses of its split wait for it (R167, Table 9.3). -/
structure PFence where
  scope : Scope
  sem   : Sem
  seq   : Nat
  deriving DecidableEq, Repr

/-- A live split: one entry of its row's split table, of number `entry` (R23, R253). `sid` names the split within its crew and
is never used again. `anc` lists the splits that it came from or that merged into it, each with the identifier below which
accesses of that split precede its own (R198). `fence` is its FENCE under way, `acqAt` the identifier of its last acquire at
device or system scope (R223). `due` holds the boundary traps of
squad-window stores and shells with the sequence number of their cause, oldest first (R331); a due STFAULT
follows from the store-fault records. `shadow` is the cycle at which a YIELD shadow ends, or 0. `handler` holds the control state and
DEPTH set aside while the split runs its trap handler (R329). `tried` says that its instruction was found unable to issue since
the last change (R270): it is passed over until time has passed. `waits` is the place of memory that its instruction under way waits to
reach, and whether to write it; `muted` says that what it waited for has ended with its route unusable (R309, R310, R320). -/
structure Split where
  sid      : Nat
  entry    : Nat
  anc      : List (Nat × Nat)
  fence    : Option PFence
  acqAt    : Nat
  mask     : BitVec 32
  pc       : DWord
  ad       : Nat
  stack    : List Construct
  fb       : Option Fallback
  handler  : Option Handler
  tcause   : BitVec 16
  trappc   : DWord
  taddr    : DWord
  taux     : DWord
  mark     : MarkRec
  recipe   : Bool
  status   : SStatus
  shadow   : Nat
  stores   : List PStore
  due      : List (Nat × Trap)
  tried    : Bool
  waits    : Option (Nat × Bool)
  muted    : Bool
  deriving DecidableEq, Repr

/-- What a field host holds (R281): its slot and the resident seats (seat numbers k within the crew, rising).
`stepAt` is the cycle in which it last completed a STEP (R288), `issued` whether it has issued since it began (R293). `leaving` is
the seat that the cox pages out as soon as what it waits for is over (R288); `out` says that every seat is to go (R293). -/
structure HostInfo where
  slot    : Nat
  seats   : List Nat
  stepAt  : Option Nat
  issued  : Bool
  leaving : Option Nat
  out     : Bool
  deriving DecidableEq, Repr

/-- The reservation of a lane (R168): the address that LDR named and its physical word. -/
structure Resv where
  lane : Nat
  va   : DWord
  word : Nat
  deriving DecidableEq, Repr

/-- A resident crew or field host (R22, R27, Table 2.3, Table 14.1). `resv` holds the valid reservations
(R168). Lane registers are keyed by
absolute index · 32 + lane. `resident` lists the granules in the register file, `spilled` those that the
spill area has taken (R29). `vpoison` and
`spoison` list poisoned registers (R345). `raised` holds the flags that the crew's last issued instruction raised
(R34). -/
structure Crew where
  cid      : Nat
  lid      : Nat
  team     : Nat
  crewNo   : Nat
  asid     : Nat
  core     : Nat
  row      : Nat
  frame    : Nat
  spillBase : DWord
  spillSize : Nat
  args     : DWord
  vregs    : SMap Word
  sregs    : SMap DWord
  nc       : SMap (BitVec 8)
  cb       : BitVec 32
  marks    : SMap (BitVec 8)
  exited   : BitVec 32
  absent   : BitVec 32
  fpmode   : BitVec 2
  fpflags  : BitVec 5
  raised   : BitVec 5
  cpol     : BitVec 8
  wb       : Nat
  depth    : Nat
  resident : List Nat
  spilled  : List Nat
  resv     : List Resv
  joins    : List JoinRec
  splits   : List Split
  loads    : List PLoad
  host     : Option HostInfo
  vpoison  : List Nat
  spoison  : List Nat
  deriving DecidableEq, Repr

/-- An allocated barrier object (R173): its table entry, owner, scope (`squad`), backing offset and
base counts. The counts of the phase live in the backing word in scratchpad (R175). `far` says that an arrival from the fabric counts
toward the running phase, `farFlip` that one did toward the last: it is a release at system scope (R70, R205). -/
structure BarObj where
  core   : Nat
  idx    : Nat
  lid    : Nat
  team   : Nat
  gen    : Nat
  squad  : Bool
  offset : Nat
  baseA  : Nat
  baseB  : Nat
  far    : Bool
  farFlip : Bool
  deriving DecidableEq, Repr

/-- What pre-emption saves of one crew (Table 22.3): the crew with its registers reduced to the pinned
ones, and its store-fault records and due traps. -/
structure SavedCrew where
  crew    : Crew
  pinnedV : SMap Word
  pinnedS : SMap DWord
  deriving DecidableEq, Repr

/-- A store-fault record (Table 21.2). `held` marks a fault found while the queue was full (R335). -/
structure FaultRec where
  core   : Nat
  cid    : Nat
  sid    : Nat
  va     : DWord
  data0  : DWord
  data1  : DWord
  seq    : Nat
  mask   : BitVec 32
  reason : Nat
  size   : Nat
  lane   : Nat
  word   : Word
  held   : Bool
  lid    : Nat
  deriving DecidableEq, Repr

/-- The life of a team (R24, R68, R352). -/
inductive TeamPhase where
  /-- resident on `core` with its allocation at `base` -/
  | resident
  /-- all its crews have retired; the allocation is kept (HOLD, or a child with DV = 1, R68) -/
  | retiredKept
  /-- pre-empted: crews, scratchpad and barrier entries saved (R352) -/
  | saved (crews : List SavedCrew) (bars : List BarObj) (faults : List FaultRec)
  deriving DecidableEq, Repr

/-- A placed team that is not wholly retired (R22, R135). `scratch` holds its allocation by byte
offset; `spoison` lists poisoned scratchpad words. -/
structure Team where
  lid     : Nat
  tid     : Nat
  core    : Nat
  base    : Nat
  size    : Nat
  scratch : SMap Byte
  spoison : List Nat
  crewsLeft : Nat
  phase   : TeamPhase
  deriving DecidableEq, Repr

/-- The fields of a launch record that LAUNCH keeps (Table 4.1). -/
structure LRec where
  kind : Nat
  notify : Bool
  prio : Nat
  hold : Bool
  fuseL1 : Bool
  cores : Bool
  teams : Nat
  entry : DWord
  args : DWord
  spillBase : DWord
  spillSz : Nat
  frame : Nat
  squad : Nat
  crews : Nat
  scratch : Nat
  shells : Nat
  done : Option Nat
  xext : Nat
  yext : Nat
  pub : BitVec 8
  bx : Nat
  bY : Nat
  seatq : Nat
  backing : DWord
  edgex : Word
  edgey : Word
  dgx : Nat
  dgy : Nat
  devmap : DWord
  deriving DecidableEq, Repr

/-- The state of a launch (R262-R264). -/
inductive LPhase where
  | held (time : DWord)
  | pending
  | placed
  | draining
  deriving DecidableEq, Repr

/-- A grid or field that LAUNCH accepted, or grid 0 (R262, R263). `status` is the physical address of its
STATUS word (none for grid 0). `parent` and `ptid` name the launching team. `nextTeam` is the lowest
team not yet placed, or 1 for a field that has been placed, `retired` the count of retired teams. `dx`, `dy` is the device's place, `peers` what DEVMAP gives: the
endpoint and the partition key of each device of the field (R291).
`cut` says that hosts were ended (R293). `slots` lists the host slots of a placed field with the core and the row
that are reserved for each (R281), `events` those of this cycle's events that the cox has yet to take (R289). `mute` says that the
write of STATUS at retirement has been dropped (R320). `told` lists what the gateway has last told each device of a cell of this part: the
device, the place and 2σ, plus 1 for a cell that has exited (R291). -/
structure Launch where
  lid      : Nat
  asid     : Nat
  gid      : BitVec 32
  nest     : Nat
  record   : LRec
  status   : Option DWord
  parent   : Option Nat
  ptid     : Nat
  phase    : LPhase
  nextTeam : Nat
  retired  : Nat
  dx       : Nat
  dy       : Nat
  peers    : List (Nat × Nat)
  cut      : Bool
  slots    : List (Nat × Nat × Nat)
  events   : List Nat
  mute     : Bool
  told     : List (Nat × Nat × Nat × Nat)
  deriving DecidableEq, Repr

/-- The device's view of one seat of a field (R282, R286, R288): σ of each cell, the two publish buffers
(word j of cell i at key 4j + i), which cells have exited, the header fields of Table 16.6 at the last
boundary, and whether the seat is resident. Its record in memory follows Table 16.6; `kept` is what the device last put in
its register area (absolute register a of cell i at key 4a + i). `bad` lists the poisoned words of the buffers (word k of buffer b
at 32b + k, R345). -/
structure Seat where
  lid      : Nat
  index    : Nat
  sigma    : SMap Nat
  done     : Bool
  rpc      : DWord
  ad       : Nat
  nc       : SMap (BitVec 8)
  cb       : BitVec 4
  flags    : BitVec 5
  buf0     : SMap Word
  buf1     : SMap Word
  exited   : BitVec 4
  resident : Bool
  kept     : SMap Word
  bad      : List Nat
  deriving DecidableEq, Repr

/-- A live context (R70, R307, R308): its descriptor, its grant and the quotas of its context table
entry. `resident` is false while it is switched out (R268), `switching` while it is on its way out, `stopping` while STOP
runs; `since` is the microsecond in which it last came in or went out, or was told to go (R268, R293). -/
structure Context where
  asid     : Nat
  part     : Nat
  trapent  : DWord
  irqaddr  : DWord
  irqkey   : BitVec 16
  rarrive  : DWord
  shbase   : Nat
  shcount  : Nat
  seats    : Nat
  l2rate   : Nat
  l2ceil   : Nat
  nextGid  : BitVec 32
  resident : Bool
  switching : Bool
  stopping : Bool
  since    : Nat
  deriving DecidableEq, Repr

/-- The register block of a partition and its translation registers (Tables 19.2 and 21.7). -/
structure Partition where
  en      : Bool
  size    : Nat
  base    : Nat
  busy    : Bool
  result  : BitVec 8
  pendOff : Bool
  psched  : BitVec 32
  eng     : SMap (BitVec 24)
  ctxtab  : DWord
  roottab : DWord
  sdaddr  : DWord
  sdcmd   : Word
  sdbusy  : Bool
  sdres   : Nat
  sdseq   : Nat
  deriving DecidableEq, Repr

/-- BAYGEN (Table 19.3). -/
structure Bay where
  gen     : BitVec 4
  bumps   : BitVec 4
  scrub   : Bool
  retired : Bool
  deriving DecidableEq, Repr

/-- A command of the matrix engine's queue with its operands as read at issue (R118, R121, R122): the bytes of A, of B and of
the format block, the headers of each row of A and column of B, and the rows and columns that hold poison; a tile image
with its poisoned words; the control, destination, scale and header address of ACC.ST; the operation of ACC.RED
with the physical addresses of its rows. -/
inductive MatOp where
  | mma (fb a b : List Byte) (hdrA hdrB : List Half) (badA badB : List Nat)
  | zero
  | ld (image : List Byte) (bad : List Nat)
  | st (ctl : Nat) (dst : Nat) (scale : Word) (hdr : Nat)
  | red (op : AOp) (rows : List Nat)
  deriving DecidableEq, Repr

/-- A queued matrix command: its issuer, tile number and completion handle, and whether its engine cycles are over
(ACC.ST and ACC.RED complete later, Table 7.1). `spans` are the scratchpad ranges (offset, length) that are pending for
an ACC.ST; `reads` those that the engine has yet to read, pending for an earlier command when the instruction issued (R121). -/
structure MatCmd where
  core   : Nat
  asid   : Nat
  lid    : Nat
  team   : Nat
  tile   : Nat
  op     : MatOp
  handle : Nat
  ran    : Bool
  spans  : List (Nat × Nat)
  reads  : List (Nat × Nat)
  hint   : BitVec 2
  seq    : Nat
  deriving DecidableEq, Repr

/-- A bound accumulator tile (R117): context, number, core, owner team and its 4,096 words (row·64 +
column), with its poisoned words. -/
structure Tile where
  core   : Nat
  asid   : Nat
  num    : Nat
  lid    : Nat
  team   : Nat
  words  : SMap Word
  poison : List Nat
  deriving DecidableEq, Repr

/-- One destination word of a copy command: the place, the place of its source word, and the data read at issue. `late` says that the
source was pending for an earlier command then, so that the engine reads it once that one has written it (R187). -/
structure CopyPiece where
  sspace : Space
  steam : Nat
  saddr : Nat
  late  : Bool
  space : Space
  team  : Nat
  addr  : Nat
  data  : List Byte
  poison : Bool
  deriving DecidableEq, Repr

/-- Where a copy command stands (R185, R194). -/
inductive CPhase where
  | queued
  | timed (time : DWord)
  | running (die engine : Nat)
  deriving DecidableEq, Repr

/-- A copy command with its source as at issue (R187): `red` is the operation of CP.RED; `pieces` are the words not yet written;
`read` and `wrote` list the source and destination lines that have spent their tokens (R309). `registered` says that the home slices
have acknowledged the registration of its words of memory, an event of split `sid` (R187, R210). -/
structure CopyCmd where
  core   : Nat
  asid   : Nat
  lid    : Nat
  team   : Nat
  cid    : Nat
  sid    : Nat
  handle : Nat
  bytes  : Nat
  red    : Option AOp
  pieces : List CopyPiece
  read   : List Nat
  wrote  : List Nat
  registered : Bool
  phase  : CPhase
  hint   : BitVec 2
  seq    : Nat
  deriving DecidableEq, Repr

/-- What a write of a backing word does to the object besides (R177, R178, R220): BAR.ALLOC makes the entry valid for every
split, BAR.INIT sets its scope and its base counts. -/
inductive BarWrite where
  | alloc (core idx : Nat)
  | init (core idx gen : Nat) (squad : Bool) (baseA baseB : Nat)
  deriving DecidableEq, Repr

/-- A piece of scratchpad writes on its way to its bank (R212), held while a word of it is pending or engine-read (R121, R187):
`team` of launch `lid` owns the scratchpad, `bytes` are offsets and bytes in the order of the lanes; the other fields name the
writer, as in `RegReq`. `bar` marks the write of a backing word. -/
structure HeldWrite where
  id    : Nat
  lid   : Nat
  team  : Nat
  bytes : List (Nat × Byte)
  bar   : Option BarWrite
  core  : Nat
  asid  : Nat
  cid   : Nat
  sid   : Nat
  seq   : Nat
  anc   : List (Nat × Nat)
  deriving DecidableEq, Repr

/-- An operation queued at a shell station (R229-R236). -/
inductive ShOp where
  | getW | getP (offset : Nat)
  | rmw (op : Nat) (x y : Word)
  | land
  | float
  | put (words : List (Nat × Word))
  deriving DecidableEq, Repr

/-- A queued shell operation: station, issuer, absolute shell, word, semantic and destination. `seq` and `anc` give its place in
program order, `cycle` is the cycle of its issue (R233). -/
structure ShReq where
  core : Nat
  cid  : Nat
  sid  : Nat
  asid : Nat
  lid  : Nat
  team : Nat
  shell : Nat
  word : Nat
  op   : ShOp
  acq  : Bool
  rel  : Bool
  dst  : Nat
  seq  : Nat
  anc  : List (Nat × Nat)
  cycle : Nat
  deriving DecidableEq, Repr

/-- A landed shell (R235, Table 13.3): holder, the original and the working copy with their poisoned words, the cycle
and the sequence number of the landing, and whether the hold is lost and waits for the next pass. -/
structure Landing where
  shell    : Nat
  core     : Nat
  cid      : Nat
  sid      : Nat
  asid     : Nat
  original : List Word
  working  : List Word
  badOrig  : List Nat
  badWork  : List Nat
  since    : Nat
  seq      : Nat
  lost     : Bool
  deriving DecidableEq, Repr

/-- The state of a word in an L1 (R140). -/
inductive L1St where
  | clean | ownedClean | ownedDirty
  deriving DecidableEq, Repr

/-- A 4-byte word held by a core's L1, by word address (physical address / 4); `bad` says that a clean copy is poisoned (R345). -/
structure L1Word where
  core : Nat
  addr : Nat
  st   : L1St
  data : List Byte
  bad  : Bool
  deriving DecidableEq, Repr

/-- A store piece on its way to its home slice (R144, R212): translated, not yet registered. `bytes` are
the physical addresses and bytes in the order of the lanes; `id` names the piece, `seq` and `anc` its place in program order.
`inL1` says that the core's L1 has performed it (R140, R209); `rel` is the scope of an STL. -/
structure RegReq where
  id    : Nat
  core  : Nat
  cid   : Nat
  sid   : Nat
  asid  : Nat
  line  : Nat
  bytes : List (Nat × Byte)
  hint  : BitVec 2
  seq   : Nat
  anc   : List (Nat × Nat)
  inL1  : Bool
  rel   : Option Scope
  deriving DecidableEq, Repr

/-- Where an atomic's results go: the absolute register, the group size G and whether it is the .SEQ form
(R170, R171). -/
structure AddRet where
  lane  : Nat
  dst   : Nat
  group : Nat
  wseq  : Bool
  deriving DecidableEq, Repr

/-- An operation on its way to a slice adder (R152): one lane of an ATOM or RED, or one addition of a
CP.RED or ACC.RED (`job` is then the sequence number of its command). `x` is the operand, `cmp` the
compare value or, of an STC, the address that the lane named, `wide` an 8-byte operation, `poison` a poisoned operand, `acq` the scope of an acquiring
ATOM, `rel` that of a releasing ATOM or RED, `paid` whether its request has spent its token (R309). `id` names the operation, `seq` and `anc` its place in program order. -/
structure AddReq where
  id     : Nat
  core   : Nat
  cid    : Nat
  sid    : Nat
  asid   : Nat
  addr   : Nat
  op     : AOp
  wide   : Bool
  x      : DWord
  cmp    : DWord
  poison : Bool
  ret    : Option AddRet
  acq    : Option Scope
  job    : Option Nat
  hint   : BitVec 2
  seq    : Nat
  anc    : List (Nat × Nat)
  rel    : Option Scope
  paid   : Bool
  deriving DecidableEq, Repr

/-- State of a line at a slice that is home to it (Table 8.1): `cls` CLASS, `v` and `d` one bit a sector, `wm` one bit a
word; `stamp` orders accesses for replacement. OWNER and WSEQ have tables of their own; REG and MIRRORS
follow from the L1 words and the mirrors. -/
structure L2Line where
  slice   : Nat
  line    : Nat
  cls     : Nat
  v       : BitVec 4
  d       : BitVec 4
  wm      : BitVec 64
  stamp   : Nat
  deriving DecidableEq, Repr

/-- A read-only mirror of a line in a slice of another sector (R147). -/
structure Mirror where
  slice : Nat
  line  : Nat
  slot  : Nat
  deriving DecidableEq, Repr

/-- The classes of a slice's miss table (R148). -/
inductive MissClass where
  | writeBack | recall | general
  deriving DecidableEq, Repr

/-- An entry of a slice's miss table or a record of its spill queue (R148, R149). -/
structure Miss where
  slice : Nat
  cls   : MissClass
  line  : Nat
  hint  : Nat
  deriving DecidableEq, Repr

/-- A copy of a code word, by physical address, that a core's instruction fetch has taken for a launch (R57); `off` says that the next
fetch does not read it. -/
structure CodeWord where
  lid  : Nat
  core : Nat
  addr : Nat
  data : List Byte
  off  : Bool
  deriving DecidableEq, Repr

/-- A TLB entry: a valid leaf translation (R342). `page` is the virtual page base, `bits` its size. -/
structure TlbEntry where
  core : Nat
  asid : Nat
  page : Nat
  bits : Nat
  pa   : Nat
  w    : Bool
  x    : Bool
  deriving DecidableEq, Repr

/-- A fabric write that the device posts: an interrupt (R71), a notice (R325) or a record of its gateway (R291); `bad` lists the poisoned
words of its data (R345). -/
structure OutMsg where
  addr : DWord
  key  : BitVec 16
  data : List Byte
  bad  : List Nat
  deriving DecidableEq, Repr

/-- A remote arrival held at the ingress (R319). -/
structure HeldArrival where
  asid  : Nat
  value : DWord
  src   : Nat
  key   : Nat
  count : Nat
  deriving DecidableEq, Repr

/-- A notice record (Table 20.6). -/
structure Notice where
  kind : Nat
  port : Nat
  seq  : Nat
  ep   : Nat
  time : DWord
  live : BitVec 72
  deriving DecidableEq, Repr

/-- A strict message that the device sends, from its posting until it is acknowledged (R317, R321): destination, key and port
(none while its routing entry is unusable), its place in the order sent, whether it has left its port, whether its path failed,
and the write. -/
structure StrictMsg where
  dst  : Nat
  key  : Nat
  port : Option Nat
  seq  : Nat
  sent : Bool
  lost : Bool
  msg  : OutMsg
  deriving DecidableEq, Repr

/-- What a flit of another device asks besides a plain read or write of 8 bytes (R316, R369): to own a line, a read or write of 4 bytes,
or an atomic or a reduction. -/
inductive RemoteAsk where
  | own
  | half (write : Bool)
  | atomic (op : AOp) (wide : Bool) (cmp : DWord)
  deriving DecidableEq, Repr

/-- A flit at a port's ingress (R310, R322): its source, key, key-table entry, offset and data, the copy of the key table that admitted
it with the partition of its entry and the local address that the export table gave it on arrival (R324), and whether it holds a slot
of the shared pool. -/
structure Ingress where
  port   : Nat
  src    : Nat
  key    : Nat
  entry  : Nat
  copy   : Bool
  part   : Nat
  offset : Nat
  write  : Bool
  data   : DWord
  ask    : Option RemoteAsk
  place  : Option Nat
  pool   : Bool
  deriving DecidableEq, Repr

/-- The answer to a fabric read of exported memory (R316): 8 bytes, or poison. -/
structure Answer where
  src    : Nat
  key    : Nat
  offset : Nat
  data   : DWord
  poison : Bool
  deriving DecidableEq, Repr

/-- What the fabric gateway knows of a cell of another device's part (R291); word j of a buffer stands at key 4j, and `bad` lists the
poisoned ones (that of buffer b at 32b + 4j). -/
structure RemoteCell where
  lid    : Nat
  x      : Nat
  y      : Nat
  sigma  : Nat
  exited : Bool
  buf0   : SMap Word
  buf1   : SMap Word
  bad    : List Nat
  deriving DecidableEq, Repr

/-- What moves next: an event of the device or of an outside party, the next issue, the next pick of a row, a split whose
instruction is not ready for a result's latency (Table 6.1), the loss of a line of an L1, a store piece that the L1 performs, a line
of a copy that lands, the registration of a copy that its home slices acknowledge (R210), a load of a split that goes on, a code word of
which instruction fetch takes a copy, or of which the next fetch reads another copy or the newest word (R57), a write-back that is complete (R148), what the gateway hears of a remote cell or
tells of its own (R291), a strict message that is acknowledged (R321), a write or, with no byte, an invalidation that the directory
home of fabric memory makes for another agent (R315), and another device that asks for exported memory or gives up its copy of a
line (R316). The tape is the input that settles every order the spec leaves open. -/
inductive Turn where
  | event (i : Instr)
  | issue
  | issueRow (core row : Nat)
  | evict (core line : Nat)
  | perform (id : Nat)
  | land (seq line : Nat)
  | registerCopy (seq : Nat)
  | load (cid sid seq : Nat)
  | codeFill (lid core pa : Nat)
  | codeUse (lid core pa k : Nat)
  | wroteBack (slice line : Nat)
  | gateway (src key : Nat) (c : RemoteCell)
  | serveCell (lid x y peer : Nat)
  | late (cid sid : Nat)
  | ack (dst key : Nat)
  | foreign (pa : Nat) (bytes : List Byte)
  | flit (port src key offset : Nat) (ask : RemoteAsk) (data : DWord)
  | serve (src key offset : Nat)
  | holderGone (line src : Nat)
  deriving DecidableEq, Repr

/-- A core port that a pick can claim (R272, Table 15.1). -/
inductive Port where
  | matrix | copy | shell
  deriving DecidableEq, Repr

/-- What a pick takes of its row and its core (Table 15.1): whether its instruction is of the lane ISA, the lanes of its split,
the banks that it reads, one entry a read, its port, and whether it needs the transcendental unit (R95). -/
structure Needs where
  lane  : Bool
  mask  : BitVec 32
  banks : List Nat
  port  : Option Port
  sfu   : Bool
  deriving DecidableEq, Repr

/-- A pick of the present cycle (R271), with what it takes and with the uniform registers, FPMODE, FPFLAGS and CPOL that its crew
had before it (R34, R53). -/
structure Pick where
  core    : Nat
  row     : Nat
  cid     : Nat
  sid     : Nat
  needs   : Needs
  sregs   : SMap DWord
  spoison : List Nat
  fpmode  : BitVec 2
  fpflags : BitVec 5
  cpol    : BitVec 8
  deriving DecidableEq, Repr

/-- The fabric's registers and tables (Tables 20.2 to 20.6, R310, R319 to R326). Table entries are raw
words. `kbktNext` holds written KBKT values until the next tick. `levels` is keyed port·64 + entry.
`performed` counts the performed writes of a source and key (source·65,536 + key). `syncAt` is the microsecond of the last successful
exchange with the time master, `slew` what FTIME has yet to run on or back to reach the master's time, in 1/3,000,000 ns (R326). `holders` pairs an exported line with an
endpoint that holds a copy (R316). -/
structure Fabric where
  fctl      : Word
  keytab0   : SMap DWord
  keytab1   : SMap DWord
  exptab    : SMap (BitVec 128)
  route0    : SMap (BitVec 128)
  route1    : SMap (BitVec 128)
  busy      : Bool
  kact      : Bool
  ract      : Bool
  swapKey   : Bool
  swapRoute : Bool
  naddr     : DWord
  nctl      : Word
  nhead     : BitVec 6
  nseq      : Half
  nring     : List Notice
  unsent    : List Notice
  ftsrc     : Word
  lock      : Bool
  ofs       : Half
  everLocked : Bool
  syncAt    : Nat
  slew      : Int
  portEn    : BitVec 72
  portLive  : BitVec 72
  portFail  : BitVec 72
  kdrop     : SMap Half
  kbkt      : SMap DWord
  kbktNext  : SMap DWord
  levels    : SMap Nat
  slots     : List Ingress
  waiting   : List Ingress
  strict    : List StrictMsg
  performed : SMap Word
  arrivals  : List HeldArrival
  holders   : List (Nat × Nat)
  posted    : List OutMsg
  answers   : List Answer
  deriving DecidableEq, Repr

/-- The service registers (Table 26.2, R367 to R372). `fenced` lists fenced cores; `spares` counts
the free spares of a die; `retCore` is the core that the last CORERET named, whose end clears BUSY. -/
structure Service where
  replace  : Bool
  degraded : Bool
  throt    : Bool
  hot      : Bool
  bootok   : Bool
  spares   : SMap Nat
  fenced   : List Nat
  retiring : List Nat
  pwrcap   : DWord
  pwrnow   : Half
  tcool    : Word
  eol      : Word
  mgmtKey  : Half
  mgmtEp   : BitVec 14
  cecnt    : SMap Word
  uecnt    : Word
  retBusy  : Bool
  retCore  : Nat
  retRes   : BitVec 8
  nonce    : SMap Byte
  attBusy  : Bool
  attValid : Bool
  meas0    : BitVec 512
  meas1    : BitVec 512
  quote    : SMap Byte
  deriving DecidableEq, Repr

/-- The state of the device. `ftfrac` is the fraction of a nanosecond that FTIME has run on, in 1/3,000,000 (R326). `picks`, `woke`,
`entered`, `passed` and `arrived` tell what has taken place in the present cycle: the picks (R271), the splits woken and those that
have entered the age order anew (R269), the words on
which a station has operated (core, shell, word, R233) and the uniform registers that have arrived (crew, register, identifier,
R53); `wfill` lists the words written at a slice while their line is being filled (slice, word, R144); `sfu` is the cycle in which a row's transcendental unit is free, at 4·core + row (R95). The model's own fields are `cur` (the
split whose instruction runs), `tape`, `nextId` (the next fresh identifier), `free` (the count of free values used) and `ticks` (the count of the
bucket ticks of a slice, or of a port at 288 + port, one a microsecond). -/
structure State where
  cycle    : Nat
  ftime    : DWord
  ftfrac   : Nat
  cur      : Option (Nat × Nat)
  picks    : List Pick
  woke     : List (Nat × Nat)
  entered  : List (Nat × Nat)
  passed   : List (Nat × Nat × Nat)
  arrived  : List (Nat × Nat × Nat)
  sfu      : SMap Nat
  tape     : List Turn
  nextId   : Nat
  free     : Nat
  age      : List (Nat × Nat)
  crews    : List Crew
  teams    : List Team
  launches : List Launch
  seats    : List Seat
  remote   : List RemoteCell
  contexts : List Context
  parts    : List Partition
  bays     : List Bay
  bars     : List BarObj
  barGen   : SMap Nat
  faultq   : List FaultRec
  mats     : List MatCmd
  tiles    : List Tile
  copies   : List CopyCmd
  held     : List HeldWrite
  shells   : SMap Word
  shpoison : List Nat
  cooling  : List (Nat × Nat)
  shreqs   : List ShReq
  landings : List Landing
  mem      : List Host.Cell
  mpoison  : List Nat
  wseq     : SMap Half
  owner    : SMap Nat
  l1       : List L1Word
  fused    : List Nat
  regs     : List RegReq
  adds     : List AddReq
  acks     : List (Nat × Nat)
  l2       : List L2Line
  mirrors  : List Mirror
  misses   : List Miss
  spillq   : List Miss
  wfill    : List (Nat × Nat)
  icache   : List CodeWord
  levels   : SMap Nat
  ticks    : SMap Nat
  tlb      : List TlbEntry
  fab      : Fabric
  svc      : Service
  deriving DecidableEq, Repr

/-- A partition's registers after reset (Tables 19.2 and 21.7): PSCHED is 4, all others 0. -/
def Partition.reset : Partition :=
  { en := false, size := 0, base := 0, busy := false, result := 0, pendOff := false, psched := 4,
    eng := [], ctxtab := 0, roottab := 0, sdaddr := 0, sdcmd := 0, sdbusy := false, sdres := 0, sdseq := 0 }

/-- BAYGEN after reset (Table 19.3). -/
def Bay.reset : Bay := { gen := 0, bumps := 0, scrub := false, retired := false }

/-- The fabric registers after reset (Table 20.5): every port enabled and none live, all tables 0. -/
def Fabric.reset : Fabric :=
  { fctl := 0, keytab0 := [], keytab1 := [], exptab := [], route0 := [], route1 := [], busy := false,
    kact := false, ract := false, swapKey := false, swapRoute := false, naddr := 0, nctl := 0, nhead := 0,
    nseq := 0, nring := [], unsent := [], ftsrc := 0, lock := false, ofs := 0, everLocked := false, syncAt := 0,
    slew := 0,
    portEn := BitVec.allOnes 72, portLive := 0, portFail := 0, kdrop := [], kbkt := [], kbktNext := [],
    levels := [], slots := [], waiting := [], strict := [], performed := [], arrivals := [], holders := [],
    posted := [], answers := [] }

/-- The service registers after reset (Table 26.2): PWRCAP is 3,000, all others 0. -/
def Service.reset : Service :=
  { replace := false, degraded := false, throt := false, hot := false, bootok := false, spares := [],
    fenced := [], retiring := [], pwrcap := 3000, pwrnow := 0, tcool := 0, eol := 0, mgmtKey := 0, mgmtEp := 0,
    cecnt := [], uecnt := 0, retBusy := false, retCore := 0, retRes := 0, nonce := [], attBusy := false,
    attValid := false, meas0 := 0, meas1 := 0, quote := [] }

/-- The device right after reset: no partition, context, launch or crew; every register at the value of
its table; nothing listed in memory, which reads as 0 (R305, log entry 1). -/
def State.reset : State :=
  { cycle := 0, ftime := 0, ftfrac := 0, cur := none, picks := [], woke := [], entered := []
    passed := [], arrived := [], sfu := []
    tape := [], nextId := 0, free := 0, age := [],
    crews := [], teams := [], launches := [], seats := [], remote := [], contexts := [],
    parts := List.replicate 24 Partition.reset, bays := List.replicate 24 Bay.reset,
    bars := [], barGen := [], faultq := [], mats := [], tiles := [], copies := [], held := [],
    shells := [], shpoison := [], cooling := [], shreqs := [], landings := [], mem := [], mpoison := [], wseq := [],
    owner := [], l1 := [], fused := [], regs := [], adds := [], acks := [], l2 := [], mirrors := [],
    misses := [], spillq := [], wfill := [], icache := [], levels := [], ticks := [], tlb := [], fab := Fabric.reset,
    svc := Service.reset }

end Sys2Proof.Machine
end

