-- ==== Sys2Proof/Machine/Memory.lean ====
section
/-! DEFINITION. Physical memory, the physical address map and the translation of virtual addresses
(R134, R153, R305, R340 to R343).

`State.mem` holds the latest value of every byte in its coherence order (R200). A byte that is not listed
reads as 0 (log entry 1). -/

namespace Sys2Proof.Machine

/-- The number that bytes stand for, lowest address first (R89). -/
def leNat : List Byte → Nat
  | [] => 0
  | b :: t => b.toNat + 256 * leNat t

/-- The `n` bytes of a number, lowest address first (R89). -/
def leBytes : Nat → Nat → List Byte
  | 0, _ => []
  | n + 1, x => BitVec.ofNat 8 x :: leBytes n (x / 256)

/-- The byte at a physical address. -/
def State.readByte (s : State) (pa : Nat) : Byte := sget 0 s.mem pa

/-- `n` bytes from a physical address up. -/
def State.readBytes (s : State) (pa n : Nat) : List Byte := sgetList 0 s.mem pa n

/-- The number in `n` bytes at a physical address, little-endian. -/
def State.readNat (s : State) (pa n : Nat) : Nat := leNat (s.readBytes pa n)

/-- Whether one of the words that `n` bytes touch is poisoned (R345). -/
def State.poisoned (s : State) (pa n : Nat) : Bool :=
  s.mpoison.any fun w => decide (pa / 4 ≤ w) && decide (w ≤ (pa + n - 1) / 4)

/-- Writes one byte of physical memory. -/
def State.writeByte (s : State) (pa : Nat) (b : Byte) : State := { s with mem := sset 0 s.mem pa b }

/-- Writes bytes from a physical address up. -/
def State.writeBytes (s : State) (pa : Nat) (bs : List Byte) : State :=
  { s with mem := ssetList 0 s.mem pa bs }

/-- Writes listed pairs of a physical address and a byte, in their order. -/
def State.writePairs (s : State) (ps : List (Nat × Byte)) : State :=
  { s with mem := ps.foldl (fun m p => sset 0 m p.1 p.2) s.mem }

/-- The canonical form of memory: addresses strictly rising, no byte listed that is 0. -/
def State.memWf (s : State) : Bool := swf 0 s.mem

/-- A write of the whole of a word takes its poison away (Table 21.8). -/
def State.unpoison (s : State) (pa n : Nat) : State :=
  { s with mpoison := s.mpoison.filter fun w => !(decide (pa ≤ 4 * w) && decide (4 * w + 4 ≤ pa + n)) }

/-- Marks the words of a range poisoned. -/
def State.poison (s : State) (pa n : Nat) : State :=
  { s with mpoison := s.mpoison ++
      ((List.range ((n + 3) / 4)).map fun k => pa / 4 + k).filter fun w => !s.mpoison.contains w }

/-- Whether a physical address lies in device memory (Table 8.4). -/
def inDevice (pa : Nat) : Bool := decide (pa < 0xC000000000)

/-- Whether a physical address lies in fabric memory (Table 8.4). -/
def inFabric (pa : Nat) : Bool := decide (0x8000000000000 ≤ pa) && decide (pa < 0x10000000000000)

/-- The bay that holds a device-memory address (R153). -/
def bayOf (pa : Nat) : Nat := pa / 0x800000000

/-- Whether a device-memory address lies in the spill queues of its bay: the top 768 KiB (R153). -/
def inSpillQueue (pa : Nat) : Bool := decide (0x800000000 - 0xC0000 ≤ pa % 0x800000000)

/-- The bays of a shape code (Table 19.1). -/
def shapeBays : Nat → Nat
  | 0 => 1
  | 1 => 2
  | 2 => 6
  | 3 => 12
  | _ => 24

/-- Whether a bay belongs to a partition (R302). -/
def Partition.hasBay (p : Partition) (b : Nat) : Bool :=
  p.en && decide (p.base ≤ b) && decide (b < p.base + shapeBays p.size)

/-- The registers of partition `n`. -/
def State.part (s : State) (n : Nat) : Partition := s.parts.getD n Partition.reset

/-- The context of an ASID, if it is live. -/
def State.context? (s : State) (asid : Nat) : Option Context := s.contexts.find? (·.asid == asid)

/-- The partition number of an ASID; 24, which names none, for a dead one. -/
def State.partOf (s : State) (asid : Nat) : Nat :=
  match s.context? asid with
  | some c => c.part
  | none => 24

/-- Why an access does not translate (Table 21.4). -/
inductive Reason where
  | notmap | write | exec | noncanon | badpa | badpte | walkpoison
  deriving DecidableEq, Repr

/-- The code of a reason (Table 21.4). -/
def Reason.code : Reason → Nat
  | .notmap => 1 | .write => 2 | .exec => 3 | .noncanon => 4 | .badpa => 5 | .badpte => 6
  | .walkpoison => 7

/-- What an access needs of its page: any valid leaf, the W bit or the X bit (Table 21.6). -/
inductive Need where
  | read | write | exec
  deriving DecidableEq, Repr

/-- A valid leaf: the page's physical address, the number of bits below the page, and W and X. -/
structure Leaf where
  pa   : Nat
  bits : Nat
  w    : Bool
  x    : Bool
  deriving DecidableEq, Repr

/-- Whether a translated access may reach a physical address: device memory of the partition's bays outside
the spill queues, or fabric memory (R153, R154, reason BADPA). -/
def paReachable (p : Partition) (pa : Nat) : Bool :=
  if inDevice pa then p.hasBay (bayOf pa) && !inSpillQueue pa else inFabric pa

/-- The levels of the walk below the root (Table 21.5): the bit at which the index starts, its width, and
whether a leaf may and must stand there. -/
def walkLevels : List (Nat × Nat × Bool × Bool) :=
  [(48, 9, false, false), (39, 9, false, false), (30, 9, true, false), (21, 9, true, false),
   (16, 5, true, true)]

/-- The walk from a table on (R340, R341): each entry in turn gives WALKPOISON, NOTMAP or BADPTE, a leaf,
or the next table. -/
def walkFrom (s : State) (p : Partition) (va : Nat) : List (Nat × Nat × Bool × Bool) → Nat →
    Except Reason Leaf
  | [], _ => .error .badpte
  | (lo, width, leafOk, leafMust) :: rest, table =>
    if !(inDevice table && p.hasBay (bayOf table)) then .error .badpte
    else
      let pa := table + 8 * (va / 2 ^ lo % 2 ^ width)
      if s.poisoned pa 8 then .error .walkpoison
      else
        let e := s.readNat pa 8
        let leaf := e.testBit 1
        let addr := e / 256 % 2 ^ 44 * 256
        if !e.testBit 0 then .error .notmap
        else if e / 2 ^ 52 != 0 || e / 16 % 16 != 0 then .error .badpte
        else if leaf then
          if !leafOk || addr % 2 ^ lo != 0 then .error .badpte
          else .ok ⟨addr, lo, e.testBit 2, e.testBit 3⟩
        else if leafMust || e.testBit 2 || e.testBit 3 then .error .badpte
        else if lo != 21 && addr % 4096 != 0 then .error .badpte
        else walkFrom s p va rest addr

/-- The walk of a virtual address from the root entry of its ASID (R341). -/
def walk (s : State) (asid va : Nat) : Except Reason Leaf :=
  let p := s.part (s.partOf asid)
  let pa := p.roottab.toNat + 8 * asid
  if !(inDevice pa && p.hasBay (bayOf pa)) then .error .badpte
  else if s.poisoned pa 8 then .error .walkpoison
  else
    let e := s.readNat pa 8
    if !e.testBit 0 then .error .notmap
    else if e / 2 % 2 ^ 11 != 0 || e / 2 ^ 52 != 0 then .error .badpte
    else walkFrom s p va walkLevels (e / 4096 % 2 ^ 40 * 4096)

/-- The TLB entry of a core that holds the translation of an address (R342). -/
def State.tlbHit (s : State) (core asid va : Nat) : Option TlbEntry :=
  s.tlb.find? fun e => e.core == core && e.asid == asid && e.page == va / 2 ^ e.bits * 2 ^ e.bits

/-- The leaf of an address: from the core's TLB where it holds one, else from a walk (R342). -/
def State.leafOf (s : State) (core asid va : Nat) : Except Reason Leaf :=
  match s.tlbHit core asid va with
  | some e => .ok ⟨e.pa, e.bits, e.w, e.x⟩
  | none => walk s asid va

/-- Whether bits 63:57 of a virtual address equal bit 56 (R340). -/
def canonical (va : DWord) : Bool :=
  let top := va.toNat / 2 ^ 56
  top == 0 || top == 255

/-- The physical address of a virtual address, or the first reason in the order of R340. -/
def State.translate (s : State) (core asid : Nat) (va : DWord) (need : Need) : Except Reason Nat :=
  if !canonical va then .error .noncanon
  else
    match s.leafOf core asid va.toNat with
    | .error r => .error r
    | .ok l =>
      let pa := l.pa + va.toNat % 2 ^ l.bits
      if !paReachable (s.part (s.partOf asid)) pa then .error .badpa
      else
        match need with
        | .read => .ok pa
        | .write => if l.w then .ok pa else .error .write
        | .exec => if l.x then .ok pa else .error .exec

/-- The TLBs after an access of a core: a valid leaf that they did not hold enters, and the oldest entry of
the core leaves a full TLB of 1,024 (R342). -/
def State.tlbFill (s : State) (core asid : Nat) (va : DWord) : State :=
  match s.tlbHit core asid va.toNat with
  | some _ => s
  | none =>
    if !canonical va then s
    else
      match walk s asid va.toNat with
      | .error _ => s
      | .ok l =>
        let mine := s.tlb.filter (·.core == core)
        let kept := if mine.length < 1024 then s.tlb else
          match mine with
          | [] => s.tlb
          | e :: _ => s.tlb.erase e
        { s with tlb := kept ++
            [⟨core, asid, va.toNat / 2 ^ l.bits * 2 ^ l.bits, l.bits, l.pa, l.w, l.x⟩] }

/-- The line of a physical address (R143). -/
def lineOf (pa : Nat) : Nat := pa / 256

/-- The sector of a physical address: a quarter of a line (Table 8.1). -/
def sectorOf (pa : Nat) : Nat := pa / 64

/-- The home slice of an address: slice (PA >> 8) mod 12 of its bay, or of the core's own bay for fabric
memory (R143). -/
def homeSlice (coreBay pa : Nat) : Nat :=
  12 * (if inDevice pa then bayOf pa else coreBay) + pa / 256 % 12

/-- The bay of a core: die-local column and row of its enabled-core index (R302, Table 16.4). -/
def bayOfCore (core : Nat) : Nat :=
  let i := core % 72
  6 * (core / 72) + 2 * (i / 8 / 3) + i % 8 / 4

/-- The owner of no sector (Table 8.1). -/
def noOwner : Nat := 0x3FF

/-- The owner of a sector (Table 8.1). -/
def State.ownerOf (s : State) (sector : Nat) : Nat := sget noOwner s.owner sector

/-- Advances WSEQ of a line by one event (R145). -/
def State.bumpWseq (s : State) (line : Nat) : State :=
  { s with wseq := sset 0 s.wseq line (sget 0 s.wseq line + 1) }

end Sys2Proof.Machine
end

