-- ==== Sys2Proof/Machine/Cells.lean ====
section
/-! DEFINITION. The geometry of the core array and of fields: where cores, cells, seats and hosts stand, and
what a neighbour operand reads (R279 to R286). -/

namespace Sys2Proof.Machine

/-- Width and height of a partition's rectangle of the core array, by shape code (Table 19.1). -/
def shapeRect : Nat → Nat × Nat
  | 0 => (4, 3)
  | 1 => (8, 3)
  | 2 => (8, 9)
  | 3 => (16, 9)
  | _ => (16, 18)

/-- The core at a place of the logical array (Table 16.4). -/
def coreAt (x y : Nat) : Nat := 72 * (x / 8 + 2 * (y / 9)) + 8 * (y % 9) + x % 8

/-- The core at a place of a partition's rectangle. -/
def Partition.coreAt (p : Partition) (x y : Nat) : Nat :=
  let b := p.base
  Machine.coreAt (8 * (b / 6 % 2) + 4 * (b % 2) + x) (9 * (b / 12) + 3 * (b % 6 / 2) + y)

/-- The core at a row-major position of a partition's rectangle (R281). -/
def Partition.coreNo (p : Partition) (n : Nat) : Nat :=
  p.coreAt (n % (shapeRect p.size).1) (n / (shapeRect p.size).1)

/-- The cores of a partition, in row-major order. -/
def Partition.cores (p : Partition) : List Nat :=
  (List.range ((shapeRect p.size).1 * (shapeRect p.size).2)).map p.coreNo

/-- The cluster of a core: four cores of one row of the array (Table 16.4). -/
def clusterOf (core : Nat) : Nat := core / 4

/-- Whether a launch is a field (Table 4.1). -/
def Launch.isField (l : Launch) : Bool := l.record.kind == 1

/-- The x extent of one device's part (R277). -/
def LRec.lx (r : LRec) : Nat := r.xext / max 1 r.dgx

/-- The y extent of one device's part (R277). -/
def LRec.ly (r : LRec) : Nat := r.yext / max 1 r.dgy

/-- The seats of a part (R281). -/
def LRec.seatCount (r : LRec) : Nat := r.lx * r.ly / 4

/-- Whether a field runs in whole mode (R281). -/
def LRec.whole (r : LRec) : Bool := decide (r.seatCount ≤ r.seatq)

/-- The tile columns of a part (R281). -/
def LRec.tileCols (r : LRec) : Nat := (r.lx + 7) / 8

/-- The crews of a part: those that hold a seat (R279). -/
def LRec.fieldCrews (r : LRec) : Nat :=
  if r.yext == 1 then (r.lx + 31) / 32 else r.tileCols * ((r.ly + 3) / 4)

/-- The local coordinates of the cell in a lane of a crew: the inverse of Table 16.3. -/
def LRec.cellAt (r : LRec) (crew lane : Nat) : Nat × Nat :=
  if r.yext == 1 then (32 * crew + lane, 0)
  else (8 * (crew % r.tileCols) + 2 * (lane / 4 % 4) + lane % 2,
        4 * (crew / r.tileCols) + 2 * (lane / 16) + lane / 2 % 2)

/-- The seat index and the cell number of local coordinates (Table 16.3). -/
def LRec.seatOf (r : LRec) (x y : Nat) : Nat × Nat :=
  if r.yext == 1 then (8 * (x / 32) + x % 32 / 4, x % 4)
  else (8 * (y / 4 * r.tileCols + x / 8) + 4 * (y % 4 / 2) + x % 8 / 2, 2 * (y % 2) + x % 2)

/-- Whether a seat exists: its four cells lie inside the part (R279). -/
def LRec.seatExists (r : LRec) (seat : Nat) : Bool :=
  [0, 1, 2, 3].all fun i =>
    let c := r.cellAt (seat / 8) (4 * (seat % 8) + i)
    decide (c.1 < r.lx) && decide (c.2 < r.ly)

/-- The seat indices of a part, rising. -/
def LRec.seatList (r : LRec) : List Nat := (List.range (8 * r.fieldCrews)).filter r.seatExists

/-- The crews that an empty row holds (R66). -/
def rowCap (frame : Nat) : Nat := min 16 (1024 / max 1 frame)

/-- The largest number whose square is at most `n`, searched below `fuel`. -/
def isqrt (n : Nat) : Nat → Nat
  | 0 => 0
  | k + 1 => if (k + 1) * (k + 1) ≤ n then k + 1 else isqrt n k

/-- The core of a host slot: slot `j` in paged mode, crew `j` in whole mode (R281). -/
def hostCore (p : Partition) (r : LRec) (j : Nat) : Nat :=
  let wh := shapeRect p.size
  let cap := 4 * rowCap r.frame
  if !r.whole then p.coreNo (j % (wh.1 * wh.2))
  else if r.yext == 1 then p.coreNo (j / max 1 cap % (wh.1 * wh.2))
  else
    let q := max 1 (isqrt cap 8)
    p.coreAt (j % r.tileCols / q % wh.1) (j / r.tileCols / q % wh.2)

/-- The host slots of a field (R281). -/
def LRec.hostSlots (r : LRec) : Nat := if r.whole then r.fieldCrews else r.seatq

/-- The global coordinates of a lane's cell (R279). -/
def Launch.cell (l : Launch) (crew lane : Nat) : Nat × Nat :=
  let c := l.record.cellAt crew lane
  (l.dx * l.record.lx + c.1, l.dy * l.record.ly + c.2)

/-- The offsets of a direction code (Table 16.5). -/
def dirOffset : Nat → Int × Int
  | 0 => (-1, 0)
  | 1 => (1, 0)
  | 2 => (0, -1)
  | 3 => (0, 1)
  | 4 => (-1, -1)
  | 5 => (1, -1)
  | 6 => (-1, 1)
  | _ => (1, 1)

/-- What a position resolves to: a coordinate of a cell, or the edge value of its axis. -/
inductive Axis where
  | at (n : Nat)
  | edge
  deriving DecidableEq, Repr

/-- One axis of R283. -/
def resolveAxis (mode : BitVec 8) (extent own : Nat) (delta : Int) : Axis :=
  let v := (own : Int) + delta
  if 0 ≤ v && v < extent then .at v.toNat
  else if mode == 0 then .at (v % extent).toNat
  else if mode == 1 then .at own
  else .edge

/-- What a direction of a cell names: another cell, or an edge value (R283). -/
def Launch.resolve (l : Launch) (x y dir : Nat) : (Nat × Nat) ⊕ Word :=
  let o := dirOffset dir
  match resolveAxis (.ofNat 8 l.record.bx) l.record.xext x o.1,
      resolveAxis (.ofNat 8 l.record.bY) l.record.yext y o.2 with
  | .at u, .at v => .inl (u, v)
  | .edge, _ => .inr l.record.edgex
  | .at _, .edge => .inr l.record.edgey

/-- The step neighbours of a cell (R283). -/
def Launch.stepNeighbours (l : Launch) (x y : Nat) : List (Nat × Nat) :=
  (List.range (if l.record.yext == 1 then 2 else 8)).filterMap fun d =>
    match l.resolve x y d with
    | .inl c => if c == (x, y) then none else some c
    | .inr _ => none

/-! ## Seat records as the device reaches them (R287) -/

/-- The physical address of a word that the device accesses on behalf of a context, past every TLB; none where it
does not translate (log entry 23). -/
def State.devicePa (s : State) (asid : Nat) (va : DWord) (nd : Need) : Option Nat :=
  match s.translate 999 asid va nd with
  | .ok pa => some pa
  | .error _ => none

/-- A word as the device reads it; a free value where it does not translate, which the spec gives no word for (DESIGN CHOICE, log entry
23). -/
def State.deviceWord (s : State) (asid : Nat) (va : DWord) : Word :=
  match s.devicePa asid va .read with
  | some pa => .ofNat 32 (s.readNat pa 4)
  | none => Config.freeStored [3, asid, va.toNat, s.cycle]

/-- Whether the device finds a word poisoned. -/
def State.devicePoison (s : State) (asid : Nat) (va : DWord) : Bool :=
  match s.devicePa asid va .read with
  | some pa => s.poisoned pa 4
  | none => false

/-- The address of a seat's record (R287). -/
def LRec.recordAt (r : LRec) (index : Nat) : DWord :=
  r.backing + BitVec.ofNat 64 ((512 + 16 * r.frame) * index)

/-- The address of a word of the publish buffers in a seat's record: word k of buffer b at 32b + k (R287). -/
def LRec.bufferAt (r : LRec) (index k : Nat) : DWord := r.recordAt index + BitVec.ofNat 64 (256 + 4 * k)

/-- A word of a publish buffer of a seat that is not resident, as the record gives it (R284, R287): as the device wrote it,
or a free value where a program has overwritten it (log entry 11). -/
def State.recordWord (s : State) (l : Launch) (index buf k : Nat) (v : Word) : Word :=
  if s.deviceWord l.asid (l.record.bufferAt index (32 * buf + k)) = v then v
  else Config.freeStored [2, l.lid, index, buf, k, s.cycle]

/-! ## Neighbours -/

/-- What is known of a cell: its step counter, whether it has exited and its two buffers with their poisoned words, with the cell's
number in its seat and, where the seat is not resident, the seat's index. -/
structure CellView where
  sigma  : Nat
  exited : Bool
  cell   : Nat
  buf0   : SMap Word
  buf1   : SMap Word
  bad    : List Nat
  paged  : Option Nat
  deriving DecidableEq, Repr

/-- The seat of a field. -/
def State.seat? (s : State) (lid index : Nat) : Option Seat :=
  s.seats.find? fun t => t.lid == lid && t.index == index

/-- A cell by its global coordinates: of this device's part from its seat, of another's from the gateway
(R284, R291); none while the gateway has not heard of it. -/
def State.cellView (s : State) (l : Launch) (x y : Nat) : Option CellView :=
  let r := l.record
  if x / max 1 r.lx == l.dx && y / max 1 r.ly == l.dy then
    let c := r.seatOf (x % max 1 r.lx) (y % max 1 r.ly)
    match s.seat? l.lid c.1 with
    | some t => some ⟨sget 0 t.sigma c.2, t.exited.getLsbD c.2, c.2, t.buf0, t.buf1, t.bad,
        if t.resident then none else some c.1⟩
    | none => none
  else
    match s.remote.find? fun t => t.lid == l.lid && t.x == x && t.y == y with
    | some t => some ⟨t.sigma, t.exited, 0, t.buf0, t.buf1, t.bad, none⟩
    | none => none

/-! ## What other devices of the field are told (R291) -/

/-- The index of the device of a field that a cell stands on. -/
def Launch.deviceOf (l : Launch) (x y : Nat) : Nat := y / max 1 l.record.ly * l.record.dgx + x / max 1 l.record.lx

/-- The index of this device. -/
def Launch.self (l : Launch) : Nat := l.dy * l.record.dgx + l.dx

/-- The cells of this device's part. -/
def Launch.ownCells (l : Launch) : List (Nat × Nat) :=
  l.record.seatList.flatMap fun k => (List.range 4).map fun i => l.cell (k / 8) (4 * (k % 8) + i)

/-- Whether another device holds a neighbour of a cell in some direction. -/
def Launch.borders (l : Launch) (peer x y : Nat) : Bool :=
  (List.range 8).any fun d =>
    match l.resolve x y d with
    | .inl n => l.deviceOf n.1 n.2 == peer
    | .inr _ => false

/-- What a device is told of a cell, as one number. -/
def CellView.mark (v : CellView) : Nat := 2 * v.sigma + if v.exited then 1 else 0

/-- The first cell of this part, with a device, of which that device has yet to be told: the step of a cell at its edge, or the exit of
any cell (R286, R291). -/
def State.untold (s : State) (l : Launch) : Option (Nat × Nat × Nat) :=
  if l.peers.length ≤ 1 then none
  else l.ownCells.findSome? fun c =>
    match s.cellView l c.1 c.2 with
    | none => none
    | some v => ((List.range l.peers.length).find? fun q =>
        q != l.self && (v.exited || l.borders q c.1 c.2) && !l.told.contains (q, c.1, c.2, v.mark)).map fun q => (c.1, c.2, q)

/-- Whether a cell has reached step `k` or has exited (R284, R285). -/
def State.reached (s : State) (l : Launch) (c : Nat × Nat) (k : Nat) : Bool :=
  match s.cellView l c.1 c.2 with
  | some v => decide (k ≤ v.sigma) || v.exited
  | none => false

/-- σ of the cell in a lane (R284). -/
def State.sigmaOf (s : State) (l : Launch) (crew lane : Nat) : Nat :=
  match s.seat? l.lid (8 * crew + lane / 4) with
  | some t => sget 0 t.sigma (lane % 4)
  | none => 0

/-- The value of a neighbour operand of a lane, or none while it must wait (R284). -/
def State.neighbourValue (s : State) (l : Launch) (crew lane dir j : Nat) : Option Word :=
  let c := l.cell crew lane
  match l.resolve c.1 c.2 dir with
  | .inr v => some v
  | .inl n =>
    match s.cellView l n.1 n.2 with
    | none => none
    | some v =>
      let k := s.sigmaOf l crew lane
      if k ≤ v.sigma || v.exited then
        let b := min k v.sigma % 2
        let w := sget 0 (if b == 0 then v.buf0 else v.buf1) (4 * j + v.cell)
        some (match v.paged with
          | some index => s.recordWord l index b (4 * j + v.cell) w
          | none => w)
      else none

/-- Whether what a neighbour operand of a lane reads is a poisoned word of a publish buffer (R345). -/
def State.neighbourBad (s : State) (l : Launch) (crew lane dir j : Nat) : Bool :=
  let c := l.cell crew lane
  match l.resolve c.1 c.2 dir with
  | .inr _ => false
  | .inl n =>
    match s.cellView l n.1 n.2 with
    | none => false
    | some v =>
      let k := 32 * (min (s.sigmaOf l crew lane) v.sigma % 2) + 4 * j + v.cell
      v.bad.contains k ||
        match v.paged with
        | some index => s.devicePoison l.asid (l.record.bufferAt index k)
        | none => false

end Sys2Proof.Machine
end

