-- ==== Sys2Proof/Machine/Regs.lean ====
section
/-! DEFINITION. Access to the parts of the state: crews, splits, teams, launches, registers, lanes, the age order and
the landings of a crew. -/

namespace Sys2Proof.Machine

/-! ## Crews, splits, teams and launches -/

def State.crew? (s : State) (cid : Nat) : Option Crew := s.crews.find? (·.cid == cid)

def Crew.split? (c : Crew) (sid : Nat) : Option Split := c.splits.find? (·.sid == sid)

def State.split? (s : State) (cid sid : Nat) : Option Split :=
  match s.crew? cid with
  | some c => c.split? sid
  | none => none

/-- Changes the crew `cid`. -/
def State.modCrew (s : State) (cid : Nat) (f : Crew → Crew) : State :=
  { s with crews := s.crews.map fun c => if c.cid == cid then f c else c }

/-- Changes the split `sid` of a crew. -/
def Crew.modSplit (c : Crew) (sid : Nat) (f : Split → Split) : Crew :=
  { c with splits := c.splits.map fun p => if p.sid == sid then f p else p }

def State.modSplit (s : State) (cid sid : Nat) (f : Split → Split) : State :=
  s.modCrew cid (·.modSplit sid f)

def State.launch? (s : State) (lid : Nat) : Option Launch := s.launches.find? (·.lid == lid)

def State.modLaunch (s : State) (lid : Nat) (f : Launch → Launch) : State :=
  { s with launches := s.launches.map fun l => if l.lid == lid then f l else l }

def State.team? (s : State) (lid tid : Nat) : Option Team :=
  s.teams.find? fun t => t.lid == lid && t.tid == tid

def State.modTeam (s : State) (lid tid : Nat) (f : Team → Team) : State :=
  { s with teams := s.teams.map fun t => if t.lid == lid && t.tid == tid then f t else t }

def State.modSeat (s : State) (lid index : Nat) (f : Seat → Seat) : State :=
  { s with seats := s.seats.map fun t => if t.lid == lid && t.index == index then f t else t }

def State.modContext (s : State) (asid : Nat) (f : Context → Context) : State :=
  { s with contexts := s.contexts.map fun c => if c.asid == asid then f c else c }

def State.modPart (s : State) (n : Nat) (f : Partition → Partition) : State :=
  { s with parts := s.parts.modify n f }

/-- Takes the next identifier: sequence numbers, crew identifiers and launch identifiers rise. -/
def State.bumpId (s : State) : State := { s with nextId := s.nextId + 1 }

/-- A value that the spec leaves open, by the count of such values (log entry 5). -/
def State.freeValue (s : State) : Word := Config.freeWord s.free

def State.bumpFree (s : State) : State := { s with free := s.free + 1 }

/-- Counts uncorrectable errors (UECNT, Table 26.2). -/
def State.countErrors (s : State) (n : Nat) : State :=
  { s with svc := { s.svc with uecnt := .ofNat 32 (min (s.svc.uecnt.toNat + n) 0xFFFFFFFF) } }

/-- The microsecond of the device's clock: 3,000 cycles (R1). -/
def State.micros (s : State) : Nat := s.cycle / 3000

/-- Whether every bucket tick up to this microsecond has been made: of a slice, or of a port at 288 + port (R309, R310). -/
def State.ticked (s : State) (k : Nat) : Bool := decide (s.micros ≤ sget 0 s.ticks k)

/-- Sets the program counter of a split. -/
def State.setPc (s : State) (cid sid : Nat) (pc : DWord) : State :=
  s.modSplit cid sid fun p => { p with pc := pc }

/-! ## Registers -/

/-- The window size (R28). -/
def Crew.ws (c : Crew) : Nat := min 128 (c.frame - 32)

/-- Lane register at an absolute index (R29). -/
def Crew.vAbs (c : Crew) (lane idx : Nat) : Word := sget 0 c.vregs (32 * idx + lane)

/-- Lane register vn of the window (R27). -/
def Crew.v (c : Crew) (lane n : Nat) : Word := c.vAbs lane (c.wb + n)

/-- The pair vn:vn+1 as a 64-bit value. -/
def Crew.vPair (c : Crew) (lane n : Nat) : DWord := c.v lane (n + 1) ++ c.v lane n

/-- Uniform register sn. -/
def Crew.u (c : Crew) (n : Nat) : DWord := sget 0 c.sregs n

/-- Writes a lane register at an absolute index; a written register is not poisoned (R346). -/
def Crew.setAbs (c : Crew) (lane idx : Nat) (x : Word) : Crew :=
  { c with vregs := sset 0 c.vregs (32 * idx + lane) x,
           vpoison := c.vpoison.filter (· != 32 * idx + lane) }

/-- Writes lane register vn. -/
def Crew.setV (c : Crew) (lane n : Nat) (x : Word) : Crew := c.setAbs lane (c.wb + n) x

/-- Writes uniform register sn; a written register is not poisoned (R346). -/
def Crew.setU (c : Crew) (n : Nat) (x : DWord) : Crew :=
  { c with sregs := sset 0 c.sregs n x, spoison := c.spoison.filter (· != n) }

/-- Writes one value per lane to vn. -/
def Crew.setLanes (c : Crew) (n : Nat) : List (Nat × Word) → Crew
  | [] => c
  | (l, x) :: t => (c.setV l n x).setLanes n t

/-- NC of a lane (R243). -/
def Crew.ncOf (c : Crew) (lane : Nat) : Nat := (sget 0 c.nc lane).toNat

/-- MARK of a lane (R243). -/
def Crew.markOf (c : Crew) (lane : Nat) : Nat := (sget 0 c.marks lane).toNat

def Crew.setNc (c : Crew) (lane n : Nat) : Crew := { c with nc := sset 0 c.nc lane (.ofNat 8 n) }

def Crew.setMark (c : Crew) (lane n : Nat) : Crew :=
  { c with marks := sset 0 c.marks lane (.ofNat 8 n) }

/-- The lanes of a mask in ascending order. -/
def maskLanes (m : BitVec 32) : List Nat := lanes.filter m.getLsbD

/-- The mask of a list of lanes. -/
def laneMask (ls : List Nat) : BitVec 32 := ls.foldl (fun m l => m ||| (1#32 <<< l)) 0

/-- The active lanes of a split: in SPLITMASK with NC = 0 (R243). -/
def activeLanes (c : Crew) (p : Split) : List Nat := (maskLanes p.mask).filter fun l => c.ncOf l == 0

/-- Whether a split runs its trap handler (R329). -/
def Split.inHandler (p : Split) : Bool := p.handler.isSome

/-! ## Program order (R198) -/

/-- Whether the access at `oseq` of split `osid` precedes in program order the access at `seq` of split `sid` of the same crew,
`anc` being the ancestry of `sid` (R198). -/
def precedes (anc : List (Nat × Nat)) (sid seq osid oseq : Nat) : Bool :=
  decide (oseq < seq) && (osid == sid || anc.any fun e => e.1 == osid && decide (oseq < e.2))

/-- Whether an access that has issued precedes whatever a split does next (R198). -/
def Split.follows (p : Split) (osid oseq : Nat) : Bool :=
  osid == p.sid || p.anc.any fun e => e.1 == osid && decide (oseq < e.2)

/-- Whether the crew's launch is a field. -/
def State.inField (s : State) (c : Crew) : Bool :=
  match s.launch? c.lid with
  | some l => l.isField
  | none => false

/-! ## Data that arrive (R53) -/

/-- Whether data of a younger instruction have arrived for a uniform register in this cycle: they remain (R53). -/
def State.outrun (s : State) (cid reg seq : Nat) : Bool :=
  s.arrived.any fun e => e.1 == cid && e.2.1 == reg && decide (seq < e.2.2)

/-- Data have arrived in a uniform register: it is noted for this cycle (R53), and a second pick of the cycle reads them too (R160). -/
def State.noteArrival (s : State) (cid reg seq : Nat) : State :=
  match s.crew? cid with
  | none => s
  | some c => { s with
      arrived := s.arrived ++ [(cid, reg, seq)]
      picks := s.picks.map fun k =>
        if k.cid == cid then
          { k with sregs := sset 0 k.sregs reg (c.u reg)
                   spoison := k.spoison.filter (· != reg) ++ if c.spoison.contains reg then [reg] else [] }
        else k }

/-! ## The age order and landings (R269, Table 13.3) -/

/-- Takes a split out of the age order (R269). -/
def State.unage (s : State) (cid sid : Nat) : State :=
  { s with age := s.age.filter (fun e => !(e.1 == cid && e.2 == sid))
           woke := s.woke.filter fun e => !(e.1 == cid && e.2 == sid) }

/-- Splits enter the age order as the youngest, before those woken in this cycle (R269); none of them is picked in this cycle any more
(R271). -/
def State.enter (s : State) (xs : List (Nat × Nat)) : State :=
  let woke := s.woke.filter fun e => !xs.contains e
  { s with age := (s.age.filter fun e => !xs.contains e && !woke.contains e) ++ xs ++ woke, woke := woke
           entered := s.entered ++ xs }

/-- The split-table entry of a split. -/
def State.entryOf (s : State) (e : Nat × Nat) : Nat :=
  match s.split? e.1 e.2 with
  | some p => p.entry
  | none => 0

/-- A woken split enters the age order as the youngest; of those woken in one cycle the lower split-table entry comes first
(R269). -/
def State.enage (s : State) (cid sid : Nat) : State :=
  let s := s.unage cid sid
  let before (e : Nat × Nat) : Bool := decide (s.entryOf e < s.entryOf (cid, sid))
  let woke := s.woke.filter before ++ [(cid, sid)] ++ s.woke.filter fun e => !before e
  { s with age := (s.age.filter fun e => !s.woke.contains e) ++ woke, woke := woke }

/-- Whether an SH.FLOAT of a landing's holder is queued: the hold is then given up, and the float still takes effect (R236,
R240). -/
def State.floatQueued (s : State) (h : Landing) : Bool :=
  s.shreqs.any fun q => q.op == .float && q.shell == h.shell && q.cid == h.cid && q.sid == h.sid

/-- The landings of a split, or of a whole crew, are lost: the originals float back at their next pass (Table
13.3). -/
def State.loseLandings (s : State) (cid : Nat) (sid : Option Nat) : State :=
  { s with landings := s.landings.map fun h =>
      if h.cid == cid && (match sid with | some n => h.sid == n | none => true) && !s.floatQueued h
      then { h with lost := true } else h }

end Sys2Proof.Machine
end

