-- ==== Sys2Proof/Machine/Coherence.lean ====
section
/-! DEFINITION. Writes and reads of device and fabric memory as the home slices and the L1s perform them (R140 to
R147, R200).

`State.mem` always holds the latest write in coherence order; a clean word of an L1 may be older, until an acquire
drops it (R206). -/

namespace Sys2Proof.Machine

/-- The core whose L1 holds a line for a core: its own, or the slice of its fused cluster (R141). -/
def State.l1Core (s : State) (core pa : Nat) : Nat :=
  if s.fused.contains (clusterOf core) then 4 * clusterOf core + pa / 256 % 4 else core

/-- The word that an L1 holds. -/
def State.l1Word? (s : State) (core word : Nat) : Option L1Word :=
  s.l1.find? fun w => w.core == core && w.addr == word

/-- The home slice of an address for a core (R143). -/
def sliceOf (core pa : Nat) : Nat := homeSlice (bayOfCore core) pa

/-- Words of a line are written at their slice: they are written since its fill, their sectors dirty (Table 8.1). -/
def L2Line.written (e : L2Line) (ws : List Nat) : L2Line :=
  { e with
    wm := ws.foldl (fun m w => m ||| (1#64 <<< (w % 64))) e.wm
    d := ws.foldl (fun m w => m ||| (1#4 <<< (w / 16 % 4))) e.d }

/-- Whether a slice is filling a line. -/
def State.filling (s : State) (slice line : Nat) : Bool :=
  (s.misses.any fun m => m.slice == slice && m.cls == .general && m.line == line) ||
  s.spillq.any fun m => m.slice == slice && m.line == line

/-- Words arrive at the slices that are home to them for a core (Table 8.1): a line that is held is marked, one that is being filled
takes the marks as it comes in. Of a line of fabric memory no other bay's slice keeps a copy (R315). -/
def State.markWritten (s : State) (core : Nat) (ws : List Nat) : State :=
  let mine (e : L2Line) : List Nat := ws.filter fun w => w / 64 == e.line
  let home (w : Nat) : Nat := sliceOf core (4 * w)
  { s with
    l2 := (s.l2.filter fun e => e.slice == sliceOf core (256 * e.line) || (mine e).isEmpty).map fun e => e.written (mine e)
    wfill := (s.wfill ++ (ws.filter fun w => s.filling (home w) (w / 64)).map fun w => (home w, w)).eraseDups }

/-- A write-back takes one of the slice's 16 entries; with all of them busy the oldest is complete first (R148). -/
def State.noteWriteBack (s : State) (slice line : Nat) : State :=
  let mine := s.misses.filter fun m => m.slice == slice && m.cls == .writeBack
  let kept := match mine with
    | m :: rest => if rest.length < 15 then s.misses else s.misses.erase m
    | [] => s.misses
  { s with misses := kept ++ [⟨slice, .writeBack, line, 0⟩] }

/-- The dirty words that an L1 gives up go to the home slices of a core, those of one line as one write-back (R144, R148). -/
def State.giveBack (s : State) (core : Nat) (ws : List Nat) : State :=
  ((ws.map (· / 64)).eraseDups.foldl (fun (s : State) l => s.noteWriteBack (sliceOf core (256 * l)) l) s).markWritten core ws

/-- A write-back is complete: its entry is free (R148). -/
def State.wroteBack (s : State) (slice line : Nat) : Option State :=
  match s.misses.find? fun m => m.slice == slice && m.cls == .writeBack && m.line == line with
  | some m => some { s with misses := s.misses.erase m }
  | none => none

/-- The dirty words that an L1 holds of a set of words. -/
def State.l1Dirty (s : State) (core : Nat) (f : Nat → Bool) : List Nat :=
  (s.l1.filter fun w => w.core == core && f w.addr && w.st == .ownedDirty).map (·.addr)

/-- An L1 loses a line (R140): its dirty words are written back, its registrations end. -/
def State.l1Evict (s : State) (core line : Nat) : State :=
  State.giveBack { s with
    owner := [0, 1, 2, 3].foldl (fun t i =>
      if sget noOwner t (4 * line + i) == core then sset noOwner t (4 * line + i) noOwner else t) s.owner
    l1 := s.l1.filter fun w => !(w.core == core && w.addr / 64 == line) } core (s.l1Dirty core fun w => w / 64 == line)

/-- The lines that an L1 holds, the one held longest first. -/
def State.l1Lines (s : State) (core : Nat) : List Nat := ((s.l1.filter (·.core == core)).map (·.addr / 64)).eraseDups

/-- Puts a word into an L1 of 1,024 lines (R140): into a full one only once the line held longest has left it (log entry
28). -/
def State.l1Put (s : State) (w : L1Word) : State :=
  let t := if s.l1.any fun x => x.core == w.core && x.addr / 64 == w.addr / 64 then s
    else
      match s.l1Lines w.core with
      | l :: rest => if rest.length + 1 < 1024 then s else s.l1Evict w.core l
      | [] => s
  { t with l1 := t.l1.filter (fun x => !(x.core == w.core && x.addr == w.addr)) ++ [w] }

/-- Drops the words of an L1 for which `f` holds. -/
def State.l1Drop (s : State) (f : L1Word → Bool) : State := { s with l1 := s.l1.filter fun w => !f w }

/-- A write to a word clears every reservation on it (R169). -/
def State.clearResv (s : State) (words : List Nat) : State :=
  { s with crews := s.crews.map fun c => { c with resv := c.resv.filter fun r => !words.contains r.word } }

/-- Live mirrors of a line are invalidated before a write event (R147). -/
def State.dropMirrors (s : State) (line : Nat) : State :=
  { s with mirrors := s.mirrors.filter (·.line != line) }

/-- Revokes a sector that a core owns (R144): the owner writes back its dirty words and keeps clean copies, its older clean
words of the line going (R212); nobody owns it. -/
def State.revoke (s : State) (sector : Nat) : State :=
  let o := s.ownerOf sector
  if o < 288 then
    State.giveBack { s with
      owner := sset noOwner s.owner sector noOwner
      l1 := (s.l1.filter fun w => !(w.core == o && w.addr / 64 == sector / 4 && w.st == .clean)).map fun w =>
        if w.core == o && w.addr / 16 == sector then { w with st := .clean, bad := s.poisoned (4 * w.addr) 4 } else w } o
      (s.l1Dirty o fun w => w / 16 == sector)
  else s

/-- Writes OWNER of sectors (Table 8.1). -/
def State.setOwner (s : State) (secs : List Nat) (o : Nat) : State :=
  { s with owner := secs.foldl (fun t sec => sset noOwner t sec o) s.owner }

/-- An engine or the adder of code `o` no longer holds sectors (Table 8.1). -/
def State.dropOwner (s : State) (secs : List Nat) (o : Nat) : State :=
  s.setOwner (secs.filter fun sec => s.ownerOf sec == o) noOwner

/-- The words that listed bytes touch, without repeats in a row. -/
def wordsOf (ps : List (Nat × Byte)) : List Nat := (ps.map fun p => p.1 / 4).eraseDups

/-- The words of which the listed bytes hold all four. -/
def wholeWords (ps : List (Nat × Byte)) : List Nat :=
  (wordsOf ps).filter fun w => [0, 1, 2, 3].all fun i => ps.any fun p => p.1 == 4 * w + i

/-- No remote copy of some exported lines is left once a write has been performed (R316). -/
def State.dropHolders (s : State) (lines : List Nat) : State :=
  { s with fab := { s.fab with holders := s.fab.holders.filter fun l => !lines.contains l.1 } }

/-- Whether no other device holds a copy of some exported lines, so that their home slices may take a write event (R316). -/
def State.unheld (s : State) (lines : List Nat) : Bool := s.fab.holders.all fun l => !lines.contains l.1

/-- The effect of a write on memory: the bytes, the reservations, and the poison of whole words (Table 21.8). -/
def State.performWrite (s : State) (ps : List (Nat × Byte)) : State :=
  let whole := wholeWords ps
  let s := ((s.writePairs ps).clearResv (wordsOf ps)).dropHolders ((wordsOf ps).map (· / 64))
  { s with mpoison := s.mpoison.filter fun w => !whole.contains w }

/-- A write performed at the home slices of a core by an agent that owns no sector (an engine, an adder, the spill
mechanism, the fabric or the device itself): owners are revoked and mirrors invalidated first. -/
def State.homeWrite (s : State) (core : Nat) (ps : List (Nat × Byte)) : State :=
  let ws := wordsOf ps
  let s := (ws.map (· / 16)).eraseDups.foldl (fun s sec => s.revoke sec) s
  let s := (ws.map (· / 64)).eraseDups.foldl (fun s l => s.dropMirrors l) s
  (s.performWrite ps).markWritten core ws

/-- A write performed in the L1 that owns the sectors of its words (R146). -/
def State.ownerWrite (s : State) (core : Nat) (ps : List (Nat × Byte)) : State :=
  let s := s.performWrite ps
  (wordsOf ps).foldl (fun s w => s.l1Put
    { core := s.l1Core core (4 * w), addr := w, st := .ownedDirty, data := s.readBytes (4 * w) 4, bad := false }) s

/-- Whether an engine or the adder is the owner of a sector (Table 8.1). -/
def State.engineOwned (s : State) (sector : Nat) : Bool :=
  decide (288 ≤ s.ownerOf sector) && s.ownerOf sector != noOwner

/-- A store piece is registered at its home slice (R144): mirrors are invalidated and WSEQ advances once (Table 8.2). Its sectors are
granted to the core, other owners being revoked, and the core's L1 performs the write. While an engine or the adder owns one of
them no core becomes its owner, and the slice itself performs the write (R152; log entry 28). -/
def State.registerWrite (s : State) (core line : Nat) (ps : List (Nat × Byte)) : State :=
  let secs := ((wordsOf ps).map (· / 16)).eraseDups
  let me := s.l1Core core (256 * line)
  if secs.any s.engineOwned then
    State.l1Drop ((s.homeWrite core ps).bumpWseq line) fun w => w.core == me && (wordsOf ps).contains w.addr
  else
    let s := secs.foldl (fun s sec =>
      if s.ownerOf sec == me then s
      else
        let s := s.revoke sec
        { s with owner := sset noOwner s.owner sec me }) (s.dropMirrors line)
    State.ownerWrite { (s.bumpWseq line) with
      l2 := s.l2.filter fun e => e.line != line || e.slice == sliceOf core (256 * line) } core ps

/-- Whether the home slice has a revocation of a sector on its way to the owner (R144, R148). -/
def State.recalling (s : State) (sector : Nat) : Bool :=
  s.misses.any fun m => m.cls == .recall && m.line == sector / 4 && m.hint == sector % 4

/-- Whether a core's L1 owns every sector of some bytes, none of them being revoked (R146). -/
def State.ownsAll (s : State) (core : Nat) (ps : List (Nat × Byte)) : Bool :=
  (wordsOf ps).all fun w => s.ownerOf (w / 16) == s.l1Core core (4 * w) && !s.recalling (w / 16)

/-- Whether a store piece is one that a core has performed in its L1 and its home slice has not yet registered: only the writing core
reads it (R209). -/
def RegReq.ahead (q : RegReq) (core : Nat) : Bool := q.inL1 && q.core == core

/-- A byte with the writes laid over it that a core has performed in its L1 and that are not yet registered (R140, R209). -/
def State.overlaid (s : State) (core pa : Nat) (b : Byte) : Byte :=
  s.regs.foldl (fun b q => if q.ahead core then q.bytes.foldl (fun b x => if x.1 == pa then x.2 else b) b else b) b

/-- Whether such a write touches a word. -/
def State.wordAhead (s : State) (core word : Nat) : Bool :=
  s.regs.any fun q => q.ahead core && (wordsOf q.bytes).contains word

/-- Whether a core's L1 holds clean copies of all of some words of a line, and no write of its own stands over them: the
copies of a line are all of one moment (R212). -/
def State.cleanHit (s : State) (core : Nat) (ws : List Nat) : Bool :=
  ws.all fun w =>
    (match s.l1Word? (s.l1Core core (4 * w)) w with
     | some x => x.st == .clean
     | none => false) && !s.wordAhead core w

/-- Whether a core's L1 serves all of some words: from clean copies or from words that it owns (R140). -/
def State.l1Hit (s : State) (core : Nat) (ws : List Nat) : Bool :=
  s.cleanHit core ws || ws.all fun w =>
    match s.l1Word? (s.l1Core core (4 * w)) w with
    | some x => x.st != .clean
    | none => false

/-- The bytes that a load of a core reads from a place: its L1's clean copies where `clean` says that they serve it, else
the latest values, under the core's own writes that are not yet registered (R140, R206, R209). -/
def State.loadBytes (s : State) (core pa n : Nat) (clean : Bool) : List Byte :=
  (List.range n).map fun i =>
    match if clean then s.l1Word? (s.l1Core core (pa + i)) ((pa + i) / 4) else none with
    | some w => w.data.getD ((pa + i) % 4) 0
    | none => s.overlaid core (pa + i) (s.readByte (pa + i))

/-- The clean copies of the lines of some words leave a core's L1, so that it never mixes copies of two moments (R200,
R212). -/
def State.l1Forget (s : State) (core : Nat) (ws : List Nat) : State :=
  s.l1Drop fun x => x.st == .clean && ws.any fun w => x.addr / 64 == w / 64 && x.core == s.l1Core core (4 * w)

/-- A load that missed allocates copies of the words that it read (R140). -/
def State.l1Fill (s : State) (core : Nat) (ws : List Nat) : State :=
  ws.foldl (fun t w =>
    let k := t.l1Core core (4 * w)
    match t.l1Word? k w with
    | some _ => t
    | none => t.l1Put { core := k, addr := w, st := if t.ownerOf (w / 16) == k then .ownedClean else .clean
                        data := t.readBytes (4 * w) 4, bad := t.poisoned (4 * w) 4 }) (s.l1Forget core ws)

/-- The words that an access of `n` bytes touches. -/
def accessWords (a n : Nat) : List Nat := (List.range ((a % 4 + n + 3) / 4)).map (a / 4 + ·)

/-- Whether a load of a core finds a word of a place poisoned: in its L1's clean copies where `clean` says that they serve it, else in
the latest value (R345). -/
def State.loadPoison (s : State) (core pa n : Nat) (clean : Bool) : Bool :=
  if clean then
    (accessWords pa n).any fun w =>
      match s.l1Word? (s.l1Core core (4 * w)) w with
      | some x => x.bad
      | none => false
  else s.poisoned pa n

/-- The coherence action of an acquire (R166, R167, Table 10.1): at device and system scope the core's unowned
words go, at squad scope those of its cluster. -/
def State.acquire (s : State) (core : Nat) : Scope → State
  | .team => s
  | .squad => s.l1Drop fun w => w.st == .clean && clusterOf w.core == clusterOf core
  | _ => s.l1Drop fun w => w.st == .clean &&
      (w.core == core || (s.fused.contains (clusterOf core) && clusterOf w.core == clusterOf core))

/-! ## Words that engines hold (R121, R128, R129, R187) -/

/-- Whether a range of bytes meets another. -/
def overlaps (a n b m : Nat) : Bool := decide (a < b + m) && decide (b < a + n)

/-- Whether a destination word of a copy is not yet written. -/
def CopyCmd.owes (q : CopyCmd) (word : Nat) : Bool :=
  q.pieces.any fun x => x.space == .global && overlaps (4 * word) 4 x.addr x.data.length

/-- Whether a word of memory is pending for an engine at its home slice: a destination word of a registered copy that is not yet
written, or of an addition that is not yet performed (R187, R210). -/
def State.homePending (s : State) (word : Nat) : Bool :=
  (s.copies.any fun q => q.registered && q.owes word) ||
  (s.adds.any fun q => q.job.isSome && q.addr / 4 == word) ||
  s.mats.any fun q => !q.ran && match q.op with
    | .red _ rows => rows.contains (word / 64 * 256)
    | _ => false

/-- Whether a word of memory is pending for an engine, for the accesses of a core: at its home slice, or for a copy that the core itself
has issued (R187, R210). -/
def State.wordPending (s : State) (core word : Nat) : Bool :=
  s.homePending word || s.copies.any fun q => q.core == core && q.owes word

/-- Whether the engine has yet to read the source word of a piece (R187). Scratchpad is read when the command starts. -/
def CopyCmd.unread (q : CopyCmd) (x : CopyPiece) : Bool :=
  x.late || match x.sspace with
    | .global => !q.read.contains (x.saddr / 256)
    | _ => match q.phase with | .running _ _ => false | _ => true

/-- Whether some copy has yet to read a word of memory (R187). -/
def State.wordUnread (s : State) (word : Nat) : Bool :=
  s.copies.any fun q => q.pieces.any fun x => x.sspace == .global && x.saddr / 4 == word && q.unread x

/-- Whether some copy, or the matrix engine, has yet to read a byte of a range of a team's scratchpad (R121, R187). -/
def State.scratchUnread (s : State) (lid tid a n : Nat) : Bool :=
  (s.copies.any fun q => q.lid == lid && q.pieces.any fun x =>
    x.sspace != .global && x.steam == tid && overlaps a n x.saddr 4 && q.unread x) ||
  s.mats.any fun q => q.lid == lid && q.team == tid && q.reads.any fun r => overlaps a n r.1 r.2

/-- Whether bytes of a team's scratchpad are pending for an engine or an SH.GET.P (R187, R230). -/
def State.scratchPending (s : State) (lid tid a n : Nat) : Bool :=
  (s.copies.any fun q => q.lid == lid && q.pieces.any fun x =>
    x.space != .global && x.team == tid && overlaps a n x.addr x.data.length) ||
  (s.shreqs.any fun q => q.lid == lid && q.team == tid && match q.op with
    | .getP off => overlaps a n off 64
    | _ => false) ||
  s.mats.any fun q => q.lid == lid && q.team == tid && q.spans.any fun r => overlaps a n r.1 r.2

/-- Whether a write on its way to its bank touches bytes of a scratchpad (R187, R212). -/
def State.heldOn (s : State) (lid tid a n : Nat) : Bool :=
  s.held.any fun h => h.lid == lid && h.team == tid && h.bytes.any fun b => decide (a ≤ b.1) && decide (b.1 < a + n)

end Sys2Proof.Machine
end

