-- ==== Sys2Proof/Machine/Route.lean ====
section
/-! DEFINITION. How the device sends into the fabric: key and routing tables, live sets, the port of a strict message, and
posting a message (R317, R320 to R322, R325). -/

namespace Sys2Proof.Machine

/-- The endpoint that a fabric address names (R315). -/
def endpointOf (pa : Nat) : Nat := pa / 2 ^ 37 % 2 ^ 14

/-- The endpoint of the device (FCTL.MYEP, Table 20.5). -/
def State.myEp (s : State) : Nat := s.fab.fctl.toNat % 2 ^ 14

/-- Whether the fabric is enabled (FCTL.FEN, Table 20.5). -/
def State.fabricOn (s : State) : Bool := s.fab.fctl.getLsbD 31

/-- The active copy of the key table (R324). -/
def Fabric.keys (f : Fabric) : SMap DWord := if f.kact then f.keytab1 else f.keytab0

/-- The active copy of the routing table (R324). -/
def Fabric.routes (f : Fabric) : SMap (BitVec 128) := if f.ract then f.route1 else f.route0

/-- The first of the 64 key entries that satisfies `f`. -/
def Fabric.findKey (fb : Fabric) (f : DWord → Bool) : Option Nat :=
  (List.range 64).find? fun e => f (sget 0 fb.keys e)

/-- Whether a key entry is valid (V, Table 20.3). -/
def keyValid (e : DWord) : Bool := e.getLsbD 31

/-- PART of a key entry (Table 20.3). -/
def keyPart (e : DWord) : Nat := e.toNat / 2 ^ 16 % 32

/-- KEY of a key entry (Table 20.3). -/
def keyOf (e : DWord) : Nat := e.toNat % 2 ^ 16

/-- The valid entry of a key (R322). -/
def State.keyEntry (s : State) (key : Nat) : Option Nat :=
  s.fab.findKey fun e => keyValid e && keyOf e == key

/-- The live set of an endpoint's routing entry (R320): empty while the entry is not valid. -/
def State.liveSet (s : State) (ep : Nat) : BitVec 72 :=
  let e := sget 0 s.fab.routes ep
  if e.getLsbD 81 then e.truncate 72 &&& s.fab.portLive else 0

/-- Whether messages to an endpoint can be sent (R320). -/
def State.routeOk (s : State) (ep : Nat) : Bool := s.fabricOn && s.liveSet ep != 0

/-- The ports of a set, ascending. -/
def portsOf (m : BitVec 72) : List Nat := (List.range 72).filter m.getLsbD

/-- The port of a strict message under the hash of R320. -/
def State.strictPort (s : State) (ep key : Nat) : Option Nat :=
  let ps := portsOf (s.liveSet ep)
  let h := (s.myEp * 0x9E37 + ep * 0x7F4B + key) % 2 ^ 16
  if s.routeOk ep then ps[h % max 1 ps.length]? else none

/-- The port of a sprayed message: that of the live set with the fewest messages queued, the lowest of several (R320). -/
def State.sprayPort (s : State) (ep : Nat) : Option Nat :=
  let queued (p : Nat) : Nat := (s.fab.strict.filter fun m => m.port == some p && !m.sent).length
  if s.routeOk ep then
    (portsOf (s.liveSet ep)).foldl (fun b p =>
      match b with
      | none => some p
      | some q => if queued p < queued q then some p else b) none
  else none

/-- Whether line data to an endpoint travel sprayed (SPRAY, Table 20.2). -/
def State.sprayed (s : State) (ep : Nat) : Bool := (sget 0 s.fab.routes ep).getLsbD 80

/-- The tokens of a key entry at a port (R310). -/
def Fabric.level (f : Fabric) (port e : Nat) : Nat := sget 0 f.levels (64 * port + e)

/-- Sets the tokens of a key entry at a port. -/
def Fabric.setLevel (f : Fabric) (port e n : Nat) : Fabric := { f with levels := sset 0 f.levels (64 * port + e) n }

/-- The key entry of a partition's egress messages (R322): the lowest with V, EG and the partition. -/
def State.partEntry (s : State) (part : Nat) : Option Nat :=
  s.fab.findKey fun e => keyValid e && e.getLsbD 30 && keyPart e == part

/-- The key entry of a context's egress messages (R322). -/
def State.egressEntry (s : State) (asid : Nat) : Option Nat := s.partEntry (s.partOf asid)

/-- The port of a message to an endpoint under the key of an entry, line data or not (R317, R320). -/
def State.portFor (s : State) (e ep : Nat) (bulk : Bool) : Option Nat :=
  if bulk && s.sprayed ep then s.sprayPort ep else s.strictPort ep (keyOf (sget 0 s.fab.keys e))

/-- The port and the key entry of a message of a context to an endpoint, line data or not (R317, R320, R322): none while no key
applies or the route is unusable. -/
def State.fabricPort (s : State) (asid ep : Nat) (bulk : Bool) : Option (Nat × Nat) :=
  match s.egressEntry asid with
  | none => none
  | some e => (s.portFor e ep bulk).map (·, e)

/-- Whether an access of a core on an address needs no fabric message: it is no fabric address, or a hit in the slice of the core's own
bay (R315): it reads a line that stands there, or writes one that it owns, being the line's last writer. -/
def State.fabricFree (s : State) (core pa : Nat) (write : Bool) : Bool :=
  !inFabric pa || s.l2.any fun l => l.slice == homeSlice (bayOfCore core) pa && l.line == lineOf pa && (!write || l.d != 0)

/-- Whether a strict message may follow those sent before to its destination under its key: they have all arrived (R317, R321). -/
def Fabric.flowOpen (f : Fabric) (dst key : Nat) : Bool := f.strict.all fun m => !(m.dst == dst && m.key == key)

/-- Whether a message under the key of an entry can be sent to an endpoint by a port: the tick of the microsecond has been made there, the
port has a token of the key, and a strict one
overtakes none of its flow (R310, R317, R321). -/
def State.canSend (s : State) (ep port e : Nat) (bulk : Bool) : Bool :=
  s.ticked (288 + port) && decide (0 < s.fab.level port e) && ((bulk && s.sprayed ep) || s.fab.flowOpen ep (keyOf (sget 0 s.fab.keys e)))

/-- Whether an access of a core on an address needs no fabric message or can send it: a key applies, the route is usable and the
message can be sent (R310, R315, R317, R320 to R322). -/
def State.fabricOk (s : State) (core asid pa : Nat) (write bulk : Bool) : Bool :=
  s.fabricFree core pa write ||
    match s.fabricPort asid (endpointOf pa) bulk with
    | some x => s.canSend (endpointOf pa) x.1 x.2 bulk
    | none => false

/-- The message of such an access spends its token (R310). -/
def State.fabricSend (s : State) (core asid pa : Nat) (write bulk : Bool) : State :=
  if s.fabricFree core pa write then s
  else
    match s.fabricPort asid (endpointOf pa) bulk with
    | some x => { s with fab := s.fab.setLevel x.1 x.2 (s.fab.level x.1 x.2 - 1) }
    | none => s

/-- Whether an access is held for want of a key or a usable route (R320, R322). -/
def State.fabricStuck (s : State) (core asid pa : Nat) (write : Bool) : Bool :=
  !s.fabricFree core pa write && (s.fabricPort asid (endpointOf pa) false).isNone

/-- The partition that holds the bay of a slice. -/
def State.partOfBay (s : State) (b : Nat) : Nat := ((List.range 24).find? fun n => (s.part n).hasBay b).getD 24

/-- The port and the key entry of the write-back of a line of fabric memory by a slice (R315, R320): those of its bay's partition
(DEDUCED, log entry 16). -/
def State.backPort (s : State) (slice line : Nat) : Option (Nat × Nat) :=
  match s.partEntry (s.partOfBay (slice / 12)) with
  | none => none
  | some e => (s.portFor e (endpointOf (256 * line)) true).map (·, e)

/-- Whether a slice can write a dirty line back: to memory of the device, or by a message to its directory home (R310, R315, R320). -/
def State.backOk (s : State) (slice line : Nat) : Bool :=
  !inFabric (256 * line) ||
    match s.backPort slice line with
    | some x => s.canSend (endpointOf (256 * line)) x.1 x.2 true
    | none => false

/-- The message of such a write-back spends its token (R310). -/
def State.backSend (s : State) (slice line : Nat) : State :=
  if inFabric (256 * line) then
    match s.backPort slice line with
    | some x => { s with fab := s.fab.setLevel x.1 x.2 (s.fab.level x.1 x.2 - 1) }
    | none => s
  else s

/-- Queues a strict write of the device to a fabric address (R317); `bad` lists its poisoned words (R345). -/
def State.post (s : State) (addr : DWord) (key : Half) (data : List Byte) (bad : List Nat) : State :=
  let ep := endpointOf addr.toNat
  { s with
    nextId := s.nextId + 1
    fab := { s.fab with strict := s.fab.strict ++ [{
      dst := ep, key := key.toNat, port := s.strictPort ep key.toNat, seq := s.nextId, sent := false, lost := false
      msg := ⟨addr, key, data, bad⟩ }] } }

/-- Posts an interrupt of a context (R71): 4 bytes to IRQADDR under IRQKEY, unless IRQADDR is 0. -/
def State.interrupt (s : State) (asid kind low : Nat) : State :=
  match s.context? asid with
  | some x =>
    if x.irqaddr = 0 then s else s.post x.irqaddr x.irqkey (leBytes 4 (kind * 2 ^ 28 + low % 2 ^ 28)) []
  | none => s

/-- The bytes of a notice record (Table 20.6). -/
def Notice.bytes (n : Notice) : List Byte :=
  leBytes 1 n.kind ++ leBytes 1 n.port ++ leBytes 2 n.seq ++ leBytes 4 n.ep ++ leBytes 8 n.time.toNat ++
    leBytes 16 n.live.toNat

/-- Sends a notice to NADDR under NKEY (R325). -/
def State.sendNotice (s : State) (n : Notice) : State :=
  s.post s.fab.naddr (s.fab.nctl.truncate 16) n.bytes []

/-- A notice is written to the ring of the last 64 and sent if NEN = 1; with no port live it waits for the first live port
(R325). `port` is 0xFF but for KIND 1 and 2, `ep` the destination for KIND 4. -/
def State.notice (s : State) (kind port ep : Nat) : State :=
  let n : Notice := { kind := kind, port := port, seq := s.fab.nseq.toNat, ep := ep, time := s.ftime, live := s.fab.portLive }
  let ring := s.fab.nring ++ [n]
  let s := { s with fab := { s.fab with
    nseq := s.fab.nseq + 1, nhead := s.fab.nhead + 1, nring := ring.drop (ring.length - 64) } }
  if !s.fab.nctl.getLsbD 31 then s
  else if s.fab.portLive == 0 then { s with fab := { s.fab with unsent := s.fab.unsent ++ [n] } }
  else s.sendNotice n

end Sys2Proof.Machine
end

