-- ==== Sys2Proof/Machine/Cox.lean ====
section
/-! DEFINITION. The cox: seat records, page-out, page-in and Rebalance (R287 to R290, R298, R299).

A seat of the state holds σ, the buffers and the header of its cells as the device knows them; the record in memory is
written at launch, at a page-out and at the last exit of a seat. -/

namespace Sys2Proof.Machine

/-! ## Virtual memory as the device itself accesses it -/

/-- The places of bytes from a word-aligned virtual address up; bytes of a word that does not translate are left
out. -/
def State.devicePairs (s : State) (asid : Nat) : DWord → List Byte → List (Nat × Byte)
  | va, a :: b :: c :: d :: t =>
    (match s.devicePa asid va .write with
     | some pa => [(pa, a), (pa + 1, b), (pa + 2, c), (pa + 3, d)]
     | none => []) ++ s.devicePairs asid (va + 4) t
  | _, _ => []

/-- The core at whose bay the device itself reaches fabric memory for a context: the first of its partition (log entry 16). -/
def State.deviceCore (s : State) (asid : Nat) : Nat := (s.part (s.partOf asid)).coreNo 0

/-- Whether the device itself has no way to a place for a context: no key applies, or the route is unusable (R320, R322). -/
def State.deviceStuck (s : State) (asid pa : Nat) (write : Bool) : Bool := s.fabricStuck (s.deviceCore asid) asid pa write

/-- Writes that an unusable route has ended are dropped: their words are poisoned and their lines count as uncorrectable errors (R320). -/
def State.dropWrites (s : State) (ps : List (Nat × Byte)) : State :=
  ((wordsOf ps).foldl (fun s w => s.poison (4 * w) 4) s).countErrors (ps.map fun x => lineOf x.1).eraseDups.length

/-- The device writes bytes from a word-aligned virtual address up; what it has no way to is dropped at once (R320; log entry 16). -/
def State.deviceWrite (s : State) (asid : Nat) (va : DWord) (bs : List Byte) : State :=
  let ps := s.devicePairs asid va bs
  let gone := ps.filter fun x => s.deviceStuck asid x.1 true
  let t := s.homeWrite (s.deviceCore asid) (ps.filter fun x => !s.deviceStuck asid x.1 true)
  if gone.isEmpty then t else t.dropWrites gone

/-- Poisons listed words. -/
def State.devicePoisonAll (s : State) (asid : Nat) (vas : List DWord) : State :=
  vas.foldl (fun s va => match s.devicePa asid va .write with
    | some pa => s.poison pa 4
    | none => s) s

/-! ## Seat records (Table 16.6) -/

/-- σ of a seat: that of its live cells, which no exited cell exceeds. -/
def Seat.step (t : Seat) : Nat := [0, 1, 2, 3].foldl (fun m i => max m (sget 0 t.sigma i)) 0

/-- Whether a seat still holds a live cell. -/
def Seat.live (t : Seat) : Bool := t.exited != 0xF

/-- The lanes of seat `k` of a crew. -/
def seatLanes (k : Nat) : List Nat := (List.range 4).map (4 * k + ·)

/-- The header and the publish buffers of a record: its first 512 bytes (R287, Table 16.6). -/
def Seat.bytes (t : Seat) : List Byte :=
  let state := t.exited.toNat + (if t.resident then 16 else 0) + (if t.done then 32 else 0)
  let nc := [0, 1, 2, 3].flatMap fun i => [sget 0 t.nc i]
  let buf (b : SMap Word) := (List.range 32).flatMap fun k => leBytes 4 (sget 0 b k).toNat
  leBytes 8 t.step ++ leBytes 4 state ++ nc ++ leBytes 8 t.rpc.toNat ++
    leBytes 4 (16 * t.cb.toNat + 256 * t.ad) ++ leBytes 4 t.flags.toNat ++ List.replicate 224 0 ++
    buf t.buf0 ++ buf t.buf1

/-- Writes the header and the buffers of a seat's record; poison goes with its words (R345). -/
def State.writeSeat (s : State) (l : Launch) (index : Nat) : State :=
  match s.seat? l.lid index with
  | some t =>
    (s.deviceWrite l.asid (l.record.recordAt index) t.bytes).devicePoisonAll l.asid (t.bad.map (l.record.bufferAt index))
  | none => s

/-- Writes the STATE word of a seat's record (RES, R288). -/
def State.writeSeatState (s : State) (l : Launch) (index : Nat) : State :=
  match s.seat? l.lid index with
  | some t => s.deviceWrite l.asid (l.record.recordAt index + 8) ((t.bytes.drop 8).take 4)
  | none => s

/-- The address of a cell's absolute register in its record. -/
def LRec.registerAt (r : LRec) (index a i : Nat) : DWord :=
  r.recordAt index + BitVec.ofNat 64 (512 + 16 * a + 4 * i)

/-- The record of a seat at launch (R298), with the seat as the device then holds it. -/
def State.initSeat (s : State) (l : Launch) (index : Nat) : State :=
  let r := l.record
  let buf := (List.range 32).foldl (fun b k =>
    if r.pub.getLsbD (k / 4) then sset 0 b k (s.deviceWord l.asid (r.registerAt index (k / 4) (k % 4)))
    else b) ([] : SMap Word)
  let bad := (List.range 32).filter fun k =>
    r.pub.getLsbD (k / 4) && s.devicePoison l.asid (r.registerAt index (k / 4) (k % 4))
  let t : Seat := {
    lid := l.lid, index := index, sigma := [], done := false, rpc := r.entry, ad := 0, nc := [], cb := 0
    flags := 0, buf0 := buf, buf1 := [], exited := 0, resident := false
    kept := (List.range 32).foldl (fun m k => sset 0 m k (s.deviceWord l.asid (r.registerAt index (k / 4) (k % 4)))) []
    bad := bad }
  let s := { s with seats := s.seats ++ [t] }
  (s.writeSeat l index).deviceWrite l.asid (r.registerAt index 8 0)
    (List.replicate (16 * (r.frame - 8)) 0)

/-! ## Page-out and page-in (R288) -/

/-- The one split of a host. -/
def Crew.only? (c : Crew) : Option Split := c.splits.head?

/-- Whether the cox has yet to take an event of a host (R289). -/
def State.eventOf (s : State) (lid slot : Nat) : Bool :=
  match s.launch? lid with
  | some l => l.events.contains slot
  | none => false

/-- Whether a host has completed a STEP in the present cycle, the cox having taken this event (R288, R289). -/
def State.stepped (s : State) (lid : Nat) (h : HostInfo) : Bool := h.stepAt == some s.cycle && !s.eventOf lid h.slot

/-- Whether a host stands at an evictable state: parked at STEP, or in the cycle in which it completes one (R288). In
handler mode it is not at one (R292). -/
def State.evictable (s : State) (c : Crew) : Bool :=
  match c.host, c.only? with
  | some h, some p => !p.inHandler && (p.status == .stepWait || s.stepped c.lid h)
  | _, _ => false

/-- A host's event reaches the cox, which takes it at the end of the cycle (R289). -/
def State.coxEvent (s : State) (c : Crew) : State :=
  match c.host with
  | some h => s.modLaunch c.lid fun l => { l with events := if l.events.contains h.slot then l.events else l.events ++ [h.slot] }
  | none => s

/-- A host has completed a STEP (R289). While its context is on its way out, or its core is being retired, every seat of it is to go, and
it issues nothing else (R288, R293, R372). -/
def State.stepEvent (s : State) (c : Crew) : State :=
  if (match s.context? c.asid with | some x => x.switching | none => false) || s.svc.retiring.contains c.core then
    s.modCrew c.cid fun k => { k with host := match k.host with | some h => some { h with out := true } | none => none }
  else s.coxEvent c

/-- Whether a page-out of a host may be made: its shell operations have taken effect, its accesses are done (log
entry 24), and for its last seat its engine commands have completed (R288). -/
def State.pageOutReady (s : State) (c : Crew) : Bool :=
  (s.shreqs.all fun q => q.cid != c.cid) && c.loads.isEmpty && (s.adds.all fun q => q.cid != c.cid) &&
  (c.splits.all fun p => p.stores.isEmpty) && (s.regs.all fun q => q.cid != c.cid) && (s.held.all fun q => q.cid != c.cid) &&
  (match c.host with
   | some h => decide (1 < h.seats.length) ||
       ((s.copies.all fun q => !(q.lid == c.lid && q.team == c.team)) &&
        s.mats.all fun q => !(q.lid == c.lid && q.team == c.team))
   | none => true)

/-- The tiles of a field's team on a core are free once no host of it is left there and its matrix commands are complete (R68, R117). A
page-out of the last host releases them too (DESIGN CHOICE, log entry 24: R117 names retirement and pre-emption). -/
def State.freeHostTiles (s : State) (core lid team : Nat) : State :=
  let field := match s.launch? lid with | some l => l.isField | none => false
  if !field || (s.crews.any fun c => c.core == core && c.lid == lid && c.team == team) ||
      s.mats.any fun q => q.core == core && q.lid == lid && q.team == team then s
  else { s with tiles := s.tiles.filter fun t => !(t.core == core && t.lid == lid && t.team == team) }

/-- Takes the seat `k` out of its host: its lanes are absent from now on; a host without seats frees its slot, which is an event for the
cox (R289), and its tiles. Its store-fault records stand until the field retires (R335; log entry 40). -/
def State.dropSeat (s : State) (c : Crew) (k : Nat) : State :=
  let m := laneMask (seatLanes k)
  let s := s.modCrew c.cid fun c => { c with
    host := match c.host with
      | some h => some { h with seats := h.seats.filter (· != k), leaving := none }
      | none => none
    absent := c.absent ||| m, exited := c.exited &&& ~~~m
    splits := c.splits.map fun p => { p with mask := p.mask &&& ~~~m } }
  match s.crew? c.cid with
  | some d =>
    (match d.host with
     | some h =>
       if h.seats.isEmpty then
         let s := (s.loseLandings d.cid none).coxEvent d
         State.freeHostTiles { s with
           crews := s.crews.filter (·.cid != d.cid)
           age := s.age.filter (·.1 != d.cid)
           woke := s.woke.filter (·.1 != d.cid) } d.core d.lid d.team
       else s
     | none => s)
  | none => s

/-! ## The spill area (R29, R30) -/

/-- The virtual address of a granule in the spill area (R30). -/
def Crew.granuleAt (c : Crew) (g : Nat) : DWord := c.spillBase + BitVec.ofNat 64 (4096 * g)

/-- The bytes of a granule as it stands in the spill area: absolute index i of lane l at 128 · i + 4 · l (R30), that is
the register of key k at 4 · k. -/
def Crew.granuleBytes (c : Crew) (g : Nat) : List Byte :=
  (List.range 1024).flatMap fun j => leBytes 4 (sget 0 c.vregs (1024 * g + j)).toNat

/-- A granule is written to its place; the poison of a register goes with its word (R30, R345). -/
def State.spillOut (s : State) (c : Crew) (g pa : Nat) : State :=
  let s := s.homeWrite c.core (List.zip ((List.range 4096).map (pa + ·)) (c.granuleBytes g))
  let s := (c.vpoison.filter fun k => k / 1024 == g).foldl (fun s k => s.poison (pa + 4 * (k % 1024)) 4) s
  s.modCrew c.cid fun k => { k with spilled := if k.spilled.contains g then k.spilled else k.spilled ++ [g] }

/-- A granule comes back from its place: each register holds what was written, poison included, or a free value where a
program has overwritten its word (R30; log entry 11). -/
def State.spillIn (s : State) (c : Crew) (g pa : Nat) : State :=
  let js := List.range 1024
  let bad := (js.filter fun j => s.poisoned (pa + 4 * j) 4).map (1024 * g + ·)
  let lost := js.filter fun j => s.readNat (pa + 4 * j) 4 != (sget 0 c.vregs (1024 * g + j)).toNat
  let s := s.modCrew c.cid fun k => { k with
    vpoison := (k.vpoison.filter fun x => x / 1024 != g) ++ bad
    vregs := lost.foldl (fun m j => sset 0 m (1024 * g + j) (Config.freeStored [0, c.cid, 1024 * g + j, s.free])) k.vregs }
  if lost.isEmpty then s else s.bumpFree

/-- Registers of granules that stand in the spill area only are written there (R29): a value that reaches such a register keeps
its place. -/
def State.spillSync (s : State) (cid : Nat) (idxs : List Nat) : State :=
  match s.crew? cid with
  | none => s
  | some c =>
    (idxs.filter fun i => !c.resident.contains (i / 32) && c.spilled.contains (i / 32)).foldl (fun s i =>
      (s.deviceWrite c.asid (c.spillBase + BitVec.ofNat 64 (128 * i)) (lanes.flatMap fun l => leBytes 4 (c.vAbs l i).toNat)).devicePoisonAll
        c.asid ((lanes.filter fun l => c.vpoison.contains (32 * i + l)).map fun l =>
          c.spillBase + BitVec.ofNat 64 (128 * i + 4 * l))) s

/-- A host's granules that stand in its spill area only, as a page-out takes them from there (R288). -/
def State.unspill (s : State) (c : Crew) : State :=
  (c.spilled.filter fun g => !c.resident.contains g && decide (32 * g < c.frame)).foldl (fun s g =>
    match s.devicePa c.asid (c.granuleAt g) .read with
    | some pa => s.spillIn c g pa
    | none => s) s

/-- NC of the cells of a seat as they stand in lanes 4k on: an exited cell keeps that of its exit (R299). -/
def Seat.ncWith (t : Seat) (c : Crew) (k : Nat) : SMap (BitVec 8) :=
  (List.range 4).foldl (fun m i => if t.exited.getLsbD i then m else sset 0 m i (sget 0 c.nc (4 * k + i))) t.nc

/-- The page-out of seat `k` of a host (R288): the record takes the registers, the buffers and the header. -/
def State.pageOut (s : State) (l : Launch) (c : Crew) (k : Nat) : State :=
  let s := (s.loseLandings c.cid none).unspill c
  let c := (s.crew? c.cid).getD c
  let index := 8 * c.team + k
  let pc := match c.only? with | some p => p.pc | none => 0
  let ad := match c.only? with | some p => p.ad | none => 0
  let s := s.modSeat l.lid index fun t => { t with
    rpc := pc, ad := ad, nc := t.ncWith c k, cb := (c.cb >>> (4 * k)).truncate 4, flags := c.fpflags
    resident := false
    kept := (List.range (4 * l.record.frame)).foldl (fun m x => sset 0 m x (c.vAbs (4 * k + x % 4) (x / 4))) [] }
  let regs := (List.range l.record.frame).flatMap fun a => (seatLanes k).flatMap fun n =>
    leBytes 4 (c.vAbs n a).toNat
  let s := (s.writeSeat l index).deviceWrite l.asid (l.record.registerAt index 0 0) regs
  let bad := (c.vpoison.filter fun x => (seatLanes k).contains (x % 32)).map fun x =>
    l.record.registerAt index (x / 32) (x % 4)
  (s.devicePoisonAll l.asid bad).dropSeat c k

/-- A seat as its record gives it back: as the device wrote it, or with free values for what the header and the buffers hold
of its cells where a program has overwritten those (R287; log entry 11). -/
def State.recalled (s : State) (l : Launch) (t : Seat) : Seat :=
  let bs := t.bytes
  let same := (List.range 128).all fun k =>
    s.deviceWord l.asid (l.record.recordAt t.index + BitVec.ofNat 64 (4 * k)) ==
      BitVec.ofNat 32 (leNat ((bs.drop (4 * k)).take 4))
  let t := { t with bad := (List.range 64).filter fun k => s.devicePoison l.asid (l.record.bufferAt t.index k) }
  if same then t
  else
    let v (k : Nat) : Word := Config.freeStored [1, l.lid, t.index, k, s.free]
    let buf (b : Nat) : SMap Word := (List.range 32).foldl (fun m k => sset 0 m k (v (64 + 32 * b + k))) []
    { t with
      rpc := v 5 ++ v 4, ad := (v 6).toNat % 256, cb := (v 7).truncate 4, flags := (v 8).truncate 5
      nc := (List.range 4).foldl (fun m i => sset 0 m i ((v i).truncate 8)) [], buf0 := buf 0, buf1 := buf 1 }

/-- A register of a cell as its record gives it back: as the device wrote it, or a free value where a program has
overwritten it (R287; log entry 11). -/
def State.recalledReg (s : State) (l : Launch) (t : Seat) (a i : Nat) : Word :=
  let w := s.deviceWord l.asid (l.record.registerAt t.index a i)
  if w = sget 0 t.kept (4 * a + i) then w else Config.freeStored [1, l.lid, t.index, 128 + 4 * a + i, s.free]

/-- Loads the registers, NC and CB of a seat into a host (R288); what the host keeps in its spill area takes them too (R29). -/
def State.loadSeat (s : State) (l : Launch) (cid : Nat) (t : Seat) : State :=
  let k := t.index % 8
  let live := (List.range 4).filter fun i => !t.exited.getLsbD i
  let m := laneMask (live.map (4 * k + ·))
  let all := laneMask (seatLanes k)
  let words := (List.range l.record.frame).flatMap fun a => (List.range 4).map fun i => (a, i)
  let s := s.modCrew cid fun c =>
    let c := words.foldl (fun c w =>
      c.setAbs (4 * k + w.2) w.1 (s.recalledReg l t w.1 w.2)) c
    let bad := (words.filter fun w => s.devicePoison l.asid (l.record.registerAt t.index w.1 w.2)).map fun w =>
      32 * w.1 + 4 * k + w.2
    let c := (List.range 4).foldl (fun c i => c.setNc (4 * k + i) (sget 0 t.nc i).toNat) c
    { c with
      vpoison := c.vpoison ++ bad
      cb := (c.cb &&& ~~~all) ||| (t.cb.zeroExtend 32 <<< (4 * k))
      marks := c.marks.filter fun e => !all.getLsbD e.1
      exited := (c.exited &&& ~~~all) ||| (all &&& ~~~m)
      absent := c.absent &&& ~~~all
      fpflags := c.fpflags ||| t.flags
      host := match c.host with
        | some h => some { h with seats := (List.range 8).filter fun i => h.seats.contains i || i == k }
        | none => none
      splits := c.splits.map fun p => { p with mask := p.mask ||| m } }
  let s := s.spillSync cid (List.range l.record.frame)
  let s := s.modSeat l.lid t.index fun u => { u with resident := true, buf0 := t.buf0, buf1 := t.buf1, bad := t.bad }
  s.bumpFree.writeSeatState l t.index

/-! ## New crews (R27, R70, R267) -/

/-- A split at an address with no construct open. Its crew's placement gives it a split-table entry. -/
def newSplit (sid : Nat) (mask : BitVec 32) (pc : DWord) (mark : MarkRec) : Split :=
  { sid := sid, entry := 0, anc := [], fence := none, acqAt := 0, mask := mask, pc := pc, ad := 0, stack := [], fb := none, handler := none, tcause := 0
    trappc := 0, taddr := 0, taux := 0, mark := mark, recipe := false, status := .ready, shadow := 0
    stores := [], due := [], tried := false, waits := none, muted := false }

/-- The mark record of a split at crew launch (R348). -/
def launchMark (pc : DWord) (mask : BitVec 32) (seq : Nat) : MarkRec :=
  { pc := pc, wb := 0, depth := 0, lpin := [], upin := [], recipe := 0, mask := mask
    ctl := ⟨[], 0, [], 0, [], none⟩, fpmode := 0, cpol := 0, seq := seq }

/-- A crew of a launch as it begins (R27, R267): registers zero but s0 = ARGS, one split of every lane at ENTRY.
`slot` numbers its spill area (R61). -/
def newCrew (l : Launch) (cid team crewNo core row slot : Nat) : Crew :=
  let r := l.record
  { cid := cid, lid := l.lid, team := team, crewNo := crewNo, asid := l.asid, core := core, row := row
    frame := r.frame, spillBase := r.spillBase + BitVec.ofNat 64 (r.spillSz * slot), spillSize := r.spillSz
    args := r.args, vregs := [], sregs := sset 0 [] 0 r.args, nc := [], cb := 0, marks := [], exited := 0
    absent := 0, fpmode := 0, fpflags := 0, raised := 0, cpol := 0, wb := 0, depth := 0
    resident := List.range ((min 128 (r.frame - 32) + 31) / 32), spilled := [], resv := [], joins := []
    splits := [newSplit 0 (BitVec.allOnes 32) r.entry (launchMark r.entry (BitVec.allOnes 32) cid)]
    loads := [], host := none, vpoison := [], spoison := [] }

/-- The split-table entries in use in a row (R253). -/
def State.entriesOf (s : State) (core row : Nat) : List Nat :=
  (s.crews.filter fun c => c.core == core && c.row == row).flatMap fun c => c.splits.map (·.entry)

/-- The lowest number that a list does not hold, searched below `fuel`. -/
def lowestFree (used : List Nat) : Nat → Nat
  | 0 => 0
  | k + 1 => if (List.range k).all used.contains then k else lowestFree used k

/-- Gives splits the lowest free entries of a split table (R253). -/
def giveEntries : List Nat → List Split → List Split
  | _, [] => []
  | used, p :: rest =>
    let n := lowestFree used (used.length + 1)
    { p with entry := n } :: giveEntries (n :: used) rest

/-- Adds a crew: its splits take entries of its row and enter the age order as the youngest (R253, R269), and its start is an
acquire at device scope on its core (R65, R204). -/
def State.addCrew (s : State) (c : Crew) : State :=
  let c := { c with splits := giveEntries (s.entriesOf c.core c.row) c.splits }
  State.acquire (State.enter { s with crews := s.crews ++ [c] }
    ((c.splits.filter fun p => p.status == .ready).map fun p => (c.cid, p.sid))) c.core .dev

/-! ## Rebalance (R289) -/

/-- The host that a seat joins at a page-in (R288). In whole mode a host that has not yet issued takes the other seats
of its crew too (R281, R293). -/
def State.hostFor (s : State) (l : Launch) (t : Seat) : Option Crew :=
  s.crews.find? fun c => c.lid == l.lid && c.team == t.index / 8 &&
    (match c.host, c.only? with
     | some h, some p =>
       h.leaving.isNone && !h.out && !p.inHandler && p.pc == t.rpc && p.ad == t.ad &&
       ((l.record.whole && !h.issued) || if t.done then s.stepped c.lid h else p.status == .stepWait) &&
       h.seats.all fun k =>
         match s.seat? l.lid (8 * c.team + k) with
         | some u => u.step == t.step
         | none => true
     | _, _ => false)

/-- The lowest free host slot for a seat: in whole mode the slot of its crew (R281, R288). -/
def State.freeSlot (s : State) (l : Launch) (t : Seat) : Option (Nat × Nat × Nat) :=
  l.slots.find? fun e => (!l.record.whole || e.1 == t.index / 8) &&
    !s.svc.retiring.contains e.2.1 && !s.svc.fenced.contains e.2.1 &&
    s.crews.all fun c => !(c.lid == l.lid && (match c.host with | some h => h.slot == e.1 | none => false))

/-- The page-in of a seat (R288). Its core takes an acquire, so that what its cells have seen on another core is not read older
(R200, R206). -/
def State.pageIn (s : State) (l : Launch) (t : Seat) : State :=
  let t := s.recalled l t
  match s.hostFor l t with
  | some c => (s.loadSeat l c.cid t).acquire c.core .dev
  | none =>
    match s.freeSlot l t with
    | none => s
    | some (slot, core, row) =>
      let c := newCrew l s.nextId (t.index / 8) 0 core row slot
      let c := { c with
        absent := BitVec.allOnes 32
        host := some ⟨slot, [], none, false, none, false⟩
        splits := c.splits.map fun p => { p with mask := 0, pc := t.rpc, ad := t.ad } }
      (s.bumpId.addCrew c).loadSeat l s.nextId t

/-- Whether one seat comes before another in the order of R289. -/
def seatBefore (a b : Seat) : Bool :=
  decide (a.step < b.step) || (a.step == b.step && decide (a.index < b.index))

/-- The least seat of a list in the order of R289. -/
def firstSeat : List Seat → Option Seat
  | [] => none
  | t :: rest =>
    match firstSeat rest with
    | none => some t
    | some u => if seatBefore u t then some u else some t

/-- The greatest seat of a list in the order of R289. -/
def lastSeat : List Seat → Option Seat
  | [] => none
  | t :: rest =>
    match lastSeat rest with
    | none => some t
    | some u => if seatBefore t u then some u else some t

/-- The host that holds a seat. -/
def State.hostOf (s : State) (lid index : Nat) : Option Crew :=
  s.crews.find? fun c => c.lid == lid && c.team == index / 8 &&
    (match c.host with | some h => h.seats.contains (index % 8) | none => false)

/-- The resident seats of a field that stand at an evictable state. -/
def State.evictableSeats (s : State) (lid : Nat) : List Seat :=
  s.seats.filter fun t => t.lid == lid && t.resident &&
    (match s.hostOf lid t.index with | some c => s.evictable c | none => false)

/-- Whether a page-out of the field that the cox has chosen is still to be made. -/
def State.leaving (s : State) (lid : Nat) : Bool :=
  s.crews.any fun c => c.lid == lid &&
    (match c.host with | some h => h.leaving.isSome | none => false)

/-- Whether the cox of a field works: it is placed, and its context is neither switched out nor on the way
(R293). -/
def State.coxRuns (s : State) (l : Launch) : Bool :=
  l.isField && l.phase == .placed &&
  (match s.context? l.asid with | some x => x.resident && !x.switching | none => false)

/-- The rounds of Rebalance (R289). A slot of a core that is fenced or being retired is no free one (R372). A seat that must leave
is marked; its page-out follows as soon as what it waits for is over (`execPageOut`), and Rebalance goes on from there. -/
def State.rebalanceN (l : Launch) : Nat → State → State
  | 0, s => s
  | n + 1, s =>
    if s.leaving l.lid then s
    else
      let mine := s.seats.filter (·.lid == l.lid)
      match firstSeat (mine.filter fun t => t.live && !t.resident) with
      | none => s
      | some w =>
        let room := (s.hostFor l w).isSome || (s.freeSlot l w).isSome
        if room && (decide ((mine.filter (·.resident)).length < l.record.seatq) || l.record.whole) then
          State.rebalanceN l n (s.pageIn l w)
        else if l.record.whole then s
        else
          match lastSeat (s.evictableSeats l.lid) with
          | none => s
          | some v =>
            if seatBefore w v then
              match s.hostOf l.lid v.index with
              | some c => s.modCrew c.cid fun c => { c with
                  host := match c.host with
                    | some h => some { h with leaving := some (v.index % 8) }
                    | none => none }
              | none => s
            else s

/-- Rebalance of a field (R289). -/
def State.rebalance (s : State) (lid : Nat) : State :=
  match s.launch? lid with
  | some l => if s.coxRuns l then State.rebalanceN l (s.seats.length + 1) s else s
  | none => s

/-- The host in a slot of a field whose STEP the cox takes note of in this cycle. -/
def State.noteStep (s : State) (lid slot : Nat) : State :=
  { s with crews := s.crews.map fun c =>
      match c.host with
      | some h => if c.lid == lid && h.slot == slot && h.stepAt.isSome then
          { c with host := some { h with stepAt := some s.cycle } } else c
      | none => c }

/-- The cox takes the events of a field in ascending host slot order, each with a Rebalance (R289); while a page-out is still to be
made the later ones wait. -/
def State.takeEvents (lid : Nat) : Nat → State → State
  | 0, s => s
  | n + 1, s =>
    match s.launch? lid with
    | none => s
    | some l =>
      match l.events with
      | [] => s
      | e :: rest =>
        if s.leaving lid then s
        else
          let first := rest.foldl min e
          let t := s.modLaunch lid fun l => { l with events := l.events.filter (· != first) }
          State.takeEvents lid n ((t.noteStep lid first).rebalance lid)

/-- The events of the cycle reach the cox of every field that runs (R289). -/
def State.coxPass (s : State) : State :=
  s.launches.foldl (fun s l => if s.coxRuns l then State.takeEvents l.lid l.events.length s else s) s

/-! ## Exits (R286, R299) -/

/-- The last cell of a resident seat has exited: the record is written and the seat leaves its host (R299). -/
def State.seatExit (s : State) (l : Launch) (cid k : Nat) (pc : DWord) : State :=
  match s.crew? cid with
  | none => s
  | some c =>
    let index := 8 * c.team + k
    let s := s.modSeat l.lid index fun t => { t with
      done := false, rpc := pc, ad := 0, cb := 0, flags := c.fpflags, resident := false }
    (s.writeSeat l index).dropSeat c k

/-- Whether every cell of every part of a field has exited (R286, R291). -/
def State.fieldOver (s : State) (l : Launch) : Bool :=
  (s.seats.all fun t => t.lid != l.lid || t.exited == 0xF) &&
  (s.remote.filter fun t => t.lid == l.lid && t.exited).length ==
    l.record.xext * l.record.yext - l.record.lx * l.record.ly

/-- A field all of whose cells have exited is draining and holds no crew slot (R264). -/
def State.drainField (s : State) (lid : Nat) : State :=
  match s.launch? lid with
  | some l =>
    if l.isField && l.phase == .placed && s.fieldOver l then
      s.modLaunch lid fun l => { l with phase := .draining, slots := [] }
    else s
  | none => s

/-- The cells in the lanes of a mask exit at the instruction at `pc`, each with its NC of that moment (R286, R299), which is an event
for the cox (R289). -/
def State.exitCells (s : State) (c : Crew) (m : BitVec 32) (pc : DWord) : State :=
  match s.launch? c.lid with
  | none => s
  | some l =>
    if !l.isField then s
    else
      let s := (maskLanes m).foldl (fun s n => s.modSeat c.lid (8 * c.team + n / 4) fun t =>
        { t with exited := t.exited ||| (1#4 <<< (n % 4)), nc := sset 0 t.nc (n % 4) (sget 0 c.nc n) }) s
      let seats := match c.host with | some h => h.seats | none => []
      let gone := seats.filter fun k =>
        match s.seat? c.lid (8 * c.team + k) with
        | some t => t.exited == 0xF
        | none => false
      ((gone.foldl (fun s k => s.seatExit l c.cid k pc) s).coxEvent c).drainField c.lid

end Sys2Proof.Machine
end

