-- ==== Sys2Proof/Machine/Ops.lean ====
section
/-! DEFINITION. The named operations over crews, splits and registers, and taking a trap (R329) with the
return from it (R333).

A split's instruction is modelled by a body: from the crew and the split as the instruction reads them
and the state, it gives the next state, a trap, or a wait. `issue` runs a body. -/

namespace Sys2Proof.Machine

/-- Why an instruction does not complete when it is tried: a trap, a wait (the split tries again
later), a wait to read or write a place of memory (R309, R310, R320), or a wait for the listed neighbour operands (R284). -/
inductive Stop where
  | trap (t : Trap)
  | wait
  | held (pa : Nat) (write : Bool)
  | nbr (ops : List (Nat × Nat))
  deriving DecidableEq, Repr

/-- The answer of an instruction's body. -/
abbrev Res := Except Stop State

/-- Goes on where the condition holds, else raises a trap. -/
def need (b : Bool) (t : Trap) : Except Stop Unit := if b then .ok () else .error (.trap t)

/-- Goes on where the condition holds, else waits. -/
def await (b : Bool) : Except Stop Unit := if b then .ok () else .error .wait

/-- Goes on where the condition holds, else waits to reach a place of memory. -/
def reachable (b : Bool) (pa : Nat) (write : Bool) : Except Stop Unit := if b then .ok () else .error (.held pa write)

/-- Raises a trap where there is one. -/
def raiseIf (t : Option Trap) : Except Stop Unit :=
  match t with
  | some t => .error (.trap t)
  | none => .ok ()

/-! ## Marks (R348, R351) -/

def maskMap {α : Type} (m : BitVec 32) (t : SMap α) : SMap α := t.filter fun e => m.getLsbD e.1

/-- The control state of a split (Table 14.1). -/
def ctlOf (c : Crew) (p : Split) : Ctl :=
  { nc := maskMap p.mask c.nc, cb := c.cb &&& p.mask, mark := maskMap p.mask c.marks, ad := p.ad,
    stack := p.stack, fb := p.fb }

/-- Puts the NC, CB and MARK of the lanes of a mask back. -/
def Crew.putCtl (c : Crew) (m : BitVec 32) (k : Ctl) : Crew :=
  let put (d new : SMap (BitVec 8)) : SMap (BitVec 8) :=
    (maskLanes m).foldl (fun t l => sset 0 t l (sget 0 new l)) d
  { c with nc := put c.nc k.nc, marks := put c.marks k.mark, cb := (c.cb &&& ~~~m) ||| (k.cb &&& m) }

/-- The mark record of a split as it stands (R348), with the pins and the recipe of its record. -/
def markNow (c : Crew) (p : Split) (seq : Nat) : MarkRec :=
  { pc := p.pc, wb := c.wb, depth := c.depth, lpin := p.mark.lpin, upin := p.mark.upin,
    recipe := p.mark.recipe, mask := p.mask, ctl := ctlOf c p, fpmode := c.fpmode, cpol := c.cpol,
    seq := seq }

/-- Takes a mark in a split outside recipe mode (R351, R354), as the instruction issues; `f` sets its pins
and recipe. -/
def State.takeMark (s : State) (cid sid : Nat) (f : MarkRec → MarkRec) : State :=
  (s.modCrew cid fun c => c.modSplit sid fun p =>
    if p.recipe then p else { p with mark := f (markNow c p s.nextId) }).bumpId

/-- Takes the mark of an instruction that returns a value, to be completed as the value is written: `seq` names the instruction (R351;
log entry 56). -/
def State.markFor (s : State) (cid sid seq : Nat) : State := s.takeMark cid sid fun m => { m with seq := seq }

/-- The value of an instruction has been written: its mark, while it is its split's last, is taken now (R351). -/
def State.landMark (s : State) (cid sid seq : Nat) : State :=
  (s.modCrew cid fun c => c.modSplit sid fun p =>
    if p.mark.seq == seq then { p with mark := { p.mark with fpmode := c.fpmode, cpol := c.cpol, seq := s.nextId } }
    else p).bumpId

/-! ## Waiting for registers (R160) -/

/-- Whether data for a lane register, by absolute index, is still to arrive. -/
def State.laneBusy (s : State) (c : Crew) (idx : Nat) : Bool :=
  (c.loads.any fun q => !q.uniform && decide (q.dst ≤ idx) && decide (idx < q.dst + q.regs)) ||
  (s.adds.any fun q => q.cid == c.cid &&
    match q.ret with
    | some r => decide (r.dst ≤ idx) &&
        decide (idx < r.dst + (if r.wseq then 2 * r.group else r.group))
    | none => false)

/-- Whether an operation returns a value to S(D) (R230, R231). -/
def ShOp.returns : ShOp → Bool
  | .getW => true
  | .rmw _ _ _ => true
  | _ => false

/-- Whether data for a uniform register is still to arrive. -/
def State.uniBusy (s : State) (c : Crew) (n : Nat) : Bool :=
  (c.loads.any fun q => q.uniform && q.dst == n) ||
  (s.shreqs.any fun q => q.cid == c.cid && q.op.returns && q.dst == n)

/-- Whether data for a lane register, by absolute index, is still to arrive from an access that precedes what a split does next: a
later instruction of the split does not write the register before them (DEDUCED, log entry 55). -/
def State.laneOwed (s : State) (c : Crew) (p : Split) (idx : Nat) : Bool :=
  (c.loads.any fun q => !q.uniform && p.follows q.sid q.seq && decide (q.dst ≤ idx) && decide (idx < q.dst + q.regs)) ||
  (s.adds.any fun q => q.cid == c.cid && p.follows q.sid q.seq &&
    match q.ret with
    | some r => decide (r.dst ≤ idx) &&
        decide (idx < r.dst + (if r.wseq then 2 * r.group else r.group))
    | none => false)

/-- Whether data for a uniform register is still to arrive from an access that precedes what a split does next: a later instruction
of the split does not write the register before them (DEDUCED, log entry 55). -/
def State.uniOwed (s : State) (c : Crew) (p : Split) (n : Nat) : Bool :=
  (c.loads.any fun q => q.uniform && q.dst == n && p.follows q.sid q.seq) ||
  (s.shreqs.any fun q => q.cid == c.cid && q.op.returns && q.dst == n && p.follows q.sid q.seq)

/-! ## The store path, releases and due traps (R331, R334 to R336) -/

/-- The store-fault records of a crew, oldest first. -/
def State.faultsOf (s : State) (cid : Nat) : List FaultRec := s.faultq.filter (·.cid == cid)

/-- STFAULT of a crew at a split (Tables 21.1 and 21.3): of its oldest record and the count of its records, of which the field holds
at most 64; of the fault that made it due, `t`, where no record is left (log entry 12). -/
def State.stFault (s : State) (cid : Nat) (pc : DWord) (t : Trap) : Trap :=
  match s.faultsOf cid with
  | [] => { t with pc := pc }
  | r :: rest => ⟨.stfault, pc, r.va, .ofNat 64 (r.reason + 256 * min 64 (1 + rest.length))⟩

/-- From which identifier on a cause counts: in handler mode only what the handler itself has caused (R331). -/
def Split.since (p : Split) : Nat :=
  match p.handler with
  | some h => h.since
  | none => 0

/-- The due trap of the oldest cause in a list. -/
def oldestDue (ds : List (Nat × Trap)) : Option (Nat × Trap) :=
  ds.foldl (fun b d =>
    match b with
    | none => some d
    | some e => if d.1 < e.1 then some d else b) none

/-- The boundary trap that a split takes first, with the entry of its due list (R331): store faults and store checks in the
order of their stores, then SHOVERSTAY, then POISON of a load. -/
def State.dueTrap (s : State) (cid : Nat) (p : Split) : Option (Trap × (Nat × Trap)) :=
  let now := p.due.filter fun d => decide (p.since ≤ d.1)
  let first : Option (Nat × Trap) :=
    match oldestDue (now.filter fun d => d.2.cause != .shoverstay && d.2.cause != .poison) with
    | some d => some d
    | none =>
      match oldestDue (now.filter (·.2.cause == .shoverstay)) with
      | some d => some d
      | none => oldestDue now
  first.map fun d =>
    (if d.2.cause == .stfault then s.stFault cid p.pc d.2 else if d.2.cause == .poison then d.2 else { d.2 with pc := p.pc }, d)

/-- Whether every store of a split has translated (R337). -/
def Split.drained (p : Split) : Bool := p.stores.isEmpty

/-- Whether every store that precedes what a split does next has translated (R336). -/
def State.drainedFor (_ : State) (c : Crew) (p : Split) : Bool :=
  c.splits.all fun r => r.stores.all fun q => !p.follows q.sid q.seq

/-- Whether no access that precedes what a split does next is under way: an untranslated store, a load, a write on its way, an
atomic or a reduction. -/
def State.splitQuiet (s : State) (c : Crew) (p : Split) : Bool :=
  (c.splits.all fun r => r.stores.all fun q => !p.follows q.sid q.seq) &&
  (s.regs.all fun q => !(q.cid == c.cid && p.follows q.sid q.seq)) &&
  (s.held.all fun q => !(q.cid == c.cid && p.follows q.sid q.seq)) &&
  (s.adds.all fun q => !(q.job.isNone && q.cid == c.cid && p.follows q.sid q.seq)) &&
  c.loads.all fun q => !p.follows q.sid q.seq

/-- Whether the accesses of a crew for which `f` holds, by their split and their identifier, are performed at a scope for a
release at identifier `seq` (R166, R205): its stores have translated and its loads returned; at team scope the writes
stand in the core's L1 or in scratchpad, at a wider scope every registration that the core sent for its context before is
acknowledged. The registrations of its engine commands are acknowledged at every scope (R210). -/
def State.doneBefore (s : State) (core asid cid : Nat) (f : Nat → Nat → Bool) (seq : Nat) (scope : Scope) : Bool :=
  (match s.crew? cid with
   | some c => (c.splits.all fun r => r.stores.all fun q => !f q.sid q.seq) && c.loads.all fun q => !f q.sid q.seq
   | none => true) &&
  (s.held.all fun q => !(q.cid == cid && f q.sid q.seq)) &&
  (s.adds.all fun q => !(q.job.isNone && q.cid == cid && f q.sid q.seq)) &&
  (s.copies.all fun q => q.registered || !(q.cid == cid && f q.sid q.seq)) &&
  match scope with
  | .team => s.regs.all fun q => q.inL1 || !(q.cid == cid && f q.sid q.seq)
  | _ => (s.regs.all fun q => !(q.core == core && q.asid == asid && decide (q.seq < seq))) &&
      (s.adds.all fun q => q.job.isSome || !(q.core == core && q.asid == asid && decide (q.seq < seq))) &&
      (s.acks.all fun q => !(q.1 == core && q.2 == asid)) &&
      s.copies.all fun q => q.registered || !(q.core == core && q.asid == asid && decide (q.seq < seq))

/-- Whether a release of a split at a scope can be made now (R166, R205). -/
def State.released (s : State) (c : Crew) (p : Split) (scope : Scope) : Bool :=
  s.doneBefore c.core c.asid c.cid p.follows s.nextId scope

/-! ## Fences (R167) -/

/-- Whether a semantic has a release part. -/
def semRel : Sem → Bool
  | .rel => true
  | .ar => true
  | _ => false

/-- Whether a semantic has an acquire part. -/
def semAcq : Sem → Bool
  | .acq => true
  | .ar => true
  | _ => false

/-- Whether a scope reaches beyond the cluster (R223). -/
def wideScope : Scope → Bool
  | .team => false
  | .squad => false
  | _ => true

/-- Whether what a fence waits for is over (Table 9.3): the earlier reads have returned, and for its release part the earlier
accesses are performed at its scope. -/
def State.fenceDone (s : State) (c : Crew) (p : Split) (f : PFence) : Bool :=
  let before := precedes p.anc p.sid f.seq
  (c.loads.all fun q => !before q.sid q.seq) &&
  (s.adds.all fun q => !(q.job.isNone && q.cid == c.cid && q.ret.isSome && before q.sid q.seq)) &&
  (!semRel f.sem || s.doneBefore c.core c.asid c.cid before f.seq f.scope)

/-- Whether the release of a fence of a split is still under way: a fetch and a spill do not fault ahead of the writes that it makes
visible (R343,
R347). -/
def State.releasing (s : State) (c : Crew) (p : Split) : Bool :=
  match p.fence with
  | some f => semRel f.sem && !s.fenceDone c p f
  | none => false

/-- A split takes an acquire at a scope (R166, R167, R223): the coherence action of its core, and its place in the order. -/
def State.acquireBy (s : State) (cid sid core : Nat) (scope : Scope) : State :=
  (s.modSplit cid sid fun p => if wideScope scope then { p with acqAt := s.nextId } else p).acquire core scope

/-- Whether an acquiring access that precedes what a split does next has not completed (R166, R170). -/
def State.acquiring (s : State) (c : Crew) (p : Split) : Bool :=
  (c.loads.any fun q => q.acq.isSome && p.follows q.sid q.seq) ||
  s.adds.any fun q => q.cid == c.cid && q.acq.isSome && p.follows q.sid q.seq

/-- A memory access of a split waits for its acquiring accesses and for its fence under way, whose acquire part is then taken (R166,
R167): the state and the split that go on. -/
def fenceGate (s : State) (c : Crew) (p : Split) : Except Stop (State × Split) :=
  match p.fence with
  | none => if s.acquiring c p then .error .wait else .ok (s, p)
  | some f =>
    if !s.acquiring c p && s.fenceDone c p f then
      let t := s.modSplit c.cid p.sid fun q => { q with fence := none }
      let t := if semAcq f.sem then t.acquireBy c.cid p.sid c.core f.scope else t
      .ok (t, { p with fence := none, acqAt := if semAcq f.sem && wideScope f.scope then s.nextId else p.acqAt })
    else .error .wait

/-! ## Landings, ceasing, merging and retiring -/

/-- Gives the shell operations, the landings and the store faults of a merged split to the split that stays (R256; log entry
37). Its memory accesses keep their own place in program order (`Split.anc`). -/
def State.renameSplit (s : State) (cid old new : Nat) : State :=
  { s with
    shreqs := s.shreqs.map fun q => if q.cid == cid && q.sid == old then { q with sid := new } else q
    landings := s.landings.map fun q => if q.cid == cid && q.sid == old then { q with sid := new } else q
    faultq := s.faultq.map fun q => if q.cid == cid && q.sid == old then { q with sid := new } else q }

/-- Whether an access of a split is under way. -/
def State.underWay (s : State) (c : Crew) (sid : Nat) : Bool :=
  (c.loads.any (·.sid == sid)) || (c.splits.any fun r => r.stores.any (·.sid == sid)) || (s.regs.any fun q => q.cid == c.cid && q.sid == sid) ||
  (s.held.any fun q => q.cid == c.cid && q.sid == sid) ||
  (s.adds.any fun q => q.job.isNone && q.cid == c.cid && q.sid == sid)

/-- The innermost real construct's arm depth rule of BRK and CONT: the NC and the MARK that Break gives
(R244). -/
def breakTo (inReal : Bool) (ad d : Nat) : Nat × Option Nat :=
  if inReal && decide (ad < d) then (ad + 1, some (d - ad)) else (d + 1, none)

/-- Break(l, d) on a lane of a split (R244). -/
def Crew.break (c : Crew) (stack : List Construct) (ad lane d : Nat) : Crew :=
  match breakTo (stack.any (·.mode == .real)) ad d with
  | (n, some m) => (c.setNc lane n).setMark lane m
  | (n, none) => c.setNc lane n

/-- Whether a split holds the construct of a join record: on its stack, or set aside by its handler. -/
def Split.holds (p : Split) (j : Nat) : Bool :=
  let has (k : List Construct) := k.any fun e => e.mode == .real && e.join == j
  has p.stack || (match p.handler with | some h => has h.ctl.stack | none => false)

/-- Whether a split stands at the JOIN of a join record (R256). -/
def Split.atJoin (p : Split) (j : Nat) : Bool :=
  (match p.status with | .joinWait _ => true | _ => false) &&
  (match p.stack.getLast? with | some e => e.mode == .real && e.join == j | none => false)

/-- Byte offset of a REL16 or REL18 field (R42, R44). -/
def relTarget {n : Nat} (pc : DWord) (r : BitVec n) : DWord := pc + (r.signExtend 64 <<< 2)

/-- The split of a list that keeps its entry in a merge: the true split, else that of the lowest-numbered entry (R256). -/
def keptSplit (qs : List Split) (trueSid : Nat) : Option Split :=
  match qs.find? (·.sid == trueSid) with
  | some q => some q
  | none => qs.foldl (fun b q =>
      match b with
      | none => some q
      | some r => if q.entry < r.entry then some q else b) none

/-- The fence of a merged split: one that does the parts of both (R198, R167). -/
def joinFence : Option PFence → Option PFence → Option PFence
  | none, g => g
  | f, none => f
  | some f, some g =>
    let wider : Scope := if wideScope f.scope then f.scope else if wideScope g.scope then g.scope
      else if f.scope == .squad then f.scope else g.scope
    some ⟨wider, if f.sem == g.sem then f.sem else .ar, max f.seq g.seq⟩

/-- Merge (R256): the splits at the JOIN of record `j` become one, which enters the age order later by
SPLIT_WAKE. Where the members stand at different JOINs it goes on from that of the kept split, with its REL16 (DESIGN CHOICE, log
entry 31). -/
def State.merge (s : State) (cid : Nat) (j : JoinRec) : State :=
  match s.crew? cid with
  | none => s
  | some c =>
    let qs := c.splits.filter (·.holds j.id)
    match keptSplit qs j.trueSid with
    | none => s
    | some q =>
      let others := qs.filter (·.sid != q.sid)
      let mask := qs.foldl (fun m r => m ||| r.mask) 0
      let rel := match q.status with | .joinWait r => r | _ => 0
      let stack := q.stack.dropLast
      let marked := (maskLanes mask).filter fun l => c.markOf l != 0
      let c := marked.foldl (fun c l =>
        let m := c.markOf l
        (c.setMark l 0).break stack j.parentAd l (m - 1)) c
      let pc := if (maskLanes mask).any fun l => c.ncOf l == 0 then q.pc + 4 else relTarget q.pc rel
      let merged := { q with
        mask := mask, ad := j.parentAd, stack := stack, pc := pc, status := .waking
        anc := (q.anc ++ others.flatMap fun r => (r.sid, s.nextId) :: r.anc).eraseDups.filter fun e =>
          e.1 != q.sid && (s.underWay c e.1 || c.splits.any fun r => r.sid == e.1 && qs.all (·.sid != r.sid))
        acqAt := others.foldl (fun n r => max n r.acqAt) q.acqAt
        fence := others.foldl (fun f r => joinFence f r.fence) q.fence
        stores := others.foldl (fun t r => t ++ r.stores) q.stores
        due := others.foldl (fun t r => t ++ r.due) q.due }
      let c := { c with
        splits := (c.splits.filter fun r => others.all (·.sid != r.sid)).map fun r =>
          if r.sid == q.sid then merged else r
        joins := c.joins.filter (·.id != j.id) }
      let s := others.foldl (fun s r => (s.renameSplit cid r.sid q.sid).unage cid r.sid) s
      ((s.modCrew cid fun _ => c).unage cid q.sid).takeMark cid q.sid id

/-- Merges record `j` if every live split that holds it stands at its JOIN; frees it when none is left
(R256, R257). -/
def State.tryMerge (s : State) (cid j : Nat) : State :=
  match s.crew? cid with
  | none => s
  | some c =>
    match c.joins.find? (·.id == j) with
    | none => s
    | some r =>
      let qs := c.splits.filter (·.holds j)
      if qs.isEmpty then s.modCrew cid fun c => { c with joins := c.joins.filter (·.id != j) }
      else if qs.all (·.atJoin j) then s.merge cid r
      else s

/-- The join records that a split holds, innermost first. -/
def Split.joinIds (p : Split) : List Nat :=
  let ids (k : List Construct) := (k.filter (·.mode == .real)).reverse.map (·.join)
  ids p.stack ++ (match p.handler with | some h => ids h.ctl.stack | none => [])

/-- A split ceases (R257): its landings are lost, and constructs that waited for it alone merge. -/
def State.cease (s : State) (cid sid : Nat) : State :=
  match s.split? cid sid with
  | none => s
  | some p =>
    let s := (s.loseLandings cid (some sid)).modCrew cid fun c =>
      { c with splits := c.splits.filter (·.sid != sid) }
    p.joinIds.foldl (fun s j => s.tryMerge cid j) (s.unage cid sid)

/-- A crew of a grid retires (R68): its registers, slot and splits free, its records are discarded (R335). -/
def State.retireCrew (s : State) (c : Crew) : State :=
  let s := s.loseLandings c.cid none
  let s := { s with crews := s.crews.filter (·.cid != c.cid)
                    age := s.age.filter (·.1 != c.cid)
                    woke := s.woke.filter (·.1 != c.cid)
                    faultq := s.faultq.filter (·.cid != c.cid) }
  s.modTeam c.lid c.team fun t => { t with crewsLeft := t.crewsLeft - 1 }

/-- Retires lanes of a split (R67): they belong to no split; an emptied split ceases, an emptied crew retires. In a
field the cells exit at the instruction at `pc` (R286). -/
def State.retireLanes (s : State) (cid sid : Nat) (m : BitVec 32) (pc : DWord) : State :=
  match s.crew? cid with
  | none => s
  | some c =>
    let s := s.modCrew cid fun c =>
      ({ c with exited := c.exited ||| m }).modSplit sid fun p => { p with mask := p.mask &&& ~~~m }
    if s.inField c then
      let others := (c.splits.filter fun p => p.sid != sid).length
      let s := s.exitCells c m pc
      match s.split? cid sid with
      | some p => if p.mask == 0 && decide (0 < others) then s.cease cid sid else s
      | none => s
    else
      let s := match s.split? cid sid with
        | some p => if p.mask == 0 then s.cease cid sid else s
        | none => s
      match s.crew? cid with
      | some c => if c.exited == BitVec.allOnes 32 && c.splits.isEmpty then s.retireCrew c else s
      | none => s

/-- TERM at an address (R67, R299): every lane of the crew retires; its untranslated stores are discarded. -/
def State.termAt (s : State) (cid : Nat) (pc : DWord) : State :=
  match s.crew? cid with
  | none => s
  | some c => if s.inField c then s.exitCells c (~~~(c.absent ||| c.exited)) pc else s.retireCrew c

/-- A crew is ended as by TERM, at the address of its first split, which RPC of the records then gives (DESIGN CHOICE, log entry 40). -/
def State.termCrew (s : State) (cid : Nat) : State :=
  match s.crew? cid with
  | none => s
  | some c => s.termAt cid (match c.only? with | some p => p.pc | none => 0)

/-! ## Taking a trap and returning (R329, R333) -/

/-- The cause code (Table 21.1). -/
def Cause.code : Cause → BitVec 16
  | .illop => 1 | .illopnd => 2 | .align => 3 | .sprange => 4 | .qgone => 5 | .ldfault => 6
  | .stfault => 7 | .fetchfault => 8 | .engarg => 9 | .badbar => 10 | .shrange => 11
  | .shoverstay => 12 | .nbrdir => 13 | .splitesc => 14 | .splitstate => 15 | .ncovf => 16
  | .spillovf => 17 | .pinwrite => 18 | .poison => 19 | .swtrap => 20

/-- TRAPENT of a context (Table 4.5). -/
def State.trapEnt (s : State) (asid : Nat) : DWord :=
  match s.context? asid with
  | some x => x.trapent
  | none => 0

/-- Takes a trap in a split whose earlier stores have translated (R329): a trap in handler mode, or with
TRAPENT = 0, ends the crew; otherwise the split's control state is set aside, the trap registers are
written and the split goes to TRAPENT in handler mode. -/
def State.takeTrap (s : State) (cid sid : Nat) (t : Trap) : State :=
  match s.crew? cid with
  | none => s
  | some c =>
    match c.split? sid with
    | none => s
    | some p =>
      if p.inHandler || s.trapEnt c.asid == 0 then s.termAt cid p.pc
      else
        (s.loseLandings cid (some sid)).modCrew cid fun c =>
          ({ c with nc := c.nc.filter (fun e => !p.mask.getLsbD e.1)
                    cb := c.cb &&& ~~~p.mask
                    marks := c.marks.filter (fun e => !p.mask.getLsbD e.1) }).modSplit sid fun q =>
            { q with
              handler := some ⟨ctlOf c p, c.depth, s.nextId⟩, ad := 0, stack := [], fb := none
              tcause := t.cause.code, trappc := t.pc, taddr := t.taddr, taux := t.taux
              pc := s.trapEnt c.asid, status := .ready, waits := none, muted := false }

/-- No STFAULT is due any more for the store faults of a crew that stand in its records: a trap has reported them (R331). -/
def State.reportFaults (s : State) (cid : Nat) : State :=
  let seqs := (s.faultsOf cid).map (·.seq)
  s.modCrew cid fun c => { c with splits := c.splits.map fun p =>
    { p with due := p.due.filter fun d => !(d.2.cause == .stfault && seqs.contains d.1) } }

/-- Takes the boundary trap that is due; an STFAULT reports every record of the crew, and its own fault to every split (R331). -/
def State.takeDue (s : State) (cid sid : Nat) (d : Trap × (Nat × Trap)) : State :=
  let s := if d.1.cause == .stfault then
      (s.reportFaults cid).modCrew cid fun c => { c with splits := c.splits.map fun p =>
        { p with due := p.due.filter fun e => !(e.2.cause == .stfault && e.1 == d.2.1) } }
    else s
  (s.modSplit cid sid fun p => { p with due := p.due.erase d.2, status := .ready }).takeTrap cid sid d.1

/-- The instruction cannot issue now (R270): the split is passed over until something changes. -/
def State.stall (s : State) (cid sid : Nat) : State :=
  s.modSplit cid sid fun p => { p with tried := true }

/-- The instruction cannot issue now, as it waits to reach a place of memory (R309, R310, R320). -/
def State.hold (s : State) (cid sid pa : Nat) (write : Bool) : State :=
  s.modSplit cid sid fun p => { p with tried := true, waits := some (pa, write) }

/-- Everything may be tried again. -/
def State.retry (s : State) : State :=
  { s with crews := s.crews.map fun c =>
      { c with splits := c.splits.map fun p => { p with tried := false } } }

/-- After an issue of a split: it is the youngest of the age order if it is still live and not parked,
and so are splits that it created; every split may be tried again (R269). -/
def State.afterIssue (s : State) (cid sid : Nat) : State :=
  let s := s.retry.unage cid sid
  match s.crew? cid with
  | none => s
  | some c =>
    let enters (p : Split) : Bool :=
      p.status == .ready && !(s.age.any fun e => e.1 == cid && e.2 == p.sid)
    let mine := (c.splits.filter fun p => p.sid == sid && enters p).map fun p => (cid, p.sid)
    let news := (c.splits.filter fun p => p.sid != sid && enters p).map fun p => (cid, p.sid)
    s.enter (mine ++ news)

/-- After a trap at an instruction boundary, which is no issue: the split keeps its place in the age order, or enters it where it was
parked (R269, R273); every split may be tried again. -/
def State.afterTrap (s : State) (cid sid : Nat) : State :=
  let s := s.retry
  if (s.split? cid sid).isNone then s.unage cid sid
  else if s.age.any fun e => e.1 == cid && e.2 == sid then s
  else s.enage cid sid

/-- Raises a trap of the split's instruction (R329): the earlier stores translate first, and a boundary trap
that they leave due is taken in its place. -/
def State.raise (s : State) (cid sid : Nat) (t : Trap) : State :=
  match s.split? cid sid with
  | none => s
  | some p =>
    if !p.drained then s.stall cid sid
    else
      match s.dueTrap cid p with
      | some d => (s.takeDue cid sid d).afterTrap cid sid
      | none => (s.takeTrap cid sid t).afterIssue cid sid

/-- RETT in handler mode once the handler's stores have translated (R333): the control state that was set
aside comes back for the lanes that the split still has, and the split goes on at TRAPPC. -/
def State.returnTrap (s : State) (c : Crew) (p : Split) (h : Handler) : State :=
  if c.depth != h.depth || p.trappc &&& 3 != 0 then s.termAt c.cid p.pc
  else
    s.modCrew c.cid fun c => (c.putCtl p.mask h.ctl).modSplit p.sid fun q =>
      { q with ad := h.ctl.ad, stack := h.ctl.stack, fb := h.ctl.fb, handler := none, pc := p.trappc }

/-! ## Issuing an instruction -/

/-- Whether a crew is held back: a host one or all of whose seats are to leave, or whose completed STEP the cox has yet to take note
of, and a crew of a grid while its context is being switched out (R288, R289, R293, R352). -/
def State.hostHeld (s : State) (c : Crew) : Bool :=
  match c.host with
  | some h => h.leaving.isSome || h.out || (h.stepAt.isSome && s.eventOf c.lid h.slot)
  | none => match s.context? c.asid with | some x => x.switching | none => false

/-- Whether a split may issue now: it is not parked, no YIELD shadow covers it, and it waits for no landing, no
acquiring shell operation, no fairness swap and no page-out (R233, R235, R248, R255, R288). -/
def State.mayIssue (s : State) (c : Crew) (p : Split) : Bool :=
  (match p.status with
   | .ready => true
   | .barWait _ _ w => w != .parked
   | _ => false) &&
  decide (p.shadow ≤ s.cycle) &&
  (s.shreqs.all fun q => !(q.cid == c.cid && q.sid == p.sid && (q.op == .land || q.acq))) &&
  (match p.fb with
   | some f => f.finished || decide (f.count < 4096)
   | none => true) &&
  !s.hostHeld c

/-- The crew as a second pick of the same cycle reads it: with the uniform registers, FPMODE, FPFLAGS and CPOL that
stood before the first pick (R34, R53). -/
def State.seen (s : State) (c : Crew) (sid : Nat) : Crew :=
  match s.picks.find? fun q => q.cid == c.cid && q.sid != sid with
  | some q =>
    { c with sregs := q.sregs, spoison := q.spoison, fpmode := q.fpmode, fpflags := q.fpflags, cpol := q.cpol }
  | none => c

/-- Counts an issue for the fairness of an open fallback construct (R255); no flag is raised yet, and no load of the split is its last
instruction any more (R346). -/
def State.countIssue (s : State) (cid sid : Nat) : State :=
  s.modCrew cid fun c => ({ c with
      raised := 0
      loads := c.loads.map fun (q : PLoad) => if q.sid == sid then { q with fresh := false } else q
      host := match c.host with | some h => some { h with stepAt := none, issued := true } | none => none }).modSplit
    sid fun p =>
    { p with waits := none, muted := false
             fb := match p.fb with | some f => some { f with count := f.count + 1 } | none => none }

/-- Runs the body of an instruction for the split that is selected as the issuer. A split that may not issue stays
as it is; a due boundary trap is taken first (R331); otherwise the body gives the next state, a
trap, or a wait. -/
def issue (s : State) (body : Crew → Split → State → Res) : Host.Outcome State Fault Refusal :=
  match s.cur with
  | none => .fault .noIssuer
  | some (cid, sid) =>
    match s.crew? cid with
    | none => .fault .noIssuer
    | some c =>
      match c.split? sid with
      | none => .fault .noIssuer
      | some p =>
        if !s.mayIssue c p then .next (s.stall cid sid)
        else
          match s.dueTrap cid p with
          | some d =>
            if p.drained then .next ((s.takeDue cid sid d).afterTrap cid sid)
            else .next (s.stall cid sid)
          | none =>
            match body (s.seen c sid) p (s.countIssue cid sid) with
            | .ok t => .next (t.afterIssue cid sid)
            | .error (.trap t) => .next (s.raise cid sid t)
            | .error .wait => .next (s.stall cid sid)
            | .error (.held pa w) => .next (s.hold cid sid pa w)
            | .error (.nbr ops) => .next (s.modSplit cid sid fun q => { q with status := .nbrWait ops })

/-- The next state goes on at the word after the instruction. -/
def State.advance (s : State) (c : Crew) (p : Split) : State := s.setPc c.cid p.sid (p.pc + 4)

end Sys2Proof.Machine
end

