-- ==== Sys2Proof/Machine/Flags.lean ====
section
/-! DEFINITION. FPFLAGS and FPMODE (R31, R80 to R82). -/

namespace Sys2Proof.Machine

/-- The rounding mode of FPMODE (Table 2.4). -/
def Crew.rnd (c : Crew) : Rnd := Rnd.ofField c.fpmode

/-- Raises flags: they are sticky (R81). -/
def Crew.raiseFlags (c : Crew) (fl : Flags) : Crew :=
  { c with fpflags := c.fpflags ||| fl, raised := c.raised ||| fl }

/-- The flags of every lane together (R82). -/
def orFlags (fs : List Flags) : Flags := fs.foldl (· ||| ·) 0

end Sys2Proof.Machine
end

