-- ==== Sys2Proof/Machine/Operands.lean ====
section
/-! DEFINITION. The operand forms of the instructions: which registers an instruction names, the checks on
them in their order (R39 to R41, R55, R284, R331, R346, R350), and the values they yield. -/

namespace Sys2Proof.Machine

/-- The registers that an instruction names: 8-bit source operands, further lane registers of the window that
it reads, lane registers that it writes, uniform registers read and written. -/
structure Uses where
  srcs : List Src := []
  rd   : List Nat := []
  wr   : List Nat := []
  us   : List Nat := []
  ud   : List Nat := []

/-- ILLOP of an instruction word (Table 21.1). -/
def illop (p : Split) (w : Word) : Trap := ⟨.illop, p.pc, 0, w.zeroExtend 64⟩

/-- ILLOPND of an instruction word (Table 21.1). -/
def illopnd (p : Split) (w : Word) : Trap := ⟨.illopnd, p.pc, 0, w.zeroExtend 64⟩

/-- A trap of the instruction with TADDR 0. -/
def ownTrap (p : Split) (k : Cause) (taux : Nat) : Trap := ⟨k, p.pc, 0, .ofNat 64 taux⟩

/-- SPLITSTATE with its reason (R259). -/
def splitState (p : Split) (reason : Nat) : Trap := ownTrap p .splitstate reason

/-- Whether every register named lies in the window, and no neighbour operand is executed by a crew of a grid
launch (R39). -/
def Uses.inRange (u : Uses) (s : State) (c : Crew) : Bool :=
  (u.srcs.all fun x => match x with
    | .v n => decide (n.toNat < c.ws)
    | .s _ => true
    | .nbr _ _ => s.inField c) &&
  (u.rd.all fun n => decide (n < c.ws)) && (u.wr.all fun n => decide (n < c.ws))

/-- NBRDIR of a neighbour operand: a direction that its field lacks, or a register that is not published (R284). -/
def nbrTrap (s : State) (c : Crew) (p : Split) : Src → Option Trap
  | .nbr d j =>
    match s.launch? c.lid with
    | none => none
    | some l =>
      let at' := 8 * d.toNat + j.toNat
      if l.record.yext == 1 && decide (2 ≤ d.toNat) then some (ownTrap p .nbrdir at')
      else if !l.record.pub.getLsbD j.toNat then some (ownTrap p .nbrdir (256 + at'))
      else none
  | _ => none

/-- The operand code of the first pinned register written, outside handler and recipe mode (R350). -/
def Uses.pinned (u : Uses) (c : Crew) (p : Split) : Option Nat :=
  if p.inHandler || p.recipe then none
  else
    match u.wr.find? fun n => p.mark.lpin.contains (c.wb + n) with
    | some n => some n
    | none => (u.ud.find? fun n => c.splits.any fun q => q.mark.upin.contains n).map (0x80 + ·)

/-- The value of a neighbour operand in a lane, while it can be served (R284). -/
def State.nbrVal (s : State) (c : Crew) (lane dir j : Nat) : Option Word :=
  match s.launch? c.lid with
  | some l => s.neighbourValue l c.team lane dir j
  | none => none

/-- The neighbour operands that some active lane must wait for. -/
def Uses.waitsFor (u : Uses) (s : State) (c : Crew) (p : Split) : List (Nat × Nat) :=
  u.srcs.filterMap fun x => match x with
    | .nbr d j =>
      if (activeLanes c p).all fun l => (s.nbrVal c l d.toNat j.toNat).isSome then none
      else some (d.toNat, j.toNat)
    | _ => none

/-- Whether a register that the instruction reads still waits for data (R160, R270), or one that it writes for those of an earlier
access of its split (log entry 55). A register may be written before data of another split arrive in it (R53). -/
def Uses.busy (u : Uses) (s : State) (c : Crew) (p : Split) : Bool :=
  (u.srcs.any fun x => match x with
    | .v n => s.laneBusy c (c.wb + n.toNat)
    | .s n => s.uniBusy c n.toNat
    | .nbr _ _ => false) ||
  (u.rd.any fun n => s.laneBusy c (c.wb + n)) || (u.us.any fun n => s.uniBusy c n) ||
  (u.wr.any fun n => s.laneOwed c p (c.wb + n)) || u.ud.any fun n => s.uniOwed c p n

/-- Whether a neighbour operand of a lane reads a poisoned word (R345). -/
def State.nbrBad (s : State) (c : Crew) (lane dir j : Nat) : Bool :=
  match s.launch? c.lid with
  | some l => s.neighbourBad l c.team lane dir j
  | none => false

/-- POISON of the first poisoned register that the instruction reads: its field and the lowest active lane
(R346). -/
def Uses.poison (u : Uses) (s : State) (c : Crew) (p : Split) : Option Trap :=
  let lane (n : Nat) : Option Nat :=
    ((activeLanes c p).find? fun l => c.vpoison.contains (32 * (c.wb + n) + l)).map fun l =>
      1 + 256 * n + 65536 * l
  let uni (n : Nat) : Option Nat := if c.spoison.contains n then some (1 + 256 * (0x80 + n)) else none
  let found := (u.srcs.filterMap fun x => match x with
      | .v n => lane n.toNat
      | .s n => uni n.toNat
      | .nbr d j => ((activeLanes c p).find? fun l => s.nbrBad c l d.toNat j.toNat).map fun l =>
          1 + 256 * (0xC0 + 8 * d.toNat + j.toNat) + 65536 * l) ++ u.rd.filterMap lane ++ u.us.filterMap uni
  found.head?.map fun k => ownTrap p .poison k

/-- The decode traps of the operands (R55), NBRDIR (R284) and PINWRITE (R350), then the waits. `marks` says that
the instruction is an implicit mark: its destination may be pinned (R350). -/
def checkUses (w : Word) (u : Uses) (marks : Bool) (s : State) (c : Crew) (p : Split) :
    Except Stop Unit := do
  need (u.inRange s c) (illopnd p w)
  match u.srcs.findSome? (nbrTrap s c p) with
  | some t => throw (.trap t)
  | none => pure ()
  match if marks then none else u.pinned c p with
  | some n => throw (.trap (ownTrap p .pinwrite n))
  | none => pure ()
  await (!u.busy s c p)
  match u.waitsFor s c p with
  | [] => pure ()
  | ops => throw (.nbr ops)

/-- The last check (R331): a poisoned register that the instruction reads raises POISON. -/
def checkPoison (u : Uses) (s : State) (c : Crew) (p : Split) : Except Stop Unit :=
  match u.poison s c p with
  | some t => throw (.trap t)
  | none => pure ()

/-- Every check of an instruction that raises no trap of its own. -/
def checkAll (w : Word) (u : Uses) (s : State) (c : Crew) (p : Split) : Except Stop Unit := do
  checkUses w u false s c p
  checkPoison u s c p

/-- Op(l, F): the value of a source operand in a lane (Table 3.2). -/
def State.op (s : State) (c : Crew) (lane : Nat) : Src → Word
  | .v n => c.v lane n.toNat
  | .s n => (c.u n.toNat).truncate 32
  | .nbr d j => (s.nbrVal c lane d.toNat j.toNat).getD 0

/-- A lane instruction: each active lane writes a value computed from its operands and, where `readsD`, its
old destination; the flags of all lanes are raised (R93, R94). -/
def laneOp (w : Word) (d : BitVec 8) (srcs : List Src) (readsD : Bool)
    (f : Rnd → (Src → Word) → Word → Word × Flags) (s : State) :
    Host.Outcome State Fault Refusal :=
  issue s fun c p s => do
    checkAll w { srcs := srcs, rd := if readsD then [d.toNat] else [], wr := [d.toNat] } s c p
    let rs := (activeLanes c p).map fun l => (l, f c.rnd (s.op c l) (c.v l d.toNat))
    pure ((s.modCrew c.cid fun k =>
      (k.setLanes d.toNat (rs.map fun r => (r.1, r.2.1))).raiseFlags
        (orFlags (rs.map fun r => r.2.2))).advance c p)

/-- A lane instruction that raises no flag. -/
def laneInt (w : Word) (d : BitVec 8) (srcs : List Src) (readsD : Bool)
    (f : (Src → Word) → Word → Word) (s : State) : Host.Outcome State Fault Refusal :=
  laneOp w d srcs readsD (fun _ val old => (f val old, 0)) s

/-- A uniform scalar instruction: it writes one value to S(D) (R52). -/
def uniOp (w : Word) (d : BitVec 6) (us : List (BitVec 6)) (f : (BitVec 6 → DWord) → DWord)
    (s : State) : Host.Outcome State Fault Refusal :=
  issue s fun c p s => do
    checkAll w { us := us.map (·.toNat), ud := [d.toNat] } s c p
    let x := f fun n => c.u n.toNat
    pure ((s.modCrew c.cid fun k => k.setU d.toNat x).advance c p)

end Sys2Proof.Machine
end

