-- ==== Sys2Proof/Machine/Slice.lean ====
section
/-! DEFINITION. The L2 slices as requests meet them: tokens, the miss table and the spill queue, classes and owners (R143 to R150,
R309). -/

namespace Sys2Proof.Machine

/-- The tokens of a context at a slice (R309). -/
def State.tokens (s : State) (slice asid : Nat) : Nat := sget 0 s.levels (65536 * slice + asid)

def State.setTokens (s : State) (slice asid n : Nat) : State :=
  { s with levels := sset 0 s.levels (65536 * slice + asid) n }

/-- The slice of a core's own bay where a mirror of a line may stand (R147). -/
def mirrorSlice (core pa : Nat) : Nat := 12 * bayOfCore core + pa / 256 % 12

/-- The slice that serves a load: one with a mirror of the line in the core's bay, else the home slice (R147). -/
def State.loadSlice (s : State) (core pa : Nat) : Nat :=
  if s.mirrors.any fun m => m.slice == mirrorSlice core pa && m.line == lineOf pa then mirrorSlice core pa
  else sliceOf core pa

/-- Whether a slice holds a line. -/
def State.holdsLine (s : State) (slice line : Nat) : Bool := s.l2.any fun e => e.slice == slice && e.line == line

/-- The entries of a class that are busy in a slice's miss table (R148). -/
def State.busyEntries (s : State) (slice : Nat) (k : MissClass) : Nat :=
  (s.misses.filter fun m => m.slice == slice && m.cls == k).length

/-- Whether the spill queue of a slice holds a request for a line (R149). -/
def State.lineSpilled (s : State) (slice line : Nat) : Bool := s.spillq.any fun m => m.slice == slice && m.line == line

/-- The room in a slice's spill queue of 1,024 records (R149). -/
def State.spillRoom (s : State) (slice : Nat) : Bool := decide ((s.spillq.filter (·.slice == slice)).length < 1024)

/-- Whether a slice takes general requests at its port: with a full spill queue it takes none (R149). -/
def State.portOpen (s : State) (slice : Nat) : Bool := s.spillRoom slice

/-- Whether a request of a context may enter a slice (R149, R309): the tick of the microsecond comes first. A context that is gone spends
nothing. -/
def State.mayEnter (s : State) (slice asid : Nat) : Bool :=
  ((s.context? asid).isNone || (s.ticked slice && decide (0 < s.tokens slice asid))) && s.portOpen slice

/-- The set of a line in a slice (R143; log entry 28). -/
def setIndex (line : Nat) : Nat := line / 12 % 384

/-- The lines of a slice that stand in the set of a line. -/
def State.setLines (s : State) (slice line : Nat) : List L2Line :=
  s.l2.filter fun e => e.slice == slice && setIndex e.line == setIndex line

/-- The mirrors in the set of a line of a slice (R147). -/
def State.setMirrors (s : State) (slice line : Nat) : List Mirror :=
  s.mirrors.filter fun m => m.slice == slice && setIndex m.line == setIndex line

/-- The class of a hint (R150, Table 8.3). -/
def hintClass (h : BitVec 2) : Nat := if h == 1 then 0 else if h == 2 then 2 else 1

/-- The class that a line takes for a hint: a ninth evict-last line of its set is normal (R150). -/
def State.admitClass (s : State) (slice line k : Nat) : Nat :=
  if k == 2 && decide (8 ≤ ((s.setLines slice line).filter (·.cls == 2)).length) then 1 else k

/-- A held line takes the higher class of an access and is the latest accessed (R150). -/
def State.raiseClass (s : State) (slice line k : Nat) : State :=
  let up := s.admitClass slice line k
  State.bumpId { s with l2 := s.l2.map fun e =>
      if e.slice == slice && e.line == line then { e with cls := max e.cls up, stamp := s.nextId } else e }

/-- An access reaches a slice: it spends a token. A mirror serves it with no effect on a class (R147). Behind a spilled request for its
line it goes to the spill queue too; a line that is held takes the higher class; one that is not is missed, in the table or, with no
entry free, in the spill queue (R148 to R150). -/
def State.touchSlice (s : State) (slice asid line : Nat) (h : BitVec 2) : State :=
  let s := s.setTokens slice asid (s.tokens slice asid - 1)
  if s.mirrors.any fun m => m.slice == slice && m.line == line then s
  else
    let m : Miss := ⟨slice, .general, line, hintClass h⟩
    if s.lineSpilled slice line then { s with spillq := s.spillq ++ [m] }
    else if s.holdsLine slice line then s.raiseClass slice line (hintClass h)
    else if s.misses.contains m then s
    else if s.busyEntries slice .general < 104 then { s with misses := s.misses ++ [m] }
    else { s with spillq := s.spillq ++ [m] }

/-- A request of a core for an address reaches a slice, and the fabric where the line comes from there (R309, R310). -/
def State.reach (s : State) (slice core asid pa : Nat) (write bulk : Bool) (h : BitVec 2) : State :=
  (s.fabricSend core asid pa write bulk).touchSlice slice asid (lineOf pa) h

/-- Whether such a request can be sent: a token at the slice, room at its port, and a route (R149, R309, R310, R320). -/
def State.mayReach (s : State) (slice core asid pa : Nat) (write bulk : Bool) : Bool :=
  s.mayEnter slice asid && s.fabricOk core asid pa write bulk

/-- Whether a word of a line is pending for an engine. -/
def State.linePending (s : State) (line : Nat) : Bool := (List.range 64).any fun i => s.homePending (64 * line + i)

/-- Which of two lines is the victim: the lower class, then the one accessed longer ago (R150). -/
def victimBefore (a b : L2Line) : Bool := decide (a.cls < b.cls) || (a.cls == b.cls && decide (a.stamp < b.stamp))

/-- The victim among lines. -/
def pickVictim : List L2Line → Option L2Line
  | [] => none
  | e :: rest =>
    match pickVictim rest with
    | none => some e
    | some f => if victimBefore f e then some f else some e

/-- The sectors of a list that some core but `me` owns: each takes a recall entry when a write event revokes it (R148). -/
def State.foreign (s : State) (me : Nat) (secs : List Nat) : List Nat :=
  secs.filter fun sec => s.ownerOf sec != me && decide (s.ownerOf sec < 288)

/-- Whether the home slice may revoke the owners of some words: none is being revoked already, and the eight recall entries
suffice, and no other device holds a copy (R144, R148, R316). -/
def State.mayRevoke (s : State) (slice me : Nat) (words : List Nat) : Bool :=
  let secs := (words.map (· / 16)).eraseDups
  s.unheld (words.map (· / 64)) && (secs.all fun sec => !s.recalling sec) && decide (s.busyEntries slice .recall + (s.foreign me secs).length ≤ 8)

/-- The bytes of a lane access at a place. -/
def placed (a : Nat) (bs : List Byte) : List (Nat × Byte) := List.zip ((List.range bs.length).map (a + ·)) bs

end Sys2Proof.Machine
end

