-- ==== Sys2Proof/Machine/LaneMem.lean ====
section
/-! DEFINITION. The lane and uniform loads and stores (R157 to R165), LDA and STL (R166), and FENCE (R167).

A load is checked when it issues; its data arrive later (`loadDataArrival`). A store is put into the split's
store path when it issues; it translates, is checked and is performed later (`storeTranslate`). -/

namespace Sys2Proof.Machine

/-- The team of a crew, for its scratchpad (R135). -/
def State.scratchSize (s : State) (lid tid : Nat) : Nat :=
  match s.team? lid tid with
  | some t => t.size
  | none => 0

/-- ALIGN of an address (R158). -/
def alignTrap (p : Split) (a : DWord) : Trap := ⟨.align, p.pc, a, 0⟩

/-- The first lane whose address is no multiple of the size raises ALIGN (R158). -/
def checkAlign (p : Split) (size : Nat) (as : List (Nat × DWord)) : Except Stop Unit :=
  match as.find? fun a => a.2.toNat % size != 0 with
  | some a => .error (.trap (alignTrap p a.2))
  | none => .ok ()

/-- The first lane whose access leaves the team's allocation raises SPRANGE (R135). -/
def checkScratch (s : State) (c : Crew) (p : Split) (size : Nat) (as : List (Nat × DWord)) :
    Except Stop Unit :=
  match as.find? fun a => decide (s.scratchSize c.lid c.team < a.2.toNat + size) with
  | some a => .error (.trap ⟨.sprange, p.pc, a.2, 0⟩)
  | none => .ok ()

/-- Teams per squad of a crew's launch. -/
def State.squadOf (s : State) (c : Crew) : Nat :=
  match s.launch? c.lid with
  | some l => max 1 l.record.squad
  | none => 1

/-- The team number that a squad-window address of a crew names (R138). -/
def State.squadTeam (s : State) (c : Crew) (a : DWord) : Nat :=
  c.team / s.squadOf c * s.squadOf c + a.toNat / 0x100000 % 8

/-- Whether a squad-window address names no rank of the squad (R138, step 1). -/
def State.squadBad (s : State) (c : Crew) (a : DWord) : Bool :=
  a.toNat / 0x800000 != 0 || decide (s.squadOf c ≤ a.toNat / 0x100000 % 8)

/-- Whether the allocation of a team stays past its retirement: under HOLD while a team of its squad lives, and while a child that
its crews launched with DV = 1 lives (R68). -/
def State.keeps (s : State) (l : Launch) (tid : Nat) : Bool :=
  let q := max 1 l.record.squad
  (l.record.hold && (decide (l.nextTeam < tid / q * q + q) || s.teams.any fun t =>
    t.lid == l.lid && t.tid / q == tid / q && t.phase != .retiredKept)) ||
  s.launches.any fun x => x.parent == some l.lid && x.ptid == tid && x.record.done.isSome

/-- Whether the team that an address names is gone (R138, step 2): it has retired, and nothing keeps its allocation (R139). -/
def State.squadGone (s : State) (c : Crew) (a : DWord) : Bool :=
  let n := s.squadTeam c a
  n != c.team &&
    match s.team? c.lid n, s.launch? c.lid with
    | some t, some l => t.phase == .retiredKept && !s.keeps l n
    | t, _ => t.isNone

/-- Whether the team that an address names is pre-empted (R138, step 2). -/
def State.squadOut (s : State) (c : Crew) (a : DWord) : Bool :=
  match s.team? c.lid (s.squadTeam c a) with
  | some t => (match t.phase with | .saved _ _ _ => true | _ => false)
  | none => false

/-- Steps 1 and 2 of R138 over the lanes in order. -/
def checkRanks (s : State) (c : Crew) (pc : DWord) (as : List (Nat × DWord)) : Except Stop Unit :=
  match as.find? fun a => s.squadBad c a.2 with
  | some a => .error (.trap ⟨.sprange, pc, a.2, 0⟩)
  | none =>
    match as.find? fun a => s.squadGone c a.2 with
    | some a => .error (.trap ⟨.qgone, pc, a.2, 0⟩)
    | none => if as.any fun a => s.squadOut c a.2 then .error .wait else .ok ()

/-- The checks of a squad-window access (R138). -/
def checkSquad (s : State) (c : Crew) (pc : DWord) (as : List (Nat × DWord)) : Except Stop Unit := do
  checkRanks s c pc as
  match as.find? fun a =>
      decide (s.scratchSize c.lid (s.squadTeam c a.2) ≤ a.2.toNat % 0x100000) with
  | some a => throw (.trap ⟨.sprange, pc, a.2, 0⟩)
  | none => pure ()

/-- LDFAULT of an access (Tables 21.1 and 21.3). -/
def ldFault (p : Split) (va : DWord) (r : Reason) (lane : Nat) (extra : Nat) : Trap :=
  ⟨.ldfault, p.pc, va, .ofNat 64 (r.code + 256 * lane + extra)⟩

/-- Translates the lanes' addresses in order; the first that fails raises LDFAULT (R158, R343). The TLB takes the
leaves (R342). -/
def translateLanes (s : State) (c : Crew) (p : Split) (nd : Need) :
    List (Nat × DWord) → Except Stop (State × List (Nat × Nat))
  | [] => .ok (s, [])
  | (l, a) :: rest =>
    match s.translate c.core c.asid a nd with
    | .error r => .error (.trap (ldFault p a r l (if nd == .write then 65536 else 0)))
    | .ok pa =>
      match translateLanes (s.tlbFill c.core c.asid a) c p nd rest with
      | .ok (t, ps) => .ok (t, (l, pa) :: ps)
      | .error e => .error e

/-- Whether a word of `n` bytes of a team's scratchpad is poisoned. -/
def State.scratchPoisoned (s : State) (lid tid addr n : Nat) : Bool :=
  match s.team? lid tid with
  | some t => t.spoison.any fun w => decide (addr / 4 ≤ w) && decide (w ≤ (addr + n - 1) / 4)
  | none => false

/-- POISON of a load (Table 21.8): the lowest lane whose data hold a poisoned word, with its source. -/
def loadPoison (s : State) (c : Crew) (p : Split) (space : Space) (size : Nat)
    (as : List (Nat × DWord)) (ls : List LaneLoad) : Option Trap :=
  (List.zip as ls).findSome? fun (a, q) =>
    let src := if space == .global then (if inFabric q.addr then 4 else 3) else 2
    let bad := if space == .global then s.loadPoison c.core q.addr size (s.cleanHit c.core (accessWords q.addr size))
      else s.scratchPoisoned c.lid q.team q.addr size
    if bad then some ⟨.poison, p.pc, a.2, .ofNat 64 (src + 65536 * a.1)⟩ else none

/-- The checks of a load's addresses in the order of R158, with the places that it reads. -/
def checkLoad (s : State) (c : Crew) (p : Split) (space : Space) (size : Nat)
    (as : List (Nat × DWord)) : Except Stop (State × List LaneLoad) := do
  checkAlign p size as
  match space with
  | .scratch =>
    checkScratch s c p size as
    pure (s, as.map fun a => ⟨a.1, c.team, a.2.toNat, a.2, none⟩)
  | .squad =>
    checkSquad s c p.pc as
    pure (s, as.map fun a => ⟨a.1, s.squadTeam c a.2, a.2.toNat % 0x100000, a.2, none⟩)
  | .global =>
    let (t, ps) ← translateLanes s c p .read as
    pure (t, (List.zip as ps).map fun a => ⟨a.2.1, 0, a.2.2, a.1.2, none⟩)

/-- LHINT of a crew (Table 8.3). -/
def Crew.lhint (c : Crew) : BitVec 2 := c.cpol.truncate 2

/-- SHINT of a crew (Table 8.3). -/
def Crew.shint (c : Crew) : BitVec 2 := (c.cpol >>> 2).truncate 2

/-- Registers the lanes' reads of a load that issued, if any lane is active (R160). -/
def pushLoad (s : State) (c : Crew) (p : Split) (q : PLoad) : State :=
  if q.lanes.isEmpty then s.advance c p
  else ((s.modCrew c.cid fun k => { k with loads := k.loads ++ [{ q with seq := s.nextId, fresh := true }] }).bumpId).advance c p

/-- The stores of a split that wait for translation: at most 16 (R334). -/
def Split.storeRoom (p : Split) : Bool := decide ((p.stores.filter (·.space != .scratch)).length < 16)

/-- Puts a store that issued into the split's store path, if any lane is active (R334). -/
def pushStore (s : State) (c : Crew) (p : Split) (q : PStore) : State :=
  if q.lanes.isEmpty then s.advance c p
  else ((s.modSplit c.cid p.sid fun k =>
    { k with stores := k.stores ++ [{ q with seq := s.nextId, sid := p.sid, anc := p.anc }] }).bumpId).advance c p

/-! ## LM words (R40, R161, R162) -/

/-- The address of a lane (R40). -/
def lmAddr (c : Crew) (lane : Nat) (x : BitVec 8) (b : BitVec 6) (sc : BitVec 2) : DWord :=
  if x.msb then c.u b.toNat
  else c.u b.toNat + ((c.v lane x.toNat).zeroExtend 64 <<< sc.toNat)

/-- The lane registers that an address needs. -/
def lmIndex (x : BitVec 8) : List Nat := if x.msb then [] else [x.toNat]

/-- The register group from T on. -/
def group (t : BitVec 8) (n : Nat) : List Nat := (List.range n).map (t.toNat + ·)

/-- Registers of an access width in bytes (Table 9.1). -/
def widthRegs (size : Nat) : Nat := (size + 3) / 4

/-- The decode traps of an LM word (R40). -/
def lmDecode (w : Word) (p : Split) (t x : BitVec 8) (sc : BitVec 2) (n : Nat) : Except Stop Unit := do
  need (!(x.msb && sc != 0)) (illop p w)
  need (t.toNat % n == 0) (illopnd p w)

/-- A plain lane load (R162). Its translation follows the fence under way (R343). -/
def lmLoad (w : Word) (space : Space) (size : Nat) (t x : BitVec 8) (b : BitVec 6) (sc : BitVec 2)
    (s : State) : Host.Outcome State Fault Refusal :=
  issue s fun c p s => do
    let n := widthRegs size
    lmDecode w p t x sc n
    let u : Uses := { rd := lmIndex x, wr := group t n, us := [b.toNat] }
    checkUses w u false s c p
    let (s, p) ← fenceGate s c p
    let as := (activeLanes c p).map fun l => (l, lmAddr c l x b sc)
    let (s, ls) ← checkLoad s c p space size as
    checkPoison u s c p
    raiseIf (loadPoison s c p space size as ls)
    pure (pushLoad s c p {
      sid := p.sid, space := space, lanes := ls, size := size, uniform := false, dst := c.wb + t.toNat
      regs := n, pc := p.pc, seq := 0, cpol := c.cpol, acq := none, reserve := false, anc := p.anc
      after := p.acqAt, fresh := true })

/-- The bytes that a lane stores from its register group (R161). -/
def regBytes (c : Crew) (lane : Nat) (t n size : Nat) : List Byte :=
  ((List.range n).flatMap fun i => leBytes 4 (c.v lane (t + i)).toNat).take size

/-- A plain lane store (R162): ALIGN and the scratchpad checks are precise; the rest follows in the store path. A squad-window
store that fails its checks is discarded and its trap due at the next boundary (R138, R334). -/
def lmStore (w : Word) (space : Space) (size : Nat) (t x : BitVec 8) (b : BitVec 6) (sc : BitVec 2)
    (s : State) : Host.Outcome State Fault Refusal :=
  issue s fun c p s => do
    let n := widthRegs size
    lmDecode w p t x sc n
    let u : Uses := { rd := lmIndex x ++ group t n, us := [b.toNat] }
    checkUses w u false s c p
    let as := (activeLanes c p).map fun l => (l, lmAddr c l x b sc)
    checkAlign p size as
    if space == .scratch then checkScratch s c p size as else pure ()
    checkPoison u s c p
    await (space == .scratch || p.storeRoom)
    let (s, p) ← fenceGate s c p
    match if space == .squad then checkSquad s c p.pc as else .ok () with
    | .error (.trap e) => pure ((s.modSplit c.cid p.sid fun k =>
        { k with due := k.due ++ [(s.nextId, e)] }).bumpId.advance c p)
    | _ => pure (pushStore s c p {
        space := space, lanes := as.map fun a => ⟨a.1, a.2, regBytes c a.1 t.toNat n size⟩, size := size
        red := none, word := w, uniform := false, pc := p.pc, sid := p.sid, seq := 0, anc := p.anc, hint := c.shint, rel := none, bad := [] })

/-- LDG.B (R162, Table 9.2). -/
def execLdgB (t x : BitVec 8) (b : BitVec 6) (sc : BitVec 2) (s : State) :
    Host.Outcome State Fault Refusal :=
  lmLoad (encode (.ldgB t x b sc)) .global 1 t x b sc s

/-- LDG.H (R162, Table 9.2). -/
def execLdgH (t x : BitVec 8) (b : BitVec 6) (sc : BitVec 2) (s : State) :
    Host.Outcome State Fault Refusal :=
  lmLoad (encode (.ldgH t x b sc)) .global 2 t x b sc s

/-- LDG.W (R162, Table 9.2). -/
def execLdgW (t x : BitVec 8) (b : BitVec 6) (sc : BitVec 2) (s : State) :
    Host.Outcome State Fault Refusal :=
  lmLoad (encode (.ldgW t x b sc)) .global 4 t x b sc s

/-- LDG.D (R162, Table 9.2). -/
def execLdgD (t x : BitVec 8) (b : BitVec 6) (sc : BitVec 2) (s : State) :
    Host.Outcome State Fault Refusal :=
  lmLoad (encode (.ldgD t x b sc)) .global 8 t x b sc s

/-- LDG.Q (R162, Table 9.2). -/
def execLdgQ (t x : BitVec 8) (b : BitVec 6) (sc : BitVec 2) (s : State) :
    Host.Outcome State Fault Refusal :=
  lmLoad (encode (.ldgQ t x b sc)) .global 16 t x b sc s

/-- STG.B (R162, Table 9.2). -/
def execStgB (t x : BitVec 8) (b : BitVec 6) (sc : BitVec 2) (s : State) :
    Host.Outcome State Fault Refusal :=
  lmStore (encode (.stgB t x b sc)) .global 1 t x b sc s

/-- STG.H (R162, Table 9.2). -/
def execStgH (t x : BitVec 8) (b : BitVec 6) (sc : BitVec 2) (s : State) :
    Host.Outcome State Fault Refusal :=
  lmStore (encode (.stgH t x b sc)) .global 2 t x b sc s

/-- STG.W (R162, Table 9.2). -/
def execStgW (t x : BitVec 8) (b : BitVec 6) (sc : BitVec 2) (s : State) :
    Host.Outcome State Fault Refusal :=
  lmStore (encode (.stgW t x b sc)) .global 4 t x b sc s

/-- STG.D (R162, Table 9.2). -/
def execStgD (t x : BitVec 8) (b : BitVec 6) (sc : BitVec 2) (s : State) :
    Host.Outcome State Fault Refusal :=
  lmStore (encode (.stgD t x b sc)) .global 8 t x b sc s

/-- STG.Q (R162, Table 9.2). -/
def execStgQ (t x : BitVec 8) (b : BitVec 6) (sc : BitVec 2) (s : State) :
    Host.Outcome State Fault Refusal :=
  lmStore (encode (.stgQ t x b sc)) .global 16 t x b sc s

/-- LDS.B (R162, Table 9.2). -/
def execLdsB (t x : BitVec 8) (b : BitVec 6) (sc : BitVec 2) (s : State) :
    Host.Outcome State Fault Refusal :=
  lmLoad (encode (.ldsB t x b sc)) .scratch 1 t x b sc s

/-- LDS.H (R162, Table 9.2). -/
def execLdsH (t x : BitVec 8) (b : BitVec 6) (sc : BitVec 2) (s : State) :
    Host.Outcome State Fault Refusal :=
  lmLoad (encode (.ldsH t x b sc)) .scratch 2 t x b sc s

/-- LDS.W (R162, Table 9.2). -/
def execLdsW (t x : BitVec 8) (b : BitVec 6) (sc : BitVec 2) (s : State) :
    Host.Outcome State Fault Refusal :=
  lmLoad (encode (.ldsW t x b sc)) .scratch 4 t x b sc s

/-- LDS.D (R162, Table 9.2). -/
def execLdsD (t x : BitVec 8) (b : BitVec 6) (sc : BitVec 2) (s : State) :
    Host.Outcome State Fault Refusal :=
  lmLoad (encode (.ldsD t x b sc)) .scratch 8 t x b sc s

/-- LDS.Q (R162, Table 9.2). -/
def execLdsQ (t x : BitVec 8) (b : BitVec 6) (sc : BitVec 2) (s : State) :
    Host.Outcome State Fault Refusal :=
  lmLoad (encode (.ldsQ t x b sc)) .scratch 16 t x b sc s

/-- STS.B (R162, Table 9.2). -/
def execStsB (t x : BitVec 8) (b : BitVec 6) (sc : BitVec 2) (s : State) :
    Host.Outcome State Fault Refusal :=
  lmStore (encode (.stsB t x b sc)) .scratch 1 t x b sc s

/-- STS.H (R162, Table 9.2). -/
def execStsH (t x : BitVec 8) (b : BitVec 6) (sc : BitVec 2) (s : State) :
    Host.Outcome State Fault Refusal :=
  lmStore (encode (.stsH t x b sc)) .scratch 2 t x b sc s

/-- STS.W (R162, Table 9.2). -/
def execStsW (t x : BitVec 8) (b : BitVec 6) (sc : BitVec 2) (s : State) :
    Host.Outcome State Fault Refusal :=
  lmStore (encode (.stsW t x b sc)) .scratch 4 t x b sc s

/-- STS.D (R162, Table 9.2). -/
def execStsD (t x : BitVec 8) (b : BitVec 6) (sc : BitVec 2) (s : State) :
    Host.Outcome State Fault Refusal :=
  lmStore (encode (.stsD t x b sc)) .scratch 8 t x b sc s

/-- STS.Q (R162, Table 9.2). -/
def execStsQ (t x : BitVec 8) (b : BitVec 6) (sc : BitVec 2) (s : State) :
    Host.Outcome State Fault Refusal :=
  lmStore (encode (.stsQ t x b sc)) .scratch 16 t x b sc s

/-- LDQ.W (R162, Table 9.2). -/
def execLdqW (t x : BitVec 8) (b : BitVec 6) (sc : BitVec 2) (s : State) :
    Host.Outcome State Fault Refusal :=
  lmLoad (encode (.ldqW t x b sc)) .squad 4 t x b sc s

/-- STQ.W (R162, Table 9.2). -/
def execStqW (t x : BitVec 8) (b : BitVec 6) (sc : BitVec 2) (s : State) :
    Host.Outcome State Fault Refusal :=
  lmStore (encode (.stqW t x b sc)) .squad 4 t x b sc s

/-! ## SLD and SST (R165) -/

/-- The address of SLD and SST (R165). -/
def uiAddr (c : Crew) (a : BitVec 6) (i : BitVec 12) : DWord := c.u a.toNat + i.signExtend 64

/-- SLD: a global load once per split (R165). -/
def uniLoad (w : Word) (size : Nat) (d a : BitVec 6) (i : BitVec 12) (s : State) :
    Host.Outcome State Fault Refusal :=
  issue s fun c p s => do
    let u : Uses := { us := [a.toNat], ud := [d.toNat] }
    checkUses w u false s c p
    let (s, p) ← fenceGate s c p
    let as := [(0, uiAddr c a i)]
    let (s, ls) ← checkLoad s c p .global size as
    checkPoison u s c p
    raiseIf (loadPoison s c p .global size as ls)
    pure (pushLoad s c p {
      sid := p.sid, space := .global, lanes := ls, size := size, uniform := true, dst := d.toNat
      regs := 1, pc := p.pc, seq := 0, cpol := c.cpol, acq := none, reserve := false, anc := p.anc
      after := p.acqAt, fresh := true })

/-- SST: a global store once per split (R165). -/
def uniStore (w : Word) (size : Nat) (t a : BitVec 6) (i : BitVec 12) (s : State) :
    Host.Outcome State Fault Refusal :=
  issue s fun c p s => do
    let u : Uses := { us := [a.toNat, t.toNat] }
    checkUses w u false s c p
    let as := [(0, uiAddr c a i)]
    checkAlign p size as
    checkPoison u s c p
    await p.storeRoom
    let (s, p) ← fenceGate s c p
    pure (pushStore s c p {
      space := .global, lanes := [⟨0, uiAddr c a i, leBytes size (c.u t.toNat).toNat⟩], size := size
      red := none, word := w, uniform := true, pc := p.pc, sid := p.sid, seq := 0, anc := p.anc, hint := c.shint, rel := none, bad := [] })

/-- SLD.B (R165). -/
def execSldB (d a : BitVec 6) (i : BitVec 12) (s : State) : Host.Outcome State Fault Refusal :=
  uniLoad (encode (.sldB d a i)) 1 d a i s

/-- SLD.H (R165). -/
def execSldH (d a : BitVec 6) (i : BitVec 12) (s : State) : Host.Outcome State Fault Refusal :=
  uniLoad (encode (.sldH d a i)) 2 d a i s

/-- SLD.W (R165). -/
def execSldW (d a : BitVec 6) (i : BitVec 12) (s : State) : Host.Outcome State Fault Refusal :=
  uniLoad (encode (.sldW d a i)) 4 d a i s

/-- SLD.D (R165). -/
def execSldD (d a : BitVec 6) (i : BitVec 12) (s : State) : Host.Outcome State Fault Refusal :=
  uniLoad (encode (.sldD d a i)) 8 d a i s

/-- SST.B (R165). -/
def execSstB (t a : BitVec 6) (i : BitVec 12) (s : State) : Host.Outcome State Fault Refusal :=
  uniStore (encode (.sstB t a i)) 1 t a i s

/-- SST.H (R165). -/
def execSstH (t a : BitVec 6) (i : BitVec 12) (s : State) : Host.Outcome State Fault Refusal :=
  uniStore (encode (.sstH t a i)) 2 t a i s

/-- SST.W (R165). -/
def execSstW (t a : BitVec 6) (i : BitVec 12) (s : State) : Host.Outcome State Fault Refusal :=
  uniStore (encode (.sstW t a i)) 4 t a i s

/-- SST.D (R165). -/
def execSstD (t a : BitVec 6) (i : BitVec 12) (s : State) : Host.Outcome State Fault Refusal :=
  uniStore (encode (.sstD t a i)) 8 t a i s

/-! ## LDA, STL and FENCE (R166, R167) -/

/-- The lanes' 64-bit addresses of an LA word (R41). -/
def laAddrs (c : Crew) (p : Split) (a : BitVec 8) : List (Nat × DWord) :=
  (activeLanes c p).map fun l => (l, c.vPair l a.toNat)

/-- The decode traps of an LA word with a group of `g` registers (R41). -/
def laDecode (w : Word) (p : Split) (t a : BitVec 8) (g : Nat) : Except Stop Unit :=
  need (a.toNat % 2 == 0 && !a.msb && t.toNat % g == 0) (illopnd p w)

/-- LDA.W: a word load with acquire semantics at a scope (R166): the later memory accesses of the split wait for it (`fenceGate`). -/
def execLdaW (t a : BitVec 8) (sc : Scope) (s : State) : Host.Outcome State Fault Refusal :=
  let w := encode (.ldaW t a sc)
  issue s fun c p s => do
    laDecode w p t a 1
    let u : Uses := { rd := [a.toNat, a.toNat + 1], wr := [t.toNat] }
    checkUses w u false s c p
    let (s, p) ← fenceGate s c p
    let as := laAddrs c p a
    let (s, ls) ← checkLoad s c p .global 4 as
    checkPoison u s c p
    raiseIf (loadPoison s c p .global 4 as ls)
    if as.isEmpty then pure ((s.acquireBy c.cid p.sid c.core sc).advance c p)
    else
      pure (pushLoad s c p {
        sid := p.sid, space := .global, lanes := ls, size := 4, uniform := false, dst := c.wb + t.toNat
        regs := 1, pc := p.pc, seq := 0, cpol := c.cpol, acq := some sc, reserve := false, anc := p.anc
        after := p.acqAt, fresh := true })

/-- STL.W: a word store with release semantics at a scope (R166): it issues once every earlier store has translated (R336), and is
performed once every earlier access is done at the scope. It is a mark (R351). -/
def execStlW (t a : BitVec 8) (sc : Scope) (s : State) : Host.Outcome State Fault Refusal :=
  let w := encode (.stlW t a sc)
  issue s fun c p s => do
    laDecode w p t a 1
    let u : Uses := { rd := [a.toNat, a.toNat + 1, t.toNat] }
    checkUses w u true s c p
    let as := laAddrs c p a
    checkAlign p 4 as
    checkPoison u s c p
    await (s.drainedFor c p)
    await p.storeRoom
    let (s, p) ← fenceGate s c p
    pure ((pushStore s c p {
      space := .global, lanes := as.map fun a => ⟨a.1, a.2, regBytes c a.1 t.toNat 1 4⟩, size := 4
      red := none, word := w, uniform := false, pc := p.pc, sid := p.sid, seq := 0, anc := p.anc, hint := c.shint, rel := some sc, bad := [] }).takeMark
        c.cid p.sid id)

/-- FENCE (R167): with a release part it issues once every earlier store has translated (R336), and is a mark (R351). The later
memory accesses of the split wait for its parts (`fenceGate`). -/
def execFence (sc : Scope) (e : Sem) (s : State) : Host.Outcome State Fault Refusal :=
  issue s fun c p s => do
    need (e != .relaxed) (illop p (encode (.fence sc e)))
    if semRel e then await (s.drainedFor c p) else pure ()
    let (s, p) ← fenceGate s c p
    let s := ((s.modSplit c.cid p.sid fun q => { q with fence := some ⟨sc, e, s.nextId⟩ }).bumpId).advance c p
    pure (if semRel e then s.takeMark c.cid p.sid id else s)

end Sys2Proof.Machine
end

