-- ==== Sys2Proof/Machine/Atomics.lean ====
section
/-! DEFINITION. Reservations, atomics and reductions (R152, R168 to R172).

An ATOM or RED sends one operation per lane to the slice adders, which perform it later (`sliceAdderOp`). -/

namespace Sys2Proof.Machine

/-- An FP32 sum rounded once in RN, without flags (R80, R152). -/
def addF32 (x y : Word) : Word := BitVec.ofNat 32 (Fmt.f32.add 32 .rn (readF32 x) (readF32 y)).1

/-- The new value that an operation gives a word or doubleword (Table 9.4). -/
def AOp.apply (o : AOp) (old x cmp : DWord) : DWord :=
  let a : Word := old.truncate 32
  let b : Word := x.truncate 32
  let z (w : Word) : DWord := w.zeroExtend 64
  match o with
  | .add => z (a + b)
  | .and => z (a &&& b)
  | .or => z (a ||| b)
  | .xor => z (a ^^^ b)
  | .minS => z (if a.slt b then a else b)
  | .minU => z (if a.ult b then a else b)
  | .maxS => z (if a.slt b then b else a)
  | .maxU => z (if a.ult b then b else a)
  | .xchg => z b
  | .cas => if old == cmp then x else old
  | .addF => z (addF32 a b)
  | .addD => old + x
  | .xchgD => x
  | .casD => if old == cmp then x else old
  | .stc => z b

/-- The register group size G of an operation (Table 3.3). -/
def AOp.group : AOp → Nat
  | .cas => 2
  | .addD => 2
  | .xchgD => 2
  | .casD => 4
  | _ => 1

/-- Whether an operation works on 8 bytes (Table 9.4). -/
def AOp.wide : AOp → Bool
  | .addD => true
  | .xchgD => true
  | .casD => true
  | _ => false

/-- The operand and the compare value of a lane (Table 9.4). -/
def AOp.operands (o : AOp) (c : Crew) (lane t : Nat) : DWord × DWord :=
  let z (n : Nat) : DWord := (c.v lane n).zeroExtend 64
  match o with
  | .cas => (z (t + 1), z t)
  | .casD => (c.vPair lane (t + 2), c.vPair lane t)
  | .addD => (c.vPair lane t, 0)
  | .xchgD => (c.vPair lane t, 0)
  | _ => (z t, 0)

/-- The registers of the result that one lane writes (Table 9.4, R171): the old value, the swap bit of a compare and
swap, then WSEQ and zeros for .SEQ. -/
def AOp.results (o : AOp) (old cmp : DWord) (seq : Option Half) : List Word :=
  let lo : Word := old.truncate 32
  let hi : Word := (old >>> 32).truncate 32
  let bit : Word := if old == cmp then 1 else 0
  let own := match o with
    | .cas => [lo, bit]
    | .addD => [lo, hi]
    | .xchgD => [lo, hi]
    | .casD => [lo, hi, bit, 0]
    | _ => [lo]
  match seq with
  | none => own
  | some q => own ++ q.zeroExtend 32 :: List.replicate (o.group - 1) 0

/-- The hint of an ATOM or RED: the higher of LHINT and SHINT (R151). -/
def Crew.bothHint (c : Crew) : BitVec 2 :=
  if c.lhint == 2 || c.shint == 2 then 2 else if c.lhint == 1 && c.shint == 1 then 1 else 0

/-- Sends the lanes' operations to the slice adders, in lane order (R159, R170). -/
def pushAdds (s : State) (qs : List AddReq) : State :=
  qs.foldl (fun s q => { s with adds := s.adds ++ [{ q with id := s.nextId }] }.bumpId) s

/-- ATOM and ATOM.SEQ (R170, R171): checked and translated at issue, one operation per active lane; a mark (R351). -/
def atom (w : Word) (o : AOp) (seq : Bool) (t a : BitVec 8) (sc : Scope) (e : Sem) (s : State) :
    Host.Outcome State Fault Refusal :=
  issue s fun c p s => do
    let g := o.group
    let n := if seq then 2 * g else g
    laDecode w p t a n
    let u : Uses := { rd := [a.toNat, a.toNat + 1] ++ group t g, wr := group t n }
    checkUses w u true s c p
    let (s, p) ← fenceGate s c p
    let as := laAddrs c p a
    let size := if o.wide then 8 else 4
    checkAlign p size as
    let (s, ps) ← translateLanes s c p .write as
    checkPoison u s c p
    raiseIf (loadPoison s c p .global size as (ps.map fun q => ⟨q.1, 0, q.2, 0, none⟩))
    if semRel e then await (s.drainedFor c p) else pure ()
    let acq := if semAcq e then some sc else none
    let s := if as.isEmpty && semAcq e then s.acquireBy c.cid p.sid c.core sc else s
    let n := s.nextId
    let s := pushAdds s.bumpId (ps.map fun q =>
      let xc := o.operands c q.1 t.toNat
      { id := 0, core := c.core, cid := c.cid, sid := p.sid, asid := c.asid, addr := q.2, op := o, wide := o.wide
        x := xc.1, cmp := xc.2, poison := false
        ret := some { lane := q.1, dst := c.wb + t.toNat, group := g, wseq := seq }
        acq := acq, job := none, hint := c.bothHint, seq := n, anc := p.anc
        rel := if semRel e then some sc else none, paid := false })
    pure ((s.advance c p).markFor c.cid p.sid n)

/-- RED (R172): posted, translates after issue; a semantic other than none and .REL raises ILLOP (R41). A poisoned operand raises no
trap and poisons the word (Table 21.8). A mark (R351). -/
def red (w : Word) (o : AOp) (t a : BitVec 8) (sc : Scope) (e : Sem) (s : State) :
    Host.Outcome State Fault Refusal :=
  issue s fun c p s => do
    need (!semAcq e) (illop p w)
    let g := if o.wide then 2 else 1
    laDecode w p t a g
    let u : Uses := { rd := [a.toNat, a.toNat + 1] ++ group t g }
    checkUses w u true s c p
    let as := laAddrs c p a
    let size := 4 * g
    checkAlign p size as
    checkPoison { rd := [a.toNat, a.toNat + 1] } s c p
    if semRel e then await (s.drainedFor c p) else pure ()
    await p.storeRoom
    let (s, p) ← fenceGate s c p
    pure ((pushStore s c p {
      space := .global, lanes := as.map fun a => ⟨a.1, a.2, regBytes c a.1 t.toNat g size⟩, size := size
      red := some o, word := w, uniform := false, pc := p.pc, sid := p.sid, seq := 0, anc := p.anc, hint := c.bothHint
      rel := if semRel e then some sc else none
      bad := (as.map (·.1)).filter fun l => (group t g).any fun n => c.vpoison.contains (32 * (c.wb + n) + l) }).takeMark
        c.cid p.sid id)

/-- LDR.W: a word load that sets the lane's reservation when it reads (R168); it ends the one that the lane holds, once an earlier STC of
the lane is performed. -/
def execLdrW (t a : BitVec 8) (s : State) : Host.Outcome State Fault Refusal :=
  let w := encode (.ldrW t a)
  issue s fun c p s => do
    laDecode w p t a 1
    let u : Uses := { rd := [a.toNat, a.toNat + 1], wr := [t.toNat] }
    checkUses w u false s c p
    let (s, p) ← fenceGate s c p
    let as := laAddrs c p a
    let (s, ls) ← checkLoad s c p .global 4 as
    checkPoison u s c p
    raiseIf (loadPoison s c p .global 4 as ls)
    await (s.adds.all fun q => !(q.cid == c.cid && q.op == .stc && as.any fun a => q.ret.any fun r => r.lane == a.1))
    let s := s.modCrew c.cid fun k =>
      { k with resv := k.resv.filter fun r => !(as.any fun a => a.1 == r.lane) }
    pure (pushLoad s c p {
      sid := p.sid, space := .global, lanes := ls, size := 4, uniform := false, dst := c.wb + t.toNat
      regs := 1, pc := p.pc, seq := 0, cpol := c.cpol, acq := none, reserve := true, anc := p.anc
      after := p.acqAt, fresh := true })

/-- STC.W: checked and translated at issue, as an atomic is; its lanes store at the home slices where their reservations are valid, and
write 1 or 0 to T + 1 (R168, R169); a mark (R351). -/
def execStcW (t a : BitVec 8) (s : State) : Host.Outcome State Fault Refusal :=
  let w := encode (.stcW t a)
  issue s fun c p s => do
    laDecode w p t a 2
    let u : Uses := { rd := [a.toNat, a.toNat + 1, t.toNat], wr := [t.toNat + 1] }
    checkUses w u true s c p
    let (s, p) ← fenceGate s c p
    let as := laAddrs c p a
    checkAlign p 4 as
    let (s, ps) ← translateLanes s c p .write as
    checkPoison u s c p
    raiseIf (loadPoison s c p .global 4 as (ps.map fun q => ⟨q.1, 0, q.2, 0, none⟩))
    let n := s.nextId
    let s := pushAdds s.bumpId ((List.zip as ps).map fun q =>
      { id := 0, core := c.core, cid := c.cid, sid := p.sid, asid := c.asid, addr := q.2.2, op := .stc, wide := false
        x := (c.v q.1.1 t.toNat).zeroExtend 64, cmp := q.1.2, poison := false
        ret := some { lane := q.1.1, dst := c.wb + t.toNat + 1, group := 1, wseq := false }
        acq := none, job := none, hint := c.shint, seq := n, anc := p.anc, rel := none, paid := false })
    pure ((s.advance c p).markFor c.cid p.sid n)

/-- ATOM Add (R170, Table 9.4). -/
def execAtomAdd (t a : BitVec 8) (sc : Scope) (e : Sem) (s : State) : Host.Outcome State Fault Refusal :=
  atom (encode (.atomAdd t a sc e)) .add false t a sc e s

/-- ATOM And (R170, Table 9.4). -/
def execAtomAnd (t a : BitVec 8) (sc : Scope) (e : Sem) (s : State) : Host.Outcome State Fault Refusal :=
  atom (encode (.atomAnd t a sc e)) .and false t a sc e s

/-- ATOM Or (R170, Table 9.4). -/
def execAtomOr (t a : BitVec 8) (sc : Scope) (e : Sem) (s : State) : Host.Outcome State Fault Refusal :=
  atom (encode (.atomOr t a sc e)) .or false t a sc e s

/-- ATOM Xor (R170, Table 9.4). -/
def execAtomXor (t a : BitVec 8) (sc : Scope) (e : Sem) (s : State) : Host.Outcome State Fault Refusal :=
  atom (encode (.atomXor t a sc e)) .xor false t a sc e s

/-- ATOM MinS (R170, Table 9.4). -/
def execAtomMinS (t a : BitVec 8) (sc : Scope) (e : Sem) (s : State) : Host.Outcome State Fault Refusal :=
  atom (encode (.atomMinS t a sc e)) .minS false t a sc e s

/-- ATOM MinU (R170, Table 9.4). -/
def execAtomMinU (t a : BitVec 8) (sc : Scope) (e : Sem) (s : State) : Host.Outcome State Fault Refusal :=
  atom (encode (.atomMinU t a sc e)) .minU false t a sc e s

/-- ATOM MaxS (R170, Table 9.4). -/
def execAtomMaxS (t a : BitVec 8) (sc : Scope) (e : Sem) (s : State) : Host.Outcome State Fault Refusal :=
  atom (encode (.atomMaxS t a sc e)) .maxS false t a sc e s

/-- ATOM MaxU (R170, Table 9.4). -/
def execAtomMaxU (t a : BitVec 8) (sc : Scope) (e : Sem) (s : State) : Host.Outcome State Fault Refusal :=
  atom (encode (.atomMaxU t a sc e)) .maxU false t a sc e s

/-- ATOM Xchg (R170, Table 9.4). -/
def execAtomXchg (t a : BitVec 8) (sc : Scope) (e : Sem) (s : State) : Host.Outcome State Fault Refusal :=
  atom (encode (.atomXchg t a sc e)) .xchg false t a sc e s

/-- ATOM Cas (R170, Table 9.4). -/
def execAtomCas (t a : BitVec 8) (sc : Scope) (e : Sem) (s : State) : Host.Outcome State Fault Refusal :=
  atom (encode (.atomCas t a sc e)) .cas false t a sc e s

/-- ATOM AddF (R170, Table 9.4). -/
def execAtomAddF (t a : BitVec 8) (sc : Scope) (e : Sem) (s : State) : Host.Outcome State Fault Refusal :=
  atom (encode (.atomAddF t a sc e)) .addF false t a sc e s

/-- ATOM AddD (R170, Table 9.4). -/
def execAtomAddD (t a : BitVec 8) (sc : Scope) (e : Sem) (s : State) : Host.Outcome State Fault Refusal :=
  atom (encode (.atomAddD t a sc e)) .addD false t a sc e s

/-- ATOM XchgD (R170, Table 9.4). -/
def execAtomXchgD (t a : BitVec 8) (sc : Scope) (e : Sem) (s : State) : Host.Outcome State Fault Refusal :=
  atom (encode (.atomXchgD t a sc e)) .xchgD false t a sc e s

/-- ATOM CasD (R170, Table 9.4). -/
def execAtomCasD (t a : BitVec 8) (sc : Scope) (e : Sem) (s : State) : Host.Outcome State Fault Refusal :=
  atom (encode (.atomCasD t a sc e)) .casD false t a sc e s

/-- ATOM.SEQ Add (R171). -/
def execAtomSeqAdd (t a : BitVec 8) (sc : Scope) (e : Sem) (s : State) : Host.Outcome State Fault Refusal :=
  atom (encode (.atomSeqAdd t a sc e)) .add true t a sc e s

/-- ATOM.SEQ And (R171). -/
def execAtomSeqAnd (t a : BitVec 8) (sc : Scope) (e : Sem) (s : State) : Host.Outcome State Fault Refusal :=
  atom (encode (.atomSeqAnd t a sc e)) .and true t a sc e s

/-- ATOM.SEQ Or (R171). -/
def execAtomSeqOr (t a : BitVec 8) (sc : Scope) (e : Sem) (s : State) : Host.Outcome State Fault Refusal :=
  atom (encode (.atomSeqOr t a sc e)) .or true t a sc e s

/-- ATOM.SEQ Xor (R171). -/
def execAtomSeqXor (t a : BitVec 8) (sc : Scope) (e : Sem) (s : State) : Host.Outcome State Fault Refusal :=
  atom (encode (.atomSeqXor t a sc e)) .xor true t a sc e s

/-- ATOM.SEQ MinS (R171). -/
def execAtomSeqMinS (t a : BitVec 8) (sc : Scope) (e : Sem) (s : State) : Host.Outcome State Fault Refusal :=
  atom (encode (.atomSeqMinS t a sc e)) .minS true t a sc e s

/-- ATOM.SEQ MinU (R171). -/
def execAtomSeqMinU (t a : BitVec 8) (sc : Scope) (e : Sem) (s : State) : Host.Outcome State Fault Refusal :=
  atom (encode (.atomSeqMinU t a sc e)) .minU true t a sc e s

/-- ATOM.SEQ MaxS (R171). -/
def execAtomSeqMaxS (t a : BitVec 8) (sc : Scope) (e : Sem) (s : State) : Host.Outcome State Fault Refusal :=
  atom (encode (.atomSeqMaxS t a sc e)) .maxS true t a sc e s

/-- ATOM.SEQ MaxU (R171). -/
def execAtomSeqMaxU (t a : BitVec 8) (sc : Scope) (e : Sem) (s : State) : Host.Outcome State Fault Refusal :=
  atom (encode (.atomSeqMaxU t a sc e)) .maxU true t a sc e s

/-- ATOM.SEQ Xchg (R171). -/
def execAtomSeqXchg (t a : BitVec 8) (sc : Scope) (e : Sem) (s : State) : Host.Outcome State Fault Refusal :=
  atom (encode (.atomSeqXchg t a sc e)) .xchg true t a sc e s

/-- ATOM.SEQ Cas (R171). -/
def execAtomSeqCas (t a : BitVec 8) (sc : Scope) (e : Sem) (s : State) : Host.Outcome State Fault Refusal :=
  atom (encode (.atomSeqCas t a sc e)) .cas true t a sc e s

/-- ATOM.SEQ AddF (R171). -/
def execAtomSeqAddF (t a : BitVec 8) (sc : Scope) (e : Sem) (s : State) : Host.Outcome State Fault Refusal :=
  atom (encode (.atomSeqAddF t a sc e)) .addF true t a sc e s

/-- ATOM.SEQ AddD (R171). -/
def execAtomSeqAddD (t a : BitVec 8) (sc : Scope) (e : Sem) (s : State) : Host.Outcome State Fault Refusal :=
  atom (encode (.atomSeqAddD t a sc e)) .addD true t a sc e s

/-- ATOM.SEQ XchgD (R171). -/
def execAtomSeqXchgD (t a : BitVec 8) (sc : Scope) (e : Sem) (s : State) : Host.Outcome State Fault Refusal :=
  atom (encode (.atomSeqXchgD t a sc e)) .xchgD true t a sc e s

/-- ATOM.SEQ CasD (R171). -/
def execAtomSeqCasD (t a : BitVec 8) (sc : Scope) (e : Sem) (s : State) : Host.Outcome State Fault Refusal :=
  atom (encode (.atomSeqCasD t a sc e)) .casD true t a sc e s

/-- RED Add (R172). -/
def execRedAdd (t a : BitVec 8) (sc : Scope) (e : Sem) (s : State) : Host.Outcome State Fault Refusal :=
  red (encode (.redAdd t a sc e)) .add t a sc e s

/-- RED And (R172). -/
def execRedAnd (t a : BitVec 8) (sc : Scope) (e : Sem) (s : State) : Host.Outcome State Fault Refusal :=
  red (encode (.redAnd t a sc e)) .and t a sc e s

/-- RED Or (R172). -/
def execRedOr (t a : BitVec 8) (sc : Scope) (e : Sem) (s : State) : Host.Outcome State Fault Refusal :=
  red (encode (.redOr t a sc e)) .or t a sc e s

/-- RED Xor (R172). -/
def execRedXor (t a : BitVec 8) (sc : Scope) (e : Sem) (s : State) : Host.Outcome State Fault Refusal :=
  red (encode (.redXor t a sc e)) .xor t a sc e s

/-- RED MinS (R172). -/
def execRedMinS (t a : BitVec 8) (sc : Scope) (e : Sem) (s : State) : Host.Outcome State Fault Refusal :=
  red (encode (.redMinS t a sc e)) .minS t a sc e s

/-- RED MinU (R172). -/
def execRedMinU (t a : BitVec 8) (sc : Scope) (e : Sem) (s : State) : Host.Outcome State Fault Refusal :=
  red (encode (.redMinU t a sc e)) .minU t a sc e s

/-- RED MaxS (R172). -/
def execRedMaxS (t a : BitVec 8) (sc : Scope) (e : Sem) (s : State) : Host.Outcome State Fault Refusal :=
  red (encode (.redMaxS t a sc e)) .maxS t a sc e s

/-- RED MaxU (R172). -/
def execRedMaxU (t a : BitVec 8) (sc : Scope) (e : Sem) (s : State) : Host.Outcome State Fault Refusal :=
  red (encode (.redMaxU t a sc e)) .maxU t a sc e s

/-- RED AddF (R172). -/
def execRedAddF (t a : BitVec 8) (sc : Scope) (e : Sem) (s : State) : Host.Outcome State Fault Refusal :=
  red (encode (.redAddF t a sc e)) .addF t a sc e s

/-- RED AddD (R172). -/
def execRedAddD (t a : BitVec 8) (sc : Scope) (e : Sem) (s : State) : Host.Outcome State Fault Refusal :=
  red (encode (.redAddD t a sc e)) .addD t a sc e s

end Sys2Proof.Machine
end

