-- ==== Sys2Proof/Machine/Flow.lean ====
section
/-! DEFINITION. Control flow: the structured lane instructions, splits, branches, CALL and RET with the register
window, votes, and the instructions that end lanes or leave a trap (R29, R30, R67, R243 to R259, R332, R333,
R337). -/

namespace Sys2Proof.Machine

/-! ## The register window (R29, R30) -/

/-- The granules that a window touches. -/
def Crew.touched (c : Crew) (wb : Nat) : List Nat :=
  let lo := wb / 32
  let hi := (wb + c.ws - 1) / 32
  (List.range (hi - lo + 1)).map (lo + ·)

/-- The distance of a granule from the granules of a window. -/
def farness (win : List Nat) (g : Nat) : Nat :=
  let lo := win.headD 0
  let hi := win.getLastD 0
  if g < lo then lo - g else g - hi

/-- The resident granule farthest from a window; the lowest of several (log entry 10). -/
def farthest (win : List Nat) (gs : List Nat) : Option Nat :=
  gs.foldl (fun b g =>
    match b with
    | none => some g
    | some h => if farness win h < farness win g then some g else b) none

/-- Which granules leave so that those of a window fit: the list, and the granules resident after. -/
def evictFor (cap : Nat) (win res : List Nat) : Nat → List Nat × List Nat
  | 0 => ([], res ++ win.filter fun g => !res.contains g)
  | k + 1 =>
    let missing := win.filter fun g => !res.contains g
    if res.length + missing.length ≤ cap then ([], res ++ missing)
    else
      match farthest win (res.filter fun g => !win.contains g) with
      | none => ([], res ++ missing)
      | some g =>
        let r := evictFor cap win (res.erase g) k
        (g :: r.1, r.2)

/-- A granule leaves for its place in the spill area (R29), once the home slices may take it and its fabric message, if it needs one, can
be sent (R316, R320). Where its route has stayed unusable the write is dropped. -/
def spillTo (p : Split) (s : State) (c : Crew) (g pa : Nat) : Res := do
  await (s.unheld ((List.range 16).map (lineOf pa + ·)))
  reachable (s.fabricOk c.core c.asid pa true true || (p.muted && s.fabricStuck c.core c.asid pa true)) pa true
  if s.fabricOk c.core c.asid pa true true then pure ((s.fabricSend c.core c.asid pa true true).spillOut c g pa)
  else pure ((s.modCrew c.cid fun k => { k with spilled := if k.spilled.contains g then k.spilled else k.spilled ++ [g] }).dropWrites
    (List.zip ((List.range 4096).map (pa + ·)) (c.granuleBytes g)))

/-- A granule comes back from its place in the spill area (R29), as `spillTo`; where its route has stayed unusable its registers come
back poisoned (R320). -/
def spillFrom (p : Split) (s : State) (c : Crew) (g pa : Nat) : Res := do
  reachable (s.fabricOk c.core c.asid pa false true || (p.muted && s.fabricStuck c.core c.asid pa false)) pa false
  if s.fabricOk c.core c.asid pa false true then pure ((s.fabricSend c.core c.asid pa false true).spillIn c g pa)
  else pure (s.modCrew c.cid fun k => { k with
    vpoison := (k.vpoison.filter fun x => x / 1024 != g) ++ (List.range 1024).map (1024 * g + ·) })

/-- Makes a window resident (R29): the granules that must leave are written to the spill area, those that it holds are
read back; a page that does not translate raises LDFAULT with SPILL set (Table 21.3), once a release that the split has under way is done
(R343). A granule that has never left comes
as it stands. -/
def makeResident (s : State) (c : Crew) (p : Split) (wb : Nat) : Res :=
  let win := c.touched wb
  let r := evictFor (c.frame / 32) win c.resident (c.frame / 32 + 1)
  let back := win.filter fun g => !c.resident.contains g && c.spilled.contains g
  let fault (g : Nat) (w : Bool) (x : Reason) : Stop :=
    if s.releasing c p then .wait
    else .trap ⟨.ldfault, p.pc, c.granuleAt g, .ofNat 64 (x.code + 131072 + (if w then 65536 else 0))⟩
  let out : Res := r.1.foldl (fun (t : Res) g => do
    let s ← t
    match s.translate c.core c.asid (c.granuleAt g) .write with
    | .error x => throw (fault g true x)
    | .ok pa => spillTo p s c g pa) (.ok s)
  let out : Res := back.foldl (fun (t : Res) g => do
    let s ← t
    match s.translate c.core c.asid (c.granuleAt g) .read with
    | .error x => throw (fault g false x)
    | .ok pa => spillFrom p s c g pa) out
  match out with
  | .ok s => .ok (s.modCrew c.cid fun k => { k with resident := r.2, wb := wb })
  | .error e => .error e

/-! ## NC effects (Table 14.2) -/

/-- Sets NC of listed lanes by a function of the lane and its NC. -/
def Crew.mapNc (c : Crew) (ls : List Nat) (f : Nat → Nat → Nat) : Crew :=
  ls.foldl (fun k l => k.setNc l (f l (c.ncOf l))) c

/-- IF's effect: `cond` says which active lanes stay active. -/
def Crew.ifEffect (c : Crew) (m : BitVec 32) (cond : Nat → Bool) : Crew :=
  c.mapNc (maskLanes m) fun l n => if 0 < n then n + 1 else if cond l then 0 else 1

/-- ELSE's effect. -/
def Crew.elseEffect (c : Crew) (m : BitVec 32) : Crew :=
  c.mapNc (maskLanes m) fun _ n => if n = 0 then 1 else if n = 1 then 0 else n

/-- ENDIF's effect. -/
def Crew.endifEffect (c : Crew) (m : BitVec 32) : Crew := c.mapNc (maskLanes m) fun _ n => n - 1

/-- Whether a lane of a mask is active. -/
def Crew.anyActive (c : Crew) (m : BitVec 32) : Bool := (maskLanes m).any fun l => c.ncOf l == 0

/-- NCOVF of an instruction with IF's or LOOP's effect (R246). -/
def ncOverflow (c : Crew) (p : Split) : Option Trap :=
  match (maskLanes p.mask).find? fun l => c.ncOf l == 255 with
  | some l => some (ownTrap p .ncovf l)
  | none => if p.ad == 255 then some (ownTrap p .ncovf 0x100) else none

/-- AD less 1. Below 0 the spec gives no value: a free one (log entry 5). -/
def State.adDown (s : State) (ad : Nat) : Nat := if ad = 0 then s.freeValue.toNat % 256 else ad - 1

/-- Counts the free value of `adDown` where one was taken. -/
def State.adCount (s : State) (ad : Nat) : State := if ad = 0 then s.bumpFree else s

/-- Replaces the crew and moves on (R245): to the next word while a lane of the split is active, else to the
REL16 target. -/
def State.moveOn (s : State) (c : Crew) (p : Split) (rel : BitVec 16) : State :=
  (s.modCrew c.cid fun _ => c).setPc c.cid p.sid
    (if c.anyActive p.mask then p.pc + 4 else relTarget p.pc rel)

/-- The crew as it stands in the state: the body's view may hold older uniform registers (R53). -/
def State.crewNow (s : State) (c : Crew) : Crew := (s.crew? c.cid).getD c

/-- IF (R244 to R246). -/
def execIfLc (a : Src) (r : BitVec 16) (s : State) : Host.Outcome State Fault Refusal :=
  issue s fun c p s => do
    checkUses (encode (.ifLc a r)) { srcs := [a] } false s c p
    raiseIf (ncOverflow c p)
    checkPoison { srcs := [a] } s c p
    let k := ((s.crewNow c).ifEffect p.mask fun l => s.op c l a != 0).modSplit p.sid fun q =>
      { q with ad := p.ad + 1 }
    pure (s.moveOn k p r)

/-- ELSE (R244, R245). -/
def execElseLc (r : BitVec 16) (s : State) : Host.Outcome State Fault Refusal :=
  issue s fun c p s => .ok (s.moveOn ((s.crewNow c).elseEffect p.mask) p r)

/-- ENDIF (R244, R245). -/
def execEndif (r : BitVec 16) (s : State) : Host.Outcome State Fault Refusal :=
  issue s fun c p s =>
    let k := ((s.crewNow c).endifEffect p.mask).modSplit p.sid fun q => { q with ad := s.adDown p.ad }
    .ok ((s.moveOn k p r).adCount p.ad)

/-- LOOP (R244 to R246). -/
def execLoop (r : BitVec 16) (s : State) : Host.Outcome State Fault Refusal :=
  issue s fun c p s => do
    raiseIf (ncOverflow c p)
    let k := ((s.crewNow c).ifEffect p.mask fun _ => true).modSplit p.sid fun q => { q with ad := p.ad + 1 }
    pure (s.moveOn k p r)

/-- Break(l, d) on every active lane of the split (R244). -/
def breakLanes (k : Crew) (p : Split) (d : Nat) : Crew :=
  (activeLanes k p).foldl (fun k l => k.break p.stack p.ad l d) k

/-- BRK (R244, R245); a depth of 0xFF raises ILLOP (R42). -/
def execBrk (d : BitVec 8) (r : BitVec 16) (s : State) : Host.Outcome State Fault Refusal :=
  issue s fun c p s => do
    need (d != 0xFF) (illop p (encode (.brk d r)))
    pure (s.moveOn (breakLanes (s.crewNow c) p d.toNat) p r)

/-- CONT (R244, R245): also sets CB of the active lanes. -/
def execCont (d : BitVec 8) (r : BitVec 16) (s : State) : Host.Outcome State Fault Refusal :=
  issue s fun c p s => do
    need (d != 0xFF) (illop p (encode (.cont d r)))
    let k := s.crewNow c
    let m := laneMask (activeLanes k p)
    pure (s.moveOn { breakLanes k p d.toNat with cb := k.cb ||| m } p r)

/-- LEND (R244, R245): lanes that continued are released; the branch back is taken while a lane is active. -/
def execLend (r : BitVec 16) (s : State) : Host.Outcome State Fault Refusal :=
  issue s fun c p s =>
    let k := s.crewNow c
    let free := (maskLanes p.mask).filter fun l => k.cb.getLsbD l && k.ncOf l == 1
    let k := { k.mapNc free (fun _ _ => 0) with cb := k.cb &&& ~~~laneMask free }
    if k.anyActive p.mask then
      .ok ((s.modCrew c.cid fun _ => k).setPc c.cid p.sid (relTarget p.pc r))
    else
      let k := (k.endifEffect p.mask).modSplit p.sid fun q => { q with ad := s.adDown p.ad }
      .ok (((s.modCrew c.cid fun _ => k).setPc c.cid p.sid (p.pc + 4)).adCount p.ad)

/-! ## Splits (R252 to R257) -/

/-- NC of a lane as R255 computes it: eight bits of an exact number. -/
def ncFrom (n : Int) : Nat := (n % 256).toNat

/-- Swap (R255): the running and the parked arm change places; `done` marks the arm that stops as finished. A
swap is a mark (R351). Where a page of the spill or the refill does not translate the window moves and nothing becomes resident,
without a trap: DESIGN CHOICE, Table 21.3 names CALL and RET only (log entry 41). A swap whose granules cannot leave or come back yet
waits (R316, R320); `muted` says that such a wait has been given up. -/
def swapArms (s : State) (cid sid : Nat) (done muted : Bool) : Res :=
  match s.crew? cid with
  | none => .ok s
  | some c =>
    match c.split? sid with
    | none => .ok s
    | some p =>
      match p.fb with
      | none => .ok s
      | some f =>
        let ra : Int := p.ad - f.fb
        let others := (maskLanes p.mask).filter fun l => !f.rm.getLsbD l && !f.pm.getLsbD l
        let saved := (maskLanes f.rm).foldl (fun t l => sset 0 t l (sget 0 c.nc l)) ([] : SMap (BitVec 8))
        let k := c.mapNc (maskLanes f.rm) fun _ _ => ncFrom (1 + f.pa)
        let k := k.mapNc (maskLanes f.pm) fun l _ => (sget 0 f.savedNc l).toNat
        let k := k.mapNc others fun _ n => ncFrom (n - ra + f.pa)
        let stack := p.stack.take f.level ++
          ((p.stack.drop f.level).take 1).map (fun e => { e with falseArm := !e.falseArm }) ++ f.pupper
        let q := { p with
          pc := f.ppc, ad := (f.fb + f.pa).toNat, stack := stack, waits := none, muted := false
          fb := some { f with
            ra := f.pa, rm := f.pm, pm := f.rm, pa := ra, ppc := p.pc, pwb := c.wb, pdepth := c.depth
            savedNc := saved, pupper := p.stack.drop (f.level + 1), finished := done, count := 0 } }
        let k := ({ k with depth := f.pdepth }).modSplit sid fun _ => q
        let s := s.modCrew cid fun _ => k
        match makeResident s k { q with muted := muted } f.pwb with
        | .ok t => .ok (t.takeMark cid sid id)
        | .error (.trap _) => .ok ((s.modCrew cid fun k => { k with wb := f.pwb }).takeMark cid sid id)
        | .error e => .error e

/-- The split-table entries that real SPLITs hold in a row: 24 of 40 are free for them (R253). -/
def State.extraSplits (s : State) (core row : Nat) : Nat :=
  s.crews.foldl (fun n c => if c.core == core && c.row == row then n + (c.splits.length - 1) else n) 0

/-- The join record of the innermost real construct of a stack (Table 14.1). -/
def innermostJoin (st : List Construct) : Option Nat := ((st.filter (·.mode == .real)).getLast?).map (·.join)

/-- A number that no split of a crew has had: over `n`, the identifiers given so far, and over those of its splits. -/
def Crew.newSid (c : Crew) (n : Nat) : Nat := c.splits.foldl (fun m q => max m q.sid) n + 1

/-- SPLIT (R253 to R256): opens an inline, real or fallback construct. What the issuing split did before precedes what the false
split does (R198). -/
def execSplit (a : Src) (r : BitVec 16) (s : State) : Host.Outcome State Fault Refusal :=
  issue s fun c p s => do
    let w := encode (.split a r)
    need (!p.inHandler) (illop p w)
    checkUses w { srcs := [a] } false s c p
    need (decide (p.stack.length < 16)) (splitState p 2)
    let yes (l : Nat) : Bool := s.op c l a != 0
    let act := activeLanes c p
    let tg := act.filter yes
    let fg := act.filter fun l => !yes l
    let inline := p.fb.isSome || tg.isEmpty || fg.isEmpty
    let real := !inline && decide (s.extraSplits c.core c.row < 24) && decide (c.splits.length < 4) &&
      decide (c.joins.length < 4)
    raiseIf (if real then none else ncOverflow c p)
    checkPoison { srcs := [a] } s c p
    let k := s.crewNow c
    let lf := relTarget p.pc r
    let entry (mode : Mode) (arm : Bool) (join : Nat) : Construct :=
      { mode := mode, addr := p.pc, lf := lf, lj := none, depth := c.depth, falseArm := arm, join := join }
    if real then
      let j := s.nextId
      let sid := c.newSid s.nextId
      let fm := laneMask fg
      let tq := { p with
        mask := p.mask &&& ~~~fm, pc := p.pc + 4, ad := 0, stack := p.stack ++ [entry .real false j]
        waits := none, muted := false }
      let fq := { p with
        sid := sid, entry := lowestFree (s.entriesOf c.core c.row) ((s.entriesOf c.core c.row).length + 1)
        anc := (p.sid, s.nextId) :: p.anc, mask := fm, pc := lf, ad := 0, stack := p.stack ++ [entry .real true j]
        tcause := 0, trappc := 0, taddr := 0, taux := 0, stores := [], due := [], tried := false
        waits := none, muted := false }
      let k := { k with
        splits := (k.splits.map fun q => if q.sid == p.sid then tq else q) ++ [fq]
        joins := k.joins ++ [{ id := j, outer := innermostJoin p.stack, members := p.mask, parentAd := p.ad, trueSid := p.sid }] }
      pure ((((s.bumpId.bumpId.modCrew c.cid fun _ => k).takeMark c.cid p.sid id)).takeMark c.cid sid id)
    else
      let k := k.ifEffect p.mask yes
      if inline then
        let go (k : Crew) (arm : Bool) (pc : DWord) : State :=
          s.modCrew c.cid fun _ => k.modSplit p.sid fun q =>
            { q with ad := p.ad + 1, stack := p.stack ++ [entry .inline arm 0], pc := pc }
        if k.anyActive p.mask then pure (go k false (p.pc + 4))
        else
          let k := k.elseEffect p.mask
          if k.anyActive p.mask then pure (go k true lf) else pure (go k false (lf - 4))
      else
        pure (s.modCrew c.cid fun _ => k.modSplit p.sid fun q =>
          { q with
            ad := p.ad + 1, stack := p.stack ++ [entry .fallback false 0], pc := p.pc + 4
            fb := some {
              fb := p.ad + 1, ra := 0, rm := laneMask tg, pm := laneMask fg, pa := 0, ppc := lf
              pwb := c.wb, pdepth := c.depth, savedNc := [], pupper := [], level := p.stack.length
              finished := false, count := 0 } })

/-- Changes the innermost construct of a stack. -/
def modLast (st : List Construct) (f : Construct → Construct) : List Construct :=
  match st.getLast? with
  | some e => st.dropLast ++ [f e]
  | none => st

/-- The constructs of a stack once Lj of the construct of a join record is known (R256, R258). -/
def learnLj (join : Nat) (lj : DWord) (st : List Construct) : List Construct :=
  st.map fun e => if e.mode == .real && e.join == join then { e with lj := some lj } else e

/-- Lj of the construct of a join record is recorded in every split that holds the construct (R256, R258). -/
def Split.learn (join : Nat) (lj : DWord) (p : Split) : Split :=
  { p with
    stack := learnLj join lj p.stack
    mark := { p.mark with ctl := { p.mark.ctl with stack := learnLj join lj p.mark.ctl.stack } }
    handler := match p.handler with
      | some h => some { h with ctl := { h.ctl with stack := learnLj join lj h.ctl.stack } }
      | none => none }

/-- MEET (R254 to R256): ends the true arm of the innermost construct. -/
def execMeet (r : BitVec 16) (s : State) : Host.Outcome State Fault Refusal :=
  issue s fun c p s =>
    match p.stack.getLast? with
    | none => .error (.trap (splitState p 3))
    | some e =>
      let lj := relTarget p.pc r
      let know := s.modSplit c.cid p.sid fun q =>
        { q with stack := modLast q.stack fun e => { e with lj := some lj } }
      match e.mode with
      | .real =>
        .ok ((s.modCrew c.cid fun k => { k with splits := k.splits.map (Split.learn e.join lj) }).setPc c.cid p.sid lj)
      | .inline =>
        let k := ((know.crewNow c).elseEffect p.mask).modSplit p.sid fun q =>
          { q with stack := modLast q.stack fun e => { e with falseArm := true } }
        .ok ((know.modCrew c.cid fun _ => k).setPc c.cid p.sid
          (if k.anyActive p.mask then p.pc + 4 else lj))
      | .fallback =>
        match p.fb with
        | none => .error (.trap (splitState p 3))
        | some f =>
          if f.finished then .ok (know.setPc c.cid p.sid lj)
          else swapArms know c.cid p.sid true p.muted

/-- JOIN (R254 to R256): completes an inline or fallback construct, or parks at a real one until every live split
that holds it has arrived. -/
def execJoin (r : BitVec 16) (s : State) : Host.Outcome State Fault Refusal :=
  issue s fun c p s =>
    match p.stack.getLast? with
    | none => .error (.trap (splitState p 3))
    | some e =>
      match e.mode with
      | .real =>
        let s := s.modSplit c.cid p.sid fun q => { q with status := .joinWait r }
        .ok (s.tryMerge c.cid e.join)
      | .inline =>
        let k := ((s.crewNow c).endifEffect p.mask).modSplit p.sid fun q =>
          { q with ad := s.adDown p.ad, stack := q.stack.dropLast }
        .ok ((s.moveOn k p r).adCount p.ad)
      | .fallback =>
        match p.fb with
        | none => .error (.trap (splitState p 3))
        | some f =>
          if !f.finished then swapArms s c.cid p.sid true p.muted
          else
            let k := (s.crewNow c).mapNc (maskLanes f.pm) fun l _ => (sget 0 f.savedNc l).toNat
            let k := (k.endifEffect p.mask).modSplit p.sid fun q =>
              { q with ad := f.fb - 1, fb := none, stack := q.stack.dropLast }
            .ok (s.moveOn k p r)

/-! ## Uniform control (R248 to R251, R258) -/

/-- Whether a taken branch to `t` leaves the split's innermost construct (R258). -/
def escapes (c : Crew) (p : Split) (t : DWord) : Bool :=
  match p.stack.getLast? with
  | none => false
  | some e =>
    e.depth == c.depth &&
    (t.ult (e.addr + 4) ||
      (if e.falseArm then t.ult e.lf || (match e.lj with | some j => j.ult t | none => false)
       else e.lf.ule t))

/-- SPLITESC of a branch (Table 21.1). -/
def splitEsc (p : Split) (t : DWord) : Trap := ⟨.splitesc, p.pc, t, 0⟩

/-- Goes to a target, or to the next word where the branch is not taken. -/
def branchTo (s : State) (c : Crew) (p : Split) (taken : Bool) (t : DWord) : Res := do
  need (!(taken && escapes c p t)) (splitEsc p t)
  pure (s.setPc c.cid p.sid (if taken then t else p.pc + 4))

/-- BRA (R248). -/
def execBra (r : BitVec 18) (s : State) : Host.Outcome State Fault Refusal :=
  issue s fun c p s => branchTo s c p true (relTarget p.pc r)

/-- BZ and BNZ: a branch on a uniform register (R248); SPLITESC ranks before POISON (R331). -/
def branchOn (w : Word) (a : BitVec 6) (r : BitVec 18) (f : DWord → Bool) (s : State) :
    Host.Outcome State Fault Refusal :=
  issue s fun c p s => do
    let u : Uses := { us := [a.toNat] }
    let taken := f (c.u a.toNat)
    checkUses w u false s c p
    need (!(taken && escapes c p (relTarget p.pc r))) (splitEsc p (relTarget p.pc r))
    checkPoison u s c p
    branchTo s c p taken (relTarget p.pc r)

/-- BZ (R248). -/
def execBz (a : BitVec 6) (r : BitVec 18) (s : State) : Host.Outcome State Fault Refusal :=
  branchOn (encode (.bz a r)) a r (· == 0) s

/-- BNZ (R248). -/
def execBnz (a : BitVec 6) (r : BitVec 18) (s : State) : Host.Outcome State Fault Refusal :=
  branchOn (encode (.bnz a r)) a r (· != 0) s

/-- The split's recipe ends (R353, R354): the next recipe of the crew starts, with s63 at its record's PC; after the
last one every split enters the age order. -/
def State.endRecipe (s : State) (cid sid : Nat) : State :=
  let s := s.modSplit cid sid fun p => { p with recipe := false, status := .recipeWait }
  match s.crew? cid with
  | none => s
  | some c =>
    let todo := c.splits.filter fun p => p.recipe && p.status == .recipeWait
    match todo.foldl (fun (b : Option Split) p =>
        match b with
        | none => some p
        | some q => if p.mark.seq < q.mark.seq then some p else b) none with
    | some p =>
      s.modCrew cid fun c => (c.setU 63 p.mark.pc).modSplit p.sid fun q => { q with status := .ready }
    | none => s.modCrew cid fun c => { c with splits := c.splits.map fun p =>
        if p.status == .recipeWait then { p with status := .ready } else p }

/-- JMP (R248, R56): an unaligned target raises ALIGN; in recipe mode it ends the recipe (R354). -/
def execJmp (a : BitVec 6) (s : State) : Host.Outcome State Fault Refusal :=
  issue s fun c p s => do
    let u : Uses := { us := [a.toNat] }
    checkUses (encode (.jmp a)) u false s c p
    let t := c.u a.toNat
    need (t &&& 3 == 0) ⟨.align, p.pc, t, 0⟩
    need (!escapes c p t) (splitEsc p t)
    checkPoison u s c p
    let s ← branchTo s c p true t
    pure (if p.recipe then s.endRecipe c.cid p.sid else s)

/-- SPILLOVF (Table 21.1). -/
def spillOvf (p : Split) (need' : Nat) : Trap := ⟨.spillovf, p.pc, .ofNat 64 need', 0⟩

/-- CALL (R249): slides the window by 8 · n and writes the link below it. Of several granules of the new window that the spill area does
not hold SPILLOVF reports the lowest (DESIGN CHOICE, log entry 10: Table 21.1 only speaks of 'the granule g that does not fit'). -/
def execCall (n : BitVec 6) (r : BitVec 18) (s : State) : Host.Outcome State Fault Refusal :=
  issue s fun c p s => do
    need (n != 0 && decide (n.toNat < 16)) (illop p (encode (.call n r)))
    need (c.splits.length == 1) (splitState p 1)
    need (decide (c.depth < 65535)) (spillOvf p 0)
    let slide := 8 * n.toNat
    let wb := c.wb + slide
    raiseIf (((c.touched wb).find? fun g => decide (c.spillSize < 4096 * (g + 1))).map fun g =>
      spillOvf p (4096 * (g + 1)))
    raiseIf ((({ wr := [slide - 2, slide - 1] } : Uses).pinned c p).map fun k => ownTrap p .pinwrite k)
    await (!(s.laneBusy c (wb - 2) || s.laneBusy c (wb - 1)))
    let s ← makeResident s c p wb
    let link : DWord := (n.zeroExtend 64 <<< 60) ||| ((p.pc + 4) &&& 0x0FFFFFFFFFFFFFFF)
    let s := s.modCrew c.cid fun k =>
      { lanes.foldl (fun k l => (k.setAbs l (wb - 2) (link.truncate 32)).setAbs l (wb - 1)
          ((link >>> 32).truncate 32)) k with depth := c.depth + 1 }
    let s := s.spillSync c.cid [wb - 2, wb - 1]
    pure (s.setPc c.cid p.sid (relTarget p.pc r))

/-- RET (R250): returns by the link of lane 0, as CALL wrote it. A link whose granule stands in the spill area alone is read from the
register file's own copy, so that a program that has overwritten it there changes nothing: DESIGN CHOICE, R30 leaves the contents
open (log entry 11). -/
def execRet (s : State) : Host.Outcome State Fault Refusal :=
  issue s fun c p s => do
    need (c.splits.length == 1) (splitState p 1)
    need (c.depth != 0) (illop p (encode .ret))
    let link : DWord := c.vAbs 0 (c.wb - 1) ++ c.vAbs 0 (c.wb - 2)
    let back : DWord := link &&& 0x0FFFFFFFFFFFFFFF
    need (!(p.stack.any (·.depth == c.depth))) (splitEsc p back)
    await (!(s.laneBusy c (c.wb - 2) || s.laneBusy c (c.wb - 1)))
    let s ← makeResident s c p (c.wb - 8 * (link >>> 60).toNat)
    raiseIf ((([c.wb - 2, c.wb - 1] : List Nat).find? fun i => (s.crewNow c).vpoison.contains (32 * i)).map fun _ =>
      ownTrap p .poison 1)
    pure ((s.modCrew c.cid fun k => { k with depth := c.depth - 1 }).setPc c.cid p.sid back)

/-- A vote over the active lanes of the split (R251). -/
def vote (w : Word) (d : BitVec 6) (f : Src) (g : List (Nat × Bool) → DWord) (s : State) :
    Host.Outcome State Fault Refusal :=
  issue s fun c p s => do
    checkAll w { srcs := [f], ud := [d.toNat] } s c p
    let x := g ((activeLanes c p).map fun l => (l, s.op c l f != 0))
    pure ((s.modCrew c.cid fun k => k.setU d.toNat x).advance c p)

/-- ANY (R251). -/
def execAny (d : BitVec 6) (f : Src) (s : State) : Host.Outcome State Fault Refusal :=
  vote (encode (.any d f)) d f (fun vs => if vs.any (·.2) then 1 else 0) s

/-- ALL: 1 when no lane is active (R251). -/
def execAll (d : BitVec 6) (f : Src) (s : State) : Host.Outcome State Fault Refusal :=
  vote (encode (.all d f)) d f (fun vs => if vs.all (·.2) then 1 else 0) s

/-- BALLOT (R251). -/
def execBallot (d : BitVec 6) (f : Src) (s : State) : Host.Outcome State Fault Refusal :=
  vote (encode (.ballot d f)) d f
    (fun vs => (laneMask ((vs.filter (·.2)).map (·.1))).zeroExtend 64) s

/-- YIELD: the split is no candidate in the next 16 cycles (R248). -/
def execYield (s : State) : Host.Outcome State Fault Refusal :=
  issue s fun c p s =>
    .ok ((s.modSplit c.cid p.sid fun q => { q with shadow := s.cycle + 17 }).advance c p)

/-- NOP (R248). -/
def execNop (s : State) : Host.Outcome State Fault Refusal := issue s fun c p s => .ok (s.advance c p)

/-! ## Ending lanes, software traps and returning from a trap (R67, R332, R333, R337) -/

/-- EXIT: once the split's stores have translated, its active lanes retire (R67). -/
def execExit (s : State) : Host.Outcome State Fault Refusal :=
  issue s fun c p s => do
    await p.drained
    let m := laneMask (activeLanes c p)
    pure ((s.advance c p).retireLanes c.cid p.sid m p.pc)

/-- TERM: every lane of the crew retires (R67). -/
def execTerm (s : State) : Host.Outcome State Fault Refusal := issue s fun c p s => .ok (s.termAt c.cid p.pc)

/-- TRAP: raises SWTRAP with its code; ILLOP in handler mode (R330, R332). -/
def execTrap (k : BitVec 18) (s : State) : Host.Outcome State Fault Refusal :=
  issue s fun _ p _ =>
    if p.inHandler then .error (.trap (illop p (encode (.trap k))))
    else .error (.trap ⟨.swtrap, p.pc + 4, 0, k.zeroExtend 64⟩)

/-- RETT: returns from the trap handler; ILLOP outside handler mode (R333). -/
def execRett (s : State) : Host.Outcome State Fault Refusal :=
  issue s fun c p s =>
    match p.handler with
    | none => .error (.trap (illop p (encode .rett)))
    | some h => do
      await p.drained
      pure (s.returnTrap c p h)

/-- STDRAIN: waits until every earlier store of the split has translated (R337). -/
def execStdrain (s : State) : Host.Outcome State Fault Refusal :=
  issue s fun c p s => do
    await p.drained
    pure (s.advance c p)

end Sys2Proof.Machine
end

