-- ==== Sys2Proof/Machine/Barriers.lean ====
section
/-! DEFINITION. Scratchpad bytes, barrier objects and the barrier instructions (R136, R173 to R184). -/

namespace Sys2Proof.Machine

/-! ## Scratchpad bytes -/

/-- Bytes of a team's scratchpad (R135, R136). -/
def State.scratchRead (s : State) (lid tid a n : Nat) : List Byte :=
  match s.team? lid tid with
  | some t => sgetList 0 t.scratch a n
  | none => List.replicate n 0

/-- Writes bytes of a team's scratchpad; a wholly written word loses its poison (Table 21.8). -/
def State.scratchWrite (s : State) (lid tid a : Nat) (bs : List Byte) : State :=
  s.modTeam lid tid fun t => { t with
    scratch := ssetList 0 t.scratch a bs
    spoison := t.spoison.filter fun w => !(decide (a ≤ 4 * w) && decide (4 * w + 4 ≤ a + bs.length)) }

/-- Writes listed offsets and bytes of a team's scratchpad in their order (R212). -/
def State.scratchPairs (s : State) (lid tid : Nat) (ps : List (Nat × Byte)) : State :=
  s.modTeam lid tid fun t => { t with
    scratch := ps.foldl (fun m b => sset 0 m b.1 b.2) t.scratch
    spoison := t.spoison.filter fun w => !(wholeWords ps).contains w }

/-- Poisons the words that a range of a team's scratchpad touches. -/
def State.scratchPoison (s : State) (lid tid a n : Nat) : State :=
  s.modTeam lid tid fun t => { t with
    spoison := (t.spoison ++ (List.range ((a % 4 + n + 3) / 4)).map (a / 4 + ·)).eraseDups }

/-! ## Objects and events (R173 to R176) -/

/-- The object at a core's table index. -/
def State.bar? (s : State) (core idx : Nat) : Option BarObj :=
  s.bars.find? fun b => b.core == core && b.idx == idx

/-- The generation of a table entry (R173): 1 after reset. -/
def State.genOf (s : State) (core idx : Nat) : Nat := sget 1 s.barGen (256 * core + idx)

/-- Advances a generation, from 255 to 1 (R184). -/
def State.bumpGen (s : State) (core idx : Nat) : State :=
  let g := s.genOf core idx
  { s with barGen := sset 1 s.barGen (256 * core + idx) (if g = 255 then 1 else g + 1) }

/-- The object that bits 15:0 of a handle name in a team's table, if the handle is live (R174). -/
def State.handleObj (s : State) (core lid tid : Nat) (h : DWord) : Option BarObj :=
  match s.bar? core (h.toNat % 256) with
  | some b =>
    if h.toNat / 256 % 256 != 0 && b.lid == lid && b.team == tid && b.gen == h.toNat / 256 % 256
    then some b else none
  | none => none

/-- ENGARG: the operand (0 A to 3 E) and the reason (R125). -/
def engArg (p : Split) (operand reason : Nat) (taddr : DWord) : Trap :=
  ⟨.engarg, p.pc, taddr, .ofNat 64 (16 * operand + reason)⟩

/-- Whether a split may use an object as allocated: its BAR.ALLOC is performed, or precedes what the split does (R220). -/
def State.barValid (s : State) (cid : Nat) (p : Split) (b : BarObj) : Bool :=
  s.held.all fun h => h.bar != some (.alloc b.core b.idx) || (h.cid == cid && p.follows h.sid h.seq)

/-- CheckHandle (R174) of crew `cid` for the operand of number `operand`. -/
def checkHandle (s : State) (cid : Nat) (p : Split) (operand core lid tid : Nat) (h : DWord) :
    Except Stop BarObj := do
  need (h.toNat / 0x20000 == 0) (engArg p operand 1 0)
  match s.handleObj core lid tid h with
  | some b => if s.barValid cid p b then pure b else throw (.trap ⟨.badbar, p.pc, 0, h⟩)
  | none => throw (.trap ⟨.badbar, p.pc, 0, h⟩)

/-- Whether no write of a split to the backing word of an object is on its way (R200, R220). -/
def State.barSettled (s : State) (c : Crew) (p : Split) (b : BarObj) : Bool :=
  (c.splits.all fun r => r.stores.all fun q => !(p.follows q.sid q.seq && q.space != .global &&
    q.lanes.any fun a => overlaps b.offset 16 (a.addr.toNat % 0x100000) a.data.length)) &&
  s.held.all fun h => !(h.cid == c.cid && p.follows h.sid h.seq && h.lid == b.lid && h.team == b.team &&
    h.bytes.any fun x => decide (b.offset ≤ x.1) && decide (x.1 < b.offset + 16))

/-- A field of the backing word (Table 9.5): offset and length. -/
def State.barField (s : State) (b : BarObj) (off n : Nat) : Nat :=
  leNat (s.scratchRead b.lid b.team (b.offset + off) n)

/-- Writes a field of the backing word. -/
def State.setBarField (s : State) (b : BarObj) (off n x : Nat) : State :=
  s.scratchWrite b.lid b.team (b.offset + off) (leBytes n x)

/-- PHASE of an object (Table 9.5). -/
def State.phaseOf (s : State) (b : BarObj) : Bool := (s.barField b 12 1).testBit 0

/-- A parked split as a flip, or the freeing of its object, leaves it (R176, R184), to take its acquire at a scope. -/
def Split.wakeBar (p : Split) (idx : Nat) (scope : Scope) (w : Wake) : Split :=
  match p.status with
  | .barWait h _ .parked => if h.toNat % 256 = idx then { p with status := .barWait h scope w } else p
  | _ => p

/-- Wakes every split parked on a table entry (R176, R184). -/
def State.wakeAll (s : State) (core idx : Nat) (scope : Scope) (w : Wake) : State :=
  { s with crews := s.crews.map fun c =>
      if c.core == core then { c with splits := c.splits.map fun p => p.wakeBar idx scope w } else c }

/-- The scope of an object. -/
def BarObj.scope (b : BarObj) : Scope := if b.squad then .squad else .team

/-- The scope of the acquire that observes the last flip of an object, where `far` says whether an arrival from the fabric counted
toward it (Table 10.2, R70). -/
def BarObj.flipScope (b : BarObj) (far : Bool) : Scope := if far then .sys else b.scope

/-- Replaces an object. -/
def State.putBar (s : State) (b : BarObj) : State :=
  { s with bars := s.bars.map fun x => if x.core == b.core && x.idx == b.idx then b else x }

/-- Evaluate (R176): where both counts are reached the phase flips, the counts reload and the waiters wake. -/
def State.evaluate (s : State) (b : BarObj) : State :=
  if s.barField b 0 2 ≤ s.barField b 2 2 && s.barField b 4 4 ≤ s.barField b 8 4 then
    let st := s.barField b 12 4
    let s := s.setBarField b 12 4 (if st % 2 = 0 then st + 1 else st - 1)
    let s := (s.setBarField b 2 2 0).setBarField b 8 4 0
    let s := (s.setBarField b 0 2 b.baseA).setBarField b 4 4 b.baseB
    (s.putBar { b with far := false, farFlip := b.far }).wakeAll b.core b.idx (b.flipScope b.far) .flipped
  else s

/-- An arrival (R176, R180). -/
def State.arrive (s : State) (b : BarObj) : State :=
  (s.setBarField b 2 2 (s.barField b 2 2 + 1)).evaluate b

/-- An arrival from the fabric: a release at system scope (R70, R319). -/
def State.arriveFar (s : State) (b : BarObj) : State := (s.putBar { b with far := true }).arrive { b with far := true }

/-- A delivery of bytes (R176, R188). -/
def State.deliver (s : State) (b : BarObj) (n : Nat) : State :=
  (s.setBarField b 8 4 (s.barField b 8 4 + n)).evaluate b

/-- Whether an engine command that names the object is outstanding (R178, R184). -/
def State.outstanding (s : State) (b : BarObj) : Bool :=
  let h := 256 * b.gen + b.idx
  (s.copies.any fun q => q.lid == b.lid && q.team == b.team && q.handle == h) ||
  s.mats.any fun q => q.lid == b.lid && q.team == b.team && q.handle == h

/-- BAR.INIT of an object takes effect, as one step of the barrier unit (R178). -/
def State.initBar (s : State) (o : BarObj) (sq : Bool) (a b : Nat) : State :=
  let s := s.putBar { o with squad := sq, baseA := a, baseB := b, far := false }
  let s := (s.setBarField o 0 2 a).setBarField o 4 4 b
  let s := (s.setBarField o 2 2 0).setBarField o 8 4 0
  s.setBarField o 12 4 ((if s.phaseOf o then 1 else 0) + if sq then 2 else 0)

/-- What a write on its way to its bank does when it is performed (R212, R220). -/
def State.heldEffect (s : State) (h : HeldWrite) : State :=
  match h.bar with
  | some (.init core idx gen sq a b) =>
    (match s.bar? core idx with
     | some o => if o.gen == gen then s.initBar o sq a b else s
     | none => s)
  | _ => s.scratchPairs h.lid h.team h.bytes

/-- Sends pieces of scratchpad writes on their way to their banks (R212): each piece is performed whole. -/
def pushHeld (s : State) (hs : List HeldWrite) : State :=
  hs.foldl (fun s h => { s with held := s.held ++ [{ h with id := s.nextId }] }.bumpId) s

/-- The write of the backing word of an object by an instruction of a split (R220). -/
def barWrite (s : State) (c : Crew) (p : Split) (off : Nat) (w : BarWrite) : State :=
  pushHeld s.bumpId [{
    id := 0, lid := c.lid, team := c.team, bytes := (List.range 16).map fun i => (off + i, 0), bar := some w
    core := c.core, asid := c.asid, cid := c.cid, sid := p.sid, seq := s.nextId, anc := p.anc }]

/-! ## The instructions -/

/-- BAR.ALLOC (R177): its write of the backing word is on its way, as a store is (R220). -/
def execBarAlloc (d : BitVec 6) (s : State) : Host.Outcome State Fault Refusal :=
  issue s fun c p s => do
    checkAll (encode (.barAlloc d)) { ud := [d.toNat] } s c p
    let size := s.scratchSize c.lid c.team
    let mine := s.bars.filter fun b => b.lid == c.lid && b.team == c.team
    let slot := ((List.range 257).find? fun k => mine.all fun b => b.offset + 16 * (k + 1) != size).getD 256
    let done (s : State) (x : DWord) : State :=
      (s.modCrew c.cid fun k => k.setU d.toNat x).advance c p
    match (List.range 256).find? fun i => (s.bar? c.core i).isNone with
    | none => pure (done s 0)
    | some i =>
      if size < 16 * (slot + 1) then pure (done s 0)
      else
        let off := size - 16 * (slot + 1)
        let g := s.genOf c.core i
        let (s, p) ← fenceGate s c p
        let s := barWrite s c p off (.alloc c.core i)
        let s := { s with bars := s.bars ++ [{
          core := c.core, idx := i, lid := c.lid, team := c.team, gen := g, squad := false, offset := off
          baseA := 0, baseB := 0, far := false, farFlip := false }] }
        pure (done s (.ofNat 64 (256 * g + i)))

/-- BAR.INIT (R178): it is on its way, as a store is (R220). -/
def execBarInit (a b cc : BitVec 6) (s : State) : Host.Outcome State Fault Refusal :=
  issue s fun c p s => do
    let u : Uses := { us := [a.toNat, b.toNat, cc.toNat] }
    checkUses (encode (.barInit a b cc)) u false s c p
    let o ← checkHandle s c.cid p 0 c.core c.lid c.team (c.u a.toNat)
    let x := (c.u b.toNat).toNat
    need (x / 0x200000000 == 0 && x / 0x10000 % 0x10000 == 0) (engArg p 1 1 0)
    need (x % 0x10000 != 0) (engArg p 1 8 0)
    let y := (c.u cc.toNat).toNat
    need (decide (y < 0x100000000)) (engArg p 2 8 0)
    checkPoison u s c p
    await (!s.outstanding o)
    let (s, p) ← fenceGate s c p
    pure ((barWrite s c p o.offset (.init o.core o.idx o.gen (x.testBit 32) (x % 0x10000) y)).advance c p)

/-- BAR.EXPECT (R179), after the split's own writes of the object (R220); a mark (R351). -/
def execBarExpect (a b : BitVec 6) (s : State) : Host.Outcome State Fault Refusal :=
  issue s fun c p s => do
    let u : Uses := { us := [a.toNat, b.toNat] }
    checkUses (encode (.barExpect a b)) u true s c p
    let o ← checkHandle s c.cid p 0 c.core c.lid c.team (c.u a.toNat)
    await (s.barSettled c p o)
    let (s, p) ← fenceGate s c p
    let sum := s.barField o 4 4 + (c.u b.toNat).toNat
    need (decide (sum < 0x100000000)) (engArg p 1 8 0)
    checkPoison u s c p
    pure ((((s.setBarField o 4 4 sum).evaluate o).advance c p).takeMark c.cid p.sid id)

/-- BAR.ARRIVE: a release at the object's scope and one arrival (R180); a mark (R351). -/
def execBarArrive (a : BitVec 6) (s : State) : Host.Outcome State Fault Refusal :=
  issue s fun c p s => do
    let u : Uses := { us := [a.toNat] }
    checkUses (encode (.barArrive a)) u true s c p
    let o ← checkHandle s c.cid p 0 c.core c.lid c.team (c.u a.toNat)
    checkPoison u s c p
    await (s.released c p o.scope)
    let (s, p) ← fenceGate s c p
    pure (((s.arrive o).advance c p).takeMark c.cid p.sid id)

/-- BAR.ARRIVE.Q: an arrival on an object of a squad peer (R181); a mark (R351). TADDR of its ENGARG is 0: a reserved bit of S(B)
offends, no address does (DESIGN CHOICE, log entry 39). -/
def execBarArriveQ (a b : BitVec 6) (s : State) : Host.Outcome State Fault Refusal :=
  issue s fun c p s => do
    let u : Uses := { us := [a.toNat, b.toNat] }
    checkUses (encode (.barArriveQ a b)) u true s c p
    let at' := c.u b.toNat
    need (at'.toNat % 0x100000 == 0) (engArg p 1 1 0)
    checkRanks s c p.pc [(0, at')]
    let tid := s.squadTeam c at'
    let core := match s.team? c.lid tid with
      | some t => t.core
      | none => c.core
    let h := c.u a.toNat
    let o ← checkHandle s c.cid p 0 core c.lid tid h
    await (s.barSettled c p o)
    need o.squad ⟨.badbar, p.pc, 0, h⟩
    checkPoison u s c p
    await (s.released c p .squad)
    let (s, p) ← fenceGate s c p
    pure (((s.arrive o).advance c p).takeMark c.cid p.sid id)

/-- BAR.WAIT: parks while the phase is the handle's parity, then acquires at the object's scope; a parked split returns at the first
flip after it parked, or takes BADBAR where its object was freed (R182, R184). A running arm that would park swaps with an
unfinished parked arm (R255). -/
def execBarWait (a : BitVec 6) (s : State) : Host.Outcome State Fault Refusal :=
  issue s fun c p s => do
    let go (s : State) (p : Split) (scope : Scope) : State :=
      ((s.modSplit c.cid p.sid fun q => { q with status := .ready }).acquireBy c.cid p.sid c.core scope).advance c p
    match p.status with
    | .barWait h _ .freed => throw (.trap ⟨.badbar, p.pc, 0, h⟩)
    | .barWait _ scope .flipped => pure (go s p scope)
    | _ =>
      let u : Uses := { us := [a.toNat] }
      checkUses (encode (.barWait a)) u false s c p
      let h := c.u a.toNat
      let o ← checkHandle s c.cid p 0 c.core c.lid c.team h
      checkPoison u s c p
      await (s.barSettled c p o)
      let (s, p) ← fenceGate s c p
      if s.phaseOf o == h.toNat.testBit 16 then
        let swaps := match p.fb with
          | some f => !f.finished
          | none => false
        if swaps then swapArms s c.cid p.sid false p.muted
        else pure (s.modSplit c.cid p.sid fun q => { q with status := .barWait h o.scope .parked })
      else pure (go s p (o.flipScope o.farFlip))

/-- BAR.TEST (R183). -/
def execBarTest (d a : BitVec 6) (s : State) : Host.Outcome State Fault Refusal :=
  issue s fun c p s => do
    let u : Uses := { us := [a.toNat], ud := [d.toNat] }
    checkUses (encode (.barTest d a)) u false s c p
    let o ← checkHandle s c.cid p 0 c.core c.lid c.team (c.u a.toNat)
    checkPoison u s c p
    await (s.barSettled c p o)
    let (s, p) ← fenceGate s c p
    let x : DWord := if s.phaseOf o then 1 else 0
    pure ((s.modCrew c.cid fun k => k.setU d.toNat x).advance c p)

/-- Frees a table entry (R184): its generation advances, and splits parked on it are to take BADBAR. -/
def State.freeBar (s : State) (b : BarObj) : State :=
  let s := { s with bars := s.bars.filter fun x => !(x.core == b.core && x.idx == b.idx) }
  (s.bumpGen b.core b.idx).wakeAll b.core b.idx b.scope .freed

/-- BAR.FREE (R184); a mark (R351). -/
def execBarFree (a : BitVec 6) (s : State) : Host.Outcome State Fault Refusal :=
  issue s fun c p s => do
    let u : Uses := { us := [a.toNat] }
    checkUses (encode (.barFree a)) u true s c p
    let o ← checkHandle s c.cid p 0 c.core c.lid c.team (c.u a.toNat)
    checkPoison u s c p
    await (!s.outstanding o && s.barSettled c p o)
    let (s, p) ← fenceGate s c p
    pure (((s.freeBar o).advance c p).takeMark c.cid p.sid id)

end Sys2Proof.Machine
end

