-- ==== Sys2Proof/Machine/Launch.lean ====
section
/-! DEFINITION. Launch records, their checks, LAUNCH and LAUNCH.AT (R61 to R66, R277, R281). -/

namespace Sys2Proof.Machine

/-- The number in `n` bytes of a record at an offset. -/
def recAt (r : List Byte) (off n : Nat) : Nat := leNat ((r.drop off).take n)

/-- The record of Table 4.1. -/
def parseRecord (r : List Byte) : LRec :=
  let ctl := recAt r 0 4
  let shape := recAt r 0x28 4
  let done := recAt r 0x34 4
  { kind := ctl % 4, notify := ctl.testBit 7, prio := ctl / 32 % 4, hold := ctl.testBit 4
    fuseL1 := ctl.testBit 3, cores := ctl.testBit 2, teams := recAt r 4 4
    entry := .ofNat 64 (recAt r 8 8), args := .ofNat 64 (recAt r 0x10 8)
    spillBase := .ofNat 64 (recAt r 0x18 8), spillSz := recAt r 0x20 8
    frame := shape / 0x10000, squad := shape / 0x100 % 0x100, crews := shape % 0x100
    scratch := recAt r 0x2C 4, shells := recAt r 0x30 4 % 1024
    done := if done.testBit 16 then some (done % 0x10000) else none
    xext := recAt r 0x40 4, yext := recAt r 0x44 4, pub := .ofNat 8 (recAt r 0x49 1)
    bx := recAt r 0x48 1 % 4, bY := recAt r 0x48 1 / 4 % 4, seatq := recAt r 0x4C 4
    backing := .ofNat 64 (recAt r 0x50 8), edgex := .ofNat 32 (recAt r 0x58 4)
    edgey := .ofNat 32 (recAt r 0x5C 4), dgx := recAt r 0x60 1, dgy := recAt r 0x61 1
    devmap := .ofNat 64 (recAt r 0x68 8) }

/-- What DEVMAP gives: the endpoint and the partition key of each device of the field (R291). -/
def State.devicePeers (s : State) (asid : Nat) (r : LRec) : List (Nat × Nat) :=
  if r.dgx * r.dgy = 1 then []
  else
    (List.range (r.dgx * r.dgy)).map fun k =>
      let e := (s.deviceWord asid (r.devmap + BitVec.ofNat 64 (4 * k))).toNat
      (e % 2 ^ 14, e / 2 ^ 16)

/-- The place of the device in the device grid: the first entry of DEVMAP that holds its endpoint (R291). -/
def State.devicePlace (s : State) (asid : Nat) (r : LRec) : Option (Nat × Nat) :=
  if r.dgx * r.dgy = 1 then some (0, 0)
  else
    ((List.range (r.dgx * r.dgy)).find? fun k =>
      let va := r.devmap + BitVec.ofNat 64 (4 * k)
      (s.devicePa asid va .read).isSome && (s.deviceWord asid va).toNat % 2 ^ 14 == s.myEp).map
      fun k => (k % r.dgx, k / r.dgx)

/-- The conditions of Table 4.4, row 1, that hold of every record: each with the offset of its lowest field. -/
def badCommon (r : List Byte) (l : LRec) : List (Bool × Nat) :=
  [ (decide (256 ≤ recAt r 0 4 ∨ 2 ≤ l.kind), 0x00),
    (l.entry.toNat % 4 != 0, 0x08),
    (l.spillBase.toNat % 4096 != 0, 0x18),
    (l.spillSz % 4096 != 0, 0x20),
    (decide (l.frame < 64 ∨ 512 < l.frame) || l.frame % 32 != 0, 0x28),
    (decide (l.squad < 1 ∨ 8 < l.squad ∨ l.crews < 1 ∨ 16 < l.crews), 0x28),
    (l.scratch % 256 != 0 || decide (524288 < l.scratch), 0x2C),
    (decide (576 < recAt r 0x30 4), 0x30),
    (decide (0x20000 ≤ recAt r 0x34 4), 0x34),
    (recAt r 0x38 8 != 0, 0x38),
    (recAt r 0x64 4 != 0, 0x64),
    (recAt r 0x70 12 != 0, 0x70) ]

/-- The conditions of Table 4.4, row 1, of a grid record. With SQUAD = 0 the remainder of TEAMS has no value and TEAMS is not counted
for it (DESIGN CHOICE, log entry 44). -/
def badGrid (r : List Byte) (l : LRec) : List (Bool × Nat) :=
  [ (l.teams == 0 || (l.squad != 0 && l.teams % l.squad != 0), 0x04),
    (recAt r 0x40 8 != 0, 0x40), (recAt r 0x48 4 != 0, 0x48), (recAt r 0x4C 4 != 0, 0x4C),
    (recAt r 0x50 8 != 0, 0x50), (recAt r 0x58 8 != 0, 0x58), (recAt r 0x60 4 != 0, 0x60),
    (recAt r 0x68 8 != 0, 0x68) ]

/-- The conditions of Table 4.4, row 1, and Table 16.1 of a field record. -/
def badField (s : State) (asid : Nat) (r : List Byte) (l : LRec) : List (Bool × Nat) :=
  let devs := l.dgx * l.dgy
  [ (l.cores || l.hold, 0x00), (l.teams != 0, 0x04), (l.crews != 1 || l.squad != 1, 0x28),
    (l.scratch != 0, 0x2C),
    (l.yext == 1 && (l.xext == 0 || l.xext % (4 * l.dgx) != 0), 0x40),
    (decide (2 ≤ l.yext) && (l.xext == 0 || l.xext % (2 * l.dgx) != 0 || l.yext % (2 * l.dgy) != 0), 0x40),
    (l.yext == 0, 0x40),
    (l.bx == 3 || l.bY == 3 || (l.yext == 1 && l.bY != 0), 0x48),
    (decide (16 ≤ recAt r 0x48 1 ∨ 0x10000 ≤ recAt r 0x48 4), 0x48),
    (l.seatq == 0, 0x4C),
    (l.backing.toNat == 0 || l.backing.toNat % 256 != 0, 0x50),
    (devs == 0 || decide (64 < devs) || (l.yext == 1 && l.dgy != 1), 0x60),
    (decide (0x10000 ≤ recAt r 0x60 4), 0x60),
    (devs == 1 && l.devmap != 0, 0x68),
    (decide (1 < devs) && (l.devmap.toNat == 0 || l.devmap.toNat % 4 != 0 ||
      (decide (devs ≤ 64) && (s.devicePlace asid l).isNone)), 0x68) ]

/-- The lowest offset of the failing conditions of row 1 of Table 4.4, if any fails (R66). -/
def badOffset (s : State) (c : Crew) (r : List Byte) (l : LRec) : Option Nat :=
  let handle := match l.done with
    | some h => (s.handleObj c.core c.lid c.team (.ofNat 64 h)).isNone
    | none => false
  let all := badCommon r l ++ [(handle, 0x34)] ++
    (if l.kind = 0 then badGrid r l else if l.kind = 1 then badField s c.asid r l else [])
  (all.filterMap fun e => if e.1 then some e.2 else none).foldl
    (fun m o => match m with | none => some o | some n => some (min n o)) none

/-- How many of `n` indices fall into the blocks of `q` that go to the first of `w` places. -/
def firstBlocks (n q w : Nat) : Nat := n / max 1 (q * w) * q + min q (n % max 1 (q * w))

/-- Whether a launch could never be placed in a partition (Table 4.4, row 4). -/
def neverFits (p : Partition) (l : LRec) : Bool :=
  let room := 4 * rowCap l.frame
  let wh := shapeRect p.size
  let cores := wh.1 * wh.2
  if l.kind = 1 then
    if !l.whole then decide (room < (l.seatq + cores - 1) / cores)
    else if l.yext = 1 then decide (cores < (l.fieldCrews + room - 1) / room)
    else
      let q := isqrt room 8
      decide (room < firstBlocks l.tileCols q wh.1 * firstBlocks ((l.ly + 3) / 4) q wh.2)
  else
    let perCore := if l.scratch = 0 then room / max 1 l.crews else min (room / max 1 l.crews) (524288 / l.scratch)
    decide (room < l.crews) || decide (4 * perCore < l.squad) ||
      (l.cores && decide (cores / 4 * (4 * perCore / max 1 l.squad) * l.squad < l.teams))

/-- The first failing row of Table 4.4, or 0. -/
def checkRecord (s : State) (c : Crew) (nest : Nat) (r : List Byte) (l : LRec) : Nat :=
  match badOffset s c r l with
  | some off => 0x10000 * off + 0x10
  | none =>
    if nest = 12 then 0x11
    else
      let mine := s.launches.filter fun x => x.asid == c.asid && x.status.isSome
      let held := (mine.filter (·.isField)).foldl (fun n x => n + x.record.seatq) 0
      let quota := match s.context? c.asid with
        | some x => decide (x.shcount < l.shells ∨ x.seats < held + l.seatq) || decide (4096 ≤ mine.length)
        | none => true
      if quota then 0x13
      else if neverFits (s.part (s.partOf c.asid)) l then 0x12
      else 0

/-- Creates the launch of a checked record (R62, R263): it takes the next GRIDID. A field's seat records are
written (R298). -/
def State.createLaunch (s : State) (c : Crew) (l : LRec) (nest : Nat) (status : DWord) (phase : LPhase) : State :=
  let gid := match s.context? c.asid with | some x => x.nextGid | none => 0
  let place := (s.devicePlace c.asid l).getD (0, 0)
  let x : Launch := {
    lid := s.nextId, asid := c.asid, gid := gid, nest := nest, record := l, status := some status
    parent := some c.lid, ptid := c.team, phase := phase, nextTeam := 0, retired := 0, dx := place.1
    dy := place.2, peers := s.devicePeers c.asid l, cut := false, slots := [], events := [], mute := false, told := [] }
  let s := (s.bumpId.modContext c.asid fun y => { y with nextGid := y.nextGid + 1 })
  let s := { s with launches := s.launches ++ [x] }
  if x.isField then l.seatList.foldl (fun s k => s.initSeat x k) s else s

/-- What a failed check does beside STATUS (R64). -/
def State.launchFailed (s : State) (c : Crew) (l : LRec) (code : Nat) : State :=
  let s := match l.done with
    | some h => (match s.handleObj c.core c.lid c.team (.ofNat 64 h) with
      | some b => s.arrive b
      | none => s)
    | none => s
  if l.notify then s.interrupt c.asid 2 (code % 0x10000) else s

/-- Whether the device can write a STATUS word now: it can be sent to its home slice, no other device holds its line, no owner of it is
being revoked and no engine is still to write or to read it (R144, R187, R316, R320). -/
def State.statusOk (s : State) (core asid pa : Nat) : Bool :=
  s.fabricOk core asid pa true false && s.mayRevoke (sliceOf core pa) noOwner [pa / 4] && !s.homePending (pa / 4) &&
  !s.wordUnread (pa / 4)

/-- Writes a STATUS word (R62, R68). -/
def State.putStatus (s : State) (core asid pa code : Nat) : State :=
  (s.fabricSend core asid pa true false).homeWrite core (placed pa (leBytes 4 code))

/-- Writes STATUS of a LAUNCH (R62), which the launcher's L1 holds no older copy of; the write is dropped where its route has stayed
unusable (R320). -/
def State.launchStatus (s : State) (c : Crew) (pa code : Nat) : State :=
  let t := s.l1Drop fun q => q.addr == pa / 4 && q.core == s.l1Core c.core pa
  if s.fabricOk c.core c.asid pa true false then t.putStatus c.core c.asid pa code else t.dropWrites (placed pa (leBytes 4 code))

/-- LAUNCH and LAUNCH.AT (R62 to R65): a release at device scope; the record is read as by a load and STATUS written whole; the launcher
reads STATUS at once (R63). What it waits to reach through the fabric completes as R320 says once its route has stayed unusable. -/
def launchBody (w : Word) (a : BitVec 6) (b : Option (BitVec 6)) (s : State) :
    Host.Outcome State Fault Refusal :=
  issue s fun c p s => do
    let u : Uses := { us := a.toNat :: (match b with | some b => [b.toNat] | none => []) }
    checkUses w u true s c p
    let x := c.u a.toNat
    need (x.toNat % 128 == 0) (alignTrap p x)
    let (s, p) ← fenceGate s c p
    let (s, ps) ← translateLanes s c p .read [(0, x)]
    let pa := (ps.head?.map (·.2)).getD 0
    let (s, _) ← translateLanes s c p .write [(0, x + 0x7C)]
    await (s.released c p .dev)
    let words := accessWords pa 128
    await (words.all fun n => !s.wordPending c.core n)
    let slice := s.loadSlice c.core pa
    let hit := s.l1Hit c.core words
    let can := s.mayReach slice c.core c.asid pa false false
    reachable (hit || can || (p.muted && s.fabricStuck c.core c.asid pa false)) pa false
    let lost := !hit && !can
    let clean := s.cleanHit c.core words
    let r := s.loadBytes c.core pa 128 clean
    let bad := lost || s.loadPoison c.core pa 124 clean
    let s := if hit || lost then s else s.reach slice c.core c.asid pa false false 0
    let l := parseRecord r
    need (!(l.cores && decide (1 < c.splits.length))) (splitState p 1)
    checkPoison u s c p
    need (!bad) ⟨.poison, p.pc, x, .ofNat 64 (if inFabric pa then 4 else 3)⟩
    let nest := match s.launch? c.lid with | some y => y.nest | none => 0
    let code := checkRecord s c nest r l
    reachable (s.statusOk c.core c.asid (pa + 0x7C) || (p.muted && s.fabricStuck c.core c.asid (pa + 0x7C) true)) (pa + 0x7C) true
    let status (s : State) (k : Nat) : State := s.launchStatus c (pa + 0x7C) k
    let done (s : State) : Res := pure ((s.advance c p).takeMark c.cid p.sid id)
    if code = 0 then
      let time := match b with | some b => c.u b.toNat | none => 0
      let held := b.isSome && s.ftime.ult time
      let s := s.createLaunch c l (nest + 1) (.ofNat 64 (pa + 0x7C)) (if held then .held time else .pending)
      done (status s (if b.isSome && !held then 3 else 1))
    else done ((status s code).launchFailed c l code)

/-- LAUNCH (R62). -/
def execLaunch (a : BitVec 6) (s : State) : Host.Outcome State Fault Refusal :=
  launchBody (encode (.launch a)) a none s

/-- LAUNCH.AT (R62). -/
def execLaunchAt (a b : BitVec 6) (s : State) : Host.Outcome State Fault Refusal :=
  launchBody (encode (.launchAt a b)) a (some b) s

end Sys2Proof.Machine
end

