-- ==== Sys2Proof/Machine/Distrib.lean ====
section
/-! DEFINITION. The distributor: where teams and field hosts are placed (R265 to R267, R281), timed launches
(R262), and the retirement of teams and launches (R68). -/

namespace Sys2Proof.Machine

/-- The outcome of an event: its next state where its condition holds, after which every split may be tried again
(R270); else the state as it is. -/
def fire (s : State) (o : Option State) : Host.Outcome State Fault Refusal :=
  match o with
  | some t => .next t.retry
  | none => .next s

/-- `some x` where the condition holds. -/
def guarded {α : Type} (b : Bool) (x : α) : Option α := if b then some x else none

/-- Puts an item into a list sorted by `before`. -/
def insertBy {α : Type} (before : α → α → Bool) (x : α) : List α → List α
  | [] => [x]
  | y :: t => if before y x then y :: insertBy before x t else x :: y :: t

/-- A list sorted by `before`, a strict order. -/
def sortBy {α : Type} (before : α → α → Bool) : List α → List α
  | [] => []
  | x :: t => insertBy before x (sortBy before t)

/-! ## Room on a core (R265) -/

/-- Crew slots and lane registers that are taken in a row: by grid crews and by the slots reserved for fields. -/
def State.rowUse (s : State) (core row : Nat) : Nat × Nat :=
  let crews := s.crews.filter fun c => c.core == core && c.row == row && c.host.isNone
  let slots := s.launches.flatMap fun l =>
    (l.slots.filter fun e => e.2.1 == core && e.2.2 == row).map fun _ => l.record.frame
  (crews.length + slots.length, (crews.map (·.frame)).sum + slots.sum)

/-- The row rule (R265): the row with the most free registers that has room, the lowest on a tie. -/
def State.pickRow (s : State) (core frame : Nat) : Option Nat :=
  let ok := (List.range 4).filter fun r =>
    decide ((s.rowUse core r).1 < 16) && decide ((s.rowUse core r).2 + frame ≤ 1024)
  ok.foldl (fun b r => match b with
    | none => some r
    | some q => if (s.rowUse core r).2 < (s.rowUse core q).2 then some r else some q) none

/-- Whether a team holds its allocation on a core. -/
def Team.holds (t : Team) : Bool := match t.phase with | .saved _ _ _ => false | _ => true

/-- The lowest free address for an allocation (R265). -/
def State.firstFit (s : State) (core size : Nat) : Option Nat :=
  let mine := (s.teams.filter fun t => t.core == core && t.holds && decide (0 < t.size)).map fun t => (t.base, t.size)
  let free (a : Nat) : Bool := decide (a + size ≤ 524288) &&
    mine.all fun m => decide (a + size ≤ m.1) || decide (m.1 + m.2 ≤ a)
  if size = 0 then some 0
  else (sortBy (fun (a b : Nat) => decide (a < b)) (0 :: mine.map fun m => m.1 + m.2)).find? free

/-- The contexts with crews on a core, with the slots of placed fields. -/
def State.contextsOn (s : State) (core : Nat) : List Nat :=
  (((s.crews.filter (·.core == core)).map (·.asid)) ++
    (s.launches.filter fun l => l.slots.any fun e => e.2.1 == core).map (·.asid)).eraseDups

/-- Tiles that a context holds on a core (R117). -/
def State.tilesHeld (s : State) (core asid : Nat) : Nat :=
  (s.tiles.filter fun t => t.core == core && t.asid == asid).length

/-- Whether a core can take a context: at most four share a core (R311), and each could still hold four tiles
(R265); no fenced core and none that is being retired takes any (R372). -/
def State.admits (s : State) (core asid : Nat) : Bool :=
  let cs := (asid :: s.contextsOn core).eraseDups
  !s.svc.fenced.contains core && !s.svc.retiring.contains core && decide (cs.length ≤ 4) &&
  decide ((cs.map fun x => 4 - s.tilesHeld core x).sum + (s.tiles.filter (·.core == core)).length ≤ 16)

/-- Whether a cluster holds no team and no host. -/
def State.clusterEmpty (s : State) (cl : Nat) : Bool :=
  (s.teams.all fun t => !(clusterOf t.core == cl && t.holds)) &&
  s.launches.all fun l => l.slots.all fun e => clusterOf e.2.1 != cl

/-- Whether a cluster has, or can take, the L1 mode of a launch (R141). -/
def State.modeFits (s : State) (core : Nat) (fuse : Bool) : Bool :=
  s.fused.contains (clusterOf core) == fuse || s.clusterEmpty (clusterOf core)

/-- Gives a cluster its L1 mode; a change writes the L1s' dirty words back first (R141). -/
def State.setMode (s : State) (core : Nat) (fuse : Bool) : State :=
  let cl := clusterOf core
  if s.fused.contains cl == fuse then s
  else
    let mine (c : Nat) : Bool := clusterOf c == cl
    let dirty := (s.l1.filter fun w => mine w.core && w.st == .ownedDirty).map (·.addr)
    State.giveBack { s with
      owner := s.owner.filter fun e => !mine e.2
      l1 := s.l1.filter fun w => !mine w.core
      fused := if fuse then cl :: s.fused else s.fused.erase cl } core dirty

/-! ## Placing teams (R265, R266) -/

/-- Adds crews to a core by the row rule, in the order of the list; none where one finds no row. -/
def State.seatCrews (core : Nat) : List (Nat → Crew) → State → Option State
  | [], s => some s
  | make :: rest, s =>
    match s.pickRow core (make 0).frame with
    | none => none
    | some r =>
      let c := { make r with cid := s.nextId }
      State.seatCrews core rest (s.bumpId.addCrew c)

/-- Puts team `tid` of a launch on a core if it fits there (R265); its scratchpad reads as zero (R136). -/
def State.placeTeam (s : State) (l : Launch) (tid core : Nat) : Option State :=
  let r := l.record
  match s.firstFit core r.scratch with
  | none => none
  | some base =>
    if s.admits core l.asid && s.modeFits core r.fuseL1 &&
        decide ((s.bars.filter (·.core == core)).length < 256) then
      let s := s.setMode core r.fuseL1
      let t : Team := {
        lid := l.lid, tid := tid, core := core, base := base, size := r.scratch, scratch := [], spoison := []
        crewsLeft := r.crews, phase := .resident }
      State.seatCrews core
        ((List.range r.crews).map fun k row => newCrew l 0 tid k core row (tid * r.crews + k))
        { s with teams := s.teams ++ [t] }
    else none

/-- Crews on a core. -/
def State.crewsOn (s : State) (core : Nat) : Nat := (s.crews.filter (·.core == core)).length

/-- The order in which cores are tried (R266): the one with the fewest crews, the lowest on a tie, then the others
upwards with wrap. -/
def State.coreOrder (s : State) (cores : List Nat) : List Nat :=
  let cs := sortBy (fun (a b : Nat) => decide (a < b)) cores
  match cs.foldl (fun b c => match b with
      | none => some c
      | some d => if s.crewsOn c < s.crewsOn d then some c else some d) (none : Option Nat) with
  | none => []
  | some f => (cs.filter fun c => decide (f ≤ c)) ++ cs.filter fun c => decide (c < f)

/-- Places the items of a list one after the other, each on the first core that takes it. -/
def placeEach {α : Type} (put : State → α → Nat → Option State) (cores : List Nat) :
    List α → State → Option State
  | [], s => some s
  | x :: rest, s =>
    match (s.coreOrder cores).findSome? (put s x) with
    | none => none
    | some t => placeEach put cores rest t

/-- The dies of a partition in the order of the coordinator: the most free crew slots first, the lowest on a tie
(R266). -/
def State.dieOrder (s : State) (p : Partition) : List (List Nat) :=
  let dies := ((List.range 4).map fun d => (d, p.cores.filter fun c => c / 72 == d)).filter fun e => !e.2.isEmpty
  let free (e : Nat × List Nat) : Nat :=
    (e.2.map fun c => ((List.range 4).map fun r => 16 - (s.rowUse c r).1).sum).sum
  (sortBy (fun a b => decide (free b < free a) || (free a == free b && decide (a.1 < b.1))) dies).map (·.2)

/-- The clusters of a die's cores, ascending. -/
def clustersOf (cores : List Nat) : List (List Nat) :=
  let cs := sortBy (fun (a b : Nat) => decide (a < b)) (cores.map clusterOf).eraseDups
  cs.map fun cl => cores.filter fun c => clusterOf c == cl

/-- Places the teams of a squad, in one step, by R266: a squad on the first cluster that fits, a team alone (`lone`) on the cores
of a die. -/
def placeSquad {α : Type} (put : State → α → Nat → Option State) (p : Partition) (lone : Bool) (xs : List α) (s : State) :
    Option State :=
  (s.dieOrder p).findSome? fun cores =>
    if lone then placeEach put cores xs s
    else (clustersOf cores).findSome? fun cl => placeEach put cl xs s

/-! ## The pass (R267) -/

/-- Places squads of a launch from its next team on, as many as fit, at most `n`. -/
def placeSquads (lid : Nat) (p : Partition) : Nat → State → State
  | 0, s => s
  | n + 1, s =>
    match s.launch? lid with
    | none => s
    | some l =>
      let q := max 1 l.record.squad
      if l.record.teams ≤ l.nextTeam then s
      else
        match placeSquad (fun s tid core => s.placeTeam l tid core) p (decide (q ≤ 1))
            ((List.range q).map (l.nextTeam + ·)) s with
        | none => s
        | some t =>
          placeSquads lid p n (t.modLaunch lid fun l => { l with
            nextTeam := l.nextTeam + q
            phase := if l.record.teams ≤ l.nextTeam + q then .placed else l.phase })

/-- Reserves the host slots of a field, in ascending order (R281); none where one finds no room. -/
def placeSlots (p : Partition) (l : Launch) : List Nat → State → Option State
  | [], s => some s
  | j :: rest, s =>
    let core := hostCore p l.record j
    if s.admits core l.asid && s.modeFits core l.record.fuseL1 then
      match s.pickRow core l.record.frame with
      | none => none
      | some row =>
        placeSlots p l rest ((s.setMode core l.record.fuseL1).modLaunch l.lid fun l => { l with
          slots := l.slots ++ [(j, core, row)] })
    else none

/-- Places one pending launch as far as R267 lets it: all at once for CORES = 1 and for fields. -/
def State.placeLaunch (s : State) (p : Partition) (l : Launch) : State :=
  if l.isField then
    match placeSlots p l (List.range l.record.hostSlots) s with
    | some t => (t.modLaunch l.lid fun l => { l with phase := .placed, nextTeam := 1 }).rebalance l.lid
    | none => s
  else
    let t := placeSquads l.lid p (l.record.teams / max 1 l.record.squad + 1) s
    if l.record.cores then
      match t.launch? l.lid with
      | some m => if m.phase == .placed then t else s
      | none => s
    else t

/-- The launches that wait for placement in a partition, by priority and acceptance (R267, R268). -/
def State.pendingIn (s : State) (n : Nat) : List Launch :=
  sortBy (fun a b => decide (b.record.prio < a.record.prio) ||
      (a.record.prio == b.record.prio && decide (a.lid < b.lid)))
    (s.launches.filter fun l => l.phase == .pending &&
      (match s.context? l.asid with
       | some x => x.part == n && x.resident && !x.switching
       | none => false))

/-- The launches of a pass in turn; a co-resident launch or a field that is held at the head of its priority ends the
pass (R267). `left` lists the priorities in which an earlier launch still waits. -/
def passOver (p : Partition) : List Launch → List Nat → State → State
  | [], _, s => s
  | l :: rest, left, s =>
    let s := s.placeLaunch p l
    let waits := match s.launch? l.lid with | some m => m.phase == .pending | none => false
    if waits && (l.isField || l.record.cores) && !left.contains l.record.prio then s
    else passOver p rest (if waits then l.record.prio :: left else left) s

/-- The effect of a distributor pass, where it changes anything. -/
def State.distribute (s : State) (n : Nat) : Option State :=
  match s.pendingIn n with
  | [] => none
  | ls =>
    let t := passOver (s.part n) ls [] s
    guarded (t != s) t

/-- DISTRIBUTOR_PASS (R267). -/
def execDistributorPass (part : Nat) (s : State) : Host.Outcome State Fault Refusal :=
  fire s (s.distribute part)

/-- A held launch becomes pending at its time (R262). -/
def State.launchDue (s : State) (lid : Nat) : Option State :=
  match s.launch? lid with
  | some l =>
    (match l.phase with
     | .held t => guarded (t.ule s.ftime) (s.modLaunch lid fun l => { l with phase := .pending })
     | _ => none)
  | none => none

/-- LAUNCH_AT_DUE (R262). -/
def execLaunchAtDue (lid : Nat) (s : State) : Host.Outcome State Fault Refusal := fire s (s.launchDue lid)

/-! ## Retirement (R68) -/

/-- Whether accesses of crews that are gone are still on their way. -/
def State.orphans (s : State) (f : Nat → Nat → Bool) : Bool :=
  (s.regs.any fun q => (s.crew? q.cid).isNone && f q.core q.asid) ||
  (s.adds.any fun q => (s.crew? q.cid).isNone && f q.core q.asid) ||
  (s.held.any fun q => (s.crew? q.cid).isNone && f q.core q.asid) ||
  (s.shreqs.any fun q => (s.crew? q.cid).isNone && f q.core q.asid)

/-- Whether engine commands of a team are outstanding. -/
def State.teamBusy (s : State) (lid tid : Nat) : Bool :=
  (s.copies.any fun q => q.lid == lid && q.team == tid) || s.mats.any fun q => q.lid == lid && q.team == tid

/-- Whether an allocation must be kept after its team's retirement: while R68 keeps it, and while a squad-window access that reached
it before that moment is under way, a load or a store whose check it has passed (R139, R163). -/
def State.mustKeep (s : State) (l : Launch) (tid : Nat) : Bool :=
  s.keeps l tid || (s.held.any fun h => h.lid == l.lid && h.team == tid) || s.crews.any fun c => c.lid == l.lid && c.loads.any fun q =>
    q.space == .squad && q.lanes.any fun a => a.team == tid && a.got.isNone

/-- Frees the barrier entries of a team (R184). -/
def State.freeTeamBars (s : State) (lid tid : Nat) : State :=
  (s.bars.filter fun b => b.lid == lid && b.team == tid).foldl (fun s b => s.freeBar b) s

/-- Whether all crews of a team have retired and its allocation is kept, also while it is out (R68, R355). -/
def Team.kept (t : Team) : Bool :=
  match t.phase with
  | .retiredKept => true
  | .saved [] _ _ => true
  | _ => false

/-- Frees the allocations that are kept no longer. -/
def State.freeKept (s : State) (l : Launch) : State :=
  let gone := s.teams.filter fun t => t.lid == l.lid && t.kept && !s.mustKeep l t.tid
  let s := gone.foldl (fun s t => s.freeTeamBars t.lid t.tid) s
  { s with teams := s.teams.filter fun t => !gone.contains t }

/-- A team retires once its last crew has retired and its engine commands have completed (R68): its tiles are
released, its scratchpad and barrier entries free unless they are kept. -/
def State.teamRetire (s : State) (lid tid : Nat) : Option State :=
  match s.launch? lid, s.team? lid tid with
  | some l, some t =>
    if t.kept then guarded (!s.mustKeep l tid) (s.freeKept l)
    else
    guarded (t.phase == .resident && t.crewsLeft == 0 && !s.teamBusy lid tid &&
        (s.crews.all fun c => !(c.lid == lid && c.team == tid)) &&
        !s.orphans fun core asid => core == t.core && asid == l.asid) <|
      let s := { s with tiles := s.tiles.filter fun x => !(x.lid == lid && x.team == tid) }
      let s := s.modTeam lid tid fun t => { t with phase := .retiredKept }
      let s := s.modLaunch lid fun l => { l with
        retired := l.retired + 1
        phase := if l.record.teams ≤ l.retired + 1 then .draining else l.phase }
      s.freeKept l
  | _, _ => none

/-- TEAM_RETIRE (R68). -/
def execTeamRetire (lid tid : Nat) (s : State) : Host.Outcome State Fault Refusal :=
  fire s (s.teamRetire lid tid)

/-- Whether the barrier object of a launch's DONE can be reached: its team is not out (log entry 25). -/
def State.doneReady (s : State) (l : Launch) : Bool :=
  match l.record.done, l.parent with
  | some _, some q =>
    (match s.team? q l.ptid with
     | some t => t.holds
     | none => true)
  | _, _ => true

/-- The arrival on DONE (R68): a release at system scope, so that a waiter sees every write of the launch. -/
def State.arriveDone (s : State) (l : Launch) : State :=
  match l.record.done, l.parent with
  | some h, some q =>
    (match s.team? q l.ptid with
     | some t =>
       (match s.handleObj t.core q l.ptid (.ofNat 64 h) with
        | some b => s.arriveFar b
        | none => s)
     | none => s)
  | _, _ => s

/-- Whether a context is being stopped. -/
def State.stopping (s : State) (asid : Nat) : Bool := match s.context? asid with | some x => x.stopping | none => false

/-- Whether every team of a grid has retired, or every cell of every part of a field has exited; of a field that STOP ends, every cell of
this device's part (R308; DEDUCED, log entry 19). -/
def State.launchOver (s : State) (l : Launch) : Bool :=
  if l.isField then s.fieldOver l || (s.stopping l.asid && s.seats.all fun t => t.lid != l.lid || t.exited == 0xF)
  else decide (l.record.teams ≤ l.retired) && decide (l.record.teams ≤ l.nextTeam)

/-- Whether the write of a launch's STATUS can be made, or has been dropped (R320). -/
def State.statusReady (s : State) (l : Launch) : Bool :=
  match l.status with
  | some pa => l.mute || s.statusOk (s.deviceCore l.asid) l.asid pa.toNat
  | none => true

/-- A launch retires once its teams and children have retired (R68): STATUS, the arrival on DONE and the interrupt
follow in that order. The other devices of a field have been told of every exit (R291). A context that STOP ends posts no interrupt of kind 3 (R308). -/
def State.gridRetire (s : State) (lid : Nat) : Option State :=
  match s.launch? lid with
  | none => none
  | some l =>
    let started := match l.phase with | .placed => true | .draining => true | _ => false
    guarded (started && s.launchOver l && (s.launches.all fun x => x.parent != some lid) &&
        (s.crews.all fun c => c.lid != lid) &&
        (s.copies.all fun q => q.lid != lid) && (s.mats.all fun q => q.lid != lid) && s.doneReady l && s.statusReady l &&
        (!l.isField || ((s.untold l).isNone && !s.orphans fun _ asid => asid == l.asid))) <|
      let s := match l.status with
        | some pa => if l.mute then s else s.putStatus (s.deviceCore l.asid) l.asid pa.toNat (if l.cut then 4 else 2)
        | none => s
      let s := s.arriveDone l
      let s := if l.status.isNone then (if s.stopping l.asid then s else s.interrupt l.asid 3 0)
        else if l.record.notify then s.interrupt l.asid (if l.cut then 4 else 1) l.gid.toNat
        else s
      let s := { s with
        launches := s.launches.filter (·.lid != lid)
        teams := s.teams.filter (·.lid != lid)
        tiles := s.tiles.filter (·.lid != lid)
        seats := s.seats.filter (·.lid != lid)
        faultq := s.faultq.filter (·.lid != lid)
        icache := s.icache.filter (·.lid != lid)
        remote := s.remote.filter (·.lid != lid) }
      match l.parent.bind s.launch? with
      | some q => s.freeKept q
      | none => s

/-- GRID_RETIRE (R68). -/
def execGridRetire (lid : Nat) (s : State) : Host.Outcome State Fault Refusal := fire s (s.gridRetire lid)

end Sys2Proof.Machine
end

