-- ==== Sys2Proof/Machine/Special.lean ====
section
/-! DEFINITION. Special registers (R31 to R34), FQPOP (R338), STEP (R285), FB.MARK and FB.GO (R349, R354). -/

namespace Sys2Proof.Machine

/-- The width of a special register; none for a reserved number (Table 2.4). -/
def specialWidth : Nat → Option Nat
  | 0x00 => some 5
  | 0x01 => some 32
  | 0x02 => some 4
  | 0x03 => some 32
  | 0x04 => some 3
  | 0x05 => some 32
  | 0x06 => some 9
  | 0x07 => some 32
  | 0x08 => some 32
  | 0x09 => some 32
  | 0x0A => some 16
  | 0x0B => some 4
  | 0x0C => some 2
  | 0x0D => some 5
  | 0x0E => some 8
  | 0x0F => some 10
  | 0x10 => some 10
  | 0x11 => some 64
  | 0x12 => some 16
  | 0x13 => some 64
  | 0x14 => some 64
  | 0x15 => some 64
  | _ => none

/-- The value of a special register in a lane, before it is cut to its width (Table 2.4). -/
def specialValue (s : State) (c : Crew) (p : Split) (n lane : Nat) : DWord :=
  let ofNat (x : Nat) : DWord := .ofNat 64 x
  let l? := s.launch? c.lid
  let field := s.inField c
  let cell := match l? with
    | some l => l.cell c.team lane
    | none => (0, 0)
  match n with
  | 0x00 => ofNat lane
  | 0x01 => p.mask.zeroExtend 64
  | 0x02 => ofNat c.crewNo
  | 0x03 => ofNat c.team
  | 0x04 => if field then 0 else ofNat (c.team % s.squadOf c)
  | 0x05 => match l? with
    | some l => l.gid.zeroExtend 64
    | none => 0
  | 0x06 => ofNat c.core
  | 0x07 => if field then ofNat cell.1 else 0
  | 0x08 => if field then ofNat cell.2 else 0
  | 0x09 => match l? with
    | some l => if field then ofNat (s.sigmaOf l c.team lane) else 0
    | none => 0
  | 0x0A => ofNat c.depth
  | 0x0B => match l? with
    | some l => ofNat l.nest
    | none => 0
  | 0x0C => c.fpmode.zeroExtend 64
  | 0x0D => c.fpflags.zeroExtend 64
  | 0x0E => c.cpol.zeroExtend 64
  | 0x0F => match s.context? c.asid with
    | some x => ofNat x.shbase
    | none => 0
  | 0x10 => match s.context? c.asid with
    | some x => ofNat x.shcount
    | none => 0
  | 0x11 => s.ftime
  | 0x12 => p.tcause.zeroExtend 64
  | 0x13 => p.trappc
  | 0x14 => p.taddr
  | 0x15 => p.taux
  | _ => 0

/-- A special register as SRD reads it: zero-extended from its width (R31). -/
def readSpecial (s : State) (c : Crew) (p : Split) (n width lane : Nat) : DWord :=
  .ofNat 64 ((specialValue s c p n lane).toNat % 2 ^ width)

/-- SRD to a uniform register: the value of the lowest lane of the split (R32). -/
def execSrdS (d : BitVec 6) (n : BitVec 8) (s : State) : Host.Outcome State Fault Refusal :=
  let w := encode (.srdS d n)
  issue s fun c p s => do
    match specialWidth n.toNat with
    | none => throw (.trap (illopnd p w))
    | some k =>
      checkAll w { ud := [d.toNat] } s c p
      let x := readSpecial s c p n.toNat k ((maskLanes p.mask).headD 0)
      pure ((s.modCrew c.cid fun q => q.setU d.toNat x).advance c p)

/-- SRD to a lane register, or to a pair for a 64-bit register (R32). -/
def execSrdV (d : BitVec 6) (n : BitVec 8) (h : BitVec 1) (s : State) : Host.Outcome State Fault Refusal :=
  let w := encode (.srdV d n h)
  let dst := 64 * h.toNat + d.toNat
  issue s fun c p s => do
    match specialWidth n.toNat with
    | none => throw (.trap (illopnd p w))
    | some k =>
      need (!(k == 64 && dst % 2 == 1)) (illopnd p w)
      checkAll w { wr := if k == 64 then [dst, dst + 1] else [dst] } s c p
      let vs := (activeLanes c p).map fun l => (l, readSpecial s c p n.toNat k l)
      let s := s.modCrew c.cid fun q => q.setLanes dst (vs.map fun v => (v.1, v.2.truncate 32))
      let s := if k == 64 then
          s.modCrew c.cid fun q => q.setLanes (dst + 1) (vs.map fun (v : Nat × DWord) => (v.1, (v.2 >>> 32).truncate 32))
        else s
      pure (s.advance c p)

/-- SWR (R33, R34): a reserved or read-only number, and a trap register outside handler mode, raise ILLOPND. A
flag raised by the first pick of the same cycle is ORed in after a write of FPFLAGS. -/
def execSwr (a : BitVec 6) (n : BitVec 8) (s : State) : Host.Outcome State Fault Refusal :=
  let w := encode (.swr a n)
  issue s fun c p s => do
    let k := n.toNat
    need (decide (0x0C ≤ k ∧ k ≤ 0x0E) || (decide (0x12 ≤ k ∧ k ≤ 0x15) && p.inHandler)) (illopnd p w)
    checkAll w { us := [a.toNat] } s c p
    let x := c.u a.toNat
    let paired := s.picks.any fun q => q.cid == c.cid && q.sid != p.sid
    let crew (f : Crew → Crew) : Res := pure ((s.modCrew c.cid f).advance c p)
    let split (f : Split → Split) : Res := pure ((s.modSplit c.cid p.sid f).advance c p)
    match k with
    | 0x0C => crew fun q => { q with fpmode := x.truncate 2 }
    | 0x0D => crew fun q => { q with fpflags := x.truncate 5 ||| (if paired then c.raised else 0) }
    | 0x0E => crew fun q => { q with cpol := x.truncate 8 }
    | 0x12 => split fun q => { q with tcause := x.truncate 16 }
    | 0x13 => split fun q => { q with trappc := x }
    | 0x14 => split fun q => { q with taddr := x }
    | _ => split fun q => { q with taux := x }

/-- The code of an access size in a store-fault record (Table 21.2). -/
def sizeCode : Nat → Nat
  | 1 => 0
  | 2 => 1
  | 4 => 2
  | 8 => 3
  | _ => 4

/-- The fourth word of a store-fault record (Table 21.2). -/
def recordWord (r : FaultRec) (more : Bool) : DWord :=
  .ofNat 64 (r.mask.toNat * 2 ^ 32 + 2 ^ 31 + (if more then 2 ^ 30 else 0) + r.reason * 2 ^ 26 +
    sizeCode r.size * 2 ^ 23 + r.lane * 2 ^ 18 + r.word.toNat / 2 ^ 24 * 2 ^ 8 + r.word.toNat % 256)

/-- FQPOP: removes the crew's oldest store-fault record and writes it to four uniform registers (R338). -/
def execFqpop (d : BitVec 6) (s : State) : Host.Outcome State Fault Refusal :=
  let w := encode (.fqpop d)
  issue s fun c p s => do
    need (decide (d.toNat ≤ 60)) (illopnd p w)
    checkAll w { ud := [0, 1, 2, 3].map (d.toNat + ·) } s c p
    let put (s : State) (x0 x1 x2 x3 : DWord) : State :=
      (s.modCrew c.cid fun q =>
        (((q.setU d.toNat x0).setU (d.toNat + 1) x1).setU (d.toNat + 2) x2).setU (d.toNat + 3) x3).advance
          c p
    let mine := s.faultsOf c.cid
    match mine.find? fun r => !r.held with
    | none => pure (put s 0 0 0 (if mine.isEmpty then 0 else 0x40000000))
    | some r =>
      let s := { s with faultq := s.faultq.erase r }
      pure (put s r.va r.data0 r.data1 (recordWord r (decide (1 < mine.length))))

/-! ## STEP (R285) -/

/-- Whether every step neighbour of the cells of a mask has reached their step or has exited. -/
def State.stepReady (s : State) (c : Crew) (m : BitVec 32) : Bool :=
  match s.launch? c.lid with
  | none => false
  | some l => (maskLanes m).all fun i =>
      let x := l.cell c.team i
      (l.stepNeighbours x.1 x.2).all fun n => s.reached l n (s.sigmaOf l c.team i)

/-- The cell of a lane captures its published registers, poison included, and advances its step counter (R282, R285, R345). -/
def captureLane (c : Crew) (pub : BitVec 8) (s : State) (lane : Nat) : State :=
  s.modSeat c.lid (8 * c.team + lane / 4) fun t =>
    let i := lane % 4
    let k := sget 0 t.sigma i
    let put (b : SMap Word) : SMap Word :=
      (List.range 8).foldl (fun b j =>
        if pub.getLsbD j then sset 0 b (4 * j + i) (c.vAbs lane j) else b) b
    let first := if k % 2 == 1 then 0 else 32
    let mine := (List.range 8).map fun j => first + 4 * j + i
    { t with
      sigma := sset 0 t.sigma i (k + 1)
      bad := (t.bad.filter fun x => !mine.contains x) ++
        ((List.range 8).filter fun j => pub.getLsbD j && c.vpoison.contains (32 * j + lane)).map fun j => first + 4 * j + i
      buf0 := if k % 2 == 1 then put t.buf0 else t.buf0
      buf1 := if k % 2 == 1 then t.buf1 else put t.buf1 }

/-- Sets DONE of the seats of a host (Table 16.6). -/
def State.setDone (s : State) (c : Crew) (b : Bool) : State :=
  match c.host with
  | some h => h.seats.foldl (fun s k => s.modSeat c.lid (8 * c.team + k) fun t => { t with done := b }) s
  | none => s

/-- PUB of a crew's launch. -/
def State.pubOf (s : State) (c : Crew) : BitVec 8 :=
  match s.launch? c.lid with
  | some l => l.record.pub
  | none => 0

/-- STEP completes: every cell of the split captures and advances, the uniform registers, FPMODE and CPOL restart
and the split goes on; a mark without pins and recipe (R285, R351). -/
def completeStep (s : State) (c : Crew) (p : Split) : State :=
  let s := (maskLanes p.mask).foldl (captureLane c (s.pubOf c)) s
  let s := s.modCrew c.cid fun k => ({ k with
      sregs := sset 0 [] 0 c.args, spoison := [], fpmode := 0, cpol := 0
      host := match k.host with | some h => some { h with stepAt := some s.cycle } | none => none }).modSplit
    p.sid fun q => { q with pc := p.pc + 4, status := .ready }
  let s := s.takeMark c.cid p.sid fun m => { m with lpin := [], upin := [], recipe := 0 }
  (s.setDone c true).stepEvent c

/-- POISON of the first published register that STEP would capture poisoned, in the lowest lane of SPLITMASK (R346). -/
def stepPoison (c : Crew) (p : Split) (pub : BitVec 8) : Option Trap :=
  (((List.range 8).filter pub.getLsbD).findSome? fun j =>
    ((maskLanes p.mask).find? fun l => c.vpoison.contains (32 * j + l)).map fun l => 1 + 256 * j + 65536 * l).map (ownTrap p .poison)

/-- STEP (R285): it reads the published registers once their data have arrived (R160), no earlier access of the split is still to write
a uniform register, which it zeroes (log entry 55), and it parks while a step neighbour is behind;
the cox takes note (R289). -/
def execStep (s : State) : Host.Outcome State Fault Refusal :=
  issue s fun c p s => do
    need (s.inField c && !p.inHandler) (illop p (encode .step))
    need (c.splits.length == 1) (splitState p 1)
    need (c.depth == 0) (splitState p 4)
    need p.stack.isEmpty (splitState p 5)
    await ((List.range 8).all fun j => !((s.pubOf c).getLsbD j && s.laneBusy c j))
    await ((List.range 64).all fun n => !s.uniOwed c p n)
    raiseIf (stepPoison c p (s.pubOf c))
    if s.stepReady c p.mask then pure (completeStep s c p)
    else
      pure (((s.modSplit c.cid p.sid fun q => { q with status := .stepWait }).setDone c false).coxEvent c)

/-! ## Flashback marks (R349, R354) -/

/-- The eight pin bytes of an operand of FB.MARK. -/
def pinBytes (x : DWord) : List Nat := (List.range 8).map fun i => x.toNat / 256 ^ i % 256

/-- FB.MARK (R349): takes an explicit mark with its pins and recipe. -/
def execFbMark (a b cc : BitVec 6) (s : State) : Host.Outcome State Fault Refusal :=
  let w := encode (.fbMark a b cc)
  issue s fun c p s => do
    let u : Uses := { us := [a.toNat, b.toNat, cc.toNat] }
    need (!p.inHandler) (illop p w)
    checkUses w u true s c p
    need (c.splits.length == 1) (splitState p 1)
    let lp := pinBytes (c.u a.toNat)
    let up := pinBytes (c.u b.toNat)
    let rcp := c.u cc.toNat
    need (lp.all fun x => decide (x < 0x80) || x == 0xFF) (engArg p 0 1 0)
    need (lp.all fun x => decide (x < c.ws) || x == 0xFF) (engArg p 0 8 0)
    need (up.all fun x => decide (x < 0x3F) || x == 0xFF) (engArg p 1 1 0)
    need (rcp &&& 3 == 0) (engArg p 2 2 rcp)
    checkPoison u s c p
    let lpin := (lp.filter (· != 0xFF)).map (c.wb + ·)
    let upin := up.filter (· != 0xFF)
    pure ((s.advance c p).takeMark c.cid p.sid fun m => { m with lpin := lpin, upin := upin, recipe := rcp })

/-- FB.GO: ends recipe mode at the record's PC; ILLOP outside it (R354). -/
def execFbGo (s : State) : Host.Outcome State Fault Refusal :=
  issue s fun c p s => do
    need p.recipe (illop p (encode .fbGo))
    pure ((s.setPc c.cid p.sid p.mark.pc).endRecipe c.cid p.sid)

end Sys2Proof.Machine
end

