-- ==== Sys2Proof/Machine/Switch.lean ====
section
/-! DEFINITION. The scheduler's events of splits and hosts (R248, R255, R273, R284, R285, R288, R293, R329), pre-emption and
resumption of teams (R352, R353) and context switches (R268, R355). -/

namespace Sys2Proof.Machine

/-! ## Splits and hosts -/

/-- Whether a split stands in the age order. -/
def State.inAge (s : State) (cid sid : Nat) : Bool := s.age.any fun e => e.1 == cid && e.2 == sid

/-- A split that a flip has woken, or that a Merge has made, enters the age order (R273). -/
def State.splitWake (s : State) (cid sid : Nat) : Option State :=
  match s.split? cid sid with
  | none => none
  | some p =>
    if s.inAge cid sid then none
    else
      match p.status with
      | .barWait _ _ w => guarded (w != .parked) (s.enage cid sid)
      | .waking => some ((s.modSplit cid sid fun p => { p with status := .ready }).enage cid sid)
      | _ => none

/-- SPLIT_WAKE (R273). -/
def execSplitWake (cid sid : Nat) (s : State) : Host.Outcome State Fault Refusal :=
  fire s (s.splitWake cid sid)

/-- After the 4,096th issue of a running arm whose parked arm is unfinished the arms swap (R255), once the swap need not wait any more
(R316, R320). -/
def State.fairnessSwap (s : State) (cid sid : Nat) : Option State :=
  match s.split? cid sid with
  | some p =>
    (match p.fb with
     | some f =>
       if !f.finished && decide (4096 ≤ f.count) && p.status == .ready then
         match swapArms s cid sid false p.muted with
         | .ok t => some t
         | .error (.held pa w) => guarded (p.waits != some (pa, w)) (s.hold cid sid pa w)
         | .error _ => none
       else none
     | none => none)
  | none => none

/-- FAIRNESS_SWAP (R255). -/
def execFairnessSwap (cid sid : Nat) (s : State) : Host.Outcome State Fault Refusal :=
  fire s (s.fairnessSwap cid sid)

/-- The shadow of a YIELD ends (R248). -/
def State.shadowEnd (s : State) (cid sid : Nat) : Option State :=
  match s.split? cid sid with
  | some p => guarded (p.shadow != 0 && decide (p.shadow ≤ s.cycle))
      (s.modSplit cid sid fun p => { p with shadow := 0 })
  | none => none

/-- YIELD_SHADOW_END (R248). -/
def execYieldShadowEnd (cid sid : Nat) (s : State) : Host.Outcome State Fault Refusal :=
  fire s (s.shadowEnd cid sid)

/-- A due boundary trap is taken (R329, R331). -/
def State.trapEntry (s : State) (cid sid : Nat) : Option State :=
  match s.crew? cid with
  | none => none
  | some c =>
    match c.split? sid with
    | none => none
    | some p =>
      match s.dueTrap cid p with
      | some d => guarded (s.mayIssue c p && p.drained) ((s.takeDue cid sid d).afterTrap cid sid)
      | none => none

/-- TRAP_ENTRY (R329). -/
def execTrapEntry (cid sid : Nat) (s : State) : Host.Outcome State Fault Refusal :=
  fire s (s.trapEntry cid sid)

/-- The neighbour operands for which a split waits can all be served (R284): its instruction may issue. -/
def State.neighbourRead (s : State) (cid sid : Nat) : Option State :=
  match s.crew? cid with
  | none => none
  | some c =>
    match c.split? sid with
    | none => none
    | some p =>
      match p.status with
      | .nbrWait ops =>
        guarded (ops.all fun o => (activeLanes c p).all fun l => (s.nbrVal c l o.1 o.2).isSome)
          (s.modSplit cid sid fun p => { p with status := .ready })
      | _ => none

/-- NEIGHBOUR_READ (R284). -/
def execNeighbourRead (cid sid : Nat) (s : State) : Host.Outcome State Fault Refusal :=
  fire s (s.neighbourRead cid sid)

/-- Whether a context is on its way out. -/
def State.switching (s : State) (asid : Nat) : Bool :=
  match s.context? asid with
  | some x => x.switching
  | none => false

/-- A parked STEP completes once its neighbours allow (R285), unless its host is being paged out or its context switched
out (R288, R293). -/
def State.stepDone (s : State) (cid sid : Nat) : Option State :=
  match s.crew? cid with
  | none => none
  | some c =>
    match c.split? sid with
    | none => none
    | some p =>
      let leaves := match c.host with | some h => h.leaving.isSome | none => false
      guarded (p.status == .stepWait && !leaves && !s.switching c.asid && s.stepReady c p.mask)
        ((completeStep s c p).enage cid sid)

/-- STEP_COMPLETE (R285). -/
def execStepComplete (cid sid : Nat) (s : State) : Host.Outcome State Fault Refusal :=
  fire s (s.stepDone cid sid)

/-- A seat that the cox has chosen, or any of a host all of whose seats are to go, or any evictable one of a context on its way out or
of a core that is being retired, is paged out, and Rebalance goes on (R288, R289, R293, R372). -/
def State.seatOut (s : State) (lid seat : Nat) : Option State :=
  match s.launch? lid, s.hostOf lid seat with
  | some l, some c =>
    let chosen := match c.host with | some h => h.leaving == some (seat % 8) || h.out | none => false
    guarded (s.pageOutReady c && (chosen || ((s.switching l.asid || s.svc.retiring.contains c.core) && s.evictable c)))
      ((s.pageOut l c (seat % 8)).rebalance lid)
  | _, _ => none

/-- PAGE_OUT (R288). -/
def execPageOut (lid seat : Nat) (s : State) : Host.Outcome State Fault Refusal :=
  fire s (s.seatOut lid seat)

/-- The microseconds since a context last came in or went out, or since it was told to go (R268, R293). -/
def State.sinceSwitch (s : State) (asid : Nat) : Nat :=
  match s.context? asid with
  | some x => s.micros - x.since
  | none => 0

/-- A host that has not reached an evictable state 1 ms after the switch request is ended as by TERM (R293). -/
def State.hostCut (s : State) (cid : Nat) : Option State :=
  match s.crew? cid with
  | none => none
  | some c =>
    let reached := s.evictable c || match c.host with | some h => h.leaving.isSome || h.out | none => false
    guarded (c.host.isSome && s.switching c.asid && !reached && decide (1000 < s.sinceSwitch c.asid))
      ((s.modLaunch c.lid fun l => { l with cut := true }).termCrew cid)

/-- HOST_CUT (R293). -/
def execHostCut (cid : Nat) (s : State) : Host.Outcome State Fault Refusal := fire s (s.hostCut cid)

/-! ## Pre-emption (R352, R353) -/

/-- Whether a crew has nothing under way: its instructions have written their destinations, its shell operations have
taken effect, its stores have translated and been sent, and what its fences wait for is over (R352, step 2). -/
def State.crewQuiet (s : State) (c : Crew) : Bool :=
  c.loads.isEmpty && (c.splits.all fun p => p.stores.isEmpty) && (s.adds.all fun q => q.cid != c.cid) &&
  (s.regs.all fun q => q.cid != c.cid) && (s.shreqs.all fun q => q.cid != c.cid) &&
  (s.held.all fun q => q.cid != c.cid) &&
  c.splits.all fun p => match p.fence with | some f => s.fenceDone c p f | none => true

/-- What pre-emption saves of a crew (Table 22.3): the pinned registers of its splits, in the lanes of their mark records, the rest of
the record as it stands. -/
def saveCrew (c : Crew) : SavedCrew :=
  let laneKeys := c.splits.flatMap fun p => p.mark.lpin.flatMap fun i => (maskLanes p.mark.mask).map (32 * i + ·)
  let uniKeys := c.splits.flatMap fun p => p.mark.upin
  { crew := { c with
      vregs := [], sregs := [], loads := [], resv := []
      vpoison := c.vpoison.filter laneKeys.contains, spoison := c.spoison.filter uniKeys.contains }
    pinnedV := c.vregs.filter fun e => laneKeys.contains e.1
    pinnedS := c.sregs.filter fun e => uniKeys.contains e.1 }

/-- A team is pre-empted (R352): its landings end, its state is saved, its core resources and tiles free and its
reservations are cleared. One whose crews have all retired and whose allocation is kept goes too (R355); while it has engine commands
outstanding it retires first. -/
def State.preempt (s : State) (lid tid : Nat) : Option State :=
  match s.team? lid tid with
  | none => none
  | some t =>
    let crews := s.crews.filter fun c => c.lid == lid && c.team == tid
    guarded ((t.phase == .retiredKept || (t.phase == .resident && !crews.isEmpty)) && !s.teamBusy lid tid &&
        crews.all fun c => s.crewQuiet c) <|
      let s := crews.foldl (fun s c => s.loseLandings c.cid none) s
      let bars := s.bars.filter fun b => b.lid == lid && b.team == tid
      let ours (cid : Nat) : Bool := crews.any (·.cid == cid)
      let s := s.modTeam lid tid fun t => { t with
        phase := .saved (crews.map saveCrew) bars (s.faultq.filter fun r => ours r.cid) }
      { s with
        crews := s.crews.filter fun c => !ours c.cid
        age := s.age.filter fun e => !ours e.1
        woke := s.woke.filter fun e => !ours e.1
        faultq := s.faultq.filter fun r => !ours r.cid
        bars := s.bars.filter fun b => !(b.lid == lid && b.team == tid)
        tiles := s.tiles.filter fun x => !(x.lid == lid && x.team == tid) }

/-- PREEMPT (R352). -/
def execPreempt (lid tid : Nat) (s : State) : Host.Outcome State Fault Refusal := fire s (s.preempt lid tid)

/-- The mark that was taken last among splits. -/
def lastMark : List Split → Option MarkRec
  | [] => none
  | p :: rest =>
    match lastMark rest with
    | none => some p.mark
    | some m => if m.seq < p.mark.seq then some p.mark else some m

/-- The split of a list whose mark was taken first. -/
def firstMark : List Split → Option Split
  | [] => none
  | p :: rest =>
    match firstMark rest with
    | none => some p
    | some q => if q.mark.seq < p.mark.seq then some q else some p

/-- A split re-created from its mark record (R353, step 3); with a recipe it is to run it in recipe mode. Its mask is the
record's, so lanes that exited since the mark run again from it (log entry 27). -/
def remakeSplit (p : Split) : Split :=
  let m := p.mark
  { p with
    anc := [], fence := none, acqAt := 0, mask := m.mask, pc := if m.recipe = 0 then m.pc else m.recipe, ad := m.ctl.ad, stack := m.ctl.stack
    fb := m.ctl.fb, handler := none, recipe := m.recipe != 0
    status := if m.recipe = 0 then .ready else .recipeWait, shadow := 0, stores := [], tried := false, waits := none
    muted := false }

/-- A crew restored on a core and a row (R353, steps 3 to 6). -/
def remakeCrew (v : SavedCrew) (core row : Nat) : Crew :=
  let c := v.crew
  let splits := c.splits.map remakeSplit
  let last := lastMark splits
  let wb := match last with | some m => m.wb | none => 0
  let depth := match last with | some m => m.depth | none => 0
  let runs := firstMark (splits.filter (·.recipe))
  let s63 : DWord := match runs with
    | some p => p.mark.pc
    | none => (match last with | some m => m.pc | none => 0)
  let pinned0 := splits.any fun p => p.mark.upin.contains 0
  let sregs := if pinned0 then v.pinnedS else sset 0 v.pinnedS 0 c.args
  let splits := splits.map fun p =>
    match runs with
    | some q => if p.sid == q.sid then { p with status := .ready } else { p with status := .recipeWait }
    | none => p
  let c := { c with
    core := core, row := row, vregs := v.pinnedV, sregs := sset 0 sregs 63 s63, nc := [], cb := 0, marks := []
    fpmode := (match last with | some m => m.fpmode | none => 0)
    cpol := (match last with | some m => m.cpol | none => 0)
    raised := 0, wb := wb, depth := depth, splits := splits
    exited := c.exited &&& ~~~(splits.foldl (fun (m : BitVec 32) (p : Split) => m ||| p.mask) 0) }
  let c := { c with resident := c.touched wb, spilled := [] }
  splits.foldl (fun c p => c.putCtl p.mask p.mark.ctl) c

/-- Puts a saved team on a core, if it fits there and its barrier entries are free there (R353): every split of a crew comes back, so the
row must have split-table entries for them, 24 of its 40 being for more than one a crew (R253; log entry 45). -/
def State.resumeOn (s : State) (l : Launch) (tid core : Nat) : Option State :=
  match s.team? l.lid tid with
  | none => none
  | some t =>
    match t.phase with
    | .saved crews bars faults =>
      match s.firstFit core t.size with
      | none => none
      | some base =>
        let taken := s.bars.filter (·.core == core)
        if s.admits core l.asid && s.modeFits core l.record.fuseL1 && decide (taken.length < 256) &&
            bars.all fun b => taken.all (·.idx != b.idx) then
          let s := s.setMode core l.record.fuseL1
          let s := s.modTeam l.lid tid fun t => { t with core := core, base := base, phase := if crews.isEmpty then .retiredKept else .resident }
          let s := { s with
            bars := s.bars ++ (bars.map fun (b : BarObj) => { b with core := core })
            barGen := bars.foldl (fun g (b : BarObj) => sset 1 g (256 * core + b.idx) b.gen) s.barGen }
          let room := 64 - (s.faultq.filter fun (r : FaultRec) => r.core == core && !r.held).length
          let back := (List.zip (List.range faults.length) faults).map fun e =>
            { e.2 with core := core, held := decide (room ≤ e.1) }
          let s := { s with faultq := s.faultq ++ back }
          crews.foldl (fun (o : Option State) v =>
            match o with
            | none => none
            | some s =>
              match s.pickRow core v.crew.frame with
              | none => none
              | some row =>
                guarded (decide (s.extraSplits core row + v.crew.splits.length ≤ 25)) (s.addCrew (remakeCrew v core row)))
            (some s)
        else none
    | _ => none

/-- Pre-empted teams come back (R353): a lone team where R266 places it, a team of a squad beside the teams of its
squad that hold their allocations, or the whole squad where every team of it is out. -/
def State.resume (s : State) (lid tid : Nat) : Option State :=
  match s.launch? lid, s.team? lid tid with
  | some l, some t =>
    let q := max 1 l.record.squad
    let squad := s.teams.filter fun u => u.lid == lid && u.tid / q == tid / q
    let ok := match s.context? l.asid with | some x => x.resident && !x.switching | none => false
    let p := s.part (s.partOf l.asid)
    let put (s : State) (i core : Nat) : Option State := s.resumeOn l i core
    if !ok || t.holds then none
    else
      match squad.find? (·.holds) with
      | some u => placeEach put (p.cores.filter fun c => clusterOf c == clusterOf u.core) [tid] s
      | none => placeSquad put p (decide (q ≤ 1)) (sortBy (fun (a b : Nat) => decide (a < b)) (squad.map (·.tid))) s
  | _, _ => none

/-- TEAM_RESUME (R353). -/
def execTeamResume (lid tid : Nat) (s : State) : Host.Outcome State Fault Refusal := fire s (s.resume lid tid)

/-! ## Context switches (R268, R355) -/

/-- Whether everything of a context is out: no crew of it is on a core and no team holds its allocation (R355). -/
def State.contextOut (s : State) (asid : Nat) : Bool :=
  (s.crews.all fun c => c.asid != asid) &&
  s.teams.all fun t => !t.holds || (match s.launch? t.lid with | some l => l.asid != asid | none => true)

/-- Whether a context holds a live crew or a pending launch (R268). -/
def State.runnable (s : State) (asid : Nat) : Bool :=
  (s.crews.any fun c => c.asid == asid) ||
  (s.launches.any fun l => l.asid == asid && (l.phase == .pending)) ||
  s.teams.any fun t => (match t.phase with
    | .saved (_ :: _) _ _ => (match s.launch? t.lid with | some l => l.asid == asid | none => false)
    | _ => false)

/-- A context switch begins, for a runnable context not before it has been resident for 1 ms (R268, R274), or ends once everything is out
(R355, R293): the slots of its fields free, and its fields wait for placement again. -/
def State.switchOut (s : State) (asid : Nat) : Option State :=
  match s.context? asid with
  | none => none
  | some x =>
    if !x.resident || x.stopping then none
    else if !x.switching then
      guarded (!s.runnable asid || decide (1000 < s.sinceSwitch asid))
        (s.modContext asid fun x => { x with switching := true, since := s.micros })
    else
      guarded (s.contextOut asid) <|
        let s := s.modContext asid fun x => { x with resident := false, switching := false, since := s.micros }
        { s with
          launches := s.launches.map fun l =>
            if l.asid == asid && l.isField && l.phase == .placed then { l with phase := .pending, slots := [], events := [] } else l
          tlb := s.tlb.filter (·.asid != asid) }

/-- CONTEXT_SWITCH_OUT (R355). -/
def execContextSwitchOut (asid : Nat) (s : State) : Host.Outcome State Fault Refusal :=
  fire s (s.switchOut asid)

/-- The contexts that a partition keeps resident at once (Table 19.2). -/
def Partition.resn (p : Partition) : Nat :=
  let n := p.psched.toNat % 32
  if n = 0 ∨ 16 < n then 16 else n

/-- The runnable contexts that are resident in a partition. -/
def State.residents (s : State) (n : Nat) : Nat :=
  (s.contexts.filter fun x => x.part == n && x.resident && s.runnable x.asid).length

/-- A runnable context that is out comes back while the partition has room for it (R268). -/
def State.switchIn (s : State) (asid : Nat) : Option State :=
  match s.context? asid with
  | none => none
  | some x =>
    guarded (!x.resident && s.runnable asid && decide (s.residents x.part < (s.part x.part).resn))
      (s.modContext asid fun x => { x with resident := true, since := s.micros })

/-- CONTEXT_SWITCH_IN (R268). -/
def execContextSwitchIn (asid : Nat) (s : State) : Host.Outcome State Fault Refusal :=
  fire s (s.switchIn asid)

end Sys2Proof.Machine
end

