-- ==== Sys2Proof/Machine/MemEvents.lean ====
section
/-! DEFINITION. The events of the memory system: stores on their way to memory, loads that return, the slice adders, the
L1s, the slices and the TLBs (R140 to R152, R187, R205, R309, R334, R335, R342). -/

namespace Sys2Proof.Machine

/-! ## Fills, recalls and probes (R142 to R150) -/

/-- The line that leaves a slice for another to come in, where all 16 ways of its set hold lines and mirrors (R150). -/
def State.victim (s : State) (slice line : Nat) : Option L2Line :=
  pickVictim ((s.setLines slice line).filter fun e => !s.linePending e.line &&
    s.misses.all fun m => !(m.slice == slice && m.line == e.line && m.cls == .general))

/-- Whether the set of a line in a slice is full. -/
def State.setFull (s : State) (slice line : Nat) : Bool :=
  decide (16 ≤ (s.setLines slice line).length + (s.setMirrors slice line).length)

/-- Whether words of a line are dirty in a slice or in an L1. -/
def State.lineDirty (s : State) (e : L2Line) : Bool := e.d != 0 || s.l1.any fun w => w.addr / 64 == e.line && w.st == .ownedDirty

/-- A slice makes room in the set of a line: where it is full, the victim leaves, its owners recalled
through recall entries and its dirty sectors written back, to memory or to their directory home (R148, R150, R315). With no way to
choose it waits. -/
def State.makeRoom (s : State) (slice line : Nat) : Option State :=
  if !s.setFull slice line then some s
  else
    match s.victim slice line with
    | none => none
    | some v =>
      let secs := [0, 1, 2, 3].map (4 * v.line + ·)
      guarded ((secs.all fun sec => !s.recalling sec) && (!s.lineDirty v || s.backOk slice v.line) &&
          decide (s.busyEntries slice .recall + (s.foreign noOwner secs).length ≤ 8))
        (let t := secs.foldl (fun s sec => s.revoke sec) s
         let t := if (t.l2.any fun e => e.slice == slice && e.line == v.line && e.d != 0) then (t.noteWriteBack slice v.line).backSend slice v.line else t
         { t with l2 := t.l2.filter fun e => !(e.slice == slice && e.line == v.line) })

/-- Whether two bays belong to one partition (R147, R154). -/
def State.onePart (s : State) (a b : Nat) : Bool := s.parts.any fun p => p.hasBay a && p.hasBay b

/-- A slice takes a mirror of a line whose home slice is in another sector (of two bays) of the same partition: in one of at
most 4 ways of the set, with a free slot of the line (R147). -/
def State.fillMirror (s : State) (slice line : Nat) : Option State :=
  let home := sliceOf 0 (256 * line)
  if slice < 288 && inDevice (256 * line) && slice / 24 != home / 24 && s.onePart (slice / 12) (home / 12) &&
      decide ((s.setMirrors slice line).length < 4) && (s.setMirrors slice line).all (fun m => m.line != line) then
    match [0, 1, 2, 3].find? fun k => s.mirrors.all fun m => !(m.line == line && m.slot == k) with
    | some k =>
      match s.makeRoom slice line with
      | some t => some { t with mirrors := t.mirrors ++ [⟨slice, line, k⟩] }
      | none => none
    | none => none
  else none

/-- A fill completes (R144, R147, R150): the line of a general miss takes a way of its set, its words that have been written meanwhile
marked, or raises the class of a line that has
come in before; with no miss the slice takes a mirror. -/
def State.fillLine (s : State) (slice line : Nat) : Option State :=
  match s.misses.find? fun m => m.slice == slice && m.cls == .general && m.line == line with
  | none => s.fillMirror slice line
  | some m =>
    let s := { s with misses := s.misses.erase m }
    if s.holdsLine slice line then some (s.raiseClass slice line m.hint)
    else
      match s.makeRoom slice line with
      | none => none
      | some t =>
        let new (e : Nat × Nat) : Bool := e.1 == slice && e.2 / 64 == line
        some (State.bumpId { t with
          l2 := t.l2 ++ [L2Line.written {
            slice := slice, line := line, cls := t.admitClass slice line m.hint, v := 0xF, d := 0, wm := 0
            stamp := t.nextId } ((t.wfill.filter new).map (·.2))]
          wfill := t.wfill.filter fun e => !new e })

/-- LINE_FILL (R150). -/
def execLineFill (slice line : Nat) (s : State) : Host.Outcome State Fault Refusal :=
  fire s (s.fillLine slice line)

/-- The oldest spilled request of a slice enters a free general entry (R149). -/
def State.refill (s : State) (slice : Nat) : Option State :=
  match s.spillq.find? (·.slice == slice) with
  | some m => guarded (decide (s.busyEntries slice .general < 104))
      { s with spillq := s.spillq.erase m, misses := s.misses ++ [m] }
  | none => none

/-- SPILL_QUEUE_REFILL (R149). -/
def execSpillQueueRefill (slice : Nat) (s : State) : Host.Outcome State Fault Refusal := fire s (s.refill slice)

/-- MIRROR_INVALIDATE (R147). -/
def execMirrorInvalidate (line : Nat) (s : State) : Host.Outcome State Fault Refusal :=
  fire s (some (s.dropMirrors line))

/-- The home slice sends a revocation of a sector to the core that owns it, through a recall entry (R144, R148). -/
def State.sendRecall (s : State) (sector : Nat) : Option State :=
  let o := s.ownerOf sector
  let slice := sliceOf o (64 * sector)
  guarded (decide (o < 288) && !s.recalling sector && decide (s.busyEntries slice .recall < 8))
    { s with misses := s.misses ++ [⟨slice, .recall, sector / 4, sector % 4⟩] }

/-- SECTOR_REVOKE (R144). -/
def execSectorRevoke (sector : Nat) (s : State) : Host.Outcome State Fault Refusal :=
  fire s (s.sendRecall sector)

/-- A revoked owner writes back its dirty words, and the recall entry frees; an owner that is not being revoked writes them
back and keeps the sector (R140, R144). -/
def State.writeBack (s : State) (sector : Nat) : State :=
  if s.recalling sector then
    State.revoke { s with misses := s.misses.filter fun m =>
      !(m.cls == .recall && m.line == sector / 4 && m.hint == sector % 4) } sector
  else
    State.giveBack { s with l1 := s.l1.map fun w =>
      if w.addr / 16 == sector && w.st == .ownedDirty then { w with st := .ownedClean } else w } (s.ownerOf sector)
      (s.l1Dirty (s.ownerOf sector) fun w => w / 16 == sector)

/-- OWNER_WRITE_BACK (R144). -/
def execOwnerWriteBack (sector : Nat) (s : State) : Host.Outcome State Fault Refusal :=
  fire s (some (s.writeBack sector))

/-- Whether a load of a core waits for a word that its L1 does not hold; `peer` says that it must allow a probe of a peer, and
its data are to enter the L1 (R142, R151). -/
def State.missing (s : State) (core word : Nat) (peer : Bool) : Bool :=
  (s.l1Word? (s.l1Core core (4 * word)) word).isNone && !s.wordPending core word &&
  s.crews.any fun c => c.core == core && c.loads.any fun q =>
    q.space == .global && !q.reserve && !q.cpol.getLsbD 4 && !(peer && q.cpol.getLsbD 5) &&
    q.lanes.any fun a => a.got.isNone && overlaps (4 * word) 4 a.addr q.size

/-- A read of a registered word that a load waits for is forwarded to the owner (R144): the reader's L1 takes a clean copy of
the latest value. -/
def State.forwardRead (s : State) (core word : Nat) : Option State :=
  guarded (s.missing core word false && decide (s.ownerOf (word / 16) < 288)) (s.l1Fill core [word])

/-- READ_FORWARD (R144). -/
def execReadForward (core word : Nat) (s : State) : Host.Outcome State Fault Refusal :=
  fire s (s.forwardRead core word)

/-- A load miss of a core of an unfused cluster takes clean copies of the words that a peer holds at their latest value
(R142). -/
def State.peerProbe (s : State) (core line : Nat) : Option State :=
  let words := (s.l1.filter fun w => w.core != core && clusterOf w.core == clusterOf core && w.addr / 64 == line &&
    w.data == s.readBytes (4 * w.addr) 4 && s.missing core w.addr true).map (·.addr)
  guarded (!words.isEmpty && !s.fused.contains (clusterOf core)) (s.l1Fill core words)

/-- PEER_L1_PROBE (R142). -/
def execPeerL1Probe (core line : Nat) (s : State) : Host.Outcome State Fault Refusal :=
  fire s (s.peerProbe core line)

/-- A page walk completes (R342): a valid leaf enters the core's TLB, a fault enters nothing. -/
def execPageWalkDone (core asid va : Nat) (s : State) : Host.Outcome State Fault Refusal :=
  fire s (some (s.tlbFill core asid (.ofNat 64 va)))

/-- The tick of a slice (R309): every bucket of a context of its partition takes its RATE up to its CEIL; what overflows
goes, one token each in turn, to the contexts with a request that waits. -/
def sharePool (s : State) (slice : Nat) (waits : List Context) : Nat → Nat → State
  | 0, _ => s
  | fuel + 1, pool =>
    if pool = 0 then s
    else
      match waits.filter fun x => decide (s.tokens slice x.asid < x.l2ceil) with
      | [] => s
      | xs =>
        let r := xs.foldl (fun (r : State × Nat) x =>
          if r.2 = 0 then r else (r.1.setTokens slice x.asid (r.1.tokens slice x.asid + 1), r.2 - 1)) (s, pool)
        sharePool r.1 slice waits fuel r.2

/-- Whether a split's instruction under way waits to reach a slice. -/
def State.splitWaits (s : State) (c : Crew) (p : Split) (slice : Nat) : Bool :=
  match p.waits with
  | some (pa, write) => (if write then sliceOf c.core pa else s.loadSlice c.core pa) == slice
  | none => false

/-- The physical address that a split fetches from, where its core's instruction fetch reads no copy of the code word (R57). -/
def State.fetchPa (s : State) (c : Crew) (p : Split) : Option Nat :=
  match s.translate c.core c.asid p.pc .exec with
  | .ok pa => if s.icache.any fun w => w.lid == c.lid && w.core == c.core && w.addr == pa && !w.off then none else some pa
  | .error _ => none

/-- Whether the fetch of a split waits for a token at a slice (R57, R309). -/
def State.fetchWaits (s : State) (c : Crew) (p : Split) (slice : Nat) : Bool :=
  s.tokens slice c.asid == 0 && match s.fetchPa c p with
    | some pa => s.loadSlice c.core pa == slice
    | none => false

/-- Whether a context has a request that waits at a slice. -/
def State.waitsAt (s : State) (slice asid : Nat) : Bool :=
  (s.regs.any fun q => q.asid == asid && sliceOf q.core (256 * q.line) == slice) ||
  (s.adds.any fun q => q.asid == asid && sliceOf q.core q.addr == slice) ||
  (s.crews.any fun c => c.asid == asid && ((c.splits.any fun p => s.splitWaits c p slice || s.fetchWaits c p slice) ||
    c.loads.any fun q =>
    q.space == .global && q.lanes.any fun a => a.got.isNone && s.loadSlice c.core a.addr == slice)) ||
  s.copies.any fun q => q.asid == asid && q.pieces.any fun x =>
    (x.space == .global && sliceOf q.core x.addr == slice) || (x.sspace == .global && sliceOf q.core x.saddr == slice && q.unread x)

/-- The state after the tick of a slice (R309). -/
def State.l2Tick (s : State) (slice : Nat) : State :=
  let mine := sortBy (fun (a b : Context) => decide (a.asid < b.asid))
    (s.contexts.filter fun x => (s.part x.part).hasBay (slice / 12))
  let pool := mine.foldl (fun n x => n + (s.tokens slice x.asid + x.l2rate - x.l2ceil)) 0
  let t := mine.foldl (fun (t : State) x =>
    t.setTokens slice x.asid (min x.l2ceil (t.tokens slice x.asid + x.l2rate))) s
  sharePool t slice (mine.filter fun x => s.waitsAt slice x.asid) 3000 pool

/-- Counts a bucket tick. -/
def State.noteTick (s : State) (k : Nat) : State := { s with ticks := sset 0 s.ticks k (sget 0 s.ticks k + 1) }

/-- L2_BUCKET_TICK (R309): once in every microsecond. -/
def execL2BucketTick (slice : Nat) (s : State) : Host.Outcome State Fault Refusal :=
  fire s (guarded (decide (slice < 288) && !s.ticked slice) ((s.l2Tick slice).noteTick slice))

/-! ## Stores (R334, R335, R144, R205) -/

/-- The pieces of a scratchpad store of a split: the lane accesses of one block `key` of one team (R212). -/
def storePieces (c : Crew) (q : PStore) (key : LaneStore → Nat) (team : LaneStore → Nat) (off : LaneStore → Nat) :
    List HeldWrite :=
  ((q.lanes.map key).eraseDups).map fun k =>
    let mine := q.lanes.filter fun a => key a == k
    { id := 0, lid := c.lid, team := (mine.head?.map team).getD c.team
      bytes := mine.flatMap fun a => placed (off a) a.data
      bar := none, core := c.core, asid := c.asid, cid := c.cid, sid := q.sid, seq := q.seq, anc := q.anc }

/-- The record of a lane access that faults (R334, Table 21.2); with 64 records in the core's queue it is held (R335). STFAULT is due
from now on, once for its instruction, in every split of which the store is an earlier one (R198, R335, R336, R339). -/
def State.addFault (s : State) (c : Crew) (sid : Nat) (q : PStore) (m : BitVec 32) (a : LaneStore) (r : Reason) :
    State :=
  let full := decide (64 ≤ (s.faultq.filter fun f => f.core == c.core && !f.held).length)
  let t : Trap := ⟨.stfault, 0, a.addr, .ofNat 64 (r.code + 256)⟩
  let s := s.modCrew c.cid fun c => { c with splits := c.splits.map fun (p : Split) =>
    if !(p.follows q.sid q.seq) || (p.due.any fun d => d.1 == q.seq && d.2.cause == .stfault) then p
    else { p with due := p.due ++ [(q.seq, t)] } }
  { s with faultq := s.faultq ++ [{
    core := c.core, cid := c.cid, sid := sid, va := a.addr, data0 := .ofNat 64 (leNat (a.data.take 8))
    data1 := .ofNat 64 (leNat (a.data.drop 8)), seq := q.seq, mask := m, reason := r.code, size := q.size
    lane := a.lane, word := q.word, held := full, lid := c.lid }] }

/-- The lane accesses of a store with what each translates to. -/
def translateStore (s : State) (c : Crew) : List LaneStore → List (LaneStore × Except Reason Nat)
  | [] => []
  | a :: rest => (a, s.translate c.core c.asid a.addr .write) :: translateStore s c rest

/-- Whether a load that precedes an access, not yet returned, reads one of some words of memory. -/
def Crew.olderLoad (c : Crew) (before : Nat → Nat → Bool) (words : List Nat) : Bool :=
  c.loads.any fun q => before q.sid q.seq && q.space == .global &&
    q.lanes.any fun a => a.got.isNone && words.any fun w => overlaps (4 * w) 4 a.addr q.size

/-- Sends store pieces on their way to their home slices (R144, R212). -/
def pushRegs (s : State) (qs : List RegReq) : State :=
  qs.foldl (fun s q => { s with regs := s.regs ++ [{ q with id := s.nextId }] }.bumpId) s

/-- The translated lanes of a global store are sent, one piece for each line, the others recorded (R334, R212). -/
def State.storeGlobal (s : State) (c : Crew) (p : Split) (q : PStore) : State :=
  let ts := translateStore s c q.lanes
  let bad := ts.filterMap fun t => match t.2 with | .error r => some (t.1, r) | .ok _ => none
  let good := ts.filterMap fun t => match t.2 with | .ok pa => some (t.1, pa) | .error _ => none
  let m := if q.uniform then 0 else laneMask (bad.map (·.1.lane))
  let s := good.foldl (fun s g => s.tlbFill c.core c.asid g.1.addr) s
  let s := bad.foldl (fun s b => s.addFault c p.sid q m b.1 b.2) s
  match q.red with
  | some o =>
    pushAdds s (good.map fun g =>
      { id := 0, core := c.core, cid := c.cid, sid := q.sid, asid := c.asid, addr := g.2, op := o, wide := o.wide
        x := .ofNat 64 (leNat g.1.data), cmp := 0, poison := q.bad.contains g.1.lane, ret := none, acq := none, job := none
        hint := q.hint, seq := q.seq, anc := q.anc, rel := q.rel, paid := false })
  | none =>
    let all := good.flatMap fun g => placed g.2 g.1.data
    pushRegs s ((all.map fun b => lineOf b.1).eraseDups.map fun l =>
      { id := 0, core := c.core, cid := c.cid, sid := q.sid, asid := c.asid, line := l
        bytes := all.filter fun b => lineOf b.1 == l
        hint := q.hint, seq := q.seq, anc := q.anc, inL1 := false, rel := q.rel })

/-- Whether an untranslated store of a crew precedes an access (R198). -/
def Crew.storeBefore (c : Crew) (before : Nat → Nat → Bool) : Bool := c.splits.any fun r => r.stores.any fun x => before x.sid x.seq

/-- The first store in the store path of a split leaves it (R334), after the other stores that precede it (R198): it translates
and its lanes are sent or recorded; a squad-window store is checked, and a check that fails is due as a trap at the next boundary. -/
def State.storeTranslate (s : State) (cid sid : Nat) : Option State :=
  match s.crew? cid with
  | none => none
  | some c =>
    match c.split? sid with
    | none => none
    | some p =>
      match p.stores with
      | [] => none
      | q :: rest =>
        let popped := s.modSplit cid sid fun p => { p with stores := rest }
        if c.storeBefore (precedes q.anc q.sid q.seq) then none
        else
        match q.space with
        | .global => some (popped.storeGlobal c p q)
        | .scratch => some (pushHeld popped
            (storePieces c q (fun a => a.addr.toNat / 256) (fun _ => c.team) fun a => a.addr.toNat))
        | .squad =>
          match checkSquad s c p.pc (q.lanes.map fun a => (a.lane, a.addr)) with
          | .error (.trap t) => some (popped.modSplit cid sid fun p => { p with due := p.due ++ [(q.seq, t)] })
          | .error _ => none
          | .ok _ => some (pushHeld popped
              (storePieces c q (fun a => s.squadTeam c a.addr) (fun a => s.squadTeam c a.addr)
                fun a => a.addr.toNat % 0x100000))

/-- STORE_TRANSLATE (R334). -/
def execStoreTranslate (cid sid : Nat) (s : State) : Host.Outcome State Fault Refusal :=
  fire s (s.storeTranslate cid sid)

/-- A held fault enters the record queue of its core (R335). -/
def State.admitFault (s : State) (core : Nat) : Option State :=
  match s.faultq.find? fun f => f.core == core && f.held with
  | some f => guarded (decide ((s.faultq.filter fun f => f.core == core && !f.held).length < 64))
      { s with faultq := s.faultq.map fun g => if g == f then { g with held := false } else g }
  | none => none

/-- FAULT_QUEUE_ADMIT (R335). -/
def execFaultQueueAdmit (core : Nat) (s : State) : Host.Outcome State Fault Refusal := fire s (s.admitFault core)

/-- Whether a piece is performed by its L1 or its home slice only after another access of its crew (R198, R200). -/
def RegReq.after (q : RegReq) (sid seq : Nat) : Bool := precedes q.anc q.sid q.seq sid seq

/-- Whether a store piece may be performed (R163, R166, R187, R200): the accesses to its words that precede it are performed,
no word of it is pending for an engine, and for a release what precedes it is done at its scope. -/
def State.pieceReady (s : State) (q : RegReq) : Bool :=
  let words := wordsOf q.bytes
  (match s.crew? q.cid with | some c => !c.olderLoad q.after words | none => true) &&
  (s.adds.all fun a => !(a.job.isNone && a.cid == q.cid && q.after a.sid a.seq && a.addr / 256 == q.line)) &&
  (s.regs.all fun r => !(r.cid == q.cid && q.after r.sid r.seq && !r.inL1 && r.line == q.line)) &&
  (words.all fun w => !s.wordPending q.core w && !s.wordUnread w) &&
  match q.rel with
  | some sc => s.doneBefore q.core q.asid q.cid q.after q.seq sc
  | none => true

/-- Whether an earlier piece that the same core has performed in its L1 touches a word of a piece: it registers first (R146, R200). -/
def State.pieceBehind (s : State) (q : RegReq) : Bool :=
  (s.regs.takeWhile (· != q)).any fun r => r.ahead q.core && (wordsOf r.bytes).any (wordsOf q.bytes).contains

/-- Whether a command of a core has yet to write, or to add to, a word of a line. -/
def State.engineOnLine (s : State) (core line : Nat) : Bool :=
  (s.copies.any fun k => k.core == core && k.pieces.any fun x => x.space == .global && lineOf x.addr == line) ||
  (s.adds.any fun a => a.job.isSome && a.core == core && a.addr / 256 == line) ||
  s.mats.any fun k => k.core == core && !k.ran && match k.op with
    | .red _ rows => rows.contains (256 * line)
    | _ => false

/-- Whether the home slice holds the registration of a piece that its core has performed in the L1: a word of it is pending for an
engine, or a copy of another core has yet to read it (R187). What a core has performed before a command of its own issued comes before
that command's writes (R205, R206). -/
def State.pieceHeld (s : State) (q : RegReq) : Bool :=
  let others : State := { s with copies := s.copies.filter (·.core != q.core) }
  ((wordsOf q.bytes).any fun w => s.homePending w || others.wordUnread w) && !s.engineOnLine q.core q.line

/-- The L1 performs a store piece before its home slice has registered it (R140, R209): the core's crews see it from now on. Where
the core owns the sectors nothing is left to register (R146). -/
def State.performPiece (s : State) (id : Nat) : Option State :=
  match s.regs.find? (·.id == id) with
  | none => none
  | some q =>
    guarded (!q.inL1 && s.pieceReady q) <|
      let rest := s.regs.erase q
      if s.ownsAll q.core q.bytes && !State.pieceBehind { s with regs := rest ++ [q] } q then
        State.ownerWrite { s with regs := rest } q.core q.bytes
      else { s with regs := rest ++ [{ q with inL1 := true }] }

/-- The home slice grants a store piece (R144), after the pieces of its core that come before it on its words, for a token
(R309) and on a usable route (R320). A piece whose sectors its core owns by then is performed in the L1, with no event at
the home slice (R146). -/
def State.register (s : State) (id : Nat) : Option State :=
  match s.regs.find? (·.id == id) with
  | none => none
  | some q =>
    let slice := sliceOf q.core (256 * q.line)
    let gone := { s with regs := s.regs.erase q }
    let last := if q.inL1 then s else { s with regs := s.regs.erase q ++ [q] }
    if (if q.inL1 then s.pieceHeld q else !s.pieceReady q) || last.pieceBehind q then none
    else if s.ownsAll q.core q.bytes then some (gone.ownerWrite q.core q.bytes)
    else
      guarded (s.mayReach slice q.core q.asid (256 * q.line) true false &&
          s.mayRevoke slice (s.l1Core q.core (256 * q.line)) (wordsOf q.bytes)) <|
        let s := { gone with acks := s.acks ++ [(q.core, q.asid)] }
        (s.reach slice q.core q.asid (256 * q.line) true false q.hint).registerWrite q.core q.line q.bytes

/-- STORE_REGISTRATION (R144). -/
def execStoreRegistration (id : Nat) (s : State) : Host.Outcome State Fault Refusal := fire s (s.register id)

/-- REGISTRATION_ACK (R205). -/
def execRegistrationAck (core asid : Nat) (s : State) : Host.Outcome State Fault Refusal :=
  fire s (guarded (s.acks.contains (core, asid)) { s with acks := s.acks.erase (core, asid) })

/-- The offsets from the first to past the last of some bytes. -/
def spanOf (bs : List (Nat × Byte)) : Nat × Nat :=
  bs.foldl (fun r b => (min r.1 b.1, max r.2 (b.1 + 1))) ((bs.head?.map (·.1)).getD 0, 0)

/-- Whether listed bytes touch a range. -/
def touches (bs : List (Nat × Byte)) (a n : Nat) : Bool := bs.any fun b => decide (a ≤ b.1) && decide (b.1 < a + n)

/-- Whether a scratchpad write waits for an engine (R121, R187): a word of it is pending or engine-read for a command that was
registered before the write issued. -/
def State.heldBack (s : State) (h : HeldWrite) : Bool :=
  let t := { s with
      copies := s.copies.filter fun q => decide (q.seq < h.seq)
      mats := s.mats.filter fun q => decide (q.seq < h.seq) }
  h.bytes.any fun b => t.scratchPending h.lid h.team b.1 1 || t.scratchUnread h.lid h.team b.1 1

/-- Whether an untranslated store of a crew that precedes an access writes to a byte of a list, of team `team`'s scratchpad. -/
def State.storeOn (s : State) (c : Crew) (before : Nat → Nat → Bool) (team : Nat) (bs : List (Nat × Byte)) : Bool :=
  c.splits.any fun r => r.stores.any fun x => before x.sid x.seq && match x.space with
    | .global => false
    | .scratch => team == c.team && x.lanes.any fun a => touches bs a.addr.toNat a.data.length
    | .squad => x.lanes.any fun a => team == s.squadTeam c a.addr && touches bs (a.addr.toNat % 0x100000) a.data.length

/-- Whether a scratchpad write may be performed: what precedes it on its bytes is performed (R200), and no engine holds it
back. -/
def State.heldReady (s : State) (h : HeldWrite) : Bool :=
  let before := precedes h.anc h.sid h.seq
  let meets (bs : List (Nat × Byte)) : Bool := h.bytes.any fun b => bs.any fun x => x.1 == b.1
  (s.held.all fun g => !(g.cid == h.cid && before g.sid g.seq && g.lid == h.lid && g.team == h.team && meets g.bytes)) &&
  (match s.crew? h.cid with
   | some c => !s.storeOn c before h.team h.bytes && c.loads.all fun q => !(before q.sid q.seq && q.space != .global &&
       q.lanes.any fun a => a.got.isNone && a.team == h.team && touches h.bytes a.addr q.size)
   | none => true) &&
  !s.heldBack h

/-- A scratchpad write is performed whole by its bank (R187, R212); a write of a backing word has its effect on the object
(R177, R178). -/
def State.heldPerform (s : State) (id : Nat) : Option State :=
  match s.held.find? (·.id == id) with
  | none => none
  | some h => guarded (s.heldReady h) (State.heldEffect { s with held := s.held.erase h } h)

/-- HELD_WRITE_PERFORM (R187). -/
def execHeldWritePerform (id : Nat) (s : State) : Host.Outcome State Fault Refusal :=
  fire s (s.heldPerform id)

/-! ## The slice adders (R152, R170 to R172, R193, R129) -/

/-- Whether an operation meets the word of another. -/
def AddReq.meets (a b : AddReq) : Bool :=
  overlaps a.addr (if a.wide then 8 else 4) b.addr (if b.wide then 8 else 4)

/-- Whether an operation comes before another at their home slice: of one split, in program order on one line (R145, R149,
R200), and before operation `q` of a split every operation on its words that an engine has registered (R187). -/
def AddReq.before (a q : AddReq) : Bool :=
  match a.job, q.job with
  | some _, none => a.meets q
  | none, none => a.cid == q.cid && a.addr / 256 == q.addr / 256 &&
      (precedes q.anc q.sid q.seq a.sid a.seq || (a.sid == q.sid && a.seq == q.seq && decide (a.id < q.id)))
  | _, _ => false

/-- The words of memory that an operation touches. -/
def AddReq.words (q : AddReq) : List Nat := if q.wide then [q.addr / 4, q.addr / 4 + 1] else [q.addr / 4]

/-- Whether an untranslated store that precedes an access writes one of some words of memory, as its address translates now
(R200). -/
def State.storeAhead (s : State) (c : Crew) (before : Nat → Nat → Bool) (words : List Nat) : Bool :=
  c.splits.any fun r => r.stores.any fun x => x.space == .global && before x.sid x.seq && x.lanes.any fun a =>
    match s.translate c.core c.asid a.addr .write with
    | .ok pa => (accessWords pa x.size).any words.contains
    | .error _ => false

/-- Whether an operation must wait: for earlier operations and for the accesses of its split that precede it on its words, for
writes that its core has seen in the L1 (R200, R206), for an engine's pending words and those that it has yet to read (R187), and for a
release for what precedes it (R170, R172). -/
def State.addBlocked (s : State) (q : AddReq) : Bool :=
  let size := if q.wide then 8 else 4
  let sooner (n : Nat) : Bool := match q.job with | some m => decide (n < m) | none => true
  let s : State := { s with copies := s.copies.filter fun k => sooner k.seq && (k.registered || k.core == q.core) }
  let before := precedes q.anc q.sid q.seq
  (s.adds.any fun a => a.before q) ||
  (s.copies.any fun k => k.pieces.any fun x => x.space == .global && overlaps q.addr size x.addr x.data.length) ||
  (q.words.any s.wordUnread) ||
  (s.regs.any fun r => (wordsOf r.bytes).any q.words.contains && r.ahead q.core && !(r.cid == q.cid && r.after q.sid q.seq)) ||
  (q.job.isNone && (
    (match s.crew? q.cid with
     | some c => c.olderLoad before q.words || s.storeAhead c before q.words
     | none => false) ||
    (s.mats.any fun k => !k.ran && match k.op with
      | .red _ rows => rows.contains (q.addr / 256 * 256)
      | _ => false) ||
    (s.regs.any fun r => (wordsOf r.bytes).any q.words.contains && r.cid == q.cid && before r.sid r.seq) ||
    match q.rel with
    | some sc => !s.doneBefore q.core q.asid q.cid before q.seq sc
    | none => false))

/-- Writes the results of one lane of an atomic to its registers, and to the spill area where they stand there (R29, R170, R171). -/
def State.addReturn (s : State) (q : AddReq) (r : AddRet) (old : DWord) (bad : Bool) : State :=
  let seq := if r.wseq then some (sget 0 s.wseq (lineOf q.addr)) else none
  let xs := q.op.results old q.cmp seq
  State.spillSync (s.modCrew q.cid fun c =>
    let c := (List.zip (List.range xs.length) xs).foldl (fun c e => c.setAbs r.lane (r.dst + e.1) e.2) c
    if bad then { c with vpoison := c.vpoison ++ (List.range xs.length).map fun i => 32 * (r.dst + i) + r.lane } else c) q.cid
    ((List.range xs.length).map (r.dst + ·))

/-- Whether a split that an operation precedes has taken an acquire at device or system scope since: what it reads of the line then is
no older than the operation (R223). -/
def State.acquiredSince (s : State) (q : AddReq) : Bool :=
  match s.crew? q.cid with
  | some c => q.job.isNone && c.splits.any fun p => p.follows q.sid q.seq && decide (q.seq < p.acqAt)
  | none => false

/-- The last value of an atomic has been written: the mark of its instruction is taken (R351). -/
def State.lastReturn (s : State) (q : AddReq) : State :=
  if s.adds.any fun a => a.cid == q.cid && a.sid == q.sid && a.seq == q.seq then s else s.landMark q.cid q.sid q.seq

/-- Whether two operations belong to one request: those of one instruction or command on one line (R212, R309). -/
def AddReq.oneRequest (a q : AddReq) : Bool :=
  a.cid == q.cid && a.sid == q.sid && a.seq == q.seq && a.job == q.job && a.addr / 256 == q.addr / 256

/-- Whether an engine's reductions are registered on a sector and not yet all performed (R129, R193). -/
def State.redsOn (s : State) (sec : Nat) : Bool :=
  (s.adds.any fun a => a.job.isSome && a.addr / 64 == sec) ||
  (s.mats.any fun k => !k.ran && match k.op with | .red _ rows => rows.contains (sec / 4 * 256) | _ => false) ||
  s.copies.any fun k => k.red.isSome && k.pieces.any fun x => x.space == .global && sectorOf x.addr == sec

/-- While an engine's reductions stay registered on a sector, OWNER is 0x3FE (R152, R193). -/
def State.adderOwns (s : State) (sec : Nat) : State :=
  if s.redsOn sec then s.setOwner [sec] 0x3FE else s.dropOwner [sec] 0x3FE

/-- An operation on a line of fabric memory is performed at its directory home: no slice keeps a copy (R315). -/
def State.leaveFabric (s : State) (pa : Nat) : State :=
  if inFabric pa then { s with l2 := s.l2.filter fun e => e.line != lineOf pa } else s

/-- Whether the request of an operation can be sent to its home slice, and by a message to its directory home (R309, R310, R315). -/
def State.mayAdd (s : State) (q : AddReq) : Bool :=
  (s.leaveFabric q.addr).mayReach (sliceOf q.core q.addr) q.core q.asid q.addr true false

/-- One lane of an STC takes effect (R168): its reservation is valid or not, and ends. -/
def State.stcLane (s : State) (q : AddReq) (r : AddRet) : State :=
  match s.crew? q.cid with
  | none => s
  | some c =>
    let bad := s.poisoned q.addr 4
    let ok := !bad && c.resv.any fun e => e.lane == r.lane && e.va == q.cmp
    let t := if ok then
        ((s.homeWrite q.core (placed q.addr (leBytes 4 q.x.toNat))).bumpWseq (lineOf q.addr)).l1Drop fun w =>
          w.core == s.l1Core q.core q.addr && q.words.contains w.addr
      else s
    State.spillSync (t.modCrew q.cid fun c =>
      let c := { c with resv := c.resv.filter (·.lane != r.lane) }
      let c := c.setAbs r.lane r.dst (if ok then 1 else 0)
      if bad then { c with vpoison := c.vpoison ++ [32 * r.dst + r.lane] } else c) q.cid [r.dst]

/-- The lanes of an STC on one line take effect together, in ascending order (R159, R168, R212). -/
def State.stcOp (s : State) (q : AddReq) : Option State :=
  let mine := s.adds.filter (·.oneRequest q)
  let t : State := { s with adds := s.adds.filter fun a => !a.oneRequest q }
  let slice := sliceOf q.core q.addr
  let waits := match s.crew? q.cid with
    | some c => c.loads.any fun r => r.reserve && precedes q.anc q.sid q.seq r.sid r.seq
    | none => false
  guarded (!waits && (mine.all fun a => !t.addBlocked a) && s.mayAdd q &&
      s.mayRevoke slice noOwner (mine.flatMap (·.words)))
    (State.lastReturn (mine.foldl (fun s a => match a.ret with | some r => s.stcLane a r | none => s)
      ((t.leaveFabric q.addr).reach slice q.core q.asid q.addr true false q.hint)) q)

/-- A slice adder performs one operation (R152): it revokes the word's owner, advances WSEQ, returns an atomic's results and takes
the action of an acquire. A poisoned word stays poisoned, and an atomic on it is not performed (Table 21.8; log entry 29). A
compare that fails is a write event too: it clears the reservations on its word (R169, R170; log entry 38). -/
def State.adderOp (s : State) (id : Nat) : Option State :=
  match s.adds.find? (·.id == id) with
  | none => none
  | some q =>
    if q.op == .stc then s.stcOp q else
    let slice := sliceOf q.core q.addr
    guarded (!s.addBlocked q && (q.paid || s.mayAdd q) &&
        s.mayRevoke slice noOwner q.words) <|
      let size := if q.wide then 8 else 4
      let s : State := { s with adds := (s.adds.erase q).map fun (a : AddReq) => if a.oneRequest q then { a with paid := true } else a }
      let s := if q.paid then s else (s.leaveFabric q.addr).reach slice q.core q.asid q.addr true false q.hint
      let s := s.l1Drop fun w => w.core == s.l1Core q.core q.addr && w.st == .clean &&
        (q.words.contains w.addr || (s.acquiredSince q && w.addr / 64 == q.addr / 256))
      let bad := s.poisoned q.addr size
      let old : DWord := .ofNat 64 (s.readNat q.addr size)
      let new := q.op.apply old q.x q.cmp
      let written := ((s.homeWrite q.core (placed q.addr (leBytes size new.toNat))).bumpWseq (lineOf q.addr)).l1Drop fun w =>
        (q.job.isSome || w.core == s.l1Core q.core q.addr) && q.words.contains w.addr
      match q.ret with
      | some r =>
        let t := ((if bad then s else written).addReturn q r old bad).lastReturn q
        (match q.acq with
         | some sc => t.acquireBy q.cid q.sid q.core sc
         | none => t)
      | none =>
        let t := if q.job.isSome then written.adderOwns (q.addr / 64) else written
        if bad || q.poison then t.poison q.addr size else t

/-- SLICE_ADDER_OP (R152). -/
def execSliceAdderOp (id : Nat) (s : State) : Host.Outcome State Fault Refusal := fire s (s.adderOp id)

/-! ## Loads that return (R53, R160, R162, R166, R168) -/

/-- Whether two lane accesses of a load belong to one piece (R212): one line of memory, one block of 256 bytes of scratchpad, one
team's allocation in the squad window. -/
def PLoad.samePiece (q : PLoad) (a b : LaneLoad) : Bool :=
  match q.space with
  | .global => lineOf a.addr == lineOf b.addr
  | .scratch => a.addr / 256 == b.addr / 256
  | .squad => a.team == b.team

/-- Whether one lane of a load may be read as to the accesses that precede it (R187, R200, R223): the split's own stores and
atomics to its words have been performed, as have the atomics on its line before an acquire, older loads of its bytes have
returned, and no word of it is pending for an engine. -/
def State.laneReady (s : State) (c : Crew) (q : PLoad) (a : LaneLoad) : Bool :=
  let words := accessWords a.addr q.size
  let before := precedes q.anc q.sid q.seq
  (c.loads.all fun r => !(before r.sid r.seq && r.space == q.space &&
    r.lanes.any fun b => b.got.isNone && b.team == a.team && overlaps a.addr q.size b.addr r.size)) &&
  match q.space with
  | .global =>
    !s.storeAhead c before words && (words.all fun w => !s.wordPending c.core w) &&
    !(q.reserve && words.any fun w => s.wordAhead c.core w) &&
    (s.adds.all fun r => !(r.job.isNone && r.cid == c.cid && before r.sid r.seq &&
      (r.words.any words.contains || (r.addr / 256 == lineOf a.addr && decide (r.seq < q.after))))) &&
    s.regs.all fun r => !(r.cid == c.cid && before r.sid r.seq && !r.inL1 && (wordsOf r.bytes).any words.contains)
  | _ =>
    !s.storeOn c before a.team ((List.range q.size).map fun i => (a.addr + i, 0)) &&
    !s.scratchPending c.lid a.team a.addr q.size &&
    s.held.all fun h => !(h.cid == c.cid && before h.sid h.seq && h.lid == c.lid && h.team == a.team &&
      touches h.bytes a.addr q.size)

/-- The words that a piece of a load of global memory reads. -/
def pieceWords (q : PLoad) (piece : List LaneLoad) : List Nat := (piece.flatMap fun a => accessWords a.addr q.size).eraseDups

/-- Whether a piece of a load can be read: all its lanes may be, and what its L1 does not serve has a token and a route (R168,
R212, R309, R320). -/
def State.pieceCan (s : State) (c : Crew) (q : PLoad) (piece : List LaneLoad) : Bool :=
  (piece.all fun a => s.laneReady c q a) &&
  (q.space != .global || (!q.reserve && s.l1Hit c.core (pieceWords q piece)) ||
    match piece with
    | a :: _ => s.mayReach (s.loadSlice c.core a.addr) c.core c.asid a.addr false false
    | [] => true)

/-- The pieces of a load that are still to be read, in the order of their first lanes (R212). -/
def PLoad.pieces (q : PLoad) : List (List LaneLoad) :=
  let open' := q.lanes.filter fun a => a.got.isNone
  (open'.filter fun a => (open'.find? (q.samePiece a)) == some a).map fun a => open'.filter (q.samePiece a)

/-- The piece of a load that is read next: the first that can be. -/
def State.nextPiece (s : State) (c : Crew) (q : PLoad) : List LaneLoad :=
  (q.pieces.find? fun piece => s.pieceCan c q piece).getD []

/-- Reads the data of one lane; an LDR reads the latest value, which its reservation guards (R168, R169). -/
def State.readLane (s : State) (c : Crew) (q : PLoad) (clean : Bool) (a : LaneLoad) : List Byte × Bool :=
  match q.space with
  | .global => (s.loadBytes c.core a.addr q.size clean, s.loadPoison c.core a.addr q.size clean)
  | _ => (s.scratchRead c.lid a.team a.addr q.size, s.scratchPoisoned c.lid a.team a.addr q.size)

/-- Writes the data of a complete load to its registers (R161, R165); poisoned data poison the registers. -/
def Crew.finishLoad (c : Crew) (q : PLoad) : Crew :=
  if q.uniform then
    match q.lanes with
    | a :: _ =>
      let d := a.got.getD ([], false)
      let c := c.setU q.dst (.ofNat 64 (leNat d.1))
      if d.2 then { c with spoison := c.spoison ++ [q.dst] } else c
    | [] => c
  else
    q.lanes.foldl (fun c a =>
      let d := a.got.getD ([], false)
      let c := (List.range q.regs).foldl (fun c i =>
        c.setAbs a.lane (q.dst + i) (.ofNat 32 (leNat ((d.1.drop (4 * i)).take 4)))) c
      if d.2 then { c with vpoison := c.vpoison ++ (List.range q.regs).map fun i => 32 * (q.dst + i) + a.lane }
      else c) c

/-- What a piece of a load of global memory does to the caches: where the L1 does not serve it, it reaches its slice, and
copies of its words enter the L1 unless CPOL.L1NA says otherwise (R140, R151). -/
def State.pieceTouch (s : State) (c : Crew) (q : PLoad) (piece : List LaneLoad) : State :=
  match piece with
  | [] => s
  | a :: _ =>
    let words := pieceWords q piece
    if !q.reserve && s.l1Hit c.core words then s
    else
      let t := s.reach (s.loadSlice c.core a.addr) c.core c.asid a.addr false false (q.cpol.truncate 2)
      if q.cpol.getLsbD 4 then t.l1Forget c.core words else t.l1Fill c.core words

/-- POISON of a load whose data hold a poisoned word, while its split has issued nothing since (Table 21.8): the trap of its lowest such
lane, with its source, at the load. -/
def PLoad.poisonTrap (q : PLoad) (c : Crew) : Option Trap :=
  let stands := q.fresh && c.splits.any fun p => p.sid == q.sid && p.pc == q.pc + 4 && p.status == .ready
  if stands then
    (q.lanes.find? fun a => (a.got.map (·.2)).getD false).map fun a =>
      ⟨.poison, q.pc, a.va, .ofNat 64 ((if q.space != .global then 2 else if inFabric a.addr then 4 else 3) + 65536 * a.lane)⟩
  else none

/-- A load completes: its data go to the registers, and to the spill area where they stand there (R29); the younger of two loads that
arrive in one cycle in a uniform register remains (R53); an LDA takes the action of an acquire (R166). A load that raises POISON has no
effect (R346). -/
def State.loadDone (s : State) (c : Crew) (q : PLoad) : State :=
  match q.poisonTrap c with
  | some t => s.modCrew c.cid fun c => Crew.modSplit { c with
        resv := c.resv.filter fun r => !(q.reserve && q.lanes.any fun a => a.lane == r.lane) } q.sid fun p =>
      { p with due := p.due ++ [(q.seq, t)] }
  | none =>
    let t := if q.uniform && s.outrun c.cid q.dst q.seq then s else s.modCrew c.cid fun c => c.finishLoad q
    let t := if q.uniform then t.noteArrival c.cid q.dst q.seq else t.spillSync c.cid ((List.range q.regs).map (q.dst + ·))
    match q.acq with
    | some sc => t.acquireBy c.cid q.sid c.core sc
    | none => t

/-- One piece of a load is read at one moment (R212); the last piece completes the load. An LDR sets the reservations as it reads
(R168). -/
def State.readPiece (s : State) (c : Crew) (q : PLoad) : State :=
  let piece := s.nextPiece c q
  let clean := !q.reserve && s.cleanHit c.core (pieceWords q piece)
  let lanes' := q.lanes.map fun a => if piece.contains a then { a with got := some (s.readLane c q clean a) } else a
  let q' := { q with lanes := lanes' }
  let whole := lanes'.all fun a => a.got.isSome
  let t := if q.space == .global then s.pieceTouch c q piece else s
  let t := t.modCrew c.cid fun c => { c with
    resv := if q.reserve then
        c.resv.filter (fun r => piece.all fun a => a.lane != r.lane) ++ piece.map fun a => ⟨a.lane, a.va, a.addr / 4⟩
      else c.resv
    loads := if whole then c.loads.erase q else c.loads.map fun r => if r == q then q' else r }
  if whole then t.loadDone c q' else t

/-- Data of the oldest load of a split that can go on arrive (R53). -/
def State.arrival (s : State) (cid sid : Nat) : Option State :=
  match s.crew? cid with
  | none => none
  | some c =>
    ((c.loads.filter (·.sid == sid)).find? fun q => !(s.nextPiece c q).isEmpty).map (s.readPiece c)

/-- Data of a load that can go on arrive, in the order that the tape settles (R206, R212). -/
def State.arrivalOf (s : State) (cid sid seq : Nat) : Option State :=
  match s.crew? cid with
  | none => none
  | some c =>
    (c.loads.find? fun q => q.sid == sid && q.seq == seq && !(s.nextPiece c q).isEmpty).map (s.readPiece c)

/-- LOAD_DATA_ARRIVAL (R53). -/
def execLoadDataArrival (cid sid : Nat) (s : State) : Host.Outcome State Fault Refusal := fire s (s.arrival cid sid)

end Sys2Proof.Machine
end

