-- ==== Sys2Proof/Machine/Copies.lean ====
section
/-! DEFINITION. The copy engines: CP.BULK, CP.TILE, CP.GATHER, CP.RED and CP.AT with their checks, their registration at
issue, their dispatch and their completion (R185 to R196). -/

namespace Sys2Proof.Machine

/-! ## Queues that contexts share (R311) -/

/-- Whether a queue of 16 entries of a core admits an entry of a context (R311): `mine` counts the entries of a
context, `total` all of them. -/
def State.admitsEntry (s : State) (core asid total : Nat) (mine : Nat → Nat) : Bool :=
  let others := ((s.crews.filter fun c => c.core == core && c.asid != asid).map (·.asid)).eraseDups
  decide (total < 16) && (decide (mine asid < 4) || decide ((others.map fun d => 4 - mine d).sum < 16 - total))

/-- Whether the copy queue of a core admits a command of a context. -/
def State.copyRoom (s : State) (core asid : Nat) : Bool :=
  let q := s.copies.filter fun k => k.core == core && k.phase == .queued
  s.admitsEntry core asid q.length fun d => (q.filter (·.asid == d)).length

/-! ## Commands as checked at issue (R186, R189 to R194) -/

/-- A copy command after its decoding: byte rows from a source to a destination, each (source, destination, length), with
the operation of a CP.RED, and the POISON that reading its own operands from scratchpad raises last (R331). -/
structure CopyPlan where
  src  : Space
  dst  : Space
  rows : List (DWord × DWord × Nat)
  red  : Option AOp
  bad  : Option Trap

/-- A copy space by its code (Table 9.6). -/
def copySpace : Nat → Option Space
  | 0 => some .global
  | 1 => some .scratch
  | 2 => some .squad
  | _ => none

/-- The lowest reason among those whose condition holds (R125). -/
def lowestReason (rs : List (Bool × Nat)) : Option Nat :=
  (rs.filter (·.1)).foldl (fun m r => match m with | none => some r.2 | some n => some (min n r.2)) none

/-- Raises ENGARG for the lowest reason of an operand, with the address that offends under it (R125; log entry 39). -/
def engCheckAt (p : Split) (operand : Nat) (taddr : Nat → DWord) (rs : List (Bool × Nat)) : Except Stop Unit :=
  match lowestReason rs with
  | some r => .error (.trap (engArg p operand r (taddr r)))
  | none => .ok ()

/-- Raises ENGARG for the lowest reason of an operand whose value is `taddr`, or 0 where it is no address (R125). -/
def engCheck (p : Split) (operand : Nat) (taddr : DWord) (rs : List (Bool × Nat)) : Except Stop Unit :=
  engCheckAt p operand (fun _ => taddr) rs

/-- Whether a scratchpad range leaves the allocation of a crew's team. -/
def State.outside (s : State) (c : Crew) (a : DWord) (n : Nat) : Bool :=
  decide (s.scratchSize c.lid c.team < a.toNat + n)

/-- Whether some row of a scratchpad operand leaves the allocation (reason 3). -/
def State.rowsOutside (s : State) (c : Crew) (sp : Option Space) (rows : List (DWord × Nat)) : Bool :=
  sp == some .scratch && rows.any fun r => s.outside c r.1 r.2

/-- The word addresses of a row. -/
def rowWords (a : DWord) (n : Nat) : List DWord := (List.range (n / 4)).map fun k => a + BitVec.ofNat 64 (4 * k)

/-- Whether a destination word of a reduction translates to a place outside device memory (reason 7). -/
def State.beyondDevice (s : State) (c : Crew) (a : DWord) : Bool :=
  match s.translate c.core c.asid a .write with
  | .ok pa => !inDevice pa
  | .error _ => false

/-- CP.BULK and CP.RED: the checks of S(A), S(B) and S(C) and the plan (R190, R193). -/
def planBulk (s : State) (c : Crew) (p : Split) (isRed : Bool) (x b a : DWord) : Except Stop CopyPlan := do
  let k := x.toNat
  let n := k % 2 ^ 32
  let op := k / 2 ^ 36 % 4
  let dsp := k / 2 ^ 34 % 4
  let ssp := k / 2 ^ 32 % 4
  engCheck p 0 0 [(decide (2 ^ 38 ≤ k), 1), (if isRed then decide (2 ≤ op) else op != 0, 1),
    (n == 0 || n % 4 != 0, 8), (dsp == 3 || ssp == 3 || (isRed && dsp != 0), 9)]
  let foreign := (if isRed then rowWords b n else []).find? (s.beyondDevice c)
  engCheckAt p 1 (fun r => if r = 7 then foreign.getD b else b) [(b.toNat % 4 != 0, 2),
    (s.rowsOutside c (copySpace dsp) [(b, n)], 3), (foreign.isSome, 7)]
  engCheck p 2 a [(a.toNat % 4 != 0, 2), (s.rowsOutside c (copySpace ssp) [(a, n)], 3)]
  pure {
    src := (copySpace ssp).getD .global, dst := (copySpace dsp).getD .global, rows := [(a, b, n)]
    red := if isRed then some (if op = 0 then .addF else .add) else none, bad := none }

/-- CP.TILE (R191). -/
def planTile (s : State) (c : Crew) (p : Split) (x b a : DWord) : Except Stop CopyPlan := do
  let k := x.toNat
  let dsp := k / 4 % 4
  let ssp := k % 4
  let n := 16 * (k / 2 ^ 8 % 2 ^ 12)
  let rows := (List.range (k / 2 ^ 20 % 2 ^ 12 + 1)).map fun i =>
    (a + BitVec.ofNat 64 (16 * (k / 2 ^ 48) * i), b + BitVec.ofNat 64 (16 * (k / 2 ^ 32 % 2 ^ 16) * i), n)
  engCheck p 0 0 [(k / 16 % 16 != 0, 1), (n == 0, 8), (dsp == 3 || ssp == 3, 9)]
  engCheck p 1 b [(b.toNat % 16 != 0, 2), (s.rowsOutside c (copySpace dsp) (rows.map fun r => (r.2.1, n)), 3)]
  engCheck p 2 a [(a.toNat % 16 != 0, 2), (s.rowsOutside c (copySpace ssp) (rows.map fun r => (r.1, n)), 3)]
  pure { src := (copySpace ssp).getD .global, dst := (copySpace dsp).getD .global, rows := rows, red := none, bad := none }

/-- CP.GATHER: the index array is read at issue (R192). TADDR of its ENGARG on S(A) is the array's address for reason 3, and 0 for the
reasons 1, 8 and 9 of the control word, where no address offends (DESIGN CHOICE, log entry 39). -/
def planGather (s : State) (c : Crew) (p : Split) (x b a : DWord) : Except Stop CopyPlan := do
  let k := x.toNat
  let dsp := k / 4 % 4
  let idx := 16 * (k / 2 ^ 32 % 2 ^ 16)
  let count := k / 2 ^ 20 % 2 ^ 12 + 1
  let n := 16 * (k / 2 ^ 8 % 2 ^ 12)
  engCheckAt p 0 (fun r => if r = 3 then .ofNat 64 idx else 0) [(decide (2 ^ 48 ≤ k) || k / 16 % 16 != 0, 1),
    (s.outside c (.ofNat 64 idx) (4 * count), 3), (n == 0, 8), (dsp == 3 || k % 4 != 0, 9)]
  let index (i : Nat) : Nat := leNat (s.scratchRead c.lid c.team (idx + 4 * i) 4)
  let rows := (List.range count).map fun i =>
    (a + BitVec.ofNat 64 (n * index i), b + BitVec.ofNat 64 (n * i), n)
  engCheck p 1 b [(b.toNat % 16 != 0, 2), (s.rowsOutside c (copySpace dsp) (rows.map fun r => (r.2.1, n)), 3)]
  engCheck p 2 a [(a.toNat % 16 != 0, 2)]
  await (!s.scratchPending c.lid c.team idx (4 * count) && s.splitQuiet c p)
  pure {
    src := .global, dst := (copySpace dsp).getD .global, rows := rows, red := none
    bad := if s.scratchPoisoned c.lid c.team idx (4 * count) then some ⟨.poison, p.pc, .ofNat 64 idx, 2⟩ else none }

/-- The plan of a command by its opcode (R190 to R193). -/
def planOf (s : State) (c : Crew) (p : Split) (opc : Nat) (x b a : DWord) : Except Stop CopyPlan :=
  match opc with
  | 0x50 => planTile s c p x b a
  | 0x51 => planBulk s c p false x b a
  | 0x52 => planGather s c p x b a
  | _ => planBulk s c p true x b a

/-- Translates words of an engine command in order; the first that fails raises LDFAULT with ENG and the operand (Table
21.3). -/
def engTranslate (s : State) (c : Crew) (p : Split) (operand : Nat) (nd : Need) :
    List DWord → Except Stop (State × List Nat)
  | [] => .ok (s, [])
  | a :: rest =>
    match s.translate c.core c.asid a nd with
    | .error r => .error (.trap (ldFault p a r 0
        ((if nd == .write then 65536 else 0) + 524288 + 1048576 * operand)))
    | .ok pa =>
      match engTranslate (s.tlbFill c.core c.asid a) c p operand nd rest with
      | .ok (t, ps) => .ok (t, pa :: ps)
      | .error e => .error e

/-- The team and the place of each word of an operand: a global word translates (R186, step 5). -/
def engPlaces (s : State) (c : Crew) (p : Split) (operand : Nat) (nd : Need) (sp : Space) (ws : List DWord) :
    Except Stop (State × List (Nat × Nat)) :=
  match sp with
  | .global =>
    match engTranslate s c p operand nd ws with
    | .ok (t, ps) => .ok (t, ps.map fun pa => (0, pa))
    | .error e => .error e
  | .scratch => .ok (s, ws.map fun a => (c.team, a.toNat))
  | .squad => .ok (s, ws.map fun a => (s.squadTeam c a, a.toNat % 0x100000))

/-- Whether a source word of an engine command is pending for another (R187). -/
def State.sourcePending (s : State) (core lid : Nat) (sp : Space) (e : Nat × Nat) : Bool :=
  match sp with
  | .global => s.wordPending core (e.2 / 4)
  | _ => s.scratchPending lid e.1 e.2 4

/-- A source word with its poison (R187); `clean` says that the core's L1 serves its line. -/
def State.sourceWord (s : State) (core lid : Nat) (sp : Space) (clean : Bool) (e : Nat × Nat) : List Byte × Bool :=
  match sp with
  | .global => (s.loadBytes core e.2 4 clean, s.loadPoison core e.2 4 clean)
  | _ => (s.scratchRead lid e.1 e.2 4, s.scratchPoisoned lid e.1 e.2 4)

/-- Of the words of one command that go to one place the last remains (R191). -/
def lastWrites : List CopyPiece → List CopyPiece
  | [] => []
  | x :: t =>
    if t.any fun y => y.space == x.space && y.team == x.team && y.addr == x.addr then lastWrites t else x :: lastWrites t

/-- The words of a command from their sources to their destinations, as they are read at issue: each source line is read at one moment
(R187, R212), unless a word of it is pending for an earlier command. -/
def State.copyPieces (s : State) (c : Crew) (src dst : Space) (es : List ((Nat × Nat) × (Nat × Nat))) : List CopyPiece :=
  let lines := if src == .global then (es.map fun e => lineOf e.1.2).eraseDups else []
  let words (l : Nat) : List (Nat × Nat) := (es.map (·.1)).filter fun e => lineOf e.2 == l
  let lateLines := lines.filter fun l => (words l).any (s.sourcePending c.core c.lid src)
  let cleanLines := lines.filter fun l => s.cleanHit c.core (((words l).map (·.2 / 4)).eraseDups)
  es.map fun e =>
    let l := lineOf e.1.2
    let d := s.sourceWord c.core c.lid src (cleanLines.contains l) e.1
    { sspace := src, steam := e.1.1, saddr := e.1.2
      late := if src == .global then lateLines.contains l else s.sourcePending c.core c.lid src e.1
      space := dst, team := e.2.1, addr := e.2.2, data := d.1, poison := d.2 }

/-- The completion handle of an engine command (R186, step 4): none names no object. -/
def checkDone (s : State) (c : Crew) (p : Split) (h : DWord) : Except Stop Unit := do
  if h = 0 then pure ()
  else
    let _ ← checkHandle s c.cid p 3 c.core c.lid c.team h
    pure ()

/-- Registers the global destination words of a command (R187, R193): their owners are revoked and no L1 keeps a copy of them;
words of reductions are the adder's (R152). -/
def State.registerWords (s : State) (reds : Bool) (words : List Nat) : State :=
  let secs := (words.map (· / 16)).eraseDups
  let s := (secs.foldl (fun s sec => s.revoke sec) s).l1Drop fun w => words.contains w.addr
  if reds then s.setOwner secs 0x3FE else s

/-- The home slices acknowledge the registration of a copy's destination words (R187, R210), those of one core in the order of
their issue. -/
def State.registerCopy (s : State) (seq : Nat) : Option State :=
  match s.copies.find? (·.seq == seq) with
  | none => none
  | some q =>
    guarded (!q.registered && s.copies.all fun k => k.registered || k.core != q.core || decide (seq ≤ k.seq))
      (State.registerWords { s with copies := s.copies.map fun k => if k.seq == seq then { k with registered := true } else k }
        q.red.isSome ((q.pieces.filter (·.space == .global)).map (·.addr / 4)))

/-- The checks of R186 from the plan on; the command enters the queue or a timed slot, and its registration is on its way (R187). Words
of fabric memory come once their route is usable (`State.landCopy`, R315, R320). Where source and destination are both squad windows
the destination's are checked first (log entry 16). -/
def enterCopy (s : State) (c : Crew) (p : Split) (u : Uses) (plan : CopyPlan) (h : DWord)
    (time : Option DWord) : Res := do
  engCheck p 3 0 [(h.toNat / 0x20000 != 0, 1)]
  let src := plan.rows.flatMap fun r => rowWords r.1 r.2.2
  let dst := plan.rows.flatMap fun r => rowWords r.2.1 r.2.2
  let lanes0 (ws : List DWord) : List (Nat × DWord) := ws.map fun a => (0, a)
  if plan.dst == .squad then checkSquad s c p.pc (lanes0 dst) else pure ()
  if plan.src == .squad then checkSquad s c p.pc (lanes0 src) else pure ()
  checkDone s c p h
  let (s, from') ← engPlaces s c p 2 .read plan.src src
  let (s, to') ← engPlaces s c p 1 .write plan.dst dst
  checkPoison u s c p
  raiseIf plan.bad
  await (s.splitQuiet c p)
  match time with
  | none => await (s.copyRoom c.core c.asid)
  | some _ => await (decide ((s.copies.filter fun k => k.core == c.core &&
      (match k.phase with | .timed _ => true | _ => false)).length < 4))
  let pieces := s.copyPieces c plan.src plan.dst (List.zip from' to')
  let s := State.bumpId { s with copies := s.copies ++ [{
    core := c.core, asid := c.asid, lid := c.lid, team := c.team, cid := c.cid, sid := p.sid, handle := h.toNat % 0x10000
    bytes := 4 * pieces.length, red := plan.red, pieces := lastWrites pieces, read := [], wrote := []
    registered := plan.dst != .global
    phase := (match time with | some t => .timed t | none => .queued), hint := c.shint, seq := s.nextId }] }
  pure ((s.advance c p).takeMark c.cid p.sid id)

/-- A copy command of a given opcode (R190 to R193); a mark (R351). -/
def copyCommand (w : Word) (opc : Nat) (a b cc e : BitVec 6) (s : State) : Host.Outcome State Fault Refusal :=
  issue s fun c p s => do
    let u : Uses := { us := [a.toNat, b.toNat, cc.toNat, e.toNat] }
    checkUses w u true s c p
    let (s, p) ← fenceGate s c p
    let plan ← planOf s c p opc (c.u a.toNat) (c.u b.toNat) (c.u cc.toNat)
    enterCopy s c p u plan (c.u e.toNat) none

/-- CP.TILE (R191). -/
def execCpTile (a b cc e : BitVec 6) (s : State) : Host.Outcome State Fault Refusal :=
  copyCommand (encode (.cpTile a b cc e)) 0x50 a b cc e s

/-- CP.BULK (R190). -/
def execCpBulk (a b cc e : BitVec 6) (s : State) : Host.Outcome State Fault Refusal :=
  copyCommand (encode (.cpBulk a b cc e)) 0x51 a b cc e s

/-- CP.GATHER (R192). -/
def execCpGather (a b cc e : BitVec 6) (s : State) : Host.Outcome State Fault Refusal :=
  copyCommand (encode (.cpGather a b cc e)) 0x52 a b cc e s

/-- CP.RED (R193). -/
def execCpRed (a b cc e : BitVec 6) (s : State) : Host.Outcome State Fault Refusal :=
  copyCommand (encode (.cpRed a b cc e)) 0x53 a b cc e s

/-- CP.AT: a timed copy by the record of Table 9.10 (R194); a mark (R351). -/
def execCpAt (a b e : BitVec 6) (s : State) : Host.Outcome State Fault Refusal :=
  issue s fun c p s => do
    let u : Uses := { us := [a.toNat, b.toNat, e.toNat] }
    checkUses (encode (.cpAt a b e)) u true s c p
    let (s, p) ← fenceGate s c p
    let x := c.u a.toNat
    engCheck p 0 x [(x.toNat % 32 != 0, 2), (s.outside c x 32, 3)]
    await (!s.scratchPending c.lid c.team x.toNat 32 && s.splitQuiet c p)
    let r := s.scratchRead c.lid c.team x.toNat 32
    let word (off : Nat) : DWord := .ofNat 64 (leNat ((r.drop off).take 8))
    let opc := (word 0).toNat
    engCheck p 0 x [(decide (opc < 0x50 ∨ 0x53 < opc), 1)]
    let plan ← planOf s c p opc (word 8) (word 16) (word 24)
    let bad := if s.scratchPoisoned c.lid c.team x.toNat 32 then some ⟨.poison, p.pc, x, 2⟩ else plan.bad
    enterCopy s c p u { plan with bad := bad } (c.u e.toNat) (some (c.u b.toNat))

/-! ## Dispatch and completion (R185, R187, R188, R194) -/

/-- The lowest copy engine of a die that a context's partition holds and no command runs on (R185). -/
def State.freeEngine (s : State) (asid die : Nat) : Option Nat :=
  let mask := sget 0 (s.part (s.partOf asid)).eng die
  (List.range 24).find? fun e => mask.getLsbD e && s.copies.all fun k => k.phase != .running die e

/-- OWNER of the sectors that a copy engine writes (Table 8.1; log entry 28). -/
def engineOwner (die engine : Nat) : Nat := 0x200 + 24 * die + engine

/-- The sectors of the global words of a command. -/
def sectorsOf (xs : List CopyPiece) : List Nat :=
  ((xs.filter (·.space == .global)).map fun x => sectorOf x.addr).eraseDups

/-- Whether the source of a word of a command can be read: no earlier command has yet to write it (R187). -/
def State.sourceReady (s : State) (q : CopyCmd) (x : CopyPiece) : Bool :=
  let t := { s with
    copies := s.copies.filter fun k => decide (k.seq < q.seq)
    mats := s.mats.filter fun k => decide (k.seq < q.seq)
    shreqs := s.shreqs.filter fun k => decide (k.seq < q.seq)
    adds := s.adds.filter fun a => match a.job with | some j => decide (j < q.seq) | none => false }
  !x.late || !t.sourcePending q.core q.lid x.sspace (x.steam, x.saddr)

/-- A word of a command with its source read, where that was still to come. -/
def State.readSource (s : State) (q : CopyCmd) (x : CopyPiece) : CopyPiece :=
  if x.late then
    let d := s.sourceWord q.core q.lid x.sspace false (x.steam, x.saddr)
    { x with late := false, data := d.1, poison := d.2 }
  else x

/-- A registered command starts on a free engine of its die, which owns its destination sectors that no core owns (Table 8.1); the additions
of a CP.RED go to the slice adders. None starts while the device is too hot (R368). -/
def State.startCopy (s : State) (q : CopyCmd) : Option State :=
  match if !s.svc.hot && q.registered && (q.red.isNone || q.pieces.all (s.sourceReady q)) then s.freeEngine q.asid (q.core / 72) else none with
  | none => none
  | some e =>
    let run := { q with phase := .running (q.core / 72) e, pieces := if q.red.isSome then [] else q.pieces }
    let s := { s with copies := s.copies.map fun k => if k.seq == q.seq then run else k }
    match q.red with
    | none => some (s.setOwner ((sectorsOf q.pieces).filter fun sec => s.ownerOf sec == noOwner)
        (engineOwner (q.core / 72) e))
    | some o => some (pushAdds s ((q.pieces.map (s.readSource q)).map fun x =>
        { id := 0, core := q.core, cid := q.seq, sid := 0, asid := q.asid, addr := x.addr, op := o, wide := false
          x := .ofNat 64 (leNat x.data), cmp := 0, poison := x.poison, ret := none, acq := none
          job := some q.seq, hint := q.hint, seq := q.seq, anc := [], rel := none, paid := false }))

/-- The oldest command of a core's queue is dispatched (R185). -/
def State.copyDispatch (s : State) (core : Nat) : Option State :=
  (s.copies.find? fun k => k.core == core && k.phase == .queued).bind s.startCopy

/-- COPY_DISPATCH (R185). -/
def execCopyDispatch (core : Nat) (s : State) : Host.Outcome State Fault Refusal := fire s (s.copyDispatch core)

/-- A timed command is dispatched once FTIME has reached its time (R194). -/
def State.timedDispatch (s : State) (core seq : Nat) : Option State :=
  (s.copies.find? fun k => k.core == core && k.seq == seq && (match k.phase with
    | .timed t => t.ule s.ftime
    | _ => false)).bind s.startCopy

/-- CP_AT_DISPATCH (R194). -/
def execCpAtDispatch (core seq : Nat) (s : State) : Host.Outcome State Fault Refusal :=
  fire s (s.timedDispatch core seq)

/-- Whether a destination word of a command waits for a command that was registered before it: one that has yet to write the word, or to
read it (R121, R187). -/
def State.sooner (s : State) (lid seq : Nat) (x : CopyPiece) : Bool :=
  let t := { s with
    copies := s.copies.filter fun k => decide (k.seq < seq)
    mats := s.mats.filter fun k => decide (k.seq < seq)
    adds := s.adds.filter fun a => match a.job with | some j => decide (j < seq) | none => false }
  if x.space == .global then
    (t.copies.any fun k => k.owes (x.addr / 4)) || t.homePending (x.addr / 4) || t.wordUnread (x.addr / 4)
  else t.scratchPending lid x.team x.addr x.data.length || t.scratchUnread lid x.team x.addr x.data.length

/-- Writes one destination word of a command, with its poison (R187, Table 21.8); no L1 keeps an older copy of it (R206, R210). -/
def State.writePiece (s : State) (core lid : Nat) (x : CopyPiece) : State :=
  if x.space == .global then
    let s := (s.homeWrite core (placed x.addr x.data)).l1Drop fun w => w.addr == x.addr / 4
    if x.poison then s.poison x.addr x.data.length else s
  else
    let s := s.scratchWrite lid x.team x.addr x.data
    if x.poison then s.scratchPoison lid x.team x.addr x.data.length else s

/-- Delivers bytes to the object of a handle of a team, if it names one (R188). -/
def State.deliverTo (s : State) (core lid team handle n : Nat) : State :=
  match s.handleObj core lid team (.ofNat 64 handle) with
  | some b => s.deliver b n
  | none => s

/-- The source line of a word in memory. -/
def CopyPiece.srcLine (x : CopyPiece) : Option Nat := if x.sspace == .global then some (lineOf x.saddr) else none

/-- The words of a command that are read and written together: of one source line and one destination line (R212). -/
def CopyPiece.together (x y : CopyPiece) : Bool :=
  x.srcLine == y.srcLine && (x.space == .global) == (y.space == .global) &&
    (x.space != .global || lineOf x.addr == lineOf y.addr)

/-- A running copy goes on with the words that stand together with one: it spends a token for their source line and reads what it had yet
to read of it, then one for their destination line, whose WSEQ advances once for the command (R145, R187, R309), as it writes them. What
its core has performed in the L1 on them registers first (R205, R206). It waits while the device is too hot (R368). -/
def State.landCopy (s : State) (q : CopyCmd) (x : CopyPiece) : Option State :=
  let line := lineOf x.addr
  let put (k : CopyCmd) (s : State) : State := { s with copies := s.copies.map fun r => if r.seq == q.seq then k else r }
  match x.srcLine.filter fun l => !q.read.contains l with
  | some l =>
    let slice := sliceOf q.core (256 * l)
    let mine (y : CopyPiece) : Bool := y.srcLine == some l
    guarded (!s.svc.hot && s.mayReach slice q.core q.asid (256 * l) false false && q.pieces.all fun y => !mine y || s.sourceReady q y)
      (put { q with read := l :: q.read, pieces := q.pieces.map fun y => if mine y then s.readSource q y else y } (s.reach slice q.core q.asid (256 * l) false false q.hint))
  | none =>
    let group := q.pieces.filter x.together
    let slice := sliceOf q.core x.addr
    let first := x.space == .global && !q.wrote.contains line
    guarded (!s.svc.hot && (!first || s.mayReach slice q.core q.asid x.addr true true) &&
        (group.all fun y => !s.sooner q.lid q.seq y && s.sourceReady q y) &&
        (s.regs.all fun r => !(x.space == .global && r.ahead q.core && (wordsOf r.bytes).any fun w => group.any fun y => y.addr / 4 == w)) &&
        (x.space != .global || s.mayRevoke slice noOwner (group.map (·.addr / 4)))) <|
      let s := put { q with pieces := q.pieces.filter fun y => !x.together y
                            wrote := if first then line :: q.wrote else q.wrote } s
      let s := if first then (s.reach slice q.core q.asid x.addr true true q.hint).bumpWseq line else s
      let s := (group.map (s.readSource q)).foldl (fun s y => s.writePiece q.core q.lid y) s
      match q.phase with
      | .running d e => s.dropOwner (sectorsOf group) (engineOwner d e)
      | _ => s

/-- A running copy goes on with the first of its words that can go on. -/
def State.landNext (s : State) (q : CopyCmd) : Option State := q.pieces.findSome? fun x => s.landCopy q x

/-- Some words of a line of a running copy land (R187, R212). -/
def State.land (s : State) (seq line : Nat) : Option State :=
  match s.copies.find? fun k => k.seq == seq && (match k.phase with | .running _ _ => true | _ => false) with
  | none => none
  | some q => (q.pieces.filter fun x => x.space != .global || lineOf x.addr == line).findSome? fun x => s.landCopy q x

/-- The rest of a running copy lands, as far as it can: at most `fuel` times. -/
def State.landAll (s : State) (seq : Nat) : Nat → State
  | 0 => s
  | fuel + 1 =>
    match s.copies.find? (·.seq == seq) with
    | none => s
    | some q =>
      match s.landNext q with
      | some t => t.landAll seq fuel
      | none => s

/-- A running command has written its words, or performed its additions, and delivers its byte count (R187, R188). -/
def State.copyComplete (s : State) (die engine : Nat) : Option State :=
  match s.copies.find? (·.phase == .running die engine) with
  | none => none
  | some q =>
    let t := s.landAll q.seq (3 * q.pieces.length)
    guarded ((t.copies.all fun k => k.seq != q.seq || k.pieces.isEmpty) && t.adds.all fun a => a.job != some q.seq)
      (State.deliverTo { t with copies := t.copies.filter (·.seq != q.seq) } q.core q.lid q.team q.handle q.bytes)

/-- COPY_COMPLETE (R188). -/
def execCopyComplete (die engine : Nat) (s : State) : Host.Outcome State Fault Refusal :=
  fire s (s.copyComplete die engine)

end Sys2Proof.Machine
end

