-- ==== Sys2Proof/Machine/Shells.lean ====
section
/-! DEFINITION. The Shell Ring: the shell instructions with their checks, the passes at the stations, landing, floating and
cooldown (R226 to R240). -/

namespace Sys2Proof.Machine

/-! ## Shells and stations -/

/-- Whether a shell passes a core's station in this cycle: each station meets every shell once in 576 cycles (R226; log
entry 17). -/
def State.passes (s : State) (core shell : Nat) : Bool :=
  (Config.stationAt core + s.cycle) % 576 == shell % 576

/-- The landing of a shell, if it is off the ring. -/
def State.landing? (s : State) (shell : Nat) : Option Landing := s.landings.find? (·.shell == shell)

/-- Whether the cooldown of a shell has not ended (Table 13.3). -/
def State.isCooling (s : State) (shell : Nat) : Bool := s.cooling.any (·.1 == shell)

/-- The shell's landing while a split holds it: neither lost nor given up by a queued SH.FLOAT. -/
def State.heldBy (s : State) (c : Crew) (p : Split) (shell : Nat) : Option Landing :=
  match s.landing? shell with
  | some h =>
    if h.cid == c.cid && h.sid == p.sid && !h.lost && !s.floatQueued h then some h else none
  | none => none

/-- The queue of a core's station, oldest first (R232). -/
def State.station (s : State) (core : Nat) : List ShReq := s.shreqs.filter (·.core == core)

/-- Whether a core's station admits an operation of a context on a word (R232, R311). -/
def State.stationRoom (s : State) (core asid shell word : Nat) : Bool :=
  let q := s.station core
  s.admitsEntry core asid q.length (fun d => (q.filter (·.asid == d)).length) &&
    decide ((q.filter fun r => r.shell == shell && r.word == word).length < 2)

/-! ## Operations on a word (R230, R231) -/

/-- The new value of an SH.OP (R231), by its code of Table 3.11. -/
def shellNew (op : Nat) (old x y : Word) : Word :=
  match op with
  | 0 => old + x
  | 1 => .ofNat 32 (Fmt.f32.add 32 .rn (readF32 old) (readF32 x)).1
  | 2 => .ofNat 32 (Fmt.f32.minMax 32 false old.toNat x.toNat).1
  | 3 => .ofNat 32 (Fmt.f32.minMax 32 true old.toNat x.toNat).1
  | 4 => if old.slt x then old else x
  | 5 => if old.ult x then old else x
  | 6 => if old.slt x then x else old
  | 7 => if old.ult x then x else old
  | 8 => old &&& x
  | 9 => old ||| x
  | 10 => old ^^^ x
  | 11 => x
  | _ => if old = x then y else old

/-- The value that an operation leaves in its word. -/
def ShOp.next (o : ShOp) (old : Word) : Word :=
  match o with
  | .rmw op x y => shellNew op old x y
  | _ => old

/-- Whether an operation replaces its word whatever it held: its poison goes (R346). -/
def ShOp.replaces (o : ShOp) : Bool :=
  match o with
  | .rmw op _ _ => op == 11
  | _ => false

/-- The poisoned words after an operation on one of them. -/
def ShOp.poisonAfter (o : ShOp) (word : Nat) (bad : List Nat) : List Nat :=
  if o.replaces then bad.filter (· != word) else bad

/-- The value of an operation comes back to S(D), zero-extended (R230, R231), unless that of a younger instruction has come in this
cycle (R53); it is poisoned where the word was. -/
def State.shellReturn (s : State) (cid dst seq : Nat) (x : Word) (bad : Bool) : State :=
  if s.outrun cid dst seq then s
  else
    (s.modCrew cid fun c =>
      let c := c.setU dst (x.zeroExtend 64)
      if bad then { c with spoison := c.spoison ++ [dst] } else c).noteArrival cid dst seq

/-- Writes a payload to 64 bytes of a team's scratchpad, with the poison of its words (R230, Table 21.8). -/
def State.payloadOut (s : State) (lid team off : Nat) (words : List Word) (bad : List Nat) : State :=
  bad.foldl (fun s w => s.scratchPoison lid team (off + 4 * w) 4)
    (s.scratchWrite lid team off (words.flatMap fun w => leBytes 4 w.toNat))

/-- What an operation gives back: the old word, or the payload (R230, R231), to its crew while that lives, also where its split has
ceased (DESIGN CHOICE, log entry 37). -/
def State.shellOut (s : State) (q : ShReq) (payload : List Word) (bad : List Nat) : State :=
  match q.op with
  | .getP off => s.payloadOut q.lid q.team off payload bad
  | _ =>
    if q.op.returns then s.shellReturn q.cid q.dst q.seq (payload.getD q.word 0) (bad.contains q.word) else s

/-- The payload of a shell. -/
def State.payload (s : State) (shell : Nat) : List Word := sgetList 0 s.shells (16 * shell) 16

/-- The poisoned words of a shell's payload. -/
def State.payloadPoison (s : State) (shell : Nat) : List Nat :=
  (List.range 16).filter fun w => s.shpoison.contains (16 * shell + w)

/-- Puts a payload on the ring. -/
def State.setPayload (s : State) (shell : Nat) (words : List Word) (bad : List Nat) : State :=
  { s with shells := ssetList 0 s.shells (16 * shell) words
           shpoison := (s.shpoison.filter (· / 16 != shell)) ++ bad.map (16 * shell + ·) }

/-- An operation takes effect on a shell on the ring (R233): its word is used for this pass, and at an .ACQ operation's effect the
core drops its unowned words. -/
def State.shellPerform (s : State) (q : ShReq) : State :=
  let pay := s.payload q.shell
  let bad := s.payloadPoison q.shell
  let s := { s with shreqs := s.shreqs.filter (·.seq != q.seq), passed := s.passed ++ [(q.core, q.shell, q.word)] }
  let s := s.setPayload q.shell (pay.set q.word (q.op.next (pay.getD q.word 0))) (q.op.poisonAfter q.word bad)
  let s := (s.shellOut q pay bad).landMark q.cid q.sid q.seq
  if q.acq then s.acquireBy q.cid q.sid q.core .dev else s

/-- An operation of the holder takes effect on the working copy as it issues (R235): a second pick of the cycle reads S(D) as it was
(R53). -/
def State.shellPerformHeld (s : State) (q : ShReq) (h : Landing) : State :=
  let s := { s with landings := s.landings.map fun (k : Landing) =>
      if k.shell == h.shell then
        { k with working := h.working.set q.word (q.op.next (h.working.getD q.word 0))
                 badWork := q.op.poisonAfter q.word h.badWork }
      else k }
  let s := { s.shellOut q h.working h.badWork with picks := s.picks }
  if q.acq then s.acquireBy q.cid q.sid q.core .dev else s

/-! ## Eligibility (R233) -/

/-- Whether every memory access of a request's split before it is performed at device scope (R204, R233). -/
def State.shellReleased (s : State) (q : ShReq) : Bool :=
  s.doneBefore q.core q.asid q.cid (precedes q.anc q.sid q.seq) q.seq .dev

/-- Whether a queued operation is eligible (R233): in a cycle after its issue; a .REL operation waits for its split's earlier
accesses and shell operations, and every operation for an earlier .ACQ operation of its split. -/
def State.shellEligible (s : State) (q : ShReq) : Bool :=
  decide (q.cycle < s.cycle) &&
  (s.shreqs.all fun r => !(r.cid == q.cid && precedes q.anc q.sid q.seq r.sid r.seq && (r.acq || q.rel))) &&
  (!q.rel || s.shellReleased q)

/-- The words of a shell on which a station has operated in this cycle (R233). -/
def State.passedWords (s : State) (core shell : Nat) : List Nat :=
  (s.passed.filter fun e => e.1 == core && e.2.1 == shell).map (·.2.2)

/-- Whether a landing at the head of what is queued for its shell can be made but for the pass (R235). -/
def State.landable (s : State) (core shell : Nat) : Bool :=
  (s.landing? shell).isNone && !s.isCooling shell && decide ((s.landings.filter (·.core == core)).length < 2)

/-- The operations that a station performs at one pass, in queue order, at most one a word (R233): `used` are the words used,
`held` the splits of which an operation was left. They end at a landing that this pass makes. A second operation on a word takes effect a
lap later, also in a cooldown (R238; DEDUCED, log entry 46). -/
def State.shellPass (s : State) (core shell : Nat) : List Nat → List (Nat × Nat) → List ShReq → List ShReq
  | _, _, [] => []
  | used, held, q :: rest =>
    let left := State.shellPass s core shell used ((q.cid, q.sid) :: held) rest
    match q.op with
    | .land => if held.isEmpty && s.landable core shell then [] else left
    | .float => left
    | _ =>
      if s.shellEligible q && !used.contains q.word && !held.contains (q.cid, q.sid) then
        q :: State.shellPass s core shell (q.word :: used) held rest
      else left

/-- What a station's queue holds for a shell. -/
def State.queuedFor (s : State) (core shell : Nat) : List ShReq := (s.station core).filter (·.shell == shell)

/-- SHELL_OP_EFFECT: the operations of a station on the shell that passes it, while it is on the ring or in cooldown. The third bullet of
R235 has other parties' operations wait until the cooldown has passed; Table 13.3 and R238 perform them in it. The model follows the
latter (DESIGN CHOICE, log entry 46). -/
def State.shellOpEffect (s : State) (core shell : Nat) : Option State :=
  match s.shellPass core shell (s.passedWords core shell) [] (s.queuedFor core shell) with
  | [] => none
  | qs =>
    if s.passes core shell && (s.landing? shell).isNone then some (qs.foldl (fun s q => s.shellPerform q) s)
    else none

/-- SHELL_LAND_EFFECT: the first operation that the station holds for a passing shell is a landing, and a berth is free
(R235). The landing of a split that has ceased is made as one already lost (DESIGN CHOICE, log entry 37). -/
def State.shellLand (s : State) (core shell : Nat) : Option State :=
  match s.queuedFor core shell with
  | [] => none
  | q :: _ =>
    if q.op == .land && s.passes core shell && s.landable core shell && s.shellEligible q then
      let pay := s.payload shell
      let bad := s.payloadPoison shell
      let live := (s.split? q.cid q.sid).isSome
      some { s with
        shreqs := s.shreqs.filter (·.seq != q.seq)
        landings := s.landings ++ [{
          shell := shell, core := core, cid := q.cid, sid := q.sid, asid := q.asid, original := pay
          working := pay, badOrig := bad, badWork := bad, since := s.cycle, seq := q.seq, lost := !live }] }
    else none

/-- A landed shell returns to the ring with a payload and enters its cooldown (Table 13.3). -/
def State.unland (s : State) (shell : Nat) (words : List Word) (bad : List Nat) : State :=
  let s := s.setPayload shell words bad
  { s with landings := s.landings.filter (·.shell != shell)
           cooling := s.cooling ++ [(shell, s.cycle + 576)] }

/-- The eligible SH.FLOAT of a landing's holder. -/
def State.floatReady (s : State) (h : Landing) : Option ShReq :=
  s.shreqs.find? fun q => q.op == .float && q.shell == h.shell && q.cid == h.cid && q.sid == h.sid &&
    s.shellEligible q

/-- SHELL_FLOAT_EFFECT: an eligible SH.FLOAT meets the hole at the holder's station, at the 14th pass at the latest (R236, Table 13.3). -/
def State.shellFloat (s : State) (shell : Nat) : Option State :=
  match s.landing? shell with
  | none => none
  | some h =>
    match s.floatReady h with
    | none => none
    | some q =>
      if s.passes h.core shell && !h.lost && decide (s.cycle ≤ h.since + 8064) then
        let s := { s with shreqs := s.shreqs.filter (·.seq != q.seq) }
        some (s.unland shell h.working h.badWork)
      else none

/-- SHELL_OVERSTAY: at the 14th pass since the landing with no eligible float, the original floats back and SHOVERSTAY is
due (R237). -/
def State.shellOverstay (s : State) (shell : Nat) : Option State :=
  match s.landing? shell with
  | none => none
  | some h =>
    if s.passes h.core shell && decide (h.since + 8064 ≤ s.cycle) && !h.lost && (s.floatReady h).isNone then
      let base := match s.context? h.asid with | some x => x.shbase | none => 0
      let t : Trap := ⟨.shoverstay, 0, 0, .ofNat 64 (16 * (shell - base))⟩
      let s := { s with shreqs := s.shreqs.filter fun (q : ShReq) =>
          !(q.op == ShOp.float && q.shell == shell && q.cid == h.cid && q.sid == h.sid) }
      some ((s.unland shell h.original h.badOrig).modSplit h.cid h.sid fun p =>
        { p with due := p.due ++ [(h.seq, t)] })
    else none

/-- SHELL_LANDING_LOSS: a lost landing's original floats back at the next pass of the hole at its station (Table 13.3). -/
def State.shellLoss (s : State) (shell : Nat) : Option State :=
  match s.landing? shell with
  | none => none
  | some h =>
    if h.lost && s.passes h.core shell then some (s.unland shell h.original h.badOrig) else none

/-- SHELL_COOLDOWN_END: 576 cycles after the float (Table 13.3). -/
def State.cooldownEnd (s : State) (shell : Nat) : Option State :=
  if s.cooling.any fun e => e.1 == shell && decide (e.2 ≤ s.cycle) then
    some { s with cooling := s.cooling.filter (·.1 != shell) }
  else none

/-- SHELL_OP_EFFECT (R233). -/
def execShellOpEffect (core shell : Nat) (s : State) : Host.Outcome State Fault Refusal :=
  fire s (s.shellOpEffect core shell)

/-- SHELL_LAND_EFFECT (R235). -/
def execShellLandEffect (core shell : Nat) (s : State) : Host.Outcome State Fault Refusal :=
  fire s (s.shellLand core shell)

/-- SHELL_FLOAT_EFFECT (R236). -/
def execShellFloatEffect (shell : Nat) (s : State) : Host.Outcome State Fault Refusal :=
  fire s (s.shellFloat shell)

/-- SHELL_OVERSTAY (R237). -/
def execShellOverstay (shell : Nat) (s : State) : Host.Outcome State Fault Refusal :=
  fire s (s.shellOverstay shell)

/-- SHELL_LANDING_LOSS (R236, R237). -/
def execShellLandingLoss (shell : Nat) (s : State) : Host.Outcome State Fault Refusal :=
  fire s (s.shellLoss shell)

/-- SHELL_COOLDOWN_END (R236). -/
def execShellCooldownEnd (shell : Nat) (s : State) : Host.Outcome State Fault Refusal :=
  fire s (s.cooldownEnd shell)

/-! ## The instructions (R229) -/

/-- Whether a selector has a bit set that must be 0 (Table 13.1): `put` allows WHOLE, `noWord` wants WORD 0. -/
def selectorBad (x : DWord) (put noWord : Bool) : Bool :=
  x.toNat / 0x20000 != 0 || x.toNat / 0x4000 % 4 != 0 || (!put && x.toNat.testBit 16) ||
    (noWord && x.toNat % 16 != 0)

/-- The first checks of a selector: ENGARG, then SHRANGE reason 1; it gives the absolute shell and the word (R228,
R229). -/
def checkSelector (s : State) (c : Crew) (p : Split) (x : DWord) (put noWord : Bool) :
    Except Stop (Nat × Nat) := do
  need (!selectorBad x put noWord) (engArg p 0 1 0)
  let i := x.toNat / 16 % 1024
  match s.context? c.asid with
  | some k =>
    need (decide (i < k.shcount)) ⟨.shrange, p.pc, x, 1⟩
    pure (k.shbase + i, x.toNat % 16)
  | none => throw (.trap ⟨.shrange, p.pc, x, 1⟩)

/-- The checks of a 64-byte scratchpad operand S(B): ENGARG reasons 2 and 3 (R229). -/
def checkPayload (s : State) (c : Crew) (p : Split) (a : DWord) : Except Stop Unit :=
  engCheck p 1 a [(a.toNat % 64 != 0, 2), (s.outside c a 64, 3)]

/-- Whether a release can be made at issue for an operation on a working copy. -/
def State.heldReleased (s : State) (c : Crew) (p : Split) : Bool :=
  s.released c p .dev && s.shreqs.all fun q => !(q.cid == c.cid && p.follows q.sid q.seq)

/-- A shell operation of a split as it issues. -/
def State.shReq (s : State) (c : Crew) (p : Split) (shell word : Nat) (op : ShOp) (e : Sem) (dst : Nat) : ShReq :=
  { core := c.core, cid := c.cid, sid := p.sid, asid := c.asid, lid := c.lid, team := c.team, shell := shell
    word := word, op := op, acq := semAcq e, rel := semRel e, dst := dst, seq := s.nextId, anc := p.anc, cycle := s.cycle }

/-- Issues an SH.GET or SH.OP: on a held shell it acts on the working copy, else it enters the station's queue (R232,
R235). A .REL operation waits for the fence that precedes it (R205) and until earlier stores have translated (R336). -/
def shellIssue (s : State) (c : Crew) (p : Split) (shell word : Nat) (op : ShOp) (e : Sem) (dst : Nat) : Res := do
  let (s, p) ← if semRel e then fenceGate s c p else pure (s, p)
  await (!(semRel e) || s.drainedFor c p)
  await (s.stationRoom c.core c.asid shell word)
  let q := s.shReq c p shell word op e dst
  match s.heldBy c p shell with
  | some h =>
    await (!(semRel e) || s.heldReleased c p)
    pure (s.bumpId.shellPerformHeld q h)
  | none => pure (State.bumpId { s with shreqs := s.shreqs ++ [q] })

/-- SH.GET.W (R230); a mark with .ACQ (R351). A semantic but .ACQ is reserved (Table 3.11). -/
def execShGetW (d a : BitVec 6) (e : Sem) (s : State) : Host.Outcome State Fault Refusal :=
  let w : Word := .ofNat 32 (cat (cat (cat (cat 0xF0 d) a) 0x00#10) e.toField)
  issue s fun c p s => do
    need (!(semRel e)) (illop p w)
    let u : Uses := { us := [a.toNat], ud := [d.toNat] }
    checkUses w u (semAcq e) s c p
    let k ← checkSelector s c p (c.u a.toNat) false false
    checkPoison u s c p
    let t ← shellIssue s c p k.1 k.2 .getW e d.toNat
    let t := t.advance c p
    pure (if semAcq e then t.markFor c.cid p.sid s.nextId else t)

/-- Whether 64 bytes of scratchpad can be read or made pending for a split: none is pending, and what precedes is performed there
(R187, R200). -/
def State.padFree (s : State) (c : Crew) (p : Split) (off : Nat) : Bool :=
  (c.splits.all fun r => r.stores.all fun q => q.space == .global || !p.follows q.sid q.seq) &&
  !s.scratchPending c.lid c.team off 64 && !s.heldOn c.lid c.team off 64

/-- SH.GET.P (R230): the 64 bytes are pending from issue; a mark with .ACQ (R351). -/
def execShGetP (a b : BitVec 6) (e : Sem) (s : State) : Host.Outcome State Fault Refusal :=
  let w : Word := .ofNat 32 (cat (cat (cat (cat (cat 0xF0 0x00#6) a) b) 0x04#4) e.toField)
  issue s fun c p s => do
    need (!(semRel e)) (illop p w)
    let u : Uses := { us := [a.toNat, b.toNat] }
    checkUses w u (semAcq e) s c p
    let k ← checkSelector s c p (c.u a.toNat) false true
    checkPayload s c p (c.u b.toNat)
    checkPoison u s c p
    let off := (c.u b.toNat).toNat
    let (s, p) ← fenceGate s c p
    await (s.padFree c p off)
    await (c.loads.all fun q => !(q.space != .global && p.follows q.sid q.seq))
    await (!s.scratchUnread c.lid c.team off 64)
    let t ← shellIssue s c p k.1 k.2 (.getP off) e 0
    let t := t.advance c p
    pure (if semAcq e then t.markFor c.cid p.sid s.nextId else t)

/-- An SH.OP (R231) by its code; a mark (R351). -/
def shellOp (op : Nat) (d a b : BitVec 6) (e : Sem) (s : State) : Host.Outcome State Fault Refusal :=
  let w : Word := .ofNat 32 (cat (cat (cat (cat (cat 0xF1 d) a) b) (BitVec.ofNat 4 op)) e.toField)
  issue s fun c p s => do
    need (!(op == 12 && b == 63)) (illopnd p w)
    let u : Uses := {
      us := if op == 12 then [a.toNat, b.toNat, b.toNat + 1] else [a.toNat, b.toNat], ud := [d.toNat] }
    checkUses w u true s c p
    let k ← checkSelector s c p (c.u a.toNat) false false
    checkPoison u s c p
    let x : Word := (c.u b.toNat).truncate 32
    let y : Word := if op == 12 then (c.u (b.toNat + 1)).truncate 32 else 0
    let t ← shellIssue s c p k.1 k.2 (.rmw op x y) e d.toNat
    pure ((t.advance c p).markFor c.cid p.sid s.nextId)

/-- SH.OP.ADD (R231). -/
def execShOpAdd (d a b : BitVec 6) (e : Sem) (s : State) : Host.Outcome State Fault Refusal := shellOp 0 d a b e s
/-- SH.OP.ADD.F (R231). -/
def execShOpAddF (d a b : BitVec 6) (e : Sem) (s : State) : Host.Outcome State Fault Refusal := shellOp 1 d a b e s
/-- SH.OP.MIN (R231). -/
def execShOpMin (d a b : BitVec 6) (e : Sem) (s : State) : Host.Outcome State Fault Refusal := shellOp 2 d a b e s
/-- SH.OP.MAX (R231). -/
def execShOpMax (d a b : BitVec 6) (e : Sem) (s : State) : Host.Outcome State Fault Refusal := shellOp 3 d a b e s
/-- SH.OP.MIN.S (R231). -/
def execShOpMinS (d a b : BitVec 6) (e : Sem) (s : State) : Host.Outcome State Fault Refusal := shellOp 4 d a b e s
/-- SH.OP.MIN.U (R231). -/
def execShOpMinU (d a b : BitVec 6) (e : Sem) (s : State) : Host.Outcome State Fault Refusal := shellOp 5 d a b e s
/-- SH.OP.MAX.S (R231). -/
def execShOpMaxS (d a b : BitVec 6) (e : Sem) (s : State) : Host.Outcome State Fault Refusal := shellOp 6 d a b e s
/-- SH.OP.MAX.U (R231). -/
def execShOpMaxU (d a b : BitVec 6) (e : Sem) (s : State) : Host.Outcome State Fault Refusal := shellOp 7 d a b e s
/-- SH.OP.AND (R231). -/
def execShOpAnd (d a b : BitVec 6) (e : Sem) (s : State) : Host.Outcome State Fault Refusal := shellOp 8 d a b e s
/-- SH.OP.OR (R231). -/
def execShOpOr (d a b : BitVec 6) (e : Sem) (s : State) : Host.Outcome State Fault Refusal := shellOp 9 d a b e s
/-- SH.OP.XOR (R231). -/
def execShOpXor (d a b : BitVec 6) (e : Sem) (s : State) : Host.Outcome State Fault Refusal := shellOp 10 d a b e s
/-- SH.OP.SWAP (R231). -/
def execShOpSwap (d a b : BitVec 6) (e : Sem) (s : State) : Host.Outcome State Fault Refusal := shellOp 11 d a b e s
/-- SH.OP.CAS (R231): S(B + 1) is the second operand; B = 63 raises ILLOPND. -/
def execShOpCas (d a b : BitVec 6) (e : Sem) (s : State) : Host.Outcome State Fault Refusal := shellOp 12 d a b e s

/-- SH.LAND (R235): queued; the split goes on once the landing has taken effect; a mark (R351). -/
def execShLand (a : BitVec 6) (s : State) : Host.Outcome State Fault Refusal :=
  let w : Word := .ofNat 32 (cat (cat (cat 0xF2 0x00#6) a) 0x00#12)
  issue s fun c p s => do
    let u : Uses := { us := [a.toNat] }
    checkUses w u true s c p
    let x := c.u a.toNat
    let k ← checkSelector s c p x false true
    need (s.heldBy c p k.1).isNone ⟨.shrange, p.pc, x, 3⟩
    checkPoison u s c p
    await (s.stationRoom c.core c.asid k.1 0)
    let t := State.bumpId { s with shreqs := s.shreqs ++ [s.shReq c p k.1 0 .land .relaxed 0] }
    pure ((t.advance c p).takeMark c.cid p.sid id)

/-- The words of 64 bytes of a team's scratchpad. -/
def State.scratchWords (s : State) (lid tid a : Nat) : List Word :=
  (List.range 16).map fun i => .ofNat 32 (leNat (s.scratchRead lid tid (a + 4 * i) 4))

/-- SH.PUT (R235): writes a word or, with WHOLE, the whole working copy of a shell that the split holds. -/
def execShPut (a b : BitVec 6) (s : State) : Host.Outcome State Fault Refusal :=
  let w : Word := .ofNat 32 (cat (cat (cat (cat 0xF3 0x00#6) a) b) 0x00#6)
  issue s fun c p s => do
    let u : Uses := { us := [a.toNat, b.toNat] }
    checkUses w u false s c p
    let x := c.u a.toNat
    let whole := x.toNat.testBit 16
    let k ← checkSelector s c p x true whole
    match s.heldBy c p k.1 with
    | none => throw (.trap ⟨.shrange, p.pc, x, 2⟩)
    | some h =>
      let put (s : State) (working : List Word) (bad : List Nat) : State :=
        { s with landings := s.landings.map fun q =>
            if q.shell == h.shell then { q with working := working, badWork := bad } else q }
      if whole then
        let y := c.u b.toNat
        let off := y.toNat
        checkPayload s c p y
        await (s.stationRoom c.core c.asid k.1 k.2)
        await (s.padFree c p off)
        checkPoison u s c p
        need (!s.scratchPoisoned c.lid c.team off 64) ⟨.poison, p.pc, y, 2⟩
        let (s, p) ← fenceGate s c p
        pure ((put s (s.scratchWords c.lid c.team off) []).advance c p)
      else
        checkPoison u s c p
        await (s.stationRoom c.core c.asid k.1 k.2)
        pure ((put s (h.working.set k.2 ((c.u b.toNat).truncate 32)) (h.badWork.filter (· != k.2))).advance c p)

/-- SH.FLOAT (R236): posted; a mark (R351). A semantic but .REL is reserved (Table 3.11). -/
def execShFloat (a : BitVec 6) (e : Sem) (s : State) : Host.Outcome State Fault Refusal :=
  let w : Word := .ofNat 32 (cat (cat (cat (cat 0xF4 0x00#6) a) 0x00#10) e.toField)
  issue s fun c p s => do
    need (!(semAcq e)) (illop p w)
    let u : Uses := { us := [a.toNat] }
    checkUses w u true s c p
    let x := c.u a.toNat
    let k ← checkSelector s c p x false true
    need (s.heldBy c p k.1).isSome ⟨.shrange, p.pc, x, 2⟩
    checkPoison u s c p
    let (s, p) ← if semRel e then fenceGate s c p else pure (s, p)
    await (!(semRel e) || s.drainedFor c p)
    await (s.stationRoom c.core c.asid k.1 0)
    let t := State.bumpId { s with shreqs := s.shreqs ++ [s.shReq c p k.1 0 .float e 0] }
    pure ((t.advance c p).takeMark c.cid p.sid id)

end Sys2Proof.Machine
end

