-- ==== Sys2Proof/Machine/Manage.lean ====
section
/-! DEFINITION. Partitions, bays and contexts: PCTL, ENG0 to ENG3, scrubs, START and STOP (R302 to R308), and the shootdown of
translations (R344). -/

namespace Sys2Proof.Machine

/-- A write to a register of the management window: until BOOTOK is set the region admits nothing (R370). -/
def State.managed (s : State) (o : Option State) : Option State := if s.svc.bootok then o else none

/-! ## Partitions and bays (R302 to R306) -/

/-- The bays of a partition's shape. -/
def baysOf (size base : Nat) : List Nat := (List.range (shapeBays size)).map (base + ·)

/-- The bays that a partition holds. -/
def Partition.bays (p : Partition) : List Nat := baysOf p.size p.base

/-- BAYGEN of a bay. -/
def State.bay (s : State) (b : Nat) : Bay := s.bays.getD b Bay.reset

/-- Changes BAYGEN of a bay. -/
def State.modBay (s : State) (b : Nat) (f : Bay → Bay) : State := { s with bays := s.bays.modify b f }

/-- The outcome of a write to PCTL, ENG0 to ENG3 or CTXCMD: BUSY clears and RESULT is set (R304). -/
def State.setResult (s : State) (n : Nat) (code : Nat) : State :=
  s.modPart n fun p => { p with busy := false, result := .ofNat 8 code }

/-- The other enabled partitions. -/
def State.otherParts (s : State) (n : Nat) : List Partition :=
  ((List.zip (List.range s.parts.length) s.parts).filter fun e => e.1 != n && e.2.en).map (·.2)

/-- Whether the engine masks of a partition overlap another enabled partition's, or a die that some bays span holds no
engine (code 5, Table 19.4). -/
def State.engBad (s : State) (n : Nat) (eng : SMap (BitVec 24)) (bays : List Nat) : Bool :=
  ((s.otherParts n).any fun q => (List.range 4).any fun d => sget 0 q.eng d &&& sget 0 eng d != 0) ||
  bays.any fun b => sget 0 eng (b / 6) == 0

/-- RESULT of a PCTL write that is to enable a shape (Table 19.4). -/
def State.enableCode (s : State) (n size base : Nat) : Nat :=
  let bays := baysOf size base
  if (s.otherParts n).any fun q => bays.any q.bays.contains then 2
  else if bays.any fun b => (s.bay b).retired then 3
  else if s.engBad n (s.part n).eng bays then 5
  else 0

/-- The generation of a bay advances (R306): no item that was stored in it under an older generation is read any more
(R305): its memory reads as zero, and its slices and L1s hold no line, of the device or of the fabric. At 15 bumps a scrub starts. -/
def State.bumpBay (s : State) (b : Nat) : State :=
  let mine (pa : Nat) : Bool := inDevice pa && bayOf pa == b
  let ours (core : Nat) : Bool := bayOfCore core == b
  let s := s.modBay b fun g => { g with
    gen := g.gen + 1, bumps := g.bumps + 1, scrub := g.scrub || g.bumps + 1 == 15 }
  { s with
    mem := sdrop mine s.mem
    mpoison := s.mpoison.filter fun w => !mine (4 * w)
    wseq := sdrop (fun l => mine (256 * l)) s.wseq
    owner := s.owner.filter fun e => !(mine (64 * e.1) || (e.2 < 288 && ours e.2))
    l1 := s.l1.filter fun w => !(ours w.core || mine (4 * w.addr))
    l2 := s.l2.filter fun l => !(l.slice / 12 == b || mine (256 * l.line))
    mirrors := s.mirrors.filter fun m => !(m.slice / 12 == b || mine (256 * m.line))
    icache := s.icache.filter fun w => !(ours w.core || mine w.addr)
    fab := { s.fab with holders := s.fab.holders.filter fun l => !mine (256 * l.1) } }

/-- A cleared EN takes effect: every bay of the partition advances, and a bay with a fenced core is retired (R306,
R372). -/
def State.disable (s : State) (n : Nat) : State :=
  let bays := (s.part n).bays
  let s := bays.foldl (fun s b =>
    let s := s.bumpBay b
    if s.svc.fenced.any fun c => bayOfCore c == b then s.modBay b fun g => { g with retired := true } else s) s
  (s.modPart n fun p => { p with en := false, pendOff := false }).setResult n 0

/-- Whether a scrub of a partition's bays runs. -/
def State.scrubbing (s : State) (n : Nat) : Bool := (s.part n).bays.any fun b => (s.bay b).scrub

/-- A write to PCTL (R304). SIZE and BASE change only while EN is 0. -/
def State.pctl (s : State) (n : Nat) (v : Word) : Option State :=
  let p := s.part n
  let en := v.getLsbD 31
  let size := v.toNat / 256 % 8
  let base := v.toNat % 32
  if 24 ≤ n || p.busy then none
  else if v.toNat / 2048 % 2 ^ 20 != 0 || v.toNat / 32 % 8 != 0 || 5 ≤ size || base % shapeBays size != 0 ||
      24 < base + shapeBays size then some (s.setResult n 1)
  else if p.en then
    if en then some (s.setResult n 0)
    else if s.contexts.any (·.part == n) then some (s.setResult n 4)
    else if s.scrubbing n then some (s.modPart n fun p => { p with busy := true, pendOff := true })
    else some (s.disable n)
  else
    match if en then s.enableCode n size base else 0 with
    | 0 => some ((s.modPart n fun p => { p with en := en, size := size, base := base }).setResult n 0)
    | code => some (s.setResult n code)

/-- PCTL_WRITE (R304). -/
def execPctlWrite (part : Nat) (value : Word) (s : State) : Host.Outcome State Fault Refusal :=
  fire s (s.managed (s.pctl part value))

/-- A write to ENG0 to ENG3 (R304): checked as PCTL while EN is 1, with its outcome in RESULT. -/
def State.engMask (s : State) (n die : Nat) (v : Word) : Option State :=
  let p := s.part n
  let eng := sset 0 p.eng die (v.truncate 24)
  if 24 ≤ n || 4 ≤ die || p.busy then none
  else if !p.en then some (s.modPart n fun p => { p with eng := eng })
  else if v.toNat / 2 ^ 24 != 0 then some (s.setResult n 1)
  else if s.engBad n eng p.bays then some (s.setResult n 5)
  else some ((s.modPart n fun p => { p with eng := eng }).setResult n 0)

/-- ENG_MASK_WRITE (R304). -/
def execEngMaskWrite (part die : Nat) (value : Word) (s : State) : Host.Outcome State Fault Refusal :=
  fire s (s.managed (s.engMask part die value))

/-- A scrub of a bay completes (R306): BUMPS is 0, and a clear of EN that waited for it takes effect. -/
def State.scrubDone (s : State) (b : Nat) : Option State :=
  guarded (s.bay b).scrub <|
    let s := s.modBay b fun g => { g with bumps := 0, scrub := false }
    (List.range 24).foldl (fun s n => if (s.part n).pendOff && !s.scrubbing n then s.disable n else s) s

/-- SCRUB_COMPLETE (R306). -/
def execScrubComplete (bay : Nat) (s : State) : Host.Outcome State Fault Refusal := fire s (s.scrubDone bay)

/-! ## Contexts (R307, R308) -/

/-- The numbers of a context table entry and its descriptor address (Table 19.5). -/
structure CtxEntry where
  desc    : Nat
  shbase  : Nat
  shcount : Nat
  seats   : Nat
  ceil    : Nat
  rate    : Nat
  zeros   : Bool

/-- The context table entry of an ASID (Table 19.5). -/
def State.ctxEntry (s : State) (n asid : Nat) : CtxEntry :=
  let a := (s.part n).ctxtab.toNat + 64 * asid
  let sh := s.readNat (a + 8) 4
  { desc := s.readNat a 8, shbase := sh % 1024, shcount := sh / 2 ^ 16 % 1024, seats := s.readNat (a + 12) 4
    ceil := s.readNat (a + 18) 2, rate := s.readNat (a + 16) 2
    zeros := sh / 1024 % 64 == 0 && sh / 2 ^ 26 == 0 && s.readNat (a + 20) 44 == 0 }

/-- Whether a table entry keeps to Table 19.5 and can be read in the partition's own bays. -/
def State.ctxEntryOk (s : State) (n asid : Nat) : Bool :=
  let p := s.part n
  let a := p.ctxtab.toNat + 64 * asid
  let e := s.ctxEntry n asid
  inDevice a && p.hasBay (bayOf a) && p.ctxtab.toNat % 64 == 0 && e.zeros && e.desc % 128 == 0 &&
    decide (e.rate ≤ e.ceil)

/-- RESULT of START, its checks in order (R308, Table 19.4). -/
def State.startCode (s : State) (n asid : Nat) : Nat :=
  let e := s.ctxEntry n asid
  let rates := ((s.contexts.filter (·.part == n)).map (·.l2rate)).sum
  if (s.context? asid).isSome then 6
  else if !s.ctxEntryOk n asid then 8
  else if 576 < e.shbase + e.shcount ||
      s.contexts.any (fun x => e.shcount != 0 && x.shcount != 0 && overlaps x.shbase x.shcount e.shbase e.shcount) then 7
  else if 3000 < rates + e.rate then 9
  else 0

/-- The record of grid 0 (R70, Table 4.5): one crew of one team, NEST 0, priority 3, a squad of 1. -/
def State.steerRecord (s : State) (d : Nat) : LRec :=
  { kind := 0, notify := false, prio := 3, hold := false, fuseL1 := false, cores := false, teams := 1
    entry := .ofNat 64 (s.readNat d 8), args := .ofNat 64 (s.readNat (d + 0x10) 8)
    spillBase := .ofNat 64 (s.readNat (d + 0x18) 8), spillSz := s.readNat (d + 0x20) 8
    frame := s.readNat (d + 0x2A) 2, squad := 1, crews := 1, scratch := s.readNat (d + 0x2C) 4, shells := 0
    done := none, xext := 0, yext := 0, pub := 0, bx := 0, bY := 0, seatq := 0, backing := 0, edgex := 0, edgey := 0
    dgx := 0, dgy := 0, devmap := 0 }

/-- The slices of a partition. -/
def Partition.slices (p : Partition) : List Nat := p.bays.flatMap fun b => (List.range 12).map (12 * b + ·)

/-- The shells of a run are zero and on the ring (R227). -/
def State.clearShells (s : State) (base count : Nat) : State :=
  let mine (k : Nat) : Bool := decide (base ≤ k) && decide (k < base + count)
  { s with
    shells := sdrop (fun k => mine (k / 16)) s.shells
    shpoison := s.shpoison.filter fun k => !mine (k / 16)
    landings := s.landings.filter fun h => !mine h.shell
    cooling := s.cooling.filter fun e => !mine e.1 }

/-- START (R308): the shell run is zeroed, the context becomes live and grid 0 is created from the descriptor. Its L2
buckets start full. The context's ASID is START's; the ASID field of the descriptor's IRQCTL is not read (DESIGN CHOICE, log entry
47). -/
def State.startContext (s : State) (n asid : Nat) : State :=
  let e := s.ctxEntry n asid
  let d := e.desc
  let s := s.clearShells e.shbase e.shcount
  let x : Context := {
    asid := asid, part := n, trapent := .ofNat 64 (s.readNat (d + 8) 8), irqaddr := .ofNat 64 (s.readNat (d + 0x30) 8)
    irqkey := .ofNat 16 (s.readNat (d + 0x38) 2), rarrive := .ofNat 64 (s.readNat (d + 0x40) 8), shbase := e.shbase
    shcount := e.shcount, seats := e.seats, l2rate := e.rate, l2ceil := e.ceil, nextGid := 1
    resident := decide (s.residents n < (s.part n).resn), switching := false, stopping := false, since := s.micros }
  let l : Launch := {
    lid := s.nextId, asid := asid, gid := 0, nest := 0, record := s.steerRecord d, status := none, parent := none
    ptid := 0, phase := .pending, nextTeam := 0, retired := 0, dx := 0, dy := 0, peers := [], cut := false, slots := [], events := []
    mute := false, told := [] }
  let s := State.bumpId { s with contexts := s.contexts ++ [x], launches := s.launches ++ [l] }
  let fresh := s.contexts.all fun y => y.part != n || y.asid == asid
  (s.part n).slices.foldl (fun s k =>
    State.setTokens (if fresh then { s with ticks := sset 0 s.ticks k s.micros } else s) k asid e.ceil) s

/-- A write of START to CTXCMD (R304, R308). -/
def State.ctxStart (s : State) (n asid : Nat) : Option State :=
  if 24 ≤ n || (s.part n).busy then none
  else if 65536 ≤ asid then some (s.setResult n 1)
  else
    match s.startCode n asid with
    | 0 => some ((s.startContext n asid).setResult n 0)
    | code => some (s.setResult n code)

/-- CTX_START (R308). -/
def execCtxStart (part asid : Nat) (s : State) : Host.Outcome State Fault Refusal := fire s (s.managed (s.ctxStart part asid))

/-- Whether a field has been placed, be it switched out by now. -/
def Launch.begun (l : Launch) : Bool := l.isField && l.nextTeam != 0 && l.phase != .draining

/-- What STOP discards of a launch of the context: it is held, or waits for its placement (R308). -/
def Launch.discarded (l : Launch) : Bool :=
  match l.phase with
  | .held _ => true
  | .pending => !l.begun
  | .placed => false
  | .draining => false

/-- A field that has begun ends: the cells of its seats that are not resident exit too (R308; DEDUCED, log entry 19). -/
def State.endField (s : State) (l : Launch) : State :=
  if l.begun then
    State.modLaunch { s with seats := s.seats.map fun (t : Seat) => if t.lid == l.lid then { t with exited := 0xF } else t } l.lid
      fun l => { l with phase := .draining, slots := [], events := [] }
  else s

/-- A pre-empted team whose crews STOP retires; one whose crews had all retired counts already. -/
def State.retireSaved (s : State) (t : Team) : State :=
  match t.phase, s.launch? t.lid with
  | .saved [] _ _, some l => (s.modTeam t.lid t.tid fun t => { t with phase := .retiredKept }).freeKept l
  | .saved _ _ _, some l =>
    let s := s.modTeam t.lid t.tid fun t => { t with phase := .retiredKept, crewsLeft := 0 }
    let s := s.modLaunch t.lid fun l => { l with
      retired := l.retired + 1, phase := if l.record.teams ≤ l.retired + 1 then .draining else l.phase }
    s.freeKept l
  | _, _ => s

/-- STOP begins (R308): every crew retires as by TERM, fields end, pending and held launches are discarded. -/
def State.stopBegin (s : State) (asid : Nat) : State :=
  let s := s.modContext asid fun x => { x with switching := true, stopping := true }
  let s := (s.crews.filter (·.asid == asid)).foldl (fun s c => s.termCrew c.cid) s
  let gone := (s.launches.filter fun l => l.asid == asid && l.discarded).map (·.lid)
  let mine := (s.launches.filter (·.asid == asid)).map (·.lid)
  let s := (s.teams.filter fun t => mine.contains t.lid && !gone.contains t.lid).foldl
    (fun s t => s.retireSaved t) s
  let s := (s.launches.filter (·.asid == asid)).foldl (fun s l => s.endField l) s
  { s with
    launches := s.launches.filter fun l => !gone.contains l.lid
    seats := s.seats.filter fun t => !gone.contains t.lid
    remote := s.remote.filter fun t => !gone.contains t.lid }

/-- Whether everything that STOP waits for is over: the context's launches have retired, its accesses and engine commands are
performed and its shells are back on the ring. -/
def State.stopReady (s : State) (asid : Nat) : Bool :=
  (s.crews.all (·.asid != asid)) && (s.launches.all (·.asid != asid)) && (s.copies.all (·.asid != asid)) &&
  (s.mats.all (·.asid != asid)) && (s.regs.all (·.asid != asid)) && (s.adds.all (·.asid != asid)) &&
  (s.held.all (·.asid != asid)) && (s.shreqs.all (·.asid != asid)) && (s.landings.all (·.asid != asid)) &&
  s.acks.all (·.2 != asid)

/-- STOP ends (R308): the shell run, the translations and the buckets are released and the ASID is free. -/
def State.stopEnd (s : State) (n asid : Nat) : State :=
  let live (lid : Nat) : Bool := s.launches.any (·.lid == lid)
  let dead := s.teams.filter fun t => !live t.lid
  let s := dead.foldl (fun s t => s.freeTeamBars t.lid t.tid) s
  State.setResult { s with
    contexts := s.contexts.filter (·.asid != asid)
    teams := s.teams.filter fun t => live t.lid
    tiles := s.tiles.filter (·.asid != asid)
    tlb := s.tlb.filter (·.asid != asid)
    levels := sdrop (fun k => k % 65536 == asid) s.levels } n 0

/-- A write of STOP to CTXCMD, or the end of the STOP that runs (R304, R308). -/
def State.ctxStop (s : State) (n asid : Nat) : Option State :=
  if 24 ≤ n then none
  else
    match s.context? asid with
    | some x =>
      if x.part == n && x.stopping then guarded (s.stopReady asid) (s.stopEnd n asid)
      else if (s.part n).busy || !s.svc.bootok then none
      else if x.part == n then some ((s.stopBegin asid).modPart n fun p => { p with busy := true })
      else some (s.setResult n 6)
    | none => if (s.part n).busy || !s.svc.bootok then none else some (s.setResult n 6)

/-- CTX_STOP (R308). -/
def execCtxStop (part asid : Nat) (s : State) : Host.Outcome State Fault Refusal := fire s (s.ctxStop part asid)

/-- A write to CTXCMD (Table 19.2): a reserved OP or bit gives RESULT 1. -/
def State.ctxcmd (s : State) (n : Nat) (v : Word) : Option State :=
  if 24 ≤ n || (s.part n).busy then none
  else
    match v.toNat / 2 ^ 16 with
    | 1 => s.ctxStart n (v.toNat % 65536)
    | 2 => s.ctxStop n (v.toNat % 65536)
    | _ => some (s.setResult n 1)

/-! ## Shootdowns (R344) -/

/-- The outcome of a shootdown that does not start. -/
def State.setSdResult (s : State) (n code : Nat) : State :=
  s.modPart n fun p => { p with sdbusy := false, sdres := code }

/-- A write to SDCMD (R344): reserved bits or SIZE give RESULT 1, an ASID that is not live in the partition RESULT 2;
otherwise BUSY is set and the matching TLB entries of the partition's cores are removed. -/
def State.shootdown (s : State) (n asid : Nat) (all : Bool) (size : Nat) : Option State :=
  let p := s.part n
  if 24 ≤ n || p.sdbusy then none
  else if 65536 ≤ asid || 3 ≤ size then some (s.setSdResult n 1)
  else if s.partOf asid != n then some (s.setSdResult n 2)
  else
    let bits := if size = 0 then 16 else if size = 1 then 21 else 30
    let page := p.sdaddr.toNat / 2 ^ bits * 2 ^ bits
    let hit (e : TlbEntry) : Bool := e.asid == asid && p.cores.contains e.core &&
      (all || overlaps e.page (2 ^ e.bits) page (2 ^ bits))
    let s := { s with tlb := s.tlb.filter fun e => !hit e }
    some (State.bumpId (s.modPart n fun p => { p with
      sdbusy := true, sdcmd := .ofNat 32 ((if all then 2 ^ 31 else 2 ^ 16 * size) + asid), sdseq := s.nextId }))

/-- SHOOTDOWN_PAGE (R344). -/
def execShootdownPage (part asid size : Nat) (s : State) : Host.Outcome State Fault Refusal :=
  fire s (s.managed (s.shootdown part asid false size))

/-- SHOOTDOWN_ALL (R344). -/
def execShootdownAll (part asid : Nat) (s : State) : Host.Outcome State Fault Refusal :=
  fire s (s.managed (s.shootdown part asid true 0))

/-- Whether every access and engine command of a context that translated before identifier `k` has been performed
(R344). -/
def State.translatedDone (s : State) (asid k : Nat) : Bool :=
  (s.regs.all fun q => q.asid != asid || decide (k ≤ q.seq)) &&
  (s.adds.all fun q => q.asid != asid || decide (k ≤ q.seq)) &&
  (s.copies.all fun q => q.asid != asid || decide (k ≤ q.seq)) &&
  (s.mats.all fun q => q.asid != asid || decide (k ≤ q.seq)) &&
  s.crews.all fun c => c.asid != asid || c.loads.all fun q => q.space != .global || decide (k ≤ q.seq)

/-- A shootdown completes (R344): BUSY clears and RESULT is 0. -/
def State.shootdownDone (s : State) (n : Nat) : Option State :=
  let p := s.part n
  guarded (p.sdbusy && s.translatedDone (p.sdcmd.toNat % 65536) p.sdseq) (s.setSdResult n 0)

/-- SHOOTDOWN_COMPLETE (R344). -/
def execShootdownComplete (part : Nat) (s : State) : Host.Outcome State Fault Refusal :=
  fire s (s.shootdownDone part)

end Sys2Proof.Machine
end

