-- ==== Sys2Proof/Machine/Fabric.lean ====
section
/-! DEFINITION. The fabric: unusable routes, strict messages, table swaps, ports and their buckets, and fabric time (R310, R317,
R320 to R326). -/

namespace Sys2Proof.Machine

/-- Changes the fabric registers and tables. -/
def State.modFab (s : State) (f : Fabric → Fabric) : State := { s with fab := f s.fab }

/-! ## Unusable routes (R320, R321) -/

/-- Whether an access of a core on an address of an endpoint is held: no key applies, or the route is unusable. -/
def State.heldFor (s : State) (ep core asid pa : Nat) (write : Bool) : Bool :=
  inFabric pa && endpointOf pa == ep && s.fabricStuck core asid pa write

/-- The lanes of a load that are held for an endpoint. -/
def State.heldLanes (s : State) (ep : Nat) (c : Crew) (q : PLoad) : List LaneLoad :=
  if q.space == .global then q.lanes.filter fun a => a.got.isNone && s.heldFor ep c.core c.asid a.addr false else []

/-- Whether the fetch of a split is held for an endpoint (R57, R320). -/
def State.heldFetch (s : State) (ep : Nat) (c : Crew) (p : Split) : Bool :=
  (match s.fetchPa c p with
   | some pa => s.heldFor ep c.core c.asid pa false
   | none => false) && p.due.all fun d => !(d.2.cause == .poison && d.2.pc == p.pc)

/-- Whether the instruction of a split waits to reach a place of an endpoint (R310, R320). -/
def State.heldSplit (s : State) (ep : Nat) (c : Crew) (p : Split) : Bool :=
  match p.waits with
  | some (pa, write) => s.heldFor ep c.core c.asid pa write
  | none => false

/-- What was held of the splits of a crew completes: a fetch with poison, and the access of an instruction that waits as that
instruction then says (R320, R346). -/
def State.endSplits (s : State) (ep : Nat) (c : Crew) : Crew :=
  { c with splits := c.splits.map fun p =>
      let q := if s.heldFetch ep c p then { p with due := p.due ++ [(s.nextId, ⟨.poison, p.pc, p.pc, 6⟩)] } else p
      if s.heldSplit ep c p then { q with waits := none, muted := true, tried := false } else q }

/-- The lanes of a load that are held for an endpoint complete with poison (R320). -/
def State.endLoad (s : State) (ep cid : Nat) (q : PLoad) : State :=
  match s.crew? cid with
  | none => s
  | some c =>
    let gone := s.heldLanes ep c q
    let lanes' := q.lanes.map fun a => if gone.contains a then { a with got := some (List.replicate q.size 0, true) } else a
    let q' := { q with lanes := lanes' }
    let whole := lanes'.all fun a => a.got.isSome
    let t := s.modCrew cid fun c => { c with
      loads := if whole then c.loads.erase q else c.loads.map fun r => if r == q then q' else r }
    if whole then t.loadDone c q' else t

/-- An atomic, a reduction or an STC that was held ends: its write is dropped, its results are poison (R320). -/
def State.endAdd (s : State) (q : AddReq) : State :=
  match q.ret with
  | none => if q.job.isSome then s.adderOwns (q.addr / 64) else s
  | some r =>
    let t := if q.op == .stc then s.modCrew q.cid fun c => { c with resv := c.resv.filter (·.lane != r.lane) } else s
    let t := (t.addReturn q r 0 true).lastReturn q
    match q.acq with
    | some sc => t.acquireBy q.cid q.sid q.core sc
    | none => t

/-- Whether the destination of a word of a command is held for an endpoint. -/
def State.heldDest (s : State) (ep : Nat) (k : CopyCmd) (x : CopyPiece) : Bool :=
  x.space == .global && s.heldFor ep k.core k.asid x.addr true

/-- Whether the source of a word of a command, not yet read, is held for an endpoint. -/
def State.heldSource (s : State) (ep : Nat) (k : CopyCmd) (x : CopyPiece) : Bool :=
  match x.srcLine with
  | some l => !k.read.contains l && s.heldFor ep k.core k.asid (256 * l) false
  | none => false

/-- A copy whose source line is held reads poison there, and what it writes to a held line is dropped (R320). -/
def State.poisonCopy (s : State) (ep : Nat) (k : CopyCmd) : CopyCmd :=
  { k with
    pieces := (k.pieces.filter fun x => !s.heldDest ep k x).map fun x =>
      if s.heldSource ep k x then { x with late := false, poison := true } else x
    read := (k.pieces.filterMap fun x => if s.heldSource ep k x then x.srcLine else none).eraseDups ++ k.read }

/-- The lines that a command no longer writes. -/
def State.lostLines (s : State) (ep : Nat) (k : CopyCmd) : List Nat :=
  ((k.pieces.filter (s.heldDest ep k)).map fun x => lineOf x.addr).eraseDups

/-- The write-backs that are held for an endpoint: dirty lines of its memory that must leave for a miss of their set (R150, R315, R320). -/
def State.heldBacks (s : State) (ep : Nat) : List L2Line :=
  s.misses.filterMap fun m =>
    if m.cls == .general && !s.holdsLine m.slice m.line && s.setFull m.slice m.line then
      (s.victim m.slice m.line).filter fun v => s.lineDirty v && inFabric (256 * v.line) &&
        endpointOf (256 * v.line) == ep && (s.backPort v.slice v.line).isNone
    else none

/-- A held write-back is dropped: its owners give it up, the line leaves its slice and its written words are poisoned (R320). -/
def State.dropBack (s : State) (v : L2Line) : State :=
  let t := ([0, 1, 2, 3].map (4 * v.line + ·)).foldl (fun s sec => s.revoke sec) s
  let mine (e : L2Line) : Bool := e.slice == v.slice && e.line == v.line
  let ws := (t.l2.filter mine).flatMap fun e => ((List.range 64).filter e.wm.getLsbD).map (64 * v.line + ·)
  ws.foldl (fun (t : State) w => t.poison (4 * w) 4) { t with l2 := t.l2.filter fun e => !mine e }

/-- The launches whose STATUS the device would write at their end, with the write held for an endpoint (R68, R320). -/
def State.heldStatus (s : State) (ep : Nat) : List (Nat × Nat) :=
  s.launches.filterMap fun l =>
    match l.status with
    | some pa => if !l.mute && l.phase == .draining && s.heldFor ep (s.deviceCore l.asid) l.asid pa.toNat true then
        some (l.lid, pa.toNat) else none
    | none => none

/-- What was held for an endpoint whose route stays unusable ends (R320): reads complete with poison, writes and write-backs are dropped,
their words poisoned and their lines reported as uncorrectable errors, and a notice of KIND 4 is posted. -/
def State.routeTimeout (s : State) (ep : Nat) : Option State :=
  let regs := s.regs.filter fun q => s.heldFor ep q.core q.asid (256 * q.line) true
  let adds := s.adds.filter fun q => s.heldFor ep q.core q.asid q.addr true
  let msgs := s.fab.strict.filter fun m => m.dst == ep && !s.routeOk ep
  let loads := s.crews.flatMap fun c => (c.loads.filter fun q => !(s.heldLanes ep c q).isEmpty).map fun q => (c.cid, q)
  let splits := s.crews.any fun c => c.splits.any fun p => s.heldFetch ep c p || s.heldSplit ep c p
  let copies := s.copies.map (s.poisonCopy ep)
  let backs := (s.heldBacks ep).eraseDups
  let status := s.heldStatus ep
  guarded (!regs.isEmpty || !adds.isEmpty || !msgs.isEmpty || !loads.isEmpty || splits || copies != s.copies || !backs.isEmpty ||
      !status.isEmpty) <|
    let t := State.bumpId { s with
      crews := s.crews.map (s.endSplits ep)
      regs := s.regs.filter fun q => !regs.contains q
      adds := s.adds.filter fun q => !adds.contains q
      copies := copies }
    let t := loads.foldl (fun t x => t.endLoad ep x.1 x.2) t
    let t := adds.foldl State.endAdd t
    let t := s.copies.foldl (fun t k => match k.phase with
      | .running d e => t.dropOwner (sectorsOf (k.pieces.filter (s.heldDest ep k))) (engineOwner d e)
      | _ => t) t
    let t := (regs.flatMap fun q => wordsOf q.bytes).foldl (fun (t : State) w => t.poison (4 * w) 4) t
    let t := (s.copies.flatMap fun k => k.pieces.filter (s.heldDest ep k)).foldl (fun (t : State) x => t.poison x.addr x.data.length) t
    let t := (adds.filter (·.ret.isNone)).foldl (fun (t : State) q => t.poison q.addr (if q.wide then 8 else 4)) t
    let t := backs.foldl State.dropBack t
    let t := status.foldl (fun t x => (t.modLaunch x.1 fun l => { l with mute := true }).dropWrites (placed x.2 (leBytes 4 0))) t
    let t := t.modFab fun f => { f with strict := f.strict.filter fun m => !msgs.contains m }
    (t.countErrors (regs.length + (adds.filter (·.ret.isNone)).length + msgs.length +
      (s.copies.map fun k => (s.lostLines ep k).length).sum + backs.length)).notice 4 0xFF ep

/-- ROUTE_UNUSABLE_TIMEOUT (R320). -/
def execRouteUnusableTimeout (ep : Nat) (s : State) : Host.Outcome State Fault Refusal :=
  fire s (s.routeTimeout ep)

/-- The messages of a strict flow that were lost, or that had no route, are sent again in their order on the flow's port
(R321). -/
def State.retransmit (s : State) (dst key : Nat) : Option State :=
  let mine (m : StrictMsg) : Bool := m.dst == dst && m.key == key && (m.lost || m.port.isNone)
  guarded (s.fab.strict.any mine && (s.strictPort dst key).isSome)
    (let port := s.strictPort dst key
     let again (m : StrictMsg) : StrictMsg := if mine m then { m with sent := false, lost := false, port := port } else m
     s.modFab fun f => { f with strict := f.strict.map again })

/-- The oldest message of a strict flow that is on its way is acknowledged (R321): it has been written at its destination. -/
def State.ackStrict (s : State) (dst key : Nat) : Option State :=
  match s.fab.strict.find? fun m => m.dst == dst && m.key == key with
  | some m => guarded (m.sent && !m.lost) (s.modFab fun f => { f with strict := f.strict.erase m, posted := f.posted ++ [m.msg] })
  | none => none

/-- STRICT_RETRANSMIT (R321). -/
def execStrictRetransmit (dst key : Nat) (s : State) : Host.Outcome State Fault Refusal :=
  fire s (s.retransmit dst key)

/-! ## Table swaps (R324) -/

/-- A write to RSWAP (R324): ignored while BUSY is set. -/
def State.rswap (s : State) (route key : Bool) : Option State :=
  guarded (!s.fab.busy && (route || key))
    (s.modFab fun f => { f with busy := true, swapRoute := route, swapKey := key })

/-- RSWAP_ROUTE (R324). -/
def execRswapRoute (s : State) : Host.Outcome State Fault Refusal := fire s (s.managed (s.rswap true false))

/-- RSWAP_KEY (R324). -/
def execRswapKey (s : State) : Host.Outcome State Fault Refusal := fire s (s.managed (s.rswap false true))

/-- A swap completes: the named copies become active at one point, BUSY clears and a notice of KIND 3 is posted (R324). -/
def State.swapDone (s : State) : Option State :=
  guarded s.fab.busy ((s.modFab fun f => { f with
    busy := false, ract := f.ract != f.swapRoute, kact := f.kact != f.swapKey, swapRoute := false, swapKey := false }).notice 3
      0xFF s.myEp)

/-- SWAP_COMPLETE (R324). -/
def execSwapComplete (s : State) : Host.Outcome State Fault Refusal := fire s s.swapDone

/-! ## Ports (R323, R325) -/

/-- One bit of a port mask. -/
def portBit (p : Nat) : BitVec 72 := 1#72 <<< p

/-- A port fails (R325): it leaves every live set, what was queued on it is lost on its way, and a notice of KIND 1 is
posted. -/
def State.failPort (s : State) (p : Nat) : State :=
  (s.modFab fun f => { f with
    portLive := f.portLive &&& ~~~portBit p, portFail := f.portFail ||| portBit p
    strict := f.strict.map fun m => if m.port == some p then { m with lost := true } else m }).notice 1 p s.myEp

/-- PORT_FAIL (R325). -/
def execPortFail (port : Nat) (s : State) : Host.Outcome State Fault Refusal :=
  fire s (guarded (decide (port < 72) && s.fab.portLive.getLsbD port) (s.failPort port))

/-- An enabled port that trains becomes live (R325): notices that waited for a live port are sent, and one of KIND 2. -/
def State.livePort (s : State) (p : Nat) : State :=
  let s := s.modFab fun f => { f with portLive := f.portLive ||| portBit p }
  let waiting := s.fab.unsent
  let s := waiting.foldl (fun s n => s.sendNotice n) (s.modFab fun f => { f with unsent := [] })
  s.notice 2 p s.myEp

/-- PORT_LIVE (R325). -/
def execPortLive (port : Nat) (s : State) : Host.Outcome State Fault Refusal :=
  fire s (guarded (decide (port < 72) && s.fab.portEn.getLsbD port && !s.fab.portLive.getLsbD port)
    (s.livePort port))

/-- A write of EN to PORTCTL (R325): clearing EN makes the port fail. -/
def State.portEnable (s : State) (p : Nat) (en : Bool) : State :=
  if en then s.modFab fun f => { f with portEn := f.portEn ||| portBit p }
  else
    let was := s.fab.portEn.getLsbD p
    let s := s.modFab fun f => { f with portEn := f.portEn &&& ~~~portBit p }
    if was then s.failPort p else s

/-- PORTCTL_EN (R325). -/
def execPortctlEn (port : Nat) (en : Bool) (s : State) : Host.Outcome State Fault Refusal :=
  fire s (s.managed (guarded (decide (port < 72)) (s.portEnable port en)))

/-- PORTCTL_FAIL_CLEAR (R323, Table 20.5). -/
def execPortctlFailClear (port : Nat) (s : State) : Host.Outcome State Fault Refusal :=
  fire s (s.managed (guarded (decide (port < 72)) (s.modFab fun f => { f with portFail := f.portFail &&& ~~~portBit port })))

/-- PORTCTL_KCLR (R323, Table 20.5). -/
def execPortctlKclr (port : Nat) (s : State) : Host.Outcome State Fault Refusal :=
  fire s (s.managed (guarded (decide (port < 72)) (s.modFab fun f => { f with kdrop := sset 0 f.kdrop port 0 })))

/-! ## Buckets of the ports (R310) -/

/-- RATE of a bucket register (R310). -/
def bucketRate (x : DWord) : Nat := x.toNat % 2 ^ 16

/-- CEIL of a bucket register (R310). -/
def bucketCeil (x : DWord) : Nat := x.toNat / 2 ^ 16 % 2 ^ 16

/-- KBKT of an entry as it stands after the writes that wait for the next tick. -/
def Fabric.nextBucket (f : Fabric) (e : Nat) : DWord :=
  match f.kbktNext.find? (·.1 == e) with
  | some x => x.2
  | none => sget 0 f.kbkt e

/-- A write to KBKT (R310): ignored where the RATEs would exceed 390 tokens, else it waits for the next tick; the bits that the table gives as 0 stay 0. -/
def State.kbktPut (s : State) (e : Nat) (w : DWord) : Option State :=
  let v := w &&& 0x1FFFFFFFFFF
  let others := (((List.range 64).filter (· != e)).map fun k => bucketRate (s.fab.nextBucket k)).sum
  guarded (decide (e < 64) &&
      (decide (others + bucketRate v ≤ 390) || decide (bucketRate v ≤ bucketRate (s.fab.nextBucket e))))
    (s.modFab fun f => { f with kbktNext := sput e v f.kbktNext })

/-- KBKT_WRITE (R310). -/
def execKbktWrite (entry : Nat) (value : DWord) (s : State) : Host.Outcome State Fault Refusal :=
  fire s (s.managed (s.kbktPut entry value))

/-- Written bucket registers take effect. -/
def Fabric.takeBuckets (f : Fabric) : Fabric :=
  { f with kbkt := f.kbktNext.foldl (fun m x => sset 0 m x.1 x.2) f.kbkt, kbktNext := [] }

/-- The bucket of a key: the first valid entry that holds it. -/
def Fabric.bucketOf (f : Fabric) (key : Nat) : Option Nat := f.findKey fun e => keyValid e && keyOf e == key

/-- Shares the tokens that overflowed, one each in ascending entries, among the keys with a message that waits at the
port. -/
def Fabric.share (port : Nat) (waits : List Nat) : Nat → Nat → Fabric → Fabric
  | 0, _, f => f
  | fuel + 1, pool, f =>
    if pool = 0 then f
    else
      match waits.filter fun e => decide (f.level port e < bucketCeil (sget 0 f.kbkt e)) with
      | [] => f
      | xs =>
        let r := xs.foldl (fun (r : Fabric × Nat) e =>
          if r.2 = 0 then r else (r.1.setLevel port e (r.1.level port e + 1), r.2 - 1)) (f, pool)
        Fabric.share port waits fuel r.2 r.1

/-- Whether a message of a flow must wait for an earlier one: it was lost, or travels another path and is not acknowledged
(R321). -/
def Fabric.flowWaits (f : Fabric) (m : StrictMsg) : Bool :=
  f.strict.any fun x => x.dst == m.dst && x.key == m.key && decide (x.seq < m.seq) && (x.lost || x.port != m.port)

/-- The messages that wait at a port leave it in their order, each for a token of its key; a flow keeps its order
(R310, R317, R321). `kept` lists the flows of which a message stays. -/
def Fabric.sendAll (port : Nat) : List (Nat × Nat) → List StrictMsg → Fabric → Fabric
  | _, [], f => f
  | kept, m :: rest, f =>
    let stay := Fabric.sendAll port ((m.dst, m.key) :: kept) rest f
    if m.sent then Fabric.sendAll port kept rest f
    else if m.port != some port || m.lost || kept.contains (m.dst, m.key) || f.flowWaits m then stay
    else
      let sent (f : Fabric) : Fabric :=
        { f with strict := f.strict.map fun x => if x.seq == m.seq then { x with sent := true } else x }
      match f.bucketOf m.key with
      | none => Fabric.sendAll port kept rest (sent f)
      | some e =>
        if f.level port e = 0 then stay
        else Fabric.sendAll port kept rest ((sent f).setLevel port e (f.level port e - 1))

/-- The tick of a port (R310): every bucket takes its RATE up to its CEIL, what overflows is shared among the keys with something that
waits (`more` names the entries of accesses that do), and messages leave. -/
def Fabric.tick (f : Fabric) (port : Nat) (more : List Nat) : Fabric :=
  let f := f.takeBuckets
  let rate (e : Nat) : Nat := bucketRate (sget 0 f.kbkt e)
  let ceil (e : Nat) : Nat := bucketCeil (sget 0 f.kbkt e)
  let es := List.range 64
  let pool := (es.map fun e => f.level port e + rate e - ceil e).sum
  let g := es.foldl (fun (g : Fabric) e => g.setLevel port e (min (ceil e) (f.level port e + rate e))) f
  let waits := es.filter fun e => more.contains e ||
    g.strict.any fun m => m.port == some port && !m.sent && g.bucketOf m.key == some e
  let g := g.share port waits 390 pool
  g.sendAll port [] g.strict

/-- The port and the key entry at which an access on fabric memory waits for a token, if it needs a message (R310). -/
def State.waitPort (s : State) (core asid pa : Nat) (write bulk : Bool) : Option (Nat × Nat) :=
  if s.fabricFree core pa write then none else s.fabricPort asid (endpointOf pa) bulk

/-- Where the accesses of contexts on fabric memory wait: the ports and the key entries (R310). -/
def State.portWaits (s : State) : List (Nat × Nat) :=
  (s.crews.flatMap fun c => c.splits.filterMap fun p => match s.fetchPa c p with
    | some pa => s.waitPort c.core c.asid pa false false
    | none => none) ++
  (s.crews.flatMap fun c => c.splits.filterMap fun p => match p.waits with
    | some (pa, write) => s.waitPort c.core c.asid pa write true
    | none => none) ++
  (s.misses.filterMap fun m => if m.cls == .general && s.setFull m.slice m.line then
      match s.victim m.slice m.line with
      | some v => if s.lineDirty v && inFabric (256 * v.line) then s.backPort v.slice v.line else none
      | none => none
    else none) ++
  (s.launches.filterMap fun l => match l.status with
    | some pa => if l.phase == .draining && !l.mute then s.waitPort (s.deviceCore l.asid) l.asid pa.toNat true false else none
    | none => none) ++
  (s.regs.filterMap fun q => s.waitPort q.core q.asid (256 * q.line) true false) ++
  (s.adds.filterMap fun q => if q.paid then none else s.waitPort q.core q.asid q.addr true false) ++
  (s.crews.flatMap fun c => c.loads.flatMap fun q =>
    if q.space == .global then q.lanes.filterMap fun a =>
      if a.got.isNone then s.waitPort c.core c.asid a.addr false false else none
    else []) ++
  s.copies.flatMap fun k => k.pieces.flatMap fun x =>
    (match x.srcLine with
     | some l => if k.read.contains l then [] else (s.waitPort k.core k.asid (256 * l) false false).toList
     | none => []) ++
    if x.space == .global && !k.wrote.contains (lineOf x.addr) then (s.waitPort k.core k.asid x.addr true true).toList else []

/-- The state after the tick of a port (R310). -/
def State.portTick (s : State) (port : Nat) : State :=
  let more := (s.portWaits.filter (·.1 == port)).map (·.2)
  (s.modFab fun f => f.tick port more).noteTick (288 + port)

/-- PORT_BUCKET_TICK (R310): once in every microsecond. -/
def execPortBucketTick (port : Nat) (s : State) : Host.Outcome State Fault Refusal :=
  fire s (guarded (decide (port < 72) && !s.ticked (288 + port)) (s.portTick port))

/-! ## Fabric time (R326) -/

/-- How far FTIME has yet to run on, or back where it is negative, to show a time: in 1/3,000,000 ns. -/
def State.behind (s : State) (master : DWord) : Int := 3000000 * ((master.toNat : Int) - s.ftime.toNat) - s.ftfrac

/-- Whether FTIME stands within 10 ns of a time, so that two devices locked to one master differ by at most 20 ns (R326; DEDUCED, log
entry 4). -/
def State.closeTo (s : State) (master : DWord) : Bool := decide ((s.behind master).natAbs ≤ 30000000)

/-- An exchange with the time master of FTSRC, to which a route must be usable (R320, R326). The first takes the master's
time; a later one sets what FTIME is to be slewed by, for it is never stepped, and succeeds where FTIME stands close to the master's
time. A new lock posts a notice of KIND 6. -/
def State.sync (s : State) (master : DWord) (offset : Half) : Option State :=
  guarded (s.routeOk (s.fab.ftsrc.toNat % 2 ^ 14)) <|
    let s := if s.fab.everLocked then s else { s with ftime := master, ftfrac := 0 }
    let s := s.modFab fun f => { f with everLocked := true, ofs := offset, slew := s.behind master }
    if !s.closeTo master then s
    else
      let was := s.fab.lock
      let s := s.modFab fun f => { f with lock := true, syncAt := s.micros }
      if was then s else s.notice 6 0xFF s.myEp

/-- FTIME_SYNC_EXCHANGE (R326). -/
def execFtimeSyncExchange (master : DWord) (offset : Half) (s : State) : Host.Outcome State Fault Refusal :=
  fire s (s.sync master offset)

/-- LOCK clears with a notice of KIND 5 when no exchange has succeeded for 1 ms (R326). -/
def State.lockLoss (s : State) : Option State :=
  guarded (s.fab.lock && decide (s.fab.syncAt + 1000 ≤ s.micros))
    ((s.modFab fun f => { f with lock := false }).notice 5 0xFF s.myEp)

/-- FTIME_LOCK_LOSS (R326). -/
def execFtimeLockLoss (s : State) : Host.Outcome State Fault Refusal := fire s s.lockLoss

end Sys2Proof.Machine
end

