-- ==== Sys2Proof/Machine/Service.lean ====
section
/-! DEFINITION. Module, power and service: soft errors, throttling, boot, attestation, the retirement of cores and bays, and the
registers of the management window (R345, R367 to R372). -/

namespace Sys2Proof.Machine

/-- Changes the service registers. -/
def State.modSvc (s : State) (f : Service → Service) : State := { s with svc := f s.svc }

/-! ## Soft errors (R345) -/

/-- CORRECTABLE_ERROR (R345): counted in CECNTs, which saturates; no value changes. -/
def execCorrectableError (unit : Nat) (s : State) : Host.Outcome State Fault Refusal :=
  fire s (guarded (decide (unit < 6)) (s.modSvc fun v => { v with
    cecnt := sset 0 v.cecnt unit (.ofNat 32 (min ((sget 0 v.cecnt unit).toNat + 1) 0xFFFFFFFF)) }))

/-- Marks a word poisoned where it stands (R345). -/
def State.strike (s : State) : Place → State
  | .memory w => s.poison (4 * w) 4
  | .scratch lid tid w => s.scratchPoison lid tid (4 * w) 4
  | .laneReg cid a l => s.modCrew cid fun c => { c with vpoison := (32 * a + l) :: c.vpoison.erase (32 * a + l) }
  | .uniformReg cid n => s.modCrew cid fun c => { c with spoison := n :: c.spoison.erase n }
  | .tile core asid num w => { s with tiles := s.tiles.map fun t =>
      if t.core == core && t.asid == asid && t.num == num then { t with poison := w :: t.poison.erase w } else t }
  | .shell k w => { s with shpoison := (16 * k + w) :: s.shpoison.erase (16 * k + w) }
  | .buffer lid index k => s.modSeat lid index fun t => { t with bad := k :: t.bad.erase k }
  | .l1 core word =>
    match s.l1Word? core word with
    | some w =>
      if w.st == .clean then
        { s with l1 := s.l1.map fun (x : L1Word) => if x.core == core && x.addr == word then { x with bad := true } else x }
      else s.poison (4 * word) 4
    | none => s

/-- UNCORRECTABLE_ERROR (R345): the word is poisoned and UECNT advances. -/
def execUncorrectableError (place : Place) (s : State) : Host.Outcome State Fault Refusal :=
  fire s (some ((s.strike place).countErrors 1))

/-- A write to CECLR (Table 26.2). -/
def State.ceclr (s : State) (v : DWord) : State :=
  s.modSvc fun x => { x with
    cecnt := sdrop (fun k => v.getLsbD k) x.cecnt, uecnt := if v.getLsbD 6 then 0 else x.uecnt }

/-- CECLR_WRITE (Table 26.2). -/
def execCeclrWrite (value : DWord) (s : State) : Host.Outcome State Fault Refusal :=
  fire s (s.managed (some (s.ceclr value)))

/-! ## Power and heat (R368) -/

/-- The cap in W that PWRCAP acts as (Table 26.2). -/
def Service.cap (v : Service) : Nat := max 1500 (min 3000 v.pwrcap.toNat)

/-- POWER_THROTTLE (R368): issue slots are withheld while it lasts; results do not change. The average power that PWRNOW shows is at
or below the cap. -/
def execPowerThrottle (on : Bool) (s : State) : Host.Outcome State Fault Refusal :=
  fire s (some ((s.modSvc fun v => { v with
    throt := on, pwrnow := .ofNat 16 (min v.cap (Config.power s.free).toNat) }).bumpFree))

/-- An outlet temperature is measured, in 0.1 °C as TCOOL shows it (R368, Table 26.2): at 95 °C the device stops issuing and sets HOT,
until it falls below 85 °C. -/
def State.setOutlet (s : State) (outlet : Half) : State :=
  s.modSvc fun v => { v with
    tcool := (outlet ++ v.tcool.truncate 16 : Word)
    hot := decide (950 ≤ outlet.toNat) || (v.hot && decide (850 ≤ outlet.toNat)) }

/-- HOT_STOP (R368). -/
def execHotStop (outlet : Half) (s : State) : Host.Outcome State Fault Refusal := fire s (some (s.setOutlet outlet))

/-- HOT_CLEAR (R368). -/
def execHotClear (outlet : Half) (s : State) : Host.Outcome State Fault Refusal := fire s (some (s.setOutlet outlet))

/-! ## Boot and attestation (R370, R371) -/

/-- Whether the boot ROM runs an image (R370): its key hashes to the fused hash and the signature verifies over the image's hash. -/
def bootPasses (b : BootImage) : Bool :=
  Config.sha512 b.key == Config.fusedKeyHash && Config.verifies b.key (Config.sha512 b.image) b.signature

/-- The device after a reset with an image (R370). A passing image is hashed into MEAS, its signed configuration sets MGMTEP, MGMTKEY and
MYEP and is hashed into MEAS + 64, and BOOTOK is set; another is not run. What is not the device's own stays: the tape, the counts of the model and fabric memory. -/
def State.boot (s : State) (b : BootImage) : State :=
  let r : State := { State.reset with
    tape := s.tape, free := s.free, nextId := s.nextId, mem := sdrop (fun a => !inFabric a) s.mem
    mpoison := s.mpoison.filter fun w => inFabric (4 * w) }
  let r := r.modSvc fun v => { v with
    spares := (List.range 4).foldl (fun m d => sset 0 m d (min 4 (Config.spares d))) v.spares }
  let config := Config.configOf b.image
  if bootPasses b then
    (r.modSvc fun v => { v with
      meas0 := Config.sha512 b.image, meas1 := Config.sha512 config, mgmtEp := Config.mgmtEp config
      mgmtKey := Config.mgmtKey config, bootok := true }).modFab
      fun f => { f with fctl := (Config.myEp config).zeroExtend 32 }
  else r

/-- DEVICE_RESET (R370). -/
def execDeviceReset (image : BootImage) (s : State) : Host.Outcome State Fault Refusal := fire s (some (s.boot image))

/-- IDENT (Table 26.2), with REV 0x0001. -/
def identValue : DWord := 0x8824000100000000

/-- A write of GO to ATTCMD (R371). -/
def State.attGo (s : State) : Option State := guarded (!s.svc.attBusy) (s.modSvc fun v => { v with attBusy := true })

/-- ATT_GO (R371). -/
def execAttGo (s : State) : Host.Outcome State Fault Refusal := fire s (s.managed s.attGo)

/-- What a quote signs the hash of (R371): ATTNONCE, MEAS, IDENT and SERIAL. -/
def State.attMessage (s : State) : List Byte :=
  sgetList 0 s.svc.nonce 0 64 ++ leBytes 64 s.svc.meas0.toNat ++ leBytes 64 s.svc.meas1.toNat ++
    leBytes 8 identValue.toNat ++ leBytes 8 Config.serial.toNat

/-- A quote is done (R371): QUOTE is written, BUSY clears and VALID is set. -/
def State.quoteDone (s : State) : Option State :=
  let m := Config.sha512 s.attMessage
  guarded s.svc.attBusy (s.modSvc fun v => { v with
    attBusy := false, attValid := true
    quote := ssetList 0 [] 0 ((List.range 512).map fun i => Config.signature m i) })

/-- ATT_QUOTE_DONE (R371). -/
def execAttQuoteDone (s : State) : Host.Outcome State Fault Refusal := fire s s.quoteDone

/-- A write of bytes to ATTNONCE (R371): ignored while BUSY is set; VALID clears. -/
def State.attNonce (s : State) (offset size : Nat) (v : DWord) : Option State :=
  guarded (!s.svc.attBusy && decide (offset + size ≤ 64) && offset % max 1 size == 0)
    (s.modSvc fun x => { x with nonce := ssetList 0 x.nonce offset (leBytes size v.toNat), attValid := false })

/-- ATTNONCE_WRITE (R371): 8 bytes at an offset of ATTNONCE. -/
def execAttnonceWrite (offset : Nat) (value : DWord) (s : State) : Host.Outcome State Fault Refusal :=
  fire s (s.managed (s.attNonce offset 8 value))

/-! ## Ageing (R372) -/

/-- Whether nothing runs on a core: its teams are out and its hosts paged out. -/
def State.coreIdle (s : State) (core : Nat) : Bool :=
  (s.crews.all (·.core != core)) && s.teams.all fun t => !(t.core == core && t.holds)

/-- A host slot of a field that stands on a fenced core, free, moves to the next core of the partition that has room for it (R290, R372;
DESIGN CHOICE, log entry 22). -/
def State.rehomeSlot (s : State) (l : Launch) (e : Nat × Nat × Nat) : Option State :=
  let p := s.part (s.partOf l.asid)
  let cores := (p.cores.filter fun c => decide (e.2.1 < c)) ++ p.cores
  let free := s.crews.all fun c => !(c.lid == l.lid && (match c.host with | some h => h.slot == e.1 | none => false))
  (cores.findSome? fun core =>
    if free && s.admits core l.asid && s.modeFits core l.record.fuseL1 then (s.pickRow core l.record.frame).map (core, ·) else none).map
    fun k => ((s.setMode k.1 l.record.fuseL1).modLaunch l.lid fun l => { l with
      slots := l.slots.map fun x => if x == e then (e.1, k.1, k.2) else x }).rebalance l.lid

/-- The first host slot of a fenced core that can move does. -/
def State.rehome (s : State) : Option State :=
  s.launches.findSome? fun l => (l.slots.filter fun e => s.svc.fenced.contains e.2.1).findSome? fun e => s.rehomeSlot l e

/-- Every host slot of a fenced core that can move does, at most `fuel` of them. -/
def State.rehomeAll (s : State) : Nat → State
  | 0 => s
  | fuel + 1 =>
    match s.rehome with
    | some t => t.rehomeAll fuel
    | none => s

/-- A core's retirement ends (R372): a free spare of its die takes its index, or the core stays fenced. The host slots of the core are
free again or move to other cores, and Rebalance runs (R289, R290). -/
def State.finishRetire (s : State) (core : Nat) : State :=
  let n := sget 0 s.svc.spares (core / 72)
  let t := s.modSvc fun v => { v with
    retiring := v.retiring.erase core, retBusy := v.retBusy && v.retCore != core
    spares := if n = 0 then v.spares else sset 0 v.spares (core / 72) (n - 1)
    fenced := if n = 0 then v.fenced ++ [core] else v.fenced
    degraded := v.degraded || n == 0, replace := v.replace || n == 0
    retRes := if n = 0 then 2 else 0 }
  let t := t.rehomeAll (s.launches.map fun l => l.slots.length).sum
  s.launches.foldl (fun (t : State) (l : Launch) => t.rebalance l.lid) t

/-- The retirement of a core begins, or ends once nothing runs on it (R372): nothing more is placed on it, its teams are
pre-empted and its hosts paged out. -/
def State.retireCore (s : State) (core : Nat) : Option State :=
  if 288 ≤ core || s.svc.fenced.contains core then none
  else if s.coreIdle core then some (s.finishRetire core)
  else guarded (!s.svc.retiring.contains core) (s.modSvc fun v => { v with retiring := v.retiring ++ [core] })

/-- A write to CORERET (R372): ignored while BUSY is set, RESULT 1 above core 287; a retirement of the core that runs already
is merged with it. -/
def State.coreret (s : State) (v : DWord) : Option State :=
  let core := v.toNat % 512
  if s.svc.retBusy then none
  else if 288 ≤ core then some (s.modSvc fun x => { x with retRes := 1 })
  else if s.svc.fenced.contains core then some (s.modSvc fun x => { x with retRes := 2 })
  else
    let t := s.modSvc fun x => { x with retBusy := true, retCore := core }
    match t.retireCore core with
    | some u => some u
    | none => some t

/-- CORERET_WRITE (R372). -/
def execCoreretWrite (value : DWord) (s : State) : Host.Outcome State Fault Refusal :=
  fire s (s.managed (s.coreret value))

/-- CORE_MARGIN_FAIL (R372). -/
def execCoreMarginFail (core : Nat) (s : State) : Host.Outcome State Fault Refusal := fire s (s.retireCore core)

/-- The date in days since 1970-01-01, by FTIME: IEEE 1588 counts nanoseconds from that day. -/
def State.today (s : State) : Nat := s.ftime.toNat / 86400000000000

/-- Whether a predicted end of life falls within 90 days (R372). -/
def State.eolNear (s : State) (eol : Word) : Bool := eol != 0 && decide (eol.toNat ≤ s.today + 90)

/-- REPLACE is set when the date comes within 90 days as time passes (R372). -/
def State.watchEol (s : State) : State := if s.eolNear s.svc.eol then s.modSvc fun v => { v with replace := true } else s

/-- EOL_UPDATE (R372): REPLACE is set when the date falls within 90 days, and stays set where the old one did. -/
def execEolUpdate (date : Word) (s : State) : Host.Outcome State Fault Refusal :=
  fire s (some (s.modSvc fun v => { v with eol := date, replace := v.replace || s.eolNear v.eol || s.eolNear date }))

/-- BAY_RETIRE (R372): the bay's slices or channel group can no longer hold their data, and BAYGEN.RETIRED is set. -/
def execBayRetire (bay : Nat) (s : State) : Host.Outcome State Fault Refusal :=
  fire s (guarded (decide (bay < 24)) (s.modBay bay fun g => { g with retired := true }))

/-! ## The management window (R369, Table 26.1) -/

/-- A number with the `size` bytes from byte `off` on replaced. -/
def patch (old off size v : Nat) : Nat :=
  old % 2 ^ (8 * off) + v % 2 ^ (8 * size) * 2 ^ (8 * off) + old / 2 ^ (8 * (off + size)) * 2 ^ (8 * (off + size))

/-- A write to the block of a partition (Table 19.2); ignored while BUSY is set (R304). -/
def State.writePart (s : State) (n off size : Nat) (v : DWord) : Option State :=
  let w : Word := v.truncate 32
  match off with
  | 0x000 => s.pctl n w
  | 0x008 => guarded (!(s.part n).busy) (s.modPart n fun p => { p with psched := w &&& 0x1F })
  | 0x010 => match s.engMask n 0 w with
    | some t => if size = 8 then t.engMask n 1 ((v >>> 32).truncate 32) else some t
    | none => none
  | 0x014 => s.engMask n 1 w
  | 0x018 => match s.engMask n 2 w with
    | some t => if size = 8 then t.engMask n 3 ((v >>> 32).truncate 32) else some t
    | none => none
  | 0x01C => s.engMask n 3 w
  | 0x020 => guarded (!(s.part n).busy) (s.modPart n fun p => { p with ctxtab := .ofNat 64 (patch p.ctxtab.toNat 0 size v.toNat) })
  | 0x024 => guarded (!(s.part n).busy) (s.modPart n fun p => { p with ctxtab := .ofNat 64 (patch p.ctxtab.toNat 4 size v.toNat) })
  | 0x028 => s.ctxcmd n w
  | _ => none

/-- A write to the translation registers of a partition (Table 21.7). -/
def State.writeTrans (s : State) (n off size : Nat) (v : DWord) : Option State :=
  match off with
  | 0x00 => some (s.modPart n fun p => { p with roottab := .ofNat 64 (patch p.roottab.toNat 0 size v.toNat) })
  | 0x04 => some (s.modPart n fun p => { p with roottab := .ofNat 64 (patch p.roottab.toNat 4 size v.toNat) })
  | 0x08 => some (s.modPart n fun p => { p with sdaddr := .ofNat 64 (patch p.sdaddr.toNat 0 size v.toNat) })
  | 0x0C => some (s.modPart n fun p => { p with sdaddr := .ofNat 64 (patch p.sdaddr.toNat 4 size v.toNat) })
  | 0x10 =>
    let w := v.toNat % 2 ^ 32
    if w / 2 ^ 18 % 2 ^ 13 != 0 then
      (if (s.part n).sdbusy then none else some (s.setSdResult n 1))
    else s.shootdown n (w % 65536) (w.testBit 31) (w / 65536 % 4)
  | _ => none

/-- A key entry as written: DROP and EXPMISS stay (Table 20.3). -/
def writtenKey (old v : DWord) : DWord := (old &&& 0xFFFFFFFF00000000) ||| (v &&& 0xC01FFFFF)

/-- The bits of a routing table entry that Table 20.2 does not give as 0. -/
def routeMask : BitVec 128 := 0x300FFFFFFFFFFFFFFFFFF

/-- The bits of an export table entry that Table 20.4 does not give as 0. -/
def exportMask : BitVec 128 := 0xFC00000000FFFFFF000FFFFFFFFFFFFF

/-- A write to a copy of the key or the routing table: 8 bytes, and never to the active copy (R323, R324). -/
def State.writeTables (s : State) (o : Nat) (v : DWord) : Option State :=
  let half (x : BitVec 128) (o : Nat) : BitVec 128 := .ofNat 128 (patch x.toNat (o % 16) 8 v.toNat) &&& routeMask
  if 0x220000 ≤ o && o < 0x220200 then
    guarded s.fab.kact (s.modFab fun f => { f with
      keytab0 := sset 0 f.keytab0 ((o - 0x220000) / 8) (writtenKey (sget 0 f.keytab0 ((o - 0x220000) / 8)) v) })
  else if 0x220200 ≤ o && o < 0x220400 then
    guarded (!s.fab.kact) (s.modFab fun f => { f with
      keytab1 := sset 0 f.keytab1 ((o - 0x220200) / 8) (writtenKey (sget 0 f.keytab1 ((o - 0x220200) / 8)) v) })
  else if 0x400000 ≤ o && o < 0x440000 then
    guarded s.fab.ract (s.modFab fun f => { f with
      route0 := sset 0 f.route0 ((o - 0x400000) / 16) (half (sget 0 f.route0 ((o - 0x400000) / 16)) o) })
  else if 0x440000 ≤ o && o < 0x480000 then
    guarded (!s.fab.ract) (s.modFab fun f => { f with
      route1 := sset 0 f.route1 ((o - 0x440000) / 16) (half (sget 0 f.route1 ((o - 0x440000) / 16)) o) })
  else none

/-- A write to the other fabric registers (Table 20.5). -/
def State.writeFab (s : State) (o size : Nat) (v : DWord) : Option State :=
  let w : Word := v.truncate 32
  if 0x230000 ≤ o && o < 0x230400 then
    let x := (o - 0x230000) / 16
    some (s.modFab fun f => { f with
      exptab := sset 0 f.exptab x (.ofNat 128 (patch (sget 0 f.exptab x).toNat (o % 16) size v.toNat) &&& exportMask) })
  else if 0x310000 ≤ o && o < 0x310240 && o % 8 == 0 then
    let p := (o - 0x310000) / 8
    let s := if v.getLsbD 0 == s.fab.portEn.getLsbD p then s else s.portEnable p (v.getLsbD 0)
    let s := if v.getLsbD 1 then s.modFab fun f => { f with portFail := f.portFail &&& ~~~portBit p } else s
    some (if v.getLsbD 3 then s.modFab fun f => { f with kdrop := sset 0 f.kdrop p 0 } else s)
  else
    match o with
    | 0x300000 => some (s.modFab fun f => { f with fctl := w &&& 0x80003FFF })
    | 0x300008 => s.rswap (v.getLsbD 0) (v.getLsbD 1)
    | 0x300030 => some (s.modFab fun f => { f with naddr := .ofNat 64 (patch f.naddr.toNat 0 size v.toNat) })
    | 0x300034 => some (s.modFab fun f => { f with naddr := .ofNat 64 (patch f.naddr.toNat 4 size v.toNat) })
    | 0x300038 => some (s.modFab fun f => { f with nctl := w &&& 0x8000FFFF })
    | 0x300048 => some (s.modFab fun f => { f with ftsrc := w &&& 0x3FFF })
    | _ => none

/-- A write to a service register (Table 26.2). -/
def State.writeSvc (s : State) (o size : Nat) (v : DWord) : Option State :=
  if 0x200 ≤ o && o < 0x240 then s.attNonce (o - 0x200) size v
  else
    match o with
    | 0x018 => some (s.modSvc fun x => { x with pwrcap := v &&& 0xFFFF })
    | 0x078 => some (s.ceclr v)
    | 0x100 => s.coreret v
    | 0x240 => if v.getLsbD 0 then s.attGo else none
    | _ => none

/-- A write to the management window: 4 or 8 bytes, naturally aligned; an offset without a register ignores it (R303, R323,
R344, R369). -/
def State.mgmtWrite (s : State) (o size : Nat) (v : DWord) : Option State :=
  if !(size == 4 || size == 8) || o % size != 0 || 0x1000000 ≤ o then none
  else if o < 0x1000 then s.writeSvc o size v
  else if 0x100000 ≤ o && o < 0x118000 then s.writePart ((o - 0x100000) / 0x1000) (o % 0x1000) size v
  else if 0x200000 ≤ o && o < 0x200200 then
    (if size = 8 then s.kbktPut ((o - 0x200000) / 8) v
     else
       let old := s.fab.nextBucket ((o - 0x200000) / 8)
       s.kbktPut ((o - 0x200000) / 8) (.ofNat 64 (patch old.toNat (o % 8) 4 v.toNat)))
  else if 0x500000 ≤ o && o < 0x501800 then s.writeTrans ((o - 0x500000) / 0x100) (o % 0x100) size v
  else if (0x220000 ≤ o && o < 0x220400) || (0x400000 ≤ o && o < 0x480000) then
    (if size = 8 then s.writeTables o v else none)
  else s.writeFab o size v

/-- MGMT_REGISTER_WRITE (R369). -/
def execMgmtRegisterWrite (offset size : Nat) (value : DWord) (s : State) : Host.Outcome State Fault Refusal :=
  fire s (s.managed (s.mgmtWrite offset size value))

end Sys2Proof.Machine
end

