-- ==== Sys2Proof/Machine/Ingress.lean ====
section
/-! DEFINITION. What comes in from the fabric: flits and their slots, the export windows, the management window as it is read, and
remote arrivals (R70, R291, R303, R310, R315, R316, R319, R322 to R324, R344, R369). -/

namespace Sys2Proof.Machine

/-! ## The management window as it is read (R369, Table 26.1) -/

/-- Two registers of 4 bytes as 8 bytes. -/
def twoWords (lo hi : Word) : DWord := hi ++ lo

/-- A bit of a register. -/
def bitAt (b : Bool) (n : Nat) : Nat := if b then 2 ^ n else 0

/-- PCTL (Table 19.2). -/
def Partition.pctlWord (p : Partition) : Word := .ofNat 32 (bitAt p.en 31 + 256 * p.size + p.base)

/-- PSTAT (Table 19.2). -/
def Partition.pstatWord (p : Partition) : Word := .ofNat 32 (bitAt p.busy 31 + p.result.toNat)

/-- The block of a partition (Table 19.2). -/
def Partition.readBlock (p : Partition) (o : Nat) : DWord :=
  let eng (d : Nat) : Word := (sget 0 p.eng d).zeroExtend 32
  match o with
  | 0x000 => twoWords p.pctlWord p.pstatWord
  | 0x008 => p.psched.zeroExtend 64
  | 0x010 => twoWords (eng 0) (eng 1)
  | 0x018 => twoWords (eng 2) (eng 3)
  | 0x020 => p.ctxtab
  | _ => 0

/-- The translation registers of a partition (Table 21.7). -/
def Partition.readTrans (p : Partition) (o : Nat) : DWord :=
  match o with
  | 0x00 => p.roottab
  | 0x08 => p.sdaddr
  | 0x18 => .ofNat 64 (bitAt p.sdbusy 31 + p.sdres)
  | _ => 0

/-- BAYGEN (Table 19.3). -/
def Bay.word (b : Bay) : DWord :=
  .ofNat 64 (bitAt b.retired 9 + bitAt b.scrub 8 + 16 * b.bumps.toNat + b.gen.toNat)

/-- The 8 bytes of a 16-byte table entry at an offset. -/
def entryHalf (x : BitVec 128) (o : Nat) : DWord := (x >>> (8 * (o % 16))).truncate 64

/-- A slot of the notice ring (Table 20.5): the last 64 notices, NHEAD being the next slot. -/
def Fabric.ringSlot (f : Fabric) (k : Nat) : List Byte :=
  let back := (f.nhead.toNat + 63 - k) % 64
  if back < f.nring.length then
    match f.nring[f.nring.length - 1 - back]? with
    | some n => n.bytes
    | none => List.replicate 32 0
  else List.replicate 32 0

/-- PORTCTL of a port (Table 20.5). -/
def Fabric.portWord (f : Fabric) (p : Nat) : DWord :=
  .ofNat 64 ((sget 0 f.kdrop p).toNat * 2 ^ 16 + bitAt (f.portLive.getLsbD p) 2 + bitAt (f.portFail.getLsbD p) 1 +
    bitAt (f.portEn.getLsbD p) 0)

/-- The fabric registers (Table 20.5). -/
def Fabric.readRegister (f : Fabric) (o : Nat) : DWord :=
  if 0x220000 ≤ o && o < 0x220200 then sget 0 f.keytab0 ((o - 0x220000) / 8)
  else if 0x220200 ≤ o && o < 0x220400 then sget 0 f.keytab1 ((o - 0x220200) / 8)
  else if 0x230000 ≤ o && o < 0x230400 then entryHalf (sget 0 f.exptab ((o - 0x230000) / 16)) o
  else if 0x301000 ≤ o && o < 0x301800 then
    .ofNat 64 (leNat (((f.ringSlot ((o - 0x301000) / 32)).drop (o % 32)).take 8))
  else if 0x310000 ≤ o && o < 0x310240 then f.portWord ((o - 0x310000) / 8)
  else if 0x400000 ≤ o && o < 0x440000 then entryHalf (sget 0 f.route0 ((o - 0x400000) / 16)) o
  else if 0x440000 ≤ o && o < 0x480000 then entryHalf (sget 0 f.route1 ((o - 0x440000) / 16)) o
  else
    match o with
    | 0x300000 => f.fctl.zeroExtend 64
    | 0x300010 => .ofNat 64 (bitAt f.busy 31 + bitAt f.kact 1 + bitAt f.ract 0)
    | 0x300020 => f.portLive.truncate 64
    | 0x300028 => (f.portLive >>> 64).truncate 64
    | 0x300030 => f.naddr
    | 0x300038 => f.nctl.zeroExtend 64
    | 0x300040 => f.nhead.zeroExtend 64
    | 0x300048 => f.ftsrc.zeroExtend 64
    | 0x300050 => .ofNat 64 (bitAt f.lock 31 + f.ofs.toNat)
    | _ => 0

/-- SVCSTAT (Table 26.2). -/
def Service.stat (v : Service) : Nat :=
  bitAt v.replace 31 + bitAt v.degraded 30 + bitAt v.throt 29 + bitAt v.hot 28 + bitAt v.bootok 27 +
    ((List.range 4).map fun d => sget 0 v.spares d % 8 * 8 ^ d).sum

/-- The service registers (Table 26.2). -/
def Service.readRegister (v : Service) (o : Nat) : DWord :=
  let part (bs : List Byte) (k : Nat) : DWord := .ofNat 64 (leNat ((bs.drop k).take 8))
  if 0x040 ≤ o && o < 0x070 then (sget 0 v.cecnt ((o - 0x040) / 8)).zeroExtend 64
  else if 0x300 ≤ o && o < 0x380 then part (leBytes 64 v.meas0.toNat ++ leBytes 64 v.meas1.toNat) (o - 0x300)
  else if 0x400 ≤ o && o < 0x600 then part (sgetList 0 v.quote 0 512) (o - 0x400)
  else
    match o with
    | 0x000 => identValue
    | 0x008 => Config.serial
    | 0x010 => .ofNat 64 v.stat
    | 0x018 => v.pwrcap
    | 0x020 => v.pwrnow.zeroExtend 64
    | 0x028 => v.tcool.zeroExtend 64
    | 0x030 => v.eol.zeroExtend 64
    | 0x038 => .ofNat 64 (v.mgmtKey.toNat * 2 ^ 16 + v.mgmtEp.toNat)
    | 0x070 => v.uecnt.zeroExtend 64
    | 0x108 => .ofNat 64 (bitAt v.retBusy 31 + v.retRes.toNat)
    | 0x248 => .ofNat 64 (bitAt v.attBusy 31 + bitAt v.attValid 0)
    | _ => 0

/-- What a read of 8 aligned bytes of the management window gives; a write-only register and an offset without a register read as
0 (R303, R323, R344, R369). -/
def State.mgmtRead (s : State) (o : Nat) : DWord :=
  if o < 0x1000 then s.svc.readRegister o
  else if 0x0F0000 ≤ o && o < 0x0F00C0 then (s.bay ((o - 0x0F0000) / 8)).word
  else if 0x100000 ≤ o && o < 0x118000 then (s.part ((o - 0x100000) / 0x1000)).readBlock (o % 0x1000)
  else if 0x200000 ≤ o && o < 0x200200 then sget 0 s.fab.kbkt ((o - 0x200000) / 8)
  else if 0x500000 ≤ o && o < 0x501800 then (s.part ((o - 0x500000) / 0x100)).readTrans (o % 0x100)
  else s.fab.readRegister o

/-- What a read of 4 or 8 aligned bytes of the management window gives (R369). -/
def State.mgmtReadN (s : State) (o size : Nat) : DWord :=
  if size = 8 then s.mgmtRead o
  else .ofNat 64 (leNat (((leBytes 8 (s.mgmtRead (o / 8 * 8)).toNat).drop (o % 8)).take 4))

/-! ## Ingress (R310, R322) -/

/-- The fabric offset of the management window (R369). -/
def mgmtBase : Nat := 0x1FFE000000

/-- Whether a fabric offset lies in the management region (R369). -/
def inMgmt (offset : Nat) : Bool := decide (mgmtBase ≤ offset) && decide (offset < mgmtBase + 0x1000000)

/-- Whether an access to the management region is accepted (R369, R370). -/
def State.mgmtOk (s : State) (src key : Nat) : Bool :=
  s.svc.bootok && src == s.svc.mgmtEp.toNat && key == s.svc.mgmtKey.toNat

/-- The offset of the arrival register of a context (R322). -/
def arrivalOffset (asid : Nat) : Nat := 0x1FFFF00000 + 16 * asid

/-- Whether an offset is that of an arrival register. -/
def isArrival (offset : Nat) : Bool := decide (arrivalOffset 0 ≤ offset) && offset % 16 == 0

/-- The local address of an ingress offset: the first valid export entry of a partition that it hits, whose base lies in the
partition's bays (R316, Table 20.4). No entry covers the management and the arrival region. -/
def State.exportPa (s : State) (part offset : Nat) : Option Nat :=
  if inMgmt offset || decide (0x1FFFF00000 ≤ offset) then none
  else
    (List.range 64).findSome? fun x =>
      let e := (sget 0 s.fab.exptab x).toNat
      let base := e % 2 ^ 16 * 0x200000
      let size := e / 2 ^ 64 % 2 ^ 24 * 0x10000
      let pa := e / 2 ^ 16 % 2 ^ 36 * 0x10000 + (offset - base)
      if e / 2 ^ 127 == 1 && e / 2 ^ 122 % 32 == part && decide (base ≤ offset) && decide (offset < base + size) &&
          inDevice pa && (s.part part).hasBay (bayOf pa) && !inSpillQueue pa
      then some pa else none

/-- A flit takes a reserved slot of its key, a slot of the shared pool, or waits upstream (R310). -/
def Fabric.takeIn (f : Fabric) (q : Ingress) : Option Fabric :=
  let mine := f.slots.filter fun r => r.port == q.port && r.entry == q.entry
  let pool := (f.slots.filter fun r => r.port == q.port && r.pool).length
  let share := (sget 0 f.kbkt q.entry).toNat / 2 ^ 32 % 512
  if (mine.filter fun r => !r.pool).length < 16 then some { f with slots := f.slots ++ [{ q with pool := false }] }
  else if pool < 256 && decide ((mine.filter (·.pool)).length + 1 ≤ share) then
    some { f with slots := f.slots ++ [{ q with pool := true }] }
  else none

/-- The flits that wait upstream enter slots that are free for them, in their order. -/
def Fabric.admitAll : List Ingress → Fabric → Fabric
  | [], f => f
  | q :: rest, f =>
    match f.takeIn q with
    | some g => Fabric.admitAll rest { g with waiting := g.waiting.erase q }
    | none => Fabric.admitAll rest f

/-- A flit that has been served leaves its slot. -/
def State.leaveSlot (s : State) (q : Ingress) : State :=
  s.modFab fun f =>
    let g := { f with slots := f.slots.erase q }
    g.admitAll g.waiting

/-- One more in a counter that saturates at 2^16 - 1. -/
def sat16 (n : Nat) : Nat := min (n + 1) 65535

/-- Answers a fabric read. -/
def State.answer (s : State) (src key offset : Nat) (data : DWord) (poison : Bool) : State :=
  s.modFab fun f => { f with answers := f.answers ++ [⟨src, key, offset, data, poison⟩] }

/-- The bytes of a plain access of a flit: 4 or 8, and 0 where it asks something else. -/
def plainSize : Option RemoteAsk → Nat
  | none => 8
  | some (.half _) => 4
  | _ => 0

/-- Whether a flit is an access to the management window: from MGMTEP under MGMTKEY, a naturally aligned read or write of 4 or 8 bytes
(R369). -/
def State.mgmtFlit (s : State) (src key offset : Nat) (ask : Option RemoteAsk) : Bool :=
  inMgmt offset && s.mgmtOk src key && plainSize ask != 0 && offset % plainSize ask == 0

/-- A flit of another endpoint, of 14 bits, arrives at a live port. It is checked against the active key table: a key that matches no
valid entry discards it, a read being answered with poison, and advances KDROP of the port (R316, R322). The export table maps it as it
arrives (R324). Management
traffic is known by MGMTEP and MGMTKEY and has slots of its own, entry 64 (log entry 32). -/
def State.flitIn (s : State) (port src key offset : Nat) (write : Bool) (data : DWord) (ask : Option RemoteAsk) : Option State :=
  let entry := if s.mgmtFlit src key offset ask then some 64 else s.keyEntry key
  guarded (decide (port < 72) && s.fab.portLive.getLsbD port && decide (src < 16384) && decide (key < 65536)) <|
    match entry with
    | none =>
      let t := s.modFab fun f => { f with kdrop := sset 0 f.kdrop port (.ofNat 16 (sat16 (sget 0 f.kdrop port).toNat)) }
      if write then t else t.answer src key offset 0 true
    | some e =>
      let part := keyPart (sget 0 s.fab.keys e)
      let q : Ingress := {
        port := port, src := src, key := key, entry := e, copy := s.fab.kact, part := part, offset := offset, write := write
        data := data, ask := ask, place := s.exportPa part offset, pool := false }
      s.modFab fun f =>
        match f.takeIn q with
        | some g => g
        | none => { f with waiting := f.waiting ++ [q] }

/-- INGRESS_FLIT (R322). -/
def execIngressFlit (port src key offset : Nat) (write : Bool) (data : DWord) (s : State) :
    Host.Outcome State Fault Refusal :=
  fire s (s.flitIn port src key offset write data none)

/-- The plain flit that holds a slot, as it is named. -/
def State.slotOf (s : State) (src key offset : Nat) (write : Bool) (data : DWord) : Option Ingress :=
  s.fab.slots.find? fun r => r.src == src && r.key == key && r.offset == offset && r.write == write && r.data == data &&
    r.ask.isNone

/-- Advances DROP, and EXPMISS where `miss`, of the key entry that admitted a flit, in the copy that it was checked against (R324, Table
20.3). -/
def State.countDrop (s : State) (q : Ingress) (miss : Bool) : State :=
  let e := q.entry
  let x := (sget 0 (if q.copy then s.fab.keytab1 else s.fab.keytab0) e).toNat
  let m := if miss then sat16 (x / 2 ^ 32 % 65536) else x / 2 ^ 32 % 65536
  let y : DWord := .ofNat 64 (sat16 (x / 2 ^ 48) * 2 ^ 48 + m * 2 ^ 32 + x % 2 ^ 32)
  if 64 ≤ e then s
  else s.modFab fun f =>
    if q.copy then { f with keytab1 := sset 0 f.keytab1 e y } else { f with keytab0 := sset 0 f.keytab0 e y }

/-- Counts a write of a source under a key as performed (R319). -/
def State.countWrite (s : State) (src key : Nat) : State :=
  let k := 65536 * src + key
  s.modFab fun f => { f with performed := sset 0 f.performed k (sget 0 f.performed k + 1) }

/-! ## Exported memory and the management window (R316, R369) -/

/-- The sectors of a line. -/
def lineSectors (line : Nat) : List Nat := [0, 1, 2, 3].map (4 * line + ·)

/-- Whether the home slice can revoke every owner of a line now (R144, R148). -/
def State.mayRecallLine (s : State) (line : Nat) : Bool :=
  ((lineSectors line).all fun sec => !s.recalling sec) &&
    decide (s.busyEntries (sliceOf 0 (256 * line)) .recall + (s.foreign noOwner (lineSectors line)).length ≤ 8)

/-- The home slice gives another device a copy of a line: it is recorded as a holder, and no core owns the line any more, so that
every later write is an event of the slice (R316; DEDUCED, log entry 48). -/
def State.lendLine (s : State) (line src : Nat) : State :=
  let t := (lineSectors line).foldl (fun s sec => s.revoke sec) s
  t.modFab fun f => { f with holders := (line, src) :: f.holders.erase (line, src) }

/-- A copy of an exported line that another device held is gone (R316). -/
def State.returnLine (s : State) (line src : Nat) : State :=
  s.modFab fun f => { f with holders := f.holders.erase (line, src) }

/-- Whether the home slice may write some bytes of exported memory now: as for a local write event, and no word of it is pending or still
to be read by an engine (R144, R187, R316). -/
def State.mayWriteHome (s : State) (pa size : Nat) : Bool :=
  let ws := accessWords pa size
  s.mayRevoke (sliceOf 0 pa) noOwner ws && ws.all fun w => !s.homePending w && !s.wordUnread w

/-- The home slice makes a write event of another device on exported memory (R316, Table 8.2). -/
def State.remoteWrite (s : State) (pa size : Nat) (v : DWord) : State :=
  (s.homeWrite 0 (placed pa (leBytes size v.toNat))).bumpWseq (lineOf pa)

/-- A plain access of the fabric that holds a slot is served (R316, R369): in the management window; or a write is performed at the home
slices; a read is answered and its line held remotely; a request that hits nothing is answered with poison or dropped, and counted. -/
def State.servePlain (s : State) (q : Ingress) (size : Nat) (write : Bool) : Option State :=
  let t := s.leaveSlot q
  if q.entry == 64 then
    some (if write then ((t.mgmtWrite (q.offset - mgmtBase) size q.data).getD t).countWrite q.src q.key
      else t.answer q.src q.key q.offset (t.mgmtReadN (q.offset - mgmtBase) size) false)
  else
    match q.place with
    | none => some ((if write then t.countWrite q.src q.key else t.answer q.src q.key q.offset 0 true).countDrop q true)
    | some pa =>
      if write then guarded (s.mayWriteHome pa size) ((t.remoteWrite pa size q.data).countWrite q.src q.key)
      else guarded (s.mayRecallLine (lineOf pa) && (accessWords pa size).all fun w => !s.homePending w)
        ((t.lendLine (lineOf pa) q.src).answer q.src q.key q.offset (.ofNat 64 (s.readNat pa size)) (s.poisoned pa size))

/-- A read or write of 8 bytes that holds a slot is served (R316, R369). -/
def State.exportReq (s : State) (src key offset : Nat) (write : Bool) (data : DWord) : Option State :=
  match if write && isArrival offset then none else s.slotOf src key offset write data with
  | none => none
  | some q => s.servePlain q 8 write

/-- EXPORT_REQUEST (R316). -/
def execExportRequest (src key offset : Nat) (write : Bool) (data : DWord) (s : State) :
    Host.Outcome State Fault Refusal :=
  fire s (s.exportReq src key offset write data)

/-- A read or write of 4 bytes, a request of the fabric to own an exported line, or an atomic or a reduction on it, is served (R152, R316,
R369): a line is lent to an owner
once no other device holds it; an operation is a write event that answers with the old value, or with poison, unperformed, on a
poisoned word. -/
def State.serveAsk (s : State) (src key offset : Nat) : Option State :=
  match s.fab.slots.find? fun r => r.src == src && r.key == key && r.offset == offset && r.ask.isSome with
  | none => none
  | some q =>
    let t := s.leaveSlot q
    match q.place, q.ask with
    | _, some (.half w) => s.servePlain q 4 w
    | some pa, some .own =>
      guarded (s.mayRecallLine (lineOf pa) && s.fab.holders.all fun h => h.1 != lineOf pa || h.2 == src)
        (((t.dropMirrors (lineOf pa)).lendLine (lineOf pa) src).answer src key offset (.ofNat 64 (s.readNat pa 8))
          (s.poisoned pa 8))
    | some pa, some (.atomic op wide cmp) =>
      let size := if wide then 8 else 4
      let old : DWord := .ofNat 64 (s.readNat pa size)
      guarded (s.mayWriteHome pa size) <|
        if s.poisoned pa size then t.answer src key offset 0 true
        else (t.remoteWrite pa size (op.apply old q.data cmp)).answer src key offset old false
    | _, _ => some ((t.answer src key offset 0 true).countDrop q true)

/-- The directory home of fabric memory makes a write for another agent, or with no byte an invalidation: no core keeps the ownership
of the sectors, no slice a copy of the line (R315). A write waits for the engines that have registered its words, or are still to read
them (R187). -/
def State.foreignWrite (s : State) (pa : Nat) (bytes : List Byte) : Option State :=
  guarded (inFabric pa && inFabric (pa + bytes.length) &&
      (wordsOf (placed pa bytes)).all fun w => !s.homePending w && !s.wordUnread w) <|
    let lines := (List.range (bytes.length + 1)).map fun i => lineOf (pa + i)
    let t := (lines.eraseDups.flatMap lineSectors).foldl (fun s sec => s.revoke sec) s
    let t : State := { t with
      l2 := t.l2.filter fun e => !lines.contains e.line
      wfill := t.wfill.filter fun e => !lines.contains (e.2 / 64) }
    if bytes.isEmpty then t else (t.performWrite (placed pa bytes)).bumpWseq (lineOf pa)

/-! ## Remote arrivals (R70, R319) -/

/-- A write to RARRIVE that holds a slot is accepted only under a key of the context's partition; it is then held at the
ingress. -/
def State.remoteArrive (s : State) (asid src key count : Nat) (value : DWord) : Option State :=
  match s.slotOf src key (arrivalOffset asid) true value with
  | none => none
  | some q =>
    let t := s.leaveSlot q
    some (if s.partOf asid == q.part then
        t.modFab fun f => { f with arrivals := f.arrivals ++ [⟨asid, value, src, key, count⟩] }
      else (t.countDrop q false).countWrite src key)

/-- REMOTE_ARRIVE (R70, R322). -/
def execRemoteArrive (asid src key count : Nat) (value : DWord) (s : State) : Host.Outcome State Fault Refusal :=
  fire s (s.remoteArrive asid src key count value)

/-- Whether at least `count` writes of a source under a key have been performed, modulo 2^32 (R319). -/
def State.arrivalDue (s : State) (a : HeldArrival) : Bool :=
  let d : Word := sget 0 s.fab.performed (65536 * a.src + a.key) - .ofNat 32 a.count
  !d.msb

/-- Grid 0 of a context. -/
def State.gridZero (s : State) (asid : Nat) : Option Launch :=
  s.launches.find? fun l => l.asid == asid && l.status.isNone

/-- Whether an arrival must wait for the steering team: it is not yet placed, or it is out (R70, R355). -/
def State.steeringOut (s : State) (asid : Nat) : Bool :=
  match s.gridZero asid with
  | none => false
  | some l =>
    match s.team? l.lid 0 with
    | none => l.phase == .pending
    | some t => (match t.phase with | .saved _ _ _ => true | _ => false)

/-- The object on which an arrival falls, if R70 accepts it. -/
def State.arrivalObj (s : State) (asid : Nat) (value : DWord) : Option BarObj :=
  match s.gridZero asid with
  | none => none
  | some l =>
    match s.team? l.lid 0 with
    | none => none
    | some t =>
      if value.toNat / 0x20000 == 0 && t.phase == .resident then s.handleObj t.core l.lid 0 value else none

/-- The `n`th held arrival is performed (R319): it arrives on its handle, or is discarded with an interrupt of kind 5
(R70). -/
def State.arrivalPerform (s : State) (n : Nat) : Option State :=
  match s.fab.arrivals[n]? with
  | none => none
  | some a =>
    guarded (s.arrivalDue a && !s.steeringOut a.asid) <|
      let s := (s.modFab fun f => { f with arrivals := f.arrivals.eraseIdx n }).countWrite a.src a.key
      match s.arrivalObj a.asid a.value with
      | some b => s.arriveFar b
      | none => s.interrupt a.asid 5 (a.value.toNat % 65536)

/-- ARRIVAL_PERFORM (R319). -/
def execArrivalPerform (n : Nat) (s : State) : Host.Outcome State Fault Refusal := fire s (s.arrivalPerform n)

/-! ## The field gateway (R291) -/

/-- Word j of publish buffer `b` of a cell as a read of it gives it, and whether it is poisoned (R284, R345). -/
def State.published (s : State) (l : Launch) (v : CellView) (b j : Nat) : Word × Bool :=
  let k := 4 * j + v.cell
  let w := sget 0 (if b = 0 then v.buf0 else v.buf1) k
  match v.paged with
  | some i => (s.recordWord l i b k w, v.bad.contains (32 * b + k) || s.devicePoison l.asid (l.record.bufferAt i (32 * b + k)))
  | none => (w, v.bad.contains (32 * b + k))

/-- The gateway tells another device of a field what it knows of a cell of its own part: σ, whether it has exited and its publish
buffers, with their poison, as a strict write under the key of DEVMAP (R291, R322, R345; log entry 49). -/
def State.serveCell (s : State) (lid x y peer : Nat) : Option State :=
  match s.launch? lid with
  | none => none
  | some l =>
    match l.peers[peer]?, s.cellView l x y with
    | some (ep, key), some v =>
      let words := [0, 1].flatMap fun b => (List.range 8).map fun j => (8 * b + j, s.published l v b j)
      let told (l : Launch) : List (Nat × Nat × Nat × Nat) :=
        l.told.filter fun (e : Nat × Nat × Nat × Nat) => !(e.1 == peer && e.2.1 == x && e.2.2.1 == y)
      guarded (peer != l.self && l.deviceOf x y == l.self)
        ((s.post (.ofNat 64 (0x8000000000000 + ep * 2 ^ 37)) (.ofNat 16 key)
          (leBytes 8 v.sigma ++ [if v.exited then 1 else 0] ++ words.flatMap fun w => leBytes 4 w.2.1.toNat)
          ((words.filter (·.2.2)).map (·.1))).modLaunch lid fun l => { l with told := told l ++ [(peer, x, y, v.mark)] })
    | _, _ => none

/-- The gateway tells a device what it has yet to tell of the cells of the fields (R286, R291). -/
def State.serveDue (s : State) : Option State :=
  s.launches.findSome? fun l =>
    if l.isField then
      (s.untold l).bind fun c => s.serveCell l.lid c.1 c.2.1 c.2.2
    else none

/-- What the gateway hears of a cell of another device's part: from that device under the key of DEVMAP (R291, R322), and in the order
in which it was sent (R317): σ never falls and an exit stands. -/
def State.hear (s : State) (src key : Nat) (c : RemoteCell) : Option State :=
  match s.launch? c.lid with
  | none => none
  | some l =>
    let peer := l.deviceOf c.x c.y
    let mine (r : RemoteCell) : Bool := r.lid == c.lid && r.x == c.x && r.y == c.y
    guarded (peer != l.self && l.peers[peer]? == some (src, key) &&
        (s.remote.all fun r => !mine r || (decide (r.sigma ≤ c.sigma) && (!r.exited || c.exited))))
      (State.drainField { s with remote := s.remote.filter (fun (r : RemoteCell) => !mine r) ++ [c] } c.lid)

end Sys2Proof.Machine
end

