-- ==== Sys2Proof/Machine/LaneFloat.lean ====
section
/-! DEFINITION. The FP32 instructions of the lanes (R99 to R102). -/

namespace Sys2Proof.Machine

/-- A result word from a result code. -/
def wordOf (x : Nat × Flags) : Word × Flags := (BitVec.ofNat 32 x.1, x.2)

/-- A two-operand FP32 instruction in FPMODE (R99 to R101). -/
def fp2 (w : Word) (d : BitVec 8) (a b : Src) (f : Rnd → Word → Word → Word × Flags) (s : State) :
    Host.Outcome State Fault Refusal :=
  laneOp w d [a, b] false (fun r val _ => f r (val a) (val b)) s

/-- A two-operand FP32 instruction that also reads its destination (R99). -/
def fp3 (w : Word) (d : BitVec 8) (a b : Src) (f : Rnd → Word → Word → Word → Word × Flags) (s : State) :
    Host.Outcome State Fault Refusal :=
  laneOp w d [a, b] true (fun r val old => f r (val a) (val b) old) s

/-- A one-operand FP32 instruction (R102). -/
def fp1 (w : Word) (d : BitVec 8) (a : Src) (f : Rnd → Word → Word × Flags) (s : State) :
    Host.Outcome State Fault Refusal :=
  laneOp w d [a] false (fun r val _ => f r (val a)) s

/-- FADD: x + y (R99). -/
def execFadd (d : BitVec 8) (a b : Src) (s : State) : Host.Outcome State Fault Refusal :=
  fp2 (encode (.fadd d a b)) d a b (fun r x y => wordOf (Fmt.f32.add 32 r (readF32 x) (readF32 y))) s

/-- FSUB: x − y (R99). -/
def execFsub (d : BitVec 8) (a b : Src) (s : State) : Host.Outcome State Fault Refusal :=
  fp2 (encode (.fsub d a b)) d a b (fun r x y => wordOf (Fmt.f32.add 32 r (readF32 x) (readF32 y).neg)) s

/-- FMUL: x · y (R99). -/
def execFmul (d : BitVec 8) (a b : Src) (s : State) : Host.Outcome State Fault Refusal :=
  fp2 (encode (.fmul d a b)) d a b (fun r x y => wordOf (Fmt.f32.mul 32 r (readF32 x) (readF32 y))) s

/-- FMIN: minimumNumber (R100). -/
def execFmin (d : BitVec 8) (a b : Src) (s : State) : Host.Outcome State Fault Refusal :=
  fp2 (encode (.fmin d a b)) d a b (fun _ x y => wordOf (Fmt.f32.minMax 32 false x.toNat y.toNat)) s

/-- FMAX: maximumNumber (R100). -/
def execFmax (d : BitVec 8) (a b : Src) (s : State) : Host.Outcome State Fault Refusal :=
  fp2 (encode (.fmax d a b)) d a b (fun _ x y => wordOf (Fmt.f32.minMax 32 true x.toNat y.toNat)) s

/-- FFMA: x · y + d with one rounding (R99). -/
def execFfma (d : BitVec 8) (a b : Src) (s : State) : Host.Outcome State Fault Refusal :=
  fp3 (encode (.ffma d a b)) d a b (fun r x y old => wordOf (Fmt.f32.fma 32 r (readF32 x) (readF32 y) (readF32 old))) s

/-- FFNMA: d − x · y with one rounding (R99). -/
def execFfnma (d : BitVec 8) (a b : Src) (s : State) : Host.Outcome State Fault Refusal :=
  fp3 (encode (.ffnma d a b)) d a b (fun r x y old => wordOf (Fmt.f32.fnma 32 r (readF32 x) (readF32 y) (readF32 old))) s

/-- FRCP: 1 / x (R102). -/
def execFrcp (d : BitVec 8) (a : Src) (s : State) : Host.Outcome State Fault Refusal :=
  fp1 (encode (.frcp d a)) d a (fun r x => wordOf (recipF32 r (readF32 x))) s

/-- FSQRT: √x (R102). -/
def execFsqrt (d : BitVec 8) (a : Src) (s : State) : Host.Outcome State Fault Refusal :=
  fp1 (encode (.fsqrt d a)) d a (fun r x => wordOf (sqrtF32 r (readF32 x))) s

/-- FRSQ: 1 / √x (R102). -/
def execFrsq (d : BitVec 8) (a : Src) (s : State) : Host.Outcome State Fault Refusal :=
  fp1 (encode (.frsq d a)) d a (fun r x => wordOf (rsqrtF32 r (readF32 x))) s

/-- FEXP2: 2^x (R102). -/
def execFexp2 (d : BitVec 8) (a : Src) (s : State) : Host.Outcome State Fault Refusal :=
  fp1 (encode (.fexp2 d a)) d a (fun r x => wordOf (exp2F32 r (readF32 x))) s

/-- FLOG2: log2 x (R102). -/
def execFlog2 (d : BitVec 8) (a : Src) (s : State) : Host.Outcome State Fault Refusal :=
  fp1 (encode (.flog2 d a)) d a (fun r x => wordOf (log2F32 r (readF32 x))) s

/-- FCMPEQ: x = y (R101). -/
def execFcmpeq (d : BitVec 8) (a b : Src) (s : State) : Host.Outcome State Fault Refusal :=
  fp2 (encode (.fcmpeq d a b)) d a b (fun _ x y => cmpF32 FVal.eq false x y) s

/-- FCMPLT: x < y (R101). -/
def execFcmplt (d : BitVec 8) (a b : Src) (s : State) : Host.Outcome State Fault Refusal :=
  fp2 (encode (.fcmplt d a b)) d a b (fun _ x y => cmpF32 FVal.lt true x y) s

/-- FCMPLE: x ≤ y (R101). -/
def execFcmple (d : BitVec 8) (a b : Src) (s : State) : Host.Outcome State Fault Refusal :=
  fp2 (encode (.fcmple d a b)) d a b (fun _ x y => cmpF32 (fun u v => u.lt v || u.eq v) true x y) s

/-- FCMPUN: x or y is a NaN (R101). -/
def execFcmpun (d : BitVec 8) (a b : Src) (s : State) : Host.Outcome State Fault Refusal :=
  fp2 (encode (.fcmpun d a b)) d a b (fun _ x y => cmpF32 (fun u v => u.isNan || v.isNan) false x y) s

end Sys2Proof.Machine
end

