-- ==== Sys2Proof/Machine/LaneInt.lean ====
section
/-! DEFINITION. The integer, logic and data-movement instructions of the lanes (R96 to R98, R111 to R114, R164). -/

namespace Sys2Proof.Machine

/-- The value 1 or 0 of a compare. -/
def bit32 (b : Bool) : Word := if b then 1 else 0

/-- A value clamped to a range, modulo 2^32 (Table 6.2). -/
def clampWord (lo hi x : Int) : Word := BitVec.ofInt 32 (max lo (min hi x))

/-- The number of set bits. -/
def popCount {n : Nat} (x : BitVec n) : Nat := (List.range n).foldl (fun k i => if x.getLsbD i then k + 1 else k) 0

/-- The number of leading zeros: bits above the highest set bit. -/
def leadingZeros {n : Nat} (x : BitVec n) : Nat := if x = 0 then n else n - 1 - Nat.log2 x.toNat

/-- Bit i moves to bit n − 1 − i. -/
def bitReverse {n : Nat} (x : BitVec n) : BitVec n := x.reverse

/-- The absolute value modulo 2^n. -/
def absWord {n : Nat} (x : BitVec n) : BitVec n := if x.msb then -x else x

/-- An LR integer instruction: a function of the two operands (R96). -/
def laneAlu (w : Word) (d : BitVec 8) (a b : Src) (f : Word → Word → Word) (s : State) :
    Host.Outcome State Fault Refusal :=
  laneInt w d [a, b] false (fun val _ => f (val a) (val b)) s

/-- An LI or unary integer instruction: a function of its operand (R97, R98). -/
def laneUnary (w : Word) (d : BitVec 8) (a : Src) (f : Word → Word) (s : State) :
    Host.Outcome State Fault Refusal :=
  laneInt w d [a] false (fun val _ => f (val a)) s

/-- ADD: x + y (R96, Table 6.2). -/
def execAddLr (d : BitVec 8) (a b : Src) (s : State) : Host.Outcome State Fault Refusal :=
  laneAlu (encode (.addLr d a b)) d a b (fun x y => x + y) s

/-- SUB: x − y (R96, Table 6.2). -/
def execSubLr (d : BitVec 8) (a b : Src) (s : State) : Host.Outcome State Fault Refusal :=
  laneAlu (encode (.subLr d a b)) d a b (fun x y => x - y) s

/-- ADD.SAT.S (R96, Table 6.2). -/
def execAddSatS (d : BitVec 8) (a b : Src) (s : State) : Host.Outcome State Fault Refusal :=
  laneAlu (encode (.addSatS d a b)) d a b (fun x y => clampWord (-2147483648) 2147483647 (x.toInt + y.toInt)) s

/-- ADD.SAT.U (R96, Table 6.2). -/
def execAddSatU (d : BitVec 8) (a b : Src) (s : State) : Host.Outcome State Fault Refusal :=
  laneAlu (encode (.addSatU d a b)) d a b (fun x y => BitVec.ofNat 32 (min (x.toNat + y.toNat) 4294967295)) s

/-- SUB.SAT.S (R96, Table 6.2). -/
def execSubSatS (d : BitVec 8) (a b : Src) (s : State) : Host.Outcome State Fault Refusal :=
  laneAlu (encode (.subSatS d a b)) d a b (fun x y => clampWord (-2147483648) 2147483647 (x.toInt - y.toInt)) s

/-- SUB.SAT.U (R96, Table 6.2). -/
def execSubSatU (d : BitVec 8) (a b : Src) (s : State) : Host.Outcome State Fault Refusal :=
  laneAlu (encode (.subSatU d a b)) d a b (fun x y => BitVec.ofNat 32 (x.toNat - y.toNat)) s

/-- MUL (R96, Table 6.2). -/
def execMulLr (d : BitVec 8) (a b : Src) (s : State) : Host.Outcome State Fault Refusal :=
  laneAlu (encode (.mulLr d a b)) d a b (fun x y => x * y) s

/-- MULHI.U (R96, Table 6.2). -/
def execMulhiULr (d : BitVec 8) (a b : Src) (s : State) : Host.Outcome State Fault Refusal :=
  laneAlu (encode (.mulhiULr d a b)) d a b (fun x y => BitVec.ofNat 32 (x.toNat * y.toNat / 4294967296)) s

/-- MIN.S (R96, Table 6.2). -/
def execMinSLr (d : BitVec 8) (a b : Src) (s : State) : Host.Outcome State Fault Refusal :=
  laneAlu (encode (.minSLr d a b)) d a b (fun x y => if x.slt y then x else y) s

/-- MIN.U (R96, Table 6.2). -/
def execMinULr (d : BitVec 8) (a b : Src) (s : State) : Host.Outcome State Fault Refusal :=
  laneAlu (encode (.minULr d a b)) d a b (fun x y => if x.ult y then x else y) s

/-- MAX.S (R96, Table 6.2). -/
def execMaxSLr (d : BitVec 8) (a b : Src) (s : State) : Host.Outcome State Fault Refusal :=
  laneAlu (encode (.maxSLr d a b)) d a b (fun x y => if x.slt y then y else x) s

/-- MAX.U (R96, Table 6.2). -/
def execMaxULr (d : BitVec 8) (a b : Src) (s : State) : Host.Outcome State Fault Refusal :=
  laneAlu (encode (.maxULr d a b)) d a b (fun x y => if x.ult y then y else x) s

/-- AND (R96, Table 6.2). -/
def execAndLr (d : BitVec 8) (a b : Src) (s : State) : Host.Outcome State Fault Refusal :=
  laneAlu (encode (.andLr d a b)) d a b (fun x y => x &&& y) s

/-- OR (R96, Table 6.2). -/
def execOrLr (d : BitVec 8) (a b : Src) (s : State) : Host.Outcome State Fault Refusal :=
  laneAlu (encode (.orLr d a b)) d a b (fun x y => x ||| y) s

/-- XOR (R96, Table 6.2). -/
def execXorLr (d : BitVec 8) (a b : Src) (s : State) : Host.Outcome State Fault Refusal :=
  laneAlu (encode (.xorLr d a b)) d a b (fun x y => x ^^^ y) s

/-- SHL (R96, Table 6.2). -/
def execShlLr (d : BitVec 8) (a b : Src) (s : State) : Host.Outcome State Fault Refusal :=
  laneAlu (encode (.shlLr d a b)) d a b (fun x y => x <<< (y.toNat % 32)) s

/-- SHR.U (R96, Table 6.2). -/
def execShrULr (d : BitVec 8) (a b : Src) (s : State) : Host.Outcome State Fault Refusal :=
  laneAlu (encode (.shrULr d a b)) d a b (fun x y => x >>> (y.toNat % 32)) s

/-- SHR.S (R96, Table 6.2). -/
def execShrSLr (d : BitVec 8) (a b : Src) (s : State) : Host.Outcome State Fault Refusal :=
  laneAlu (encode (.shrSLr d a b)) d a b (fun x y => x.sshiftRight (y.toNat % 32)) s

/-- CMPEQ (R96, Table 6.2). -/
def execCmpeqLr (d : BitVec 8) (a b : Src) (s : State) : Host.Outcome State Fault Refusal :=
  laneAlu (encode (.cmpeqLr d a b)) d a b (fun x y => bit32 (x == y)) s

/-- CMPLT.S (R96, Table 6.2). -/
def execCmpltSLr (d : BitVec 8) (a b : Src) (s : State) : Host.Outcome State Fault Refusal :=
  laneAlu (encode (.cmpltSLr d a b)) d a b (fun x y => bit32 (x.slt y)) s

/-- CMPLT.U (R96, Table 6.2). -/
def execCmpltULr (d : BitVec 8) (a b : Src) (s : State) : Host.Outcome State Fault Refusal :=
  laneAlu (encode (.cmpltULr d a b)) d a b (fun x y => bit32 (x.ult y)) s

/-- CMPLE.S (R96, Table 6.2). -/
def execCmpleSLr (d : BitVec 8) (a b : Src) (s : State) : Host.Outcome State Fault Refusal :=
  laneAlu (encode (.cmpleSLr d a b)) d a b (fun x y => bit32 (x.sle y)) s

/-- CMPLE.U (R96, Table 6.2). -/
def execCmpleULr (d : BitVec 8) (a b : Src) (s : State) : Host.Outcome State Fault Refusal :=
  laneAlu (encode (.cmpleULr d a b)) d a b (fun x y => bit32 (x.ule y)) s

/-- ADD immediate (R97, Table 6.3). -/
def execAddLi (d : BitVec 8) (a : Src) (i : BitVec 8) (s : State) :
    Host.Outcome State Fault Refusal :=
  laneUnary (encode (.addLi d a i)) d a (fun x => x + i.signExtend 32) s

/-- AND immediate (R97, Table 6.3). -/
def execAndLi (d : BitVec 8) (a : Src) (i : BitVec 8) (s : State) :
    Host.Outcome State Fault Refusal :=
  laneUnary (encode (.andLi d a i)) d a (fun x => x &&& i.zeroExtend 32) s

/-- OR immediate (R97, Table 6.3). -/
def execOrLi (d : BitVec 8) (a : Src) (i : BitVec 8) (s : State) :
    Host.Outcome State Fault Refusal :=
  laneUnary (encode (.orLi d a i)) d a (fun x => x ||| i.zeroExtend 32) s

/-- XOR immediate (R97, Table 6.3). -/
def execXorLi (d : BitVec 8) (a : Src) (i : BitVec 8) (s : State) :
    Host.Outcome State Fault Refusal :=
  laneUnary (encode (.xorLi d a i)) d a (fun x => x ^^^ i.zeroExtend 32) s

/-- SHL immediate (R97, Table 6.3). -/
def execShlLi (d : BitVec 8) (a : Src) (i : BitVec 5) (s : State) :
    Host.Outcome State Fault Refusal :=
  laneUnary (encode (.shlLi d a i)) d a (fun x => x <<< i.toNat) s

/-- SHR.U immediate (R97, Table 6.3). -/
def execShrULi (d : BitVec 8) (a : Src) (i : BitVec 5) (s : State) :
    Host.Outcome State Fault Refusal :=
  laneUnary (encode (.shrULi d a i)) d a (fun x => x >>> i.toNat) s

/-- SHR.S immediate (R97, Table 6.3). -/
def execShrSLi (d : BitVec 8) (a : Src) (i : BitVec 5) (s : State) :
    Host.Outcome State Fault Refusal :=
  laneUnary (encode (.shrSLi d a i)) d a (fun x => x.sshiftRight i.toNat) s

/-- NOT (R98, Table 6.4). -/
def execNotL (d : BitVec 8) (a : Src) (s : State) : Host.Outcome State Fault Refusal :=
  laneUnary (encode (.notL d a)) d a (fun x => ~~~x) s

/-- NEG (R98, Table 6.4). -/
def execNegL (d : BitVec 8) (a : Src) (s : State) : Host.Outcome State Fault Refusal :=
  laneUnary (encode (.negL d a)) d a (fun x => -x) s

/-- ABS (R98, Table 6.4). -/
def execAbsL (d : BitVec 8) (a : Src) (s : State) : Host.Outcome State Fault Refusal :=
  laneUnary (encode (.absL d a)) d a (fun x => absWord x) s

/-- POPC (R98, Table 6.4). -/
def execPopcL (d : BitVec 8) (a : Src) (s : State) : Host.Outcome State Fault Refusal :=
  laneUnary (encode (.popcL d a)) d a (fun x => BitVec.ofNat 32 (popCount x)) s

/-- CLZ (R98, Table 6.4). -/
def execClzL (d : BitVec 8) (a : Src) (s : State) : Host.Outcome State Fault Refusal :=
  laneUnary (encode (.clzL d a)) d a (fun x => BitVec.ofNat 32 (leadingZeros x)) s

/-- BREV (R98, Table 6.4). -/
def execBrevL (d : BitVec 8) (a : Src) (s : State) : Host.Outcome State Fault Refusal :=
  laneUnary (encode (.brevL d a)) d a (fun x => bitReverse x) s

/-- SEXT.B (R164). -/
def execSextBL (d : BitVec 8) (a : Src) (s : State) : Host.Outcome State Fault Refusal :=
  laneUnary (encode (.sextBL d a)) d a (fun x => (x.truncate 8).signExtend 32) s

/-- SEXT.H (R164). -/
def execSextHL (d : BitVec 8) (a : Src) (s : State) : Host.Outcome State Fault Refusal :=
  laneUnary (encode (.sextHL d a)) d a (fun x => (x.truncate 16).signExtend 32) s

/-- MOV: bits are copied (R111). -/
def execMovL (d : BitVec 8) (a : Src) (s : State) : Host.Outcome State Fault Refusal :=
  laneUnary (encode (.movL d a)) d a (fun x => x) s

/-- MOVI: a sign-extended 16-bit immediate (R111). -/
def execMoviL (d : BitVec 8) (i : BitVec 16) (s : State) : Host.Outcome State Fault Refusal :=
  laneInt (encode (.moviL d i)) d [] false (fun _ _ => i.signExtend 32) s

/-- MOVH: the upper half is written, the lower kept (R111). -/
def execMovh (d : BitVec 8) (i : BitVec 16) (s : State) : Host.Outcome State Fault Refusal :=
  laneInt (encode (.movh d i)) d [] true (fun _ old => i ++ old.truncate 16) s

/-- SEL: selects by the old D (R112). -/
def execSel (d : BitVec 8) (a b : Src) (s : State) : Host.Outcome State Fault Refusal :=
  laneInt (encode (.sel d a b)) d [a, b] true (fun val old => if old != 0 then val a else val b) s

/-- One result byte of PERM (R114): `n` is its selector nibble. -/
def permByte (pool : BitVec 64) (n : Nat) : Byte :=
  let p : Byte := (pool >>> (8 * (n % 8))).truncate 8
  if n < 8 then p else if p.msb then 0xFF else 0

/-- PERM: assembles bytes by the selector in D (R114). -/
def execPerm (d : BitVec 8) (a b : Src) (s : State) : Host.Outcome State Fault Refusal :=
  laneInt (encode (.perm d a b)) d [a, b] true (fun val sel =>
    let pool := val b ++ val a
    let at' (k : Nat) := permByte pool (sel.toNat / 16 ^ k % 16)
    at' 3 ++ at' 2 ++ at' 1 ++ at' 0) s

/-- SHFL: reads a register of another lane of the crew (R113); A must be a lane register. Every lane reads before
any lane writes; a source lane of another split gives the value that it has now. -/
def execShfl (d : BitVec 8) (a b : Src) (s : State) : Host.Outcome State Fault Refusal :=
  let w := encode (.shfl d a b)
  match a with
  | .v n => issue s fun c p s => do
    let u : Uses := { srcs := [.v n, b], wr := [d.toNat] }
    checkUses w u false s c p
    checkPoison { u with srcs := [b] } s c p
    let src (l : Nat) : Nat := (s.op c l b).toNat % 32
    match (activeLanes c p).find? fun l => c.vpoison.contains (32 * (c.wb + n.toNat) + src l) with
    | some l => throw (.trap (ownTrap p .poison (1 + 256 * n.toNat + 65536 * l)))
    | none => pure ()
    let rs := (activeLanes c p).map fun l => (l, if c.absent.getLsbD (src l) then 0 else c.v (src l) n.toNat)
    pure ((s.modCrew c.cid fun k => k.setLanes d.toNat rs).advance c p)
  | _ => issue s fun _ p _ => .error (.trap (illopnd p w))

end Sys2Proof.Machine
end

