-- ==== Sys2Proof/Machine/Packed.lean ====
section
/-! DEFINITION. The packed FP16 and BF16 instructions and the conversions (R103 to R106). -/

namespace Sys2Proof.Machine

/-- Element `i` of a packed register (R76). -/
def element (x : Word) (i : Nat) : Half := (x >>> (16 * i)).truncate 16

/-- Both elements of a packed result, with the flags of both (R82, R103). -/
def packed (f : Nat → Nat × Flags) : Word × Flags :=
  (BitVec.ofNat 16 (f 1).1 ++ BitVec.ofNat 16 (f 0).1, (f 0).2 ||| (f 1).2)

/-- The value of a packed element in format FP16 or BF16. -/
def readHalf (m : Fmt) (x : Word) (i : Nat) : FVal := m.read 16 (element x i).toNat

/-- A packed instruction: each element from the elements of a, b and the old D (R103). -/
def packed3 (w : Word) (d : BitVec 8) (a b : Src) (readsD : Bool)
    (f : Rnd → Word → Word → Word → Nat → Nat × Flags) (s : State) :
    Host.Outcome State Fault Refusal :=
  laneOp w d [a, b] readsD (fun r val old => packed (f r (val a) (val b) old)) s

/-- HDOT2: x0 · y0 + x1 · y1 + d with one rounding (R104). -/
def dot2 (m : Fmt) (r : Rnd) (x y d : Word) : Word × Flags :=
  let p := exactMul (readHalf m x 0) (readHalf m y 0)
  let q := exactMul (readHalf m x 1) (readHalf m y 1)
  wordOf (Fmt.f32.sumRounded 32 r (p.2 ||| q.2) [p.1, q.1, readF32 d])

/-- HADD2.F16 (R103). -/
def execHadd2F16 (d : BitVec 8) (a b : Src) (s : State) : Host.Outcome State Fault Refusal :=
  packed3 (encode (.hadd2F16 d a b)) d a b false (fun r x y _ i =>
    Fmt.f16.add 16 r (readHalf .f16 x i) (readHalf .f16 y i)) s

/-- HADD2.BF16 (R103). -/
def execHadd2Bf16 (d : BitVec 8) (a b : Src) (s : State) : Host.Outcome State Fault Refusal :=
  packed3 (encode (.hadd2Bf16 d a b)) d a b false (fun r x y _ i =>
    Fmt.bf16.add 16 r (readHalf .bf16 x i) (readHalf .bf16 y i)) s

/-- HSUB2.F16 (R103). -/
def execHsub2F16 (d : BitVec 8) (a b : Src) (s : State) : Host.Outcome State Fault Refusal :=
  packed3 (encode (.hsub2F16 d a b)) d a b false (fun r x y _ i =>
    Fmt.f16.add 16 r (readHalf .f16 x i) (readHalf .f16 y i).neg) s

/-- HSUB2.BF16 (R103). -/
def execHsub2Bf16 (d : BitVec 8) (a b : Src) (s : State) : Host.Outcome State Fault Refusal :=
  packed3 (encode (.hsub2Bf16 d a b)) d a b false (fun r x y _ i =>
    Fmt.bf16.add 16 r (readHalf .bf16 x i) (readHalf .bf16 y i).neg) s

/-- HMUL2.F16 (R103). -/
def execHmul2F16 (d : BitVec 8) (a b : Src) (s : State) : Host.Outcome State Fault Refusal :=
  packed3 (encode (.hmul2F16 d a b)) d a b false (fun r x y _ i =>
    Fmt.f16.mul 16 r (readHalf .f16 x i) (readHalf .f16 y i)) s

/-- HMUL2.BF16 (R103). -/
def execHmul2Bf16 (d : BitVec 8) (a b : Src) (s : State) : Host.Outcome State Fault Refusal :=
  packed3 (encode (.hmul2Bf16 d a b)) d a b false (fun r x y _ i =>
    Fmt.bf16.mul 16 r (readHalf .bf16 x i) (readHalf .bf16 y i)) s

/-- HFMA2.F16 (R103). -/
def execHfma2F16 (d : BitVec 8) (a b : Src) (s : State) : Host.Outcome State Fault Refusal :=
  packed3 (encode (.hfma2F16 d a b)) d a b true (fun r x y old i =>
    Fmt.f16.fma 16 r (readHalf .f16 x i) (readHalf .f16 y i) (readHalf .f16 old i)) s

/-- HFMA2.BF16 (R103). -/
def execHfma2Bf16 (d : BitVec 8) (a b : Src) (s : State) : Host.Outcome State Fault Refusal :=
  packed3 (encode (.hfma2Bf16 d a b)) d a b true (fun r x y old i =>
    Fmt.bf16.fma 16 r (readHalf .bf16 x i) (readHalf .bf16 y i) (readHalf .bf16 old i)) s

/-- HMIN2.F16 (R103). -/
def execHmin2F16 (d : BitVec 8) (a b : Src) (s : State) : Host.Outcome State Fault Refusal :=
  packed3 (encode (.hmin2F16 d a b)) d a b false (fun _ x y _ i =>
    Fmt.f16.minMax 16 false (element x i).toNat (element y i).toNat) s

/-- HMIN2.BF16 (R103). -/
def execHmin2Bf16 (d : BitVec 8) (a b : Src) (s : State) : Host.Outcome State Fault Refusal :=
  packed3 (encode (.hmin2Bf16 d a b)) d a b false (fun _ x y _ i =>
    Fmt.bf16.minMax 16 false (element x i).toNat (element y i).toNat) s

/-- HMAX2.F16 (R103). -/
def execHmax2F16 (d : BitVec 8) (a b : Src) (s : State) : Host.Outcome State Fault Refusal :=
  packed3 (encode (.hmax2F16 d a b)) d a b false (fun _ x y _ i =>
    Fmt.f16.minMax 16 true (element x i).toNat (element y i).toNat) s

/-- HMAX2.BF16 (R103). -/
def execHmax2Bf16 (d : BitVec 8) (a b : Src) (s : State) : Host.Outcome State Fault Refusal :=
  packed3 (encode (.hmax2Bf16 d a b)) d a b false (fun _ x y _ i =>
    Fmt.bf16.minMax 16 true (element x i).toNat (element y i).toNat) s

/-- HDOT2.F16 (R104). -/
def execHdot2F16 (d : BitVec 8) (a b : Src) (s : State) : Host.Outcome State Fault Refusal :=
  fp3 (encode (.hdot2F16 d a b)) d a b (dot2 .f16) s

/-- HDOT2.BF16 (R104). -/
def execHdot2Bf16 (d : BitVec 8) (a b : Src) (s : State) : Host.Outcome State Fault Refusal :=
  fp3 (encode (.hdot2Bf16 d a b)) d a b (dot2 .bf16) s

/-- The exact value of a CVT source (R105): an integer, or a floating value. -/
def cvtSource (code : Nat) (x : Word) : FVal :=
  match code with
  | 0 => .fin x.msb x.toInt.natAbs 0
  | 1 => .fin false x.toNat 0
  | 2 => readF32 x
  | 3 => readF16 (x.truncate 16)
  | _ => readBf16 (x.truncate 16)

/-- CVT to the type of code `code` in mode `r` (R89, R91, R105). -/
def cvtTo (r : Rnd) (code : Nat) (x : FVal) : Word × Flags :=
  match code with
  | 0 => let y := toInteger r (-2147483648) 2147483647 x; (BitVec.ofInt 32 y.1, y.2)
  | 1 => let y := toInteger r 0 4294967295 x; (BitVec.ofInt 32 y.1, y.2)
  | 2 => wordOf (Fmt.f32.convert 32 r x)
  | 3 => wordOf (Fmt.f16.convert 16 r x)
  | _ => wordOf (Fmt.bf16.convert 16 r x)

/-- Whether CVT has the pair of type codes (R48). -/
def cvtLegal (t u : Nat) : Bool := decide (t < 5) && decide (u < 5) && t != u && decide (1 < t ∨ 1 < u)

/-- CVT (R105): the encoded mode applies; the pairs that R48 names raise ILLOP. -/
def execCvt (d : BitVec 8) (a : Src) (m : Rnd) (t u : BitVec 3) (s : State) :
    Host.Outcome State Fault Refusal :=
  let w := encode (.cvt d a m t u)
  if cvtLegal t.toNat u.toNat then
    laneOp w d [a] false (fun _ val _ => cvtTo m t.toNat (cvtSource u.toNat (val a))) s
  else issue s fun _ p _ => .error (.trap (illop p w))

/-- CVT2.F16: element 0 from a, element 1 from b (R106). -/
def execCvt2F16 (d : BitVec 8) (a b : Src) (s : State) : Host.Outcome State Fault Refusal :=
  packed3 (encode (.cvt2F16 d a b)) d a b false (fun r x y _ i =>
    Fmt.f16.convert 16 r (readF32 (if i == 0 then x else y))) s

/-- CVT2.BF16: element 0 from a, element 1 from b (R106). -/
def execCvt2Bf16 (d : BitVec 8) (a b : Src) (s : State) : Host.Outcome State Fault Refusal :=
  packed3 (encode (.cvt2Bf16 d a b)) d a b false (fun r x y _ i =>
    Fmt.bf16.convert 16 r (readF32 (if i == 0 then x else y))) s

end Sys2Proof.Machine
end

