-- ==== Sys2Proof/Machine/Quant.lean ====
section
/-! DEFINITION. Block quantisation: QSCALE, QPACK and QUNPK (R107 to R110). -/

namespace Sys2Proof.Machine

/-- The exponent of the largest finite value of a format code (R108). -/
def emaxOf : Nat → Int
  | 0 => 2
  | 1 => 4
  | 2 => 2
  | 3 => 8
  | _ => 15

/-- The descriptor that QSCALE writes from the values of a group in element order, with its flags (R108). With no finite value among
them the spec gives no M and so no SCALE: it is `open'` (DESIGN CHOICE, a free value; log entry 42). -/
def qscaleOf (open' : Nat) (fmt : Nat) (len : Bool) (vals : List FVal) : Word × Flags :=
  let bad := vals.any FVal.isNan || (fmt != 4 && vals.any FVal.isInf)
  let finite := vals.filter fun v => !v.isNan && !v.isInf
  let big := finite.foldl (fun m v => if m.lt v.abs then v.abs else m) (.fin false 0 0)
  let sc : Int :=
    if bad then 255
    else if finite.isEmpty then open' % 255
    else
      match big with
      | .fin _ 0 _ => 127
      | .fin _ m e => max 0 (min 254 (e + (Nat.log2 m : Int) - emaxOf fmt + 127))
      | _ => 255
  let sp :=
    if fmt == 0 && sc != 255 && !big.isZero then
      match finite.find? fun v => v.abs.eq big with
      | some x => (narrowOf 3 (x.scale (127 - sc))).1
      | none => 0
    else 0
  let inv := vals.any FVal.isSnan || (fmt != 4 && vals.any FVal.isInf)
  (BitVec.ofNat 32 (sc.toNat + 256 * sp + 65536 * fmt + (if len then 524288 else 0)),
    if inv then Flags.invalid else Flags.none)

/-- A SCALE that the spec leaves open: a function of the format and of the operand bits of its group (R92; log entry 42). -/
def openScale (fmt : Nat) (xs : List Word) : Nat := (Config.openScale (fmt :: xs.map (·.toNat))).toNat

/-- QSCALE: the descriptor of each group of 16 lanes, to the group's active lanes (R108; log entry 42). -/
def execQscale (d : BitVec 8) (a : Src) (f : BitVec 3) (l : BitVec 1) (s : State) :
    Host.Outcome State Fault Refusal :=
  let w := encode (.qscale d a f l)
  let long := l == 1#1
  issue s fun c p s => do
    need (decide (f.toNat < 5)) (illop p w)
    let rd := match a with
      | .v n => if long then [n.toNat + 1, n.toNat + 2] else []
      | _ => []
    need (!long || (match a with | .v _ => true | _ => false)) (illopnd p w)
    checkAll w { srcs := [a], rd := rd, wr := [d.toNat] } s c p
    let group (g : Nat) := (activeLanes c p).filter fun i => i / 16 == g
    let bits (ls : List Nat) : List Word := (ls.map fun i => s.op c i a) ++ rd.flatMap fun n => ls.map fun i => c.v i n
    let ds := [0, 1].map fun g =>
      let ls := group g
      (ls, qscaleOf (openScale f.toNat (bits ls)) f.toNat long ((bits ls).map readF32))
    let rs := ds.flatMap fun e => e.1.map fun i => (i, e.2.1)
    let fl := orFlags (ds.map fun e => if e.1.isEmpty then 0 else e.2.2)
    pure ((s.modCrew c.cid fun k => (k.setLanes d.toNat rs).raiseFlags fl).advance c p)

/-- Code(x, b): the element code of a value under a descriptor, with its flags (R109). -/
def qcode (x b : Word) : Nat × Flags :=
  let f := b.toNat / 65536 % 8
  let sp := b.toNat / 256 % 256
  let sc := b.toNat % 256
  if 4 < f then (0, Flags.invalid)
  else if sc == 255 then (0, Flags.none)
  else
    let y := (readF32 x).scale (127 - sc)
    let r := narrowOf f y
    let v := narrowValue 3 sp
    if f == 0 && !y.isNan && !y.isInf && !v.isNan then
      let far (z : FVal) : FVal := (exactSum .rn [y, z.neg]).1.abs
      if (far v).lt (far (narrowValue 0 r.1)) then
        (8, if y.eq v then Flags.none else Flags.ofRound false false true)
      else r
    else r

/-- QPACK: the seat's four codes in one field (R109). Codes of lanes with descriptors of other widths enter as they are, as the
pseudocode has it: DEDUCED, the comment beside it says that bits above 4w are 0 (log entry 43). -/
def execQpack (d : BitVec 8) (a b : Src) (s : State) : Host.Outcome State Fault Refusal :=
  let w := encode (.qpack d a b)
  issue s fun c p s => do
    checkAll w { srcs := [a, b], wr := [d.toNat] } s c p
    let act := activeLanes c p
    let code (i : Nat) : Nat × Flags := qcode (s.op c i a) (s.op c i b)
    let rs := act.map fun i =>
      let f := (s.op c i b).toNat / 65536 % 8
      let field := [0, 1, 2, 3].foldl (fun x j =>
        let m := 4 * (i / 4) + j
        if act.contains m then x ||| (code m).1 <<< (narrowWidth f * j) else x) 0
      (i, if 4 < f then (0 : Word) else BitVec.ofNat 32 field)
    let fl := orFlags (act.map fun i => (code i).2)
    pure ((s.modCrew c.cid fun k => (k.setLanes d.toNat rs).raiseFlags fl).advance c p)

/-- The FP32 value that QUNPK gives to lane `l` (R110). -/
def qunpkOf (l : Nat) (x b : Word) : Word × Flags :=
  let f := b.toNat / 65536 % 8
  if 4 < f then (0x7FC00000, Flags.invalid)
  else
    let n := narrowWidth f
    wordOf (Fmt.f32.deliver 32 .rn
      (blockElem f (x.toNat / 2 ^ (n * (l % 4)) % 2 ^ n) (b.toNat % 256) (b.toNat / 256 % 256)))

/-- QUNPK: decodes a lane's element of a seat field (R110). -/
def execQunpk (d : BitVec 8) (a b : Src) (s : State) : Host.Outcome State Fault Refusal :=
  let w := encode (.qunpk d a b)
  issue s fun c p s => do
    checkAll w { srcs := [a, b], wr := [d.toNat] } s c p
    let rs := (activeLanes c p).map fun i => (i, qunpkOf i (s.op c i a) (s.op c i b))
    pure ((s.modCrew c.cid fun k =>
      (k.setLanes d.toNat (rs.map fun r => (r.1, r.2.1))).raiseFlags
        (orFlags (rs.map fun r => r.2.2))).advance c p)

end Sys2Proof.Machine
end

