-- ==== Sys2Proof/Machine/Matrix.lean ====
section
/-! DEFINITION. The matrix engine: its queue and tiles, the checks of its five instructions at issue, the chunk sum, and the
events of its execution (R117 to R132). -/

namespace Sys2Proof.Machine

/-! ## Element formats and the chunk sum (R121 to R123, R130) -/

/-- The elements of one row or column in a chunk (Table 7.2). -/
def chunkK : Nat → Nat
  | 0 => 96
  | 1 => 64
  | 2 => 64
  | 3 => 48
  | 4 => 48
  | 5 => 48
  | 6 => 96
  | _ => 24

/-- The width in bits of an operand element. -/
def matWidth (fmt : Nat) : Nat :=
  match fmt with
  | 5 => 8
  | 6 => 4
  | 7 => 16
  | 8 => 16
  | _ => narrowWidth fmt

/-- The class of a format: narrow floating, integer, 16-bit floating (R123). -/
def matClass (fmt : Nat) : Nat := if fmt < 5 then 0 else if fmt < 7 then 1 else 2

/-- The block length of a narrow operand. -/
def blockLen (long : Bool) : Nat := if long then 48 else 16

/-- A format byte's FMT and LEN (Table 7.3). -/
def fmtOf (b : Nat) : Nat × Bool := (b % 16, b.testBit 4)

/-- The number at an offset of a format block. -/
def fbAt (fb : List Byte) (off n : Nat) : Nat := leNat ((fb.drop off).take n)

/-- The first block that a chunk reads, and how many blocks it reads, of an operand (R122). -/
def headerRun (fmt : Nat) (long : Bool) (koff : Nat) : Nat × Nat :=
  let l := blockLen long
  let lo := koff / l
  (lo, (koff + chunkK fmt - 1) / l - lo + 1)

/-- The scratchpad addresses of the headers of 64 rows that a chunk reads (R122). -/
def headerAddrs (fmt : Nat) (long : Bool) (base pitch koff : Nat) : List Nat :=
  let run := headerRun fmt long koff
  (List.range 64).flatMap fun r => (List.range run.2).map fun i => base + r * pitch + 2 * (run.1 + i)

/-- Element `j` of a row of 48 bytes: its bits (R86, Table 7.2). -/
def elemBits (fmt : Nat) (row : List Byte) (j : Nat) : Nat :=
  let w := matWidth fmt
  leNat row / 2 ^ (w * j) % 2 ^ w

/-- An integer element (R90). -/
def intElem (fmt bits : Nat) : Int :=
  let w := matWidth fmt
  if bits < 2 ^ (w - 1) then bits else (bits : Int) - 2 ^ w

/-- A floating element, unscaled (R87, R130). -/
def floatElem (fmt bits special : Nat) : FVal :=
  if fmt = 7 then Fmt.bf16.read 16 bits
  else if fmt = 8 then Fmt.f16.read 16 bits
  else if fmt = 0 ∧ bits = 0b1000 then narrowValue 3 special
  else narrowValue fmt bits

/-- What the chunk sum gathers: whether a NaN came up, the signs of the infinities, and the partials, each an integer
times a power of two. -/
structure ChunkAcc where
  nan   : Bool
  infs  : List Bool
  parts : List (Int × Int)

/-- Adds one product to the sum of its segment, an integer count of `2^-400`, or notes a NaN or an infinity. -/
def addProduct (a b : FVal) (acc : Int) (t : ChunkAcc) : Int × ChunkAcc :=
  match a, b with
  | .nan _, _ => (acc, { t with nan := true })
  | _, .nan _ => (acc, { t with nan := true })
  | .inf s, .inf u => (acc, { t with infs := (s != u) :: t.infs })
  | .inf s, .fin u m _ => (acc, if m = 0 then { t with nan := true } else { t with infs := (s != u) :: t.infs })
  | .fin s m _, .inf u => (acc, if m = 0 then { t with nan := true } else { t with infs := (s != u) :: t.infs })
  | .fin s m e, .fin u n g =>
    let x : Int := (m * n * 2 ^ (e + g + 400).toNat : Nat)
    (if s != u then acc - x else acc + x, t)

/-- The segments of a chunk: runs of elements with one header of A and one of B; without headers each element is its
own (R130). Each element has a label, and a segment is a run of equal labels. -/
def addSegments (elems : List (Nat × Int × Bool × FVal × FVal)) (open' : Option (Nat × Int × Int)) (t : ChunkAcc) :
    ChunkAcc :=
  let close (t : ChunkAcc) (o : Option (Nat × Int × Int)) : ChunkAcc :=
    match o with
    | some (_, acc, sc) => { t with parts := (acc, sc - 400) :: t.parts }
    | none => t
  match elems with
  | [] => close t open'
  | (label, sc, bad, a, b) :: rest =>
    let t := if bad then { t with nan := true } else t
    match open' with
    | some (k, acc, sc') =>
      if k = label then
        let r := addProduct a b acc t
        addSegments rest (some (k, r.1, sc')) r.2
      else
        let r := addProduct a b 0 (close t open')
        addSegments rest (some (label, r.1, sc)) r.2
    | none =>
      let r := addProduct a b 0 t
      addSegments rest (some (label, r.1, sc)) r.2

/-- The leading bit of a nonzero partial. -/
def leadOf (p : Int × Int) : Int := (Nat.log2 p.1.natAbs : Int) + p.2

/-- A partial cut toward zero to a count of `2^q`. -/
def cutTo (q : Int) (p : Int × Int) : Int :=
  let m : Nat := p.1.natAbs
  let k : Nat := if q ≤ p.2 then m * 2 ^ (p.2 - q).toNat else m / 2 ^ (q - p.2).toNat
  if p.1 < 0 then -(k : Int) else k

/-- The chunk as a value: the partials cut to the 160-bit window of the largest and summed exactly (R130). -/
def ChunkAcc.value (t : ChunkAcc) : FVal :=
  if t.nan || (t.infs.contains true && t.infs.contains false) then .nan false
  else
    match t.infs with
    | s :: _ => .inf s
    | [] =>
      match t.parts.filter fun p => p.1 != 0 with
      | [] => .fin false 0 0
      | p :: ps =>
        let e := ps.foldl (fun m x => if m < leadOf x then leadOf x else m) (leadOf p)
        let q := e - 159
        let x := (p :: ps).foldl (fun n x => n + cutTo q x) (0 : Int)
        .fin (decide (x < 0)) x.natAbs q

/-- The scale and special byte of element `j` of a row: its header, or (127, 0) for formats without (R122, R130). -/
def headerOf (fmt : Nat) (long : Bool) (koff : Nat) (hdrs : List Half) (row j : Nat) : Nat × Nat × Nat :=
  if fmt < 5 then
    let run := headerRun fmt long koff
    let i := (koff + j) / blockLen long - run.1
    let h := (hdrs.getD (row * run.2 + i) 0).toNat
    (i, h % 256, h / 256)
  else (j, 127, 0)

/-- One output word of an MMA (R130). -/
def mmaWord (fb a b : List Byte) (hdrA hdrB : List Half) (d : Word) (r c : Nat) : Word :=
  let fa := fmtOf (fbAt fb 0 1)
  let fB := fmtOf (fbAt fb 1 1)
  let rowA := (a.drop (48 * r)).take 48
  let rowB := (b.drop (48 * c)).take 48
  let js := List.range (chunkK fa.1)
  if matClass fa.1 = 1 then
    let s := js.foldl (fun (s : Int) j =>
      s + intElem fa.1 (elemBits fa.1 rowA j) * intElem fB.1 (elemBits fB.1 rowB j)) 0
    d + BitVec.ofInt 32 s
  else
    let elems := js.map fun j =>
      let ha := headerOf fa.1 fa.2 (fbAt fb 0x0A 2) hdrA r j
      let hb := headerOf fB.1 fB.2 (fbAt fb 0x12 2) hdrB c j
      (1000 * ha.1 + hb.1, ((ha.2.1 + hb.2.1 : Nat) : Int) - 254, ha.2.1 == 0xFF || hb.2.1 == 0xFF,
        floatElem fa.1 (elemBits fa.1 rowA j) ha.2.2, floatElem fB.1 (elemBits fB.1 rowB j) hb.2.2)
    let ch := (addSegments elems none ⟨false, [], []⟩).value
    BitVec.ofNat 32 (Fmt.f32.add 32 .rn (readF32 d) ch).1

/-! ## Issue (R117, R118, R123 to R129) -/

/-- The tile that a context has bound to a number on a core. -/
def State.tile? (s : State) (core asid num : Nat) : Option Tile :=
  s.tiles.find? fun t => t.core == core && t.asid == asid && t.num == num

/-- Whether the issuing team owns a tile number (R117). -/
def State.ownsTile (s : State) (c : Crew) (num : Nat) : Bool :=
  match s.tile? c.core c.asid num with
  | some t => t.lid == c.lid && t.team == c.team
  | none => false

/-- Whether the matrix queue of a core admits a command of a context (R118, R311). -/
def State.matRoom (s : State) (core asid : Nat) : Bool :=
  let q := s.mats.filter fun k => k.core == core && !k.ran
  s.admitsEntry core asid q.length fun d => (q.filter (·.asid == d)).length

/-- Whether a claim of a free physical tile is admitted (R117). -/
def State.claimRoom (s : State) (c : Crew) : Bool :=
  let bound := (s.tiles.filter (·.core == c.core)).length
  let others := ((s.crews.filter fun k => k.core == c.core && k.asid != c.asid).map (·.asid)).eraseDups
  decide (bound < 16) && (decide (s.tilesHeld c.core c.asid < 4) ||
    decide ((others.map fun d => 4 - s.tilesHeld c.core d).sum < 16 - bound))

/-- Raises ENGARG 6 where the issuing team does not own the tile (R125). -/
def needTile (s : State) (c : Crew) (p : Split) (num : Nat) : Except Stop Unit :=
  need (s.ownsTile c num) (engArg p 0 6 0)

/-- Puts a matrix command into the queue, with the ranges that it writes and those that it has yet to read; a mark (R351). -/
def enterMat (s : State) (c : Crew) (p : Split) (tile : Nat) (op : MatOp) (handle : Nat)
    (spans reads : List (Nat × Nat)) : Res := do
  await (s.matRoom c.core c.asid)
  let (s, p) ← fenceGate s c p
  let s := State.bumpId { s with mats := s.mats ++ [{
    core := c.core, asid := c.asid, lid := c.lid, team := c.team, tile := tile, op := op, handle := handle
    ran := false, spans := spans, reads := reads, hint := c.shint, seq := s.nextId }] }
  pure ((s.advance c p).takeMark c.cid p.sid id)

/-- A claim of a tile number (R117): ENGARG 5 where another team owns it; a new claim waits for admission. -/
def claimTile (s : State) (c : Crew) (p : Split) (num : Nat) : Except Stop State :=
  match s.tile? c.core c.asid num with
  | some _ => do
    need (s.ownsTile c num) (engArg p 0 5 0)
    pure s
  | none => do
    await (s.claimRoom c)
    pure { s with tiles := s.tiles ++ [{
      core := c.core, asid := c.asid, num := num, lid := c.lid, team := c.team, words := [], poison := [] }] }

/-- The ranges that a command has yet to read: all of them where a word of one is pending for an engine (R121). -/
def State.unread (s : State) (c : Crew) (rs : List (Nat × Nat)) : List (Nat × Nat) :=
  if rs.any fun r => s.scratchPending c.lid c.team r.1 r.2 then rs else []

/-- The breaks of R123 in a format block: reason 4. -/
def badBlock (s : State) (c : Crew) (fb : List Byte) : Bool :=
  let side (o : Nat) (h : Nat) : Bool :=
    let f := fmtOf (fbAt fb o 1)
    let base := fbAt fb h 4
    let pitch := fbAt fb (h + 4) 2
    let koff := fbAt fb (h + 6) 2
    decide (32 ≤ fbAt fb o 1) || decide (8 < f.1) || (decide (5 ≤ f.1) && (f.2 || base != 0 || pitch != 0 || koff != 0)) ||
    (decide (f.1 < 5) && (headerAddrs f.1 f.2 base pitch koff).any fun a =>
      decide (s.scratchSize c.lid c.team < a + 2))
  let fa := (fmtOf (fbAt fb 0 1)).1
  let fB := (fmtOf (fbAt fb 1 1)).1
  fbAt fb 2 2 != 0 || fbAt fb 0x14 12 != 0 || side 0 4 || side 1 0x0C ||
    matClass fa != matClass fB || matWidth fa != matWidth fB || (matClass fa == 1 && fa != fB)

/-- The first header of a format block that leaves the team's allocation. -/
def outHeader (s : State) (c : Crew) (fb : List Byte) : Option Nat :=
  let side (o h : Nat) : List Nat :=
    let f := fmtOf (fbAt fb o 1)
    if f.1 < 5 then headerAddrs f.1 f.2 (fbAt fb h 4) (fbAt fb (h + 4) 2) (fbAt fb (h + 6) 2) else []
  (side 0 4 ++ side 1 0x0C).find? fun a => decide (s.scratchSize c.lid c.team < a + 2)

/-- Whether a header base or pitch of a format block is odd (R123). -/
def oddHeader (fb : List Byte) : Bool :=
  [fbAt fb 4 4, fbAt fb 8 2, fbAt fb 0x0C 4, fbAt fb 0x10 2].any fun x => x % 2 != 0

/-- What a format block's fault names in TADDR: the first of AHB, AHP, BHB and BHP that is odd (R123), or the header outside the
allocation, else 0 (R125; log entry 39). -/
def blockAddr (s : State) (c : Crew) (fb : List Byte) (reason : Nat) : DWord :=
  .ofNat 64 ((if reason = 2 then [fbAt fb 4 4, fbAt fb 8 2, fbAt fb 0x0C 4, fbAt fb 0x10 2].find? fun x => x % 2 != 0 else outHeader s c fb).getD 0)

/-- The header addresses of the rows of A and the columns of B that an MMA reads (R122). -/
def mmaHeaders (fb : List Byte) : List Nat × List Nat :=
  let fa := fmtOf (fbAt fb 0 1)
  let fB := fmtOf (fbAt fb 1 1)
  (if fa.1 < 5 then headerAddrs fa.1 fa.2 (fbAt fb 4 4) (fbAt fb 8 2) (fbAt fb 0x0A 2) else [],
    if fB.1 < 5 then headerAddrs fB.1 fB.2 (fbAt fb 0x0C 4) (fbAt fb 0x10 2) (fbAt fb 0x12 2) else [])

/-- The scratchpad ranges that an MMA reads: A and B first, then its headers (R121). -/
def mmaReads (fb : List Byte) (a b : Nat) : List (Nat × Nat) :=
  (a, 3072) :: (b, 3072) :: ((mmaHeaders fb).1 ++ (mmaHeaders fb).2).map fun x => (x, 2)

/-- The halfwords at scratchpad addresses. -/
def State.headers (s : State) (lid tid : Nat) (as : List Nat) : List Half :=
  as.map fun a => .ofNat 16 (leNat (s.scratchRead lid tid a 2))

/-- The rows of 48 bytes at a base that hold poison, their headers included (R120). -/
def State.badRows (s : State) (lid tid base : Nat) (hdrs : List Nat) : List Nat :=
  let per := hdrs.length / 64
  (List.range 64).filter fun r => s.scratchPoisoned lid tid (base + 48 * r) 48 ||
    ((hdrs.drop (per * r)).take per).any fun a => s.scratchPoisoned lid tid a 2

/-- An MMA with its operands as they stand (R121). -/
def State.readMma (s : State) (lid tid : Nat) (fb : List Byte) (a b : Nat) : MatOp :=
  let h := mmaHeaders fb
  .mma fb (s.scratchRead lid tid a 3072) (s.scratchRead lid tid b 3072) (s.headers lid tid h.1) (s.headers lid tid h.2)
    (s.badRows lid tid a h.1) (s.badRows lid tid b h.2)

/-- An ACC.LD with its image as it stands (R121). -/
def State.readImage (s : State) (lid tid a : Nat) : MatOp :=
  .ld (s.scratchRead lid tid a 16384) ((List.range 4096).filter fun k => s.scratchPoisoned lid tid (a + 4 * k) 4)

/-- MMA (R121 to R126). -/
def execMma (a b cc e : BitVec 6) (s : State) : Host.Outcome State Fault Refusal :=
  issue s fun c p s => do
    let u : Uses := { us := [a.toNat, b.toNat, cc.toNat, e.toNat] }
    checkUses (encode (.mma a b cc e)) u true s c p
    let t := (c.u a.toNat).toNat
    let xa := c.u b.toNat
    let xb := c.u cc.toNat
    let xf := c.u e.toNat
    engCheck p 0 0 [(decide (16 ≤ t), 1)]
    engCheck p 1 xa [(xa.toNat % 16 != 0, 2), (s.outside c xa 3072, 3)]
    engCheck p 2 xb [(xb.toNat % 16 != 0, 2), (s.outside c xb 3072, 3)]
    engCheck p 3 xf [(xf.toNat % 32 != 0, 2), (s.outside c xf 32, 3)]
    await (s.splitQuiet c p)
    await (!s.scratchPending c.lid c.team xf.toNat 32)
    let fb := s.scratchRead c.lid c.team xf.toNat 32
    engCheckAt p 3 (blockAddr s c fb) [(oddHeader fb, 2), (badBlock s c fb, 4)]
    needTile s c p t
    checkPoison u s c p
    need (!s.scratchPoisoned c.lid c.team xf.toNat 32) ⟨.poison, p.pc, xf, 2⟩
    enterMat s c p t (s.readMma c.lid c.team fb xa.toNat xb.toNat) 0 [] (s.unread c (mmaReads fb xa.toNat xb.toNat))

/-- ACC.ZERO (R127). -/
def execAccZero (a : BitVec 6) (s : State) : Host.Outcome State Fault Refusal :=
  issue s fun c p s => do
    let u : Uses := { us := [a.toNat] }
    checkUses (encode (.accZero a)) u true s c p
    let t := (c.u a.toNat).toNat
    engCheck p 0 0 [(decide (16 ≤ t), 1)]
    let s ← claimTile s c p t
    checkPoison u s c p
    enterMat s c p t .zero 0 [] []

/-- ACC.LD (R127): the tile image is read at issue (R121). -/
def execAccLd (a b : BitVec 6) (s : State) : Host.Outcome State Fault Refusal :=
  issue s fun c p s => do
    let u : Uses := { us := [a.toNat, b.toNat] }
    checkUses (encode (.accLd a b)) u true s c p
    let t := (c.u a.toNat).toNat
    let x := c.u b.toNat
    engCheck p 0 0 [(decide (16 ≤ t), 1)]
    engCheck p 1 x [(x.toNat % 16 != 0, 2), (s.outside c x 16384, 3)]
    let s ← claimTile s c p t
    checkPoison u s c p
    await (s.splitQuiet c p)
    enterMat s c p t (s.readImage c.lid c.team x.toNat) 0 [] (s.unread c [(x.toNat, 16384)])

/-- The bytes of the data that ACC.ST writes (R128): OUT and MXFMT as in Table 7.6. -/
def stBytes (out mx : Nat) : Nat :=
  if out < 2 then 16384 else if out < 4 then 8192 else 512 * narrowWidth mx

/-- ACC.ST (R128): the destination words are pending from issue on (R121). -/
def execAccSt (a b cc e : BitVec 6) (s : State) : Host.Outcome State Fault Refusal :=
  issue s fun c p s => do
    let u : Uses := { us := [a.toNat, b.toNat, cc.toNat, e.toNat] }
    checkUses (encode (.accSt a b cc e)) u true s c p
    let x := (c.u a.toNat).toNat
    let dst := c.u b.toNat
    let y := c.u cc.toNat
    let h := c.u e.toNat
    let out := x / 16 % 8
    let mx := x / 256 % 8
    let hdr : DWord := y >>> 32
    engCheck p 0 0 [(decide (2 ^ 12 ≤ x) || x.testBit 11 || x.testBit 7 || decide (4 < out) ||
      (if out = 4 then decide (4 < mx) else mx != 0), 1)]
    engCheck p 1 dst [(dst.toNat % 16 != 0, 2), (s.outside c dst (stBytes out mx), 3)]
    if out = 4 then engCheck p 2 hdr [(hdr.toNat % 2 != 0, 2), (s.outside c hdr 512, 3)] else pure ()
    engCheck p 3 0 [(h.toNat / 0x20000 != 0, 1)]
    needTile s c p (x % 16)
    checkDone s c p h
    checkPoison u s c p
    await (s.splitQuiet c p)
    enterMat s c p (x % 16) (.st x dst.toNat (y.truncate 32) hdr.toNat) (h.toNat % 0x10000)
      ((dst.toNat, stBytes out mx) :: if out = 4 then [(hdr.toNat, 512)] else []) []

/-- ACC.RED (R129): translates its 64 lines at issue and registers its words. -/
def execAccRed (a b cc e : BitVec 6) (s : State) : Host.Outcome State Fault Refusal :=
  issue s fun c p s => do
    let u : Uses := { us := [a.toNat, b.toNat, cc.toNat, e.toNat] }
    checkUses (encode (.accRed a b cc e)) u true s c p
    let (s, p) ← fenceGate s c p
    let x := (c.u a.toNat).toNat
    let dst := c.u b.toNat
    let pitch := c.u cc.toNat
    let h := c.u e.toNat
    let rows := (List.range 64).map fun r => dst + pitch * BitVec.ofNat 64 r
    let foreign := rows.find? (s.beyondDevice c)
    engCheck p 0 0 [(decide (2 ^ 7 ≤ x) || decide (2 ≤ x / 16 % 8), 1)]
    engCheckAt p 1 (fun r => if r = 7 then foreign.getD dst else dst) [(dst.toNat % 256 != 0, 2), (foreign.isSome, 7)]
    engCheck p 2 0 [(pitch.toNat % 256 != 0, 7)]
    engCheck p 3 0 [(h.toNat / 0x20000 != 0, 1)]
    needTile s c p (x % 16)
    checkDone s c p h
    let (s, pas) ← engTranslate s c p 1 .write rows
    checkPoison u s c p
    await (s.splitQuiet c p)
    let words := pas.flatMap fun pa => (List.range 64).map fun k => pa / 4 + k
    let s := s.registerWords true words
    enterMat s c p (x % 16) (.red (if x / 16 % 8 = 0 then .addF else .add) pas) (h.toNat % 0x10000) [] []

/-! ## Execution (R118, R126 to R129) -/

/-- Whether the words that a command has yet to read are pending for a command registered before it (R121). -/
def State.readsPending (s : State) (q : MatCmd) : Bool :=
  let t := { s with
    copies := s.copies.filter fun k => decide (k.seq < q.seq)
    mats := s.mats.filter fun k => decide (k.seq < q.seq)
    shreqs := s.shreqs.filter fun k => decide (k.seq < q.seq) }
  q.reads.any fun r => t.scratchPending q.lid q.team r.1 r.2

/-- A command with the operands that it had yet to read (R121). -/
def State.readLate (s : State) (q : MatCmd) : MatCmd :=
  match q.op, q.reads with
  | .mma fb _ _ _ _ _ _, a :: b :: _ => { q with op := s.readMma q.lid q.team fb a.1 b.1, reads := [] }
  | .ld _ _, a :: _ => { q with op := s.readImage q.lid q.team a.1, reads := [] }
  | _, _ => q

/-- The command that the engine of a core executes next (R118): one whose operands are still pending makes the engine wait
(R121), and no engine executes anything while the device is too hot (R368). -/
def State.matHead (s : State) (core : Nat) : Option MatCmd :=
  match s.mats.find? fun k => k.core == core && !k.ran with
  | some q => if s.svc.hot || s.readsPending q then none else some (s.readLate q)
  | none => none

/-- The command is over: it leaves the queue, and the tiles of a field's team that has left the core meanwhile are free (R68, R117). -/
def State.matDone (s : State) (q : MatCmd) : State :=
  State.freeHostTiles { s with mats := s.mats.filter (·.seq != q.seq) } q.core q.lid q.team

/-- Writes a bound tile. -/
def State.modTile (s : State) (q : MatCmd) (f : Tile → Tile) : State :=
  { s with tiles := s.tiles.map fun t =>
      if t.core == q.core && t.asid == q.asid && t.num == q.tile then f t else t }

/-- The words of a tile from a function of their index. -/
def tileWords (f : Nat → Word) : SMap Word :=
  (List.range 4096).filterMap fun k => if f k = 0 then none else some (k, f k)

/-- The engine adds one chunk into every word of a tile (R126, R130); poison of a word or an operand stays (R120). -/
def State.mmaRun (s : State) (core : Nat) : Option State :=
  match s.matHead core with
  | none => none
  | some q =>
    match q.op with
    | .mma fb a b ha hb badA badB =>
      some ((s.modTile q fun t => { t with
        words := tileWords fun k => mmaWord fb a b ha hb (sget 0 t.words k) (k / 64) (k % 64)
        poison := (List.range 4096).filter fun k =>
          t.poison.contains k || badA.contains (k / 64) || badB.contains (k % 64) }).matDone q)
    | _ => none

/-- MMA_EXEC (R130). -/
def execMmaExec (core : Nat) (s : State) : Host.Outcome State Fault Refusal := fire s (s.mmaRun core)

/-- The engine clears a tile (R127). -/
def State.zeroRun (s : State) (core : Nat) : Option State :=
  match s.matHead core with
  | none => none
  | some q =>
    match q.op with
    | .zero => some ((s.modTile q fun t => { t with words := [], poison := [] }).matDone q)
    | _ => none

/-- ACC_ZERO_EXEC (R127). -/
def execAccZeroExec (core : Nat) (s : State) : Host.Outcome State Fault Refusal := fire s (s.zeroRun core)

/-- The engine loads a tile image (R127). -/
def State.ldRun (s : State) (core : Nat) : Option State :=
  match s.matHead core with
  | none => none
  | some q =>
    match q.op with
    | .ld image bad => some ((s.modTile q fun t => { t with
        words := tileWords fun k => .ofNat 32 (leNat ((image.drop (4 * k)).take 4))
        poison := bad }).matDone q)
    | _ => none

/-- ACC_LD_EXEC (R127). -/
def execAccLdExec (core : Nat) (s : State) : Host.Outcome State Fault Refusal := fire s (s.ldRun core)

/-- x · σ rounded to FP32 in RN (R128). -/
def scaled (x sc : Word) : Word := .ofNat 32 (Fmt.f32.mul 32 .rn (readF32 x) (readF32 sc)).1

/-- The descriptor of a block of 16 scaled words (R108, R128). -/
def blockDesc (mx : Nat) (ys : List Word) : Word := (qscaleOf (openScale mx ys) mx false (ys.map readF32)).1

/-- The bytes of a block's codes, element 0 lowest (R86, R128). -/
def blockCodes (mx : Nat) (ys : List Word) : List Byte :=
  let d := blockDesc mx ys
  let w := narrowWidth mx
  let n := ys.foldr (fun y n => (qcode y d).1 + 2 ^ w * n) 0
  leBytes (2 * w) n

/-- The blocks of 16 of a tile, row by row, scaled. -/
def tileBlocks (t : Tile) (sc : Word) : List (List Word) :=
  (List.range 256).map fun k => (List.range 16).map fun i => scaled (sget 0 t.words (16 * k + i)) sc

/-- The data and the headers that an ACC.ST writes (R128). -/
def storeBytes (out mx : Nat) (t : Tile) (sc : Word) : List Byte × List Byte :=
  let all (f : Word → List Byte) : List Byte := (List.range 4096).flatMap fun k => f (sget 0 t.words k)
  match out with
  | 0 => (all fun x => leBytes 4 (scaled x sc).toNat, [])
  | 1 => (all fun x => leBytes 4 x.toNat, [])
  | 2 => (all fun x => leBytes 2 (Fmt.f16.mul 16 .rn (readF32 x) (readF32 sc)).1, [])
  | 3 => (all fun x => leBytes 2 (Fmt.bf16.mul 16 .rn (readF32 x) (readF32 sc)).1, [])
  | _ =>
    ((tileBlocks t sc).flatMap (blockCodes mx), (tileBlocks t sc).flatMap fun b => leBytes 2 (blockDesc mx b).toNat)

/-- Where the poisoned words of a tile go in the destination of ACC.ST (R120): byte ranges of its data and headers. -/
def storePoison (out mx : Nat) (t : Tile) (dst hdr : Nat) : List (Nat × Nat) :=
  t.poison.flatMap fun k =>
    match out with
    | 0 => [(dst + 4 * k, 4)]
    | 1 => [(dst + 4 * k, 4)]
    | 2 => [(dst + 2 * k, 2)]
    | 3 => [(dst + 2 * k, 2)]
    | _ => [(dst + 2 * narrowWidth mx * (k / 16), 2 * narrowWidth mx), (hdr + 2 * (k / 16), 2)]

/-- The engine converts a tile and writes it to scratchpad, behind what was registered there before (R128, R187). -/
def State.stRun (s : State) (core : Nat) : Option State :=
  match s.matHead core with
  | none => none
  | some q =>
    match q.op with
    | .st ctl dst sc hdr =>
      match s.tile? q.core q.asid q.tile with
      | none => some (s.matDone q)
      | some t =>
        let early := { s with
          copies := s.copies.filter fun k => decide (k.seq < q.seq)
          mats := s.mats.filter fun k => decide (k.seq < q.seq) }
        guarded (q.spans.all fun r => !early.scratchPending q.lid q.team r.1 r.2 && !early.scratchUnread q.lid q.team r.1 r.2) <|
          let bs := storeBytes (ctl / 16 % 8) (ctl / 256 % 8) t sc
          let s := { s with mats := s.mats.map fun (k : MatCmd) =>
            if k.seq == q.seq then { k with ran := true, spans := [] } else k }
          let s := (s.scratchWrite q.lid q.team dst bs.1).scratchWrite q.lid q.team hdr bs.2
          (storePoison (ctl / 16 % 8) (ctl / 256 % 8) t dst hdr).foldl
            (fun s r => s.scratchPoison q.lid q.team r.1 r.2) s
    | _ => none

/-- ACC_ST_EXEC (R128). -/
def execAccStExec (core : Nat) (s : State) : Host.Outcome State Fault Refusal := fire s (s.stRun core)

/-- An ACC.ST whose bytes are written delivers their count (R128). -/
def State.stComplete (s : State) (core : Nat) : Option State :=
  match s.mats.find? fun k => k.core == core && k.ran && (match k.op with | .st _ _ _ _ => true | _ => false) with
  | none => none
  | some q =>
    match q.op with
    | .st ctl _ _ _ =>
      let out := ctl / 16 % 8
      some ((s.matDone q).deliverTo q.core q.lid q.team q.handle
        (stBytes out (ctl / 256 % 8) + if out = 4 then 512 else 0))
    | _ => none

/-- ACC_ST_COMPLETE (R128). -/
def execAccStComplete (core : Nat) (s : State) : Host.Outcome State Fault Refusal := fire s (s.stComplete core)

/-- The engine sends a tile's additions to the slice adders (R129). -/
def State.redRun (s : State) (core : Nat) : Option State :=
  match s.matHead core with
  | none => none
  | some q =>
    match q.op with
    | .red o rows =>
      match s.tile? q.core q.asid q.tile with
      | none => some (s.matDone q)
      | some t =>
        let s := { s with mats := s.mats.map fun (k : MatCmd) =>
          if k.seq == q.seq then { k with ran := true } else k }
        some (pushAdds s ((List.zip (List.range 64) rows).flatMap fun r => (List.range 64).map fun i =>
          let k := 64 * r.1 + i
          { id := 0, core := q.core, cid := q.seq, sid := 0, asid := q.asid, addr := r.2 + 4 * i, op := o, wide := false
            x := (sget 0 t.words k).zeroExtend 64, cmp := 0, poison := t.poison.contains k, ret := none
            acq := none, job := some q.seq, hint := q.hint, seq := q.seq, anc := [], rel := none, paid := false }))
    | _ => none

/-- ACC_RED_EXEC (R129). -/
def execAccRedExec (core : Nat) (s : State) : Host.Outcome State Fault Refusal := fire s (s.redRun core)

/-- An ACC.RED all of whose additions are performed delivers 16,384 bytes (R129). -/
def State.redComplete (s : State) (core : Nat) : Option State :=
  match s.mats.find? fun k => k.core == core && k.ran && (match k.op with | .red _ _ => true | _ => false) &&
      s.adds.all fun a => a.job != some k.seq with
  | none => none
  | some q => some ((s.matDone q).deliverTo q.core q.lid q.team q.handle 16384)

/-- ACC_RED_COMPLETE (R129). -/
def execAccRedComplete (core : Nat) (s : State) : Host.Outcome State Fault Refusal := fire s (s.redComplete core)

end Sys2Proof.Machine
end

