-- ==== Sys2Proof/Machine/Uniform.lean ====
section
/-! DEFINITION. The uniform scalar instructions (R50, R52). -/

namespace Sys2Proof.Machine

/-- The value 1 or 0 of a uniform compare. -/
def bit64 (b : Bool) : DWord := if b then 1 else 0

/-- A uniform ALU instruction: a function of S(A) and S(B) (R50). -/
def uniAlu (w : Word) (d a b : BitVec 6) (f : DWord → DWord → DWord) (s : State) :
    Host.Outcome State Fault Refusal :=
  uniOp w d [a, b] (fun u => f (u a) (u b)) s

/-- A uniform unary or immediate instruction: a function of S(A) (R52). -/
def uniUnary (w : Word) (d a : BitVec 6) (f : DWord → DWord) (s : State) :
    Host.Outcome State Fault Refusal :=
  uniOp w d [a] (fun u => f (u a)) s

/-- ADD (R50, Table 3.10). -/
def execAddU (d a b : BitVec 6) (s : State) : Host.Outcome State Fault Refusal :=
  uniAlu (encode (.addU d a b)) d a b (fun x y => x + y) s

/-- SUB (R50, Table 3.10). -/
def execSubU (d a b : BitVec 6) (s : State) : Host.Outcome State Fault Refusal :=
  uniAlu (encode (.subU d a b)) d a b (fun x y => x - y) s

/-- MUL (R50, Table 3.10). -/
def execMulU (d a b : BitVec 6) (s : State) : Host.Outcome State Fault Refusal :=
  uniAlu (encode (.mulU d a b)) d a b (fun x y => x * y) s

/-- MULHI.S (R50, Table 3.10). -/
def execMulhiSU (d a b : BitVec 6) (s : State) : Host.Outcome State Fault Refusal :=
  uniAlu (encode (.mulhiSU d a b)) d a b (fun x y => BitVec.ofInt 64 (x.toInt * y.toInt / 18446744073709551616)) s

/-- MULHI.U (R50, Table 3.10). -/
def execMulhiUU (d a b : BitVec 6) (s : State) : Host.Outcome State Fault Refusal :=
  uniAlu (encode (.mulhiUU d a b)) d a b (fun x y => BitVec.ofNat 64 (x.toNat * y.toNat / 18446744073709551616)) s

/-- AND (R50, Table 3.10). -/
def execAndU (d a b : BitVec 6) (s : State) : Host.Outcome State Fault Refusal :=
  uniAlu (encode (.andU d a b)) d a b (fun x y => x &&& y) s

/-- OR (R50, Table 3.10). -/
def execOrU (d a b : BitVec 6) (s : State) : Host.Outcome State Fault Refusal :=
  uniAlu (encode (.orU d a b)) d a b (fun x y => x ||| y) s

/-- XOR (R50, Table 3.10). -/
def execXorU (d a b : BitVec 6) (s : State) : Host.Outcome State Fault Refusal :=
  uniAlu (encode (.xorU d a b)) d a b (fun x y => x ^^^ y) s

/-- ANDN (R50, Table 3.10). -/
def execAndnU (d a b : BitVec 6) (s : State) : Host.Outcome State Fault Refusal :=
  uniAlu (encode (.andnU d a b)) d a b (fun x y => x &&& ~~~y) s

/-- SHL (R50, Table 3.10). -/
def execShlU (d a b : BitVec 6) (s : State) : Host.Outcome State Fault Refusal :=
  uniAlu (encode (.shlU d a b)) d a b (fun x y => x <<< (y.toNat % 64)) s

/-- SHR.U (R50, Table 3.10). -/
def execShrUU (d a b : BitVec 6) (s : State) : Host.Outcome State Fault Refusal :=
  uniAlu (encode (.shrUU d a b)) d a b (fun x y => x >>> (y.toNat % 64)) s

/-- SHR.S (R50, Table 3.10). -/
def execShrSU (d a b : BitVec 6) (s : State) : Host.Outcome State Fault Refusal :=
  uniAlu (encode (.shrSU d a b)) d a b (fun x y => x.sshiftRight (y.toNat % 64)) s

/-- MIN.S (R50, Table 3.10). -/
def execMinSU (d a b : BitVec 6) (s : State) : Host.Outcome State Fault Refusal :=
  uniAlu (encode (.minSU d a b)) d a b (fun x y => if x.slt y then x else y) s

/-- MIN.U (R50, Table 3.10). -/
def execMinUU (d a b : BitVec 6) (s : State) : Host.Outcome State Fault Refusal :=
  uniAlu (encode (.minUU d a b)) d a b (fun x y => if x.ult y then x else y) s

/-- MAX.S (R50, Table 3.10). -/
def execMaxSU (d a b : BitVec 6) (s : State) : Host.Outcome State Fault Refusal :=
  uniAlu (encode (.maxSU d a b)) d a b (fun x y => if x.slt y then y else x) s

/-- MAX.U (R50, Table 3.10). -/
def execMaxUU (d a b : BitVec 6) (s : State) : Host.Outcome State Fault Refusal :=
  uniAlu (encode (.maxUU d a b)) d a b (fun x y => if x.ult y then y else x) s

/-- CMPEQ (R50, Table 3.10). -/
def execCmpeqU (d a b : BitVec 6) (s : State) : Host.Outcome State Fault Refusal :=
  uniAlu (encode (.cmpeqU d a b)) d a b (fun x y => bit64 (x == y)) s

/-- CMPNE (R50, Table 3.10). -/
def execCmpneU (d a b : BitVec 6) (s : State) : Host.Outcome State Fault Refusal :=
  uniAlu (encode (.cmpneU d a b)) d a b (fun x y => bit64 (x != y)) s

/-- CMPLT.S (R50, Table 3.10). -/
def execCmpltSU (d a b : BitVec 6) (s : State) : Host.Outcome State Fault Refusal :=
  uniAlu (encode (.cmpltSU d a b)) d a b (fun x y => bit64 (x.slt y)) s

/-- CMPLT.U (R50, Table 3.10). -/
def execCmpltUU (d a b : BitVec 6) (s : State) : Host.Outcome State Fault Refusal :=
  uniAlu (encode (.cmpltUU d a b)) d a b (fun x y => bit64 (x.ult y)) s

/-- CMPLE.S (R50, Table 3.10). -/
def execCmpleSU (d a b : BitVec 6) (s : State) : Host.Outcome State Fault Refusal :=
  uniAlu (encode (.cmpleSU d a b)) d a b (fun x y => bit64 (x.sle y)) s

/-- CMPLE.U (R50, Table 3.10). -/
def execCmpleUU (d a b : BitVec 6) (s : State) : Host.Outcome State Fault Refusal :=
  uniAlu (encode (.cmpleUU d a b)) d a b (fun x y => bit64 (x.ule y)) s

/-- MOV (R52). -/
def execMovU (d a : BitVec 6) (s : State) : Host.Outcome State Fault Refusal :=
  uniUnary (encode (.movU d a)) d a (fun x => x) s

/-- NOT (R52). -/
def execNotU (d a : BitVec 6) (s : State) : Host.Outcome State Fault Refusal :=
  uniUnary (encode (.notU d a)) d a (fun x => ~~~x) s

/-- NEG (R52). -/
def execNegU (d a : BitVec 6) (s : State) : Host.Outcome State Fault Refusal :=
  uniUnary (encode (.negU d a)) d a (fun x => -x) s

/-- ABS (R52). -/
def execAbsU (d a : BitVec 6) (s : State) : Host.Outcome State Fault Refusal :=
  uniUnary (encode (.absU d a)) d a (fun x => absWord x) s

/-- POPC (R52). -/
def execPopcU (d a : BitVec 6) (s : State) : Host.Outcome State Fault Refusal :=
  uniUnary (encode (.popcU d a)) d a (fun x => BitVec.ofNat 64 (popCount x)) s

/-- CLZ (R52). -/
def execClzU (d a : BitVec 6) (s : State) : Host.Outcome State Fault Refusal :=
  uniUnary (encode (.clzU d a)) d a (fun x => BitVec.ofNat 64 (leadingZeros x)) s

/-- BREV (R52). -/
def execBrevU (d a : BitVec 6) (s : State) : Host.Outcome State Fault Refusal :=
  uniUnary (encode (.brevU d a)) d a (fun x => bitReverse x) s

/-- SEXT.B (R52). -/
def execSextBU (d a : BitVec 6) (s : State) : Host.Outcome State Fault Refusal :=
  uniUnary (encode (.sextBU d a)) d a (fun x => (x.truncate 8).signExtend 64) s

/-- SEXT.H (R52). -/
def execSextHU (d a : BitVec 6) (s : State) : Host.Outcome State Fault Refusal :=
  uniUnary (encode (.sextHU d a)) d a (fun x => (x.truncate 16).signExtend 64) s

/-- SEXT.W (R52). -/
def execSextWU (d a : BitVec 6) (s : State) : Host.Outcome State Fault Refusal :=
  uniUnary (encode (.sextWU d a)) d a (fun x => (x.truncate 32).signExtend 64) s

/-- ADD immediate (R52). -/
def execAddUi (d a : BitVec 6) (i : BitVec 12) (s : State) : Host.Outcome State Fault Refusal :=
  uniUnary (encode (.addUi d a i)) d a (fun x => x + i.signExtend 64) s

/-- AND immediate (R52). -/
def execAndUi (d a : BitVec 6) (i : BitVec 12) (s : State) : Host.Outcome State Fault Refusal :=
  uniUnary (encode (.andUi d a i)) d a (fun x => x &&& i.zeroExtend 64) s

/-- OR immediate (R52). -/
def execOrUi (d a : BitVec 6) (i : BitVec 12) (s : State) : Host.Outcome State Fault Refusal :=
  uniUnary (encode (.orUi d a i)) d a (fun x => x ||| i.zeroExtend 64) s

/-- XOR immediate (R52). -/
def execXorUi (d a : BitVec 6) (i : BitVec 12) (s : State) : Host.Outcome State Fault Refusal :=
  uniUnary (encode (.xorUi d a i)) d a (fun x => x ^^^ i.zeroExtend 64) s

/-- SHL immediate (R52). -/
def execShlUi (d a i : BitVec 6) (s : State) : Host.Outcome State Fault Refusal :=
  uniUnary (encode (.shlUi d a i)) d a (fun x => x <<< i.toNat) s

/-- SHR.U immediate (R52). -/
def execShrUUi (d a i : BitVec 6) (s : State) : Host.Outcome State Fault Refusal :=
  uniUnary (encode (.shrUUi d a i)) d a (fun x => x >>> i.toNat) s

/-- SHR.S immediate (R52). -/
def execShrSUi (d a i : BitVec 6) (s : State) : Host.Outcome State Fault Refusal :=
  uniUnary (encode (.shrSUi d a i)) d a (fun x => x.sshiftRight i.toNat) s

/-- CMPEQ immediate (R52). -/
def execCmpeqUi (d a : BitVec 6) (i : BitVec 12) (s : State) : Host.Outcome State Fault Refusal :=
  uniUnary (encode (.cmpeqUi d a i)) d a (fun x => bit64 (x == i.signExtend 64)) s

/-- CMPLT.S immediate (R52). -/
def execCmpltSUi (d a : BitVec 6) (i : BitVec 12) (s : State) : Host.Outcome State Fault Refusal :=
  uniUnary (encode (.cmpltSUi d a i)) d a (fun x => bit64 (x.slt (i.signExtend 64))) s

/-- CMPLT.U immediate (R52). -/
def execCmpltUUi (d a : BitVec 6) (i : BitVec 12) (s : State) : Host.Outcome State Fault Refusal :=
  uniUnary (encode (.cmpltUUi d a i)) d a (fun x => bit64 (x.ult (i.signExtend 64))) s

/-- MOVI: a sign-extended 18-bit immediate (R52). -/
def execMoviU (d : BitVec 6) (i : BitVec 18) (s : State) : Host.Outcome State Fault Refusal :=
  uniOp (encode (.moviU d i)) d [] (fun _ => i.signExtend 64) s

/-- MOVX: shifts S(D) left by 18 and ORs the immediate in (R52). -/
def execMovx (d : BitVec 6) (i : BitVec 18) (s : State) : Host.Outcome State Fault Refusal :=
  uniUnary (encode (.movx d i)) d d (fun x => x <<< 18 ||| i.zeroExtend 64) s

end Sys2Proof.Machine
end

