-- ==== Sys2Proof/Machine/Dispatch.lean ====
section
/-! DEFINITION. The meaning of each instruction and event: one call per constructor. -/

namespace Sys2Proof.Machine

def exec (i : Instr) (s : State) : Host.Outcome State Fault Refusal :=
  match i with
  | .addLr d a b => Sys2Proof.Machine.execAddLr d a b s
  | .addLi d a im => Sys2Proof.Machine.execAddLi d a im s
  | .subLr d a b => Sys2Proof.Machine.execSubLr d a b s
  | .addSatS d a b => Sys2Proof.Machine.execAddSatS d a b s
  | .addSatU d a b => Sys2Proof.Machine.execAddSatU d a b s
  | .subSatS d a b => Sys2Proof.Machine.execSubSatS d a b s
  | .subSatU d a b => Sys2Proof.Machine.execSubSatU d a b s
  | .mulLr d a b => Sys2Proof.Machine.execMulLr d a b s
  | .mulhiULr d a b => Sys2Proof.Machine.execMulhiULr d a b s
  | .minSLr d a b => Sys2Proof.Machine.execMinSLr d a b s
  | .minULr d a b => Sys2Proof.Machine.execMinULr d a b s
  | .maxSLr d a b => Sys2Proof.Machine.execMaxSLr d a b s
  | .maxULr d a b => Sys2Proof.Machine.execMaxULr d a b s
  | .andLr d a b => Sys2Proof.Machine.execAndLr d a b s
  | .andLi d a im => Sys2Proof.Machine.execAndLi d a im s
  | .orLr d a b => Sys2Proof.Machine.execOrLr d a b s
  | .orLi d a im => Sys2Proof.Machine.execOrLi d a im s
  | .xorLr d a b => Sys2Proof.Machine.execXorLr d a b s
  | .xorLi d a im => Sys2Proof.Machine.execXorLi d a im s
  | .shlLr d a b => Sys2Proof.Machine.execShlLr d a b s
  | .shlLi d a im => Sys2Proof.Machine.execShlLi d a im s
  | .shrULr d a b => Sys2Proof.Machine.execShrULr d a b s
  | .shrULi d a im => Sys2Proof.Machine.execShrULi d a im s
  | .shrSLr d a b => Sys2Proof.Machine.execShrSLr d a b s
  | .shrSLi d a im => Sys2Proof.Machine.execShrSLi d a im s
  | .notL d a => Sys2Proof.Machine.execNotL d a s
  | .negL d a => Sys2Proof.Machine.execNegL d a s
  | .absL d a => Sys2Proof.Machine.execAbsL d a s
  | .popcL d a => Sys2Proof.Machine.execPopcL d a s
  | .clzL d a => Sys2Proof.Machine.execClzL d a s
  | .brevL d a => Sys2Proof.Machine.execBrevL d a s
  | .sextBL d a => Sys2Proof.Machine.execSextBL d a s
  | .sextHL d a => Sys2Proof.Machine.execSextHL d a s
  | .cmpeqLr d a b => Sys2Proof.Machine.execCmpeqLr d a b s
  | .cmpltSLr d a b => Sys2Proof.Machine.execCmpltSLr d a b s
  | .cmpltULr d a b => Sys2Proof.Machine.execCmpltULr d a b s
  | .cmpleSLr d a b => Sys2Proof.Machine.execCmpleSLr d a b s
  | .cmpleULr d a b => Sys2Proof.Machine.execCmpleULr d a b s
  | .fadd d a b => Sys2Proof.Machine.execFadd d a b s
  | .fsub d a b => Sys2Proof.Machine.execFsub d a b s
  | .fmul d a b => Sys2Proof.Machine.execFmul d a b s
  | .ffma d a b => Sys2Proof.Machine.execFfma d a b s
  | .ffnma d a b => Sys2Proof.Machine.execFfnma d a b s
  | .fmin d a b => Sys2Proof.Machine.execFmin d a b s
  | .fmax d a b => Sys2Proof.Machine.execFmax d a b s
  | .frcp d a => Sys2Proof.Machine.execFrcp d a s
  | .fsqrt d a => Sys2Proof.Machine.execFsqrt d a s
  | .frsq d a => Sys2Proof.Machine.execFrsq d a s
  | .fexp2 d a => Sys2Proof.Machine.execFexp2 d a s
  | .flog2 d a => Sys2Proof.Machine.execFlog2 d a s
  | .fcmpeq d a b => Sys2Proof.Machine.execFcmpeq d a b s
  | .fcmplt d a b => Sys2Proof.Machine.execFcmplt d a b s
  | .fcmple d a b => Sys2Proof.Machine.execFcmple d a b s
  | .fcmpun d a b => Sys2Proof.Machine.execFcmpun d a b s
  | .hadd2F16 d a b => Sys2Proof.Machine.execHadd2F16 d a b s
  | .hadd2Bf16 d a b => Sys2Proof.Machine.execHadd2Bf16 d a b s
  | .hsub2F16 d a b => Sys2Proof.Machine.execHsub2F16 d a b s
  | .hsub2Bf16 d a b => Sys2Proof.Machine.execHsub2Bf16 d a b s
  | .hmul2F16 d a b => Sys2Proof.Machine.execHmul2F16 d a b s
  | .hmul2Bf16 d a b => Sys2Proof.Machine.execHmul2Bf16 d a b s
  | .hfma2F16 d a b => Sys2Proof.Machine.execHfma2F16 d a b s
  | .hfma2Bf16 d a b => Sys2Proof.Machine.execHfma2Bf16 d a b s
  | .hmin2F16 d a b => Sys2Proof.Machine.execHmin2F16 d a b s
  | .hmin2Bf16 d a b => Sys2Proof.Machine.execHmin2Bf16 d a b s
  | .hmax2F16 d a b => Sys2Proof.Machine.execHmax2F16 d a b s
  | .hmax2Bf16 d a b => Sys2Proof.Machine.execHmax2Bf16 d a b s
  | .hdot2F16 d a b => Sys2Proof.Machine.execHdot2F16 d a b s
  | .hdot2Bf16 d a b => Sys2Proof.Machine.execHdot2Bf16 d a b s
  | .cvt d a m t sc => Sys2Proof.Machine.execCvt d a m t sc s
  | .cvt2F16 d a b => Sys2Proof.Machine.execCvt2F16 d a b s
  | .cvt2Bf16 d a b => Sys2Proof.Machine.execCvt2Bf16 d a b s
  | .qscale d a f l => Sys2Proof.Machine.execQscale d a f l s
  | .qpack d a b => Sys2Proof.Machine.execQpack d a b s
  | .qunpk d a b => Sys2Proof.Machine.execQunpk d a b s
  | .movL d a => Sys2Proof.Machine.execMovL d a s
  | .moviL d im => Sys2Proof.Machine.execMoviL d im s
  | .movh d im => Sys2Proof.Machine.execMovh d im s
  | .sel d a b => Sys2Proof.Machine.execSel d a b s
  | .shfl d a b => Sys2Proof.Machine.execShfl d a b s
  | .perm d a b => Sys2Proof.Machine.execPerm d a b s
  | .ifLc a r => Sys2Proof.Machine.execIfLc a r s
  | .elseLc r => Sys2Proof.Machine.execElseLc r s
  | .endif r => Sys2Proof.Machine.execEndif r s
  | .loop r => Sys2Proof.Machine.execLoop r s
  | .brk d r => Sys2Proof.Machine.execBrk d r s
  | .cont d r => Sys2Proof.Machine.execCont d r s
  | .lend r => Sys2Proof.Machine.execLend r s
  | .split a r => Sys2Proof.Machine.execSplit a r s
  | .meet r => Sys2Proof.Machine.execMeet r s
  | .join r => Sys2Proof.Machine.execJoin r s
  | .ldgB t x b sc => Sys2Proof.Machine.execLdgB t x b sc s
  | .ldgH t x b sc => Sys2Proof.Machine.execLdgH t x b sc s
  | .ldgW t x b sc => Sys2Proof.Machine.execLdgW t x b sc s
  | .ldgD t x b sc => Sys2Proof.Machine.execLdgD t x b sc s
  | .ldgQ t x b sc => Sys2Proof.Machine.execLdgQ t x b sc s
  | .stgB t x b sc => Sys2Proof.Machine.execStgB t x b sc s
  | .stgH t x b sc => Sys2Proof.Machine.execStgH t x b sc s
  | .stgW t x b sc => Sys2Proof.Machine.execStgW t x b sc s
  | .stgD t x b sc => Sys2Proof.Machine.execStgD t x b sc s
  | .stgQ t x b sc => Sys2Proof.Machine.execStgQ t x b sc s
  | .ldsB t x b sc => Sys2Proof.Machine.execLdsB t x b sc s
  | .ldsH t x b sc => Sys2Proof.Machine.execLdsH t x b sc s
  | .ldsW t x b sc => Sys2Proof.Machine.execLdsW t x b sc s
  | .ldsD t x b sc => Sys2Proof.Machine.execLdsD t x b sc s
  | .ldsQ t x b sc => Sys2Proof.Machine.execLdsQ t x b sc s
  | .stsB t x b sc => Sys2Proof.Machine.execStsB t x b sc s
  | .stsH t x b sc => Sys2Proof.Machine.execStsH t x b sc s
  | .stsW t x b sc => Sys2Proof.Machine.execStsW t x b sc s
  | .stsD t x b sc => Sys2Proof.Machine.execStsD t x b sc s
  | .stsQ t x b sc => Sys2Proof.Machine.execStsQ t x b sc s
  | .ldqW t x b sc => Sys2Proof.Machine.execLdqW t x b sc s
  | .stqW t x b sc => Sys2Proof.Machine.execStqW t x b sc s
  | .ldaW t a sc => Sys2Proof.Machine.execLdaW t a sc s
  | .stlW t a sc => Sys2Proof.Machine.execStlW t a sc s
  | .ldrW t a => Sys2Proof.Machine.execLdrW t a s
  | .stcW t a => Sys2Proof.Machine.execStcW t a s
  | .atomAdd t a c e => Sys2Proof.Machine.execAtomAdd t a c e s
  | .atomAnd t a c e => Sys2Proof.Machine.execAtomAnd t a c e s
  | .atomOr t a c e => Sys2Proof.Machine.execAtomOr t a c e s
  | .atomXor t a c e => Sys2Proof.Machine.execAtomXor t a c e s
  | .atomMinS t a c e => Sys2Proof.Machine.execAtomMinS t a c e s
  | .atomMinU t a c e => Sys2Proof.Machine.execAtomMinU t a c e s
  | .atomMaxS t a c e => Sys2Proof.Machine.execAtomMaxS t a c e s
  | .atomMaxU t a c e => Sys2Proof.Machine.execAtomMaxU t a c e s
  | .atomXchg t a c e => Sys2Proof.Machine.execAtomXchg t a c e s
  | .atomCas t a c e => Sys2Proof.Machine.execAtomCas t a c e s
  | .atomAddF t a c e => Sys2Proof.Machine.execAtomAddF t a c e s
  | .atomAddD t a c e => Sys2Proof.Machine.execAtomAddD t a c e s
  | .atomXchgD t a c e => Sys2Proof.Machine.execAtomXchgD t a c e s
  | .atomCasD t a c e => Sys2Proof.Machine.execAtomCasD t a c e s
  | .atomSeqAdd t a c e => Sys2Proof.Machine.execAtomSeqAdd t a c e s
  | .atomSeqAnd t a c e => Sys2Proof.Machine.execAtomSeqAnd t a c e s
  | .atomSeqOr t a c e => Sys2Proof.Machine.execAtomSeqOr t a c e s
  | .atomSeqXor t a c e => Sys2Proof.Machine.execAtomSeqXor t a c e s
  | .atomSeqMinS t a c e => Sys2Proof.Machine.execAtomSeqMinS t a c e s
  | .atomSeqMinU t a c e => Sys2Proof.Machine.execAtomSeqMinU t a c e s
  | .atomSeqMaxS t a c e => Sys2Proof.Machine.execAtomSeqMaxS t a c e s
  | .atomSeqMaxU t a c e => Sys2Proof.Machine.execAtomSeqMaxU t a c e s
  | .atomSeqXchg t a c e => Sys2Proof.Machine.execAtomSeqXchg t a c e s
  | .atomSeqCas t a c e => Sys2Proof.Machine.execAtomSeqCas t a c e s
  | .atomSeqAddF t a c e => Sys2Proof.Machine.execAtomSeqAddF t a c e s
  | .atomSeqAddD t a c e => Sys2Proof.Machine.execAtomSeqAddD t a c e s
  | .atomSeqXchgD t a c e => Sys2Proof.Machine.execAtomSeqXchgD t a c e s
  | .atomSeqCasD t a c e => Sys2Proof.Machine.execAtomSeqCasD t a c e s
  | .redAdd t a c e => Sys2Proof.Machine.execRedAdd t a c e s
  | .redAnd t a c e => Sys2Proof.Machine.execRedAnd t a c e s
  | .redOr t a c e => Sys2Proof.Machine.execRedOr t a c e s
  | .redXor t a c e => Sys2Proof.Machine.execRedXor t a c e s
  | .redMinS t a c e => Sys2Proof.Machine.execRedMinS t a c e s
  | .redMinU t a c e => Sys2Proof.Machine.execRedMinU t a c e s
  | .redMaxS t a c e => Sys2Proof.Machine.execRedMaxS t a c e s
  | .redMaxU t a c e => Sys2Proof.Machine.execRedMaxU t a c e s
  | .redAddF t a c e => Sys2Proof.Machine.execRedAddF t a c e s
  | .redAddD t a c e => Sys2Proof.Machine.execRedAddD t a c e s
  | .addU d a b => Sys2Proof.Machine.execAddU d a b s
  | .subU d a b => Sys2Proof.Machine.execSubU d a b s
  | .mulU d a b => Sys2Proof.Machine.execMulU d a b s
  | .mulhiSU d a b => Sys2Proof.Machine.execMulhiSU d a b s
  | .mulhiUU d a b => Sys2Proof.Machine.execMulhiUU d a b s
  | .andU d a b => Sys2Proof.Machine.execAndU d a b s
  | .orU d a b => Sys2Proof.Machine.execOrU d a b s
  | .xorU d a b => Sys2Proof.Machine.execXorU d a b s
  | .andnU d a b => Sys2Proof.Machine.execAndnU d a b s
  | .shlU d a b => Sys2Proof.Machine.execShlU d a b s
  | .shrUU d a b => Sys2Proof.Machine.execShrUU d a b s
  | .shrSU d a b => Sys2Proof.Machine.execShrSU d a b s
  | .minSU d a b => Sys2Proof.Machine.execMinSU d a b s
  | .minUU d a b => Sys2Proof.Machine.execMinUU d a b s
  | .maxSU d a b => Sys2Proof.Machine.execMaxSU d a b s
  | .maxUU d a b => Sys2Proof.Machine.execMaxUU d a b s
  | .cmpeqU d a b => Sys2Proof.Machine.execCmpeqU d a b s
  | .cmpneU d a b => Sys2Proof.Machine.execCmpneU d a b s
  | .cmpltSU d a b => Sys2Proof.Machine.execCmpltSU d a b s
  | .cmpltUU d a b => Sys2Proof.Machine.execCmpltUU d a b s
  | .cmpleSU d a b => Sys2Proof.Machine.execCmpleSU d a b s
  | .cmpleUU d a b => Sys2Proof.Machine.execCmpleUU d a b s
  | .movU d a => Sys2Proof.Machine.execMovU d a s
  | .notU d a => Sys2Proof.Machine.execNotU d a s
  | .negU d a => Sys2Proof.Machine.execNegU d a s
  | .absU d a => Sys2Proof.Machine.execAbsU d a s
  | .popcU d a => Sys2Proof.Machine.execPopcU d a s
  | .clzU d a => Sys2Proof.Machine.execClzU d a s
  | .brevU d a => Sys2Proof.Machine.execBrevU d a s
  | .sextBU d a => Sys2Proof.Machine.execSextBU d a s
  | .sextHU d a => Sys2Proof.Machine.execSextHU d a s
  | .sextWU d a => Sys2Proof.Machine.execSextWU d a s
  | .addUi d a im => Sys2Proof.Machine.execAddUi d a im s
  | .andUi d a im => Sys2Proof.Machine.execAndUi d a im s
  | .orUi d a im => Sys2Proof.Machine.execOrUi d a im s
  | .xorUi d a im => Sys2Proof.Machine.execXorUi d a im s
  | .shlUi d a im => Sys2Proof.Machine.execShlUi d a im s
  | .shrUUi d a im => Sys2Proof.Machine.execShrUUi d a im s
  | .shrSUi d a im => Sys2Proof.Machine.execShrSUi d a im s
  | .cmpeqUi d a im => Sys2Proof.Machine.execCmpeqUi d a im s
  | .cmpltSUi d a im => Sys2Proof.Machine.execCmpltSUi d a im s
  | .cmpltUUi d a im => Sys2Proof.Machine.execCmpltUUi d a im s
  | .moviU d im => Sys2Proof.Machine.execMoviU d im s
  | .movx d im => Sys2Proof.Machine.execMovx d im s
  | .bra r => Sys2Proof.Machine.execBra r s
  | .bz a r => Sys2Proof.Machine.execBz a r s
  | .bnz a r => Sys2Proof.Machine.execBnz a r s
  | .jmp a => Sys2Proof.Machine.execJmp a s
  | .call n r => Sys2Proof.Machine.execCall n r s
  | .trap c => Sys2Proof.Machine.execTrap c s
  | .any d f => Sys2Proof.Machine.execAny d f s
  | .all d f => Sys2Proof.Machine.execAll d f s
  | .ballot d f => Sys2Proof.Machine.execBallot d f s
  | .srdS d p => Sys2Proof.Machine.execSrdS d p s
  | .srdV d p h => Sys2Proof.Machine.execSrdV d p h s
  | .swr a p => Sys2Proof.Machine.execSwr a p s
  | .fence c e => Sys2Proof.Machine.execFence c e s
  | .fqpop d => Sys2Proof.Machine.execFqpop d s
  | .launch a => Sys2Proof.Machine.execLaunch a s
  | .launchAt a b => Sys2Proof.Machine.execLaunchAt a b s
  | .fbMark a b c => Sys2Proof.Machine.execFbMark a b c s
  | .barAlloc d => Sys2Proof.Machine.execBarAlloc d s
  | .barInit a b c => Sys2Proof.Machine.execBarInit a b c s
  | .barExpect a b => Sys2Proof.Machine.execBarExpect a b s
  | .barArrive a => Sys2Proof.Machine.execBarArrive a s
  | .barArriveQ a b => Sys2Proof.Machine.execBarArriveQ a b s
  | .barWait a => Sys2Proof.Machine.execBarWait a s
  | .barTest d a => Sys2Proof.Machine.execBarTest d a s
  | .barFree a => Sys2Proof.Machine.execBarFree a s
  | .cpTile a b c e => Sys2Proof.Machine.execCpTile a b c e s
  | .cpBulk a b c e => Sys2Proof.Machine.execCpBulk a b c e s
  | .cpGather a b c e => Sys2Proof.Machine.execCpGather a b c e s
  | .cpRed a b c e => Sys2Proof.Machine.execCpRed a b c e s
  | .cpAt a b e => Sys2Proof.Machine.execCpAt a b e s
  | .mma a b c e => Sys2Proof.Machine.execMma a b c e s
  | .accZero a => Sys2Proof.Machine.execAccZero a s
  | .accLd a b => Sys2Proof.Machine.execAccLd a b s
  | .accSt a b c e => Sys2Proof.Machine.execAccSt a b c e s
  | .accRed a b c e => Sys2Proof.Machine.execAccRed a b c e s
  | .sldB d a im => Sys2Proof.Machine.execSldB d a im s
  | .sldH d a im => Sys2Proof.Machine.execSldH d a im s
  | .sldW d a im => Sys2Proof.Machine.execSldW d a im s
  | .sldD d a im => Sys2Proof.Machine.execSldD d a im s
  | .sstB t a im => Sys2Proof.Machine.execSstB t a im s
  | .sstH t a im => Sys2Proof.Machine.execSstH t a im s
  | .sstW t a im => Sys2Proof.Machine.execSstW t a im s
  | .sstD t a im => Sys2Proof.Machine.execSstD t a im s
  | .shGetW d a e => Sys2Proof.Machine.execShGetW d a e s
  | .shGetP a b e => Sys2Proof.Machine.execShGetP a b e s
  | .shOpAdd d a b e => Sys2Proof.Machine.execShOpAdd d a b e s
  | .shOpAddF d a b e => Sys2Proof.Machine.execShOpAddF d a b e s
  | .shOpMin d a b e => Sys2Proof.Machine.execShOpMin d a b e s
  | .shOpMax d a b e => Sys2Proof.Machine.execShOpMax d a b e s
  | .shOpMinS d a b e => Sys2Proof.Machine.execShOpMinS d a b e s
  | .shOpMinU d a b e => Sys2Proof.Machine.execShOpMinU d a b e s
  | .shOpMaxS d a b e => Sys2Proof.Machine.execShOpMaxS d a b e s
  | .shOpMaxU d a b e => Sys2Proof.Machine.execShOpMaxU d a b e s
  | .shOpAnd d a b e => Sys2Proof.Machine.execShOpAnd d a b e s
  | .shOpOr d a b e => Sys2Proof.Machine.execShOpOr d a b e s
  | .shOpXor d a b e => Sys2Proof.Machine.execShOpXor d a b e s
  | .shOpSwap d a b e => Sys2Proof.Machine.execShOpSwap d a b e s
  | .shOpCas d a b e => Sys2Proof.Machine.execShOpCas d a b e s
  | .shLand a => Sys2Proof.Machine.execShLand a s
  | .shPut a b => Sys2Proof.Machine.execShPut a b s
  | .shFloat a e => Sys2Proof.Machine.execShFloat a e s
  | .ret => Sys2Proof.Machine.execRet s
  | .exit => Sys2Proof.Machine.execExit s
  | .yield => Sys2Proof.Machine.execYield s
  | .nop => Sys2Proof.Machine.execNop s
  | .rett => Sys2Proof.Machine.execRett s
  | .term => Sys2Proof.Machine.execTerm s
  | .stdrain => Sys2Proof.Machine.execStdrain s
  | .step => Sys2Proof.Machine.execStep s
  | .fbGo => Sys2Proof.Machine.execFbGo s
  | .teamRetire lid tid => Sys2Proof.Machine.execTeamRetire lid tid s
  | .gridRetire lid => Sys2Proof.Machine.execGridRetire lid s
  | .launchAtDue lid => Sys2Proof.Machine.execLaunchAtDue lid s
  | .distributorPass part => Sys2Proof.Machine.execDistributorPass part s
  | .contextSwitchOut asid => Sys2Proof.Machine.execContextSwitchOut asid s
  | .contextSwitchIn asid => Sys2Proof.Machine.execContextSwitchIn asid s
  | .preempt lid tid => Sys2Proof.Machine.execPreempt lid tid s
  | .teamResume lid tid => Sys2Proof.Machine.execTeamResume lid tid s
  | .splitWake cid sid => Sys2Proof.Machine.execSplitWake cid sid s
  | .fairnessSwap cid sid => Sys2Proof.Machine.execFairnessSwap cid sid s
  | .yieldShadowEnd cid sid => Sys2Proof.Machine.execYieldShadowEnd cid sid s
  | .mmaExec core => Sys2Proof.Machine.execMmaExec core s
  | .accZeroExec core => Sys2Proof.Machine.execAccZeroExec core s
  | .accLdExec core => Sys2Proof.Machine.execAccLdExec core s
  | .accStExec core => Sys2Proof.Machine.execAccStExec core s
  | .accStComplete core => Sys2Proof.Machine.execAccStComplete core s
  | .accRedExec core => Sys2Proof.Machine.execAccRedExec core s
  | .accRedComplete core => Sys2Proof.Machine.execAccRedComplete core s
  | .copyDispatch core => Sys2Proof.Machine.execCopyDispatch core s
  | .cpAtDispatch core seq => Sys2Proof.Machine.execCpAtDispatch core seq s
  | .copyComplete die engine => Sys2Proof.Machine.execCopyComplete die engine s
  | .sliceAdderOp seq => Sys2Proof.Machine.execSliceAdderOp seq s
  | .heldWritePerform seq => Sys2Proof.Machine.execHeldWritePerform seq s
  | .storeRegistration seq => Sys2Proof.Machine.execStoreRegistration seq s
  | .sectorRevoke sector => Sys2Proof.Machine.execSectorRevoke sector s
  | .ownerWriteBack sector => Sys2Proof.Machine.execOwnerWriteBack sector s
  | .readForward core word => Sys2Proof.Machine.execReadForward core word s
  | .mirrorInvalidate line => Sys2Proof.Machine.execMirrorInvalidate line s
  | .lineFill slice line => Sys2Proof.Machine.execLineFill slice line s
  | .spillQueueRefill slice => Sys2Proof.Machine.execSpillQueueRefill slice s
  | .peerL1Probe core line => Sys2Proof.Machine.execPeerL1Probe core line s
  | .registrationAck core asid => Sys2Proof.Machine.execRegistrationAck core asid s
  | .storeTranslate cid sid => Sys2Proof.Machine.execStoreTranslate cid sid s
  | .faultQueueAdmit core => Sys2Proof.Machine.execFaultQueueAdmit core s
  | .pageWalkDone core asid va => Sys2Proof.Machine.execPageWalkDone core asid va s
  | .trapEntry cid sid => Sys2Proof.Machine.execTrapEntry cid sid s
  | .shellOpEffect core shell => Sys2Proof.Machine.execShellOpEffect core shell s
  | .shellLandEffect core shell => Sys2Proof.Machine.execShellLandEffect core shell s
  | .shellFloatEffect shell => Sys2Proof.Machine.execShellFloatEffect shell s
  | .shellOverstay shell => Sys2Proof.Machine.execShellOverstay shell s
  | .shellLandingLoss shell => Sys2Proof.Machine.execShellLandingLoss shell s
  | .shellCooldownEnd shell => Sys2Proof.Machine.execShellCooldownEnd shell s
  | .neighbourRead cid sid => Sys2Proof.Machine.execNeighbourRead cid sid s
  | .stepComplete cid sid => Sys2Proof.Machine.execStepComplete cid sid s
  | .pageOut lid seat => Sys2Proof.Machine.execPageOut lid seat s
  | .hostCut cid => Sys2Proof.Machine.execHostCut cid s
  | .ctxStart part asid => Sys2Proof.Machine.execCtxStart part asid s
  | .ctxStop part asid => Sys2Proof.Machine.execCtxStop part asid s
  | .pctlWrite part value => Sys2Proof.Machine.execPctlWrite part value s
  | .engMaskWrite part die value => Sys2Proof.Machine.execEngMaskWrite part die value s
  | .scrubComplete bay => Sys2Proof.Machine.execScrubComplete bay s
  | .l2BucketTick slice => Sys2Proof.Machine.execL2BucketTick slice s
  | .portBucketTick port => Sys2Proof.Machine.execPortBucketTick port s
  | .kbktWrite entry value => Sys2Proof.Machine.execKbktWrite entry value s
  | .ingressFlit port src key offset write data => Sys2Proof.Machine.execIngressFlit port src key offset write data s
  | .exportRequest src key offset write data => Sys2Proof.Machine.execExportRequest src key offset write data s
  | .remoteArrive asid src key count value => Sys2Proof.Machine.execRemoteArrive asid src key count value s
  | .arrivalPerform n => Sys2Proof.Machine.execArrivalPerform n s
  | .routeUnusableTimeout ep => Sys2Proof.Machine.execRouteUnusableTimeout ep s
  | .strictRetransmit dst key => Sys2Proof.Machine.execStrictRetransmit dst key s
  | .rswapRoute => Sys2Proof.Machine.execRswapRoute s
  | .rswapKey => Sys2Proof.Machine.execRswapKey s
  | .swapComplete => Sys2Proof.Machine.execSwapComplete s
  | .portFail port => Sys2Proof.Machine.execPortFail port s
  | .portLive port => Sys2Proof.Machine.execPortLive port s
  | .portctlEn port en => Sys2Proof.Machine.execPortctlEn port en s
  | .portctlFailClear port => Sys2Proof.Machine.execPortctlFailClear port s
  | .portctlKclr port => Sys2Proof.Machine.execPortctlKclr port s
  | .ftimeSyncExchange master offset => Sys2Proof.Machine.execFtimeSyncExchange master offset s
  | .ftimeLockLoss => Sys2Proof.Machine.execFtimeLockLoss s
  | .shootdownPage part asid size => Sys2Proof.Machine.execShootdownPage part asid size s
  | .shootdownAll part asid => Sys2Proof.Machine.execShootdownAll part asid s
  | .shootdownComplete part => Sys2Proof.Machine.execShootdownComplete part s
  | .correctableError unit => Sys2Proof.Machine.execCorrectableError unit s
  | .uncorrectableError place => Sys2Proof.Machine.execUncorrectableError place s
  | .powerThrottle on => Sys2Proof.Machine.execPowerThrottle on s
  | .hotStop outlet => Sys2Proof.Machine.execHotStop outlet s
  | .hotClear outlet => Sys2Proof.Machine.execHotClear outlet s
  | .deviceReset image => Sys2Proof.Machine.execDeviceReset image s
  | .attGo => Sys2Proof.Machine.execAttGo s
  | .attQuoteDone => Sys2Proof.Machine.execAttQuoteDone s
  | .attnonceWrite offset value => Sys2Proof.Machine.execAttnonceWrite offset value s
  | .coreretWrite value => Sys2Proof.Machine.execCoreretWrite value s
  | .coreMarginFail core => Sys2Proof.Machine.execCoreMarginFail core s
  | .eolUpdate date => Sys2Proof.Machine.execEolUpdate date s
  | .ceclrWrite value => Sys2Proof.Machine.execCeclrWrite value s
  | .mgmtRegisterWrite offset size value => Sys2Proof.Machine.execMgmtRegisterWrite offset size value s
  | .loadDataArrival cid sid => Sys2Proof.Machine.execLoadDataArrival cid sid s
  | .bayRetire bay => Sys2Proof.Machine.execBayRetire bay s

end Sys2Proof.Machine
end

