-- ==== Sys2Proof/Machine/Due.lean ====
section
/-! DEFINITION. The device's own events that are due while the tape is empty: what the device does by itself before the next
instruction issues. The order among them is the model's (the spec leaves it open; log entry 3). -/

namespace Sys2Proof.Machine

/-- The passes of shells (R233 to R237). -/
def State.dueShell (s : State) : Option State :=
  (s.shreqs.findSome? fun q => s.shellOpEffect q.core q.shell) <|>
  (s.shreqs.findSome? fun q => s.shellLand q.core q.shell) <|>
  (s.landings.findSome? fun h => s.shellFloat h.shell) <|>
  (s.landings.findSome? fun h => s.shellLoss h.shell) <|>
  (s.landings.findSome? fun h => s.shellOverstay h.shell) <|>
  s.cooling.findSome? fun e => s.cooldownEnd e.1

/-- Whether a crew's events of a cycle come before another's: those of hosts in the order of their slots (R289). -/
def hostBefore (a b : Crew) : Bool :=
  match a.host, b.host with
  | some h, some k => decide (h.slot < k.slot)
  | none, some _ => true
  | _, none => false

/-- The first event of a split for which `f` is due. -/
def State.dueSplit (s : State) (f : Nat → Nat → Option State) : Option State :=
  (sortBy hostBefore s.crews).findSome? fun c => c.splits.findSome? fun p => f c.cid p.sid

/-- Splits that wake, swap, trap or step, and stores that translate (R248, R255, R273, R284, R285, R329, R334). -/
def State.dueCrew (s : State) : Option State :=
  (s.dueSplit fun c p => s.splitWake c p) <|> (s.dueSplit fun c p => s.fairnessSwap c p) <|>
  (s.dueSplit fun c p => s.shadowEnd c p) <|> (s.dueSplit fun c p => s.neighbourRead c p) <|>
  (s.dueSplit fun c p => s.stepDone c p) <|>
  (s.seats.findSome? fun t => s.seatOut t.lid t.index) <|>
  (s.dueSplit fun c p => s.storeTranslate c p) <|>
  (s.faultq.findSome? fun r => s.admitFault r.core) <|>
  s.dueSplit fun c p => s.trapEntry c p

/-- Accesses on their way (R144, R148 to R150, R152, R187, R205, R212, R53). -/
def State.dueMemory (s : State) : Option State :=
  (s.held.findSome? fun h => s.heldPerform h.id) <|> (s.regs.findSome? fun q => s.register q.id) <|>
  (match s.acks with
   | a :: _ => some { s with acks := s.acks.erase a }
   | [] => none) <|>
  (s.adds.findSome? fun q => s.adderOp q.id) <|>
  (s.dueSplit fun c p => s.arrival c p) <|>
  (s.misses.findSome? fun m => if m.cls == .recall then some (s.writeBack (4 * m.line + m.hint)) else none) <|>
  (s.spillq.findSome? fun m => s.refill m.slice) <|>
  (s.misses.findSome? fun m => if m.cls == .general then s.fillLine m.slice m.line else none) <|>
  s.misses.findSome? fun m => if m.cls == .writeBack then s.wroteBack m.slice m.line else none

/-- The matrix and copy engines (R118 to R129, R185 to R194). -/
def State.dueEngine (s : State) : Option State :=
  (s.copies.findSome? fun q => s.registerCopy q.seq) <|>
  (s.mats.findSome? fun q => s.mmaRun q.core <|> s.zeroRun q.core <|> s.ldRun q.core <|> s.stRun q.core <|>
    s.redRun q.core <|> s.stComplete q.core <|> s.redComplete q.core) <|>
  s.copies.findSome? fun q =>
    match q.phase with
    | .queued => s.copyDispatch q.core
    | .timed _ => s.timedDispatch q.core q.seq
    | .running d e => s.copyComplete d e <|> s.landNext q

/-- Whether a team is to be pre-empted: its context is on its way out, or its core is being retired (R355, R372). -/
def State.mustLeave (s : State) (t : Team) : Bool :=
  s.svc.retiring.contains t.core ||
    (match s.launch? t.lid with
     | some l => s.switching l.asid
     | none => false)

/-- The context of a list that came in, or went out, first. -/
def firstSince : List Context → Option Context
  | [] => none
  | x :: rest =>
    match firstSince rest with
    | none => some x
    | some y => if y.since < x.since then some y else some x

/-- The next context to come in: of the runnable ones that are out, the one that has been out longest (R268; log entry 52). -/
def State.nextIn (s : State) (n : Nat) : Option Context :=
  firstSince (s.contexts.filter fun x => x.part == n && !x.resident && !x.stopping && s.runnable x.asid)

/-- The next context to go out while a runnable one is out and the partition is full: the one that has been resident longest, for
more than 1 ms (R268; log entry 52). -/
def State.nextOut (s : State) (n : Nat) : Option Context :=
  if (s.nextIn n).isNone || s.residents n < (s.part n).resn || s.contexts.any fun x => x.part == n && x.switching then none
  else firstSince (s.contexts.filter fun x => x.part == n && x.resident && !x.stopping && s.runnable x.asid &&
    decide (1000 < s.sinceSwitch x.asid))

/-- A partition's context scheduler brings a context in or sends one out (R268, R274). -/
def State.schedule (s : State) (n : Nat) : Option State :=
  (match s.nextIn n with | some x => s.switchIn x.asid | none => none) <|>
  match s.nextOut n with | some x => s.switchOut x.asid | none => none

/-- Launches, teams, contexts and partitions (R68, R262, R267, R268, R293, R308, R344, R352, R353, R355, R372). -/
def State.dueLaunch (s : State) : Option State :=
  (s.launches.findSome? fun l => s.launchDue l.lid) <|>
  (s.teams.findSome? fun t => s.teamRetire t.lid t.tid) <|>
  (s.launches.findSome? fun l => s.gridRetire l.lid) <|>
  (s.teams.findSome? fun t => if s.mustLeave t then s.preempt t.lid t.tid else none) <|>
  (s.crews.findSome? fun c => s.hostCut c.cid) <|>
  (s.contexts.findSome? fun x =>
    if x.stopping then s.ctxStop x.part x.asid else if x.switching then s.switchOut x.asid else none) <|>
  ((List.range 24).findSome? s.schedule) <|>
  (s.teams.findSome? fun t => s.resume t.lid t.tid) <|>
  ((List.range 24).findSome? s.distribute) <|>
  ((List.range 24).findSome? s.shootdownDone) <|> s.rehome <|>
  s.svc.retiring.findSome? fun c => if s.coreIdle c then s.retireCore c else none

/-- The fabric and the service units: held requests, arrivals, strict messages, table swaps and the loss of lock (R310, R316, R319, R321, R324, R326).
The
arrival of a message that names its count of writes is on the tape. -/
def State.dueFabric (s : State) : Option State :=
  ((List.range s.fab.arrivals.length).findSome? s.arrivalPerform) <|> s.swapDone <|>
  (s.fab.slots.findSome? fun q => if q.ask.isSome then s.serveAsk q.src q.key q.offset
    else s.exportReq q.src q.key q.offset q.write q.data) <|>
  (s.fab.strict.findSome? fun m => if m.lost || m.port.isNone then s.retransmit m.dst m.key else none) <|>
  (s.fab.strict.findSome? fun m => s.ackStrict m.dst m.key) <|> s.serveDue <|> s.lockLoss

/-- The bucket ticks of a new microsecond: of the slices of the live contexts, and of the ports (R309, R310). -/
def State.dueTick (s : State) : Option State :=
  if s.micros = 0 then none
  else
    (s.contexts.findSome? fun x => (s.part x.part).slices.findSome? fun k =>
      if s.ticked k then none else some ((s.l2Tick k).noteTick k)) <|>
    (List.range 72).findSome? fun p => if s.ticked (288 + p) then none else some (s.portTick p)

/-- The next event that is due, if one is. -/
def State.due (s : State) : Option State :=
  s.dueTick <|> s.dueShell <|> s.dueCrew <|> s.dueMemory <|> s.dueEngine <|> s.dueLaunch <|> s.dueFabric

/-- The endpoints for which an access or a message may be held. -/
def State.heldEndpoints (s : State) : List Nat :=
  let of (pa : Nat) : List Nat := if inFabric pa then [endpointOf pa] else []
  (s.crews.flatMap fun c => (c.loads.flatMap fun q => q.lanes.flatMap fun a => if q.space == .global then of a.addr else []) ++
    c.splits.flatMap fun p => (match p.waits with | some x => of x.1 | none => []) ++
      match s.fetchPa c p with | some pa => of pa | none => []) ++
  (s.regs.flatMap fun q => of (256 * q.line)) ++ (s.adds.flatMap fun q => of q.addr) ++
  (s.copies.flatMap fun k => k.pieces.flatMap fun x =>
    (match x.srcLine with | some l => of (256 * l) | none => []) ++ if x.space == .global then of x.addr else []) ++
  (s.misses.flatMap fun m => match s.victim m.slice m.line with | some v => of (256 * v.line) | none => []) ++
  (s.launches.flatMap fun l => match l.status with | some pa => of pa.toNat | none => []) ++
  s.fab.strict.map (·.dst)

/-- What ends of itself when nothing else moves: messages held on an unusable route, scrubs and quotes, and the copies that other
devices hold of exported lines (R306, R316, R320, R371). -/
def State.dueLate (s : State) : Option State :=
  (s.heldEndpoints.findSome? s.routeTimeout) <|> ((List.range 24).findSome? s.scrubDone) <|> s.quoteDone <|>
  match s.fab.holders with
  | h :: _ => some (s.returnLine h.1 h.2)
  | [] => none

end Sys2Proof.Machine
end

