-- ==== Sys2Proof/Machine/Picks.lean ====
section
/-! DEFINITION. What a pick takes of its row and its core (R270 to R272, Table 15.1): the register banks that an instruction
reads, its ISA, its port and the transcendental unit. -/

namespace Sys2Proof

/-- The bank reads of a source field (Table 15.1): uniform and neighbour operands take none. -/
def Src.reads : Src → List Nat
  | .v n => [n.toNat]
  | _ => []

/-- The further registers of a long QSCALE group (R108). -/
def Src.more : Src → List Nat
  | .v n => [n.toNat + 1, n.toNat + 2]
  | _ => []

/-- The registers of an LA address pair (R41). -/
def pairReads (a : BitVec 8) : List Nat := [a.toNat, a.toNat + 1]

open Machine in
/-- The lane registers of the window that an instruction reads, one entry for each bank read (Table 15.1). -/
def Instr.reads : Instr → List Nat
  | .addLr _ a b | .subLr _ a b | .addSatS _ a b | .addSatU _ a b | .subSatS _ a b | .subSatU _ a b | .mulLr _ a b |
    .mulhiULr _ a b | .minSLr _ a b | .minULr _ a b | .maxSLr _ a b | .maxULr _ a b | .andLr _ a b | .orLr _ a b |
    .xorLr _ a b | .shlLr _ a b | .shrULr _ a b | .shrSLr _ a b | .cmpeqLr _ a b | .cmpltSLr _ a b | .cmpltULr _ a b |
    .cmpleSLr _ a b | .cmpleULr _ a b | .fadd _ a b | .fsub _ a b | .fmul _ a b | .fmin _ a b | .fmax _ a b |
    .fcmpeq _ a b | .fcmplt _ a b | .fcmple _ a b | .fcmpun _ a b | .hadd2F16 _ a b | .hadd2Bf16 _ a b | .hsub2F16 _ a b |
    .hsub2Bf16 _ a b | .hmul2F16 _ a b | .hmul2Bf16 _ a b | .hmin2F16 _ a b | .hmin2Bf16 _ a b | .hmax2F16 _ a b |
    .hmax2Bf16 _ a b | .cvt2F16 _ a b | .cvt2Bf16 _ a b | .qpack _ a b | .qunpk _ a b | .shfl _ a b => a.reads ++ b.reads
  | .addLi _ a _ | .andLi _ a _ | .orLi _ a _ | .xorLi _ a _ | .shlLi _ a _ | .shrULi _ a _ | .shrSLi _ a _ | .notL _ a |
    .negL _ a | .absL _ a | .popcL _ a | .clzL _ a | .brevL _ a | .sextBL _ a | .sextHL _ a | .frcp _ a | .fsqrt _ a |
    .frsq _ a | .fexp2 _ a | .flog2 _ a | .cvt _ a _ _ _ | .movL _ a | .ifLc a _ | .split a _ => a.reads
  | .ffma d a b | .ffnma d a b | .hfma2F16 d a b | .hfma2Bf16 d a b | .hdot2F16 d a b | .hdot2Bf16 d a b | .sel d a b |
    .perm d a b => a.reads ++ b.reads ++ [d.toNat]
  | .qscale _ a _ l => a.reads ++ (if l == 1 then a.more else [])
  | .movh d _ => [d.toNat]
  | .ldgB _ x _ _ | .ldgH _ x _ _ | .ldgW _ x _ _ | .ldgD _ x _ _ | .ldgQ _ x _ _ | .ldsB _ x _ _ | .ldsH _ x _ _ |
    .ldsW _ x _ _ | .ldsD _ x _ _ | .ldsQ _ x _ _ | .ldqW _ x _ _ => lmIndex x
  | .stgB t x _ _ | .stgH t x _ _ | .stgW t x _ _ | .stsB t x _ _ | .stsH t x _ _ | .stsW t x _ _ | .stqW t x _ _ =>
    lmIndex x ++ group t 1
  | .stgD t x _ _ | .stsD t x _ _ => lmIndex x ++ group t 2
  | .stgQ t x _ _ | .stsQ t x _ _ => lmIndex x ++ group t 4
  | .ldaW _ a _ | .ldrW _ a => pairReads a
  | .stlW t a _ | .stcW t a => pairReads a ++ [t.toNat]
  | .atomAdd t a _ _ | .atomAnd t a _ _ | .atomOr t a _ _ | .atomXor t a _ _ | .atomMinS t a _ _ | .atomMinU t a _ _ |
    .atomMaxS t a _ _ | .atomMaxU t a _ _ | .atomXchg t a _ _ | .atomAddF t a _ _ | .atomSeqAdd t a _ _ |
    .atomSeqAnd t a _ _ | .atomSeqOr t a _ _ | .atomSeqXor t a _ _ | .atomSeqMinS t a _ _ | .atomSeqMinU t a _ _ |
    .atomSeqMaxS t a _ _ | .atomSeqMaxU t a _ _ | .atomSeqXchg t a _ _ | .atomSeqAddF t a _ _ | .redAdd t a _ _ |
    .redAnd t a _ _ | .redOr t a _ _ | .redXor t a _ _ | .redMinS t a _ _ | .redMinU t a _ _ | .redMaxS t a _ _ |
    .redMaxU t a _ _ | .redAddF t a _ _ => pairReads a ++ group t 1
  | .atomCas t a _ _ | .atomAddD t a _ _ | .atomXchgD t a _ _ | .atomSeqCas t a _ _ | .atomSeqAddD t a _ _ |
    .atomSeqXchgD t a _ _ | .redAddD t a _ _ => pairReads a ++ group t 2
  | .atomCasD t a _ _ | .atomSeqCasD t a _ _ => pairReads a ++ group t 4
  | .any _ f | .all _ f | .ballot _ f => f.reads
  | _ => []

/-- The core port that an instruction claims (R272, Table 15.1). -/
def Instr.port : Instr → Option Machine.Port
  | .mma _ _ _ _ | .accZero _ | .accLd _ _ | .accSt _ _ _ _ | .accRed _ _ _ _ => some .matrix
  | .cpTile _ _ _ _ | .cpBulk _ _ _ _ | .cpGather _ _ _ _ | .cpRed _ _ _ _ | .cpAt _ _ _ => some .copy
  | .shGetW _ _ _ | .shGetP _ _ _ | .shOpAdd _ _ _ _ | .shOpAddF _ _ _ _ | .shOpMin _ _ _ _ | .shOpMax _ _ _ _ |
    .shOpMinS _ _ _ _ | .shOpMinU _ _ _ _ | .shOpMaxS _ _ _ _ | .shOpMaxU _ _ _ _ | .shOpAnd _ _ _ _ | .shOpOr _ _ _ _ |
    .shOpXor _ _ _ _ | .shOpSwap _ _ _ _ | .shOpCas _ _ _ _ | .shLand _ | .shPut _ _ | .shFloat _ _ => some .shell
  | _ => none

/-- Whether an instruction needs its row's transcendental unit (R95, R102). -/
def Instr.sfu : Instr → Bool
  | .frcp _ _ | .fsqrt _ _ | .frsq _ _ | .fexp2 _ _ | .flog2 _ _ => true
  | _ => false

namespace Machine

/-- What an instruction of a split takes of its row and its core. Register vn lies in bank n mod 4; the words of the lane ISA have
bit 31 clear (R37). -/
def needsOf (i : Instr) (p : Split) : Needs :=
  { lane := !(encode i).msb, mask := p.mask, banks := i.reads.map (· % 4), port := i.port, sfu := i.sfu }

/-- What a trap in place of an instruction takes: nothing (log entry 51). -/
def needsNone : Needs := { lane := false, mask := 0, banks := [], port := none, sfu := false }

/-- Whether some reads take at most two of each bank (R270, Table 15.1). -/
def fewReads (banks : List Nat) : Bool := [0, 1, 2, 3].all fun b => decide (banks.count b ≤ 2)

/-- Whether a second pick is compatible with the first of its row (Table 15.1). -/
def Needs.fits (n m : Needs) : Bool :=
  (!(n.lane && m.lane) || n.mask &&& m.mask == 0) && fewReads (n.banks ++ m.banks)

/-- The place of a row in the order in which the rows of a core pick in a cycle (R272). -/
def State.rowTurn (s : State) (row : Nat) : Nat := (row + 4 - s.cycle % 4) % 4

/-- The picks of a row in this cycle. -/
def State.rowPicks (s : State) (core row : Nat) : List Pick := s.picks.filter fun q => q.core == core && q.row == row

/-- Whether a row may still pick in this cycle: fewer than two picks are its own, and none is of a row that picks after it (R271,
R272). -/
def State.rowOpen (s : State) (core row : Nat) : Bool :=
  decide ((s.rowPicks core row).length < 2) &&
  s.picks.all fun q => !(q.core == core && decide (s.rowTurn row < s.rowTurn q.row))

/-- Whether another pick of the core has claimed a port (R272). -/
def State.portTaken (s : State) (core : Nat) (n : Needs) : Bool :=
  n.port.isSome && s.picks.any fun q => q.core == core && q.needs.port == n.port

/-- Whether an instruction with these needs may be the next pick of its row: it has no structural hazard, the transcendental unit is
free for it, and as a second pick it is compatible with the first (R270, R271). -/
def State.pickable (s : State) (core row : Nat) (n : Needs) : Bool :=
  !s.portTaken core n && (!n.sfu || decide (sget 0 s.sfu (4 * core + row) ≤ s.cycle)) &&
  (s.rowPicks core row).all fun q => fewReads n.banks && q.needs.fits n

/-- Notes a pick of a row, with what its crew had before it. -/
def State.notePick (s : State) (c : Crew) (p : Split) (n : Needs) : State :=
  { s with
    picks := s.picks ++ [⟨c.core, c.row, c.cid, p.sid, n, c.sregs, c.spoison, c.fpmode, c.fpflags, c.cpol⟩]
    sfu := if n.sfu then sset 0 s.sfu (4 * c.core + c.row) (s.cycle + 4) else s.sfu }

end Machine

end Sys2Proof
end

