-- ==== Sys2Proof/Machine/Fetch.lean ====
section
/-! DEFINITION. Fetching and decoding the next instruction of a split (R37, R54, R57, R328, R346), which split issues and the
passing of cycles (R269 to R272), and the turns of the tape. -/

namespace Sys2Proof.Machine

/-! ## Fetching (R57) -/

/-- What a fetch gives: an instruction, the trap that it raises, or nothing yet: its message is held (R310, R320). -/
inductive Fetched where
  | instr (i : Instr)
  | trap (t : Trap)
  | held
  deriving DecidableEq, Repr

/-- The instruction that a code word gives a split: ILLOP where it is none (R54). -/
noncomputable def fetchedOf (p : Split) (bytes : List Byte) : Fetched :=
  match decodeBytes bytes with
  | .ok i => .instr i
  | .error _ => .trap (illop p (wordOfBytes bytes))

/-- The fetch of a split (R57, R340): FETCHFAULT where its page does not translate or may not be fetched from, POISON on a
poisoned word. Which of the old and the new word a fetch after a store reads follows no rule: it is the copy that the core's
instruction fetch reads for the launch, else the newest word, for which the slice takes a token (R309; DESIGN CHOICE, log entry 50). -/
noncomputable def State.fetch (s : State) (c : Crew) (p : Split) : Fetched :=
  match s.translate c.core c.asid p.pc .exec with
  | .error r => if s.releasing c p then .held else .trap ⟨.fetchfault, p.pc, p.pc, .ofNat 64 r.code⟩
  | .ok pa =>
    match s.icache.find? fun w => w.lid == c.lid && w.core == c.core && w.addr == pa && !w.off with
    | some w => fetchedOf p w.data
    | none =>
      if !s.mayReach (s.loadSlice c.core pa) c.core c.asid pa false false then .held
      else if s.poisoned pa 4 then .trap ⟨.poison, p.pc, p.pc, 6⟩
      else fetchedOf p (s.readBytes pa 4)

/-- The copies of the code words of a core that no fetch of a launch is to read of one place. -/
def CodeWord.shut (lid core pa : Nat) (w : CodeWord) : CodeWord :=
  if w.lid == lid && w.core == core && w.addr == pa then { w with off := true } else w

/-- The instruction fetch of a core takes for a launch a copy of a code word as it stands, which the next fetch reads (R57). -/
def State.codeFill (s : State) (lid core pa : Nat) : Option State :=
  guarded (pa % 4 == 0 && !s.poisoned pa 4 && (s.launch? lid).isSome)
    { s with icache := s.icache.map (CodeWord.shut lid core pa) ++ [⟨lid, core, pa, s.readBytes pa 4, false⟩] }

/-- The next fetch of a code word reads the `k`th copy that was taken of it for a launch, or the newest word where there are fewer
(R57). -/
def State.codeUse (s : State) (lid core pa k : Nat) : State :=
  let mine (w : CodeWord) : Bool := w.lid == lid && w.core == core && w.addr == pa
  let pick (r : List CodeWord × Nat) (w : CodeWord) : List CodeWord × Nat :=
    if mine w then (r.1 ++ [{ w with off := r.2 != k }], r.2 + 1) else (r.1 ++ [w], r.2)
  { s with icache := (s.icache.foldl pick ([], 0)).1 }

/-- A split is the issuer; its fetch has filled the core's TLB (R342) and reached its slice, by a message where it needs one (R309,
R310). -/
def State.select (s : State) (c : Crew) (p : Split) : State :=
  let t := match s.fetchPa c p with
    | some pa => s.reach (s.loadSlice c.core pa) c.core c.asid pa false false 0
    | none => s
  { t.tlbFill c.core c.asid p.pc with cur := some (c.cid, p.sid) }

/-! ## Picks (R269 to R272) -/

/-- Whether a split is a candidate, as far as its instruction has not been found unable to issue (R270): one that has entered the age
order in this cycle is a candidate from the next one on (R269, R271). -/
def State.candidate (s : State) (c : Crew) (p : Split) : Bool :=
  !p.tried && s.mayIssue c p && (s.picks.all fun q => !(q.cid == c.cid && q.sid == p.sid)) &&
  !s.entered.contains (c.cid, p.sid) && !s.woke.contains (c.cid, p.sid)

/-- What a split takes of its row, if it can be picked: a due boundary trap, or one that its fetch raises, takes nothing. -/
noncomputable def State.needs (s : State) (c : Crew) (p : Split) : Option Needs :=
  if (s.dueTrap c.cid p).isSome then some needsNone
  else
    match s.fetch c p with
    | .instr i => some (needsOf i p)
    | .trap _ => some needsNone
    | .held => none

/-- Whether a split can be the next pick of its row, and with which needs. -/
noncomputable def State.canPick (s : State) (c : Crew) (p : Split) : Option Needs :=
  if s.candidate c p then
    match s.needs c p with
    | some n => if s.pickable c.core c.row n then some n else none
    | none => none
  else none

/-- The next pick of a row: the oldest split of the row that can be picked, and its needs (R271). -/
noncomputable def State.rowPick (s : State) (core row : Nat) : Option (Crew × Split × Needs) :=
  if s.rowOpen core row then
    s.age.findSome? fun e =>
      match s.crew? e.1 with
      | some c =>
        if c.core == core && c.row == row then
          (match c.split? e.2 with
           | some p => (s.canPick c p).map fun n => (c, p, n)
           | none => none)
        else none
      | none => none
  else none

/-- The rows of a core in the order in which they pick in a cycle (R272). -/
def State.rowOrder (s : State) : List Nat := (List.range 4).map fun k => (s.cycle + k) % 4

/-- The cores that hold crews, in ascending order. -/
def State.busyCores (s : State) : List Nat := sortBy (fun a b => decide (a < b)) (s.crews.map (·.core)).eraseDups

/-- The next pick of the cycle. The cores pick apart from each other. -/
noncomputable def State.nextPick (s : State) : Option (Crew × Split × Needs) :=
  s.busyCores.findSome? fun k => s.rowOrder.findSome? fun r => s.rowPick k r

/-! ## Cycles -/

/-- The passes of shells of a cycle, at most `fuel` of their effects (R233 to R237). -/
def State.passShells (s : State) : Nat → State
  | 0 => s
  | fuel + 1 =>
    match s.dueShell with
    | some t => t.passShells fuel
    | none => s

/-- By how much FTIME is slewed in a cycle: toward the master's time, by a free value of up to 200 ppm of a third of a nanosecond (R326; log
entry 4). -/
def State.slewBy (s : State) : Int :=
  let n : Nat := min (Config.freeTick s.free % 201) s.fab.slew.natAbs
  if s.fab.slew < 0 then -(n : Int) else n

/-- FTIME runs on once it has been locked: a third of a nanosecond a cycle, and what it is slewed by (R1, R326; log entry 4). -/
def State.runTime (s : State) : State :=
  if s.fab.everLocked then
    let n := ((s.ftfrac : Int) + 1000000 + s.slewBy).toNat
    { s with
      ftime := .ofNat 64 (min (s.ftime.toNat + n / 3000000) (2 ^ 64 - 1)), ftfrac := n % 3000000
      fab := { s.fab with slew := s.fab.slew - s.slewBy } }
  else s

/-- Held launches whose time has come become pending (R262). -/
def State.releaseHeld (s : State) : State :=
  { s with launches := s.launches.map fun l =>
      match l.phase with
      | .held t => if t ≤ s.ftime then { l with phase := .pending } else l
      | _ => l }

/-- A cycle ends: the cox takes its events (R289) and time passes (R326, R372). The next one begins: nothing has been picked in it, no flag has been raised, every split
may be tried again, and shells pass their stations. -/
def State.tick (s : State) : State :=
  let t := s.coxPass.runTime.watchEol.releaseHeld.retry
  State.passShells { t with
    cycle := t.cycle + 1, free := t.free + 1, picks := [], woke := [], entered := [], passed := [], arrived := []
    crews := t.crews.map fun (c : Crew) => { c with raised := 0 } }
    (t.shreqs.length + 2 * t.landings.length + t.cooling.length)

/-! ## Issuing -/

/-- The issue ends: no split is selected any more. -/
def State.finish (s : State) : State := { s with cur := none }

/-- A function of the next state of an outcome. -/
def onNext (f : State → State) : Host.Outcome State Fault Refusal → Host.Outcome State Fault Refusal
  | .next s => .next (f s)
  | .fault e => .fault e
  | .refused r => .refused r

/-- A split's fetched instruction runs, or its fetch traps. -/
noncomputable def runFetched (f : Fetched) (s : State) : Host.Outcome State Fault Refusal :=
  match f with
  | .instr i => exec i s
  | .trap t => issue s fun _ _ _ => .error (.trap t)
  | .held => .next s

/-- Whether a split's instruction was found unable to issue: it waits. -/
def State.unready (s : State) (cid sid : Nat) : Bool :=
  match s.split? cid sid with
  | some p => p.tried || (match p.status with | .nbrWait _ => true | _ => false)
  | none => false

/-- An instruction that was found unable to issue is no pick. -/
def State.unpick (picks : List Pick) (sfu : SMap Nat) (cid sid : Nat) (t : State) : State :=
  if t.unready cid sid then { t with picks := picks, sfu := sfu } else t

/-- A pick issues: its instruction runs and, where it issues, takes what it needs of its row. A boundary trap that is due comes
first and is no pick. -/
noncomputable def State.issuePick (s : State) (k : Crew × Split × Needs) : Host.Outcome State Fault Refusal :=
  let c := k.1
  let p := k.2.1
  let t := if (s.dueTrap c.cid p).isSome then s else s.notePick c p k.2.2
  onNext (fun u => (State.unpick s.picks s.sfu c.cid p.sid u).finish) (runFetched (s.fetch c p) (t.select c p))

/-- Nothing can issue: what ends of itself does, or a cycle passes. -/
def State.rest (s : State) : State :=
  match s.dueLate with
  | some t => t.retry
  | none => s.tick

/-- The next issue: the next pick of this cycle or, once nothing more can be picked in it, the first of the next. None issues
while the device is too hot (R368). -/
noncomputable def State.issueNext (s : State) : Host.Outcome State Fault Refusal :=
  if s.svc.hot then .next s.rest
  else
    match s.nextPick with
    | some k => s.issuePick k
    | none =>
      if s.picks.isEmpty then .next s.rest
      else
        match s.tick.nextPick with
        | some k => s.tick.issuePick k
        | none => .next s.tick

/-- The next pick of a core up to a row: the rows pick in their order, and none is passed over that can (R272). -/
noncomputable def State.corePick (s : State) (core row : Nat) : Option (Crew × Split × Needs) :=
  (s.rowOrder.takeWhile (· != row) ++ [row]).findSome? fun r => s.rowPick core r

/-- The next pick of a core up to a row, in this cycle if it can still be made in it, else in the next (R271, R272). -/
noncomputable def State.issueRow (s : State) (core row : Nat) : Host.Outcome State Fault Refusal :=
  if s.svc.hot then .next s.tick
  else
    match s.corePick core row with
    | some k => s.issuePick k
    | none =>
      match s.tick.corePick core row with
      | some k => s.tick.issuePick k
      | none => .next s.tick

/-! ## The tape -/

/-- The next turn of the tape. An instruction with a word is issued by a split, never by an event. -/
noncomputable def State.turn (s : State) : Turn → Host.Outcome State Fault Refusal
  | .event i => if i.isWord then .next s else exec i s
  | .issue => s.issueNext
  | .issueRow core row => s.issueRow core row
  | .evict core line => .next (s.l1Evict core line)
  | .perform id => fire s (s.performPiece id)
  | .land seq line => fire s (s.land seq line)
  | .registerCopy seq => fire s (s.registerCopy seq)
  | .load cid sid seq => fire s (s.arrivalOf cid sid seq)
  | .wroteBack slice line => fire s (s.wroteBack slice line)
  | .codeFill lid core pa => fire s (s.codeFill lid core pa)
  | .codeUse lid core pa k => .next (s.codeUse lid core pa k).retry
  | .gateway src key c => fire s (s.hear src key c)
  | .serveCell lid x y peer => fire s (s.serveCell lid x y peer)
  | .late cid sid => .next (s.stall cid sid)
  | .ack dst key => fire s (s.ackStrict dst key)
  | .foreign pa bytes => fire s (s.foreignWrite pa bytes)
  | .flit port src key offset ask data => fire s (s.flitIn port src key offset false data (some ask))
  | .serve src key offset => fire s (s.serveAsk src key offset)
  | .holderGone line src => .next (s.returnLine line src).retry

/-- What the device does by itself: the first event that is due, else the next issue. -/
noncomputable def State.alone (s : State) : Host.Outcome State Fault Refusal :=
  match s.due with
  | some t => .next t.retry
  | none => s.issueNext

end Sys2Proof.Machine
end

