-- ==== Sys2Proof/Machine/Step.lean ====
section
/-! DEFINITION. One step of the device, and how the host places an instruction where the next step fetches. -/

namespace Sys2Proof.Machine

/-- One step: the next turn of the tape, or, with the tape at its end, what the device does by itself. -/
noncomputable def step (s : State) : Host.Outcome State Fault Refusal :=
  match s.tape with
  | t :: rest => State.turn { s with tape := rest } t
  | [] => s.alone

/-- The program counter at which `withFetchWord` places its instruction. -/
def fetchAt : Nat := 0x1000

/-- The partition of `withFetchWord`: bay 0 alone. -/
def fetchPart : Partition := { Partition.reset with en := true, eng := [(0, 1)] }

/-- The context of `withFetchWord`: ASID 1 of partition 0, with every shell and a trap handler at 0x2000. -/
def fetchContext : Context :=
  { asid := 1, part := 0, trapent := 0x2000, irqaddr := 0, irqkey := 0, rarrive := 0, shbase := 0, shcount := 576
    seats := 16, l2rate := 3000, l2ceil := 3000, nextGid := 2, resident := true, switching := false, stopping := false
    since := 0 }

/-- The record of the launch of `withFetchWord`: a grid of one team of one crew with a window of 128 registers and a whole
scratchpad. -/
def fetchRecord : LRec :=
  { kind := 0, notify := false, prio := 0, hold := false, fuseL1 := false, cores := false, teams := 1, entry := 0x1000
    args := 0, spillBase := 0x4000, spillSz := 0x10000, frame := 512, squad := 1, crews := 1, scratch := 524288
    shells := 0, done := none, xext := 0, yext := 0, pub := 0, bx := 0, bY := 0, seatq := 0, backing := 0, edgex := 0
    edgey := 0, dgx := 0, dgy := 0, devmap := 0 }

/-- The launch of `withFetchWord`. -/
def fetchLaunch (lid : Nat) : Launch :=
  { lid := lid, asid := 1, gid := 1, nest := 1, record := fetchRecord, status := some 0x800, parent := none, ptid := 0
    phase := .placed, nextTeam := 1, retired := 0, dx := 0, dy := 0, peers := [], cut := false, slots := [], events := []
    mute := false, told := [] }

/-- The team of `withFetchWord`, on core 0. -/
def fetchTeam (lid : Nat) : Team :=
  { lid := lid, tid := 0, core := 0, base := 0, size := 524288, scratch := [], spoison := [], crewsLeft := 1
    phase := .resident }

/-- `s` with an instruction whose bits are `w` stored where the next step fetches it: a machine in which one crew of one
team is resident on core 0, whose row has picked nothing in this cycle, with an identity translation of the first GiB in the core's TLB, and that crew's split is the
next to issue. -/
def State.withFetchWord (s : State) (_nbits w : Nat) : State :=
  let c := newCrew (fetchLaunch s.nextId) s.nextId 0 0 0 0 0
  { s with
    parts := s.parts.set 0 fetchPart, contexts := [fetchContext], launches := [fetchLaunch s.nextId]
    teams := [fetchTeam s.nextId], crews := [c], age := [(s.nextId, 0)], tape := [.issue], picks := [], woke := [], entered := [], sfu := []
    nextId := s.nextId + 1, icache := [], tlb := [⟨0, 1, 0, 30, 0, true, true⟩]
    levels := (List.range 12).foldl (fun m k => sset 0 m (65536 * k + 1) 3000) s.levels
    ticks := (List.range 12).foldl (fun m k => sset 0 m k s.micros) s.ticks, misses := [], spillq := []
    svc := { s.svc with hot := false }
    mem := ssetList 0 s.mem fetchAt (bytesOfWord (BitVec.ofNat 32 w))
    mpoison := s.mpoison.filter (· != fetchAt / 4) }

end Sys2Proof.Machine
end

