-- ==== Sys2Proof/WellFormed.lean ====
section
/-! DEFINITION. Which instructions are well formed: no field holds a code that the spec reserves, and every
operand that the word alone decides is one that the instruction may name (R39 to R42, R48, R54, R55). A word that
decodes to an ill-formed instruction still has a meaning: it raises ILLOP or ILLOPND. What depends on the crew
(the window of R28, pins, modes) is met by the meaning. -/

namespace Sys2Proof

/-- Whether an operand is a lane register (Table 3.2). -/
def Src.isLane : Src → Bool
  | .v _ => true
  | .s _ => false
  | .nbr _ _ => false

/-- Whether a destination field names a lane register (R39). -/
def laneReg (d : BitVec 8) : Bool := decide (d.toNat < 128)

/-- The fields of an LM word with a group of `n` registers (R40): T names the first of a group, and a uniform X
has SC = 0. -/
def lmOk (t x : BitVec 8) (sc : BitVec 2) (n : Nat) : Bool :=
  laneReg t && t.toNat % n == 0 && (laneReg x || sc == 0)

/-- The fields of an LA word with a group of `n` registers (R41): A is the even register of a pair. -/
def laOk (t a : BitVec 8) (n : Nat) : Bool :=
  laneReg t && t.toNat % n == 0 && laneReg a && a.toNat % 2 == 0

/-- Whether a semantic has an acquire part (Table 3.3). -/
def acquires : Sem → Bool
  | .relaxed => false
  | .acq => true
  | .rel => false
  | .ar => true

/-- Whether a semantic has a release part (Table 3.3). -/
def releases : Sem → Bool
  | .relaxed => false
  | .acq => false
  | .rel => true
  | .ar => true

/-- Whether CVT has a pair of type codes: two different assigned codes, not both integer (R48). -/
def cvtPair (t u : Nat) : Bool := decide (t < 5) && decide (u < 5) && t != u && decide (1 < t ∨ 1 < u)

/-- Whether Table 2.4 assigns a special register number. -/
def specialNumber (n : Nat) : Bool := decide (n ≤ 0x15)

/-- Whether a special register has 64 bits (Table 2.4): FTIME, TRAPPC, TADDR, TAUX. -/
def specialWide (n : Nat) : Bool := n == 0x11 || n == 0x13 || n == 0x14 || n == 0x15

/-- Whether a special register may be written, in handler mode at least (Table 2.4, R33). -/
def writable (n : Nat) : Bool := decide (0x0C ≤ n ∧ n ≤ 0x0E) || decide (0x12 ≤ n ∧ n ≤ 0x15)

/-- Whether an instruction is well formed; of an event, whether its numbers name parts of the device. -/
def Instr.wf : Instr → Bool
  | .addLr d _ _ => laneReg d
  | .addLi d _ _ => laneReg d
  | .subLr d _ _ => laneReg d
  | .addSatS d _ _ => laneReg d
  | .addSatU d _ _ => laneReg d
  | .subSatS d _ _ => laneReg d
  | .subSatU d _ _ => laneReg d
  | .mulLr d _ _ => laneReg d
  | .mulhiULr d _ _ => laneReg d
  | .minSLr d _ _ => laneReg d
  | .minULr d _ _ => laneReg d
  | .maxSLr d _ _ => laneReg d
  | .maxULr d _ _ => laneReg d
  | .andLr d _ _ => laneReg d
  | .andLi d _ _ => laneReg d
  | .orLr d _ _ => laneReg d
  | .orLi d _ _ => laneReg d
  | .xorLr d _ _ => laneReg d
  | .xorLi d _ _ => laneReg d
  | .shlLr d _ _ => laneReg d
  | .shlLi d _ _ => laneReg d
  | .shrULr d _ _ => laneReg d
  | .shrULi d _ _ => laneReg d
  | .shrSLr d _ _ => laneReg d
  | .shrSLi d _ _ => laneReg d
  | .notL d _ => laneReg d
  | .negL d _ => laneReg d
  | .absL d _ => laneReg d
  | .popcL d _ => laneReg d
  | .clzL d _ => laneReg d
  | .brevL d _ => laneReg d
  | .sextBL d _ => laneReg d
  | .sextHL d _ => laneReg d
  | .cmpeqLr d _ _ => laneReg d
  | .cmpltSLr d _ _ => laneReg d
  | .cmpltULr d _ _ => laneReg d
  | .cmpleSLr d _ _ => laneReg d
  | .cmpleULr d _ _ => laneReg d
  | .fadd d _ _ => laneReg d
  | .fsub d _ _ => laneReg d
  | .fmul d _ _ => laneReg d
  | .ffma d _ _ => laneReg d
  | .ffnma d _ _ => laneReg d
  | .fmin d _ _ => laneReg d
  | .fmax d _ _ => laneReg d
  | .frcp d _ => laneReg d
  | .fsqrt d _ => laneReg d
  | .frsq d _ => laneReg d
  | .fexp2 d _ => laneReg d
  | .flog2 d _ => laneReg d
  | .fcmpeq d _ _ => laneReg d
  | .fcmplt d _ _ => laneReg d
  | .fcmple d _ _ => laneReg d
  | .fcmpun d _ _ => laneReg d
  | .hadd2F16 d _ _ => laneReg d
  | .hadd2Bf16 d _ _ => laneReg d
  | .hsub2F16 d _ _ => laneReg d
  | .hsub2Bf16 d _ _ => laneReg d
  | .hmul2F16 d _ _ => laneReg d
  | .hmul2Bf16 d _ _ => laneReg d
  | .hfma2F16 d _ _ => laneReg d
  | .hfma2Bf16 d _ _ => laneReg d
  | .hmin2F16 d _ _ => laneReg d
  | .hmin2Bf16 d _ _ => laneReg d
  | .hmax2F16 d _ _ => laneReg d
  | .hmax2Bf16 d _ _ => laneReg d
  | .hdot2F16 d _ _ => laneReg d
  | .hdot2Bf16 d _ _ => laneReg d
  | .cvt d _ _ t sc => laneReg d && cvtPair t.toNat sc.toNat
  | .cvt2F16 d _ _ => laneReg d
  | .cvt2Bf16 d _ _ => laneReg d
  | .qscale d a f l => laneReg d && decide (f.toNat < 5) && (l == 0 || a.isLane)
  | .qpack d _ _ => laneReg d
  | .qunpk d _ _ => laneReg d
  | .movL d _ => laneReg d
  | .moviL d _ => laneReg d
  | .movh d _ => laneReg d
  | .sel d _ _ => laneReg d
  | .shfl d a _ => laneReg d && a.isLane
  | .perm d _ _ => laneReg d
  | .ifLc _ _ => true
  | .elseLc _ => true
  | .endif _ => true
  | .loop _ => true
  | .brk d _ => d != 0xFF
  | .cont d _ => d != 0xFF
  | .lend _ => true
  | .split _ _ => true
  | .meet _ => true
  | .join _ => true
  | .ldgB t x _ sc => lmOk t x sc 1
  | .ldgH t x _ sc => lmOk t x sc 1
  | .ldgW t x _ sc => lmOk t x sc 1
  | .ldgD t x _ sc => lmOk t x sc 2
  | .ldgQ t x _ sc => lmOk t x sc 4
  | .stgB t x _ sc => lmOk t x sc 1
  | .stgH t x _ sc => lmOk t x sc 1
  | .stgW t x _ sc => lmOk t x sc 1
  | .stgD t x _ sc => lmOk t x sc 2
  | .stgQ t x _ sc => lmOk t x sc 4
  | .ldsB t x _ sc => lmOk t x sc 1
  | .ldsH t x _ sc => lmOk t x sc 1
  | .ldsW t x _ sc => lmOk t x sc 1
  | .ldsD t x _ sc => lmOk t x sc 2
  | .ldsQ t x _ sc => lmOk t x sc 4
  | .stsB t x _ sc => lmOk t x sc 1
  | .stsH t x _ sc => lmOk t x sc 1
  | .stsW t x _ sc => lmOk t x sc 1
  | .stsD t x _ sc => lmOk t x sc 2
  | .stsQ t x _ sc => lmOk t x sc 4
  | .ldqW t x _ sc => lmOk t x sc 1
  | .stqW t x _ sc => lmOk t x sc 1
  | .ldaW t a _ => laOk t a 1
  | .stlW t a _ => laOk t a 1
  | .ldrW t a => laOk t a 1
  | .stcW t a => laOk t a 2
  | .atomAdd t a _ _ => laOk t a 1
  | .atomAnd t a _ _ => laOk t a 1
  | .atomOr t a _ _ => laOk t a 1
  | .atomXor t a _ _ => laOk t a 1
  | .atomMinS t a _ _ => laOk t a 1
  | .atomMinU t a _ _ => laOk t a 1
  | .atomMaxS t a _ _ => laOk t a 1
  | .atomMaxU t a _ _ => laOk t a 1
  | .atomXchg t a _ _ => laOk t a 1
  | .atomCas t a _ _ => laOk t a 2
  | .atomAddF t a _ _ => laOk t a 1
  | .atomAddD t a _ _ => laOk t a 2
  | .atomXchgD t a _ _ => laOk t a 2
  | .atomCasD t a _ _ => laOk t a 4
  | .atomSeqAdd t a _ _ => laOk t a 2
  | .atomSeqAnd t a _ _ => laOk t a 2
  | .atomSeqOr t a _ _ => laOk t a 2
  | .atomSeqXor t a _ _ => laOk t a 2
  | .atomSeqMinS t a _ _ => laOk t a 2
  | .atomSeqMinU t a _ _ => laOk t a 2
  | .atomSeqMaxS t a _ _ => laOk t a 2
  | .atomSeqMaxU t a _ _ => laOk t a 2
  | .atomSeqXchg t a _ _ => laOk t a 2
  | .atomSeqCas t a _ _ => laOk t a 4
  | .atomSeqAddF t a _ _ => laOk t a 2
  | .atomSeqAddD t a _ _ => laOk t a 4
  | .atomSeqXchgD t a _ _ => laOk t a 4
  | .atomSeqCasD t a _ _ => laOk t a 8
  | .redAdd t a _ e => laOk t a 1 && !acquires e
  | .redAnd t a _ e => laOk t a 1 && !acquires e
  | .redOr t a _ e => laOk t a 1 && !acquires e
  | .redXor t a _ e => laOk t a 1 && !acquires e
  | .redMinS t a _ e => laOk t a 1 && !acquires e
  | .redMinU t a _ e => laOk t a 1 && !acquires e
  | .redMaxS t a _ e => laOk t a 1 && !acquires e
  | .redMaxU t a _ e => laOk t a 1 && !acquires e
  | .redAddF t a _ e => laOk t a 1 && !acquires e
  | .redAddD t a _ e => laOk t a 2 && !acquires e
  | .addU _ _ _ => true
  | .subU _ _ _ => true
  | .mulU _ _ _ => true
  | .mulhiSU _ _ _ => true
  | .mulhiUU _ _ _ => true
  | .andU _ _ _ => true
  | .orU _ _ _ => true
  | .xorU _ _ _ => true
  | .andnU _ _ _ => true
  | .shlU _ _ _ => true
  | .shrUU _ _ _ => true
  | .shrSU _ _ _ => true
  | .minSU _ _ _ => true
  | .minUU _ _ _ => true
  | .maxSU _ _ _ => true
  | .maxUU _ _ _ => true
  | .cmpeqU _ _ _ => true
  | .cmpneU _ _ _ => true
  | .cmpltSU _ _ _ => true
  | .cmpltUU _ _ _ => true
  | .cmpleSU _ _ _ => true
  | .cmpleUU _ _ _ => true
  | .movU _ _ => true
  | .notU _ _ => true
  | .negU _ _ => true
  | .absU _ _ => true
  | .popcU _ _ => true
  | .clzU _ _ => true
  | .brevU _ _ => true
  | .sextBU _ _ => true
  | .sextHU _ _ => true
  | .sextWU _ _ => true
  | .addUi _ _ _ => true
  | .andUi _ _ _ => true
  | .orUi _ _ _ => true
  | .xorUi _ _ _ => true
  | .shlUi _ _ _ => true
  | .shrUUi _ _ _ => true
  | .shrSUi _ _ _ => true
  | .cmpeqUi _ _ _ => true
  | .cmpltSUi _ _ _ => true
  | .cmpltUUi _ _ _ => true
  | .moviU _ _ => true
  | .movx _ _ => true
  | .bra _ => true
  | .bz _ _ => true
  | .bnz _ _ => true
  | .jmp _ => true
  | .call n _ => n != 0 && decide (n.toNat < 16)
  | .trap _ => true
  | .any _ _ => true
  | .all _ _ => true
  | .ballot _ _ => true
  | .srdS _ p => specialNumber p.toNat
  | .srdV d p _ => specialNumber p.toNat && !(specialWide p.toNat && d.toNat % 2 == 1)
  | .swr _ p => writable p.toNat
  | .fence _ e => e != .relaxed
  | .fqpop d => decide (d.toNat ≤ 60)
  | .launch _ => true
  | .launchAt _ _ => true
  | .fbMark _ _ _ => true
  | .barAlloc _ => true
  | .barInit _ _ _ => true
  | .barExpect _ _ => true
  | .barArrive _ => true
  | .barArriveQ _ _ => true
  | .barWait _ => true
  | .barTest _ _ => true
  | .barFree _ => true
  | .cpTile _ _ _ _ => true
  | .cpBulk _ _ _ _ => true
  | .cpGather _ _ _ _ => true
  | .cpRed _ _ _ _ => true
  | .cpAt _ _ _ => true
  | .mma _ _ _ _ => true
  | .accZero _ => true
  | .accLd _ _ => true
  | .accSt _ _ _ _ => true
  | .accRed _ _ _ _ => true
  | .sldB _ _ _ => true
  | .sldH _ _ _ => true
  | .sldW _ _ _ => true
  | .sldD _ _ _ => true
  | .sstB _ _ _ => true
  | .sstH _ _ _ => true
  | .sstW _ _ _ => true
  | .sstD _ _ _ => true
  | .shGetW _ _ e => !releases e
  | .shGetP _ _ e => !releases e
  | .shOpAdd _ _ _ _ => true
  | .shOpAddF _ _ _ _ => true
  | .shOpMin _ _ _ _ => true
  | .shOpMax _ _ _ _ => true
  | .shOpMinS _ _ _ _ => true
  | .shOpMinU _ _ _ _ => true
  | .shOpMaxS _ _ _ _ => true
  | .shOpMaxU _ _ _ _ => true
  | .shOpAnd _ _ _ _ => true
  | .shOpOr _ _ _ _ => true
  | .shOpXor _ _ _ _ => true
  | .shOpSwap _ _ _ _ => true
  | .shOpCas _ _ b _ => b != 63
  | .shLand _ => true
  | .shPut _ _ => true
  | .shFloat _ e => !acquires e
  | .ret => true
  | .exit => true
  | .yield => true
  | .nop => true
  | .rett => true
  | .term => true
  | .stdrain => true
  | .step => true
  | .fbGo => true
  | .teamRetire _ _ => true
  | .gridRetire _ => true
  | .launchAtDue _ => true
  | .distributorPass part => decide (part < 24)
  | .contextSwitchOut _ => true
  | .contextSwitchIn _ => true
  | .preempt _ _ => true
  | .teamResume _ _ => true
  | .splitWake _ _ => true
  | .fairnessSwap _ _ => true
  | .yieldShadowEnd _ _ => true
  | .mmaExec core => decide (core < 288)
  | .accZeroExec core => decide (core < 288)
  | .accLdExec core => decide (core < 288)
  | .accStExec core => decide (core < 288)
  | .accStComplete core => decide (core < 288)
  | .accRedExec core => decide (core < 288)
  | .accRedComplete core => decide (core < 288)
  | .copyDispatch core => decide (core < 288)
  | .cpAtDispatch core _ => decide (core < 288)
  | .copyComplete _ _ => true
  | .sliceAdderOp _ => true
  | .heldWritePerform _ => true
  | .storeRegistration _ => true
  | .sectorRevoke _ => true
  | .ownerWriteBack _ => true
  | .readForward core _ => decide (core < 288)
  | .mirrorInvalidate _ => true
  | .lineFill slice _ => decide (slice < 288)
  | .spillQueueRefill slice => decide (slice < 288)
  | .peerL1Probe core _ => decide (core < 288)
  | .registrationAck core _ => decide (core < 288)
  | .storeTranslate _ _ => true
  | .faultQueueAdmit core => decide (core < 288)
  | .pageWalkDone core _ _ => decide (core < 288)
  | .trapEntry _ _ => true
  | .shellOpEffect core shell => decide (shell < 576) && decide (core < 288)
  | .shellLandEffect core shell => decide (shell < 576) && decide (core < 288)
  | .shellFloatEffect shell => decide (shell < 576)
  | .shellOverstay shell => decide (shell < 576)
  | .shellLandingLoss shell => decide (shell < 576)
  | .shellCooldownEnd shell => decide (shell < 576)
  | .neighbourRead _ _ => true
  | .stepComplete _ _ => true
  | .pageOut _ _ => true
  | .hostCut _ => true
  | .ctxStart part asid => decide (part < 24) && decide (asid < 65536)
  | .ctxStop part asid => decide (part < 24) && decide (asid < 65536)
  | .pctlWrite part _ => decide (part < 24)
  | .engMaskWrite part die _ => decide (part < 24) && decide (die < 4)
  | .scrubComplete bay => decide (bay < 24)
  | .l2BucketTick slice => decide (slice < 288)
  | .portBucketTick port => decide (port < 72)
  | .kbktWrite entry _ => decide (entry < 64)
  | .ingressFlit port _ _ _ _ _ => decide (port < 72)
  | .exportRequest _ _ _ _ _ => true
  | .remoteArrive _ _ _ _ _ => true
  | .arrivalPerform _ => true
  | .routeUnusableTimeout _ => true
  | .strictRetransmit _ _ => true
  | .rswapRoute => true
  | .rswapKey => true
  | .swapComplete => true
  | .portFail port => decide (port < 72)
  | .portLive port => decide (port < 72)
  | .portctlEn port _ => decide (port < 72)
  | .portctlFailClear port => decide (port < 72)
  | .portctlKclr port => decide (port < 72)
  | .ftimeSyncExchange _ _ => true
  | .ftimeLockLoss => true
  | .shootdownPage part asid size => decide (part < 24) && decide (asid < 65536) && decide (size < 3)
  | .shootdownAll part asid => decide (part < 24) && decide (asid < 65536)
  | .shootdownComplete part => decide (part < 24)
  | .correctableError _ => true
  | .uncorrectableError _ => true
  | .powerThrottle _ => true
  | .hotStop _ => true
  | .hotClear _ => true
  | .deviceReset _ => true
  | .attGo => true
  | .attQuoteDone => true
  | .attnonceWrite _ _ => true
  | .coreretWrite _ => true
  | .coreMarginFail core => decide (core < 288)
  | .eolUpdate _ => true
  | .ceclrWrite _ => true
  | .mgmtRegisterWrite _ _ _ => true
  | .loadDataArrival _ _ => true
  | .bayRetire bay => decide (bay < 24)

end Sys2Proof
end

