-- ==== Sys2Proof/Safety.lean ====
section
/-! DEFINITION. The terms in which claims about the machine are made: when an instruction issues and completes, what it
may touch, and the states that count as well formed. -/

namespace Sys2Proof.Machine

/-! ## Well-formed states -/

/-- The machine's standing invariant: the memory is in its canonical form, and the device has 24 partitions and 24 bays. -/
structure State.Inv (s : State) : Prop where
  mem   : s.memWf = true
  parts : s.parts.length = 24
  bays  : s.bays.length = 24

/-- The sparse tables of a state are in their canonical form (log entry 1), and every barrier entry, that of a pre-empted team among
them, has one of the 256 numbers of a core's table (R173). -/
structure State.TablesWf (s : State) : Prop where
  owners  : swf noOwner s.owner = true
  writes  : swf 0 s.wseq = true
  shells  : swf 0 s.shells = true
  tokens  : swf 0 s.levels = true
  pads    : ∀ t ∈ s.teams, swf 0 t.scratch = true
  entries : ∀ b ∈ s.bars, b.idx < 256
  saved   : ∀ t ∈ s.teams, ∀ crews bars faults, t.phase = .saved crews bars faults → ∀ b ∈ bars, b.idx < 256

/-- A step of the machine is safe where it answers a next state: it neither faults nor is refused. -/
def SafeAt (s : State) : Prop := ∃ t, step s = .next t

/-! ## When an instruction issues (R270, R331) -/

/-- The split `p` of the crew `c` is the issuer of the next instruction, it may issue, and no boundary trap is due. -/
structure Issues (s : State) (c : Crew) (p : Split) : Prop where
  cur   : s.cur = some (c.cid, p.sid)
  crew  : s.crew? c.cid = some c
  split : c.split? p.sid = some p
  may   : s.mayIssue c p = true
  due   : s.dueTrap c.cid p = none

/-- The registers that an instruction names are in reach: in the window and published (R39, R284), not pinned unless the
instruction is a mark (R350), with no data still to arrive (R160), served by the neighbours (R284) and not poisoned (R346). -/
structure Clear (s : State) (c : Crew) (p : Split) (u : Uses) (marks : Bool) : Prop where
  range  : u.inRange s c = true
  nbr    : u.srcs.findSome? (nbrTrap s c p) = none
  pins   : marks = true ∨ u.pinned c p = none
  free   : u.busy s c p = false
  served : u.waitsFor s c p = []
  clean  : u.poison s c p = none

/-! ## What an instruction may touch -/

/-- A split that may be tried again (R270). -/
def Split.untried (p : Split) : Split := { p with tried := false }

/-- A crew whose splits may be tried again. -/
def Crew.untried (c : Crew) : Crew := { c with splits := c.splits.map Split.untried }

/-- A fallback record with one more issue counted for its fairness (R255). -/
def fbCounted (f : Option Fallback) : Option Fallback :=
  match f with | some f => some { f with count := f.count + 1 } | none => none

/-- A split after it has issued: at `pc`, with its issue counted. -/
def Split.issued (p : Split) (pc : DWord) : Split :=
  { p with pc := pc, tried := false, waits := none, muted := false, fb := fbCounted p.fb }

/-- A host that has issued stands no more at the end of a STEP (R288). -/
def hostIssued (h : Option HostInfo) : Option HostInfo :=
  match h with | some h => some { h with stepAt := none, issued := true } | none => none

/-- The loads under way of a crew of which a split has issued: none of that split is its last instruction any more (R346). -/
def agedLoads (c : Crew) (p : Split) : List PLoad :=
  c.loads.map fun (q : PLoad) => if q.sid == p.sid then { q with fresh := false } else q

/-- The splits of the crew `c'` are those of `c`, which may be tried again, but for `p`, which is now `q`. -/
def SplitsGo (c c' : Crew) (p q : Split) : Prop :=
  ∀ n, c'.split? n = if n = p.sid then some q else (c.split? n).map Split.untried

/-- The instruction of the split `p` of `c` has been issued: its crew becomes `c'` and `p` becomes `q`, no other split of the
crew has moved, and every other crew is as before. -/
structure Moves (s t : State) (c c' : Crew) (p q : Split) : Prop where
  others : ∀ k, k ≠ c.cid → t.crew? k = (s.crew? k).map Crew.untried
  crew   : t.crew? c.cid = some c'
  splits : SplitsGo c c' p q
  host   : c'.host = hostIssued c.host

/-- An instruction that touches nothing but its own crew: memory, scratchpads, barrier objects, engines, shells, contexts,
tables and the units of the device are as before. -/
structure Goes (s t : State) (c c' : Crew) (p q : Split) : Prop extends Moves s t c c' p q where
  rest : t = { s with crews := t.crews, age := t.age, woke := t.woke, entered := t.entered }

/-! ## Fences (R167) -/

/-- No acquiring access precedes what the split does next, and no fence of the split is under way, or what it waits for is over: a
memory access of the split may go on (R166, R167). -/
def FenceOver (s : State) (c : Crew) (p : Split) : Prop :=
  (∀ q ∈ c.loads, p.follows q.sid q.seq = true → q.acq = none) ∧
  (∀ q ∈ s.adds, q.cid = c.cid → p.follows q.sid q.seq = true → q.acq = none) ∧
  ∀ f, p.fence = some f → s.fenceDone c p f = true

/-- An acquire of a core at a scope takes this word out of an L1 (Table 10.1): at squad scope the unowned words of its cluster, at
device and system scope those of its own L1; at team scope none. -/
def AcquireDrops (s : State) (core : Nat) (sc : Scope) (w : L1Word) : Prop :=
  w.st = .clean ∧
    (sc = .squad ∧ clusterOf w.core = clusterOf core ∨
     (sc = .dev ∨ sc = .sys) ∧ (w.core = core ∨ (clusterOf core ∈ s.fused ∧ clusterOf w.core = clusterOf core)))

/-- The split once its fence is over: an acquire part that reaches beyond the cluster takes its place `n` in the order (R223). -/
def Split.fenced (p : Split) (n : Nat) : Split :=
  match p.fence with
  | none => p
  | some f => { p with
      fence := none
      acqAt := if (f.sem = .acq ∨ f.sem = .ar) ∧ (f.scope = .dev ∨ f.scope = .sys) then n else p.acqAt }

/-- The state once the acquire part of the fence of the split, if it has one, has been taken (R167). -/
def State.fenced (s : State) (c : Crew) (p : Split) : State :=
  match p.fence with
  | some f => if f.sem = .acq ∨ f.sem = .ar then s.acquire c.core f.scope else s
  | none => s

/-- A completion handle of an engine command that is accepted: none, or that of an object that is live for the split (R186). -/
def HandleOk (s : State) (c : Crew) (p : Split) (h : DWord) : Prop :=
  h.toNat < 2 ^ 17 ∧ (h = 0 ∨ ∃ o, s.handleObj c.core c.lid c.team h = some o ∧ s.barValid c.cid p o = true)

/-- What the acquire part of the fence of the split leaves of the L1s (R167). -/
def FenceActs (s t : State) (c : Crew) (p : Split) : Prop :=
  ∀ w, w ∈ t.l1 ↔ w ∈ s.l1 ∧ ¬ ∃ f, p.fence = some f ∧ (f.sem = .acq ∨ f.sem = .ar) ∧ AcquireDrops s c.core f.scope w

/-- The state in which the checks of an instruction are made and its effect takes place: its issue has been counted. -/
abbrev begun (s : State) (c : Crew) (p : Split) : State := s.countIssue c.cid p.sid

/-- The crew as the instruction of the split `p` reads it: a second pick of a cycle reads the uniform registers, FPMODE,
FPFLAGS and CPOL that stood before the first (R34, R53). -/
abbrev reads (s : State) (c : Crew) (p : Split) : Crew := s.seen c p.sid

/-- Only lane registers, their poison and the floating-point flags of a crew differ, beside its splits, its host and the age of its loads. -/
def OnlyLanes (c c' : Crew) (p : Split) : Prop :=
  c' = { c with vregs := c'.vregs, vpoison := c'.vpoison, fpflags := c'.fpflags, raised := c'.raised
                splits := c'.splits, host := c'.host, loads := agedLoads c p }

/-- Only uniform registers and their poison differ, beside a crew's splits, its host and the age of its loads. -/
def OnlyUniform (c c' : Crew) (p : Split) : Prop :=
  c' = { c with sregs := c'.sregs, spoison := c'.spoison, raised := c'.raised
                splits := c'.splits, host := c'.host, loads := agedLoads c p }

/-- Lane register `d` of the window holds `val l` in each active lane `l`; every other register of every lane is as before,
and the registers written are not poisoned (R346). -/
structure LanesHold (c c' : Crew) (p : Split) (d : Nat) (val : Nat → Word) : Prop where
  regs   : ∀ l n, l < 32 →
    c'.vAbs l n = if l ∈ activeLanes c p ∧ n = c.wb + d then val l else c.vAbs l n
  poison : ∀ k, k ∈ c'.vpoison ↔ k ∈ c.vpoison ∧ ¬ ∃ l ∈ activeLanes c p, k = 32 * (c.wb + d) + l

/-- Uniform register `d` holds `x`; every other uniform register is as before, and the register written is not poisoned
(R346). -/
structure UniformHolds (c c' : Crew) (d : Nat) (x : DWord) : Prop where
  regs   : ∀ n, c'.u n = if n = d then x else c.u n
  poison : ∀ k, k ∈ c'.spoison ↔ k ∈ c.spoison ∧ k ≠ d

/-- The trap `k` is taken by the split `p` of `c` (R328, R329), whose crew is then `c'`: the split's control state is set aside and
starts anew, the trap registers hold the trap's values, and it goes on at TRAPENT in handler mode. Its landings are lost (Table
13.3); registers, memory, its siblings and the other crews are as before. -/
structure Enters (s t : State) (c c' : Crew) (p : Split) (k : Trap) : Prop where
  others : ∀ n, n ≠ c.cid → t.crew? n = (s.crew? n).map Crew.untried
  crew   : t.crew? c.cid = some c'
  splits : SplitsGo c c' p { p with
    pc := s.trapEnt c.asid, handler := some ⟨ctlOf c p, c.depth, s.nextId⟩, ad := 0, stack := [], fb := none
    tcause := k.cause.code, trappc := k.pc, taddr := k.taddr, taux := k.taux, status := .ready, tried := false
    waits := none, muted := false }
  inside : ∀ l, l < 32 → p.mask.getLsbD l = true → c'.ncOf l = 0 ∧ c'.markOf l = 0 ∧ c'.cb.getLsbD l = false
  beyond : ∀ l, l < 32 → p.mask.getLsbD l = false →
    c'.ncOf l = c.ncOf l ∧ c'.markOf l = c.markOf l ∧ c'.cb.getLsbD l = c.cb.getLsbD l
  keeps  : c' = { c with nc := c'.nc, cb := c'.cb, marks := c'.marks, splits := c'.splits }
  rest   : t = { s with crews := t.crews, age := t.age, woke := t.woke, entered := t.entered, landings := t.landings }

/-! ## Rounding (R77 to R79) -/

/-- The magnitude of code `k` of a format in units of its least subnormal, with the exponent range unbounded above (R77). -/
def units (f : Fmt) (k : Nat) : Nat := if k < 2 ^ f.frac then k else (2 ^ f.frac + k % 2 ^ f.frac) * 2 ^ (k / 2 ^ f.frac - 1)

/-- Rounding in mode `r` takes the exact magnitude `x / d`, in units of the least subnormal, of a value with sign `neg` to the code `k`
(R77): the nearest one, a tie going to the even fraction, or the one next below or above. -/
def RoundsTo (f : Fmt) (r : Rnd) (neg : Bool) (x d k : Nat) : Prop :=
  let off (j : Nat) : Nat := ((units f j * d : Nat) - (x : Int)).natAbs
  let down : Prop := units f k * d ≤ x ∧ x < units f (k + 1) * d
  let up : Prop := x ≤ units f k * d ∧ ∀ j, j < k → units f j * d < x
  match r with
  | .rn => ∀ j, j ≠ k → off k < off j ∨ (off k = off j ∧ k % 2 = 0)
  | .rz => down
  | .ru => if neg then down else up
  | .rd => if neg then up else down

end Sys2Proof.Machine
end

