-- ==== Sys2Proof/Safety/Rows.lean ====
section
/-! DEFINITION. What the spec's tables say the instructions of the lanes and the uniform scalars compute, one row per
instruction, written apart from the machine's meanings in exact arithmetic where the tables are. Claims compare the two. -/

namespace Sys2Proof.Machine

/-- A row of Tables 6.2 to 6.4 and of R111, R112, R114 and R164: an instruction, its destination, its operands, whether it
reads its old destination, and its value from the operands and that old value. -/
inductive IntRow : Instr → BitVec 8 → List Src → Bool → ((Src → Word) → Word → Word) → Prop where
  | addLr (d : BitVec 8) (a b : Src) : IntRow (.addLr d a b) d [a, b] false fun v _ =>
      let x := v a; let y := v b; BitVec.ofNat 32 (x.toNat + y.toNat)
  | subLr (d : BitVec 8) (a b : Src) : IntRow (.subLr d a b) d [a, b] false fun v _ =>
      let x := v a; let y := v b; BitVec.ofInt 32 (x.toInt - y.toInt)
  | addSatS (d : BitVec 8) (a b : Src) : IntRow (.addSatS d a b) d [a, b] false fun v _ =>
      let x := v a; let y := v b; BitVec.ofInt 32 (max (-2 ^ 31) (min (2 ^ 31 - 1) (x.toInt + y.toInt)))
  | addSatU (d : BitVec 8) (a b : Src) : IntRow (.addSatU d a b) d [a, b] false fun v _ =>
      let x := v a; let y := v b; BitVec.ofNat 32 (min (2 ^ 32 - 1) (x.toNat + y.toNat))
  | subSatS (d : BitVec 8) (a b : Src) : IntRow (.subSatS d a b) d [a, b] false fun v _ =>
      let x := v a; let y := v b; BitVec.ofInt 32 (max (-2 ^ 31) (min (2 ^ 31 - 1) (x.toInt - y.toInt)))
  | subSatU (d : BitVec 8) (a b : Src) : IntRow (.subSatU d a b) d [a, b] false fun v _ =>
      let x := v a; let y := v b; BitVec.ofInt 32 (max 0 ((x.toNat : Int) - y.toNat))
  | mulLr (d : BitVec 8) (a b : Src) : IntRow (.mulLr d a b) d [a, b] false fun v _ =>
      let x := v a; let y := v b; BitVec.ofNat 32 (x.toNat * y.toNat)
  | mulhiULr (d : BitVec 8) (a b : Src) : IntRow (.mulhiULr d a b) d [a, b] false fun v _ =>
      let x := v a; let y := v b; BitVec.ofNat 32 (x.toNat * y.toNat / 2 ^ 32)
  | minSLr (d : BitVec 8) (a b : Src) : IntRow (.minSLr d a b) d [a, b] false fun v _ =>
      let x := v a; let y := v b; BitVec.ofInt 32 (min x.toInt y.toInt)
  | minULr (d : BitVec 8) (a b : Src) : IntRow (.minULr d a b) d [a, b] false fun v _ =>
      let x := v a; let y := v b; BitVec.ofNat 32 (min x.toNat y.toNat)
  | maxSLr (d : BitVec 8) (a b : Src) : IntRow (.maxSLr d a b) d [a, b] false fun v _ =>
      let x := v a; let y := v b; BitVec.ofInt 32 (max x.toInt y.toInt)
  | maxULr (d : BitVec 8) (a b : Src) : IntRow (.maxULr d a b) d [a, b] false fun v _ =>
      let x := v a; let y := v b; BitVec.ofNat 32 (max x.toNat y.toNat)
  | andLr (d : BitVec 8) (a b : Src) : IntRow (.andLr d a b) d [a, b] false fun v _ =>
      let x := v a; let y := v b; x &&& y
  | orLr (d : BitVec 8) (a b : Src) : IntRow (.orLr d a b) d [a, b] false fun v _ =>
      let x := v a; let y := v b; x ||| y
  | xorLr (d : BitVec 8) (a b : Src) : IntRow (.xorLr d a b) d [a, b] false fun v _ =>
      let x := v a; let y := v b; x ^^^ y
  | shlLr (d : BitVec 8) (a b : Src) : IntRow (.shlLr d a b) d [a, b] false fun v _ =>
      let x := v a; let y := v b; BitVec.ofNat 32 (x.toNat * 2 ^ (y.toNat % 32))
  | shrULr (d : BitVec 8) (a b : Src) : IntRow (.shrULr d a b) d [a, b] false fun v _ =>
      let x := v a; let y := v b; BitVec.ofNat 32 (x.toNat / 2 ^ (y.toNat % 32))
  | shrSLr (d : BitVec 8) (a b : Src) : IntRow (.shrSLr d a b) d [a, b] false fun v _ =>
      let x := v a; let y := v b; BitVec.ofInt 32 (x.toInt / 2 ^ (y.toNat % 32))
  | cmpeqLr (d : BitVec 8) (a b : Src) : IntRow (.cmpeqLr d a b) d [a, b] false fun v _ =>
      let x := v a; let y := v b; if x.toNat = y.toNat then 1 else 0
  | cmpltSLr (d : BitVec 8) (a b : Src) : IntRow (.cmpltSLr d a b) d [a, b] false fun v _ =>
      let x := v a; let y := v b; if x.toInt < y.toInt then 1 else 0
  | cmpltULr (d : BitVec 8) (a b : Src) : IntRow (.cmpltULr d a b) d [a, b] false fun v _ =>
      let x := v a; let y := v b; if x.toNat < y.toNat then 1 else 0
  | cmpleSLr (d : BitVec 8) (a b : Src) : IntRow (.cmpleSLr d a b) d [a, b] false fun v _ =>
      let x := v a; let y := v b; if x.toInt ≤ y.toInt then 1 else 0
  | cmpleULr (d : BitVec 8) (a b : Src) : IntRow (.cmpleULr d a b) d [a, b] false fun v _ =>
      let x := v a; let y := v b; if x.toNat ≤ y.toNat then 1 else 0
  | addLi (d : BitVec 8) (a : Src) (i : BitVec 8) : IntRow (.addLi d a i) d [a] false fun v _ =>
      let x := v a; BitVec.ofInt 32 (x.toInt + i.toInt)
  | andLi (d : BitVec 8) (a : Src) (i : BitVec 8) : IntRow (.andLi d a i) d [a] false fun v _ =>
      let x := v a; x &&& BitVec.ofNat 32 i.toNat
  | orLi (d : BitVec 8) (a : Src) (i : BitVec 8) : IntRow (.orLi d a i) d [a] false fun v _ =>
      let x := v a; x ||| BitVec.ofNat 32 i.toNat
  | xorLi (d : BitVec 8) (a : Src) (i : BitVec 8) : IntRow (.xorLi d a i) d [a] false fun v _ =>
      let x := v a; x ^^^ BitVec.ofNat 32 i.toNat
  | shlLi (d : BitVec 8) (a : Src) (i : BitVec 5) : IntRow (.shlLi d a i) d [a] false fun v _ =>
      let x := v a; BitVec.ofNat 32 (x.toNat * 2 ^ i.toNat)
  | shrULi (d : BitVec 8) (a : Src) (i : BitVec 5) : IntRow (.shrULi d a i) d [a] false fun v _ =>
      let x := v a; BitVec.ofNat 32 (x.toNat / 2 ^ i.toNat)
  | shrSLi (d : BitVec 8) (a : Src) (i : BitVec 5) : IntRow (.shrSLi d a i) d [a] false fun v _ =>
      let x := v a; BitVec.ofInt 32 (x.toInt / 2 ^ i.toNat)
  | notL (d : BitVec 8) (a : Src) : IntRow (.notL d a) d [a] false fun v _ => let x := v a; BitVec.ofNat 32 (2 ^ 32 - 1 - x.toNat)
  | negL (d : BitVec 8) (a : Src) : IntRow (.negL d a) d [a] false fun v _ => let x := v a; BitVec.ofInt 32 (-x.toInt)
  | absL (d : BitVec 8) (a : Src) : IntRow (.absL d a) d [a] false fun v _ => let x := v a; BitVec.ofNat 32 x.toInt.natAbs
  | popcL (d : BitVec 8) (a : Src) : IntRow (.popcL d a) d [a] false fun v _ => let x := v a; BitVec.ofNat 32 ((List.range 32).filter x.getLsbD).length
  | clzL (d : BitVec 8) (a : Src) : IntRow (.clzL d a) d [a] false fun v _ => let x := v a; BitVec.ofNat 32 ((List.range 32).filter fun i => decide (x.toNat < 2 ^ i)).length
  | brevL (d : BitVec 8) (a : Src) : IntRow (.brevL d a) d [a] false fun v _ => let x := v a; x.reverse
  | sextBL (d : BitVec 8) (a : Src) : IntRow (.sextBL d a) d [a] false fun v _ => let x := v a; BitVec.ofInt 32 (BitVec.ofNat 8 x.toNat).toInt
  | sextHL (d : BitVec 8) (a : Src) : IntRow (.sextHL d a) d [a] false fun v _ => let x := v a; BitVec.ofInt 32 (BitVec.ofNat 16 x.toNat).toInt
  | movL (d : BitVec 8) (a : Src) : IntRow (.movL d a) d [a] false fun v _ => let x := v a; x
  | moviL (d : BitVec 8) (i : BitVec 16) : IntRow (.moviL d i) d [] false fun _ _ => BitVec.ofInt 32 i.toInt
  | movh (d : BitVec 8) (i : BitVec 16) : IntRow (.movh d i) d [] true fun _ old =>
      BitVec.ofNat 32 (65536 * i.toNat + old.toNat % 65536)
  | sel (d : BitVec 8) (a b : Src) : IntRow (.sel d a b) d [a, b] true fun v old => if old = 0 then v b else v a
  | perm (d : BitVec 8) (a b : Src) : IntRow (.perm d a b) d [a, b] true fun v old =>
      let pool := v b ++ v a
      let byte (k : Nat) : Nat :=
        let n := old.toNat / 16 ^ k % 16
        let m := pool.toNat / 256 ^ (n % 8) % 256
        if n < 8 then m else if m < 128 then 0 else 255
      BitVec.ofNat 32 (byte 0 + 256 * byte 1 + 65536 * byte 2 + 16777216 * byte 3)

/-- A row of R99 to R106: an instruction, its destination, its operands, whether it reads its old destination, and its
result with its flags in a rounding mode. -/
inductive FloatRow : Instr → BitVec 8 → List Src → Bool → (Rnd → (Src → Word) → Word → Word × Flags) → Prop where
  | fadd (d : BitVec 8) (a b : Src) : FloatRow (.fadd d a b) d [a, b] false fun r v _ =>
      let x := v a; let y := v b; wordOf (Fmt.f32.add 32 r (readF32 x) (readF32 y))
  | fsub (d : BitVec 8) (a b : Src) : FloatRow (.fsub d a b) d [a, b] false fun r v _ =>
      let x := v a; let y := v b; wordOf (Fmt.f32.add 32 r (readF32 x) (readF32 y).neg)
  | fmul (d : BitVec 8) (a b : Src) : FloatRow (.fmul d a b) d [a, b] false fun r v _ =>
      let x := v a; let y := v b; wordOf (Fmt.f32.mul 32 r (readF32 x) (readF32 y))
  | fmin (d : BitVec 8) (a b : Src) : FloatRow (.fmin d a b) d [a, b] false fun _ v _ =>
      let x := v a; let y := v b; wordOf (Fmt.f32.minMax 32 false x.toNat y.toNat)
  | fmax (d : BitVec 8) (a b : Src) : FloatRow (.fmax d a b) d [a, b] false fun _ v _ =>
      let x := v a; let y := v b; wordOf (Fmt.f32.minMax 32 true x.toNat y.toNat)
  | ffma (d : BitVec 8) (a b : Src) : FloatRow (.ffma d a b) d [a, b] true fun r v old =>
      wordOf (Fmt.f32.fma 32 r (readF32 (v a)) (readF32 (v b)) (readF32 old))
  | ffnma (d : BitVec 8) (a b : Src) : FloatRow (.ffnma d a b) d [a, b] true fun r v old =>
      wordOf (Fmt.f32.fnma 32 r (readF32 (v a)) (readF32 (v b)) (readF32 old))
  | frcp (d : BitVec 8) (a : Src) : FloatRow (.frcp d a) d [a] false fun r v _ => wordOf (recipF32 r (readF32 (v a)))
  | fsqrt (d : BitVec 8) (a : Src) : FloatRow (.fsqrt d a) d [a] false fun r v _ => wordOf (sqrtF32 r (readF32 (v a)))
  | frsq (d : BitVec 8) (a : Src) : FloatRow (.frsq d a) d [a] false fun r v _ => wordOf (rsqrtF32 r (readF32 (v a)))
  | fexp2 (d : BitVec 8) (a : Src) : FloatRow (.fexp2 d a) d [a] false fun r v _ => wordOf (exp2F32 r (readF32 (v a)))
  | flog2 (d : BitVec 8) (a : Src) : FloatRow (.flog2 d a) d [a] false fun r v _ => wordOf (log2F32 r (readF32 (v a)))
  | fcmpeq (d : BitVec 8) (a b : Src) : FloatRow (.fcmpeq d a b) d [a, b] false fun _ v _ => cmpF32 FVal.eq false (v a) (v b)
  | fcmplt (d : BitVec 8) (a b : Src) : FloatRow (.fcmplt d a b) d [a, b] false fun _ v _ => cmpF32 FVal.lt true (v a) (v b)
  | fcmple (d : BitVec 8) (a b : Src) : FloatRow (.fcmple d a b) d [a, b] false fun _ v _ => cmpF32 (fun u v => u.lt v || u.eq v) true (v a) (v b)
  | fcmpun (d : BitVec 8) (a b : Src) : FloatRow (.fcmpun d a b) d [a, b] false fun _ v _ => cmpF32 (fun u v => u.isNan || v.isNan) false (v a) (v b)
  | hadd2F16 (d : BitVec 8) (a b : Src) : FloatRow (.hadd2F16 d a b) d [a, b] false fun r v _ =>
      packed fun i => Fmt.f16.add 16 r (readHalf .f16 (v a) i) (readHalf .f16 (v b) i)
  | hsub2F16 (d : BitVec 8) (a b : Src) : FloatRow (.hsub2F16 d a b) d [a, b] false fun r v _ =>
      packed fun i => Fmt.f16.add 16 r (readHalf .f16 (v a) i) (readHalf .f16 (v b) i).neg
  | hmul2F16 (d : BitVec 8) (a b : Src) : FloatRow (.hmul2F16 d a b) d [a, b] false fun r v _ =>
      packed fun i => Fmt.f16.mul 16 r (readHalf .f16 (v a) i) (readHalf .f16 (v b) i)
  | hfma2F16 (d : BitVec 8) (a b : Src) : FloatRow (.hfma2F16 d a b) d [a, b] true fun r v old =>
      packed fun i => Fmt.f16.fma 16 r (readHalf .f16 (v a) i) (readHalf .f16 (v b) i) (readHalf .f16 old i)
  | hmin2F16 (d : BitVec 8) (a b : Src) : FloatRow (.hmin2F16 d a b) d [a, b] false fun _ v _ =>
      packed fun i => Fmt.f16.minMax 16 false (element (v a) i).toNat (element (v b) i).toNat
  | hmax2F16 (d : BitVec 8) (a b : Src) : FloatRow (.hmax2F16 d a b) d [a, b] false fun _ v _ =>
      packed fun i => Fmt.f16.minMax 16 true (element (v a) i).toNat (element (v b) i).toNat
  | cvt2F16 (d : BitVec 8) (a b : Src) : FloatRow (.cvt2F16 d a b) d [a, b] false fun r v _ =>
      packed fun i => Fmt.f16.convert 16 r (readF32 (if i = 0 then v a else v b))
  | hdot2F16 (d : BitVec 8) (a b : Src) : FloatRow (.hdot2F16 d a b) d [a, b] true fun r v old => dot2 .f16 r (v a) (v b) old
  | hadd2Bf16 (d : BitVec 8) (a b : Src) : FloatRow (.hadd2Bf16 d a b) d [a, b] false fun r v _ =>
      packed fun i => Fmt.bf16.add 16 r (readHalf .bf16 (v a) i) (readHalf .bf16 (v b) i)
  | hsub2Bf16 (d : BitVec 8) (a b : Src) : FloatRow (.hsub2Bf16 d a b) d [a, b] false fun r v _ =>
      packed fun i => Fmt.bf16.add 16 r (readHalf .bf16 (v a) i) (readHalf .bf16 (v b) i).neg
  | hmul2Bf16 (d : BitVec 8) (a b : Src) : FloatRow (.hmul2Bf16 d a b) d [a, b] false fun r v _ =>
      packed fun i => Fmt.bf16.mul 16 r (readHalf .bf16 (v a) i) (readHalf .bf16 (v b) i)
  | hfma2Bf16 (d : BitVec 8) (a b : Src) : FloatRow (.hfma2Bf16 d a b) d [a, b] true fun r v old =>
      packed fun i => Fmt.bf16.fma 16 r (readHalf .bf16 (v a) i) (readHalf .bf16 (v b) i) (readHalf .bf16 old i)
  | hmin2Bf16 (d : BitVec 8) (a b : Src) : FloatRow (.hmin2Bf16 d a b) d [a, b] false fun _ v _ =>
      packed fun i => Fmt.bf16.minMax 16 false (element (v a) i).toNat (element (v b) i).toNat
  | hmax2Bf16 (d : BitVec 8) (a b : Src) : FloatRow (.hmax2Bf16 d a b) d [a, b] false fun _ v _ =>
      packed fun i => Fmt.bf16.minMax 16 true (element (v a) i).toNat (element (v b) i).toNat
  | cvt2Bf16 (d : BitVec 8) (a b : Src) : FloatRow (.cvt2Bf16 d a b) d [a, b] false fun r v _ =>
      packed fun i => Fmt.bf16.convert 16 r (readF32 (if i = 0 then v a else v b))
  | hdot2Bf16 (d : BitVec 8) (a b : Src) : FloatRow (.hdot2Bf16 d a b) d [a, b] true fun r v old => dot2 .bf16 r (v a) (v b) old
  | cvt (d : BitVec 8) (a : Src) (m : Rnd) (t u : BitVec 3) (h : cvtPair t.toNat u.toNat = true) :
      FloatRow (.cvt d a m t u) d [a] false fun _ v _ => cvtTo m t.toNat (cvtSource u.toNat (v a))

/-- A row of Table 3.10 and of R52: an instruction, its destination, the registers it reads and its value. -/
inductive UniRow : Instr → BitVec 6 → List (BitVec 6) → ((BitVec 6 → DWord) → DWord) → Prop where
  | addU (d a b : BitVec 6) : UniRow (.addU d a b) d [a, b] fun u => let x := u a; let y := u b; BitVec.ofNat 64 (x.toNat + y.toNat)
  | subU (d a b : BitVec 6) : UniRow (.subU d a b) d [a, b] fun u => let x := u a; let y := u b; BitVec.ofInt 64 (x.toInt - y.toInt)
  | mulU (d a b : BitVec 6) : UniRow (.mulU d a b) d [a, b] fun u => let x := u a; let y := u b; BitVec.ofNat 64 (x.toNat * y.toNat)
  | mulhiSU (d a b : BitVec 6) : UniRow (.mulhiSU d a b) d [a, b] fun u => let x := u a; let y := u b; BitVec.ofInt 64 (x.toInt * y.toInt / 2 ^ 64)
  | mulhiUU (d a b : BitVec 6) : UniRow (.mulhiUU d a b) d [a, b] fun u => let x := u a; let y := u b; BitVec.ofNat 64 (x.toNat * y.toNat / 2 ^ 64)
  | andU (d a b : BitVec 6) : UniRow (.andU d a b) d [a, b] fun u => let x := u a; let y := u b; x &&& y
  | orU (d a b : BitVec 6) : UniRow (.orU d a b) d [a, b] fun u => let x := u a; let y := u b; x ||| y
  | xorU (d a b : BitVec 6) : UniRow (.xorU d a b) d [a, b] fun u => let x := u a; let y := u b; x ^^^ y
  | andnU (d a b : BitVec 6) : UniRow (.andnU d a b) d [a, b] fun u => let x := u a; let y := u b; x &&& ~~~y
  | shlU (d a b : BitVec 6) : UniRow (.shlU d a b) d [a, b] fun u => let x := u a; let y := u b; BitVec.ofNat 64 (x.toNat * 2 ^ (y.toNat % 64))
  | shrUU (d a b : BitVec 6) : UniRow (.shrUU d a b) d [a, b] fun u => let x := u a; let y := u b; BitVec.ofNat 64 (x.toNat / 2 ^ (y.toNat % 64))
  | shrSU (d a b : BitVec 6) : UniRow (.shrSU d a b) d [a, b] fun u => let x := u a; let y := u b; BitVec.ofInt 64 (x.toInt / 2 ^ (y.toNat % 64))
  | minSU (d a b : BitVec 6) : UniRow (.minSU d a b) d [a, b] fun u => let x := u a; let y := u b; BitVec.ofInt 64 (min x.toInt y.toInt)
  | minUU (d a b : BitVec 6) : UniRow (.minUU d a b) d [a, b] fun u => let x := u a; let y := u b; BitVec.ofNat 64 (min x.toNat y.toNat)
  | maxSU (d a b : BitVec 6) : UniRow (.maxSU d a b) d [a, b] fun u => let x := u a; let y := u b; BitVec.ofInt 64 (max x.toInt y.toInt)
  | maxUU (d a b : BitVec 6) : UniRow (.maxUU d a b) d [a, b] fun u => let x := u a; let y := u b; BitVec.ofNat 64 (max x.toNat y.toNat)
  | cmpeqU (d a b : BitVec 6) : UniRow (.cmpeqU d a b) d [a, b] fun u => let x := u a; let y := u b; if x.toNat = y.toNat then 1 else 0
  | cmpneU (d a b : BitVec 6) : UniRow (.cmpneU d a b) d [a, b] fun u => let x := u a; let y := u b; if x.toNat = y.toNat then 0 else 1
  | cmpltSU (d a b : BitVec 6) : UniRow (.cmpltSU d a b) d [a, b] fun u => let x := u a; let y := u b; if x.toInt < y.toInt then 1 else 0
  | cmpltUU (d a b : BitVec 6) : UniRow (.cmpltUU d a b) d [a, b] fun u => let x := u a; let y := u b; if x.toNat < y.toNat then 1 else 0
  | cmpleSU (d a b : BitVec 6) : UniRow (.cmpleSU d a b) d [a, b] fun u => let x := u a; let y := u b; if x.toInt ≤ y.toInt then 1 else 0
  | cmpleUU (d a b : BitVec 6) : UniRow (.cmpleUU d a b) d [a, b] fun u => let x := u a; let y := u b; if x.toNat ≤ y.toNat then 1 else 0
  | movU (d a : BitVec 6) : UniRow (.movU d a) d [a] fun u => let x := u a; x
  | notU (d a : BitVec 6) : UniRow (.notU d a) d [a] fun u => let x := u a; BitVec.ofNat 64 (2 ^ 64 - 1 - x.toNat)
  | negU (d a : BitVec 6) : UniRow (.negU d a) d [a] fun u => let x := u a; BitVec.ofInt 64 (-x.toInt)
  | absU (d a : BitVec 6) : UniRow (.absU d a) d [a] fun u => let x := u a; BitVec.ofNat 64 x.toInt.natAbs
  | popcU (d a : BitVec 6) : UniRow (.popcU d a) d [a] fun u => let x := u a; BitVec.ofNat 64 ((List.range 64).filter x.getLsbD).length
  | clzU (d a : BitVec 6) : UniRow (.clzU d a) d [a] fun u => let x := u a; BitVec.ofNat 64 ((List.range 64).filter fun i => decide (x.toNat < 2 ^ i)).length
  | brevU (d a : BitVec 6) : UniRow (.brevU d a) d [a] fun u => let x := u a; x.reverse
  | sextBU (d a : BitVec 6) : UniRow (.sextBU d a) d [a] fun u => let x := u a; BitVec.ofInt 64 (BitVec.ofNat 8 x.toNat).toInt
  | sextHU (d a : BitVec 6) : UniRow (.sextHU d a) d [a] fun u => let x := u a; BitVec.ofInt 64 (BitVec.ofNat 16 x.toNat).toInt
  | sextWU (d a : BitVec 6) : UniRow (.sextWU d a) d [a] fun u => let x := u a; BitVec.ofInt 64 (BitVec.ofNat 32 x.toNat).toInt
  | addUi (d a : BitVec 6) (i : BitVec 12) : UniRow (.addUi d a i) d [a] fun u => let x := u a; BitVec.ofInt 64 (x.toInt + i.toInt)
  | andUi (d a : BitVec 6) (i : BitVec 12) : UniRow (.andUi d a i) d [a] fun u => let x := u a; x &&& BitVec.ofNat 64 i.toNat
  | orUi (d a : BitVec 6) (i : BitVec 12) : UniRow (.orUi d a i) d [a] fun u => let x := u a; x ||| BitVec.ofNat 64 i.toNat
  | xorUi (d a : BitVec 6) (i : BitVec 12) : UniRow (.xorUi d a i) d [a] fun u => let x := u a; x ^^^ BitVec.ofNat 64 i.toNat
  | cmpeqUi (d a : BitVec 6) (i : BitVec 12) : UniRow (.cmpeqUi d a i) d [a] fun u => let x := u a; if x.toInt = i.toInt then 1 else 0
  | cmpltSUi (d a : BitVec 6) (i : BitVec 12) : UniRow (.cmpltSUi d a i) d [a] fun u => let x := u a; if x.toInt < i.toInt then 1 else 0
  | cmpltUUi (d a : BitVec 6) (i : BitVec 12) : UniRow (.cmpltUUi d a i) d [a] fun u => let x := u a; if x.toNat < (BitVec.ofInt 64 i.toInt).toNat then 1 else 0
  | shlUi (d a i : BitVec 6) : UniRow (.shlUi d a i) d [a] fun u => let x := u a; BitVec.ofNat 64 (x.toNat * 2 ^ i.toNat)
  | shrUUi (d a i : BitVec 6) : UniRow (.shrUUi d a i) d [a] fun u => let x := u a; BitVec.ofNat 64 (x.toNat / 2 ^ i.toNat)
  | shrSUi (d a i : BitVec 6) : UniRow (.shrSUi d a i) d [a] fun u => let x := u a; BitVec.ofInt 64 (x.toInt / 2 ^ i.toNat)
  | moviU (d : BitVec 6) (i : BitVec 18) : UniRow (.moviU d i) d [] fun _ => BitVec.ofInt 64 i.toInt
  | movx (d : BitVec 6) (i : BitVec 18) : UniRow (.movx d i) d [d] fun u =>
      BitVec.ofNat 64 ((u d).toNat * 2 ^ 18 + i.toNat)

/-- A plain lane load (Table 9.2): the space, the bytes and the fields. -/
inductive LoadRow : Instr → Space → Nat → BitVec 8 → BitVec 8 → BitVec 6 → BitVec 2 → Prop where
  | ldgB (t x b sc) : LoadRow (.ldgB t x b sc) .global 1 t x b sc
  | ldgH (t x b sc) : LoadRow (.ldgH t x b sc) .global 2 t x b sc
  | ldgW (t x b sc) : LoadRow (.ldgW t x b sc) .global 4 t x b sc
  | ldgD (t x b sc) : LoadRow (.ldgD t x b sc) .global 8 t x b sc
  | ldgQ (t x b sc) : LoadRow (.ldgQ t x b sc) .global 16 t x b sc
  | ldsB (t x b sc) : LoadRow (.ldsB t x b sc) .scratch 1 t x b sc
  | ldsH (t x b sc) : LoadRow (.ldsH t x b sc) .scratch 2 t x b sc
  | ldsW (t x b sc) : LoadRow (.ldsW t x b sc) .scratch 4 t x b sc
  | ldsD (t x b sc) : LoadRow (.ldsD t x b sc) .scratch 8 t x b sc
  | ldsQ (t x b sc) : LoadRow (.ldsQ t x b sc) .scratch 16 t x b sc
  | ldqW (t x b sc) : LoadRow (.ldqW t x b sc) .squad 4 t x b sc

/-- A plain lane store (Table 9.2). -/
inductive StoreRow : Instr → Space → Nat → BitVec 8 → BitVec 8 → BitVec 6 → BitVec 2 → Prop where
  | stgB (t x b sc) : StoreRow (.stgB t x b sc) .global 1 t x b sc
  | stgH (t x b sc) : StoreRow (.stgH t x b sc) .global 2 t x b sc
  | stgW (t x b sc) : StoreRow (.stgW t x b sc) .global 4 t x b sc
  | stgD (t x b sc) : StoreRow (.stgD t x b sc) .global 8 t x b sc
  | stgQ (t x b sc) : StoreRow (.stgQ t x b sc) .global 16 t x b sc
  | stsB (t x b sc) : StoreRow (.stsB t x b sc) .scratch 1 t x b sc
  | stsH (t x b sc) : StoreRow (.stsH t x b sc) .scratch 2 t x b sc
  | stsW (t x b sc) : StoreRow (.stsW t x b sc) .scratch 4 t x b sc
  | stsD (t x b sc) : StoreRow (.stsD t x b sc) .scratch 8 t x b sc
  | stsQ (t x b sc) : StoreRow (.stsQ t x b sc) .scratch 16 t x b sc
  | stqW (t x b sc) : StoreRow (.stqW t x b sc) .squad 4 t x b sc

/-- A uniform load or store (R165): the bytes and the fields. -/
inductive SldRow : Instr → Nat → BitVec 6 → BitVec 6 → BitVec 12 → Prop where
  | sldB (d a i) : SldRow (.sldB d a i) 1 d a i
  | sldH (d a i) : SldRow (.sldH d a i) 2 d a i
  | sldW (d a i) : SldRow (.sldW d a i) 4 d a i
  | sldD (d a i) : SldRow (.sldD d a i) 8 d a i

/-- A uniform store (R165). -/
inductive SstRow : Instr → Nat → BitVec 6 → BitVec 6 → BitVec 12 → Prop where
  | sstB (t a i) : SstRow (.sstB t a i) 1 t a i
  | sstH (t a i) : SstRow (.sstH t a i) 2 t a i
  | sstW (t a i) : SstRow (.sstW t a i) 4 t a i
  | sstD (t a i) : SstRow (.sstD t a i) 8 t a i

/-- An atomic (R170, R171): the operation, whether it is the .SEQ form, and the fields. -/
inductive AtomRow : Instr → AOp → Bool → BitVec 8 → BitVec 8 → Scope → Sem → Prop where
  | atomAdd (t a sc e) : AtomRow (.atomAdd t a sc e) .add false t a sc e
  | atomAnd (t a sc e) : AtomRow (.atomAnd t a sc e) .and false t a sc e
  | atomOr (t a sc e) : AtomRow (.atomOr t a sc e) .or false t a sc e
  | atomXor (t a sc e) : AtomRow (.atomXor t a sc e) .xor false t a sc e
  | atomMinS (t a sc e) : AtomRow (.atomMinS t a sc e) .minS false t a sc e
  | atomMinU (t a sc e) : AtomRow (.atomMinU t a sc e) .minU false t a sc e
  | atomMaxS (t a sc e) : AtomRow (.atomMaxS t a sc e) .maxS false t a sc e
  | atomMaxU (t a sc e) : AtomRow (.atomMaxU t a sc e) .maxU false t a sc e
  | atomXchg (t a sc e) : AtomRow (.atomXchg t a sc e) .xchg false t a sc e
  | atomCas (t a sc e) : AtomRow (.atomCas t a sc e) .cas false t a sc e
  | atomAddF (t a sc e) : AtomRow (.atomAddF t a sc e) .addF false t a sc e
  | atomAddD (t a sc e) : AtomRow (.atomAddD t a sc e) .addD false t a sc e
  | atomXchgD (t a sc e) : AtomRow (.atomXchgD t a sc e) .xchgD false t a sc e
  | atomCasD (t a sc e) : AtomRow (.atomCasD t a sc e) .casD false t a sc e
  | atomSeqAdd (t a sc e) : AtomRow (.atomSeqAdd t a sc e) .add true t a sc e
  | atomSeqAnd (t a sc e) : AtomRow (.atomSeqAnd t a sc e) .and true t a sc e
  | atomSeqOr (t a sc e) : AtomRow (.atomSeqOr t a sc e) .or true t a sc e
  | atomSeqXor (t a sc e) : AtomRow (.atomSeqXor t a sc e) .xor true t a sc e
  | atomSeqMinS (t a sc e) : AtomRow (.atomSeqMinS t a sc e) .minS true t a sc e
  | atomSeqMinU (t a sc e) : AtomRow (.atomSeqMinU t a sc e) .minU true t a sc e
  | atomSeqMaxS (t a sc e) : AtomRow (.atomSeqMaxS t a sc e) .maxS true t a sc e
  | atomSeqMaxU (t a sc e) : AtomRow (.atomSeqMaxU t a sc e) .maxU true t a sc e
  | atomSeqXchg (t a sc e) : AtomRow (.atomSeqXchg t a sc e) .xchg true t a sc e
  | atomSeqCas (t a sc e) : AtomRow (.atomSeqCas t a sc e) .cas true t a sc e
  | atomSeqAddF (t a sc e) : AtomRow (.atomSeqAddF t a sc e) .addF true t a sc e
  | atomSeqAddD (t a sc e) : AtomRow (.atomSeqAddD t a sc e) .addD true t a sc e
  | atomSeqXchgD (t a sc e) : AtomRow (.atomSeqXchgD t a sc e) .xchgD true t a sc e
  | atomSeqCasD (t a sc e) : AtomRow (.atomSeqCasD t a sc e) .casD true t a sc e

/-- A reduction (R172). -/
inductive RedRow : Instr → AOp → BitVec 8 → BitVec 8 → Scope → Sem → Prop where
  | redAdd (t a sc e) : RedRow (.redAdd t a sc e) .add t a sc e
  | redAnd (t a sc e) : RedRow (.redAnd t a sc e) .and t a sc e
  | redOr (t a sc e) : RedRow (.redOr t a sc e) .or t a sc e
  | redXor (t a sc e) : RedRow (.redXor t a sc e) .xor t a sc e
  | redMinS (t a sc e) : RedRow (.redMinS t a sc e) .minS t a sc e
  | redMinU (t a sc e) : RedRow (.redMinU t a sc e) .minU t a sc e
  | redMaxS (t a sc e) : RedRow (.redMaxS t a sc e) .maxS t a sc e
  | redMaxU (t a sc e) : RedRow (.redMaxU t a sc e) .maxU t a sc e
  | redAddF (t a sc e) : RedRow (.redAddF t a sc e) .addF t a sc e
  | redAddD (t a sc e) : RedRow (.redAddD t a sc e) .addD t a sc e

/-- A read-modify-write of a shell word (R231): the code of its operation (Table 3.11) and the fields. -/
inductive ShellRow : Instr → Nat → BitVec 6 → BitVec 6 → BitVec 6 → Sem → Prop where
  | shOpAdd (d a b e) : ShellRow (.shOpAdd d a b e) 0 d a b e
  | shOpAddF (d a b e) : ShellRow (.shOpAddF d a b e) 1 d a b e
  | shOpMin (d a b e) : ShellRow (.shOpMin d a b e) 2 d a b e
  | shOpMax (d a b e) : ShellRow (.shOpMax d a b e) 3 d a b e
  | shOpMinS (d a b e) : ShellRow (.shOpMinS d a b e) 4 d a b e
  | shOpMinU (d a b e) : ShellRow (.shOpMinU d a b e) 5 d a b e
  | shOpMaxS (d a b e) : ShellRow (.shOpMaxS d a b e) 6 d a b e
  | shOpMaxU (d a b e) : ShellRow (.shOpMaxU d a b e) 7 d a b e
  | shOpAnd (d a b e) : ShellRow (.shOpAnd d a b e) 8 d a b e
  | shOpOr (d a b e) : ShellRow (.shOpOr d a b e) 9 d a b e
  | shOpXor (d a b e) : ShellRow (.shOpXor d a b e) 10 d a b e
  | shOpSwap (d a b e) : ShellRow (.shOpSwap d a b e) 11 d a b e
  | shOpCas (d a b e) : ShellRow (.shOpCas d a b e) 12 d a b e

/-- A copy command (R190 to R193): its opcode and the fields. -/
inductive CopyRow : Instr → Nat → BitVec 6 → BitVec 6 → BitVec 6 → BitVec 6 → Prop where
  | cpTile (a b c e) : CopyRow (.cpTile a b c e) 0x50 a b c e
  | cpBulk (a b c e) : CopyRow (.cpBulk a b c e) 0x51 a b c e
  | cpGather (a b c e) : CopyRow (.cpGather a b c e) 0x52 a b c e
  | cpRed (a b c e) : CopyRow (.cpRed a b c e) 0x53 a b c e

/-- What the operands S(A), S(B) and S(C) of a copy command of an opcode ask for (R190 to R193): its spaces, its operation and its rows,
each from a source to a destination. The index array of a gather stands in the scratchpad of the crew's team. -/
structure CopyAsks (s : State) (c : Crew) (opc : Nat) (x b a : DWord) (plan : CopyPlan) : Prop where
  into : some plan.dst = copySpace (if opc = 0x51 ∨ opc = 0x53 then x.toNat / 2 ^ 34 % 4 else x.toNat / 4 % 4)
  out : some plan.src = copySpace (if opc = 0x51 ∨ opc = 0x53 then x.toNat / 2 ^ 32 % 4 else x.toNat % 4)
  red : plan.red = if opc = 0x53 then some (if x.toNat / 2 ^ 36 % 4 = 0 then .addF else .add) else none
  bulk : opc = 0x51 ∨ opc = 0x53 → plan.rows = [(a, b, x.toNat % 2 ^ 32)]
  tile : opc = 0x50 → plan.rows = (List.range (x.toNat / 2 ^ 20 % 2 ^ 12 + 1)).map fun k =>
    (a + BitVec.ofNat 64 (16 * (x.toNat / 2 ^ 48) * k), b + BitVec.ofNat 64 (16 * (x.toNat / 2 ^ 32 % 2 ^ 16) * k),
     16 * (x.toNat / 2 ^ 8 % 2 ^ 12))
  gather : opc = 0x52 → plan.rows = (List.range (x.toNat / 2 ^ 20 % 2 ^ 12 + 1)).map fun k =>
    let n := 16 * (x.toNat / 2 ^ 8 % 2 ^ 12)
    (a + BitVec.ofNat 64 (n * leNat (s.scratchRead c.lid c.team (16 * (x.toNat / 2 ^ 32 % 2 ^ 16) + 4 * k) 4)), b + BitVec.ofNat 64 (n * k), n)

/-- The word of a copy command from the place `e.1` to the place `e.2`, as the state `s` holds its source at issue. The words `es` of the
command that stand in one source line are read at one moment (R187, R212): none of them before the engine starts where one of them is
pending for an earlier command. -/
def copyWord (s : State) (c : Crew) (plan : CopyPlan) (es : List ((Nat × Nat) × (Nat × Nat))) (e : (Nat × Nat) × (Nat × Nat)) : CopyPiece :=
  let line := ((es.map Prod.fst).filter fun (y : Nat × Nat) => lineOf y.2 == lineOf e.1.2).map Prod.snd
  let d := s.sourceWord c.core c.lid plan.src (plan.src == .global && s.cleanHit c.core (line.map (· / 4))) e.1
  { sspace := plan.src, steam := e.1.1, saddr := e.1.2
    late := if plan.src = .global then line.any (fun (y : Nat) => s.wordPending c.core (y / 4)) else s.sourcePending c.core c.lid plan.src e.1
    space := plan.dst, team := e.2.1, addr := e.2.2, data := d.1, poison := d.2 }

/-- The split `p` of `c` has issued a copy command with the plan `plan` from the places `src` to the places `dst`: the command stands in a
queue in phase `phase`. Of the words that go to one place the last remains (R191). Its words of memory are registered later (R187,
R210). It takes a mark. -/
def CopyEnters (s t : State) (c : Crew) (p : Split) (plan : CopyPlan) (src dst : List (Nat × Nat)) (h : DWord) (phase : CPhase) : Prop :=
  ∃ (c' : Crew) (m : MarkRec) (q : CopyCmd), Moves s t c c' p { (p.fenced s.nextId).issued (p.pc + 4) with mark := m } ∧
    c' = { c with raised := c'.raised, splits := c'.splits, host := c'.host, loads := agedLoads c p } ∧
    (p.recipe = false → m.pc = p.pc + 4 ∧ m.mask = p.mask ∧ m.lpin = p.mark.lpin) ∧
    t.copies = s.copies ++ [q] ∧
    q = {
      core := c.core, asid := c.asid, lid := c.lid, team := c.team, cid := c.cid, sid := p.sid, handle := h.toNat % 2 ^ 16
      bytes := 4 * (List.zip src dst).length, red := plan.red, pieces := q.pieces, read := [], wrote := []
      registered := decide (plan.dst ≠ .global), phase := phase, hint := (reads s c p).shint, seq := s.nextId } ∧
    (∀ x, x ∈ q.pieces ↔ ∃ (k : Nat) (e : (Nat × Nat) × (Nat × Nat)), (List.zip src dst)[k]? = some e ∧
      (∀ (j : Nat) (y : (Nat × Nat) × (Nat × Nat)), (List.zip src dst)[j]? = some y → y.2 = e.2 → j ≤ k) ∧
      x = copyWord (s.fenced c p) c plan (List.zip src dst) e) ∧
    FenceActs s t c p ∧
    t = { s with
      crews := t.crews, age := t.age, woke := t.woke, entered := t.entered, nextId := t.nextId, tlb := t.tlb, copies := t.copies, l1 := t.l1 }

/-- What a structured instruction makes of the control state of a split (Table 14.2): the new NC of a lane from the lane and
its NC, the new MARK of a lane, the lanes whose CB it sets, and the new active depth (none where the spec gives no value: AD less
1 at 0). -/
structure CtlStep where
  nc   : Nat → Nat → Nat
  mark : Nat → Nat → Nat := fun _ m => m
  cb   : Nat → Bool := fun _ => false
  ad   : Option Nat

/-- Whether a lane of the split breaks out of a real construct at a depth (R244). -/
def crosses (p : Split) (d : Nat) : Bool := (p.stack.any fun e => decide (e.mode = .real)) && decide (p.ad < d)

/-- Break(l, d) on the active lanes (R244); `cont` also sets their CB. -/
def breakStep (c : Crew) (p : Split) (d : Nat) (cont : Bool) : CtlStep :=
  { nc := fun _ n => if n ≠ 0 then n else if crosses p d then p.ad + 1 else d + 1
    mark := fun l m => if c.ncOf l = 0 ∧ crosses p d = true then d - p.ad else m
    cb := fun l => cont && decide (c.ncOf l = 0)
    ad := some p.ad }

/-- NCOVF does not arise (R246). -/
def noOverflow (c : Crew) (p : Split) : Prop := (∀ l ∈ maskLanes p.mask, c.ncOf l ≠ 255) ∧ p.ad ≠ 255

/-- A row of Table 14.2: a structured instruction with its operands, its effect and its REL16. -/
inductive CtlRow (s : State) (c : Crew) (p : Split) : Instr → List Src → CtlStep → BitVec 16 → Prop where
  | ifLc (a r) (h : noOverflow c p) : CtlRow s c p (.ifLc a r) [a]
      { nc := fun l n => if 0 < n then n + 1 else if s.op (reads s c p) l a = 0 then 1 else 0, ad := some (p.ad + 1) } r
  | elseLc (r) : CtlRow s c p (.elseLc r) []
      { nc := fun _ n => if n = 0 then 1 else if n = 1 then 0 else n, ad := some p.ad } r
  | endif (r) : CtlRow s c p (.endif r) []
      { nc := fun _ n => n - 1, ad := if p.ad = 0 then none else some (p.ad - 1) } r
  | loop (r) (h : noOverflow c p) : CtlRow s c p (.loop r) []
      { nc := fun _ n => if 0 < n then n + 1 else 0, ad := some (p.ad + 1) } r
  | brk (d r) (h : d ≠ 255) : CtlRow s c p (.brk d r) [] (breakStep c p d.toNat false) r
  | cont (d r) (h : d ≠ 255) : CtlRow s c p (.cont d r) [] (breakStep c p d.toNat true) r

/-- The control state of the lanes of a split after a step of it, and that of every other lane as before. -/
structure CtlHolds (c c' : Crew) (p : Split) (k : CtlStep) : Prop where
  nc   : ∀ l, l < 32 → c'.ncOf l = if p.mask.getLsbD l then k.nc l (c.ncOf l) else c.ncOf l
  mark : ∀ l, l < 32 → c'.markOf l = if p.mask.getLsbD l then k.mark l (c.markOf l) else c.markOf l
  cb   : ∀ l, l < 32 → c'.cb.getLsbD l = (c.cb.getLsbD l || (p.mask.getLsbD l && k.cb l))

/-- Only NC, MARK and CB of a crew differ, beside its splits, its host and the age of its loads. -/
def OnlyControl (c c' : Crew) (p : Split) : Prop :=
  c' = { c with nc := c'.nc, marks := c'.marks, cb := c'.cb, raised := c'.raised, splits := c'.splits, host := c'.host,
                  loads := agedLoads c p }

/-- Some lane of a mask has NC 0. -/
def anyZero (c : Crew) (m : BitVec 32) : Prop := ∃ l, l < 32 ∧ m.getLsbD l = true ∧ c.ncOf l = 0

/-- A special register (Table 2.4): its number, its width and its value in a lane, before it is cut to the width. -/
inductive SpecialRow (s : State) (c : Crew) (p : Split) : Nat → Nat → (Nat → Nat) → Prop where
  | laneid : SpecialRow s c p 0x00 5 fun lane => lane
  | splitmask : SpecialRow s c p 0x01 32 fun _ => p.mask.toNat
  | crewid : SpecialRow s c p 0x02 4 fun _ => c.crewNo
  | teamid : SpecialRow s c p 0x03 32 fun _ => c.team
  | squadrank (l) (h : s.launch? c.lid = some l) (grid : l.isField = false) :
    SpecialRow s c p 0x04 3 fun _ => c.team % max 1 l.record.squad
  | gridid (l) (h : s.launch? c.lid = some l) : SpecialRow s c p 0x05 32 fun _ => l.gid.toNat
  | coreid : SpecialRow s c p 0x06 9 fun _ => c.core
  | cellx (l) (h : s.launch? c.lid = some l) (field : l.isField = true) : SpecialRow s c p 0x07 32 fun lane => (l.cell c.team lane).1
  | cellxGrid (l) (h : s.launch? c.lid = some l) (grid : l.isField = false) : SpecialRow s c p 0x07 32 fun _ => 0
  | celly (l) (h : s.launch? c.lid = some l) (field : l.isField = true) : SpecialRow s c p 0x08 32 fun lane => (l.cell c.team lane).2
  | cellyGrid (l) (h : s.launch? c.lid = some l) (grid : l.isField = false) : SpecialRow s c p 0x08 32 fun _ => 0
  | stepno (l) (h : s.launch? c.lid = some l) (field : l.isField = true) :
    SpecialRow s c p 0x09 32 fun lane => s.sigmaOf l c.team lane
  | stepnoGrid (l) (h : s.launch? c.lid = some l) (grid : l.isField = false) : SpecialRow s c p 0x09 32 fun _ => 0
  | depth : SpecialRow s c p 0x0A 16 fun _ => c.depth
  | nest (l) (h : s.launch? c.lid = some l) : SpecialRow s c p 0x0B 4 fun _ => l.nest
  | fpmode : SpecialRow s c p 0x0C 2 fun _ => c.fpmode.toNat
  | fpflags : SpecialRow s c p 0x0D 5 fun _ => c.fpflags.toNat
  | cpol : SpecialRow s c p 0x0E 8 fun _ => c.cpol.toNat
  | shbase (x) (h : s.context? c.asid = some x) : SpecialRow s c p 0x0F 10 fun _ => x.shbase
  | shcount (x) (h : s.context? c.asid = some x) : SpecialRow s c p 0x10 10 fun _ => x.shcount
  | ftime : SpecialRow s c p 0x11 64 fun _ => s.ftime.toNat
  | tcause : SpecialRow s c p 0x12 16 fun _ => p.tcause.toNat
  | trappc : SpecialRow s c p 0x13 64 fun _ => p.trappc.toNat
  | taddr : SpecialRow s c p 0x14 64 fun _ => p.taddr.toNat
  | taux : SpecialRow s c p 0x15 64 fun _ => p.taux.toNat

/-- A vote (R251): its value from the active lanes whose operand is not 0 and all active lanes. -/
inductive VoteRow : Instr → BitVec 6 → Src → (List Nat → List Nat → DWord) → Prop where
  | any (d f) : VoteRow (.any d f) d f fun yes _ => if yes = [] then 0 else 1
  | all (d f) : VoteRow (.all d f) d f fun yes act => if yes = act then 1 else 0
  | ballot (d f) : VoteRow (.ballot d f) d f fun yes _ => BitVec.ofNat 64 ((yes.map (2 ^ ·)).sum)

end Sys2Proof.Machine
end

