-- ==== Sys2Proof/Safety/Flow.lean ====
section
/-! DEFINITION. What a swap of the arms of a fallback construct and a merge of the splits of a real construct leave (R255, R256),
written apart from the machine's meanings. -/

namespace Sys2Proof.Machine

/-- Swap (R255) of the arms of the record `f` of the split `p`, which is `q` after it; `done` says that the arm that stops is
finished. The lanes of the running arm keep their NC in the record and stand at 1 + PA, those of the parked arm take theirs back,
every other lane of the split keeps its distance to the running arm. Counts are exact, and NC takes their low eight bits. -/
structure Swapped (c c' : Crew) (p q : Split) (f : Fallback) (done : Bool) : Prop where
  pc    : q.pc = f.ppc
  ad    : q.ad = (f.fb + f.pa).toNat
  stack : q.stack = p.stack.take f.level ++
    ((p.stack.drop f.level).take 1).map (fun e => { e with falseArm := !e.falseArm }) ++ f.pupper
  mask  : q.mask = p.mask
  wb    : c'.wb = f.pwb
  depth : c'.depth = f.pdepth
  fb    : ∃ g, q.fb = some g ∧ g.fb = f.fb ∧ g.ra = f.pa ∧ g.pa = (p.ad : Int) - f.fb ∧ g.rm = f.pm ∧ g.pm = f.rm ∧ g.ppc = p.pc ∧
    g.pwb = c.wb ∧ g.pdepth = c.depth ∧ g.pupper = p.stack.drop (f.level + 1) ∧ g.level = f.level ∧ g.finished = done ∧
    g.count = 0 ∧ ∀ l, l < 32 → f.rm.getLsbD l = true → (sget 0 g.savedNc l).toNat = c.ncOf l
  nc    : ∀ l, l < 32 → c'.ncOf l =
    if f.pm.getLsbD l then (sget 0 f.savedNc l).toNat
    else if f.rm.getLsbD l then ((1 + f.pa) % 256).toNat
    else if p.mask.getLsbD l then (((c.ncOf l : Int) - ((p.ad : Int) - f.fb) + f.pa) % 256).toNat
    else c.ncOf l

/-- The split `q` is the split `o`, but that the construct of the join record `join` is known to end at `lj`, on its stack, on the
stack that its handler has set aside and on that of its mark (R256, R258). -/
def Learns (join : Nat) (lj : DWord) (o q : Split) : Prop :=
  let known (st : List Construct) : List Construct :=
    st.map fun e => if e.mode = .real ∧ e.join = join then { e with lj := some lj } else e
  q = { o with stack := q.stack, handler := q.handler, mark := { o.mark with ctl := { o.mark.ctl with stack := known o.mark.ctl.stack } } } ∧
  q.stack = known o.stack ∧
  (o.handler = none → q.handler = none) ∧
  ∀ h, o.handler = some h → q.handler = some { h with ctl := { h.ctl with stack := known h.ctl.stack } }

/-- What Merge makes of the NC and the MARK of a lane of the merged split (R256): a lane with a depth still to leave breaks
again, one level less, in the enclosing construct. -/
def mergeNc (stack : List Construct) (ad : Nat) (nc mark : Nat) : Nat × Nat :=
  if mark = 0 then (nc, 0)
  else if (stack.any fun e => decide (e.mode = .real)) = true ∧ ad < mark - 1 then (ad + 1, mark - 1 - ad)
  else (mark, 0)

/-- The instruction of the split `p` of `c` has been issued, and it may have written memory: its crew becomes `c'` and `p` becomes
`q`, no other split has moved, and every other crew is as before but for the reservations that the writes have cleared (R169). -/
structure Writes (s t : State) (c c' : Crew) (p q : Split) : Prop where
  others : ∀ k d, k ≠ c.cid → s.crew? k = some d → ∃ kept, (∀ x ∈ kept, x ∈ d.resv) ∧
    t.crew? k = some { d.untried with resv := kept }
  crew   : t.crew? c.cid = some c'
  splits : SplitsGo c c' p q
  host   : c'.host = hostIssued c.host

/-- The granules that leave so that a window of the crew becomes resident, in their order (R29). -/
def Crew.leaving (c : Crew) (wb : Nat) : List Nat :=
  (evictFor (c.frame / 32) (c.touched wb) c.resident (c.frame / 32 + 1)).1

/-- Whether the place of the spill area for each granule that comes back to a window holds what was written there (R30), as memory stands
in `u`: once the granules that leave have been written. -/
def SpillStands (u : State) (c : Crew) (wb : Nat) : Prop :=
  ∀ g ∈ c.touched wb, g ∉ c.resident → g ∈ c.spilled →
    ∃ pa, u.translate c.core c.asid (c.granuleAt g) .read = .ok pa ∧
      ∀ j l, j < 32 → l < 32 → u.readNat (pa + 128 * j + 4 * l) 4 = (c.vAbs l (32 * g + j)).toNat

/-- Whether the absolute register `k` keeps its value when the window slides to `wb` (R29, R30): its granule does not come back
from the spill area, or the program has not written what comes back. -/
def Keeps (u : State) (c : Crew) (wb k : Nat) : Prop :=
  (k / 32 ∉ c.touched wb ∨ k / 32 ∈ c.resident ∨ k / 32 ∉ c.spilled) ∨ SpillStands u c wb

/-- What sliding the window of the crew to `wb` leaves (R29, R30): its granules are resident. Where none leaves and none comes back,
nothing else has happened; where one granule has left, it stands in the spill area, absolute index i of lane l at offset
128 · i + 4 · l, and every other byte of memory is as before: on its way there it needs no fabric message, or can send it. Both hold where
the granules `low`, which the instruction writes to besides, do not stand in the spill area only. -/
structure Slid (s t : State) (c c' : Crew) (wb : Nat) (low : List Nat) : Prop where
  slid  : c'.wb = wb
  res   : ∀ g ∈ c.touched wb, g ∈ c'.resident
  out   : ∀ g ∈ c.leaving wb, g ∈ c'.spilled
  quiet : (∀ g ∈ c.touched wb ++ low, g ∈ c.resident ∨ g ∉ c.spilled) → c.leaving wb = [] →
    c'.resident = c.resident ++ (c.touched wb).filter (fun g => decide (g ∉ c.resident)) ∧
    t = { s with crews := t.crews, age := t.age, woke := t.woke, entered := t.entered }
  spill : ∀ g pa, (∀ h ∈ low, h ≠ g ∧ (h ∈ c.resident ∨ h ∉ c.spilled)) → c.leaving wb = [g] →
    s.translate c.core c.asid (c.granuleAt g) .write = .ok pa → s.fabricOk c.core c.asid pa true true = true →
    (∀ j l, j < 32 → l < 32 → t.readNat (pa + 128 * j + 4 * l) 4 = (c'.vAbs l (32 * g + j)).toNat) ∧
    ∀ a, a < pa ∨ pa + 4096 ≤ a → t.readByte a = s.readByte a

end Sys2Proof.Machine
end

