-- ==== Sys2Proof/Safety/Barrier.lean ====
section
/-! DEFINITION. What an event on a barrier object leaves (R175, R176), written apart from the machine's meanings. -/

namespace Sys2Proof.Machine

/-- A split parked on the object at table index `idx` as a flip, or the freeing of the object, leaves it (R176, R184), to return with an
acquire at a scope. -/
def Split.wakes (idx : Nat) (scope : Scope) (w : Wake) (q : Split) : Split :=
  match q.status with
  | .barWait h _ .parked => if h.toNat % 256 = idx then { q with status := .barWait h scope w } else q
  | _ => q

/-- The scope of the acquire that observes a flip of an object (Table 10.2): that of the object, or of the system where an arrival
from the fabric counted toward the phase (R70). -/
def BarObj.seenAt (o : BarObj) : Scope := if o.far then .sys else if o.squad then .squad else .team

/-- A crew of which a flip of the object, or its freeing, wakes the splits that wait for it. -/
def Crew.wakes (o : BarObj) (scope : Scope) (w : Wake) (c : Crew) : Crew :=
  if c.core = o.core then { c with splits := c.splits.map (Split.wakes o.idx scope w) } else c

/-- Evaluate (R176) on a word whose counts are EXPA, ARR, EXPB and RCVB: where both are reached the phase flips, the counts start anew
from the base counts and the waiting splits wake; else the counts stand. Every other byte of every scratchpad is as before. -/
structure Evaluated (s t : State) (o : BarObj) (expA arr expB rcvB : Nat) : Prop where
  expAAfter : t.barField o 0 2 = if expA ≤ arr ∧ expB ≤ rcvB then o.baseA % 2 ^ 16 else expA
  arrAfter : t.barField o 2 2 = if expA ≤ arr ∧ expB ≤ rcvB then 0 else arr
  expBAfter : t.barField o 4 4 = if expA ≤ arr ∧ expB ≤ rcvB then o.baseB % 2 ^ 32 else expB
  rcvBAfter : t.barField o 8 4 = if expA ≤ arr ∧ expB ≤ rcvB then 0 else rcvB
  phase : t.phaseOf o = if expA ≤ arr ∧ expB ≤ rcvB then !s.phaseOf o else s.phaseOf o
  bytes : ∀ lid tid a, ¬ (lid = o.lid ∧ tid = o.team ∧ o.offset ≤ a ∧ a < o.offset + 16) →
    t.scratchRead lid tid a 1 = s.scratchRead lid tid a 1

/-- The split `p` of `c` has issued an instruction on the object `o`: `p` becomes `q`, and every split that waited for the object wakes
as `w` says where `wakes` holds. A fence of the split is over. -/
structure BarMoves (s t : State) (c c' : Crew) (p q : Split) (o : BarObj) (wakes : Prop) (scope : Scope) (w : Wake) : Prop where
  others : ∀ k d, k ≠ c.cid → s.crew? k = some d →
    (wakes → t.crew? k = some (d.wakes o scope w).untried) ∧ (¬ wakes → t.crew? k = some d.untried)
  crew   : t.crew? c.cid = some c'
  split  : c'.split? p.sid = some q
  splits : ∀ n d, n ≠ p.sid → c.split? n = some d →
    (wakes → c.core = o.core → c'.split? n = some (d.wakes o.idx scope w).untried) ∧
    (¬ wakes ∨ c.core ≠ o.core → c'.split? n = some d.untried)
  keeps  : c' = { c with raised := c'.raised, splits := c'.splits, host := c'.host, loads := agedLoads c p }
  fence  : FenceActs s t c p
  rest   : t = { s with
    crews := t.crews, age := t.age, woke := t.woke, entered := t.entered, teams := t.teams, bars := t.bars, nextId := t.nextId, l1 := t.l1 }

/-- The split `p` of `c` has issued an instruction that evaluates the object `o`, flipping its phase where `flips`. -/
structure BarFlips (s t : State) (c c' : Crew) (p q : Split) (o : BarObj) (flips : Prop) : Prop
    extends BarMoves s t c c' p q o flips o.seenAt .flipped where
  bars   : (flips → t.bars = s.bars.map fun x =>
      if x.core == o.core && x.idx == o.idx then { o with far := false, farFlip := o.far } else x) ∧
    (¬ flips → t.bars = s.bars)

end Sys2Proof.Machine
end

