-- ==== Sys2Proof/Safety/Events.lean ====
section
/-! DEFINITION. What the events of the device leave as it is. -/

namespace Sys2Proof.Machine

/-- Every crew is as before, and its splits may be tried again (R270). -/
def CrewsStand (s t : State) : Prop := ∀ k, t.crew? k = (s.crew? k).map Crew.untried

/-- The registers of every crew are as before; events that wake splits or clear reservations change nothing else of a crew. -/
def RegistersStand (s t : State) : Prop :=
  ∀ k c, s.crew? k = some c → ∃ d, t.crew? k = some d ∧ d.vregs = c.vregs ∧ d.sregs = c.sregs ∧ d.fpflags = c.fpflags ∧
    d.wb = c.wb ∧ d.depth = c.depth

/-- Every byte of memory reads as before but those for which `f` holds. -/
def MemoryStandsBut (s t : State) (f : Nat → Prop) : Prop := ∀ a, ¬ f a → t.readByte a = s.readByte a

/-- The event happens: the machine goes on in the state `t`. -/
def Happens (s : State) (i : Instr) (t : State) : Prop := exec i s = .next t

/-- An engine has delivered `n` bytes to the object that the handle names for a team (R176, R188); without one no object changes. -/
def Delivered (s t : State) (core lid team handle n : Nat) : Prop :=
  (∀ o x, s.handleObj core lid team (BitVec.ofNat 64 handle) = some o → s.team? o.lid o.team = some x →
    Evaluated s t o (s.barField o 0 2) (s.barField o 2 2) (s.barField o 4 4) ((s.barField o 8 4 + n) % 2 ^ 32)) ∧
  (s.handleObj core lid team (BitVec.ofNat 64 handle) = none → t.teams = s.teams)

/-- A notice has been written to the ring (R325): it is the latest entry, and with NEN = 1 it is sent to NADDR under NKEY, or waits for the
first live port. -/
structure Noticed (s t : State) (kind port ep : Nat) : Prop where
  nseq : t.fab.nseq = s.fab.nseq + 1
  ring : ∃ n, t.fab.nring.getLast? = some n ∧ n.kind = kind ∧ n.port = port ∧ n.ep = ep ∧ n.seq = s.fab.nseq.toNat ∧
    n.time = t.ftime ∧ n.live = t.fab.portLive ∧
    (s.fab.nctl.getLsbD 31 = true → t.fab.portLive ≠ 0 →
      ∃ q ∈ t.fab.strict, q.msg = ⟨s.fab.naddr, s.fab.nctl.truncate 16, n.bytes, []⟩) ∧
    (s.fab.nctl.getLsbD 31 = true → t.fab.portLive = 0 → n ∈ t.fab.unsent)

end Sys2Proof.Machine
end

