-- ==== Sys2Proof/Certificates/Slice0/Obligations.lean ====
section
/-! DEFINITION. The statements for the provers. -/

open Sys2Proof Sys2Proof.Machine

/-! ## The machine as a whole -/

/-- R37, R54, R57, R328 to R331, R340, R346: the next instruction of a split. Where the word at its PC translates for a fetch, is not
poisoned, needs no fabric message or can send it, and decodes to `i`, a step that picks the split is `exec` of `i`, with the split
selected and its pick noted; where the word decodes to nothing the step raises ILLOP, at a poisoned word POISON and at an untranslated
one FETCHFAULT, each with the values of Table 21.1. A copy of the word that the core's instruction fetch reads for the launch stands for
it: that is the model's choice (log entry 50; R57 fixes no rule), as are the tape and its turns (log entry 3). The step
picks in the present cycle or, once nothing more can be picked in it, in the next (R271). What the step adds: an instruction that
could not issue is no pick, and no split stays selected. An event of the tape whose name is `i` is `exec` of `i`. -/
def Obligations.StepRunsTheDecodedInstruction : Prop :=
  (∀ (s s0 : State) (rest : List Turn) (c : Crew) (p : Split) (n : Needs), s.svc.hot = false →
    (s.tape = .issue :: rest ∧
      ((s0 = { s with tape := rest } ∧ s0.nextPick = some (c, p, n)) ∨
       (({ s with tape := rest } : State).nextPick = none ∧ s.picks ≠ [] ∧ s0 = State.tick { s with tape := rest } ∧
        s0.nextPick = some (c, p, n)))) ∨
    (∃ core row, s.tape = .issueRow core row :: rest ∧
      ((s0 = { s with tape := rest } ∧ s0.corePick core row = some (c, p, n)) ∨
       (({ s with tape := rest } : State).corePick core row = none ∧ s0 = State.tick { s with tape := rest } ∧
        s0.corePick core row = some (c, p, n)))) →
    s0.dueTrap c.cid p = none →
    let go : State → State := fun u => (State.unpick s0.picks s0.sfu c.cid p.sid u).finish
    let begins : State := (s0.notePick c p n).select c p
    let kept (pa : Nat) : Option CodeWord := s0.icache.find? fun w =>
      w.lid == c.lid && w.core == c.core && w.addr == pa && !w.off
    let reached (pa : Nat) : Prop := s0.mayReach (s0.loadSlice c.core pa) c.core c.asid pa false false = true
    (∀ pa i, s0.translate c.core c.asid p.pc .exec = .ok pa → kept pa = none → reached pa →
      s0.poisoned pa 4 = false → decodeBytes (s0.readBytes pa 4) = .ok i → step s = onNext go (exec i begins)) ∧
    (∀ pa e, s0.translate c.core c.asid p.pc .exec = .ok pa → kept pa = none → reached pa →
      s0.poisoned pa 4 = false → decodeBytes (s0.readBytes pa 4) = .error e →
      step s = onNext go
        (issue begins fun _ _ _ => .error (.trap ⟨.illop, p.pc, 0, (wordOfBytes (s0.readBytes pa 4)).zeroExtend 64⟩))) ∧
    (∀ pa, s0.translate c.core c.asid p.pc .exec = .ok pa → kept pa = none → reached pa →
      s0.poisoned pa 4 = true → step s = onNext go (issue begins fun _ _ _ => .error (.trap ⟨.poison, p.pc, p.pc, 6⟩))) ∧
    (∀ pa w i, s0.translate c.core c.asid p.pc .exec = .ok pa → kept pa = some w → decodeBytes w.data = .ok i →
      step s = onNext go (exec i begins)) ∧
    (∀ pa w e, s0.translate c.core c.asid p.pc .exec = .ok pa → kept pa = some w → decodeBytes w.data = .error e →
      step s = onNext go
        (issue begins fun _ _ _ => .error (.trap ⟨.illop, p.pc, 0, (wordOfBytes w.data).zeroExtend 64⟩))) ∧
    (∀ r, s0.translate c.core c.asid p.pc .exec = .error r → s0.releasing c p = false →
      step s = onNext go (issue begins fun _ _ _ => .error (.trap ⟨.fetchfault, p.pc, p.pc, .ofNat 64 r.code⟩)))) ∧
  (∀ (s : State) (rest : List Turn) (i : Instr), s.tape = .event i :: rest → i.isWord = false →
    step s = exec i { s with tape := rest })

/-- A step of the machine always answers a next state: no state makes it fault, and no instruction is refused. That every step, an
event of the tape among them, answers a next state is the model's choice (log entry 3). -/
def Obligations.EveryStepAnswers : Prop := ∀ s : State, SafeAt s

/-- R303 (24 partitions on 24 bays) and the model's canonical form of memory (log entry 1): in every state that meets the machine's
invariant, a step leaves a state that meets it. -/
def Obligations.EveryStepKeepsTheInvariant : Prop := ∀ s t : State, s.Inv → step s = .next t → t.Inv

/-- The state after reset meets the machine's invariant.
R305, R322, R369 (Table 26.2): what the register tables give at reset: 24 partitions that are not enabled, each with PSCHED 4, 24 bays of generation 0, every fabric port enabled and none
live, no key, no route, PWRCAP 3,000 and BOOTOK 0; no context, launch or crew exists and the clock counts from 0. -/
def Obligations.Reset : Prop :=
  (State.reset.Inv) ∧
  (
    let s := State.reset
    s.crews = [] ∧ s.teams = [] ∧ s.launches = [] ∧ s.contexts = [] ∧ s.cycle = 0 ∧ s.parts.length = 24 ∧ s.bays.length = 24 ∧
      (∀ x ∈ s.parts, x.en = false ∧ x.size = 0 ∧ x.base = 0 ∧ x.busy = false ∧ x.result = 0 ∧ x.psched = 4 ∧ x.eng = [] ∧ x.sdbusy = false) ∧
      (∀ x ∈ s.bays, x.gen = 0 ∧ x.scrub = false) ∧
      s.fab.fctl = 0 ∧ s.fab.exptab = [] ∧ s.fab.keytab0 = [] ∧ s.fab.keytab1 = [] ∧ s.fab.route0 = [] ∧ s.fab.route1 = [] ∧ s.fab.portEn = BitVec.allOnes 72 ∧ s.fab.portLive = 0 ∧ s.fab.portFail = 0 ∧
      s.svc.pwrcap = 3000 ∧ s.svc.bootok = false ∧ s.svc.hot = false ∧ s.svc.uecnt = 0)

/-- R37 to R51: decoding the word of a well-formed instruction gives that instruction back, for every instruction that has a word
and every operand that its encoding admits. -/
def Obligations.DecodeOfEncode : Prop :=
  ∀ i : Instr, i.isWord = true → i.wf = true → decode (encode i) = .ok i

/-- R269 to R272 and Table 15.1: the next pick of a row. The row has made fewer than two picks in the cycle and no row that picks after
it has made one; the split that it picks is the oldest of the row that can be picked: every split of the row before it in the age order
cannot, and it has entered the age order before this cycle (R269). Its instruction finds the transcendental unit free where it needs it, and its core port unclaimed in the cycle; as a second
pick it overlaps no lane of the first where both are of the lane ISA, and both together read each register bank at most twice.
Among the rows of a core the one nearest after p = cycle mod 4 picks first. -/
def Obligations.TheOldestCandidateIssues : Prop :=
  (∀ (s : State) (core row : Nat) (c : Crew) (p : Split) (n : Needs), s.rowPick core row = some (c, p, n) →
    (s.picks.filter fun q => q.core == core && q.row == row).length < 2 ∧
    (∀ q ∈ s.picks, q.core = core → (q.row + 4 - s.cycle % 4) % 4 ≤ (row + 4 - s.cycle % 4) % 4) ∧
    c.core = core ∧ c.row = row ∧ s.crew? c.cid = some c ∧ c.split? p.sid = some p ∧ s.mayIssue c p = true ∧
    (c.cid, p.sid) ∉ s.entered ∧ (c.cid, p.sid) ∉ s.woke ∧
    (∀ q ∈ s.picks, ¬ (q.cid = c.cid ∧ q.sid = p.sid)) ∧
    (∃ before after, s.age = before ++ (c.cid, p.sid) :: after ∧ ∀ e ∈ before, ∀ d q, s.crew? e.1 = some d → d.core = core →
      d.row = row → d.split? e.2 = some q → s.canPick d q = none) ∧
    ∀ i, s.dueTrap c.cid p = none → s.fetch c p = .instr i →
      (i.sfu = true → sget 0 s.sfu (4 * core + row) ≤ s.cycle) ∧
      (∀ x, i.port = some x → ∀ q ∈ s.picks, q.core = core → q.needs.port ≠ some x) ∧
      ∀ q ∈ s.picks, q.core = core → q.row = row →
        (q.needs.lane = true → (encode i).msb = false → q.needs.mask &&& p.mask = 0) ∧
        ∀ b, b < 4 → ((q.needs.banks ++ i.reads.map (· % 4)).count b) ≤ 2) ∧
  (∀ (s : State) (k : Crew × Split × Needs), s.nextPick = some k →
    ∃ j, j < 4 ∧ s.rowPick k.1.core ((s.cycle + j) % 4) = some k ∧
      ∀ m, m < j → s.rowPick k.1.core ((s.cycle + m) % 4) = none)

/-- R328, R329, R331: a trap `k` that the instruction of a split raises, with the split's earlier stores translated, a trap handler
and no handler running, is taken: the control state is set aside and starts anew, TCAUSE, TRAPPC, TADDR and TAUX hold the trap's
values, and the split goes on at TRAPENT in handler mode; registers, memory and everything else are as before. Without a trap
handler, and in handler mode, the crew of a grid ends instead.
R28, R39, R55: a lane instruction that names a register outside the window raises ILLOPND with its word, and has no other
effect: the state is that of the trap. -/
def Obligations.TrapEntryAndIllopnd : Prop :=
  (
    ∀ (s : State) (c : Crew) (p : Split) (k : Trap) (body : Crew → Split → State → Res), Issues s c p → p.drained = true →
      body (reads s c p) p (begun s c p) = .error (.trap k) →
      (p.inHandler = false → s.trapEnt c.asid ≠ 0 → ∃ (t : State) (c' : Crew), issue s body = .next t ∧ Enters s t c c' p k) ∧
      (p.inHandler = true ∨ s.trapEnt c.asid = 0 → s.inField c = false →
        ∃ (t : State), issue s body = .next t ∧ t.crew? c.cid = none ∧ t.mem = s.mem)) ∧
  (
    (∀ (s : State) (c : Crew) (p : Split) (i : Instr) (d : BitVec 8) (srcs : List Src) (rd : Bool)
        (f : (Src → Word) → Word → Word), IntRow i d srcs rd f → Issues s c p →
      c.ws ≤ d.toNat ∨ (∃ n, Src.v n ∈ srcs ∧ c.ws ≤ n.toNat) →
      exec i s = .next (s.raise c.cid p.sid ⟨.illopnd, p.pc, 0, (encode i).zeroExtend 64⟩)) ∧
    (∀ (s : State) (c : Crew) (p : Split) (i : Instr) (d : BitVec 8) (srcs : List Src) (rd : Bool)
        (f : Rnd → (Src → Word) → Word → Word × Flags), FloatRow i d srcs rd f → Issues s c p →
      c.ws ≤ d.toNat ∨ (∃ n, Src.v n ∈ srcs ∧ c.ws ≤ n.toNat) →
      exec i s = .next (s.raise c.cid p.sid ⟨.illopnd, p.pc, 0, (encode i).zeroExtend 64⟩)))

/-! ## Lane and uniform arithmetic -/

/-- R94, R96 to R98, R111, R112, R114, R164 and Tables 6.2 to 6.4: an integer, logic or data instruction of the lanes writes the
table's value to each active lane's D and changes nothing else. -/
def Obligations.LaneIntegerResults : Prop :=
  ∀ (s : State) (c : Crew) (p : Split) (i : Instr) (d : BitVec 8) (srcs : List Src) (rd : Bool)
    (f : (Src → Word) → Word → Word), IntRow i d srcs rd f → Issues s c p →
    Clear s (reads s c p) p { srcs := srcs, rd := if rd then [d.toNat] else [], wr := [d.toNat] } false →
    ∃ (t : State) (c' : Crew), exec i s = .next t ∧ Goes s t c c' p (p.issued (p.pc + 4)) ∧ OnlyLanes c c' p ∧
      LanesHold c c' p d.toNat (fun l => f (s.op (reads s c p) l) (c.v l d.toNat)) ∧ c'.fpflags = c.fpflags

/-- R93, R94, R99 to R106: a floating-point, packed or converting instruction writes its result, in the crew's rounding mode, to
each active lane's D, ORs the flags of its active lanes into FPFLAGS and changes nothing else. -/
def Obligations.LaneFloatResults : Prop :=
  ∀ (s : State) (c : Crew) (p : Split) (i : Instr) (d : BitVec 8) (srcs : List Src) (rd : Bool)
    (f : Rnd → (Src → Word) → Word → Word × Flags), FloatRow i d srcs rd f → Issues s c p →
    Clear s (reads s c p) p { srcs := srcs, rd := if rd then [d.toNat] else [], wr := [d.toNat] } false →
    ∃ (t : State) (c' : Crew), exec i s = .next t ∧ Goes s t c c' p (p.issued (p.pc + 4)) ∧ OnlyLanes c c' p ∧
      LanesHold c c' p d.toNat (fun l => (f (reads s c p).rnd (s.op (reads s c p) l) (c.v l d.toNat)).1) ∧
      c'.fpflags = c.fpflags ||| orFlags ((activeLanes c p).map fun l =>
        (f (reads s c p).rnd (s.op (reads s c p) l) (c.v l d.toNat)).2)

/-- R50, R52 and Table 3.10: a uniform scalar writes the table's value to S(D), sets no flag and changes nothing else. -/
def Obligations.UniformResults : Prop :=
  ∀ (s : State) (c : Crew) (p : Split) (i : Instr) (d : BitVec 6) (us : List (BitVec 6))
    (f : (BitVec 6 → DWord) → DWord), UniRow i d us f → Issues s c p →
    Clear s (reads s c p) p { us := us.map (·.toNat), ud := [d.toNat] } false →
    ∃ (t : State) (c' : Crew), exec i s = .next t ∧ Goes s t c c' p (p.issued (p.pc + 4)) ∧ OnlyUniform c c' p ∧
      UniformHolds c c' d.toNat (f fun n => (reads s c p).u n.toNat)

/-- R113: SHFL gives each active lane register A of the lane that the low five bits of B name, as it stands before the
instruction; a lane that is absent gives 0 (R281), and an A that is no lane register raises ILLOPND. That a lane of another split gives
its present value, where R113 allows an older one, is the model's inference (log entry 13). -/
def Obligations.Shfl : Prop :=
  (∀ (s : State) (c : Crew) (p : Split) (d : BitVec 8) (n : BitVec 7) (b : Src), Issues s c p →
    Clear s (reads s c p) p { srcs := [.v n, b], wr := [d.toNat] } false →
    (∀ l ∈ activeLanes c p, 32 * (c.wb + n.toNat) + (s.op (reads s c p) l b).toNat % 32 ∉ c.vpoison) →
    ∃ (t : State) (c' : Crew), exec (.shfl d (.v n) b) s = .next t ∧ Goes s t c c' p (p.issued (p.pc + 4)) ∧ OnlyLanes c c' p ∧
      LanesHold c c' p d.toNat (fun l =>
        if c.absent.getLsbD ((s.op (reads s c p) l b).toNat % 32) then 0
        else c.v ((s.op (reads s c p) l b).toNat % 32) n.toNat) ∧ c'.fpflags = c.fpflags) ∧
  (∀ (s : State) (c : Crew) (p : Split) (d : BitVec 8) (a b : Src), (∀ n, a ≠ .v n) → Issues s c p →
    exec (.shfl d a b) s = .next (s.raise c.cid p.sid ⟨.illopnd, p.pc, 0, (encode (.shfl d a b)).zeroExtend 64⟩))

/-- R108: QSCALE gives the active lanes of each group of 16 lanes the descriptor of the group's values, in element order: of A, and
with LEN also of the two registers after it. A group whose values are all infinite has no finite SCALE: there it is a free value, a function
of the format and of the group's operand bits (R92; log entry 42).
R109, R110: QPACK gives each active lane the codes of its seat's active lanes, lane j of the seat in field j; QUNPK gives each
active lane the value of its own code of the field. Both OR the flags of the active lanes into FPFLAGS. Where the descriptors of a seat
have different widths, the codes enter the field as the pseudocode of R109 ORs them, without a mask (log entry 43; log entry 42 for
SCALE). -/
def Obligations.QuantisingResults : Prop :=
  (
    ∀ (s : State) (c : Crew) (p : Split) (d : BitVec 8) (a : Src) (f : BitVec 3) (len : BitVec 1), Issues s c p → f.toNat < 5 →
      (len = 0#1 ∨ ∃ n, a = .v n) →
      let more := match a with
        | .v n => if len = 1#1 then [n.toNat + 1, n.toNat + 2] else []
        | _ => []
      Clear s (reads s c p) p { srcs := [a], rd := more, wr := [d.toNat] } false →
      let group (g : Nat) := (activeLanes c p).filter fun l => decide (l / 16 = g)
      let bits (g : Nat) : List Word := ((group g).map fun l => s.op (reads s c p) l a) ++
        more.flatMap fun n => (group g).map fun l => c.v l n
      let result (g : Nat) := qscaleOf (openScale f.toNat (bits g)) f.toNat (decide (len = 1#1)) ((bits g).map readF32)
      ∃ (t : State) (c' : Crew), exec (.qscale d a f len) s = .next t ∧ Goes s t c c' p (p.issued (p.pc + 4)) ∧ OnlyLanes c c' p ∧
        LanesHold c c' p d.toNat (fun l => (result (l / 16)).1) ∧
        c'.fpflags = c.fpflags ||| orFlags ((activeLanes c p).map fun l => (result (l / 16)).2)) ∧
  (
    ∀ (s : State) (c : Crew) (p : Split) (d : BitVec 8) (a b : Src), Issues s c p →
      Clear s (reads s c p) p { srcs := [a, b], wr := [d.toNat] } false →
      let x (l : Nat) := s.op (reads s c p) l a
      let y (l : Nat) := s.op (reads s c p) l b
      let fmt (l : Nat) := (y l).toNat / 65536 % 8
      (∃ (t : State) (c' : Crew) (val : Nat → Word), exec (.qpack d a b) s = .next t ∧ Goes s t c c' p (p.issued (p.pc + 4)) ∧ OnlyLanes c c' p ∧
        LanesHold c c' p d.toNat val ∧
        (∀ l ∈ activeLanes c p, 4 < fmt l → val l = 0) ∧
        (∀ l ∈ activeLanes c p, fmt l ≤ 4 → ∀ k, k < 32 → ((val l).getLsbD k = true ↔
          ∃ j, j < 4 ∧ 4 * (l / 4) + j ∈ activeLanes c p ∧ narrowWidth (fmt l) * j ≤ k ∧
            (qcode (x (4 * (l / 4) + j)) (y (4 * (l / 4) + j))).1.testBit (k - narrowWidth (fmt l) * j) = true)) ∧
        c'.fpflags = c.fpflags ||| orFlags ((activeLanes c p).map fun l => (qcode (x l) (y l)).2)) ∧
      (∃ (t : State) (c' : Crew), exec (.qunpk d a b) s = .next t ∧ Goes s t c c' p (p.issued (p.pc + 4)) ∧ OnlyLanes c c' p ∧
        LanesHold c c' p d.toNat (fun l => (qunpkOf l (x l) (y l)).1) ∧
        c'.fpflags = c.fpflags ||| orFlags ((activeLanes c p).map fun l => (qunpkOf l (x l) (y l)).2)))

/-! ## Control flow -/

/-- R244 to R246 and Table 14.2: IF, ELSE, ENDIF, LOOP, BRK and CONT give the lanes of the split the table's NC, MARK and CB and
the split the table's active depth; the split goes on at the next word while one of its lanes is active, else at the REL16 target.
Lanes outside the split, registers and memory are as before. (ENDIF at AD 0, to which the spec gives no depth, takes a free value:
log entry 5; the statement says nothing of it.)
R244, R245: LEND releases the lanes of the split that continued (CB set, NC 1). It goes back to its REL16 target while a lane is
active; else it lowers NC of every lane that has one and the active depth, and goes on at the next word. -/
def Obligations.StructuredControlAndLend : Prop :=
  (
    ∀ (s : State) (c : Crew) (p : Split) (i : Instr) (srcs : List Src) (k : CtlStep) (r : BitVec 16), CtlRow s c p i srcs k r →
      Issues s c p → Clear s (reads s c p) p { srcs := srcs } false →
      ∃ (t : State) (c' : Crew) (ad : Nat) (pc : DWord), exec i s = .next t ∧ Moves s t c c' p { p.issued pc with ad := ad } ∧ OnlyControl c c' p ∧
        CtlHolds c c' p k ∧ (∀ a, k.ad = some a → ad = a) ∧
        (anyZero c' p.mask → pc = p.pc + 4) ∧ (¬ anyZero c' p.mask → pc = relTarget p.pc r) ∧
        t = { s with crews := t.crews, age := t.age, woke := t.woke, entered := t.entered, free := t.free }) ∧
  (
    ∀ (s : State) (c : Crew) (p : Split) (r : BitVec 16), Issues s c p →
      let free (l : Nat) : Prop := p.mask.getLsbD l = true ∧ c.cb.getLsbD l = true ∧ c.ncOf l = 1
      let active (l : Nat) : Prop := l < 32 ∧ p.mask.getLsbD l = true ∧ (c.ncOf l = 0 ∨ free l)
      ∃ (t : State) (c' : Crew) (ad : Nat) (pc : DWord), exec (.lend r) s = .next t ∧ Moves s t c c' p { p.issued pc with ad := ad } ∧ OnlyControl c c' p ∧
        c'.marks = c.marks ∧
        (∀ l, l < 32 → (c'.cb.getLsbD l = true ↔ c.cb.getLsbD l = true ∧ ¬ free l)) ∧
        (∀ l, l < 32 → free l → c'.ncOf l = 0) ∧
        ((∃ l, active l) → pc = relTarget p.pc r ∧ ad = p.ad ∧ ∀ l, l < 32 → ¬ free l → c'.ncOf l = c.ncOf l) ∧
        ((¬ ∃ l, active l) → pc = p.pc + 4 ∧ (0 < p.ad → ad = p.ad - 1) ∧
          ∀ l, l < 32 → c'.ncOf l = if p.mask.getLsbD l then c.ncOf l - 1 else c.ncOf l) ∧
        t = { s with crews := t.crews, age := t.age, woke := t.woke, entered := t.entered, free := t.free })

/-- R253, R256: a SPLIT that both groups are non-empty for, in a split without a fallback record, with a free split-table entry,
fewer than 4 splits and a free join record, splits the issuing split in two: the true split keeps its entry, the inactive lanes and
PC + 4; the false split takes the lowest free entry of its row's split table (the model's numbering, log entry 31), holds the false group and stands at Lf, and what the
issuing split did before precedes what it does (R198); both have AD 0 and the construct on their stack, and a join record holds the
enclosing construct, the members and the parent's depth. No register and no NC changes. -/
def Obligations.RealSplit : Prop :=
  ∀ (s : State) (c : Crew) (p : Split) (a : Src) (r : BitVec 16), Issues s c p → p.inHandler = false →
    Clear s (reads s c p) p { srcs := [a] } false → p.stack.length < 16 → p.fb = none →
    (∃ l ∈ activeLanes c p, s.op (reads s c p) l a ≠ 0) → (∃ l ∈ activeLanes c p, s.op (reads s c p) l a = 0) →
    s.extraSplits c.core c.row < 24 → c.splits.length < 4 → c.joins.length < 4 →
    ∃ (t : State) (c' : Crew) (q : Split) (e : Construct) (n : Nat) (f : Split), exec (.split a r) s = .next t ∧ t.crew? c.cid = some c' ∧
      c'.split? p.sid = some q ∧ n ≠ p.sid ∧ c.split? n = none ∧ c'.split? n = some f ∧
      (∀ m, m ≠ p.sid → m ≠ n → c'.split? m = (c.split? m).map Split.untried) ∧
      (∀ k, k ≠ c.cid → t.crew? k = (s.crew? k).map Crew.untried) ∧
      (∀ l, l < 32 → (f.mask.getLsbD l = true ↔ l ∈ activeLanes c p ∧ s.op (reads s c p) l a = 0)) ∧
      q.mask = p.mask &&& ~~~f.mask ∧
      q.pc = p.pc + 4 ∧ f.pc = relTarget p.pc r ∧ q.ad = 0 ∧ f.ad = 0 ∧
      e.mode = .real ∧ e.addr = p.pc ∧ e.lf = relTarget p.pc r ∧ e.depth = c.depth ∧ e.falseArm = false ∧
      q.stack = p.stack ++ [e] ∧ f.stack = p.stack ++ [{ e with falseArm := true }] ∧
      (∀ m, m < f.entry → m ∈ s.entriesOf c.core c.row) ∧ f.entry ∉ s.entriesOf c.core c.row ∧ q.entry = p.entry ∧
      f.anc = (p.sid, s.nextId) :: p.anc ∧ f.fence = p.fence ∧ f.stores = [] ∧ f.due = [] ∧
      c'.joins = c.joins ++ [{
        id := e.join, outer := (((p.stack.filter fun o => decide (o.mode = .real)).getLast?).map (·.join)), members := p.mask
        parentAd := p.ad, trueSid := p.sid }] ∧
      c' = { c with splits := c'.splits, joins := c'.joins, raised := c'.raised, host := c'.host, loads := agedLoads c p } ∧
      t = { s with crews := t.crews, age := t.age, woke := t.woke, entered := t.entered, nextId := t.nextId }

/-- R253, R255: a SPLIT that no real construct is free for, with both groups non-empty and no fallback record open, opens a fallback
construct: the true group runs on at PC + 4 with IF's effect, the false group is parked at Lf.
R253, R254: a SPLIT inside a fallback construct, or one with an empty group, opens an inline construct: IF's effect, and while
a lane stays active the true arm runs on at PC + 4; else ELSE's effect too, and the split goes on at Lf while a lane is active, and
at the MEET before it when none is. That its arm bit is then set is the model's inference (log entry 31). -/
def Obligations.FallbackAndInlineSplit : Prop :=
  (
    ∀ (s : State) (c : Crew) (p : Split) (a : Src) (r : BitVec 16), Issues s c p → p.inHandler = false →
      Clear s (reads s c p) p { srcs := [a] } false → p.stack.length < 16 → p.fb = none →
      (∃ l ∈ activeLanes c p, s.op (reads s c p) l a ≠ 0) → (∃ l ∈ activeLanes c p, s.op (reads s c p) l a = 0) →
      24 ≤ s.extraSplits c.core c.row ∨ 4 ≤ c.splits.length ∨ 4 ≤ c.joins.length → noOverflow c p →
      ∃ (t : State) (c' : Crew) (q : Split) (e : Construct) (f : Fallback), exec (.split a r) s = .next t ∧ Moves s t c c' p q ∧ OnlyControl c c' p ∧
        CtlHolds c c' p { nc := fun l n => if 0 < n then n + 1 else if s.op (reads s c p) l a = 0 then 1 else 0
                          ad := some (p.ad + 1) } ∧
        q = { p.issued (p.pc + 4) with ad := p.ad + 1, stack := p.stack ++ [e], fb := some f } ∧
        e.mode = .fallback ∧ e.addr = p.pc ∧ e.lf = relTarget p.pc r ∧ e.depth = c.depth ∧ e.falseArm = false ∧
        f.fb = p.ad + 1 ∧ f.ra = 0 ∧ f.pa = 0 ∧ f.ppc = relTarget p.pc r ∧ f.pwb = c.wb ∧ f.pdepth = c.depth ∧
        f.pupper = [] ∧ f.finished = false ∧ f.count = 0 ∧ f.level = p.stack.length ∧
        (∀ l, l < 32 → (f.pm.getLsbD l = true ↔ l ∈ activeLanes c p ∧ s.op (reads s c p) l a = 0)) ∧
        (∀ l, l < 32 → (f.rm.getLsbD l = true ↔ l ∈ activeLanes c p ∧ s.op (reads s c p) l a ≠ 0)) ∧
        t = { s with crews := t.crews, age := t.age, woke := t.woke, entered := t.entered }) ∧
  (
    ∀ (s : State) (c : Crew) (p : Split) (a : Src) (r : BitVec 16), Issues s c p → p.inHandler = false →
      Clear s (reads s c p) p { srcs := [a] } false → p.stack.length < 16 → noOverflow c p →
      let yes (l : Nat) : Prop := l ∈ activeLanes c p ∧ s.op (reads s c p) l a ≠ 0
      let no (l : Nat) : Prop := l ∈ activeLanes c p ∧ s.op (reads s c p) l a = 0
      p.fb ≠ none ∨ (¬ ∃ l, yes l) ∨ (¬ ∃ l, no l) →
      ∃ (t : State) (c' : Crew) (e : Construct) (pc : DWord), exec (.split a r) s = .next t ∧
        Moves s t c c' p { p.issued pc with ad := p.ad + 1, stack := p.stack ++ [e] } ∧ OnlyControl c c' p ∧
        c'.marks = c.marks ∧ c'.cb = c.cb ∧ e.mode = .inline ∧ e.addr = p.pc ∧ e.lf = relTarget p.pc r ∧ e.depth = c.depth ∧
        (∀ l, l < 32 → p.mask.getLsbD l = false → c'.ncOf l = c.ncOf l) ∧
        (∀ l, l < 32 → p.mask.getLsbD l = true → 0 < c.ncOf l → c'.ncOf l = c.ncOf l + 1) ∧
        ((∃ l, yes l) → pc = p.pc + 4 ∧ ∀ l, (yes l → c'.ncOf l = 0) ∧ (no l → c'.ncOf l = 1)) ∧
        ((¬ ∃ l, yes l) → (∃ l, no l) → pc = relTarget p.pc r ∧ e.falseArm = true ∧ ∀ l, no l → c'.ncOf l = 0) ∧
        ((¬ ∃ l, yes l) → (¬ ∃ l, no l) → pc = relTarget p.pc r - 4) ∧
        t = { s with crews := t.crews, age := t.age, woke := t.woke, entered := t.entered })

/-- R254, R255 and R259: MEET. In a real construct the split goes to Lj; in an inline one ELSE's effect is applied and the false arm
runs while a lane is active, else the split goes to Lj; in a fallback construct whose parked arm is finished the split goes to Lj,
and otherwise the arms swap and the arm that stops is finished. Lj is then known in the construct, for every split that holds it. Without an
open construct it raises SPLITSTATE 3. The arm bit that is set or exchanged and Lj learned by every split at the first MEET are the
model's inferences (log entry 31), a swap whose page does not translate its choice (log entry 41).
R254 to R256 and R259: JOIN. An inline construct ends with ENDIF's effect; a fallback construct whose parked arm is finished gives the lanes of that
arm their NC back, then has ENDIF's effect on the whole split; both are popped, and the split goes on at the next word while a lane is
active, else at the REL16 target. While the parked arm is not finished, the arms swap. In a real construct of which another
live split has not arrived, the split parks. A swap that need not wait brings the window of the other arm back: every register keeps its
value, unless its granule comes back from a spill area that the program has written. Without an open construct JOIN raises SPLITSTATE 3.
The arm bit that a swap exchanges is the model's inference (log entry 31), a swap whose page does not translate its choice (log entry
41). -/
def Obligations.MeetAndJoin : Prop :=
  (
    ∀ (s : State) (c : Crew) (p : Split) (r : BitVec 16), Issues s c p →
      (p.stack = [] → exec (.meet r) s = .next (s.raise c.cid p.sid ⟨.splitstate, p.pc, 0, 3⟩)) ∧
      (∀ (st : List Construct) (e : Construct), p.stack = st ++ [e] →
        let lj := relTarget p.pc r
        (e.mode = .real →
          ∃ (t : State) (c' : Crew), exec (.meet r) s = .next t ∧ t.crew? c.cid = some c' ∧ c'.host = hostIssued c.host ∧
            (∀ k, k ≠ c.cid → t.crew? k = (s.crew? k).map Crew.untried) ∧
            (∀ n, c.split? n = none → c'.split? n = none) ∧
            (∀ n o, c.split? n = some o → ∃ q, c'.split? n = some q ∧
              Learns e.join lj (if n = p.sid then p.issued lj else o.untried) q) ∧
            c' = { c with splits := c'.splits, raised := c'.raised, host := c'.host, loads := agedLoads c p } ∧ t = { s with crews := t.crews, age := t.age, woke := t.woke, entered := t.entered }) ∧
        (e.mode = .fallback ∧ (∃ f, p.fb = some f ∧ f.finished = true) →
          ∃ (t : State) (c' : Crew), exec (.meet r) s = .next t ∧
            Goes s t c c' p { p.issued lj with stack := st ++ [{ e with lj := some lj }] } ∧
            c' = { c with splits := c'.splits, raised := c'.raised, host := c'.host, loads := agedLoads c p }) ∧
        (e.mode = .inline →
          ∃ (t : State) (c' : Crew) (pc : DWord), exec (.meet r) s = .next t ∧
            Goes s t c c' p { p.issued pc with stack := st ++ [{ e with lj := some lj, falseArm := true }] } ∧
            OnlyControl c c' p ∧
            CtlHolds c c' p { nc := fun _ n => if n = 0 then 1 else if n = 1 then 0 else n, ad := some p.ad } ∧
            (anyZero c' p.mask → pc = p.pc + 4) ∧ (¬ anyZero c' p.mask → pc = lj)) ∧
        (∀ (f : Fallback) (u : State), e.mode = .fallback → p.fb = some f → f.finished = false →
          swapArms ((begun s c p).modSplit c.cid p.sid fun q => { q with stack := st ++ [{ e with lj := some lj }] })
            c.cid p.sid true p.muted = .ok u →
          ∃ (t : State) (c' : Crew) (q : Split), exec (.meet r) s = .next t ∧ t.crew? c.cid = some c' ∧ c'.split? p.sid = some q ∧
            Swapped c c' { p with stack := st ++ [{ e with lj := some lj }] } q f true ∧
            (∀ l k, l < 32 → Keeps t c f.pwb k → c'.vAbs l k = c.vAbs l k) ∧ c'.sregs = c.sregs))) ∧
  (
    ∀ (s : State) (c : Crew) (p : Split) (r : BitVec 16), Issues s c p →
      (p.stack = [] → exec (.join r) s = .next (s.raise c.cid p.sid ⟨.splitstate, p.pc, 0, 3⟩)) ∧
      (∀ (st : List Construct) (e : Construct), p.stack = st ++ [e] →
        (e.mode = .inline →
          ∃ (t : State) (c' : Crew) (ad : Nat) (pc : DWord), exec (.join r) s = .next t ∧ Moves s t c c' p { p.issued pc with ad := ad, stack := st } ∧
            OnlyControl c c' p ∧ CtlHolds c c' p { nc := fun _ n => n - 1, ad := some ad } ∧ (0 < p.ad → ad = p.ad - 1) ∧
            (anyZero c' p.mask → pc = p.pc + 4) ∧ (¬ anyZero c' p.mask → pc = relTarget p.pc r) ∧
            t = { s with crews := t.crews, age := t.age, woke := t.woke, entered := t.entered, free := t.free }) ∧
        (∀ (f : Fallback), e.mode = .fallback → p.fb = some f → f.finished = true →
          ∃ (t : State) (c' : Crew) (pc : DWord), exec (.join r) s = .next t ∧
            Goes s t c c' p { p.issued pc with ad := f.fb - 1, fb := none, stack := st } ∧ OnlyControl c c' p ∧
            c'.marks = c.marks ∧ c'.cb = c.cb ∧
            (∀ l, l < 32 → c'.ncOf l =
              (if f.pm.getLsbD l then (sget 0 f.savedNc l).toNat else c.ncOf l) - if p.mask.getLsbD l then 1 else 0) ∧
            (anyZero c' p.mask → pc = p.pc + 4) ∧ (¬ anyZero c' p.mask → pc = relTarget p.pc r)) ∧
        (∀ (f : Fallback) (u : State), e.mode = .fallback → p.fb = some f → f.finished = false →
          swapArms (begun s c p) c.cid p.sid true p.muted = .ok u →
          ∃ (t : State) (c' : Crew) (q : Split), exec (.join r) s = .next t ∧ t.crew? c.cid = some c' ∧ c'.split? p.sid = some q ∧
            Swapped c c' p q f true ∧ (∀ l k, l < 32 → Keeps t c f.pwb k → c'.vAbs l k = c.vAbs l k) ∧ c'.sregs = c.sregs) ∧
        (∀ j o, e.mode = .real → j ∈ c.joins → j.id = e.join → o ∈ c.splits → o.sid ≠ p.sid → o.holds e.join = true →
          o.atJoin e.join = false →
          ∃ (t : State) (c' : Crew), exec (.join r) s = .next t ∧ Goes s t c c' p { p.issued p.pc with status := .joinWait r } ∧
            c' = { c with splits := c'.splits, raised := c'.raised, host := c'.host, loads := agedLoads c p })))

/-- R256: the last live split of a real construct to arrive at its JOIN merges it: one split with the union of the masks takes the
place of the splits that held the construct (the true split if it is live, else that of the lowest split-table entry), with the parent's depth and
stack; a lane with a depth still to leave breaks again in the enclosing construct; the split goes on after the JOIN while a lane is
active, else at its REL16 target; the join record is free. Where the splits stand at different JOINs it goes on from that of the kept
split: the model's choice (log entry 31). -/
def Obligations.Merge : Prop :=
  ∀ (s : State) (c : Crew) (p : Split) (r : BitVec 16) (st : List Construct) (e : Construct) (j : JoinRec), Issues s c p →
    p.stack = st ++ [e] → e.mode = .real → c.joins.find? (fun k => k.id == e.join) = some j →
    (∀ o ∈ c.splits, o ≠ p → o.holds e.join = true → o.sid ≠ p.sid ∧ o.atJoin e.join = true) →
    ∃ (t : State) (c' : Crew) (q : Split) (o : Split) (rel : BitVec 16), exec (.join r) s = .next t ∧ t.crew? c.cid = some c' ∧ c'.split? q.sid = some q ∧
      o ∈ c.splits ∧ o.holds e.join = true ∧ o.sid = q.sid ∧ q.stack = o.stack.dropLast ∧
      (o.sid = j.trueSid ∨ ∀ x ∈ c.splits, x.holds e.join = true → x.sid ≠ j.trueSid ∧ o.entry ≤ x.entry) ∧
      (if o = p then rel = r else o.status = .joinWait rel) ∧
      (anyZero c' q.mask → q.pc = o.pc + 4) ∧ (¬ anyZero c' q.mask → q.pc = relTarget o.pc rel) ∧
      q.ad = j.parentAd ∧ q.status = .waking ∧
      (∀ l, l < 32 → (q.mask.getLsbD l = true ↔ ∃ x ∈ c.splits, x.holds e.join = true ∧ x.mask.getLsbD l = true)) ∧
      (∀ x ∈ c.splits, x.holds e.join = true → x.sid ≠ q.sid → c'.split? x.sid = none) ∧
      (∀ k ∈ c'.joins, k.id ≠ e.join) ∧
      (∀ l, l < 32 → q.mask.getLsbD l = true → (c'.ncOf l, c'.markOf l) = mergeNc q.stack j.parentAd (c.ncOf l) (c.markOf l)) ∧
      (∀ l, l < 32 → q.mask.getLsbD l = false → (c'.ncOf l, c'.markOf l) = (c.ncOf l, c.markOf l)) ∧
      c'.vregs = c.vregs ∧ c'.sregs = c.sregs ∧ t.mem = s.mem

/-- R56, R248, R258: BRA, BZ, BNZ and JMP go to their target where they are taken and to the next word where they are not. A taken
branch that leaves the innermost construct raises SPLITESC with the target, and a JMP to an unaligned target ALIGN. -/
def Obligations.Branches : Prop :=
  ∀ (s : State) (c : Crew) (p : Split), Issues s c p →
    let goes (i : Instr) (us : List Nat) (taken : Prop) (target : DWord) : Prop :=
      Clear s (reads s c p) p { us := us } false →
        ((taken → escapes (reads s c p) p target = false →
          ∃ (t : State) (c' : Crew), exec i s = .next t ∧ Goes s t c c' p (p.issued target) ∧
            c' = { c with splits := c'.splits, raised := c'.raised, host := c'.host, loads := agedLoads c p }) ∧
        (¬ taken → ∃ (t : State) (c' : Crew), exec i s = .next t ∧ Goes s t c c' p (p.issued (p.pc + 4)) ∧
          c' = { c with splits := c'.splits, raised := c'.raised, host := c'.host, loads := agedLoads c p }) ∧
        (taken → escapes (reads s c p) p target = true →
          exec i s = .next (s.raise c.cid p.sid ⟨.splitesc, p.pc, target, 0⟩)))
    (∀ r, goes (.bra r) [] True (relTarget p.pc r)) ∧
    (∀ (a : BitVec 6) r, goes (.bz a r) [a.toNat] ((reads s c p).u a.toNat = 0) (relTarget p.pc r)) ∧
    (∀ (a : BitVec 6) r, goes (.bnz a r) [a.toNat] ((reads s c p).u a.toNat ≠ 0) (relTarget p.pc r)) ∧
    (∀ a : BitVec 6, p.recipe = false → (reads s c p).u a.toNat &&& 3 = 0 →
      goes (.jmp a) [a.toNat] True ((reads s c p).u a.toNat)) ∧
    (∀ a : BitVec 6, Clear s (reads s c p) p { us := [a.toNat] } false → (reads s c p).u a.toNat &&& 3 ≠ 0 →
      exec (.jmp a) s = .next (s.raise c.cid p.sid ⟨.align, p.pc, (reads s c p).u a.toNat, 0⟩))

/-- R29, R30, R249: CALL, by a crew of one split with room in the spill area, makes the window 8 · n further on resident, writes the
slide and the address of the next word below it in every lane, counts the frame and goes to its target. Every other register
keeps its value, unless its granule comes back from a spill area that the program has written. Which granule leaves is the model's
choice (log entry 10).
R29, R30, R250: RET, by a crew of one split below its outermost frame with no construct open at its depth, slides the window back
by the slide that lane 0's link names, uncounts the frame and goes to the link's address. Every register
keeps its value, unless its granule comes back from a spill area that the program has written. Which granule leaves (log entry 10), and the
link as CALL wrote it even where the program has overwritten its place in the spill area (log entry 11), are the model's choices. -/
def Obligations.CallAndRet : Prop :=
  (
    ∀ (s : State) (c : Crew) (p : Split) (n : BitVec 6) (r : BitVec 18) (u : State), Issues s c p → n ≠ 0 → n.toNat < 16 →
      c.splits.length = 1 → c.depth < 65535 →
      let wb := c.wb + 8 * n.toNat
      (∀ g ∈ c.touched wb, 4096 * (g + 1) ≤ c.spillSize) →
      ({ wr := [8 * n.toNat - 2, 8 * n.toNat - 1] } : Uses).pinned (reads s c p) p = none →
      s.laneBusy (reads s c p) (wb - 2) = false → s.laneBusy (reads s c p) (wb - 1) = false →
      makeResident (begun s c p) (reads s c p) p wb = .ok u →
      ∃ (t : State) (c' : Crew) (link : Nat), exec (.call n r) s = .next t ∧ Writes s t c c' p (p.issued (relTarget p.pc r)) ∧
        link = n.toNat * 2 ^ 60 + (p.pc + 4).toNat % 2 ^ 60 ∧ Slid s t c c' wb [(wb - 1) / 32] ∧ c'.depth = c.depth + 1 ∧
        (∀ l k, l < 32 → k = wb - 2 ∨ k = wb - 1 ∨ Keeps u c wb k → c'.vAbs l k =
          if k = wb - 2 then BitVec.ofNat 32 link else if k = wb - 1 then BitVec.ofNat 32 (link / 2 ^ 32) else c.vAbs l k) ∧
        c'.sregs = c.sregs) ∧
  (
    ∀ (s : State) (c : Crew) (p : Split) (u : State), Issues s c p → c.splits.length = 1 → 0 < c.depth →
      (∀ e ∈ p.stack, e.depth ≠ c.depth) →
      s.laneBusy (reads s c p) (c.wb - 2) = false → s.laneBusy (reads s c p) (c.wb - 1) = false →
      let link := (c.vAbs 0 (c.wb - 2)).toNat + 2 ^ 32 * (c.vAbs 0 (c.wb - 1)).toNat
      let wb := c.wb - 8 * (link / 2 ^ 60)
      makeResident (begun s c p) (reads s c p) p wb = .ok u →
      (∀ d, u.crew? c.cid = some d → 32 * (c.wb - 2) ∉ d.vpoison ∧ 32 * (c.wb - 1) ∉ d.vpoison) →
      ∃ (t : State) (c' : Crew), exec .ret s = .next t ∧ Writes s t c c' p (p.issued (BitVec.ofNat 64 (link % 2 ^ 60))) ∧
        Slid s t c c' wb [] ∧ c'.depth = c.depth - 1 ∧ (∀ l k, l < 32 → Keeps u c wb k → c'.vAbs l k = c.vAbs l k) ∧
        c'.sregs = c.sregs)

/-- R251: ANY, ALL and BALLOT give S(D) the vote of the split's active lanes; ALL gives 1 and BALLOT 0 when no lane is active. -/
def Obligations.Votes : Prop :=
  ∀ (s : State) (c : Crew) (p : Split) (i : Instr) (d : BitVec 6) (f : Src) (g : List Nat → List Nat → DWord), VoteRow i d f g →
    Issues s c p → Clear s (reads s c p) p { srcs := [f], ud := [d.toNat] } false →
    ∃ (t : State) (c' : Crew), exec i s = .next t ∧ Goes s t c c' p (p.issued (p.pc + 4)) ∧ OnlyUniform c c' p ∧
      UniformHolds c c' d.toNat
        (g ((activeLanes c p).filter fun l => decide (s.op (reads s c p) l f ≠ 0)) (activeLanes c p))

/-- R31, R32 and each row of Table 2.4: SRD gives a uniform register the value of a special register in the lowest lane of the split, or each
active lane its own value, a 64-bit one in an even pair; the value is cut to the register's width and extended with zeros. A
reserved number, and a 64-bit register to an odd lane register, raise ILLOPND.
R33, R34: SWR writes the low bits of S(A) to FPMODE, FPFLAGS or CPOL of the crew, and in handler mode to a trap register of the
split; a write of FPFLAGS by the second pick of a cycle keeps the flags that the first has raised. Any other number raises ILLOPND. -/
def Obligations.SpecialRegisters : Prop :=
  (
    ∀ (s : State) (c : Crew) (p : Split) (d : BitVec 6) (n : BitVec 8) (h : BitVec 1), Issues s c p →
      let dst := 64 * h.toNat + d.toNat
      (∀ k f, SpecialRow s (reads s c p) p n.toNat k f → Clear s (reads s c p) p { ud := [d.toNat] } false →
        ∃ (t : State) (c' : Crew), exec (.srdS d n) s = .next t ∧ Goes s t c c' p (p.issued (p.pc + 4)) ∧ OnlyUniform c c' p ∧
          UniformHolds c c' d.toNat (BitVec.ofNat 64 (f ((maskLanes p.mask).headD 0) % 2 ^ k))) ∧
      (∀ k f, SpecialRow s (reads s c p) p n.toNat k f → k < 64 → Clear s (reads s c p) p { wr := [dst] } false →
        ∃ (t : State) (c' : Crew), exec (.srdV d n h) s = .next t ∧ Goes s t c c' p (p.issued (p.pc + 4)) ∧ OnlyLanes c c' p ∧
          LanesHold c c' p dst (fun l => BitVec.ofNat 32 (f l % 2 ^ k)) ∧ c'.fpflags = c.fpflags) ∧
      (∀ f, SpecialRow s (reads s c p) p n.toNat 64 f → dst % 2 = 0 → Clear s (reads s c p) p { wr := [dst, dst + 1] } false →
        ∃ (t : State) (c' : Crew), exec (.srdV d n h) s = .next t ∧ Goes s t c c' p (p.issued (p.pc + 4)) ∧ OnlyLanes c c' p ∧
          (∀ l k, l < 32 → c'.vAbs l k =
            if l ∈ activeLanes c p ∧ k = c.wb + dst then BitVec.ofNat 32 (f l % 2 ^ 64)
            else if l ∈ activeLanes c p ∧ k = c.wb + dst + 1 then BitVec.ofNat 32 (f l % 2 ^ 64 / 2 ^ 32)
            else c.vAbs l k) ∧ c'.fpflags = c.fpflags) ∧
      (0x15 < n.toNat →
        exec (.srdS d n) s = .next (s.raise c.cid p.sid ⟨.illopnd, p.pc, 0, (encode (.srdS d n)).zeroExtend 64⟩) ∧
        exec (.srdV d n h) s = .next (s.raise c.cid p.sid ⟨.illopnd, p.pc, 0, (encode (.srdV d n h)).zeroExtend 64⟩)) ∧
      (∀ f, SpecialRow s (reads s c p) p n.toNat 64 f → dst % 2 = 1 →
        exec (.srdV d n h) s = .next (s.raise c.cid p.sid ⟨.illopnd, p.pc, 0, (encode (.srdV d n h)).zeroExtend 64⟩))) ∧
  (
    ∀ (s : State) (c : Crew) (p : Split) (a : BitVec 6) (n : BitVec 8), Issues s c p →
      let x := (reads s c p).u a.toNat
      let same (c' : Crew) : Crew :=
        { c' with splits := c.splits, raised := c.raised, host := c.host }
      let d : Crew := { c with loads := agedLoads c p }
      (Clear s (reads s c p) p { us := [a.toNat] } false →
        (n = 0x0C → ∃ (t : State) (c' : Crew), exec (.swr a n) s = .next t ∧ Goes s t c c' p (p.issued (p.pc + 4)) ∧
          same c' = { d with fpmode := x.truncate 2 }) ∧
        (n = 0x0D → ∃ (t : State) (c' : Crew), exec (.swr a n) s = .next t ∧ Goes s t c c' p (p.issued (p.pc + 4)) ∧
          same c' = { d with
            fpflags := x.truncate 5 ||| if s.picks.any (fun q => decide (q.cid = c.cid ∧ q.sid ≠ p.sid)) then c.raised else 0 }) ∧
        (n = 0x0E → ∃ (t : State) (c' : Crew), exec (.swr a n) s = .next t ∧ Goes s t c c' p (p.issued (p.pc + 4)) ∧
          same c' = { d with cpol := x.truncate 8 }) ∧
        (n = 0x12 → p.inHandler = true → ∃ (t : State) (c' : Crew), exec (.swr a n) s = .next t ∧
          Goes s t c c' p { p.issued (p.pc + 4) with tcause := x.truncate 16 } ∧ same c' = d) ∧
        (n = 0x13 → p.inHandler = true → ∃ (t : State) (c' : Crew), exec (.swr a n) s = .next t ∧
          Goes s t c c' p { p.issued (p.pc + 4) with trappc := x } ∧ same c' = d) ∧
        (n = 0x14 → p.inHandler = true → ∃ (t : State) (c' : Crew), exec (.swr a n) s = .next t ∧
          Goes s t c c' p { p.issued (p.pc + 4) with taddr := x } ∧ same c' = d) ∧
        (n = 0x15 → p.inHandler = true → ∃ (t : State) (c' : Crew), exec (.swr a n) s = .next t ∧
          Goes s t c c' p { p.issued (p.pc + 4) with taux := x } ∧ same c' = d)) ∧
      (¬ (0x0C ≤ n.toNat ∧ n.toNat ≤ 0x0E) → ¬ (0x12 ≤ n.toNat ∧ n.toNat ≤ 0x15 ∧ p.inHandler = true) →
        exec (.swr a n) s = .next (s.raise c.cid p.sid ⟨.illopnd, p.pc, 0, (encode (.swr a n)).zeroExtend 64⟩)))

/-- R248, R337: NOP changes nothing but the PC, YIELD also keeps the split from issuing in the 16 cycles after its own, and STDRAIN, once
every earlier store of the split has translated, changes nothing but the PC.
R166, R167, R351 and Table 9.3: FENCE issues at once, one with a release part once the stores before it have translated (it takes a
mark); later memory accesses of the split wait for it. It is over once the reads before it have returned and, with a release part,
the accesses before it are performed at the scope: stores have translated, loads and atomics are back, and at team scope the L1 or the
scratchpad has performed the writes, at a wider scope every earlier registration of the core for its context is acknowledged; the copies
before it are registered at every scope (log entry 28). A FENCE
waits for the one before it, whose acquire part it takes, and for the acquiring accesses of its split (log entry 8). Registers and memory
do not change. FENCE with SEM 0 raises ILLOP. -/
def Obligations.NopYieldStdrainAndFence : Prop :=
  (
    ∀ (s : State) (c : Crew) (p : Split), Issues s c p →
      let only (i : Instr) (q : Split) : Prop := ∃ (t : State) (c' : Crew), exec i s = .next t ∧ Goes s t c c' p q ∧
        c' = { c with splits := c'.splits, raised := c'.raised, host := c'.host, loads := agedLoads c p }
      only .nop (p.issued (p.pc + 4)) ∧ only .yield { p.issued (p.pc + 4) with shadow := s.cycle + 17 } ∧
      (p.drained = true → only .stdrain (p.issued (p.pc + 4))) ∧
      (p.drained = false → exec .stdrain s = .next (s.stall c.cid p.sid))) ∧
  (
    ∀ (s : State) (c : Crew) (p : Split) (sc : Scope) (e : Sem), Issues s c p →
      (e = .relaxed → exec (.fence sc e) s = .next (s.raise c.cid p.sid ⟨.illop, p.pc, 0, (encode (.fence sc e)).zeroExtend 64⟩)) ∧
      (e ≠ .relaxed → (e = .rel ∨ e = .ar → s.drainedFor c p = true) → FenceOver s c p →
        ∃ (t : State) (c' : Crew) (m : MarkRec), exec (.fence sc e) s = .next t ∧
          Moves s t c c' p { (p.fenced s.nextId).issued (p.pc + 4) with fence := some ⟨sc, e, s.nextId⟩, mark := m } ∧
          c' = { c with splits := c'.splits, raised := c'.raised, host := c'.host, loads := agedLoads c p } ∧ FenceActs s t c p ∧
          (p.recipe = false → e = .rel ∨ e = .ar → m.pc = p.pc + 4 ∧ m.mask = p.mask ∧ m.lpin = p.mark.lpin ∧ m.upin = p.mark.upin ∧
            m.recipe = p.mark.recipe) ∧
          (e = .acq ∨ p.recipe = true → m = p.mark) ∧
          t = { s with crews := t.crews, age := t.age, woke := t.woke, entered := t.entered, l1 := t.l1, nextId := t.nextId }) ∧
      (e ≠ .relaxed → ((e = .rel ∨ e = .ar) ∧ s.drainedFor c p = false) ∨ ¬ FenceOver s c p →
        exec (.fence sc e) s = .next (s.stall c.cid p.sid)) ∧
      (∀ f, let before := precedes p.anc p.sid f.seq
        s.fenceDone c p f = true ↔
          (∀ q ∈ c.loads, before q.sid q.seq = false) ∧
          (∀ q ∈ s.adds, q.job = none → q.cid = c.cid → q.ret ≠ none → before q.sid q.seq = false) ∧
          (f.sem = .rel ∨ f.sem = .ar →
            (∀ r ∈ c.splits, ∀ q ∈ r.stores, before q.sid q.seq = false) ∧
            (∀ q ∈ s.held, q.cid = c.cid → before q.sid q.seq = false) ∧
            (∀ q ∈ s.copies, q.registered = false → q.cid = c.cid → before q.sid q.seq = false) ∧
            (∀ q ∈ s.adds, q.job = none → q.cid = c.cid → before q.sid q.seq = false) ∧
            (f.scope = .team → ∀ q ∈ s.regs, q.cid = c.cid → before q.sid q.seq = true → q.inL1 = true) ∧
            (f.scope ≠ .team → (∀ q ∈ s.regs, q.core = c.core → q.asid = c.asid → f.seq ≤ q.seq) ∧
              (∀ q ∈ s.adds, q.job = none → q.core = c.core → q.asid = c.asid → f.seq ≤ q.seq) ∧
              (∀ q ∈ s.copies, q.registered = false → q.core = c.core → q.asid = c.asid → f.seq ≤ q.seq) ∧
              (c.core, c.asid) ∉ s.acks))))

/-- R67, R257: EXIT, once the split's stores have translated, retires the active lanes of the split. While lanes are left the
split goes on at the next word; a split without lanes ceases; the last lane of a crew of a grid retires the crew. In a field the
cells of the lanes have exited. Registers and memory of a grid's crew are as before.
R67, R68: TERM retires the whole crew, whatever its splits do; in a field every cell of the host that had not exited before exits. -/
def Obligations.ExitAndTerm : Prop :=
  (
    ∀ (s : State) (c : Crew) (p : Split), Issues s c p → p.drained = true →
      let all : Prop := ∀ l, l < 32 → p.mask.getLsbD l = true → c.ncOf l = 0
      let last : Prop := ∀ l, l < 32 → l ∈ activeLanes c p ∨ c.exited.getLsbD l = true
      (s.inField c = false → ¬ all → ∃ (t : State) (c' : Crew) (q : Split), exec .exit s = .next t ∧ Goes s t c c' p q ∧
        q = { p.issued (p.pc + 4) with mask := q.mask } ∧
        (∀ l, l < 32 → (q.mask.getLsbD l = true ↔ p.mask.getLsbD l = true ∧ c.ncOf l ≠ 0)) ∧
        (∀ l, l < 32 → (c'.exited.getLsbD l = true ↔ c.exited.getLsbD l = true ∨ l ∈ activeLanes c p)) ∧
        c' = { c with exited := c'.exited, splits := c'.splits, raised := c'.raised, host := c'.host, loads := agedLoads c p }) ∧
      (s.inField c = false → all → ¬ last → ∃ (t : State) (c' : Crew), exec .exit s = .next t ∧ t.crew? c.cid = some c' ∧
        c'.split? p.sid = none ∧
        (∀ l, l < 32 → (c'.exited.getLsbD l = true ↔ c.exited.getLsbD l = true ∨ l ∈ activeLanes c p)) ∧
        c'.vregs = c.vregs ∧ c'.sregs = c.sregs ∧ t.mem = s.mem ∧
        (∀ k, k ≠ c.cid → t.crew? k = (s.crew? k).map Crew.untried)) ∧
      (s.inField c = false → all → last → c.splits = [p] → ∃ (t : State), exec .exit s = .next t ∧ t.crew? c.cid = none ∧
        (∀ k, k ≠ c.cid → t.crew? k = (s.crew? k).map Crew.untried) ∧
        t.teams = s.teams.map (fun x => if x.lid = c.lid ∧ x.tid = c.team then { x with crewsLeft := x.crewsLeft - 1 } else x) ∧
        t = { s with crews := t.crews, age := t.age, woke := t.woke, entered := t.entered, teams := t.teams, faultq := t.faultq, landings := t.landings }) ∧
      (s.inField c = true → ∃ (t : State), exec .exit s = .next t ∧
        ∀ l x, l ∈ activeLanes c p → s.seat? c.lid (8 * c.team + l / 4) = some x →
          ∃ y, t.seat? c.lid (8 * c.team + l / 4) = some y ∧ y.exited.getLsbD (l % 4) = true)) ∧
  (
    ∀ (s : State) (c : Crew) (p : Split), Issues s c p →
      (s.inField c = false → ∃ (t : State), exec .term s = .next t ∧ t.crew? c.cid = none ∧
        (∀ k, k ≠ c.cid → t.crew? k = (s.crew? k).map Crew.untried) ∧
        t.teams = s.teams.map (fun x => if x.lid = c.lid ∧ x.tid = c.team then { x with crewsLeft := x.crewsLeft - 1 } else x) ∧
        t = { s with crews := t.crews, age := t.age, woke := t.woke, entered := t.entered, teams := t.teams, faultq := t.faultq, landings := t.landings }) ∧
      (s.inField c = true → ∃ (t : State), exec .term s = .next t ∧
        ∀ l x, l < 32 → c.absent.getLsbD l = false → c.exited.getLsbD l = false → s.seat? c.lid (8 * c.team + l / 4) = some x →
          ∃ y, t.seat? c.lid (8 * c.team + l / 4) = some y ∧ y.exited.getLsbD (l % 4) = true))

/-- R329, R332: TRAP raises SWTRAP, with its code in TAUX and the next word in TRAPPC, once the split's stores have translated; in
handler mode it raises ILLOP (R330).
R333: RETT in handler mode, once the handler's stores have translated, puts the control state that the trap has set aside back for
the lanes that the split still has, and the split goes on at TRAPPC; with another DEPTH or an unaligned TRAPPC the crew of a grid
ends. Outside handler mode RETT raises ILLOP. -/
def Obligations.TrapAndRett : Prop :=
  (
    ∀ (s : State) (c : Crew) (p : Split) (k : BitVec 18), Issues s c p →
      (p.drained = true → p.inHandler = false → s.trapEnt c.asid ≠ 0 →
        ∃ (t : State) (c' : Crew), exec (.trap k) s = .next t ∧ Enters s t c c' p ⟨.swtrap, p.pc + 4, 0, k.zeroExtend 64⟩) ∧
      (p.inHandler = true →
        exec (.trap k) s = .next (s.raise c.cid p.sid ⟨.illop, p.pc, 0, (encode (.trap k)).zeroExtend 64⟩))) ∧
  (
    ∀ (s : State) (c : Crew) (p : Split), Issues s c p →
      (p.handler = none → exec .rett s = .next (s.raise c.cid p.sid ⟨.illop, p.pc, 0, (encode .rett).zeroExtend 64⟩)) ∧
      (∀ h, p.handler = some h → p.drained = true → c.depth = h.depth → p.trappc &&& 3 = 0 →
        ∃ (t : State) (c' : Crew), exec .rett s = .next t ∧
          Goes s t c c' p { p.issued p.trappc with ad := h.ctl.ad, stack := h.ctl.stack, fb := h.ctl.fb, handler := none } ∧
          OnlyControl c c' p ∧
          (∀ l, l < 32 → p.mask.getLsbD l = true → c'.ncOf l = (sget 0 h.ctl.nc l).toNat ∧
            c'.markOf l = (sget 0 h.ctl.mark l).toNat ∧ c'.cb.getLsbD l = h.ctl.cb.getLsbD l) ∧
          (∀ l, l < 32 → p.mask.getLsbD l = false →
            c'.ncOf l = c.ncOf l ∧ c'.markOf l = c.markOf l ∧ c'.cb.getLsbD l = c.cb.getLsbD l)) ∧
      (∀ h, p.handler = some h → p.drained = true → c.depth ≠ h.depth ∨ p.trappc &&& 3 ≠ 0 → s.inField c = false →
        ∃ (t : State), exec .rett s = .next t ∧ t.crew? c.cid = none))

/-! ## Loads, stores and atomics as they issue -/

/-- R40, R135, R138, R157 to R162: an LDG, LDS or LDQ whose addresses pass the checks and whose words are not poisoned registers one
read per active lane, of the lane's address (and for the scratchpad and the squad window of its place), for the group of registers
from T on, and the split goes on; the data come later. A fence of the split, or an acquiring access of it, holds it until it is over, and
the fence's acquire part is then taken before the checks (R166, R167; log entry 8). Only the core's TLB may change beside it. -/
def Obligations.Loads : Prop :=
  ∀ (s : State) (c : Crew) (p : Split) (i : Instr) (sp : Space) (size : Nat) (t x : BitVec 8) (b : BitVec 6) (sc : BitVec 2)
    (s1 : State) (ls : List LaneLoad), LoadRow i sp size t x b sc → Issues s c p →
    (x.msb = true → sc = 0) → t.toNat % widthRegs size = 0 →
    Clear s (reads s c p) p { rd := lmIndex x, wr := group t (widthRegs size), us := [b.toNat] } false →
    let as := (activeLanes c p).map fun l => (l, lmAddr (reads s c p) l x b sc)
    checkLoad ((begun s c p).fenced c p) (reads s c p) p sp size as = .ok (s1, ls) →
    loadPoison s1 (reads s c p) p sp size as ls = none →
    (∀ a ∈ as, a.2.toNat % size = 0) ∧
    ls.map (fun q => (q.lane, q.va, q.got)) = as.map (fun a => (a.1, a.2, none)) ∧
    (sp = .scratch → ∀ q ∈ ls, q.team = c.team ∧ q.addr = q.va.toNat ∧ q.addr + size ≤ s.scratchSize c.lid c.team) ∧
    (sp = .squad → ∀ q ∈ ls, q.team = s.squadTeam c q.va ∧ q.addr = q.va.toNat % 2 ^ 20) ∧
    (FenceOver s c p →
      ∃ (t' : State) (c' : Crew), exec i s = .next t' ∧ Moves s t' c c' p ((p.fenced s.nextId).issued (p.pc + 4)) ∧ FenceActs s t' c p ∧
        c' = { c with
          loads := if ls = [] then agedLoads c p else agedLoads c p ++ [{
            sid := p.sid, space := sp, lanes := ls, size := size, uniform := false, dst := c.wb + t.toNat
            regs := widthRegs size, pc := p.pc, seq := s.nextId, cpol := (reads s c p).cpol, acq := none, reserve := false
            anc := p.anc, after := (p.fenced s.nextId).acqAt, fresh := true }]
          raised := c'.raised, splits := c'.splits, host := c'.host } ∧
        t' = { s with crews := t'.crews, age := t'.age, woke := t'.woke, entered := t'.entered, nextId := t'.nextId, tlb := t'.tlb, l1 := t'.l1 }) ∧
    (¬ FenceOver s c p → exec i s = .next (s.stall c.cid p.sid))

/-- R165, R166, R168: SLD registers one read for S(D) at S(A) plus its immediate; LDA one read per active lane that carries its
scope, until whose completion the later memory accesses of the split wait (log entry 8); LDR one read per active lane that will set the lane's reservation, whose
older one is gone, once an earlier STC of the lane is performed. LDA without an active lane takes the acquire's action at once. Each waits
for a fence of the split. -/
def Obligations.OtherLoads : Prop :=
  ∀ (s : State) (c : Crew) (p : Split) (s1 : State) (ls : List LaneLoad), Issues s c p → FenceOver s c p →
    (∀ i size (d a : BitVec 6) (imm : BitVec 12), SldRow i size d a imm →
      Clear s (reads s c p) p { us := [a.toNat], ud := [d.toNat] } false →
      let as := [(0, (reads s c p).u a.toNat + imm.signExtend 64)]
      checkLoad ((begun s c p).fenced c p) (reads s c p) p .global size as = .ok (s1, ls) →
      loadPoison s1 (reads s c p) p .global size as ls = none →
      ∃ (t : State) (c' : Crew), exec i s = .next t ∧ Moves s t c c' p ((p.fenced s.nextId).issued (p.pc + 4)) ∧
        FenceActs s t c p ∧ ls.map (·.va) = as.map (·.2) ∧
        c' = { c with
          loads := agedLoads c p ++ [{
            sid := p.sid, space := .global, lanes := ls, size := size, uniform := true, dst := d.toNat
            regs := 1, pc := p.pc, seq := s.nextId, cpol := (reads s c p).cpol, acq := none, reserve := false
            anc := p.anc, after := (p.fenced s.nextId).acqAt, fresh := true }]
          raised := c'.raised, splits := c'.splits, host := c'.host } ∧
        t = { s with crews := t.crews, age := t.age, woke := t.woke, entered := t.entered, nextId := t.nextId, tlb := t.tlb, l1 := t.l1 }) ∧
    (∀ (t a : BitVec 8), a.toNat % 2 = 0 → a.msb = false →
      Clear s (reads s c p) p { rd := [a.toNat, a.toNat + 1], wr := [t.toNat] } false →
      let as := (activeLanes c p).map fun l => (l, c.vPair l a.toNat)
      checkLoad ((begun s c p).fenced c p) (reads s c p) p .global 4 as = .ok (s1, ls) →
      loadPoison s1 (reads s c p) p .global 4 as ls = none →
      let q : PLoad := {
        sid := p.sid, space := .global, lanes := ls, size := 4, uniform := false, dst := c.wb + t.toNat
        regs := 1, pc := p.pc, seq := s.nextId, cpol := (reads s c p).cpol, acq := none, reserve := false
        anc := p.anc, after := (p.fenced s.nextId).acqAt, fresh := true }
      ls.map (fun q => (q.lane, q.va, q.got)) = as.map (fun a => (a.1, a.2, none)) ∧
      (∀ sc, activeLanes c p ≠ [] → ∃ (t' : State) (c' : Crew), exec (.ldaW t a sc) s = .next t' ∧
        Moves s t' c c' p ((p.fenced s.nextId).issued (p.pc + 4)) ∧ FenceActs s t' c p ∧
        (∀ r, r.sid = p.sid → ¬ FenceOver t' c' r) ∧
        c' = { c with loads := agedLoads c p ++ [{ q with acq := some sc }]
                      raised := c'.raised, splits := c'.splits, host := c'.host } ∧
        t' = { s with crews := t'.crews, age := t'.age, woke := t'.woke, entered := t'.entered, nextId := t'.nextId, tlb := t'.tlb, l1 := t'.l1 }) ∧
      (∀ sc, activeLanes c p = [] → ∃ (t' : State) (c' : Crew) (n : Nat), exec (.ldaW t a sc) s = .next t' ∧
        Moves s t' c c' p { (p.fenced s.nextId).issued (p.pc + 4) with acqAt := n } ∧
        n = (if sc = .dev ∨ sc = .sys then s.nextId else (p.fenced s.nextId).acqAt) ∧
        c' = { c with raised := c'.raised, splits := c'.splits, host := c'.host, loads := agedLoads c p } ∧
        (∀ w, w ∈ t'.l1 ↔ w ∈ s.l1 ∧ ¬ AcquireDrops s c.core sc w ∧
          ¬ ∃ f, p.fence = some f ∧ (f.sem = .acq ∨ f.sem = .ar) ∧ AcquireDrops s c.core f.scope w) ∧
        t' = { s with crews := t'.crews, age := t'.age, woke := t'.woke, entered := t'.entered, l1 := t'.l1, tlb := t'.tlb }) ∧
      (activeLanes c p ≠ [] →
        (∀ q ∈ s.adds, q.cid = c.cid → q.op = .stc → ∀ r, q.ret = some r → r.lane ∉ activeLanes c p) →
        ∃ (t' : State) (c' : Crew), exec (.ldrW t a) s = .next t' ∧
        Moves s t' c c' p ((p.fenced s.nextId).issued (p.pc + 4)) ∧ FenceActs s t' c p ∧
        c' = { c with loads := agedLoads c p ++ [{ q with reserve := true }], resv := c'.resv
                      raised := c'.raised, splits := c'.splits, host := c'.host } ∧
        (∀ r, r ∈ c'.resv ↔ r ∈ c.resv ∧ r.lane ∉ activeLanes c p) ∧
        t' = { s with crews := t'.crews, age := t'.age, woke := t'.woke, entered := t'.entered, nextId := t'.nextId, tlb := t'.tlb, l1 := t'.l1 }) ∧
      (activeLanes c p = [] → ∃ (t' : State) (c' : Crew), exec (.ldrW t a) s = .next t' ∧
        Moves s t' c c' p ((p.fenced s.nextId).issued (p.pc + 4)) ∧ FenceActs s t' c p ∧
        c' = { c with raised := c'.raised, splits := c'.splits, host := c'.host, loads := agedLoads c p } ∧
        t' = { s with crews := t'.crews, age := t'.age, woke := t'.woke, entered := t'.entered, tlb := t'.tlb, l1 := t'.l1 }))

/-- R40, R135, R158, R161, R162, R334: an STG, STS or STQ with aligned addresses, inside the team's allocation for STS, with room in the split's
store path, puts the bytes of its registers, one access per active lane, at the end of that path, and the split goes on. An STQ that
fails its squad-window checks is discarded instead, and its trap is due at the next boundary (R138; log entry 8). No byte of memory and no register
changes yet. A fence of the split holds the store until it is over.
R165, R166, R172, R334, R351: SST puts one access of S(T), STL one per active lane of its word, RED one per active lane of its operand at
the end of the split's store path, with an ALIGN check first; STL, and RED with .REL, wait until the earlier stores have translated (R336)
and carry the scope at which the earlier accesses are to be performed before them. STL and RED take a mark. A poisoned operand of RED
raises no trap: its lane's operation carries the poison (Table 21.8). No byte of memory and no
register changes yet. A fence of the split holds each until it is over. -/
def Obligations.StoreInstructions : Prop :=
  (
    ∀ (s : State) (c : Crew) (p : Split) (i : Instr) (sp : Space) (size : Nat) (t x : BitVec 8) (b : BitVec 6) (sc : BitVec 2),
      StoreRow i sp size t x b sc → Issues s c p → (x.msb = true → sc = 0) → t.toNat % widthRegs size = 0 →
      Clear s (reads s c p) p { rd := lmIndex x ++ group t (widthRegs size), us := [b.toNat] } false →
      let addr (l : Nat) : DWord := lmAddr (reads s c p) l x b sc
      (∀ l ∈ activeLanes c p, (addr l).toNat % size = 0) →
      (sp = .scratch → ∀ l ∈ activeLanes c p, (addr l).toNat + size ≤ s.scratchSize c.lid c.team) →
      (sp ≠ .scratch → p.storeRoom = true) → FenceOver s c p →
      let check := checkSquad (begun s c p) (reads s c p) p.pc ((activeLanes c p).map fun l => (l, addr l))
      (∀ k, sp = .squad → check = .error (.trap k) → ∃ (t' : State) (c' : Crew), exec i s = .next t' ∧
        Moves s t' c c' p { (p.fenced s.nextId).issued (p.pc + 4) with due := p.due ++ [(s.nextId, k)] } ∧ FenceActs s t' c p ∧
        c' = { c with raised := c'.raised, splits := c'.splits, host := c'.host, loads := agedLoads c p } ∧
        t' = { s with crews := t'.crews, age := t'.age, woke := t'.woke, entered := t'.entered, nextId := t'.nextId, l1 := t'.l1 }) ∧
      ((∀ k, sp = .squad → check ≠ .error (.trap k)) →
      ∃ (t' : State) (c' : Crew) (st : List PStore), exec i s = .next t' ∧
        Moves s t' c c' p { (p.fenced s.nextId).issued (p.pc + 4) with stores := st } ∧ FenceActs s t' c p ∧
        st = (if activeLanes c p = [] then p.stores else p.stores ++ [{
          space := sp
          lanes := (activeLanes c p).map fun l => ⟨l, addr l,
            (leBytes 16 ((c.v l t.toNat).toNat + 2 ^ 32 * (c.v l (t.toNat + 1)).toNat + 2 ^ 64 * (c.v l (t.toNat + 2)).toNat +
              2 ^ 96 * (c.v l (t.toNat + 3)).toNat)).take size⟩
          size := size, red := none, word := encode i, uniform := false, pc := p.pc, sid := p.sid, seq := s.nextId, anc := p.anc
          hint := (reads s c p).shint, rel := none, bad := [] }]) ∧
        c' = { c with raised := c'.raised, splits := c'.splits, host := c'.host, loads := agedLoads c p } ∧
        t' = { s with crews := t'.crews, age := t'.age, woke := t'.woke, entered := t'.entered, nextId := t'.nextId, l1 := t'.l1 })) ∧
  (
    ∀ (s : State) (c : Crew) (p : Split), Issues s c p → FenceOver s c p →
      let ends (t' : State) (c' : Crew) : Prop :=
        FenceActs s t' c p ∧ c' = { c with raised := c'.raised, splits := c'.splits, host := c'.host, loads := agedLoads c p } ∧
        t' = { s with crews := t'.crews, age := t'.age, woke := t'.woke, entered := t'.entered, nextId := t'.nextId, l1 := t'.l1 }
      (∀ i size (t a : BitVec 6) (imm : BitVec 12), SstRow i size t a imm → p.storeRoom = true →
        Clear s (reads s c p) p { us := [a.toNat, t.toNat] } false →
        let va : DWord := (reads s c p).u a.toNat + imm.signExtend 64
        va.toNat % size = 0 →
        ∃ (t' : State) (c' : Crew) (q : PStore), exec i s = .next t' ∧ ends t' c' ∧
          Moves s t' c c' p { (p.fenced s.nextId).issued (p.pc + 4) with stores := p.stores ++ [q] } ∧
          q.space = .global ∧ q.lanes = [⟨0, va, leBytes size ((reads s c p).u t.toNat).toNat⟩] ∧ q.size = size ∧ q.red = none ∧
          q.word = encode i ∧ q.uniform = true ∧ q.pc = p.pc ∧ q.seq = s.nextId ∧ q.sid = p.sid ∧ q.anc = p.anc ∧ q.hint = (reads s c p).shint ∧ q.rel = none) ∧
      (∀ (t a : BitVec 8) (sc : Scope), a.toNat % 2 = 0 → a.msb = false → s.drainedFor c p = true → p.storeRoom = true →
        Clear s (reads s c p) p { rd := [a.toNat, a.toNat + 1, t.toNat] } true →
        (∀ l ∈ activeLanes c p, (c.vPair l a.toNat).toNat % 4 = 0) → activeLanes c p ≠ [] →
        ∃ (t' : State) (c' : Crew) (q : PStore) (m : MarkRec), exec (.stlW t a sc) s = .next t' ∧
          ends t' c' ∧ Moves s t' c c' p { (p.fenced s.nextId).issued (p.pc + 4) with stores := p.stores ++ [q], mark := m } ∧
          q.space = .global ∧ q.lanes = (activeLanes c p).map (fun l => ⟨l, c.vPair l a.toNat, leBytes 4 (c.v l t.toNat).toNat⟩) ∧
          q.size = 4 ∧ q.red = none ∧ q.word = encode (.stlW t a sc) ∧ q.pc = p.pc ∧ q.seq = s.nextId ∧ q.sid = p.sid ∧ q.anc = p.anc ∧ q.rel = some sc ∧
          (p.recipe = false → m.pc = p.pc + 4 ∧ m.mask = p.mask ∧ m.lpin = p.mark.lpin)) ∧
      (∀ i o (t a : BitVec 8) (sc : Scope) (e : Sem), RedRow i o t a sc e → e = .relaxed ∨ (e = .rel ∧ s.drainedFor c p = true) →
        let g := if o.wide then 2 else 1
        a.toNat % 2 = 0 → a.msb = false → t.toNat % g = 0 → p.storeRoom = true →
        let clean := (reads s c p).vpoison.filter fun x => (group t g).all fun n => decide (x / 32 ≠ c.wb + n)
        Clear s { reads s c p with vpoison := clean } p { rd := [a.toNat, a.toNat + 1] ++ group t g } true →
        ({ rd := [a.toNat, a.toNat + 1] } : Uses).poison s (reads s c p) p = none →
        (∀ l ∈ activeLanes c p, (c.vPair l a.toNat).toNat % (4 * g) = 0) → activeLanes c p ≠ [] →
        ∃ (t' : State) (c' : Crew) (q : PStore) (m : MarkRec), exec i s = .next t' ∧
          ends t' c' ∧ Moves s t' c c' p { (p.fenced s.nextId).issued (p.pc + 4) with stores := p.stores ++ [q], mark := m } ∧
          q.space = .global ∧ q.lanes = (activeLanes c p).map (fun l => ⟨l, c.vPair l a.toNat,
            if o.wide then leBytes 8 (c.vPair l t.toNat).toNat else leBytes 4 (c.v l t.toNat).toNat⟩) ∧
          (∀ l, l ∈ q.bad ↔ l ∈ activeLanes c p ∧ ∃ n ∈ group t g, 32 * (c.wb + n) + l ∈ c.vpoison) ∧
          q.size = 4 * g ∧ q.red = some o ∧ q.word = encode i ∧ q.pc = p.pc ∧ q.seq = s.nextId ∧ q.sid = p.sid ∧ q.anc = p.anc ∧
          q.rel = (if e = .rel then some sc else none) ∧ (p.recipe = false → m.pc = p.pc + 4 ∧ m.mask = p.mask ∧ m.lpin = p.mark.lpin)) ∧
      (∀ i o (t a : BitVec 8) (sc : Scope) (e : Sem), RedRow i o t a sc e → e = .acq ∨ e = .ar →
        exec i s = .next (s.raise c.cid p.sid ⟨.illop, p.pc, 0, (encode i).zeroExtend 64⟩)))

/-- R152, R159, R170, R171, R351: an ATOM whose addresses are aligned, translate for a write and hold no poison sends one operation per active
lane, in lane order, to the slice adders, with its operand and its compare value and the registers that its results go to; an
acquiring one holds the later memory accesses of the split until they are back (log entry 8); a releasing one waits until the earlier stores have translated (R336) and carries the
scope at which the earlier accesses are to be performed before it. A fence of the split holds it until it is over. It takes a mark, which is
completed as its values are written (R351: log entry 56). No register and no byte of memory changes yet.
R159, R168, R169, R351: STC, at aligned addresses that translate for a write and hold no poison, sends one conditional store per
active lane, in lane order, to the home slices, with its word, its address and the register T + 1 that its outcome goes to, and takes a
mark (completed as its outcome is written, log entry 56); the lanes of one line then take effect together (log entry 13). A fence of the
split holds it until it is over. No register and no byte of memory changes yet. -/
def Obligations.AtomicsAndStoreConditional : Prop :=
  (
    ∀ (s : State) (c : Crew) (p : Split) (i : Instr) (o : AOp) (sq : Bool) (t a : BitVec 8) (sc : Scope) (e : Sem)
      (s1 : State) (ps : List (Nat × Nat)), AtomRow i o sq t a sc e → Issues s c p → a.toNat % 2 = 0 → a.msb = false →
      let n := if sq then 2 * o.group else o.group
      let size := if o.wide then 8 else 4
      t.toNat % n = 0 →
      Clear s (reads s c p) p { rd := [a.toNat, a.toNat + 1] ++ group t o.group, wr := group t n } true →
      let as := (activeLanes c p).map fun l => (l, c.vPair l a.toNat)
      (∀ x ∈ as, x.2.toNat % size = 0) →
      translateLanes ((begun s c p).fenced c p) (reads s c p) p .write as = .ok (s1, ps) →
      loadPoison s1 (reads s c p) p .global size as (ps.map fun q => ⟨q.1, 0, q.2, 0, none⟩) = none →
      (e = .rel ∨ e = .ar → s.drainedFor c p = true) → FenceOver s c p →
      ∃ (t' : State) (c' : Crew) (m : MarkRec) (n : Nat), exec i s = .next t' ∧
        Moves s t' c c' p { (p.fenced s.nextId).issued (p.pc + 4) with mark := m, acqAt := n } ∧
        n = (if activeLanes c p = [] ∧ (e = .acq ∨ e = .ar) ∧ (sc = .dev ∨ sc = .sys) then s.nextId else (p.fenced s.nextId).acqAt) ∧
        (∀ w, w ∈ t'.l1 ↔ w ∈ s.l1 ∧ ¬ (activeLanes c p = [] ∧ (e = .acq ∨ e = .ar) ∧ AcquireDrops s c.core sc w) ∧
          ¬ ∃ f, p.fence = some f ∧ (f.sem = .acq ∨ f.sem = .ar) ∧ AcquireDrops s c.core f.scope w) ∧
        t'.adds = s.adds ++ ps.zipIdx.map (fun q => {
          id := s.nextId + 1 + q.2, core := c.core, cid := c.cid, sid := p.sid, asid := c.asid, addr := q.1.2, op := o, wide := o.wide
          x := (o.operands c q.1.1 t.toNat).1, cmp := (o.operands c q.1.1 t.toNat).2, poison := false
          ret := some { lane := q.1.1, dst := c.wb + t.toNat, group := o.group, wseq := sq }
          acq := if e = .acq ∨ e = .ar then some sc else none
          job := none, hint := (reads s c p).bothHint, seq := s.nextId, anc := p.anc
          rel := if e = .rel ∨ e = .ar then some sc else none, paid := false }) ∧
        ps.map (·.1) = activeLanes c p ∧
        (p.recipe = false → m.pc = p.pc + 4 ∧ m.mask = p.mask ∧ m.lpin = p.mark.lpin ∧ m.seq = s.nextId) ∧
        (activeLanes c p ≠ [] → e = .acq ∨ e = .ar → ∀ r, r.sid = p.sid → ¬ FenceOver t' c' r) ∧
        c' = { c with raised := c'.raised, splits := c'.splits, host := c'.host, loads := agedLoads c p } ∧
        t' = { s with crews := t'.crews, age := t'.age, woke := t'.woke, entered := t'.entered, nextId := t'.nextId, tlb := t'.tlb, l1 := t'.l1, adds := t'.adds }) ∧
  (
    ∀ (s : State) (c : Crew) (p : Split) (t a : BitVec 8) (s1 : State) (ps : List (Nat × Nat)), Issues s c p →
      a.toNat % 2 = 0 → a.msb = false → t.toNat % 2 = 0 →
      Clear s (reads s c p) p { rd := [a.toNat, a.toNat + 1, t.toNat], wr := [t.toNat + 1] } true →
      let va (l : Nat) : DWord := c.vPair l a.toNat
      (∀ l ∈ activeLanes c p, (va l).toNat % 4 = 0) →
      translateLanes ((begun s c p).fenced c p) (reads s c p) p .write ((activeLanes c p).map fun l => (l, va l)) = .ok (s1, ps) →
      loadPoison s1 (reads s c p) p .global 4 ((activeLanes c p).map fun l => (l, va l)) (ps.map fun q => ⟨q.1, 0, q.2, 0, none⟩) = none →
      (FenceOver s c p → ∃ (t' : State) (c' : Crew) (m : MarkRec), exec (.stcW t a) s = .next t' ∧
        Moves s t' c c' p { (p.fenced s.nextId).issued (p.pc + 4) with mark := m } ∧ FenceActs s t' c p ∧
        t'.adds = s.adds ++ ps.zipIdx.map (fun q => {
          id := s.nextId + 1 + q.2, core := c.core, cid := c.cid, sid := p.sid, asid := c.asid, addr := q.1.2, op := .stc, wide := false
          x := (c.v q.1.1 t.toNat).zeroExtend 64, cmp := va q.1.1, poison := false
          ret := some { lane := q.1.1, dst := c.wb + t.toNat + 1, group := 1, wseq := false }
          acq := none, job := none, hint := (reads s c p).shint, seq := s.nextId, anc := p.anc, rel := none, paid := false }) ∧
        ps.map (·.1) = activeLanes c p ∧
        (p.recipe = false → m.pc = p.pc + 4 ∧ m.mask = p.mask ∧ m.lpin = p.mark.lpin ∧ m.seq = s.nextId) ∧
        c' = { c with raised := c'.raised, splits := c'.splits, host := c'.host, loads := agedLoads c p } ∧
        t' = { s with
          crews := t'.crews, age := t'.age, woke := t'.woke, entered := t'.entered, nextId := t'.nextId, tlb := t'.tlb, l1 := t'.l1
          adds := t'.adds }) ∧
      (¬ FenceOver s c p → exec (.stcW t a) s = .next (s.stall c.cid p.sid)))

/-! ## Barrier objects -/

/-- R173, R177, R183, R184, R220: BAR.ALLOC takes the core's lowest free table entry and the team's lowest free slot, counted down from the
top of the team's scratchpad, sends a write that clears the 16 bytes of the backing word on its way, and gives S(D) the handle; without an
entry or room it gives 0. BAR.FREE frees the entry, advances its generation and makes the splits that wait for it take BADBAR. BAR.TEST
gives S(D) the phase. Each waits for the writes of its split to the backing word, and for its fence. -/
def Obligations.BarAllocFreeTest : Prop :=
  ∀ (s : State) (c : Crew) (p : Split), Issues s c p →
    (∀ (d : BitVec 6) (x : Team) (k : Nat), s.team? c.lid c.team = some x → Clear s (reads s c p) p { ud := [d.toNat] } false →
      (∀ b ∈ s.bars, b.lid = c.lid → b.team = c.team → b.offset + 16 * (k + 1) ≠ x.size) →
      (∀ j, j < k → ∃ b ∈ s.bars, b.lid = c.lid ∧ b.team = c.team ∧ b.offset + 16 * (j + 1) = x.size) → k ≤ 256 →
      (∀ i, i < 256 → s.bar? c.core i = none → (∀ j, j < i → s.bar? c.core j ≠ none) → 16 * (k + 1) ≤ x.size →
        FenceOver s c p →
        ∃ (t : State) (c' : Crew), exec (.barAlloc d) s = .next t ∧ Moves s t c c' p ((p.fenced s.nextId).issued (p.pc + 4)) ∧
          OnlyUniform c c' p ∧ FenceActs s t c p ∧
          UniformHolds c c' d.toNat (BitVec.ofNat 64 (256 * s.genOf c.core i + i)) ∧
          t.bars = s.bars ++ [{ core := c.core, idx := i, lid := c.lid, team := c.team, gen := s.genOf c.core i, squad := false
                                offset := x.size - 16 * (k + 1), baseA := 0, baseB := 0, far := false, farFlip := false }] ∧
          t.held = s.held ++ [{
            id := s.nextId + 1, lid := c.lid, team := c.team, bytes := (List.range 16).map fun j => (x.size - 16 * (k + 1) + j, 0)
            bar := some (.alloc c.core i), core := c.core, asid := c.asid, cid := c.cid, sid := p.sid, seq := s.nextId, anc := p.anc }] ∧
          t = { s with
            crews := t.crews, age := t.age, woke := t.woke, entered := t.entered, held := t.held, bars := t.bars, nextId := t.nextId, l1 := t.l1 }) ∧
      ((∀ i, i < 256 → s.bar? c.core i ≠ none) ∨ x.size < 16 * (k + 1) →
        ∃ (t : State) (c' : Crew), exec (.barAlloc d) s = .next t ∧ Goes s t c c' p (p.issued (p.pc + 4)) ∧ OnlyUniform c c' p ∧
          UniformHolds c c' d.toNat 0)) ∧
    (∀ (a : BitVec 6) (o : BarObj), Clear s (reads s c p) p { us := [a.toNat] } true →
      ((reads s c p).u a.toNat).toNat < 2 ^ 17 → s.handleObj c.core c.lid c.team ((reads s c p).u a.toNat) = some o →
      s.barValid c.cid p o = true → s.outstanding o = false → s.barSettled c p o = true → FenceOver s c p →
      ∃ (t : State) (c' : Crew) (m : MarkRec), exec (.barFree a) s = .next t ∧
        BarMoves { s with barGen := t.barGen } t c c' p { (p.fenced s.nextId).issued (p.pc + 4) with mark := m } o True o.scope .freed ∧
        t.teams = s.teams ∧ (∀ b, b ∈ t.bars ↔ b ∈ s.bars ∧ ¬ (b.core = o.core ∧ b.idx = o.idx)) ∧
        ∀ core i, i < 256 → t.genOf core i =
          if core = o.core ∧ i = o.idx then (if s.genOf core i = 255 then 1 else s.genOf core i + 1) else s.genOf core i) ∧
    (∀ (d a : BitVec 6) (o : BarObj), Clear s (reads s c p) p { us := [a.toNat], ud := [d.toNat] } false →
      ((reads s c p).u a.toNat).toNat < 2 ^ 17 → s.handleObj c.core c.lid c.team ((reads s c p).u a.toNat) = some o →
      s.barValid c.cid p o = true → s.barSettled c p o = true → FenceOver s c p →
      ∃ (t : State) (c' : Crew), exec (.barTest d a) s = .next t ∧ Moves s t c c' p ((p.fenced s.nextId).issued (p.pc + 4)) ∧
        OnlyUniform c c' p ∧ FenceActs s t c p ∧ UniformHolds c c' d.toNat (if s.phaseOf o then 1 else 0) ∧
        t = { s with crews := t.crews, age := t.age, woke := t.woke, entered := t.entered, l1 := t.l1 })

/-- R174, R176, R178 to R181, R220: BAR.INIT sends the setting of the object's counts and scope on its way (HELD_WRITE_PERFORM makes it);
BAR.EXPECT adds to the expected bytes, BAR.ARRIVE and BAR.ARRIVE.Q count one arrival, after a release at the object's scope (at squad scope for
.Q), and each evaluates the object. A handle that is not live, or whose BAR.ALLOC is not yet performed for the split, raises BADBAR. -/
def Obligations.BarInitAndArrivals : Prop :=
  ∀ (s : State) (c : Crew) (p : Split) (o : BarObj) (x : Team), Issues s c p → s.team? o.lid o.team = some x →
    let r := reads s c p
    let arr := (s.barField o 2 2 + 1) % 2 ^ 16
    (∀ a b e : BitVec 6, Clear s r p { us := [a.toNat, b.toNat, e.toNat] } false → (r.u a.toNat).toNat < 2 ^ 17 →
      s.handleObj c.core c.lid c.team (r.u a.toNat) = some o →
      (r.u b.toNat).toNat % 2 ^ 16 ≠ 0 → (r.u b.toNat).toNat / 2 ^ 16 % 2 ^ 16 = 0 → (r.u b.toNat).toNat < 2 ^ 33 →
      (r.u e.toNat).toNat < 2 ^ 32 → s.barValid c.cid p o = true → s.outstanding o = false → FenceOver s c p →
      ∃ (t : State) (c' : Crew), exec (.barInit a b e) s = .next t ∧ Moves s t c c' p ((p.fenced s.nextId).issued (p.pc + 4)) ∧
        FenceActs s t c p ∧ c' = { c with splits := c'.splits, raised := c'.raised, host := c'.host, loads := agedLoads c p } ∧
        t.held = s.held ++ [{
          id := s.nextId + 1, lid := c.lid, team := c.team, bytes := (List.range 16).map fun j => (o.offset + j, 0)
          bar := some (.init o.core o.idx o.gen ((r.u b.toNat).getLsbD 32) ((r.u b.toNat).toNat % 2 ^ 16) (r.u e.toNat).toNat)
          core := c.core, asid := c.asid, cid := c.cid, sid := p.sid, seq := s.nextId, anc := p.anc }] ∧
        t = { s with crews := t.crews, age := t.age, woke := t.woke, entered := t.entered, held := t.held, nextId := t.nextId, l1 := t.l1 }) ∧
    (∀ a b : BitVec 6, Clear s r p { us := [a.toNat, b.toNat] } true → (r.u a.toNat).toNat < 2 ^ 17 →
      s.handleObj c.core c.lid c.team (r.u a.toNat) = some o → s.barField o 4 4 + (r.u b.toNat).toNat < 2 ^ 32 →
      s.barValid c.cid p o = true → s.barSettled c p o = true → FenceOver s c p →
      ∃ (t : State) (c' : Crew) (m : MarkRec), exec (.barExpect a b) s = .next t ∧
        Evaluated s t o (s.barField o 0 2) (s.barField o 2 2) (s.barField o 4 4 + (r.u b.toNat).toNat) (s.barField o 8 4) ∧
        BarFlips s t c c' p { (p.fenced s.nextId).issued (p.pc + 4) with mark := m } o
          (s.barField o 0 2 ≤ s.barField o 2 2 ∧ s.barField o 4 4 + (r.u b.toNat).toNat ≤ s.barField o 8 4)) ∧
    (∀ a : BitVec 6, Clear s r p { us := [a.toNat] } true → (r.u a.toNat).toNat < 2 ^ 17 →
      s.handleObj c.core c.lid c.team (r.u a.toNat) = some o → s.barValid c.cid p o = true →
      s.released c p o.scope = true → FenceOver s c p →
      ∃ (t : State) (c' : Crew) (m : MarkRec), exec (.barArrive a) s = .next t ∧
        Evaluated s t o (s.barField o 0 2) arr (s.barField o 4 4) (s.barField o 8 4) ∧
        BarFlips s t c c' p { (p.fenced s.nextId).issued (p.pc + 4) with mark := m } o
          (s.barField o 0 2 ≤ arr ∧ s.barField o 4 4 ≤ s.barField o 8 4)) ∧
    (∀ (a b : BitVec 6) (y : Team), Clear s r p { us := [a.toNat, b.toNat] } true → (r.u b.toNat).toNat % 2 ^ 20 = 0 →
      s.squadBad c (r.u b.toNat) = false → s.team? c.lid (s.squadTeam c (r.u b.toNat)) = some y →
      s.squadOut c (r.u b.toNat) = false → (r.u a.toNat).toNat < 2 ^ 17 →
      s.handleObj y.core c.lid (s.squadTeam c (r.u b.toNat)) (r.u a.toNat) = some o → o.squad = true →
      s.barValid c.cid p o = true → s.released c p .squad = true → FenceOver s c p →
      ∃ (t : State) (c' : Crew) (m : MarkRec), exec (.barArriveQ a b) s = .next t ∧
        Evaluated s t o (s.barField o 0 2) arr (s.barField o 4 4) (s.barField o 8 4) ∧
        BarFlips s t c c' p { (p.fenced s.nextId).issued (p.pc + 4) with mark := m } o
          (s.barField o 0 2 ≤ arr ∧ s.barField o 4 4 ≤ s.barField o 8 4)) ∧
    (∀ a : BitVec 6, Clear s r p { us := [a.toNat] } true → (r.u a.toNat).toNat < 2 ^ 17 →
      (∀ b, s.handleObj c.core c.lid c.team (r.u a.toNat) = some b → s.barValid c.cid p b = false) →
      exec (.barArrive a) s = .next (s.raise c.cid p.sid ⟨.badbar, p.pc, 0, r.u a.toNat⟩) ∧
      exec (.barFree a) s = .next (s.raise c.cid p.sid ⟨.badbar, p.pc, 0, r.u a.toNat⟩))

/-- R176, R182, R184 and Table 10.2: BAR.WAIT on a live object whose phase differs from the handle's parity takes an acquire at the
scope of the object, or of the system where an arrival from the fabric counted toward the flip (R70), and goes on; while the phase is the
parity the split parks, unless its crew runs an arm of a fallback construct whose other arm is not finished (R255): the arms then swap where
the swap need not wait (log entry 41), and every register keeps its value, unless its granule comes back from a spill area that the program
has written; the exchanged arm bit is the model's inference (log entry 31). A split that a flip has
woken returns with the acquire, whatever has become of the object since; one whose object was freed takes BADBAR with its handle. -/
def Obligations.BarWait : Prop :=
  ∀ (s : State) (c : Crew) (p : Split) (a : BitVec 6), Issues s c p →
    let goes (q : Split) (t : State) (scope : Scope) : Prop :=
      ∃ (c' : Crew) (n : Nat), exec (.barWait a) s = .next t ∧
        Moves s t c c' p { q.issued (p.pc + 4) with status := .ready, acqAt := n } ∧
        n = (if scope = .dev ∨ scope = .sys then s.nextId else q.acqAt) ∧
        c' = { c with raised := c'.raised, splits := c'.splits, host := c'.host, loads := agedLoads c p } ∧
        t = { s with crews := t.crews, age := t.age, woke := t.woke, entered := t.entered, l1 := t.l1 }
    (∀ k scope, p.status = .barWait k scope .flipped →
      ∃ (t : State), goes p t scope ∧ ∀ w, w ∈ t.l1 ↔ w ∈ s.l1 ∧ ¬ AcquireDrops s c.core scope w) ∧
    (∀ k scope, p.status = .barWait k scope .freed →
      exec (.barWait a) s = .next (s.raise c.cid p.sid ⟨.badbar, p.pc, 0, k⟩)) ∧
    (∀ (o : BarObj), p.status = .ready → Clear s (reads s c p) p { us := [a.toNat] } false →
      let h := (reads s c p).u a.toNat
      h.toNat < 2 ^ 17 → s.handleObj c.core c.lid c.team h = some o → s.barValid c.cid p o = true → s.barSettled c p o = true →
      FenceOver s c p →
      (s.phaseOf o ≠ h.getLsbD 16 →
        let scope : Scope := if o.farFlip then .sys else if o.squad then .squad else .team
        ∃ (t : State), goes (p.fenced s.nextId) t scope ∧
          ∀ w, w ∈ t.l1 ↔ w ∈ s.l1 ∧ ¬ AcquireDrops s c.core scope w ∧
            ¬ ∃ f, p.fence = some f ∧ (f.sem = .acq ∨ f.sem = .ar) ∧ AcquireDrops s c.core f.scope w) ∧
      (s.phaseOf o = h.getLsbD 16 → (∀ f, p.fb = some f → f.finished = true) →
        ∃ (t : State) (c' : Crew) (scope : Scope), exec (.barWait a) s = .next t ∧
          Moves s t c c' p { (p.fenced s.nextId).issued p.pc with status := .barWait h scope .parked } ∧
          c' = { c with raised := c'.raised, splits := c'.splits, host := c'.host, loads := agedLoads c p } ∧ FenceActs s t c p ∧
          t = { s with crews := t.crews, age := t.age, woke := t.woke, entered := t.entered, l1 := t.l1 }) ∧
      (∀ f v u, s.phaseOf o = h.getLsbD 16 → p.fb = some f → f.finished = false →
        fenceGate (begun s c p) (reads s c p) p = .ok v → swapArms v.1 c.cid p.sid false p.muted = .ok u →
        ∃ (t : State) (c' : Crew) (q : Split), exec (.barWait a) s = .next t ∧ t.crew? c.cid = some c' ∧ c'.split? p.sid = some q ∧
          Swapped c c' (p.fenced s.nextId) q f false ∧ (∀ l k, l < 32 → Keeps t c f.pwb k → c'.vAbs l k = c.vAbs l k) ∧
          c'.sregs = c.sregs))

/-! ## Engine commands as they issue -/

/-- R186 to R193, R351: a copy command whose operands pass the checks and whose places are in reach, with room in the core's copy queue, is
queued with its source as it stands at issue, word by word from its source rows to its destination rows; of a source line of which an
engine is still to write a word nothing is read yet. It takes a mark. No byte of memory or scratchpad and no register changes yet, and no
owner: the home slices register its destination words later (R187, R210; until an engine starts on them they have no owner, log
entry 28). That the split's own earlier accesses are done first is the model's reading of R187 (log entry 16).
R194: CP.AT reads the opcode and the operands of a copy command from a 32-byte record in the scratchpad and holds the command, its
source as it stands at issue, in one of the core's four timed slots until FTIME reaches S(B). -/
def Obligations.CopyAndTimedCopyCommands : Prop :=
  (
    ∀ (s : State) (c : Crew) (p : Split) (i : Instr) (opc : Nat) (a b d e : BitVec 6) (plan : CopyPlan) (s1 s2 : State)
      (src dst : List (Nat × Nat)), CopyRow i opc a b d e → Issues s c p →
      let r := reads s c p
      Clear s r p { us := [a.toNat, b.toNat, d.toNat, e.toNat] } true →
      planOf (begun s c p) r p opc (r.u a.toNat) (r.u b.toNat) (r.u d.toNat) = .ok plan → plan.bad = none →
      HandleOk s c p (r.u e.toNat) →
      let from' := plan.rows.flatMap fun x => rowWords x.1 x.2.2
      let to' := plan.rows.flatMap fun x => rowWords x.2.1 x.2.2
      (plan.dst = .squad → checkSquad s r p.pc (to'.map fun x => (0, x)) = .ok ()) →
      (plan.src = .squad → checkSquad s r p.pc (from'.map fun x => (0, x)) = .ok ()) →
      engPlaces (begun s c p) r p 2 .read plan.src from' = .ok (s1, src) →
      engPlaces s1 r p 1 .write plan.dst to' = .ok (s2, dst) →
      FenceOver s c p → s.splitQuiet c p = true → s.copyRoom c.core c.asid = true →
      CopyAsks s c opc (r.u a.toNat) (r.u b.toNat) (r.u d.toNat) plan ∧
      ∃ (t : State), exec i s = .next t ∧ CopyEnters s t c p plan src dst (r.u e.toNat) .queued) ∧
  (
    ∀ (s : State) (c : Crew) (p : Split) (a b e : BitVec 6) (plan : CopyPlan) (s1 s2 : State) (src dst : List (Nat × Nat)), Issues s c p →
      let r := reads s c p
      let x := r.u a.toNat
      let word (off : Nat) : DWord := BitVec.ofNat 64 (leNat (s.scratchRead c.lid c.team (x.toNat + off) 8))
      Clear s r p { us := [a.toNat, b.toNat, e.toNat] } true → x.toNat % 32 = 0 → x.toNat + 32 ≤ s.scratchSize c.lid c.team →
      s.scratchPending c.lid c.team x.toNat 32 = false → s.splitQuiet c p = true →
      0x50 ≤ (word 0).toNat → (word 0).toNat ≤ 0x53 → s.scratchPoisoned c.lid c.team x.toNat 32 = false →
      planOf (begun s c p) r p (word 0).toNat (word 8) (word 16) (word 24) = .ok plan → plan.bad = none → FenceOver s c p →
      HandleOk s c p (r.u e.toNat) →
      let from' := plan.rows.flatMap fun y => rowWords y.1 y.2.2
      let to' := plan.rows.flatMap fun y => rowWords y.2.1 y.2.2
      (plan.dst = .squad → checkSquad s r p.pc (to'.map fun y => (0, y)) = .ok ()) →
      (plan.src = .squad → checkSquad s r p.pc (from'.map fun y => (0, y)) = .ok ()) →
      engPlaces (begun s c p) r p 2 .read plan.src from' = .ok (s1, src) →
      engPlaces s1 r p 1 .write plan.dst to' = .ok (s2, dst) →
      (s.copies.filter fun k => k.core == c.core && (match k.phase with | .timed _ => true | _ => false)).length < 4 →
      CopyAsks s c (word 0).toNat (word 8) (word 16) (word 24) plan ∧
      ∃ (t : State), exec (.cpAt a b e) s = .next t ∧ CopyEnters s t c p plan src dst (r.u e.toNat) (.timed (r.u b.toNat)))

/-- R117, R118, R121 to R129, R351: the commands of the matrix engine as they issue, with their checks passed and room in the core's matrix
queue. ACC.ZERO and ACC.LD claim their tile number where it is free; the others name a tile of the issuing team. A command is queued with the
scratchpad bytes that it reads as they stand at issue: A, B, the format block and the headers for MMA, the image for ACC.LD; where an engine is
still to write one of them, the queued command has yet to read them all. ACC.ST holds its destination pending, ACC.RED registers its words. Each takes a mark; no byte of memory or scratchpad, no tile word and no register changes yet. (What is waited for at issue
is log entry 8.) -/
def Obligations.MatrixCommands : Prop :=
  ∀ (s : State) (c : Crew) (p : Split) (a b d e : BitVec 6), Issues s c p → s.matRoom c.core c.asid = true → FenceOver s c p →
    let r := reads s c p
    let x := (r.u a.toNat).toNat
    let queued (t : State) (tile handle : Nat) (op : MatOp) (spans reads : List (Nat × Nat)) : Prop :=
      ∃ (c' : Crew) (m : MarkRec), Moves s t c c' p { (p.fenced s.nextId).issued (p.pc + 4) with mark := m } ∧
        c' = { c with raised := c'.raised, splits := c'.splits, host := c'.host, loads := agedLoads c p } ∧
        t.mats = s.mats ++ [{ core := c.core, asid := c.asid, lid := c.lid, team := c.team, tile := tile, op := op
                              handle := handle, ran := false, spans := spans, reads := reads, hint := r.shint, seq := s.nextId }]
    let claimed (t : State) (tile : Nat) : Prop :=
      (s.tile? c.core c.asid tile ≠ none → t.tiles = s.tiles) ∧
      (s.tile? c.core c.asid tile = none → t.tiles = s.tiles ++ [{
        core := c.core, asid := c.asid, num := tile, lid := c.lid, team := c.team, words := [], poison := [] }])
    let mayClaim (tile : Nat) : Prop :=
      s.ownsTile c tile = true ∨ (s.tile? c.core c.asid tile = none ∧ s.claimRoom c = true)
    let inside (v : DWord) (k n : Nat) : Prop := v.toNat % k = 0 ∧ v.toNat + n ≤ s.scratchSize c.lid c.team
    let unread (rs : List (Nat × Nat)) : List (Nat × Nat) :=
      if rs.any fun k => s.scratchPending c.lid c.team k.1 k.2 then rs else []
    let bytes (v : DWord) (n : Nat) : List Byte := s.scratchRead c.lid c.team v.toNat n
    (Clear s r p { us := [a.toNat] } true → x < 16 → mayClaim x →
      ∃ (t : State), exec (.accZero a) s = .next t ∧ queued t x 0 .zero [] [] ∧ FenceActs s t c p ∧ claimed t x ∧
        t = { s with crews := t.crews, age := t.age, woke := t.woke, entered := t.entered, nextId := t.nextId, mats := t.mats, tiles := t.tiles, l1 := t.l1 }) ∧
    (Clear s r p { us := [a.toNat, b.toNat] } true → x < 16 → inside (r.u b.toNat) 16 16384 → mayClaim x → s.splitQuiet c p = true →
      ∃ (t : State), exec (.accLd a b) s = .next t ∧ claimed t x ∧ FenceActs s t c p ∧
        queued t x 0 (.ld (bytes (r.u b.toNat) 16384) ((List.range 4096).filter fun k =>
          s.scratchPoisoned c.lid c.team ((r.u b.toNat).toNat + 4 * k) 4)) [] (unread [((r.u b.toNat).toNat, 16384)]) ∧
        t = { s with crews := t.crews, age := t.age, woke := t.woke, entered := t.entered, nextId := t.nextId, mats := t.mats, tiles := t.tiles, l1 := t.l1 }) ∧
    (Clear s r p { us := [a.toNat, b.toNat, d.toNat, e.toNat] } true →
      let va := r.u b.toNat
      let vb := r.u d.toNat
      let vf := r.u e.toNat
      let fb := bytes vf 32
      let fa := fmtOf (fbAt fb 0 1)
      let fB := fmtOf (fbAt fb 1 1)
      let ha := if fa.1 < 5 then headerAddrs fa.1 fa.2 (fbAt fb 4 4) (fbAt fb 8 2) (fbAt fb 0x0A 2) else []
      let hb := if fB.1 < 5 then headerAddrs fB.1 fB.2 (fbAt fb 0x0C 4) (fbAt fb 0x10 2) (fbAt fb 0x12 2) else []
      x < 16 → inside va 16 3072 → inside vb 16 3072 → inside vf 32 32 → oddHeader fb = false → badBlock s c fb = false →
      s.ownsTile c x = true → s.splitQuiet c p = true → s.scratchPoisoned c.lid c.team vf.toNat 32 = false →
      s.scratchPending c.lid c.team vf.toNat 32 = false →
      ∃ (t : State), exec (.mma a b d e) s = .next t ∧ FenceActs s t c p ∧
        queued t x 0 (.mma fb (bytes va 3072) (bytes vb 3072) (s.headers c.lid c.team ha) (s.headers c.lid c.team hb)
          (s.badRows c.lid c.team va.toNat ha) (s.badRows c.lid c.team vb.toNat hb)) []
          (unread ((va.toNat, 3072) :: (vb.toNat, 3072) :: (ha ++ hb).map fun k => (k, 2))) ∧
        t = { s with crews := t.crews, age := t.age, woke := t.woke, entered := t.entered, nextId := t.nextId, mats := t.mats, l1 := t.l1 }) ∧
    (Clear s r p { us := [a.toNat, b.toNat, d.toNat, e.toNat] } true →
      let out := x / 16 % 8
      let mx := x / 256 % 8
      let dst := r.u b.toNat
      let hdr : DWord := r.u d.toNat >>> 32
      x < 2 ^ 12 → x.testBit 11 = false → x.testBit 7 = false → out ≤ 4 → (out = 4 ∧ mx ≤ 4 ∨ out ≠ 4 ∧ mx = 0) →
      inside dst 16 (stBytes out mx) → (out = 4 → inside hdr 2 512) → HandleOk s c p (r.u e.toNat) → s.ownsTile c (x % 16) = true →
      s.splitQuiet c p = true →
      ∃ (t : State), exec (.accSt a b d e) s = .next t ∧ FenceActs s t c p ∧
        queued t (x % 16) ((r.u e.toNat).toNat % 2 ^ 16) (.st x dst.toNat ((r.u d.toNat).truncate 32) hdr.toNat)
          ((dst.toNat, stBytes out mx) :: if out = 4 then [(hdr.toNat, 512)] else []) [] ∧
        t = { s with crews := t.crews, age := t.age, woke := t.woke, entered := t.entered, nextId := t.nextId, mats := t.mats, l1 := t.l1 }) ∧
    (∀ s1 pas, Clear s r p { us := [a.toNat, b.toNat, d.toNat, e.toNat] } true →
      let dst := r.u b.toNat
      let pitch := r.u d.toNat
      let rows := (List.range 64).map fun k => dst + pitch * BitVec.ofNat 64 k
      x < 2 ^ 7 → x / 16 % 8 < 2 → dst.toNat % 256 = 0 → pitch.toNat % 256 = 0 →
      (∀ v ∈ rows, ∀ pa, s.translate c.core c.asid v .write = .ok pa → inDevice pa = true) →
      HandleOk s c p (r.u e.toNat) → s.ownsTile c (x % 16) = true → engTranslate (begun s c p) r p 1 .write rows = .ok (s1, pas) →
      s.splitQuiet c p = true →
      ∃ (t : State), exec (.accRed a b d e) s = .next t ∧
        queued t (x % 16) ((r.u e.toNat).toNat % 2 ^ 16) (.red (if x / 16 % 8 = 0 then .addF else .add) pas) [] [] ∧
        (∀ pa ∈ pas, ∀ k, k < 64 → t.ownerOf ((pa / 4 + k) / 16) = 0x3FE ∧ ∀ w ∈ t.l1, w.addr ≠ pa / 4 + k) ∧
        t = { s with crews := t.crews, age := t.age, woke := t.woke, entered := t.entered, nextId := t.nextId, tlb := t.tlb, mats := t.mats, owner := t.owner, l1 := t.l1, l2 := t.l2, misses := t.misses, wfill := t.wfill })

/-! ## The Shell Ring as its instructions issue -/

/-- R228 to R233, R351: SH.GET.W and the SH.OP operations with a selector in the context's range and room at the core's station. On a shell that the
split does not hold the operation enters the station's queue, for S(D), and the split goes on; on a shell that it holds it acts on the working
copy at once: S(D) is the word as it was, extended with zeros, poisoned if the word was, and the word is as Table 13.2 gives it. A selector beyond the range raises
SHRANGE 1. A .REL operation issues after the fence of its split (R205); the mark is completed as the value is written (R351: log entry
56), and a poisoned word gives a poisoned S(D) by inference (log entry 18).
R229, R230, R235, R236, R351: SH.GET.P of a shell that the split does not hold queues a read of its payload into 64 bytes of the scratchpad,
which are pending from then on, and of one that it holds writes the working copy there at once. SH.LAND queues a landing, SH.FLOAT of a held shell its
float. SH.PUT writes a word, or with WHOLE 64 bytes of the scratchpad, to the working copy of a held shell. SH.LAND of a held shell raises SHRANGE 3,
SH.PUT and SH.FLOAT of one that is not held SHRANGE 2. -/
def Obligations.ShellInstructions : Prop :=
  (
    ∀ (s : State) (c : Crew) (p : Split) (d a : BitVec 6) (e : Sem) (x : Context), Issues s c p → s.context? c.asid = some x →
      let r := reads s c p
      let sel := r.u a.toNat
      let shell := x.shbase + sel.toNat / 16 % 1024
      let word := sel.toNat % 16
      let ready : Prop := selectorBad sel false false = false ∧ sel.toNat / 16 % 1024 < x.shcount ∧
        s.stationRoom c.core c.asid shell word = true ∧ (e = .rel ∨ e = .ar → FenceOver s c p ∧ s.drainedFor c p = true)
      let q : Split := if e = .rel ∨ e = .ar then p.fenced s.nextId else p
      let queued (t : State) (op : ShOp) (m : MarkRec) : Prop :=
        ∃ (c' : Crew), Moves s t c c' p { q.issued (p.pc + 4) with mark := m } ∧
          c' = { c with raised := c'.raised, splits := c'.splits, host := c'.host, loads := agedLoads c p } ∧
          (e = .rel ∨ e = .ar → FenceActs s t c p) ∧ (e = .relaxed ∨ e = .acq → t.l1 = s.l1) ∧
          t = { s with
            crews := t.crews, age := t.age, woke := t.woke, entered := t.entered, nextId := t.nextId, l1 := t.l1, shreqs := s.shreqs ++ [{
              core := c.core, cid := c.cid, sid := p.sid, asid := c.asid, lid := c.lid, team := c.team, shell := shell
              word := word, op := op, acq := semAcq e, rel := semRel e, dst := d.toNat, seq := s.nextId, anc := p.anc
              cycle := s.cycle }] }
      let held (t : State) (h : Landing) (new : Word) (clears : Bool) (m : MarkRec) : Prop :=
        ∃ (c' : Crew), Moves s t c c' p { q.issued (p.pc + 4) with
            mark := m, acqAt := if e = .acq ∨ e = .ar then s.nextId + 1 else q.acqAt } ∧ OnlyUniform c c' p ∧
          (∀ w, w ∈ t.l1 ↔ w ∈ s.l1 ∧ ¬ ((e = .acq ∨ e = .ar) ∧ AcquireDrops s c.core .dev w) ∧
            ¬ ((e = .rel ∨ e = .ar) ∧ ∃ f, p.fence = some f ∧ (f.sem = .acq ∨ f.sem = .ar) ∧ AcquireDrops s c.core f.scope w)) ∧
          (∀ n, c'.u n = if n = d.toNat then (h.working.getD word 0).zeroExtend 64 else c.u n) ∧
          (d.toNat ∈ c'.spoison ↔ word ∈ h.badWork) ∧
          t.landings = s.landings.map (fun k => if k.shell = shell then
            { k with working := h.working.set word new
                     badWork := if clears then h.badWork.filter (· != word) else h.badWork } else k) ∧
          t = { s with crews := t.crews, age := t.age, woke := t.woke, entered := t.entered, nextId := t.nextId, landings := t.landings, l1 := t.l1
                       arrived := s.arrived ++ [(c.cid, d.toNat, s.nextId)] }
      (∀ x ∈ s.arrived, x.2.2 ≤ s.nextId) →
      (e = .relaxed ∨ e = .acq → Clear s r p { us := [a.toNat], ud := [d.toNat] } (semAcq e) → ready →
        (s.heldBy c p shell = none → ∃ (t : State) (m : MarkRec), exec (.shGetW d a e) s = .next t ∧ queued t .getW m) ∧
        (∀ h, s.heldBy c p shell = some h →
          ∃ (t : State) (m : MarkRec), exec (.shGetW d a e) s = .next t ∧ held t h (h.working.getD word 0) false m)) ∧
      (∀ i op (b : BitVec 6), ShellRow i op d a b e → (op = 12 → b.toNat < 63) →
        Clear s r p { us := if op = 12 then [a.toNat, b.toNat, b.toNat + 1] else [a.toNat, b.toNat], ud := [d.toNat] } true → ready →
        let y : Word := if op = 12 then (r.u (b.toNat + 1)).truncate 32 else 0
        (s.heldBy c p shell = none → ∃ (t : State) (m : MarkRec), exec i s = .next t ∧ queued t (.rmw op ((r.u b.toNat).truncate 32) y) m ∧
          (p.recipe = false → m.pc = p.pc + 4 ∧ m.mask = p.mask ∧ m.seq = s.nextId)) ∧
        (∀ h, s.heldBy c p shell = some h → (e = .rel ∨ e = .ar → s.heldReleased c p = true) →
          ∃ (t : State) (m : MarkRec), exec i s = .next t ∧
            held t h (shellNew op (h.working.getD word 0) ((r.u b.toNat).truncate 32) y) (decide (op = 11)) m)) ∧
      (∀ i op (b : BitVec 6), ShellRow i op d a b e → (op = 12 → b.toNat < 63) →
        Clear s r p { us := if op = 12 then [a.toNat, b.toNat, b.toNat + 1] else [a.toNat, b.toNat], ud := [d.toNat] } true →
        selectorBad sel false false = false → x.shcount ≤ sel.toNat / 16 % 1024 →
        exec i s = .next (s.raise c.cid p.sid ⟨.shrange, p.pc, sel, 1⟩))) ∧
  (
    ∀ (s : State) (c : Crew) (p : Split) (a b : BitVec 6) (e : Sem) (x : Context), Issues s c p → s.context? c.asid = some x →
      let r := reads s c p
      let sel := r.u a.toNat
      let shell := x.shbase + sel.toNat / 16 % 1024
      let word := sel.toNat % 16
      let off := (r.u b.toNat).toNat
      let named (put none' : Bool) : Prop := selectorBad sel put none' = false ∧ sel.toNat / 16 % 1024 < x.shcount
      let block : Prop := off % 64 = 0 ∧ off + 64 ≤ s.scratchSize c.lid c.team ∧
        s.scratchPending c.lid c.team off 64 = false ∧ s.heldOn c.lid c.team off 64 = false ∧
        (∀ o ∈ c.splits, ∀ q ∈ o.stores, q.space ≠ .global → p.follows q.sid q.seq = false)
      let queued (t : State) (o : Split) (op : ShOp) (acq rel : Bool) (m : MarkRec) : Prop :=
        ∃ (c' : Crew), Moves s t c c' p { o.issued (p.pc + 4) with mark := m } ∧
          c' = { c with raised := c'.raised, splits := c'.splits, host := c'.host, loads := agedLoads c p } ∧
          t = { s with crews := t.crews, age := t.age, woke := t.woke, entered := t.entered, nextId := t.nextId, shreqs := s.shreqs ++ [{
            core := c.core, cid := c.cid, sid := p.sid, asid := c.asid, lid := c.lid, team := c.team, shell := shell
            word := 0, op := op, acq := acq, rel := rel, dst := 0, seq := s.nextId, anc := p.anc, cycle := s.cycle }], l1 := t.l1 }
      let puts (t : State) (o : Split) (h : Landing) (working : List Word) (bad : List Nat) : Prop :=
        ∃ (c' : Crew), Moves s t c c' p (o.issued (p.pc + 4)) ∧
          c' = { c with raised := c'.raised, splits := c'.splits, host := c'.host, loads := agedLoads c p } ∧
          t = { s with crews := t.crews, age := t.age, woke := t.woke, entered := t.entered, l1 := t.l1, landings := s.landings.map fun q =>
            if q.shell == h.shell then { q with working := working, badWork := bad } else q }
      (e = .relaxed ∨ e = .acq → Clear s r p { us := [a.toNat, b.toNat] } (semAcq e) → named false true → block →
        (∀ q ∈ c.loads, q.space ≠ .global → p.follows q.sid q.seq = false) → FenceOver s c p →
        (∀ k ∈ s.mats, k.lid = c.lid → k.team = c.team → ∀ q ∈ k.reads, overlaps q.1 q.2 off 64 = false) → s.stationRoom c.core c.asid shell 0 = true →
        (s.heldBy c p shell = none → ∃ (t : State) (m : MarkRec), exec (.shGetP a b e) s = .next t ∧
          queued t (p.fenced s.nextId) (.getP off) (semAcq e) false m ∧ FenceActs s t c p) ∧
        (∀ h, s.heldBy c p shell = some h → h.badWork = [] → (s.team? c.lid c.team).isSome = true → h.working.length = 16 →
          ∃ (t : State) (c' : Crew) (m : MarkRec), exec (.shGetP a b e) s = .next t ∧
            Moves s t c c' p { (p.fenced s.nextId).issued (p.pc + 4) with
              mark := m, acqAt := if e = .acq then s.nextId + 1 else (p.fenced s.nextId).acqAt } ∧
            t.scratchWords c.lid c.team off = h.working ∧ t.mem = s.mem ∧ c'.vregs = c.vregs ∧ c'.sregs = c.sregs)) ∧
      (Clear s r p { us := [a.toNat] } true → named false true →
        (s.heldBy c p shell = none → s.stationRoom c.core c.asid shell 0 = true →
          ∃ (t : State) (m : MarkRec), exec (.shLand a) s = .next t ∧ queued t p .land false false m ∧ t.l1 = s.l1) ∧
        (∀ h, s.heldBy c p shell = some h → exec (.shLand a) s = .next (s.raise c.cid p.sid ⟨.shrange, p.pc, sel, 3⟩)) ∧
        (∀ h, s.heldBy c p shell = some h → e = .relaxed ∨ (e = .rel ∧ FenceOver s c p ∧ s.drainedFor c p = true) →
          s.stationRoom c.core c.asid shell 0 = true →
          ∃ (t : State) (m : MarkRec), exec (.shFloat a e) s = .next t ∧ queued t (if e = .rel then p.fenced s.nextId else p) .float false (semRel e) m ∧
            (e = .rel → FenceActs s t c p) ∧ (e = .relaxed → t.l1 = s.l1)) ∧
        (s.heldBy c p shell = none → e = .relaxed ∨ e = .rel →
          exec (.shFloat a e) s = .next (s.raise c.cid p.sid ⟨.shrange, p.pc, sel, 2⟩))) ∧
      (Clear s r p { us := [a.toNat, b.toNat] } false →
        (∀ h, sel.getLsbD 16 = true → named true true → s.heldBy c p shell = some h → block → FenceOver s c p →
          s.stationRoom c.core c.asid shell 0 = true → s.scratchPoisoned c.lid c.team off 64 = false →
          ∃ (t : State), exec (.shPut a b) s = .next t ∧ puts t (p.fenced s.nextId) h (s.scratchWords c.lid c.team off) [] ∧
            FenceActs s t c p) ∧
        (∀ h, sel.getLsbD 16 = false → named true false → s.heldBy c p shell = some h → s.stationRoom c.core c.asid shell word = true →
          ∃ (t : State), exec (.shPut a b) s = .next t ∧
            t.l1 = s.l1 ∧ puts t p h (h.working.set word ((r.u b.toNat).truncate 32)) (h.badWork.filter (· != word))) ∧
        (named true (sel.getLsbD 16) → s.heldBy c p shell = none →
          exec (.shPut a b) s = .next (s.raise c.cid p.sid ⟨.shrange, p.pc, sel, 2⟩))))

/-! ## Launches, fault records, STEP and marks -/

/-- R61 to R66, R187, R263, R281, R351: LAUNCH and LAUNCH.AT, once the split's accesses are released at device scope and no engine is still
to write the record, read the record whole and write STATUS at its offset 0x7C. Where the check of Table 4.4 answers 0 the launch is created with the next GRIDID and the check's place in the
queue; STATUS is 1, or 3 for a LAUNCH.AT whose time has passed. Else nothing is created, STATUS is the check's code, DONE receives an arrival and
NOTIFY an interrupt of kind 2. For a grid no other byte of memory changes. -/
def Obligations.Launches : Prop :=
  ∀ (s : State) (c : Crew) (p : Split) (a b : BitVec 6) (timed : Bool) (y : Context) (pa : Nat) (s1 s2 : State) (ws : List (Nat × Nat)),
    Issues s c p → s.context? c.asid = some y →
    let r := reads s c p
    let va := r.u a.toNat
    let i : Instr := if timed then .launchAt a b else .launch a
    Clear s r p { us := if timed then [a.toNat, b.toNat] else [a.toNat] } true → va.toNat % 128 = 0 →
    translateLanes (begun s c p) r p .read [(0, va)] = .ok (s1, [(0, pa)]) →
    translateLanes s1 r p .write [(0, va + 0x7C)] = .ok (s2, ws) →
    s.released c p .dev = true → FenceOver s c p →
    let clean := (s.fenced c p).cleanHit c.core (accessWords pa 128)
    (∀ n ∈ accessWords pa 128, s.wordPending c.core n = false) →
    let hit := (s.fenced c p).l1Hit c.core (accessWords pa 128)
    let slice := s.loadSlice c.core pa
    hit = true ∨ s.mayReach slice c.core c.asid pa false false = true →
    (if hit then s.fenced c p else (s.fenced c p).reach slice c.core c.asid pa false false 0).statusOk c.core c.asid (pa + 0x7C) = true →
    (s.fenced c p).loadPoison c.core pa 124 clean = false →
    let bytes := (s.fenced c p).loadBytes c.core pa 128 clean
    let l := parseRecord bytes
    (l.cores = true → c.splits.length = 1) →
    let nest := match s.launch? c.lid with | some k => k.nest | none => 0
    let code := checkRecord s2 r nest bytes l
    let early : Prop := timed = true ∧ s.ftime.toNat < (r.u b.toNat).toNat
    let status (t : State) (k : Nat) : Prop :=
      t.readNat (pa + 0x7C) 4 = k ∧
      (l.kind = 0 ∨ code ≠ 0 → ∀ z, z < pa + 0x7C ∨ pa + 0x80 ≤ z → t.readByte z = s.readByte z)
    (code = 0 → ∃ (t : State) (c' : Crew) (m : MarkRec) (x : Launch), exec i s = .next t ∧ Writes s t c c' p { (p.fenced s.nextId).issued (p.pc + 4) with mark := m } ∧
      c' = { c with raised := c'.raised, splits := c'.splits, host := c'.host, resv := c'.resv, loads := agedLoads c p } ∧
      (p.recipe = false → m.pc = p.pc + 4 ∧ m.mask = p.mask) ∧
      t.launches = s.launches ++ [x] ∧ x.asid = c.asid ∧ x.gid = y.nextGid ∧ x.nest = nest + 1 ∧ x.record = l ∧
      x.status = some (BitVec.ofNat 64 (pa + 0x7C)) ∧ x.parent = some c.lid ∧ x.ptid = c.team ∧ x.nextTeam = 0 ∧ x.retired = 0 ∧
      (early → x.phase = .held (r.u b.toNat)) ∧ (¬ early → x.phase = .pending) ∧
      t.context? c.asid = some { y with nextGid := y.nextGid + 1 } ∧
      ((timed = false ∨ early → status t 1) ∧ (timed = true ∧ ¬ early → status t 3))) ∧
    (code ≠ 0 → code < 2 ^ 32 → ∃ (t : State) (c' : Crew) (m : MarkRec), exec i s = .next t ∧ status t code ∧ t.launches = s.launches ∧
      t.context? c.asid = some y ∧ t.crew? c.cid = some c' ∧ c'.vregs = c.vregs ∧ c'.sregs = c.sregs ∧
      c'.split? p.sid = some { (p.fenced s.nextId).issued (p.pc + 4) with mark := m } ∧
      (∀ h o x, l.done = some h → s.handleObj c.core c.lid c.team (BitVec.ofNat 64 h) = some o → s.team? o.lid o.team = some x →
        Evaluated s t o (s.barField o 0 2) ((s.barField o 2 2 + 1) % 2 ^ 16) (s.barField o 4 4) (s.barField o 8 4)) ∧
      (l.notify = true → y.irqaddr ≠ 0 → ∃ q, t.fab.strict = s.fab.strict ++ [q] ∧
        q.msg = ⟨y.irqaddr, y.irqkey, leBytes 4 (2 * 2 ^ 28 + code % 2 ^ 16), []⟩) ∧
      (l.notify = false ∨ y.irqaddr = 0 → t.fab.strict = s.fab.strict) ∧
      (l.done = none → Writes s t c c' p { (p.fenced s.nextId).issued (p.pc + 4) with mark := m } ∧ t.teams = s.teams))

/-- R338 and Table 21.2: FQPOP removes the crew's oldest store-fault record and writes it to S(D) to S(D + 3), in the table's fields; it never waits. Without a
record it writes zeros, with bit 30 set in the last word while a found fault of the crew is held back. D above 60 raises ILLOPND. -/
def Obligations.Fqpop : Prop :=
  ∀ (s : State) (c : Crew) (p : Split) (d : BitVec 6), Issues s c p →
    let mine := s.faultq.filter fun q => q.cid = c.cid
    let writes (c' : Crew) (x0 x1 x2 x3 : DWord) : Prop := OnlyUniform c c' p ∧ ∀ n, c'.u n =
      if n = d.toNat then x0 else if n = d.toNat + 1 then x1 else if n = d.toNat + 2 then x2 else if n = d.toNat + 3 then x3 else c.u n
    (60 < d.toNat →
      exec (.fqpop d) s = .next (s.raise c.cid p.sid ⟨.illopnd, p.pc, 0, (encode (.fqpop d)).zeroExtend 64⟩)) ∧
    (d.toNat ≤ 60 → Clear s (reads s c p) p { ud := [0, 1, 2, 3].map (d.toNat + ·) } false →
      (∀ q, mine.find? (fun q => !q.held) = some q → ∃ (t : State) (c' : Crew) (w : DWord), exec (.fqpop d) s = .next t ∧ Moves s t c c' p (p.issued (p.pc + 4)) ∧
        writes c' q.va q.data0 q.data1 w ∧ t = { s with crews := t.crews, age := t.age, woke := t.woke, entered := t.entered, faultq := s.faultq.erase q } ∧
        (q.reason < 16 → q.lane < 32 →
          w.toNat / 2 ^ 32 = q.mask.toNat ∧ w.getLsbD 31 = true ∧ (w.getLsbD 30 = true ↔ 1 < mine.length) ∧
          w.toNat / 2 ^ 26 % 2 ^ 4 = q.reason ∧
          w.toNat / 2 ^ 23 % 2 ^ 3 = (if q.size = 1 then 0 else if q.size = 2 then 1 else if q.size = 4 then 2 else if q.size = 8 then 3 else 4) ∧
          w.toNat / 2 ^ 18 % 2 ^ 5 = q.lane ∧ w.toNat / 2 ^ 16 % 4 = 0 ∧ w.toNat / 2 ^ 8 % 2 ^ 8 = q.word.toNat / 2 ^ 24 ∧
          w.toNat % 2 ^ 8 = q.word.toNat % 2 ^ 8)) ∧
      ((∀ q ∈ mine, q.held = true) → ∃ (t : State) (c' : Crew), exec (.fqpop d) s = .next t ∧ Goes s t c c' p (p.issued (p.pc + 4)) ∧
        writes c' 0 0 0 (if mine = [] then 0 else 0x40000000)))

/-- R282, R285, R289: STEP by a host of one split with no frame and no construct open. Where every step neighbour of its cells has reached their
step the published registers hold their data and no poison, and no data are still to arrive in a uniform
register of the split (log entry 55), every cell captures its published registers in the buffer of the step that it completes and advances; the host goes on at the next word with s0 = ARGS, its
other uniform registers, FPMODE and CPOL zero. Else the host parks at the STEP. -/
def Obligations.StepOfAHost : Prop :=
  ∀ (s : State) (c : Crew) (p : Split) (l : Launch), Issues s c p → s.launch? c.lid = some l → s.inField c = true →
    p.inHandler = false → c.splits = [p] → c.depth = 0 → p.stack = [] →
    (∀ j, j < 8 → l.record.pub.getLsbD j = true → s.laneBusy (reads s c p) j = false ∧
      ∀ n, n < 32 → p.mask.getLsbD n = true → 32 * j + n ∉ c.vpoison) →
    (∀ n, n < 64 → s.uniOwed (reads s c p) p n = false) →
    (s.stepReady c p.mask = true → ∃ (t : State) (c' : Crew), exec .step s = .next t ∧ t.crew? c.cid = some c' ∧
      (∀ n, c'.u n = if n = 0 then c.args else 0) ∧ c'.spoison = [] ∧ c'.fpmode = 0 ∧ c'.cpol = 0 ∧
      (∃ (q : Split), c'.splits = [q] ∧ q.pc = p.pc + 4 ∧ q.status = .ready ∧
        (p.recipe = false → q.mark.pc = p.pc + 4 ∧ q.mark.lpin = [] ∧ q.mark.upin = [] ∧ q.mark.recipe = 0)) ∧
      ∀ n x, n < 32 → p.mask.getLsbD n = true → s.seat? c.lid (8 * c.team + n / 4) = some x →
        let k := sget 0 x.sigma (n % 4)
        ∃ z, t.seat? c.lid (8 * c.team + n / 4) = some z ∧ sget 0 z.sigma (n % 4) = k + 1 ∧
          ∀ j, j < 8 → l.record.pub.getLsbD j = true →
            sget 0 (if k % 2 = 1 then z.buf0 else z.buf1) (4 * j + n % 4) = c.vAbs n j) ∧
    (s.stepReady c p.mask = false → ∃ (t : State) (c' : Crew) (q : Split), exec .step s = .next t ∧ t.crew? c.cid = some c' ∧ c'.splits = [q] ∧
      q.status = .stepWait ∧ q.pc = p.pc ∧ c'.sregs = c.sregs ∧
      ∀ k x, s.seat? c.lid k = some x → ∃ z, t.seat? c.lid k = some z ∧ z.sigma = x.sigma)

/-- R348, R349: FB.MARK, by a crew of one split outside handler mode, sets the split's mark record to its state at the next word with the
pins and the recipe that its operands name, outside recipe mode; in recipe mode the record stands. No register and no byte of memory changes.
R353, R354: FB.GO ends recipe mode at the PC of the split's record, JMP at its target. The recipe of the remaining split with the oldest record starts next, with
s63 at that record's PC; after the last one the crew's splits, those that waited for it too, are ready and stand in the age order (R353, step 7). Outside recipe mode FB.GO raises ILLOP. -/
def Obligations.FlashbackMarkAndRecipeEnds : Prop :=
  (
    ∀ (s : State) (c : Crew) (p : Split) (a b e : BitVec 6), Issues s c p →
      let r := reads s c p
      Clear s r p { us := [a.toNat, b.toNat, e.toNat] } true → p.inHandler = false → c.splits = [p] →
      let lanePin (n : Nat) : Nat := (r.u a.toNat).toNat / 256 ^ n % 256
      let uniPin (n : Nat) : Nat := (r.u b.toNat).toNat / 256 ^ n % 256
      (∀ n, n < 8 → lanePin n = 0xFF ∨ (lanePin n < 128 ∧ lanePin n < c.ws)) →
      (∀ n, n < 8 → uniPin n = 0xFF ∨ uniPin n < 63) → r.u e.toNat &&& 3 = 0 →
      ∃ (t : State) (c' : Crew) (m : MarkRec), exec (.fbMark a b e) s = .next t ∧ Moves s t c c' p { p.issued (p.pc + 4) with mark := m } ∧
        c' = { c with raised := c'.raised, splits := c'.splits, host := c'.host, loads := agedLoads c p } ∧
        t = { s with crews := t.crews, age := t.age, woke := t.woke, entered := t.entered, nextId := t.nextId } ∧
        (p.recipe = true → m = p.mark) ∧
        (p.recipe = false → m.pc = p.pc + 4 ∧ m.wb = c.wb ∧ m.depth = c.depth ∧ m.mask = p.mask ∧ m.fpmode = c.fpmode ∧ m.cpol = c.cpol ∧
          m.ctl = ctlOf c (p.issued (p.pc + 4)) ∧ m.recipe = r.u e.toNat ∧
          (∀ k, k ∈ m.lpin ↔ ∃ n, n < 8 ∧ lanePin n ≠ 0xFF ∧ k = c.wb + lanePin n) ∧
          (∀ k, k ∈ m.upin ↔ ∃ n, n < 8 ∧ uniPin n ≠ 0xFF ∧ k = uniPin n))) ∧
  (
    ∀ (s : State) (c : Crew) (p : Split) (a : BitVec 6), Issues s c p →
      let target := (reads s c p).u a.toNat
      let ends (i : Instr) (pc : DWord) : Prop :=
        let todo (q : Split) : Prop := q ∈ c.splits ∧ q.sid ≠ p.sid ∧ q.recipe = true ∧ q.status = .recipeWait
        ((∀ q, ¬ todo q) → (c.splits.map (·.sid)).Nodup → ∃ (t : State) (c' : Crew), exec i s = .next t ∧ t.crew? c.cid = some c' ∧
          c'.split? p.sid = some { p.issued pc with recipe := false, status := .ready } ∧
          (∀ q ∈ c.splits, q.sid ≠ p.sid → c'.split? q.sid = some (if q.status = .recipeWait then { q.untried with status := .ready } else q.untried)) ∧
          (∀ q ∈ c'.splits, q.status = .ready → (c.cid, q.sid) ∈ t.age) ∧
          c' = { c with splits := c'.splits, raised := c'.raised, host := hostIssued c.host, loads := agedLoads c p } ∧
          t = { s with crews := t.crews, age := t.age, woke := t.woke, entered := t.entered }) ∧
        (∀ q, todo q → (∀ k, todo k → k.sid ≠ q.sid → q.mark.seq < k.mark.seq) → (c.splits.map (·.sid)).Nodup →
          ∃ (t : State) (c' : Crew), exec i s = .next t ∧ t.crew? c.cid = some c' ∧
            c'.split? p.sid = some { p.issued pc with recipe := false, status := .recipeWait } ∧
            c'.split? q.sid = some { q.untried with status := .ready } ∧
            (∀ n, c'.u n = if n = 63 then q.mark.pc else c.u n) ∧ c'.vregs = c.vregs ∧
            t = { s with crews := t.crews, age := t.age, woke := t.woke, entered := t.entered })
      (p.recipe = true → ends .fbGo p.mark.pc) ∧
      (p.recipe = true → Clear s (reads s c p) p { us := [a.toNat] } false → target &&& 3 = 0 →
        escapes (reads s c p) p target = false → ends (.jmp a) target) ∧
      (p.recipe = false →
        exec .fbGo s = .next (s.raise c.cid p.sid ⟨.illop, p.pc, 0, (encode .fbGo).zeroExtend 64⟩)))

/-! ## Reset and encodings -/

/-- The spec's own encodings (R32, R33, Table 3.16, Table 4.2, R128, R159, R163 and others), each read as the instruction that it stands for; a word of an unused
opcode decodes to none. -/
def Obligations.WorkedEncodings : Prop :=
  decodeTableWord 32 0xB0040200 = some (.srdV 1 0 0) ∧
  decodeTableWord 32 0xB10C3000 = some (.swr 3 0x0C) ∧
  decodeTableWord 32 0xFB080008 = some (.sldD 2 0 8) ∧
  decodeTableWord 32 0xA110000E = some (.bz 4 14) ∧
  decodeTableWord 32 0x5700000B = some (.loop 11) ∧
  decodeTableWord 32 0x1D020184 = some (.cmpltULr 2 (.v 1) (.s 4)) ∧
  decodeTableWord 32 0x62030106 = some (.ldgW 3 1 1 2) ∧
  decodeTableWord 32 0x23050385 = some (.ffma 5 (.v 3) (.s 5)) ∧
  decodeTableWord 32 0x02010120 = some (.addLi 1 (.v 1) 0x20) ∧
  decodeTableWord 32 0xA6000000 = some .exit ∧
  decodeTableWord 32 0xB71C9000 = some (.launchAt 7 9) ∧
  decodeTableWord 32 0xE0105187 = some (.mma 4 5 6 7) ∧
  decodeTableWord 32 0x7A08029B = some (.atomCas 8 2 .dev .ar) ∧
  decodeTableWord 32 0xC120C340 = some (.barInit 8 12 13) ∧
  decodeTableWord 32 0x1A050309 = none

/-! ## Teams, launches and contexts -/

/-- R68, R262, R265 to R267, R136: TEAM_RETIRE, once the team's last crew has retired and its commands have completed, counts the team, releases its tiles and frees its
scratchpad and barrier entries unless HOLD, a child with DV = 1 or a squad-window access under way keeps them. GRID_RETIRE, once the teams and the children of a grid have retired, writes its
STATUS, once its home slice may take it, and posts its interrupt. LAUNCH_AT_DUE makes a held launch pending at its time. DISTRIBUTOR_PASS places a team of a pending grid at the first free address of the
first core that takes it, its crew in the row with the most room, with s0 = ARGS, every other register zero and one split of all lanes at ENTRY. -/
def Obligations.TeamsAndLaunches : Prop :=
  ∀ s : State,
    (∀ lid tid l x, s.launch? lid = some l → s.team? lid tid = some x → x.phase = .resident → x.crewsLeft = 0 →
      (∀ c ∈ s.crews, ¬ (c.lid = lid ∧ c.team = tid)) → (∀ q ∈ s.copies, ¬ (q.lid = lid ∧ q.team = tid)) →
      (∀ q ∈ s.mats, ¬ (q.lid = lid ∧ q.team = tid)) → s.orphans (fun core asid => core == x.core && asid == l.asid) = false →
      ∃ (t : State) (m : Launch), Happens s (.teamRetire lid tid) t ∧ t.launch? lid = some m ∧ m.retired = l.retired + 1 ∧ m.record = l.record ∧
        m.phase = (if l.record.teams ≤ l.retired + 1 then .draining else l.phase) ∧
        t.tiles = s.tiles.filter (fun y => !(y.lid == lid && y.team == tid)) ∧ t.mem = s.mem ∧
        (l.record.hold = false → (∀ k ∈ s.launches, ¬ (k.parent = some lid ∧ k.ptid = tid ∧ k.record.done ≠ none)) →
          (∀ c ∈ s.crews, c.lid = lid → ∀ q ∈ c.loads, q.space ≠ .squad) → (∀ h ∈ s.held, ¬ (h.lid = lid ∧ h.team = tid)) →
          t.team? lid tid = none ∧ ∀ b ∈ t.bars, ¬ (b.lid = lid ∧ b.team = tid)) ∧
        ((∃ k ∈ s.launches, k.parent = some lid ∧ k.ptid = tid ∧ k.record.done ≠ none) →
          t.team? lid tid = some { x with phase := .retiredKept })) ∧
    (∀ lid l pa, s.launch? lid = some l → l.isField = false → l.status = some pa → l.phase = .placed ∨ l.phase = .draining →
      l.record.teams ≤ l.retired → l.record.teams ≤ l.nextTeam → (∀ k ∈ s.launches, k.parent ≠ some lid) →
      (∀ c ∈ s.crews, c.lid ≠ lid) → (∀ q ∈ s.copies, q.lid ≠ lid) → (∀ q ∈ s.mats, q.lid ≠ lid) → s.doneReady l = true →
      l.mute = false → s.statusOk (s.deviceCore l.asid) l.asid pa.toNat = true →
      ∃ (t : State), Happens s (.gridRetire lid) t ∧ t.launch? lid = none ∧ (∀ tid, t.team? lid tid = none) ∧
        t.readNat pa.toNat 4 = (if l.cut then 4 else 2) ∧
        MemoryStandsBut s t (fun a => pa.toNat ≤ a ∧ a < pa.toNat + 4) ∧
        (∀ y, s.context? l.asid = some y → l.record.notify = true → y.irqaddr ≠ 0 → ∃ q, t.fab.strict = s.fab.strict ++ [q] ∧
          q.msg = ⟨y.irqaddr, y.irqkey, leBytes 4 ((if l.cut then 4 else 1) * 2 ^ 28 + l.gid.toNat % 2 ^ 28), []⟩) ∧
        (l.record.notify = false → t.fab.strict = s.fab.strict)) ∧
    (∀ lid l w, s.launch? lid = some l → l.phase = .held w → w.toNat ≤ s.ftime.toNat →
      ∃ (t : State), Happens s (.launchAtDue lid) t ∧ t.launch? lid = some { l with phase := .pending } ∧ CrewsStand s t ∧
        t = { s with crews := t.crews, launches := t.launches }) ∧
    (∀ part l n core rest cores base row, s.pendingIn part = [l] → s.launch? l.lid = some l → l.isField = false → l.record.cores = false →
      l.record.squad = 1 → l.record.crews = 1 → l.nextTeam = n → n < l.record.teams → s.dieOrder (s.part part) = [cores] →
      s.coreOrder cores = core :: rest → s.firstFit core l.record.scratch = some base → s.admits core l.asid = true →
      s.modeFits core l.record.fuseL1 = true → (s.bars.filter (·.core == core)).length < 256 → s.pickRow core l.record.frame = some row →
      s.team? l.lid n = none → s.crew? s.nextId = none →
      ∃ (t : State) (m : Launch) (x : Team) (c : Crew) (p : Split), Happens s (.distributorPass part) t ∧ t.launch? l.lid = some m ∧ n < m.nextTeam ∧
        t.team? l.lid n = some x ∧ x.core = core ∧ x.base = base ∧ x.size = l.record.scratch ∧ x.scratch = [] ∧ x.crewsLeft = 1 ∧
        t.crew? s.nextId = some c ∧ c.lid = l.lid ∧ c.team = n ∧ c.crewNo = 0 ∧ c.asid = l.asid ∧ c.core = core ∧ c.row = row ∧
        (∀ k, c.u k = if k = 0 then l.record.args else 0) ∧ (∀ i k, c.vAbs i k = 0) ∧ c.fpmode = 0 ∧ c.fpflags = 0 ∧ c.cpol = 0 ∧
        c.wb = 0 ∧ c.depth = 0 ∧ c.exited = 0 ∧ c.splits = [p] ∧ p.mask = BitVec.allOnes 32 ∧ p.pc = l.record.entry ∧ p.ad = 0 ∧
        p.stack = [] ∧ p.status = .ready ∧ (s.nextId, p.sid) ∈ t.age)

/-- R268, R352, R353, R355: CONTEXT_SWITCH_OUT begins a switch, and ends it once no crew of the context is on a core: its fields wait for placement and its
translations are dropped. CONTEXT_SWITCH_IN makes a runnable context resident where its partition has room. PREEMPT takes a team whose work has settled off its core and keeps what its
marks pin; TEAM_RESUME, stated for a team of one crew in a squad of one, puts it on a core with every split at its mark record, the crew's modes being those of the
mark that was taken last and the lanes those of its record, also such as have exited since (log entry 27); where splits have a recipe the one with the oldest mark runs its own first, with s63 at its record's PC, and the others wait. A
runnable context begins to go out only after 1 ms of residence, and a row takes a resumed crew only where its split table has room for every split (log
entries 45, 52). -/
def Obligations.ContextSwitches : Prop :=
  ∀ s : State,
    (∀ asid x, s.context? asid = some x → x.resident = true → x.stopping = false →
      (x.switching = false → s.runnable asid = false ∨ x.since + 1000 < s.micros → ∃ (t : State), Happens s (.contextSwitchOut asid) t ∧ t.context? asid = some { x with switching := true, since := s.micros } ∧
        CrewsStand s t ∧ t = { s with crews := t.crews, contexts := t.contexts }) ∧
      (x.switching = true → (∀ c ∈ s.crews, c.asid ≠ asid) →
        (∀ u ∈ s.teams, u.holds = true → ∀ l, s.launch? u.lid = some l → l.asid ≠ asid) → ∃ (t : State), Happens s (.contextSwitchOut asid) t ∧
        t.context? asid = some { x with resident := false, switching := false, since := s.micros } ∧ CrewsStand s t ∧
        (∀ e ∈ t.tlb, e.asid ≠ asid) ∧
        (∀ l ∈ t.launches, l.asid = asid → l.isField = true → l.phase ≠ .placed) ∧
        t = { s with crews := t.crews, contexts := t.contexts, launches := t.launches, tlb := t.tlb })) ∧
    (∀ asid x, s.context? asid = some x → x.resident = false → s.runnable asid = true →
      s.residents x.part < (s.part x.part).resn → ∃ (t : State), Happens s (.contextSwitchIn asid) t ∧
        t.context? asid = some { x with resident := true, since := s.micros } ∧ CrewsStand s t ∧
        t = { s with crews := t.crews, contexts := t.contexts }) ∧
    (∀ lid tid x, s.team? lid tid = some x → x.phase = .retiredKept ∨ (x.phase = .resident ∧ ∃ c ∈ s.crews, c.lid = lid ∧ c.team = tid) →
      (s.crews.map (·.cid)).Nodup → s.teamBusy lid tid = false → (∀ c ∈ s.crews, c.lid = lid → c.team = tid → s.crewQuiet c = true) →
      ∃ (t : State) (vs : List SavedCrew) (bars : List BarObj) (faults : List FaultRec), Happens s (.preempt lid tid) t ∧ t.team? lid tid = some { x with phase := .saved vs bars faults } ∧
        bars = s.bars.filter (fun b => b.lid == lid && b.team == tid) ∧
        t.bars = s.bars.filter (fun b => !(b.lid == lid && b.team == tid)) ∧
        t.tiles = s.tiles.filter (fun y => !(y.lid == lid && y.team == tid)) ∧ t.mem = s.mem ∧
        (∀ c ∈ s.crews, ¬ (c.lid = lid ∧ c.team = tid) → t.crew? c.cid = some c.untried) ∧
        (∀ c ∈ s.crews, c.lid = lid → c.team = tid → t.crew? c.cid = none ∧
          ∃ v ∈ vs, v.crew.cid = c.cid ∧ v.crew.splits = c.splits ∧ v.crew.fpflags = c.fpflags ∧ v.crew.exited = c.exited ∧
            (∀ p ∈ c.splits, ∀ i ∈ p.mark.lpin, ∀ n, n < 32 → p.mark.mask.getLsbD n = true → sget 0 v.pinnedV (32 * i + n) = c.vAbs n i) ∧
            ∀ p ∈ c.splits, ∀ i ∈ p.mark.upin, sget 0 v.pinnedS i = c.u i)) ∧
    (∀ lid tid l x y v bars faults cores core rest base row, s.launch? lid = some l → s.team? lid tid = some x →
      x.phase = .saved [v] bars faults → l.record.squad = 1 → s.context? l.asid = some y → y.resident = true → y.switching = false →
      s.teams.filter (fun u => u.lid == lid && u.tid == tid) = [x] → s.dieOrder (s.part (s.partOf l.asid)) = [cores] →
      s.coreOrder cores = core :: rest → s.firstFit core x.size = some base → s.admits core l.asid = true →
      s.modeFits core l.record.fuseL1 = true → (s.bars.filter (·.core == core)).length < 256 →
      (∀ b ∈ bars, ∀ k ∈ s.bars, k.core = core → k.idx ≠ b.idx) → s.pickRow core v.crew.frame = some row →
      s.extraSplits core row + v.crew.splits.length ≤ 25 → s.crew? v.crew.cid = none → (v.crew.splits.map (·.sid)).Nodup →
      v.crew.splits.Pairwise (fun p q => p.mark.mask &&& q.mark.mask = 0) →
      let last (p : Split) : Prop := p ∈ v.crew.splits ∧ ∀ q ∈ v.crew.splits, q.sid ≠ p.sid → q.mark.seq < p.mark.seq
      let first (p : Split) : Prop := p ∈ v.crew.splits ∧ p.mark.recipe ≠ 0 ∧
        ∀ q ∈ v.crew.splits, q.sid ≠ p.sid → q.mark.recipe ≠ 0 → p.mark.seq < q.mark.seq
      let plain : Prop := ∀ p ∈ v.crew.splits, p.mark.recipe = 0
      ∃ (t : State) (c : Crew), Happens s (.teamResume lid tid) t ∧ t.team? lid tid = some { x with core := core, base := base, phase := .resident } ∧
        (∀ b ∈ bars, { b with core := core } ∈ t.bars) ∧ t.crew? v.crew.cid = some c ∧ c.core = core ∧ c.row = row ∧
        (∀ p, last p → c.wb = p.mark.wb ∧ c.depth = p.mark.depth ∧ c.fpmode = p.mark.fpmode ∧ c.cpol = p.mark.cpol) ∧
        c.fpflags = v.crew.fpflags ∧ c.splits.map (·.sid) = v.crew.splits.map (·.sid) ∧
        (∀ p ∈ v.crew.splits, ∃ q, c.split? p.sid = some q ∧ q.mask = p.mark.mask ∧
          q.pc = (if p.mark.recipe = 0 then p.mark.pc else p.mark.recipe) ∧ q.ad = p.mark.ctl.ad ∧ q.stack = p.mark.ctl.stack ∧
          q.fb = p.mark.ctl.fb ∧ q.handler = none ∧ q.recipe = (p.mark.recipe != 0) ∧ q.mark = p.mark ∧
          (plain ∨ first p → q.status = .ready ∧ (c.cid, q.sid) ∈ t.age) ∧ (¬ plain → ¬ first p → (∃ o, first o) → q.status = .recipeWait) ∧
          ∀ n, n < 32 → p.mark.mask.getLsbD n = true → c.ncOf n = (sget 0 p.mark.ctl.nc n).toNat) ∧
        (∀ i n, c.vAbs n i = sget 0 v.pinnedV (32 * i + n)) ∧
        (∀ p, (plain ∧ last p) ∨ first p → c.u 63 = p.mark.pc) ∧ (∀ n, 0 < n → n < 63 → c.u n = sget 0 v.pinnedS n) ∧
        ((∃ p ∈ v.crew.splits, 0 ∈ p.mark.upin) → c.u 0 = sget 0 v.pinnedS 0) ∧
        ((∀ p ∈ v.crew.splits, 0 ∉ p.mark.upin) → c.u 0 = v.crew.args))

/-! ## The engines at work -/

/-- R118, R120, R121, R126 to R130: the matrix engine of a core runs its oldest command, and waits while a word that the command has yet to read is pending for an earlier
one. MMA adds a chunk to every word of its tile, ACC.ZERO clears it, ACC.LD puts the image in
it; ACC.ST writes its converted words to the scratchpad, behind what was registered there before, and ACC.RED sends one addition for each of its 4,096 words to the slice
adders; those two deliver their bytes when they are complete. No other tile, no register and no byte of memory changes. (The tiles of a field's team of which
no host is left on the core are free once its commands are over: R68, R117, log entry 24.) -/
def Obligations.MatrixEngine : Prop :=
  ∀ (s : State) (core : Nat),
    let leaves (t : State) (q : MatCmd) : Prop := t.mats = s.mats.filter (·.seq != q.seq) ∧ t.mem = s.mem
    (∀ q x, s.matHead core = some q → s.tile? q.core q.asid q.tile = some x →
      (∀ l, s.launch? q.lid = some l → l.isField = true → ∃ c ∈ s.crews, c.core = q.core ∧ c.lid = q.lid ∧ c.team = q.team) →
      let writes (t : State) (word : Nat → Word) (bad : Nat → Prop) : Prop :=
        CrewsStand s t ∧ t.teams = s.teams ∧
        (∃ y, t.tile? q.core q.asid q.tile = some y ∧ y.lid = x.lid ∧ y.team = x.team ∧
          ∀ k, k < 4096 → sget 0 y.words k = word k ∧ (k ∈ y.poison ↔ bad k)) ∧
        ∀ c a n, ¬ (c = q.core ∧ a = q.asid ∧ n = q.tile) → t.tile? c a n = s.tile? c a n
      (∀ fb a b ha hb badA badB, q.op = .mma fb a b ha hb badA badB → ∃ (t : State), Happens s (.mmaExec core) t ∧ leaves t q ∧
        writes t (fun k => mmaWord fb a b ha hb (sget 0 x.words k) (k / 64) (k % 64))
          (fun k => k ∈ x.poison ∨ k / 64 ∈ badA ∨ k % 64 ∈ badB)) ∧
      (q.op = .zero → ∃ (t : State), Happens s (.accZeroExec core) t ∧ leaves t q ∧ writes t (fun _ => 0) (fun _ => False)) ∧
      (∀ image bad, q.op = .ld image bad → ∃ (t : State), Happens s (.accLdExec core) t ∧ leaves t q ∧
        writes t (fun k => BitVec.ofNat 32 (leNat ((image.drop (4 * k)).take 4))) (fun k => k ∈ bad)) ∧
      (∀ ctl dst sc hdr team, q.op = .st ctl dst sc hdr → s.team? q.lid q.team = some team →
        let bs := storeBytes (ctl / 16 % 8) (ctl / 256 % 8) x sc
        hdr + bs.2.length ≤ dst ∨ dst + bs.1.length ≤ hdr →
        let early : State := { s with
          copies := s.copies.filter fun k => decide (k.seq < q.seq), mats := s.mats.filter fun k => decide (k.seq < q.seq) }
        (∀ r ∈ q.spans, early.scratchPending q.lid q.team r.1 r.2 = false ∧ early.scratchUnread q.lid q.team r.1 r.2 = false) →
        ∃ (t : State), Happens s (.accStExec core) t ∧ t.tiles = s.tiles ∧ t.mem = s.mem ∧ CrewsStand s t ∧
          t.scratchRead q.lid q.team dst bs.1.length = bs.1 ∧ t.scratchRead q.lid q.team hdr bs.2.length = bs.2 ∧
          (∀ a, ¬ (dst ≤ a ∧ a < dst + bs.1.length) → ¬ (hdr ≤ a ∧ a < hdr + bs.2.length) →
            t.scratchRead q.lid q.team a 1 = s.scratchRead q.lid q.team a 1) ∧
          ∀ k ∈ t.mats, k.seq = q.seq → k.ran = true ∧ k.spans = []) ∧
      (∀ op rows, q.op = .red op rows → rows.length = 64 → ∃ (t : State) (new : List AddReq), Happens s (.accRedExec core) t ∧ t.tiles = s.tiles ∧ t.mem = s.mem ∧
        CrewsStand s t ∧ t.adds = s.adds ++ new ∧ new.length = 4096 ∧
        (∀ k, k < 4096 → ∃ r ∈ new, r.addr = rows.getD (k / 64) 0 + 4 * (k % 64) ∧ r.op = op ∧ r.job = some q.seq ∧
          r.x = (sget 0 x.words k).zeroExtend 64 ∧ (r.poison = true ↔ k ∈ x.poison)) ∧
        ∀ k ∈ t.mats, k.seq = q.seq → k.ran = true)) ∧
    (∀ q, s.mats.find? (fun k => k.core == core && !k.ran) = some q → s.readsPending q = true →
      Happens s (.mmaExec core) s ∧ Happens s (.accZeroExec core) s ∧ Happens s (.accLdExec core) s ∧ Happens s (.accStExec core) s ∧
        Happens s (.accRedExec core) s) ∧
    (∀ q ctl dst sc hdr, s.mats.find? (fun k => k.core == core && k.ran && (match k.op with | .st _ _ _ _ => true | _ => false)) = some q →
      q.op = .st ctl dst sc hdr → ∃ (t : State), Happens s (.accStComplete core) t ∧ leaves t q ∧
        Delivered s t q.core q.lid q.team q.handle
          (stBytes (ctl / 16 % 8) (ctl / 256 % 8) + if ctl / 16 % 8 = 4 then 512 else 0)) ∧
    (∀ q, s.mats.find? (fun k => k.core == core && k.ran && (match k.op with | .red _ _ => true | _ => false) &&
        s.adds.all fun a => a.job != some k.seq) = some q →
      ∃ (t : State), Happens s (.accRedComplete core) t ∧ leaves t q ∧ Delivered s t q.core q.lid q.team q.handle 16384)

/-- R145, R185 to R188, R193, R194, R210, R212, R368: the home slices acknowledge the registration of a copy's destination words, those of one core in
the order of their issue: no L1 holds them any more, and no core owns their sectors, which are the adder's for a reduction (R152). COPY_DISPATCH gives the
oldest queued command of a core, once registered, the lowest free engine that its partition holds on the core's die, CP_AT_DISPATCH a timed one whose time has
come; the additions of a CP.RED go to the slice adders; of another command the engine then owns the destination sectors that nobody owns (log entry 28). A
running command reads the words of a source line that it had yet to read together, for a token, and writes words of one source line and one destination line
together, for a token and a route, none of them held by an earlier command (log entry 16); WSEQ of a line advances once for the command.
COPY_COMPLETE lands what can land, and with no word and no addition left delivers the command's bytes. No engine works while the device is too hot. -/
def Obligations.CopyEngines : Prop :=
  ∀ s : State, s.svc.hot = false →
    let source (q : CopyCmd) (x : CopyPiece) : List Byte × Bool :=
      if x.late then s.sourceWord q.core q.lid x.sspace false (x.steam, x.saddr) else (x.data, x.poison)
    let running (q : CopyCmd) : Prop :=
      s.copies.find? (fun k => k.seq == q.seq && (match k.phase with | .running _ _ => true | _ => false)) = some q
    let untouched (words : List Nat) (core : Nat) : Prop := ∀ r ∈ s.regs, r.ahead core = true → ∀ w ∈ wordsOf r.bytes, w ∉ words
    let starts (t : State) (q : CopyCmd) (e : Nat) : Prop :=
      CrewsStand s t ∧ t.mem = s.mem ∧ t.teams = s.teams ∧
      (∀ k ∈ s.copies, k.seq ≠ q.seq → k ∈ t.copies) ∧
      (∃ k ∈ t.copies, k.seq = q.seq ∧ k.phase = .running (q.core / 72) e ∧ (q.red = none → k.pieces = q.pieces)) ∧
      (q.red = none → t.adds = s.adds ∧ ∀ sec, t.ownerOf sec =
        if sec ∈ sectorsOf q.pieces ∧ s.ownerOf sec = noOwner then engineOwner (q.core / 72) e else s.ownerOf sec) ∧
      (∀ o, q.red = some o → ∃ new, t.adds = s.adds ++ new ∧ new.length = q.pieces.length ∧
        ∀ x ∈ q.pieces, ∃ r ∈ new, r.addr = x.addr ∧ r.op = o ∧ r.job = some q.seq ∧ r.x = BitVec.ofNat 64 (leNat (source q x).1) ∧
          r.poison = (source q x).2)
    let free (q : CopyCmd) (e : Nat) : Prop :=
      q.registered = true ∧ (q.red ≠ none → ∀ x ∈ q.pieces, s.sourceReady q x = true) ∧
      e < 24 ∧ (sget 0 (s.part (s.partOf q.asid)).eng (q.core / 72)).getLsbD e = true ∧
      (∀ k ∈ s.copies, k.phase ≠ .running (q.core / 72) e) ∧
      ∀ d, d < e → (sget 0 (s.part (s.partOf q.asid)).eng (q.core / 72)).getLsbD d = true →
        ∃ k ∈ s.copies, k.phase = .running (q.core / 72) d
    (∀ q, s.copies.find? (·.seq == q.seq) = some q → q.registered = false →
      (∀ k ∈ s.copies, k.registered = true ∨ k.core ≠ q.core ∨ q.seq ≤ k.seq) →
      ∃ (t : State), s.registerCopy q.seq = some t ∧ t.mem = s.mem ∧ t.crews = s.crews ∧ (∀ k ∈ t.copies, k.seq = q.seq → k.registered = true) ∧
        ∀ x ∈ q.pieces, x.space = .global → (∀ w ∈ t.l1, w.addr ≠ x.addr / 4) ∧ t.ownerOf (x.addr / 64) =
          if q.red ≠ none then 0x3FE else if s.ownerOf (x.addr / 64) < 288 then noOwner else s.ownerOf (x.addr / 64)) ∧
    (∀ core q e, s.copies.find? (fun k => k.core == core && k.phase == .queued) = some q → free q e →
      ∃ (t : State), Happens s (.copyDispatch core) t ∧ starts t q e) ∧
    (∀ core q e w, s.copies.find? (fun k => k.core == core && k.seq == q.seq) = some q → q.phase = .timed w →
      w.toNat ≤ s.ftime.toNat → free q e → ∃ (t : State), Happens s (.cpAtDispatch core q.seq) t ∧ starts t q e) ∧
    (∀ q line x, running q → q.pieces.find? (fun y => y.space != .global || lineOf y.addr == line) = some x → (∀ l ∈ x.srcLine, l ∈ q.read) →
      let group := q.pieces.filter x.together
      let first := x.space = .global ∧ lineOf x.addr ∉ q.wrote
      (first → s.mayReach (sliceOf q.core x.addr) q.core q.asid x.addr true true = true) →
      (∀ y ∈ group, s.sooner q.lid q.seq y = false ∧ s.sourceReady q y = true) →
      (x.space = .global → untouched (group.map (·.addr / 4)) q.core ∧
        s.mayRevoke (sliceOf q.core x.addr) noOwner (group.map (·.addr / 4)) = true) →
      ∃ (t : State) (k : CopyCmd), s.land q.seq line = some t ∧ k ∈ t.copies ∧ k.seq = q.seq ∧ k.pieces = q.pieces.filter (fun y => !x.together y) ∧ k.phase = q.phase ∧
        RegistersStand s t ∧
        (x.space = .global → t.teams = s.teams ∧ MemoryStandsBut s t (fun a => ∃ y ∈ group, y.addr ≤ a ∧ a < y.addr + (source q y).1.length) ∧
          (group.Pairwise (fun y z => y.addr + (source q y).1.length ≤ z.addr ∨ z.addr + (source q z).1.length ≤ y.addr) →
            ∀ y ∈ group, ∀ i, i < (source q y).1.length → t.readByte (y.addr + i) = (source q y).1.getD i 0) ∧
          sget 0 t.wseq (lineOf x.addr) = sget 0 s.wseq (lineOf x.addr) + (if lineOf x.addr ∈ q.wrote then 0 else 1)) ∧
        (x.space ≠ .global → t.mem = s.mem ∧ t.wseq = s.wseq ∧
          ((∀ y ∈ group, (s.team? q.lid y.team).isSome = true) →
            group.Pairwise (fun y z => y.team ≠ z.team ∨ y.addr + (source q y).1.length ≤ z.addr ∨ z.addr + (source q z).1.length ≤ y.addr) →
            ∀ y ∈ group, t.scratchRead q.lid y.team y.addr (source q y).1.length = (source q y).1))) ∧
    (∀ q line x l, running q → q.pieces.find? (fun y => y.space != .global || lineOf y.addr == line) = some x → x.srcLine = some l → l ∉ q.read →
      s.mayReach (sliceOf q.core (256 * l)) q.core q.asid (256 * l) false false = true →
      (∀ y ∈ q.pieces, y.srcLine = some l → s.sourceReady q y = true) →
      ∃ (t : State), s.land q.seq line = some t ∧ t.mem = s.mem ∧ t.teams = s.teams ∧ t.crews = s.crews ∧
        t.copies = s.copies.map (fun k => if k.seq = q.seq then
          { q with
            read := l :: q.read
            pieces := q.pieces.map fun y => if y.srcLine = some l then
              { y with late := false, data := (source q y).1, poison := (source q y).2 } else y }
          else k)) ∧
    (∀ die e q, s.copies.find? (·.phase == .running die e) = some q → (∀ k ∈ s.copies, k.seq = q.seq → k.pieces = []) →
      (∀ a ∈ s.adds, a.job ≠ some q.seq) →
      ∃ (t : State), Happens s (.copyComplete die e) t ∧ t.copies = s.copies.filter (·.seq != q.seq) ∧ t.mem = s.mem ∧
        Delivered s t q.core q.lid q.team q.handle q.bytes) ∧
    (∀ die e q x, s.copies.find? (·.phase == .running die e) = some q → s.copies.filter (·.seq == q.seq) = [q] → q.pieces = [x] →
      (∀ l ∈ x.srcLine, l ∈ q.read) → x.late = false →
      (x.space = .global ∧ lineOf x.addr ∉ q.wrote → s.mayReach (sliceOf q.core x.addr) q.core q.asid x.addr true true = true) →
      s.sooner q.lid q.seq x = false → (x.space = .global → untouched [x.addr / 4] q.core ∧
        s.mayRevoke (sliceOf q.core x.addr) noOwner [x.addr / 4] = true) →
      (∀ a ∈ s.adds, a.job ≠ some q.seq) →
      ∃ (t : State), Happens s (.copyComplete die e) t ∧ t.copies = s.copies.filter (·.seq != q.seq) ∧
        (x.space = .global → MemoryStandsBut s t (fun a => x.addr ≤ a ∧ a < x.addr + x.data.length) ∧
          (∀ i, i < x.data.length → t.readByte (x.addr + i) = x.data.getD i 0) ∧ Delivered s t q.core q.lid q.team q.handle q.bytes) ∧
        (x.space ≠ .global → t.mem = s.mem ∧
          ((s.team? q.lid x.team).isSome = true → s.handleObj q.core q.lid q.team (BitVec.ofNat 64 q.handle) = none →
            t.scratchRead q.lid x.team x.addr x.data.length = x.data)))

/-! ## Stores, additions and loads on their way -/

/-- R144, R146, R187, R198, R205, R209, R212, R334, R335: STORE_TRANSLATE takes the oldest store of a split, once the stores that precede
it have left: the translated bytes of a global store are sent to the home slices, one piece a line, a RED sends one addition a lane, a
lane that does not translate leaves a record and makes STFAULT due on every split of which the store is an earlier one (log entry 31); a
scratchpad or squad-window store sends its writes to their banks. FAULT_QUEUE_ADMIT lets a held record in. A piece may be performed in the
core's L1 before it registers, where only its core reads it. STORE_REGISTRATION grants the sectors to the core and writes the bytes, or,
where the core owns them, writes them with no event at the home slice; while an engine or an adder owns one of them the home slice writes
them and that owner stays (log entry 28). REGISTRATION_ACK acknowledges; HELD_WRITE_PERFORM performs a write at its bank, that of a
BAR.INIT with its effect on the object. -/
def Obligations.StorePath : Prop :=
  ∀ s : State,
    (∀ cid sid c p q rest, s.crew? cid = some c → c.split? sid = some p → p.stores = q :: rest →
      (∀ r ∈ c.splits, ∀ x ∈ r.stores, precedes q.anc q.sid q.seq x.sid x.seq = false) →
      let pops (t : State) (due : Split → List (Nat × Trap)) : Prop := ∃ c', t.crew? cid = some c' ∧ c'.vregs = c.vregs ∧ c'.sregs = c.sregs ∧
        ∀ n r, c.split? n = some r → ∃ r', c'.split? n = some r' ∧ r'.pc = r.pc ∧ r'.due = due r ∧
          r'.stores = if n = sid then rest else r.stores
      (∀ pa : LaneStore → Nat, q.space = .global → (∀ a ∈ q.lanes, s.translate c.core c.asid a.addr .write = .ok (pa a)) →
        (q.red = none → ∃ (t : State) (new : List RegReq), Happens s (.storeTranslate cid sid) t ∧ pops t Split.due ∧ t.mem = s.mem ∧ t.regs = s.regs ++ new ∧
          (∀ r ∈ new, r.cid = cid ∧ r.sid = q.sid ∧ r.core = c.core ∧ r.asid = c.asid ∧ r.seq = q.seq ∧ r.anc = q.anc ∧ r.inL1 = false ∧ r.rel = q.rel ∧
            ∀ b, b ∈ r.bytes ↔ lineOf b.1 = r.line ∧ ∃ a ∈ q.lanes, ∃ i, i < a.data.length ∧ b = (pa a + i, a.data.getD i 0)) ∧
          (new.map (·.line)).Nodup ∧ ∀ a ∈ q.lanes, ∀ i, i < a.data.length → ∃ r ∈ new, r.line = lineOf (pa a + i)) ∧
        (∀ o, q.red = some o → ∃ (t : State) (new : List AddReq), Happens s (.storeTranslate cid sid) t ∧ pops t Split.due ∧ t.mem = s.mem ∧ t.adds = s.adds ++ new ∧
          new.length = q.lanes.length ∧ ∀ a ∈ q.lanes, ∃ r ∈ new, r.addr = pa a ∧ r.op = o ∧ r.wide = o.wide ∧ r.ret = none ∧ r.rel = q.rel ∧
            r.x = BitVec.ofNat 64 (leNat a.data) ∧ (r.poison = true ↔ a.lane ∈ q.bad))) ∧
      (∀ a r, q.space = .global → q.lanes = [a] → s.translate c.core c.asid a.addr .write = .error r →
        ∃ (t : State) (f : FaultRec), Happens s (.storeTranslate cid sid) t ∧
          pops t (fun (r' : Split) => if r'.follows q.sid q.seq = false ∨ r'.due.any (fun d => d.1 == q.seq && d.2.cause == .stfault) = true then r'.due
            else r'.due ++ [(q.seq, ⟨.stfault, 0, a.addr, BitVec.ofNat 64 (r.code + 256)⟩)]) ∧
          t.mem = s.mem ∧ t.regs = s.regs ∧ t.faultq = s.faultq ++ [f] ∧ f.core = c.core ∧ f.cid = c.cid ∧ f.sid = sid ∧
          f.va = a.addr ∧ f.reason = r.code ∧ f.lane = a.lane ∧ f.size = q.size ∧ f.word = q.word ∧
          f.data0 = BitVec.ofNat 64 (leNat (a.data.take 8)) ∧ f.data1 = BitVec.ofNat 64 (leNat (a.data.drop 8)) ∧
          (∀ n, n < 32 → (f.mask.getLsbD n = true ↔ q.uniform = false ∧ n = a.lane)) ∧
          (f.held = true ↔ 64 ≤ (s.faultq.filter fun g => g.core == c.core && !g.held).length)) ∧
      (q.space ≠ .global → (q.space = .squad → checkSquad s c p.pc (q.lanes.map fun a => (a.lane, a.addr)) = .ok ()) →
        let team (a : LaneStore) := if q.space = .squad then s.squadTeam c a.addr else c.team
        let off (a : LaneStore) := if q.space = .squad then a.addr.toNat % 0x100000 else a.addr.toNat
        ∃ (t : State) (new : List HeldWrite), Happens s (.storeTranslate cid sid) t ∧ pops t Split.due ∧ t.teams = s.teams ∧ t.mem = s.mem ∧ t.held = s.held ++ new ∧
          (∀ h ∈ new, h.lid = c.lid ∧ h.cid = cid ∧ h.sid = q.sid ∧ h.seq = q.seq ∧ h.anc = q.anc ∧ h.bar = none ∧
            ∀ b ∈ h.bytes, ∃ a ∈ q.lanes, h.team = team a ∧ ∃ i, i < a.data.length ∧ b = (off a + i, a.data.getD i 0)) ∧
          ∀ a ∈ q.lanes, ∃ h ∈ new, h.team = team a ∧ ∀ i, i < a.data.length → (off a + i, a.data.getD i 0) ∈ h.bytes) ∧
      (∀ k, q.space = .squad → checkSquad s c p.pc (q.lanes.map fun a => (a.lane, a.addr)) = .error (.trap k) →
        ∃ (t : State), Happens s (.storeTranslate cid sid) t ∧ pops t (fun (r : Split) => if r.sid = sid then r.due ++ [(q.seq, k)] else r.due) ∧
          t.teams = s.teams ∧ t.held = s.held)) ∧
    (∀ core f, s.faultq.find? (fun f => f.core == core && f.held) = some f →
      (s.faultq.filter fun g => g.core == core && !g.held).length < 64 →
      ∃ (t : State), Happens s (.faultQueueAdmit core) t ∧ CrewsStand s t ∧
        t.faultq = s.faultq.map (fun g => if g = f then { g with held := false } else g)) ∧
    (∀ id q, s.regs.find? (·.id == id) = some q → (∀ b ∈ q.bytes, lineOf b.1 = q.line) →
      let me := s.l1Core q.core (256 * q.line)
      let written (t : State) : Prop := MemoryStandsBut s t (fun a => ∃ b ∈ q.bytes, b.1 = a) ∧ RegistersStand s t ∧
        ((q.bytes.map (·.1)).Nodup → ∀ b ∈ q.bytes, t.readByte b.1 = b.2) ∧
        ∀ c ∈ t.crews, ∀ r ∈ c.resv, ∀ b ∈ q.bytes, r.word ≠ b.1 / 4
      let owned (t : State) : Prop := ∀ b ∈ q.bytes, t.ownerOf (b.1 / 64) = me ∧
        ∃ x ∈ t.l1, x.core = me ∧ x.addr = b.1 / 4 ∧ x.st = .ownedDirty ∧ x.data = t.readBytes (4 * (b.1 / 4)) 4
      let rest := s.regs.erase q
      let last : State := if q.inL1 = true then s else { s with regs := rest ++ [q] }
      ((if q.inL1 = true then s.pieceHeld q = false else s.pieceReady q = true) → last.pieceBehind q = false →
        (s.ownsAll q.core q.bytes = true →
          ∃ (t : State), Happens s (.storeRegistration id) t ∧ written t ∧ owned t ∧ t.regs = rest ∧ t.acks = s.acks ∧ t.wseq = s.wseq) ∧
        (s.ownsAll q.core q.bytes = false → s.mayReach (sliceOf q.core (256 * q.line)) q.core q.asid (256 * q.line) true false = true →
          s.mayRevoke (sliceOf q.core (256 * q.line)) me (wordsOf q.bytes) = true →
          ∃ (t : State), Happens s (.storeRegistration id) t ∧ written t ∧ t.regs = rest ∧ t.acks = s.acks ++ [(q.core, q.asid)] ∧
            sget 0 t.wseq q.line = sget 0 s.wseq q.line + 1 ∧
            ((∀ b ∈ q.bytes, s.engineOwned (b.1 / 64) = false) → owned t) ∧
            ∀ b ∈ q.bytes, s.engineOwned (b.1 / 64) = true → t.ownerOf (b.1 / 64) = s.ownerOf (b.1 / 64))) ∧
      (q.inL1 = false → s.pieceReady q = true →
        (s.ownsAll q.core q.bytes = true → State.pieceBehind { s with regs := rest ++ [q] } q = false →
          ∃ (t : State), s.performPiece id = some t ∧ written t ∧ owned t ∧ t.regs = rest ∧ t.acks = s.acks ∧ t.wseq = s.wseq) ∧
        (s.ownsAll q.core q.bytes = false →
          s.performPiece id = some { s with regs := rest ++ [{ q with inL1 := true }] }))) ∧
    (∀ core asid, (core, asid) ∈ s.acks → ∃ (t : State), Happens s (.registrationAck core asid) t ∧ CrewsStand s t ∧
      t = { s with crews := t.crews, acks := s.acks.erase (core, asid) }) ∧
    (∀ id h, s.held.find? (·.id == id) = some h → s.heldReady h = true →
      ((∀ core idx gen sq a b, h.bar ≠ some (.init core idx gen sq a b)) → (s.team? h.lid h.team).isSome = true → (h.bytes.map (·.1)).Nodup →
        ∃ (t : State), Happens s (.heldWritePerform id) t ∧ t.held = s.held.erase h ∧ t.mem = s.mem ∧ CrewsStand s t ∧
          (∀ b ∈ h.bytes, t.scratchRead h.lid h.team b.1 1 = [b.2]) ∧
          ∀ lid tid a, ¬ (lid = h.lid ∧ tid = h.team ∧ ∃ b ∈ h.bytes, b.1 = a) → t.scratchRead lid tid a 1 = s.scratchRead lid tid a 1) ∧
      (∀ core idx gen sq a b o, h.bar = some (.init core idx gen sq a b) → s.bar? core idx = some o → o.gen = gen → (s.team? o.lid o.team).isSome = true →
        ∃ (t : State), Happens s (.heldWritePerform id) t ∧ t.held = s.held.erase h ∧ t.mem = s.mem ∧ CrewsStand s t ∧
          t.bar? core idx = some { o with squad := sq, baseA := a, baseB := b, far := false } ∧ t.phaseOf o = s.phaseOf o ∧
          t.barField o 0 2 = a % 2 ^ 16 ∧ t.barField o 2 2 = 0 ∧ t.barField o 4 4 = b % 2 ^ 32 ∧ t.barField o 8 4 = 0))

/-- R29, R53, R145, R152, R160, R166, R168 to R172, R212, R309, R346, R351, Table 21.8: SLICE_ADDER_OP performs one addition: the word takes
the operation's result, WSEQ advances, the core's L1 keeps no copy of it, and an atomic's lane takes the results; a poisoned word keeps its
poison and an atomic on it is not performed (log entry 29). The lanes of an STC on one line take effect together (log entry 13): each wins
where its reservation stands, and ends it. The last result of an instruction completes its mark (log entry 56). LOAD_DATA_ARRIVAL reads the
lanes of one piece of a load at one moment (log entry 13); the last piece writes the destination registers, and what reaches a register
that stands in the spill area only is written there. A load that is its split's last instruction raises POISON for poisoned data, with no
effect; another poisons its registers (log entry 14). -/
def Obligations.AddersAndArrivals : Prop :=
  ∀ s : State,
    let inPlace (c : Crew) (k : Nat) : Prop := k / 32 ∉ c.spilled ∨ k / 32 ∈ c.resident
    let completes (c c' : Crew) (q : AddReq) (left : List AddReq) : Prop :=
      (∀ a ∈ left, ¬ (a.cid = q.cid ∧ a.sid = q.sid ∧ a.seq = q.seq)) → ∀ p, c.split? q.sid = some p → p.mark.seq = q.seq →
        ∃ p', c'.split? q.sid = some p' ∧ s.nextId ≤ p'.mark.seq ∧
          p'.mark = { p.mark with fpmode := c'.fpmode, cpol := c'.cpol, seq := p'.mark.seq }
    (∀ n q, s.adds.find? (·.id == n) = some q → q.op ≠ .stc → s.addBlocked q = false → q.paid = true ∨ s.mayAdd q = true →
      s.mayRevoke (sliceOf q.core q.addr) noOwner q.words = true →
      let size := if q.wide then 8 else 4
      let old : DWord := BitVec.ofNat 64 (s.readNat q.addr size)
      let new := (q.op.apply old q.x q.cmp).toNat % 2 ^ (8 * size)
      let left := (s.adds.erase q).map fun a => if a.oneRequest q then { a with paid := true } else a
      let stands := ∀ r c, q.ret = some r → s.crew? q.cid = some c → ∀ i, i < 4 → inPlace c (r.dst + i)
      (s.poisoned q.addr size = false →
        (stands → ∃ (t : State), Happens s (.sliceAdderOp n) t ∧ t.adds = left ∧ t.readNat q.addr size = new ∧
          MemoryStandsBut s t (fun a => q.addr ≤ a ∧ a < q.addr + size) ∧
          sget 0 t.wseq (lineOf q.addr) = sget 0 s.wseq (lineOf q.addr) + 1 ∧
          (∀ w ∈ t.l1, w.core = s.l1Core q.core q.addr → w.addr ∉ q.words) ∧
          (q.ret = none → RegistersStand s t ∧ (q.poison = true → t.poisoned q.addr size = true)) ∧
          ∀ r c, q.ret = some r → r.lane < 32 → s.crew? q.cid = some c →
            let xs := q.op.results old q.cmp (if r.wseq then some (sget 0 s.wseq (lineOf q.addr) + 1) else none)
            ∃ (c' : Crew), t.crew? q.cid = some c' ∧ c'.sregs = c.sregs ∧ c'.wb = c.wb ∧ completes c c' q left ∧
              (∀ l k, l < 32 → ¬ (l = r.lane ∧ r.dst ≤ k ∧ k < r.dst + xs.length) → c'.vAbs l k = c.vAbs l k) ∧
              ∀ i, i < xs.length → c'.vAbs r.lane (r.dst + i) = xs.getD i 0) ∧
        (∀ r c pa, q.ret = some r → s.crew? q.cid = some c → r.group = 1 → r.wseq = false → r.lane < 32 →
          ¬ inPlace c r.dst → c.spillBase.toNat % 4096 = 0 → inFabric pa = false →
          (s.writePairs (placed q.addr (leBytes size new))).devicePa c.asid (c.spillBase + BitVec.ofNat 64 (128 * r.dst)) .write = some pa →
          q.op.results old q.cmp none = [(q.op.results old q.cmp none).getD 0 0] →
          ∃ (t : State), Happens s (.sliceAdderOp n) t ∧ t.readNat (pa + 4 * r.lane) 4 = ((q.op.results old q.cmp none).getD 0 0).toNat)) ∧
      (s.poisoned q.addr size = true → ∃ (t : State), Happens s (.sliceAdderOp n) t ∧ t.adds = left ∧
        (q.ret = none → t.poisoned q.addr size = true) ∧
        (q.ret ≠ none → stands → t.mem = s.mem ∧ t.mpoison = s.mpoison ∧ sget 0 t.wseq (lineOf q.addr) = sget 0 s.wseq (lineOf q.addr)))) ∧
    (∀ n q c, s.adds.find? (·.id == n) = some q → q.op = .stc → s.crew? q.cid = some c →
      let mine := s.adds.filter fun a => a.oneRequest q
      let left := s.adds.filter fun a => !a.oneRequest q
      (∀ r ∈ c.loads, r.reserve = true → precedes q.anc q.sid q.seq r.sid r.seq = false) →
      (∀ a ∈ mine, State.addBlocked { s with adds := left } a = false) → s.mayAdd q = true →
      s.mayRevoke (sliceOf q.core q.addr) noOwner (mine.flatMap (·.words)) = true →
      (∀ a ∈ mine, a.wide = false ∧ a.addr % 4 = 0 ∧ ∃ r, a.ret = some r ∧ r.lane < 32 ∧ inPlace c r.dst ∧
        ∀ e ∈ c.resv, e.lane = r.lane → e.word = a.addr / 4) →
      (mine.map (·.addr)).Nodup → (mine.map fun a => a.ret.map (·.lane)).Nodup →
      let wins (a : AddReq) : Bool := !s.poisoned a.addr 4 && c.resv.any fun e => a.ret.map (·.lane) == some e.lane && e.va == a.cmp
      ∃ (t : State) (c' : Crew), Happens s (.sliceAdderOp n) t ∧ t.adds = left ∧ t.crew? q.cid = some c' ∧ completes c c' q left ∧
        c'.sregs = c.sregs ∧
        (∀ a ∈ mine, ∀ r, a.ret = some r → c'.vAbs r.lane r.dst = (if wins a then 1 else 0) ∧ (∀ e ∈ c'.resv, e.lane ≠ r.lane) ∧
          (wins a = true → t.readNat a.addr 4 = a.x.toNat % 2 ^ 32)) ∧
        (∀ l k, l < 32 → ¬ (∃ a ∈ mine, ∃ r, a.ret = some r ∧ l = r.lane ∧ k = r.dst) → c'.vAbs l k = c.vAbs l k) ∧
        MemoryStandsBut s t (fun x => ∃ a ∈ mine, wins a = true ∧ a.addr ≤ x ∧ x < a.addr + 4) ∧
        sget 0 t.wseq (lineOf q.addr) = sget 0 s.wseq (lineOf q.addr) + (mine.filter wins).length) ∧
    (∀ cid sid c q, s.crew? cid = some c → (c.loads.filter (·.sid == sid)).find? (fun q => !(s.nextPiece c q).isEmpty) = some q →
      (q.lanes.map (·.lane)).Nodup → (∀ a ∈ q.lanes, a.lane < 32) →
      let piece := s.nextPiece c q
      let clean := !q.reserve && s.cleanHit c.core (pieceWords q piece)
      let got (a : LaneLoad) : List Byte × Bool := if a.got = none then s.readLane c q clean a else a.got.getD ([], false)
      let whole := ∀ a ∈ q.lanes, a.got = none → a ∈ piece
      let traps := q.fresh = true ∧ (∃ p ∈ c.splits, p.sid = sid ∧ p.pc = q.pc + 4 ∧ p.status = .ready) ∧ ∃ a ∈ q.lanes, (got a).2 = true
      ∃ (t : State) (c' : Crew), Happens s (.loadDataArrival cid sid) t ∧ t.crew? cid = some c' ∧ t.teams = s.teams ∧
        (c.spilled = [] → t.mem = s.mem) ∧
        (∀ k d, k ≠ cid → s.crew? k = some d → t.crew? k = some d.untried) ∧ c'.wb = c.wb ∧ c'.fpflags = c.fpflags ∧
        (q.reserve = true → ¬ (whole ∧ traps) → ∀ a ∈ piece, (⟨a.lane, a.va, a.addr / 4⟩ : Resv) ∈ c'.resv) ∧
        (q.reserve = false → c'.resv = c.resv) ∧
        (¬ whole → c'.vregs = c.vregs ∧ c'.sregs = c.sregs ∧ c'.loads.length = c.loads.length) ∧
        (whole → traps → c'.loads = c.loads.erase q ∧ c'.vregs = c.vregs ∧ c'.sregs = c.sregs ∧ c'.vpoison = c.vpoison ∧ t.mem = s.mem ∧
          ∀ p a, c.split? sid = some p → q.lanes.find? (fun a => (got a).2) = some a → ∃ p', c'.split? sid = some p' ∧ p'.pc = p.pc ∧
            p'.due = p.due ++ [(q.seq, ⟨.poison, q.pc, a.va,
              BitVec.ofNat 64 ((if q.space ≠ .global then 2 else if inFabric a.addr then 4 else 3) + 65536 * a.lane)⟩)]) ∧
        (whole → ¬ traps → c'.loads = c.loads.erase q ∧
          (q.uniform = true → ∀ a rest, q.lanes = a :: rest → c'.vregs = c.vregs ∧
            ∀ n, c'.u n = if n = q.dst ∧ s.outrun cid q.dst q.seq = false then BitVec.ofNat 64 (leNat (got a).1) else c.u n) ∧
          (q.uniform = false → c'.sregs = c.sregs ∧
            (∀ a ∈ q.lanes, ∀ i, i < q.regs → c'.vAbs a.lane (q.dst + i) = BitVec.ofNat 32 (leNat (((got a).1.drop (4 * i)).take 4)) ∧
              (32 * (q.dst + i) + a.lane ∈ c'.vpoison ↔ (got a).2 = true)) ∧
            (∀ l k, l < 32 → ¬ ((∃ a ∈ q.lanes, a.lane = l) ∧ q.dst ≤ k ∧ k < q.dst + q.regs) → c'.vAbs l k = c.vAbs l k) ∧
            ∀ pa, q.regs = 1 → ¬ inPlace c q.dst → c.spillBase.toNat % 4096 = 0 → inFabric pa = false →
              s.devicePa c.asid (c.spillBase + BitVec.ofNat 64 (128 * q.dst)) .write = some pa →
              ∀ l, l < 32 → t.readNat (pa + 4 * l) 4 = (c'.vAbs l q.dst).toNat)))

/-! ## Caches, owners and translations -/

/-- R147 to R150, R342: LINE_FILL brings a missed line into its set at its slice, where one of 16 lines and mirrors leaves if all ways are held, raises the class of a line that has come in before, and with no miss
gives a slice in another sector of the same partition a mirror. A victim's dirty words are written back, over its route where the line is
of fabric memory, and the words written to a line while it is filled stand marked in it; SPILL_QUEUE_REFILL moves the oldest spilled request to the miss table; MIRROR_INVALIDATE ends a line's mirrors; PAGE_WALK_DONE enters
a valid leaf in the core's TLB. None of them changes a byte of memory. (The set of a line is log entry 28, what enters the TLB log entry 15, the
route of a write-back log entry 16.)
R140, R142, R144, R148: SECTOR_REVOKE sends a revocation to the core that owns a sector, through one of the eight recall entries; OWNER_WRITE_BACK then ends the registration and leaves the owner clean copies of the
sector, or, of an owner that is not being revoked, makes its dirty words clean; the words written back are marked at their home slice; READ_FORWARD and PEER_L1_PROBE give a core whose load waits for a word a copy of the latest value, from the owner or from an L1 of its
unfused cluster. None of them changes a byte of memory. -/
def Obligations.CachesAndWalks : Prop :=
  (
    ∀ s : State,
      (∀ slice line m, s.misses.find? (fun m => m.slice == slice && m.cls == .general && m.line == line) = some m →
        let set := s.setLines slice line
        let marked (e : L2Line) : Prop := e.v = 0xF ∧ ∀ i, i < 64 → (e.wm.getLsbD i = true ↔ (slice, 64 * line + i) ∈ s.wfill)
        let ways := set.length + (s.setMirrors slice line).length
        (s.holdsLine slice line = true → ∃ (t : State), Happens s (.lineFill slice line) t ∧ CrewsStand s t ∧ t.mem = s.mem ∧ t.misses = s.misses.erase m ∧
          t.l2 = s.l2.map fun e => if e.slice = slice ∧ e.line = line then
            { e with cls := max e.cls (s.admitClass slice line m.hint), stamp := s.nextId } else e) ∧
        (s.holdsLine slice line = false → ways < 16 → ∃ (t : State) (e : L2Line), Happens s (.lineFill slice line) t ∧ CrewsStand s t ∧ t.mem = s.mem ∧
          t.misses = s.misses.erase m ∧ t.l2 = s.l2 ++ [e] ∧ e.slice = slice ∧ e.line = line ∧ e.cls = s.admitClass slice line m.hint ∧ marked e) ∧
        (∀ v, s.holdsLine slice line = false → 16 ≤ ways →
          pickVictim (set.filter fun e => !s.linePending e.line && s.misses.all fun m => !(m.slice == slice && m.line == e.line && m.cls == .general)) = some v →
          (∀ i, i < 4 → s.recalling (4 * v.line + i) = false) →
          (v.d = 0 ∧ (∀ w ∈ s.l1, w.addr / 64 = v.line → w.st ≠ .ownedDirty)) ∨ s.backOk slice v.line = true →
          s.busyEntries slice .recall + (s.foreign noOwner [4 * v.line, 4 * v.line + 1, 4 * v.line + 2, 4 * v.line + 3]).length ≤ 8 →
          ∃ (t : State) (e : L2Line), Happens s (.lineFill slice line) t ∧ CrewsStand s t ∧ t.mem = s.mem ∧
            t.misses.filter (·.cls != .writeBack) = (s.misses.erase m).filter (·.cls != .writeBack) ∧
            (v.d ≠ 0 → (∀ i, i < 4 → 288 ≤ s.ownerOf (4 * v.line + i)) → (⟨slice, .writeBack, v.line, 0⟩ : Miss) ∈ t.misses) ∧
            e.slice = slice ∧ e.line = line ∧ marked e ∧ (∀ x ∈ t.l2, x ≠ e → ¬ (x.slice = slice ∧ x.line = v.line)) ∧ e ∈ t.l2 ∧
            ∀ k, t.ownerOf k = if k / 4 = v.line ∧ s.ownerOf k < 288 then noOwner else s.ownerOf k)) ∧
      (∀ slice line k, (∀ m ∈ s.misses, ¬ (m.slice = slice ∧ m.line = line)) → slice < 288 → slice / 24 ≠ sliceOf 0 (256 * line) / 24 →
        s.onePart (slice / 12) (sliceOf 0 (256 * line) / 12) = true → inDevice (256 * line) = true → (s.setMirrors slice line).length < 4 →
        (s.setLines slice line).length + (s.setMirrors slice line).length < 16 →
        (∀ m ∈ s.mirrors, ¬ (m.slice = slice ∧ m.line = line)) → k < 4 → (∀ m ∈ s.mirrors, m.line = line → m.slot ≠ k) →
        (∀ j, j < k → ∃ m ∈ s.mirrors, m.line = line ∧ m.slot = j) →
        ∃ (t : State), Happens s (.lineFill slice line) t ∧ CrewsStand s t ∧
          t = { s with crews := t.crews, mirrors := s.mirrors ++ [⟨slice, line, k⟩] }) ∧
      (∀ slice m, s.spillq.find? (·.slice == slice) = some m → s.busyEntries slice .general < 104 →
        ∃ (t : State), Happens s (.spillQueueRefill slice) t ∧ CrewsStand s t ∧
          t = { s with crews := t.crews, spillq := s.spillq.erase m, misses := s.misses ++ [m] }) ∧
      (∀ line, ∃ (t : State), Happens s (.mirrorInvalidate line) t ∧ CrewsStand s t ∧
        t = { s with crews := t.crews, mirrors := s.mirrors.filter (·.line != line) }) ∧
      (∀ core asid va l, canonical (BitVec.ofNat 64 va) = true → va < 2 ^ 64 → s.tlbHit core asid va = none →
        walk s asid va = .ok l → ∃ (t : State) (e : TlbEntry), Happens s (.pageWalkDone core asid va) t ∧ CrewsStand s t ∧ t = { s with crews := t.crews, tlb := t.tlb } ∧
          e ∈ t.tlb ∧ e.core = core ∧ e.asid = asid ∧ e.bits = l.bits ∧ e.pa = l.pa ∧ e.w = l.w ∧ e.x = l.x ∧
          e.page ≤ va ∧ va < e.page + 2 ^ l.bits)) ∧
  (
    ∀ s : State,
      let copied (t : State) (k w : Nat) : Prop := t.l1Word? k w = some {
        core := k, addr := w, st := if s.ownerOf (w / 16) = k then .ownedClean else .clean
        data := s.readBytes (4 * w) 4, bad := s.poisoned (4 * w) 4 }
      let back (t : State) (sector : Nat) : Prop := ∀ w ∈ s.l1, w.core = s.ownerOf sector → w.addr / 16 = sector → w.st = .ownedDirty →
        ∀ e ∈ t.l2, e.slice = sliceOf (s.ownerOf sector) (256 * e.line) → e.line = w.addr / 64 → e.wm.getLsbD (w.addr % 64) = true
      (∀ sector, s.ownerOf sector < 288 → s.recalling sector = false → s.busyEntries (sliceOf (s.ownerOf sector) (64 * sector)) .recall < 8 →
        ∃ (t : State), Happens s (.sectorRevoke sector) t ∧ CrewsStand s t ∧ t.recalling sector = true ∧
          t = { s with crews := t.crews, misses := s.misses ++ [⟨sliceOf (s.ownerOf sector) (64 * sector), .recall, sector / 4, sector % 4⟩] }) ∧
      (∀ sector, s.recalling sector = true → ∃ (t : State), Happens s (.ownerWriteBack sector) t ∧ CrewsStand s t ∧ t.recalling sector = false ∧
        t = { s with crews := t.crews, owner := t.owner, l1 := t.l1, l2 := t.l2, misses := t.misses, wfill := t.wfill } ∧
        (∀ k, t.ownerOf k = if k = sector ∧ s.ownerOf sector < 288 then noOwner else s.ownerOf k) ∧
        (s.ownerOf sector < 288 → ∀ w ∈ t.l1, w.core = s.ownerOf sector → w.addr / 16 = sector → w.st = .clean) ∧
        (s.ownerOf sector < 288 → ∀ w ∈ s.l1, w.core = s.ownerOf sector → w.addr / 16 = sector → w.st ≠ .clean →
          { w with st := .clean, bad := s.poisoned (4 * w.addr) 4 } ∈ t.l1) ∧
        (s.ownerOf sector < 288 → back t sector)) ∧
      (∀ sector, s.recalling sector = false → ∃ (t : State), Happens s (.ownerWriteBack sector) t ∧ CrewsStand s t ∧
        t = { s with crews := t.crews, l1 := t.l1, l2 := t.l2, misses := t.misses, wfill := t.wfill } ∧
        t.l1.length = s.l1.length ∧ (∀ w ∈ t.l1, w.addr / 16 = sector → w.st ≠ .ownedDirty) ∧ back t sector) ∧
      (∀ core word, s.missing core word false = true → s.ownerOf (word / 16) < 288 →
        ∃ (t : State), Happens s (.readForward core word) t ∧ CrewsStand s t ∧ t = { s with crews := t.crews, l1 := t.l1, l2 := t.l2, owner := t.owner, misses := t.misses, wfill := t.wfill } ∧
          copied t (s.l1Core core (4 * word)) word) ∧
      (∀ core line w, s.fused.contains (clusterOf core) = false → w ∈ s.l1 → w.core ≠ core → clusterOf w.core = clusterOf core →
        w.addr / 64 = line → w.data = s.readBytes (4 * w.addr) 4 → s.missing core w.addr true = true →
        ∃ (t : State), Happens s (.peerL1Probe core line) t ∧ CrewsStand s t ∧ t = { s with crews := t.crews, l1 := t.l1, l2 := t.l2, owner := t.owner, misses := t.misses, wfill := t.wfill } ∧
          copied t core w.addr))

/-! ## The Shell Ring at work -/

/-- R226, R230, R231, R233, R235 to R237, Tables 13.1 and 13.3: what happens as a shell passes a station. SHELL_OP_EFFECT performs a queued operation on a word not yet used at this pass: the word takes its new value
and S(D) the old one, unless the data of a younger instruction have come in this cycle, or the payload goes to the scratchpad. SHELL_LAND_EFFECT takes the shell off the ring with a working copy; SHELL_FLOAT_EFFECT puts the working copy back, SHELL_OVERSTAY after 14 passes the original, with SHOVERSTAY due,
SHELL_LANDING_LOSS the original of a lost landing; each begins a cooldown of 576 cycles that SHELL_COOLDOWN_END ends. A poisoned word gives a poisoned S(D) (R346; log entry 18), the value
completes the mark of its instruction (R351; log entry 56), and the landing of a split that has ceased is lost as it is made (log entry
37). -/
def Obligations.ShellRing : Prop :=
  ∀ s : State,
    let floats (t : State) (shell : Nat) (words : List Word) : Prop :=
      t.payload shell = words ∧ (∀ k, k ≠ shell → t.payload k = s.payload k) ∧ t.landings = s.landings.filter (·.shell != shell) ∧
      t.cooling = s.cooling ++ [(shell, s.cycle + 576)] ∧ t.mem = s.mem ∧ t.teams = s.teams
    (∀ core shell q, s.passes core shell = true → s.landing? shell = none → s.queuedFor core shell = [q] → q.op ≠ .land → q.op ≠ .float →
      s.shellEligible q = true → q.word < 16 → q.shell = shell → q.word ∉ s.passedWords core shell →
      ∃ (t : State), Happens s (.shellOpEffect core shell) t ∧ t.shreqs = s.shreqs.filter (·.seq != q.seq) ∧ t.mem = s.mem ∧
        (∀ k, k ≠ shell → t.payload k = s.payload k) ∧
        t.payload shell = (match q.op with
          | .rmw op x y => (s.payload shell).set q.word (shellNew op ((s.payload shell).getD q.word 0) x y)
          | _ => s.payload shell) ∧
        (∀ c, s.crew? q.cid = some c → q.op = .getW ∨ (∃ op x y, q.op = .rmw op x y) →
          ∃ (c' : Crew), t.crew? q.cid = some c' ∧ c'.vregs = c.vregs ∧
            (s.outrun q.cid q.dst q.seq = false → (q.dst ∈ c'.spoison ↔ 16 * shell + q.word ∈ s.shpoison)) ∧
            (∀ p, c.split? q.sid = some p → p.mark.seq = q.seq → ∃ p', c'.split? q.sid = some p' ∧
              p'.mark = { p.mark with fpmode := c.fpmode, cpol := c.cpol, seq := p'.mark.seq } ∧ s.nextId ≤ p'.mark.seq) ∧
            ∀ n, c'.u n = if n = q.dst ∧ s.outrun q.cid q.dst q.seq = false then ((s.payload shell).getD q.word 0).zeroExtend 64 else c.u n) ∧
        (∀ off x, q.op = .getP off → s.team? q.lid q.team = some x → RegistersStand s t ∧
          t.scratchRead q.lid q.team off 64 = (s.payload shell).flatMap fun w => leBytes 4 w.toNat)) ∧
    (∀ core shell q rest, s.queuedFor core shell = q :: rest → q.op = .land → s.passes core shell = true → s.landing? shell = none →
      s.isCooling shell = false → (s.landings.filter (·.core == core)).length < 2 → s.shellEligible q = true →
      ∃ (t : State) (h : Landing), Happens s (.shellLandEffect core shell) t ∧ CrewsStand s t ∧ t.landings = s.landings ++ [h] ∧ h.shell = shell ∧ h.core = core ∧
        h.cid = q.cid ∧ h.sid = q.sid ∧ h.asid = q.asid ∧ h.original = s.payload shell ∧ h.working = s.payload shell ∧ h.since = s.cycle ∧ (h.lost = true ↔ s.split? q.cid q.sid = none) ∧
        t = { s with crews := t.crews, landings := t.landings, shreqs := s.shreqs.filter (·.seq != q.seq) }) ∧
    (∀ shell h q, s.landing? shell = some h → s.floatReady h = some q → s.passes h.core shell = true → h.lost = false → h.working.length = 16 →
      s.cycle ≤ h.since + 14 * 576 →
      ∃ (t : State), Happens s (.shellFloatEffect shell) t ∧ CrewsStand s t ∧ floats t shell h.working ∧ t.shreqs = s.shreqs.filter (·.seq != q.seq)) ∧
    (∀ shell h c p x, s.landing? shell = some h → s.floatReady h = none → s.passes h.core shell = true → h.lost = false → h.original.length = 16 →
      h.since + 14 * 576 ≤ s.cycle → s.crew? h.cid = some c → c.split? h.sid = some p → s.context? h.asid = some x →
      ∃ (t : State) (c' : Crew) (k : Trap), Happens s (.shellOverstay shell) t ∧ floats t shell h.original ∧ t.crew? h.cid = some c' ∧
        c'.split? h.sid = some { p.untried with due := p.due ++ [(h.seq, k)] } ∧ k.cause = .shoverstay ∧
        k.taux = BitVec.ofNat 64 (16 * (shell - x.shbase))) ∧
    (∀ shell h, s.landing? shell = some h → h.lost = true → s.passes h.core shell = true → h.original.length = 16 →
      ∃ (t : State), Happens s (.shellLandingLoss shell) t ∧ CrewsStand s t ∧ floats t shell h.original) ∧
    (∀ shell n, (shell, n) ∈ s.cooling → n ≤ s.cycle → ∃ (t : State), Happens s (.shellCooldownEnd shell) t ∧ CrewsStand s t ∧
      t = { s with crews := t.crews, cooling := s.cooling.filter (·.1 != shell) })

/-! ## Splits and cells between issues -/

/-- R248, R255, R269, R273, R284, R329, R331: the scheduler's events of a split. SPLIT_WAKE lets a woken split enter the age order as the youngest, of those woken in one cycle by their split-table entries;
FAIRNESS_SWAP swaps the arms of a split that has issued 4,096 times in one, or waits where the swap must wait to reach memory (log entry 41); YIELD_SHADOW_END ends a shadow; TRAP_ENTRY takes the boundary trap that is due first, which is no issue: the split keeps its place in the age order, or enters it where a flip had just woken it (log entry 31); NEIGHBOUR_READ lets
a split issue whose neighbour operands can be served. -/
def Obligations.SchedulerEvents : Prop :=
  ∀ (s : State) (c : Crew) (p : Split), s.crew? c.cid = some c → c.split? p.sid = some p →
    ((c.cid, p.sid) ∉ s.age → (c.cid, p.sid) ∉ s.woke →
      let entered (t : State) : Prop :=
        let lower (e : Nat × Nat) : Bool := decide (s.entryOf e < p.entry)
        t = { s with crews := t.crews, age := t.age, woke := t.woke, entered := t.entered } ∧
        t.woke = s.woke.filter lower ++ [(c.cid, p.sid)] ++ s.woke.filter (fun e => !lower e) ∧
        t.age = s.age.filter (fun e => !s.woke.contains e) ++ t.woke
      (∀ n sc w, p.status = .barWait n sc w → w ≠ .parked → ∃ (t : State), Happens s (.splitWake c.cid p.sid) t ∧ CrewsStand s t ∧ entered t) ∧
      (p.status = .waking → ∃ (t : State) (c' : Crew), Happens s (.splitWake c.cid p.sid) t ∧ entered t ∧ t.crew? c.cid = some c' ∧
        c'.split? p.sid = some { p.untried with status := .ready })) ∧
    (∀ f, p.fb = some f → f.finished = false → 4096 ≤ f.count → p.status = .ready → (c.touched f.pwb).all (c.resident.contains ·) = true →
      c.resident.length ≤ c.frame / 32 →
      ∃ (t : State) (c' : Crew) (q : Split), Happens s (.fairnessSwap c.cid p.sid) t ∧ t.crew? c.cid = some c' ∧ c'.split? p.sid = some q ∧ Swapped c c' p q f false) ∧
    (∀ f pa w, p.fb = some f → f.finished = false → 4096 ≤ f.count → p.status = .ready →
      swapArms s c.cid p.sid false p.muted = .error (.held pa w) → p.waits ≠ some (pa, w) →
      ∃ (t : State) (c' : Crew), Happens s (.fairnessSwap c.cid p.sid) t ∧ t.crew? c.cid = some c' ∧
        c'.split? p.sid = some { p.untried with waits := some (pa, w) } ∧ t = { s with crews := t.crews }) ∧
    (p.shadow ≠ 0 → p.shadow ≤ s.cycle → ∃ (t : State) (c' : Crew), Happens s (.yieldShadowEnd c.cid p.sid) t ∧ t.crew? c.cid = some c' ∧
      c'.split? p.sid = some { p.untried with shadow := 0 } ∧ t = { s with crews := t.crews }) ∧
    (∀ k e, s.dueTrap c.cid p = some (k, e) → s.mayIssue c p = true → p.drained = true → p.inHandler = false →
      s.trapEnt c.asid ≠ 0 → ∃ (t : State) (c' : Crew) (q : Split), Happens s (.trapEntry c.cid p.sid) t ∧ t.crew? c.cid = some c' ∧ c'.split? p.sid = some q ∧
        q.pc = s.trapEnt c.asid ∧ q.tcause = k.cause.code ∧ q.trappc = k.pc ∧ q.taddr = k.taddr ∧ q.taux = k.taux ∧
        q.due = (if k.cause = .stfault then p.due.filter (fun d => !(d.2.cause == .stfault && ((s.faultsOf c.cid).map (·.seq)).contains d.1)) else p.due).erase e ∧
        q.inHandler = true ∧ q.status = .ready ∧ c'.vregs = c.vregs ∧ c'.sregs = c.sregs ∧ t.mem = s.mem ∧
        ((c.cid, p.sid) ∈ s.age → t.age = s.age ∧ t.woke = s.woke) ∧
        ((c.cid, p.sid) ∉ s.age → (c.cid, p.sid) ∈ t.age ∧ (c.cid, p.sid) ∈ t.woke)) ∧
    (∀ ops, p.status = .nbrWait ops → (∀ o ∈ ops, ∀ l ∈ activeLanes c p, (s.nbrVal c l o.1 o.2).isSome = true) →
      ∃ (t : State) (c' : Crew), Happens s (.neighbourRead c.cid p.sid) t ∧ t.crew? c.cid = some c' ∧
        c'.split? p.sid = some { p.untried with status := .ready } ∧ t = { s with crews := t.crews })

/-- R285, R288, R293: the events of a field's hosts. STEP_COMPLETE completes a parked STEP whose step neighbours have reached it; PAGE_OUT takes a seat off its host, with the PC, AD, FPFLAGS, NC and registers
that its record then holds, once the host's accesses are done too (log entry 24); HOST_CUT ends, as TERM does, the cells of a host that is at no evictable state 1 ms, counted in whole microseconds (log entry 26), after the request to switch its context out. A host with a due trap is at none (log entry 40). -/
def Obligations.HostEvents : Prop :=
  ∀ (s : State) (c : Crew) (p : Split), s.crew? c.cid = some c → c.split? p.sid = some p →
    (∀ l h, s.launch? c.lid = some l → c.splits = [p] → c.host = some h → h.leaving = none → p.status = .stepWait → s.switching c.asid = false →
      s.stepReady c p.mask = true → ∃ (t : State) (c' : Crew) (q : Split), Happens s (.stepComplete c.cid p.sid) t ∧ t.crew? c.cid = some c' ∧ c'.splits = [q] ∧
        q.pc = p.pc + 4 ∧ q.status = .ready ∧ (∀ n, c'.u n = if n = 0 then c.args else 0) ∧ c'.fpmode = 0 ∧ c'.cpol = 0 ∧ (c.cid, p.sid) ∈ t.age ∧
        ∀ n x, n < 32 → p.mask.getLsbD n = true → s.seat? c.lid (8 * c.team + n / 4) = some x →
          ∃ z, t.seat? c.lid (8 * c.team + n / 4) = some z ∧ sget 0 z.sigma (n % 4) = sget 0 x.sigma (n % 4) + 1) ∧
    (∀ l h seat x, s.launch? c.lid = some l → s.hostOf c.lid seat = some c → c.host = some h → s.seat? c.lid seat = some x → l.lid = c.lid → c.team = seat / 8 →
      s.pageOutReady c = true → h.leaving = some (seat % 8) ∨ h.out = true ∨ ((s.switching l.asid = true ∨ s.svc.retiring.contains c.core = true) ∧ s.evictable c = true) → c.splits = [p] →
      ∃ (t : State) (y : Seat), Happens s (.pageOut c.lid seat) t ∧ t.seat? c.lid seat = some y ∧ y.rpc = p.pc ∧ y.ad = p.ad ∧ y.sigma = x.sigma ∧
        y.flags = c.fpflags ∧ (∀ i, i < 4 → (sget 0 y.nc i).toNat = if x.exited.getLsbD i then (sget 0 x.nc i).toNat else c.ncOf (4 * (seat % 8) + i)) ∧
        (c.spilled = [] → ∀ a i, a < l.record.frame → i < 4 → sget 0 y.kept (4 * a + i) = c.vAbs (4 * (seat % 8) + i) a) ∧
        (l.phase ≠ .placed → y.resident = false ∧ ∀ d ∈ t.crews, d.cid = c.cid → ∀ k, d.host = some k → seat % 8 ∉ k.seats)) ∧
    (∀ h, c.host = some h → s.inField c = true → s.switching c.asid = true → s.evictable c = false → h.leaving = none → h.out = false →
      1000 < s.sinceSwitch c.asid →
      ∃ (t : State), Happens s (.hostCut c.cid) t ∧ (∀ m, t.launch? c.lid = some m → m.cut = true) ∧
        ∀ l x, l < 32 → c.absent.getLsbD l = false → c.exited.getLsbD l = false → s.seat? c.lid (8 * c.team + l / 4) = some x →
          ∃ y, t.seat? c.lid (8 * c.team + l / 4) = some y ∧ y.exited.getLsbD (l % 4) = true)

/-! ## Partitions, bays and translations -/

/-- R302 to R306, R370, R372: a write to PCTL enables a shape that shares no bay with another enabled partition, holds no retired bay and has its copy engines, or clears EN, after which every byte of the partition's
bays reads as zero and each bay's generation has advanced; it gives RESULT 1 for a reserved value, 4 while a context is live. ENG sets a mask, and RESULT where EN is 1. SCRUB_COMPLETE ends a bay's scrub and lets a waiting clear
of EN take effect, BAY_RETIRE marks a bay retired, also one that an enabled partition holds (log entry 22). The window takes no write before BOOTOK. -/
def Obligations.Partitions : Prop :=
  ∀ (s : State) (n : Nat), s.parts.length = 24 → s.bays.length = 24 → n < 24 →
    let p := s.part n
    (∀ v : Word, s.svc.bootok = false → exec (.pctlWrite n v) s = .next s) ∧
    (s.svc.bootok = true → p.busy = false →
      (∀ (v : Word) (size base : Nat), size < 5 → base < 32 → base % shapeBays size = 0 → base + shapeBays size ≤ 24 →
        v.toNat = 2 ^ 31 + 256 * size + base → p.en = false →
        (∀ k, k < 24 → k ≠ n → (s.part k).en = true → ∀ b ∈ baysOf size base, b ∉ (s.part k).bays) →
        (∀ b ∈ baysOf size base, (s.bay b).retired = false) → s.engBad n p.eng (baysOf size base) = false →
        ∃ (t : State), Happens s (.pctlWrite n v) t ∧ CrewsStand s t ∧ t = { s with crews := t.crews, parts := t.parts } ∧
          t.part n = { p with en := true, size := size, base := base, busy := false, result := 0 } ∧ ∀ k, k ≠ n → t.part k = s.part k) ∧
      (∀ v : Word, v.toNat / 2048 % 2 ^ 20 ≠ 0 ∨ v.toNat / 32 % 8 ≠ 0 ∨ 5 ≤ v.toNat / 256 % 8 →
        ∃ (t : State), Happens s (.pctlWrite n v) t ∧ CrewsStand s t ∧ t = { s with crews := t.crews, parts := t.parts } ∧
          t.part n = { p with busy := false, result := 1 }) ∧
      (∀ v : Word, v.toNat = 256 * p.size + p.base → p.size < 5 → p.base % shapeBays p.size = 0 → p.base + shapeBays p.size ≤ 24 → p.en = true →
        ((∃ x ∈ s.contexts, x.part = n) → ∃ (t : State), Happens s (.pctlWrite n v) t ∧ CrewsStand s t ∧
          t = { s with crews := t.crews, parts := t.parts } ∧ t.part n = { p with busy := false, result := 4 }) ∧
        ((∀ x ∈ s.contexts, x.part ≠ n) → (∀ b ∈ p.bays, (s.bay b).scrub = false) → ∃ (t : State), Happens s (.pctlWrite n v) t ∧
          (t.part n).en = false ∧ (t.part n).result = 0 ∧ (t.part n).busy = false ∧
          (∀ b ∈ p.bays, (t.bay b).gen = (s.bay b).gen + 1 ∧ (t.bay b).bumps = (s.bay b).bumps + 1) ∧
          (∀ b, b ∉ p.bays → t.bay b = s.bay b) ∧
          ∀ a, t.readByte a = if inDevice a = true ∧ bayOf a ∈ p.bays then 0 else s.readByte a)) ∧
      (∀ (d : Nat) (v : Word), d < 4 → p.en = false ∨ (v.toNat < 2 ^ 24 ∧ s.engBad n (sset 0 p.eng d (v.truncate 24)) p.bays = false) →
        ∃ (t : State), Happens s (.engMaskWrite n d v) t ∧ CrewsStand s t ∧ t = { s with crews := t.crews, parts := t.parts } ∧
          (t.part n).result = (if p.en then 0 else p.result) ∧ ∀ k, sget 0 (t.part n).eng k = if k = d then v.truncate 24 else sget 0 p.eng k)) ∧
    (∀ b, (s.bay b).scrub = true →
      ((∀ k, k < 24 → (s.part k).pendOff = false) → ∃ (t : State), Happens s (.scrubComplete b) t ∧ CrewsStand s t ∧
        t = { s with crews := t.crews, bays := t.bays } ∧ t.bay b = { s.bay b with bumps := 0, scrub := false } ∧ ∀ k, k ≠ b → t.bay k = s.bay k) ∧
      (p.pendOff = true → (∀ k, k < 24 → k ≠ n → (s.part k).pendOff = false) → (∀ k ∈ p.bays, k ≠ b → (s.bay k).scrub = false) →
        ∃ (t : State), Happens s (.scrubComplete b) t ∧ (t.part n).en = false ∧ (t.part n).busy = false ∧ (t.part n).result = 0)) ∧
    (∀ b, b < 24 → ∃ (t : State), Happens s (.bayRetire b) t ∧ CrewsStand s t ∧ t = { s with crews := t.crews, bays := t.bays } ∧
      t.bay b = { s.bay b with retired := true } ∧ ∀ k, k ≠ b → t.bay k = s.bay k)

/-- R70, R227, R307 to R309, R344: START of an ASID that passes its checks makes the context live with the numbers of its table entry and descriptor, with its shells zero and its L2 buckets at CEIL, and creates grid 0; it
gives RESULT 6 for a live one. (The order of the checks is log entry 19, the ASID of IRQCTL log entry 47.) STOP retires every crew of the context and discards what waits, and ends once nothing of it is left. A shootdown removes the matching translations of the partition's cores and
completes after the accesses that were translated before it. The tick of a slice adds RATE to each bucket up to CEIL. -/
def Obligations.ContextsAndShootdowns : Prop :=
  ∀ (s : State) (n asid : Nat), s.parts.length = 24 → n < 24 → s.svc.bootok = true →
    let p := s.part n
    (p.busy = false → asid < 65536 → s.startCode n asid = 0 →
      let e := s.ctxEntry n asid
      ∃ (t : State) (x : Context) (l : Launch), Happens s (.ctxStart n asid) t ∧ CrewsStand s t ∧ t.mem = s.mem ∧ t.contexts = s.contexts ++ [x] ∧ x.asid = asid ∧ x.part = n ∧
        x.trapent = BitVec.ofNat 64 (s.readNat (e.desc + 8) 8) ∧ x.irqaddr = BitVec.ofNat 64 (s.readNat (e.desc + 0x30) 8) ∧
        x.irqkey = BitVec.ofNat 16 (s.readNat (e.desc + 0x38) 2) ∧ x.shbase = e.shbase ∧ x.shcount = e.shcount ∧ x.seats = e.seats ∧
        x.l2rate = e.rate ∧ x.l2ceil = e.ceil ∧ t.launches = s.launches ++ [l] ∧ l.asid = asid ∧ l.gid = 0 ∧ l.nest = 0 ∧ l.status = none ∧ l.phase = .pending ∧
        l.record.entry = BitVec.ofNat 64 (s.readNat e.desc 8) ∧ l.record.args = BitVec.ofNat 64 (s.readNat (e.desc + 0x10) 8) ∧
        l.record.crews = 1 ∧ l.record.teams = 1 ∧ l.record.squad = 1 ∧ l.record.prio = 3 ∧
        (∀ k, e.shbase ≤ k → k < e.shbase + e.shcount → t.payload k = List.replicate 16 0 ∧ t.landing? k = none) ∧
        (t.part n).result = 0 ∧ (t.part n).busy = false ∧ ∀ b ∈ p.bays, ∀ k, k < 12 → t.tokens (12 * b + k) asid = e.ceil) ∧
    (p.busy = false → asid < 65536 → (s.context? asid).isSome = true → ∃ (t : State), Happens s (.ctxStart n asid) t ∧ CrewsStand s t ∧
      t = { s with crews := t.crews, parts := t.parts } ∧ (t.part n).result = 6) ∧
    (p.busy = false → 65536 ≤ asid → ∃ (t : State), Happens s (.ctxStart n asid) t ∧ CrewsStand s t ∧
      t = { s with crews := t.crews, parts := t.parts } ∧ (t.part n).result = 1) ∧
    (∀ x, s.context? asid = some x → x.part = n →
      (x.stopping = false → p.busy = false → (∀ c ∈ s.crews, c.asid = asid → s.inField c = false) → (s.crews.map (·.cid)).Nodup →
        ∃ (t : State), Happens s (.ctxStop n asid) t ∧ (∀ c ∈ t.crews, c.asid ≠ asid) ∧
          t.context? asid = some { x with switching := true, stopping := true } ∧ (t.part n).busy = true ∧ t.mem = s.mem ∧
          ∀ l ∈ t.launches, l.asid = asid → l.discarded = false) ∧
      (x.stopping = true → s.stopReady asid = true → ∃ (t : State), Happens s (.ctxStop n asid) t ∧ t.context? asid = none ∧ (∀ e ∈ t.tlb, e.asid ≠ asid) ∧
        (∀ y ∈ t.tiles, y.asid ≠ asid) ∧ (t.part n).busy = false ∧ (t.part n).result = 0 ∧ t.mem = s.mem)) ∧
    (p.sdbusy = false →
      (asid < 65536 → s.partOf asid = n →
        (∀ size, size < 3 → ∃ (t : State), Happens s (.shootdownPage n asid size) t ∧ CrewsStand s t ∧ (t.part n).sdbusy = true ∧ t.mem = s.mem ∧
          let bits := if size = 0 then 16 else if size = 1 then 21 else 30
          let page := p.sdaddr.toNat / 2 ^ bits * 2 ^ bits
          ∀ e, e ∈ t.tlb ↔ e ∈ s.tlb ∧ ¬ (e.asid = asid ∧ e.core ∈ p.cores ∧ e.page < page + 2 ^ bits ∧ page < e.page + 2 ^ e.bits)) ∧
        ∃ (t : State), Happens s (.shootdownAll n asid) t ∧ CrewsStand s t ∧ (t.part n).sdbusy = true ∧ t.mem = s.mem ∧
          ∀ e, e ∈ t.tlb ↔ e ∈ s.tlb ∧ ¬ (e.asid = asid ∧ e.core ∈ p.cores)) ∧
      (asid < 65536 → s.partOf asid ≠ n → ∃ (t : State), Happens s (.shootdownAll n asid) t ∧ CrewsStand s t ∧
        t = { s with crews := t.crews, parts := t.parts } ∧ (t.part n).sdbusy = false ∧ (t.part n).sdres = 2)) ∧
    (p.sdbusy = true → s.translatedDone (p.sdcmd.toNat % 65536) p.sdseq = true → ∃ (t : State), Happens s (.shootdownComplete n) t ∧ CrewsStand s t ∧
      t = { s with crews := t.crews, parts := t.parts } ∧ (t.part n).sdbusy = false ∧ (t.part n).sdres = 0) ∧
    (∀ slice, slice < 288 → s.ticked slice = false → (s.contexts.map (·.asid)).Nodup → (∀ x ∈ s.contexts, x.asid < 65536) →
      (∀ x ∈ s.contexts, s.waitsAt slice x.asid = false) → ∃ (t : State), Happens s (.l2BucketTick slice) t ∧ CrewsStand s t ∧
        t = { s with crews := t.crews, levels := t.levels, ticks := t.ticks } ∧
        ∀ x ∈ s.contexts, t.tokens slice x.asid = if (s.part x.part).hasBay (slice / 12) = true then
          min x.l2ceil (s.tokens slice x.asid + x.l2rate) else s.tokens slice x.asid)

/-! ## The fabric -/

/-- R70, R303, R310, R316, R319, R322, R324, R369: a flit whose key matches no valid entry is discarded and counted in KDROP, a read being answered with poison; another takes a reserved slot of its key, one of the pool, or
waits, and is mapped by the export table as it arrives. A request that holds a slot and hits an export window writes 8 bytes at the home slices, once they can take the write, or is answered with them; another is dropped, or answered
with poison; one of the management endpoint under its key reads and writes the management window, by 8 bytes or by 4. A remote arrival under a key of the context's partition is held until the writes that it counts have been performed, and then
arrives at its object, or posts an interrupt of kind 5. (The slots of management traffic are log entry 32, what is counted log entry 21, that
a read revokes owners and a write waits for holders log entry 48.) -/
def Obligations.FabricRequests : Prop :=
  ∀ s : State,
    let entry (src key offset : Nat) : Option Nat :=
      if inMgmt offset = true ∧ offset % 8 = 0 ∧ s.mgmtOk src key = true then some 64 else s.keyEntry key
    let left (t : State) (q : Ingress) : Prop := t.fab.slots ++ t.fab.waiting = (s.leaveSlot q).fab.slots ++ (s.leaveSlot q).fab.waiting ∧
      (s.fab.waiting = [] → t.fab.slots = s.fab.slots.erase q ∧ t.fab.waiting = [])
    (∀ port src key offset w data, port < 72 → s.fab.portLive.getLsbD port = true → src < 16384 → key < 65536 →
      (entry src key offset = none → ∃ (t : State), Happens s (.ingressFlit port src key offset w data) t ∧ CrewsStand s t ∧
        t = { s with crews := t.crews, fab := { s.fab with
          kdrop := t.fab.kdrop, answers := s.fab.answers ++ (if w then [] else [⟨src, key, offset, 0, true⟩]) } } ∧
        (sget 0 t.fab.kdrop port).toNat = min ((sget 0 s.fab.kdrop port).toNat + 1) 65535) ∧
      (∀ e, entry src key offset = some e →
        let mine := s.fab.slots.filter fun r => r.port == port && r.entry == e
        let q (pool : Bool) : Ingress := {
          port := port, src := src, key := key, entry := e, copy := s.fab.kact, part := keyPart (sget 0 s.fab.keys e), offset := offset
          write := w, data := data, ask := none
          place := s.exportPa (keyPart (sget 0 s.fab.keys e)) offset, pool := pool }
        ((mine.filter fun r => !r.pool).length < 16 → ∃ (t : State), Happens s (.ingressFlit port src key offset w data) t ∧ CrewsStand s t ∧
          t = { s with crews := t.crews, fab := { s.fab with slots := s.fab.slots ++ [q false] } }) ∧
        (16 ≤ (mine.filter fun r => !r.pool).length → (s.fab.slots.filter fun r => r.port == port && r.pool).length < 256 →
          (mine.filter (·.pool)).length < (sget 0 s.fab.kbkt e).toNat / 2 ^ 32 % 512 →
          ∃ (t : State), Happens s (.ingressFlit port src key offset w data) t ∧ CrewsStand s t ∧
            t = { s with crews := t.crews, fab := { s.fab with slots := s.fab.slots ++ [q true] } }) ∧
        (16 ≤ (mine.filter fun r => !r.pool).length → (sget 0 s.fab.kbkt e).toNat / 2 ^ 32 % 512 ≤ (mine.filter (·.pool)).length →
          ∃ (t : State), Happens s (.ingressFlit port src key offset w data) t ∧ CrewsStand s t ∧
            t = { s with crews := t.crews, fab := { s.fab with waiting := s.fab.waiting ++ [q false] } }))) ∧
    (∀ src key offset w data q, s.slotOf src key offset w data = some q → ¬ (w = true ∧ isArrival offset = true) →
      let counts (t : State) : Prop :=
        sget 0 t.fab.performed (65536 * src + key) = sget 0 s.fab.performed (65536 * src + key) + (if w then 1 else 0)
      (q.entry = 64 →
        (w = false → ∃ (t : State), Happens s (.exportRequest src key offset w data) t ∧ CrewsStand s t ∧ left t q ∧ t.mem = s.mem ∧
          t.fab.answers = s.fab.answers ++ [⟨src, key, offset, s.mgmtRead (offset - mgmtBase), false⟩]) ∧
        (w = true → (s.leaveSlot q).mgmtWrite (offset - mgmtBase) 8 data = none → ∃ (t : State), Happens s (.exportRequest src key offset w data) t ∧ CrewsStand s t ∧
          left t q ∧ t.mem = s.mem ∧ counts t) ∧
        ∀ u, w = true → (s.leaveSlot q).mgmtWrite (offset - mgmtBase) 8 data = some u → ∃ (t : State), Happens s (.exportRequest src key offset w data) t ∧
          t = { u with crews := t.crews, fab := { u.fab with performed := t.fab.performed } }) ∧
      (q.entry ≠ 64 →
        (∀ pa, q.place = some pa → w = true → s.mayWriteHome pa 8 = true → ∃ (t : State), Happens s (.exportRequest src key offset w data) t ∧ counts t ∧
          RegistersStand s t ∧ left t q ∧ t.readNat pa 8 = data.toNat ∧
          sget 0 t.wseq (lineOf pa) = sget 0 s.wseq (lineOf pa) + 1 ∧ MemoryStandsBut s t (fun a => pa ≤ a ∧ a < pa + 8) ∧ t.fab.answers = s.fab.answers) ∧
        (∀ pa, q.place = some pa → w = false → s.mayRecallLine (lineOf pa) = true → (∀ x ∈ accessWords pa 8, s.homePending x = false) →
          ∃ (t : State), Happens s (.exportRequest src key offset w data) t ∧ RegistersStand s t ∧ left t q ∧ t.mem = s.mem ∧ (lineOf pa, src) ∈ t.fab.holders ∧
            (∀ k, t.ownerOf k = if k / 4 = lineOf pa ∧ s.ownerOf k < 288 then noOwner else s.ownerOf k) ∧
            t.fab.answers = s.fab.answers ++ [⟨src, key, offset, BitVec.ofNat 64 (s.readNat pa 8), s.poisoned pa 8⟩]) ∧
        (q.place = none → ∃ (t : State), Happens s (.exportRequest src key offset w data) t ∧ counts t ∧ CrewsStand s t ∧ left t q ∧ t.mem = s.mem ∧
          t.fab.answers = s.fab.answers ++ (if w then [] else [⟨src, key, offset, 0, true⟩])))) ∧
    (∀ src key offset q, s.fab.slots.find? (fun r => r.src == src && r.key == key && r.offset == offset && r.ask.isSome) = some q →
      q.ask = some (.half false) → q.entry = 64 → offset % 4 = 0 → mgmtBase ≤ offset → ∃ (t : State), s.serveAsk src key offset = some t ∧ t.mem = s.mem ∧
        t.crews = s.crews ∧ t.fab.answers = s.fab.answers ++ [⟨src, key, offset, BitVec.ofNat 64
          ((s.mgmtRead ((offset - mgmtBase) / 8 * 8)).toNat / 2 ^ (8 * ((offset - mgmtBase) % 8)) % 2 ^ 32), false⟩]) ∧
    (∀ asid src key count value q, s.slotOf src key (arrivalOffset asid) true value = some q →
      (s.partOf asid = q.part → ∃ (t : State), Happens s (.remoteArrive asid src key count value) t ∧ CrewsStand s t ∧ left t q ∧ t.teams = s.teams ∧
        t.fab.arrivals = s.fab.arrivals ++ [⟨asid, value, src, key, count⟩] ∧ t.fab.performed = s.fab.performed) ∧
      (s.partOf asid ≠ q.part → ∃ (t : State), Happens s (.remoteArrive asid src key count value) t ∧ CrewsStand s t ∧ left t q ∧ t.teams = s.teams ∧
        t.fab.arrivals = s.fab.arrivals ∧
        sget 0 t.fab.performed (65536 * src + key) = sget 0 s.fab.performed (65536 * src + key) + 1)) ∧
    (∀ n a, s.fab.arrivals[n]? = some a →
      (sget 0 s.fab.performed (65536 * a.src + a.key) - BitVec.ofNat 32 a.count).msb = false → s.steeringOut a.asid = false →
      ∃ (t : State), Happens s (.arrivalPerform n) t ∧ t.fab.arrivals = s.fab.arrivals.eraseIdx n ∧ t.mem = s.mem ∧
        (∀ o x, s.arrivalObj a.asid a.value = some o → s.team? o.lid o.team = some x →
          Evaluated s t o (s.barField o 0 2) ((s.barField o 2 2 + 1) % 2 ^ 16) (s.barField o 4 4) (s.barField o 8 4)) ∧
        (∀ y, s.arrivalObj a.asid a.value = none → s.context? a.asid = some y → y.irqaddr ≠ 0 → t.teams = s.teams ∧
          ∃ q, t.fab.strict = s.fab.strict ++ [q] ∧
            q.msg = ⟨y.irqaddr, y.irqkey, leBytes 4 (5 * 2 ^ 28 + a.value.toNat % 2 ^ 16), []⟩))

/-- R310, R317, R320, R321: what was held for an endpoint whose route stays unusable ends: a load completes with poison (R346: log entry 14), an addition is dropped, a write is dropped with its words poisoned and counted, and a notice of KIND 4
is written. STRICT_RETRANSMIT sends the lost messages of a flow again. A write to KBKT waits for the tick of the port, which adds RATE to each bucket up to CEIL and lets a message
with a token leave; it stays in the retransmit buffer until it is acknowledged. (Where tokens, counts and dropped writes are open: log entries
21 and 53.) -/
def Obligations.FabricSending : Prop :=
  ∀ s : State,
    (∀ ep, (∃ q ∈ s.regs, s.heldFor ep q.core q.asid (256 * q.line) true = true) → (∀ c ∈ s.crews, c.spilled = []) →
      ∃ (t : State), Happens s (.routeUnusableTimeout ep) t ∧ t.mem = s.mem ∧ Noticed s t 4 0xFF ep ∧
        t.regs = s.regs.filter (fun q => !s.heldFor ep q.core q.asid (256 * q.line) true) ∧
        t.adds = s.adds.filter (fun q => !s.heldFor ep q.core q.asid q.addr true) ∧
        (∀ q ∈ s.regs, s.heldFor ep q.core q.asid (256 * q.line) true = true → ∀ w ∈ wordsOf q.bytes, t.poisoned (4 * w) 4 = true) ∧
        s.svc.uecnt.toNat < t.svc.uecnt.toNat + (if s.svc.uecnt.toNat = 0xFFFFFFFF then 1 else 0) ∧
        (∀ m ∈ t.fab.strict, m.seq < s.nextId → s.routeOk ep = false → m.dst ≠ ep) ∧
        ∀ k c q a, s.crew? k = some c → c.loads = [q] → q.lanes = [a] → s.heldLanes ep c q = [a] → ∃ d, t.crew? k = some d ∧ d.loads = [] ∧
          (q.fresh = false → q.uniform = false → ∀ i, i < q.regs → 32 * (q.dst + i) + a.lane ∈ d.vpoison) ∧
          ∀ p, c.splits = [p] → p.sid = q.sid → q.fresh = true → p.pc = q.pc + 4 → p.status = .ready → s.heldFetch ep c p = false →
            ∃ p', d.split? q.sid = some p' ∧ p'.due = p.due ++ [(q.seq, ⟨.poison, q.pc, a.va, BitVec.ofNat 64 (4 + 65536 * a.lane)⟩)]) ∧
    (∀ dst key port, s.strictPort dst key = some port → (∃ m ∈ s.fab.strict, m.dst = dst ∧ m.key = key ∧ (m.lost = true ∨ m.port = none)) →
      ∃ (t : State), Happens s (.strictRetransmit dst key) t ∧ CrewsStand s t ∧
        t = { s with crews := t.crews, fab := { s.fab with strict := s.fab.strict.map fun m =>
          if m.dst = dst ∧ m.key = key ∧ (m.lost = true ∨ m.port = none) then { m with sent := false, lost := false, port := some port } else m } }) ∧
    (∀ e v, s.svc.bootok = true → e < 64 →
      (((List.range 64).filter (· != e)).map fun k => bucketRate (s.fab.nextBucket k)).sum + bucketRate v ≤ 390 ∨ bucketRate v ≤ bucketRate (s.fab.nextBucket e) →
      ∃ (t : State), Happens s (.kbktWrite e v) t ∧ CrewsStand s t ∧ t.fab.kbkt = s.fab.kbkt ∧
        (∀ k, t.fab.nextBucket k = if k = e then v &&& 0x1FFFFFFFFFF else s.fab.nextBucket k)) ∧
    (∀ port, port < 72 → s.ticked (288 + port) = false → (s.fab.kbktNext.map (·.1)).Nodup →
      ∃ (t : State), Happens s (.portBucketTick port) t ∧ CrewsStand s t ∧ t.fab.kbktNext = [] ∧
        (∀ k, sget 0 t.fab.kbkt k = s.fab.nextBucket k) ∧
        ((∀ m ∈ s.fab.strict, m.port ≠ some port) → (∀ x ∈ s.portWaits, x.1 ≠ port) → t.fab.strict = s.fab.strict ∧ t.fab.posted = s.fab.posted ∧
          ∀ e, e < 64 → t.fab.level port e =
            min (bucketCeil (s.fab.nextBucket e)) (s.fab.level port e + bucketRate (s.fab.nextBucket e))) ∧
        (∀ m e, s.fab.strict = [m] → m.port = some port → m.lost = false → m.sent = false → s.fab.bucketOf m.key = some e → e < 64 →
          0 < bucketCeil (s.fab.nextBucket e) → 0 < s.fab.level port e + bucketRate (s.fab.nextBucket e) →
          t.fab.strict = [{ m with sent := true }] ∧ t.fab.posted = s.fab.posted)) ∧
    (∀ dst key m, s.fab.strict.find? (fun m => m.dst == dst && m.key == key) = some m → m.sent = true → m.lost = false →
      s.ackStrict dst key = some { s with fab := { s.fab with strict := s.fab.strict.erase m, posted := s.fab.posted ++ [m.msg] } })

/-- R323 to R326: a write to RSWAP starts a swap of the named copies, which SWAP_COMPLETE makes active at one point. PORT_FAIL takes a port out of every live set, PORT_LIVE brings an enabled one in; PORTCTL's bits enable a
port or fail it, clear its FAIL and its KDROP. The first exchange with the time master, to which a route is usable, sets FTIME, a later one slews it
and succeeds where FTIME stands within 10 ns of the master's time (log entry 4); LOCK clears when none has succeeded for 1 ms. Each of these but the writes posts its notice. -/
def Obligations.PortsSwapsAndTime : Prop :=
  ∀ s : State,
    (s.svc.bootok = true → s.fab.busy = false →
      (∃ (t : State), Happens s .rswapRoute t ∧ CrewsStand s t ∧
        t = { s with crews := t.crews, fab := { s.fab with busy := true, swapRoute := true, swapKey := false } }) ∧
      ∃ (t : State), Happens s .rswapKey t ∧ CrewsStand s t ∧
        t = { s with crews := t.crews, fab := { s.fab with busy := true, swapRoute := false, swapKey := true } }) ∧
    (s.fab.busy = true → ∃ (t : State), Happens s .swapComplete t ∧ CrewsStand s t ∧ t.fab.busy = false ∧ (t.fab.ract ↔ s.fab.ract ≠ s.fab.swapRoute) ∧
      (t.fab.kact ↔ s.fab.kact ≠ s.fab.swapKey) ∧ t.fab.keytab0 = s.fab.keytab0 ∧ t.fab.keytab1 = s.fab.keytab1 ∧
      t.fab.route0 = s.fab.route0 ∧ t.fab.route1 = s.fab.route1 ∧ Noticed s t 3 0xFF s.myEp) ∧
    (∀ port, port < 72 →
      let others (f : Fabric → BitVec 72) (t : State) : Prop := ∀ k, k < 72 → k ≠ port → (f t.fab).getLsbD k = (f s.fab).getLsbD k
      let fails (t : State) : Prop := (t.fab.portLive).getLsbD port = false ∧ (t.fab.portFail).getLsbD port = true ∧
        others Fabric.portLive t ∧ others Fabric.portFail t ∧ Noticed s t 1 port s.myEp ∧
        ∀ m ∈ s.fab.strict, m.port = some port → { m with lost := true } ∈ t.fab.strict
      (s.fab.portLive.getLsbD port = true → ∃ (t : State), Happens s (.portFail port) t ∧ CrewsStand s t ∧ fails t) ∧
      (s.fab.portEn.getLsbD port = true → s.fab.portLive.getLsbD port = false → ∃ (t : State), Happens s (.portLive port) t ∧ CrewsStand s t ∧
        t.fab.portLive.getLsbD port = true ∧ others Fabric.portLive t ∧ t.fab.unsent = [] ∧ Noticed s t 2 port s.myEp) ∧
      (s.svc.bootok = true →
        (∃ (t : State), Happens s (.portctlEn port true) t ∧ CrewsStand s t ∧ t.fab.portEn.getLsbD port = true ∧ others Fabric.portEn t ∧
          t.fab.portLive = s.fab.portLive) ∧
        (∃ (t : State), Happens s (.portctlEn port false) t ∧ CrewsStand s t ∧ t.fab.portEn.getLsbD port = false ∧ others Fabric.portEn t ∧
          (s.fab.portEn.getLsbD port = true → fails t)) ∧
        (∃ (t : State), Happens s (.portctlFailClear port) t ∧ CrewsStand s t ∧
          t = { s with crews := t.crews, fab := { s.fab with portFail := t.fab.portFail } } ∧ t.fab.portFail.getLsbD port = false ∧
          others Fabric.portFail t) ∧
        ∃ (t : State), Happens s (.portctlKclr port) t ∧ CrewsStand s t ∧
          t = { s with crews := t.crews, fab := { s.fab with kdrop := t.fab.kdrop } } ∧
          ∀ k, sget 0 t.fab.kdrop k = if k = port then 0 else sget 0 s.fab.kdrop k)) ∧
    (∀ master offset, s.routeOk (s.fab.ftsrc.toNat % 2 ^ 14) = true → ∃ (t : State), Happens s (.ftimeSyncExchange master offset) t ∧ CrewsStand s t ∧ t.fab.everLocked = true ∧
      t.fab.ofs = offset ∧ t.ftime = (if s.fab.everLocked then s.ftime else master) ∧
      t.fab.slew = (if s.fab.everLocked then 3000000 * ((master.toNat : Int) - s.ftime.toNat) - s.ftfrac else 0) ∧
      (t.fab.slew.natAbs ≤ 30000000 → t.fab.lock = true ∧ t.fab.syncAt = s.micros ∧ (s.fab.lock = false → Noticed s t 6 0xFF s.myEp) ∧
        (s.fab.lock = true → t.fab.nring = s.fab.nring)) ∧
      (30000000 < t.fab.slew.natAbs → t.fab.lock = s.fab.lock ∧ t.fab.syncAt = s.fab.syncAt ∧ t.fab.nring = s.fab.nring)) ∧
    (s.fab.lock = true → s.fab.syncAt + 1000 ≤ s.micros → ∃ (t : State), Happens s .ftimeLockLoss t ∧ CrewsStand s t ∧ t.fab.lock = false ∧ t.ftime = s.ftime ∧ Noticed s t 5 0xFF s.myEp)

/-! ## Service -/

/-- R345, R368, R370, R371, Table 26.2: a corrected error is counted in the counter of its unit, which saturates, an uncorrectable one poisons the word that it strikes and counts in UECNT; CECLR clears. Throttling changes no result and holds PWRNOW at the cap; at an outlet of 95 °C the device
is HOT, below 85 °C no longer (the units: log entry 33). A reset with an image whose key
hashes to the fused hash and whose signature verifies hashes it into MEAS, sets BOOTOK and takes the endpoints and the key of its signed
configuration; another image is not run. The hash, the signature check and the layout of the configuration are constants without a value
(log entry 22). A quote signs the hash of ATTNONCE, MEAS, IDENT and SERIAL; a write to ATTNONCE makes it invalid. -/
def Obligations.ErrorsBootAndQuotes : Prop :=
  ∀ s : State,
    (∀ u, u < 6 → ∃ (t : State), Happens s (.correctableError u) t ∧ CrewsStand s t ∧ t = { s with crews := t.crews, svc := { s.svc with cecnt := t.svc.cecnt } } ∧
      ∀ k, (sget 0 t.svc.cecnt k).toNat = if k = u then min ((sget 0 s.svc.cecnt k).toNat + 1) 0xFFFFFFFF else (sget 0 s.svc.cecnt k).toNat) ∧
    (∀ place, ∃ (t : State), Happens s (.uncorrectableError place) t ∧ t.mem = s.mem ∧ RegistersStand s t ∧
      t.svc.uecnt.toNat = min (s.svc.uecnt.toNat + 1) 0xFFFFFFFF ∧
      (∀ w, place = .memory w → t.poisoned (4 * w) 4 = true) ∧
      (∀ lid tid w x, place = .scratch lid tid w → s.team? lid tid = some x → t.scratchPoisoned lid tid (4 * w) 4 = true) ∧
      (∀ cid a l c, place = .laneReg cid a l → s.crew? cid = some c → ∃ d, t.crew? cid = some d ∧ 32 * a + l ∈ d.vpoison) ∧
      (∀ cid n c, place = .uniformReg cid n → s.crew? cid = some c → ∃ d, t.crew? cid = some d ∧ n ∈ d.spoison) ∧
      (∀ core asid num w x, place = .tile core asid num w → s.tile? core asid num = some x →
        ∃ y, t.tile? core asid num = some y ∧ w ∈ y.poison ∧ y.words = x.words) ∧
      (∀ k w, place = .shell k w → w < 16 → w ∈ t.payloadPoison k) ∧
      (∀ lid i k x, place = .buffer lid i k → s.seat? lid i = some x → ∃ y, t.seat? lid i = some y ∧ k ∈ y.bad) ∧
      (∀ core w x, place = .l1 core w → s.l1Word? core w = some x →
        (x.st = .clean → ∃ y, t.l1Word? core w = some y ∧ y.bad = true ∧ y.data = x.data) ∧ (x.st ≠ .clean → t.poisoned (4 * w) 4 = true))) ∧
    (∀ v : DWord, s.svc.bootok = true → ∃ (t : State), Happens s (.ceclrWrite v) t ∧ CrewsStand s t ∧
      (∀ k, k < 6 → sget 0 t.svc.cecnt k = if v.getLsbD k then 0 else sget 0 s.svc.cecnt k) ∧
      t.svc.uecnt = if v.getLsbD 6 then 0 else s.svc.uecnt) ∧
    (∀ on, ∃ (t : State), Happens s (.powerThrottle on) t ∧ CrewsStand s t ∧ t.svc.throt = on ∧
      t.svc.pwrnow.toNat ≤ max 1500 (min 3000 s.svc.pwrcap.toNat) ∧
      t = { s with crews := t.crews, free := s.free + 1, svc := { s.svc with throt := t.svc.throt, pwrnow := t.svc.pwrnow } }) ∧
    (∀ outlet : Half,
      (∃ (t : State), Happens s (.hotStop outlet) t ∧ CrewsStand s t ∧ (t.svc.hot = true ↔ 950 ≤ outlet.toNat ∨ (s.svc.hot = true ∧ 850 ≤ outlet.toNat)) ∧
        t.svc.tcool.toNat / 2 ^ 16 = outlet.toNat) ∧
      ∃ (t : State), Happens s (.hotClear outlet) t ∧ CrewsStand s t ∧ (t.svc.hot = true ↔ 950 ≤ outlet.toNat ∨ (s.svc.hot = true ∧ 850 ≤ outlet.toNat)) ∧
        t.svc.tcool.toNat / 2 ^ 16 = outlet.toNat) ∧
    (∀ b : BootImage,
      let passes : Prop := Config.sha512 b.key = Config.fusedKeyHash ∧ Config.verifies b.key (Config.sha512 b.image) b.signature = true
      let config := Config.configOf b.image
      ∃ (t : State), Happens s (.deviceReset b) t ∧ t.crews = [] ∧ t.contexts = [] ∧ t.launches = [] ∧
      (∀ n, t.part n = Partition.reset) ∧ (∀ n, t.bay n = Bay.reset) ∧ t.svc.pwrcap = 3000 ∧ t.svc.hot = false ∧
      (t.svc.bootok = true ↔ passes) ∧
      (passes → t.svc.meas0 = Config.sha512 b.image ∧ t.svc.meas1 = Config.sha512 config ∧ t.svc.mgmtEp = Config.mgmtEp config ∧
        t.svc.mgmtKey = Config.mgmtKey config ∧ t.fab.fctl = (Config.myEp config).zeroExtend 32) ∧
      ∀ a, inDevice a = true → t.readByte a = 0) ∧
    (s.svc.bootok = true → s.svc.attBusy = false →
      (∃ (t : State), Happens s .attGo t ∧ CrewsStand s t ∧ t = { s with crews := t.crews, svc := { s.svc with attBusy := true } }) ∧
      ∀ (off : Nat) (v : DWord), off % 8 = 0 → off < 64 → ∃ (t : State), Happens s (.attnonceWrite off v) t ∧ CrewsStand s t ∧ t.svc.attValid = false ∧
        ∀ k, k < 64 → sget 0 t.svc.nonce k = if off ≤ k ∧ k < off + 8 then BitVec.ofNat 8 (v.toNat / 256 ^ (k - off)) else sget 0 s.svc.nonce k) ∧
    (s.svc.attBusy = true → ∃ (t : State), Happens s .attQuoteDone t ∧ CrewsStand s t ∧ t.svc.attBusy = false ∧ t.svc.attValid = true ∧
      ∀ k, k < 512 → sget 0 t.svc.quote k = Config.signature (Config.sha512 (sgetList 0 s.svc.nonce 0 64 ++ leBytes 64 s.svc.meas0.toNat ++
        leBytes 64 s.svc.meas1.toNat ++ leBytes 8 identValue.toNat ++ leBytes 8 Config.serial.toNat)) k)

/-- R303, R369, R372, Table 26.2: CORERET and a failing margin retire a core: nothing more is placed on it, and once nothing runs on it a free spare of its die takes its index, or it stays fenced with DEGRADED and REPLACE set. EOL near the date sets
REPLACE (the epoch of FTIME: log entry 22). A write to the management window reaches the register at its offset: the plain registers take its value, the commands act as the events of their names do (log entry 19 for what the manual leaves open there). -/
def Obligations.AgeingAndTheWindow : Prop :=
  ∀ s : State,
    let retired (t : State) (core : Nat) : Prop :=
      (0 < sget 0 s.svc.spares (core / 72) → t.svc.retRes = 0 ∧ t.svc.fenced = s.svc.fenced ∧ t.svc.replace = s.svc.replace ∧
        sget 0 t.svc.spares (core / 72) + 1 = sget 0 s.svc.spares (core / 72)) ∧
      (sget 0 s.svc.spares (core / 72) = 0 → t.svc.retRes = 2 ∧ core ∈ t.svc.fenced ∧ t.svc.degraded = true ∧ t.svc.replace = true)
    (∀ core, core < 288 → core ∉ s.svc.fenced →
      (s.coreIdle core = true → ∃ (t : State), Happens s (.coreMarginFail core) t ∧ retired t core ∧
        ((∀ l ∈ s.launches, s.coxRuns l = false ∧ l.slots = []) → CrewsStand s t ∧ t = { s with crews := t.crews, svc := t.svc })) ∧
      (s.coreIdle core = false → core ∉ s.svc.retiring → ∃ (t : State), Happens s (.coreMarginFail core) t ∧ CrewsStand s t ∧
        t = { s with crews := t.crews, svc := { s.svc with retiring := s.svc.retiring ++ [core] } }) ∧
      (∀ v : DWord, v.toNat % 512 = core → s.svc.bootok = true → s.svc.retBusy = false →
        (s.coreIdle core = true → ∃ (t : State), Happens s (.coreretWrite v) t ∧ t.svc.retBusy = false ∧ retired t core) ∧
        (s.coreIdle core = false → ∃ (t : State), Happens s (.coreretWrite v) t ∧ CrewsStand s t ∧ t.svc.retBusy = true ∧ core ∈ t.svc.retiring))) ∧
    (∀ v : DWord, 288 ≤ v.toNat % 512 → s.svc.bootok = true → s.svc.retBusy = false → ∃ (t : State), Happens s (.coreretWrite v) t ∧ CrewsStand s t ∧
      t = { s with crews := t.crews, svc := { s.svc with retRes := 1 } }) ∧
    (∀ date : Word, ∃ (t : State), Happens s (.eolUpdate date) t ∧ CrewsStand s t ∧ t.svc.eol = date ∧
      (t.svc.replace = true ↔ s.svc.replace = true ∨ (s.svc.eol ≠ 0 ∧ s.svc.eol.toNat ≤ s.today + 90) ∨
        (date ≠ 0 ∧ date.toNat ≤ s.today + 90))) ∧
    (s.svc.bootok = true →
      (∀ v : DWord, ∃ (t : State), Happens s (.mgmtRegisterWrite 0x018 8 v) t ∧ CrewsStand s t ∧
        t = { s with crews := t.crews, svc := { s.svc with pwrcap := v &&& 0xFFFF } }) ∧
      (∀ (n : Nat) (v : DWord), s.parts.length = 24 → n < 24 →
        ((s.part n).busy = true → exec (.mgmtRegisterWrite (0x100000 + 0x1000 * n + 0x008) 4 v) s = .next s ∧
          exec (.mgmtRegisterWrite (0x100000 + 0x1000 * n + 0x020) 8 v) s = .next s) ∧
        (∃ (t : State), Happens s (.mgmtRegisterWrite (0x500000 + 0x100 * n) 8 v) t ∧ CrewsStand s t ∧ t.part n = { s.part n with roottab := v }) ∧
        ((s.part n).busy = false →
          (∃ (t : State), Happens s (.mgmtRegisterWrite (0x100000 + 0x1000 * n + 0x008) 4 v) t ∧ CrewsStand s t ∧
            t.part n = { s.part n with psched := (v.truncate 32 : Word) &&& 0x1F }) ∧
          (∃ (t : State), Happens s (.mgmtRegisterWrite (0x100000 + 0x1000 * n + 0x020) 8 v) t ∧ CrewsStand s t ∧ t.part n = { s.part n with ctxtab := v }) ∧
          exec (.mgmtRegisterWrite (0x100000 + 0x1000 * n) 4 v) s = exec (.pctlWrite n (v.truncate 32)) s ∧
          ∀ asid, asid < 65536 → v = BitVec.ofNat 64 (0x10000 + asid) →
            exec (.mgmtRegisterWrite (0x100000 + 0x1000 * n + 0x028) 4 v) s = exec (.ctxStart n asid) s)) ∧
      (∀ v : DWord, exec (.mgmtRegisterWrite 0x100 8 v) s = exec (.coreretWrite v) s ∧ exec (.mgmtRegisterWrite 0x078 8 v) s = exec (.ceclrWrite v) s) ∧
      (∀ e (v : DWord), e < 64 → exec (.mgmtRegisterWrite (0x200000 + 8 * e) 8 v) s = exec (.kbktWrite e v) s) ∧
      (∀ e (v : DWord), e < 64 → s.fab.kact = true → ∃ (t : State), Happens s (.mgmtRegisterWrite (0x220000 + 8 * e) 8 v) t ∧ CrewsStand s t ∧
        t.fab.keytab1 = s.fab.keytab1 ∧
        ∀ k, sget 0 t.fab.keytab0 k = if k = e then
          (sget 0 s.fab.keytab0 k &&& 0xFFFFFFFF00000000) ||| (v &&& 0xC01FFFFF) else sget 0 s.fab.keytab0 k) ∧
      (∀ e (v : DWord), e < 64 → s.fab.kact = false → exec (.mgmtRegisterWrite (0x220000 + 8 * e) 8 v) s = .next s) ∧
      (∀ o v, 0x1000000 ≤ o → exec (.mgmtRegisterWrite o 8 v) s = .next s))

/-! ## Tables, rounding and the traps of instructions -/

/-- R26, R135, R173, R227: in every state whose sparse tables (owners, write counts, shells, tokens and the scratchpads of the teams) are in
their canonical form (log entry 1) and whose barrier entries, those of pre-empted teams among them, have the numbers of a core's table, a step
leaves such a state; the state after reset is one. -/
def Obligations.EveryStepKeepsTheTables : Prop :=
  State.reset.TablesWf ∧ ∀ s t : State, s.TablesWf → step s = .next t → t.TablesWf

/-- R77 to R79, Table 5.2: how an exact nonzero value becomes a value of FP32, FP16 or BF16. The code that the mode takes it to, with the
exponent range unbounded above, is delivered with the value's sign; inexact says that the value changed, underflow that the result is tiny
(its value rounded with an unbounded exponent lies below the smallest normal) and inexact. A code above the largest finite one overflows
to the result of Table 5.2 with overflow and inexact. A magnitude of which only the leading bits are known, with some value left below
them, rounds as one half of its last bit further does. A zero keeps its sign. -/
def Obligations.RoundingAndItsFlags : Prop :=
  ∀ (f : Fmt) (total : Nat) (r : Rnd) (neg : Bool) (m : Nat) (e : Int),
    (f = Fmt.f32 ∧ total = 32) ∨ ((f = Fmt.f16 ∨ f = Fmt.bf16) ∧ total = 16) →
    f.deliver total r (.fin neg 0 e) = (withSign total neg 0, Flags.none) ∧
    (f.frac < Nat.log2 m → f.roundFinite total r neg m e true = f.deliver total r (.fin neg (2 * m + 1) (e - 1))) ∧
    (m ≠ 0 →
      let low : Int := 1 - f.bias - f.frac
      let d := 2 ^ (low - e).toNat
      let x := m * 2 ^ (e - low).toNat
      let tiny : Prop := ∀ j k, 2 ^ f.frac * d ≤ x * 2 ^ j → RoundsTo f r neg (x * 2 ^ j) d k → units f k < 2 ^ f.frac * 2 ^ j
      ∃ k, RoundsTo f r neg x d k ∧
        (k ≤ f.maxMag → ∃ under inexact : Bool, (inexact = true ↔ units f k * d ≠ x) ∧ (under = true ↔ tiny ∧ inexact = true) ∧
          f.deliver total r (.fin neg m e) = (withSign total neg k, Flags.ofRound false under inexact)) ∧
        (f.maxMag < k → f.deliver total r (.fin neg m e) = (withSign total neg (match r with
          | .rn => f.maxMag + 1
          | .rz => f.maxMag
          | .ru => if neg then f.maxMag else f.maxMag + 1
          | .rd => if neg then f.maxMag + 1 else f.maxMag), Flags.ofRound true false true)))

/-- R29, R42, R53, R246, R249, R250, R253, R259, R285, R349, R350, Table 21.1: where the instructions of control flow trap. IF, LOOP and a
SPLIT that opens an inline or a fallback construct raise NCOVF with the lowest lane of the split whose NC is 255, or 0x100 for AD; CALL,
RET, STEP and FB.MARK of a crew of several splits SPLITSTATE 1, SPLIT on a full construct stack 2, STEP in a frame 4 and in a construct 5;
CALL SPILLOVF at the deepest frame or for the lowest granule that the spill area does not hold (log entry 10), and ILLOP for a slide
outside 1 to 15, RET ILLOP outside a frame. A write to a pinned register, CALL's link among them, raises PINWRITE. Each trap has TADDR 0
but SPILLOVF. -/
def Obligations.ControlTraps : Prop :=
  ∀ (s : State) (c : Crew) (p : Split), Issues s c p →
    let k := reads s c p
    let raises (i : Instr) (cause : Cause) (taddr taux : Nat) : Prop :=
      exec i s = .next (s.raise c.cid p.sid ⟨cause, p.pc, BitVec.ofNat 64 taddr, BitVec.ofNat 64 taux⟩)
    let free := p.inHandler = false ∧ p.recipe = false
    (∀ n, (n < 32 ∧ p.mask.getLsbD n = true ∧ c.ncOf n = 255 ∧ ∀ l, l < n → p.mask.getLsbD l = true → c.ncOf l ≠ 255) ∨
        (n = 0x100 ∧ p.ad = 255 ∧ ∀ l, l < 32 → p.mask.getLsbD l = true → c.ncOf l ≠ 255) →
      (∀ r, raises (.loop r) .ncovf 0 n) ∧
      ∀ a r, Clear s k p { srcs := [a] } false → raises (.ifLc a r) .ncovf 0 n ∧
        (p.inHandler = false → p.stack.length < 16 → p.fb ≠ none ∨ 24 ≤ s.extraSplits c.core c.row → raises (.split a r) .ncovf 0 n)) ∧
    (c.splits.length ≠ 1 →
      (∀ n r, n ≠ 0 → n.toNat < 16 → raises (.call n r) .splitstate 0 1) ∧ raises .ret .splitstate 0 1 ∧
      (s.inField c = true → p.inHandler = false → raises .step .splitstate 0 1) ∧
      ∀ a b e, p.inHandler = false → Clear s k p { us := [a.toNat, b.toNat, e.toNat] } true → raises (.fbMark a b e) .splitstate 0 1) ∧
    (∀ a r, p.inHandler = false → Clear s k p { srcs := [a] } false → 16 ≤ p.stack.length → raises (.split a r) .splitstate 0 2) ∧
    (s.inField c = true → p.inHandler = false → c.splits.length = 1 →
      (c.depth ≠ 0 → raises .step .splitstate 0 4) ∧ (c.depth = 0 → p.stack ≠ [] → raises .step .splitstate 0 5)) ∧
    (∀ n r, n = 0 ∨ 16 ≤ n.toNat → raises (.call n r) .illop 0 (encode (.call n r)).toNat) ∧
    (c.splits.length = 1 → c.depth = 0 → raises .ret .illop 0 (encode .ret).toNat) ∧
    (∀ n r, n ≠ 0 → n.toNat < 16 → c.splits.length = 1 →
      let low := (c.wb + 8 * n.toNat) / 32
      let high := (c.wb + 8 * n.toNat + c.ws - 1) / 32
      (65535 ≤ c.depth → raises (.call n r) .spillovf 0 0) ∧
      (c.depth < 65535 → 0 < c.ws →
        (∀ g, low ≤ g → g ≤ high → c.spillSize < 4096 * (g + 1) → (∀ h, low ≤ h → h < g → 4096 * (h + 1) ≤ c.spillSize) →
          raises (.call n r) .spillovf (4096 * (g + 1)) 0) ∧
        ((∀ g, low ≤ g → g ≤ high → 4096 * (g + 1) ≤ c.spillSize) → free → c.wb + 8 * n.toNat - 2 ∈ p.mark.lpin →
          raises (.call n r) .pinwrite 0 (8 * n.toNat - 2)))) ∧
    (∀ i d srcs rd f, IntRow i d srcs rd f → free → d.toNat < c.ws → (∀ x ∈ srcs, ∃ n, (x = .v n ∧ n.toNat < c.ws) ∨ x = .s (n.truncate 6)) →
      c.wb + d.toNat ∈ p.mark.lpin → raises i .pinwrite 0 d.toNat) ∧
    (∀ i d us f, UniRow i d us f → free → (∃ q ∈ c.splits, d.toNat ∈ q.mark.upin) → raises i .pinwrite 0 (0x80 + d.toNat))

/-- R121, R125, R135, R138, R158, R181, R186, R190, Tables 7.5, 9.12 and 21.3: where memory, copy and matrix instructions trap. A lane load or
store raises ALIGN with the lowest misaligned lane's address, then SPRANGE with that of the lowest lane outside the team's allocation, and a
squad-window load SPRANGE or QGONE; a global load, and an ATOM with bit 16 of TAUX, raises LDFAULT where its first lane does not translate.
CP.BULK and MMA raise ENGARG for the first operand that breaks a rule, with its lowest reason (log entry 39), ACC.ZERO for a tile of
another team and MMA for one that its team does not own. BAR.ARRIVE.Q on a team-scope object raises BADBAR. -/
def Obligations.MemoryTraps : Prop :=
  ∀ (s : State) (c : Crew) (p : Split), Issues s c p →
    let k := reads s c p
    let raises (i : Instr) (cause : Cause) (taddr : DWord) (taux : Nat) : Prop :=
      exec i s = .next (s.raise c.cid p.sid ⟨cause, p.pc, taddr, BitVec.ofNat 64 taux⟩)
    let first (l : Nat) (bad : Nat → Prop) : Prop := l ∈ activeLanes c p ∧ bad l ∧ ∀ m ∈ activeLanes c p, m < l → ¬ bad m
    (∀ i sp size t x b sc l, (LoadRow i sp size t x b sc ∧ FenceOver s c p ∧
          Clear s k p { rd := lmIndex x, wr := group t (widthRegs size), us := [b.toNat] } false) ∨
        (StoreRow i sp size t x b sc ∧ Clear s k p { rd := lmIndex x ++ group t (widthRegs size), us := [b.toNat] } false) →
      (x.msb = true → sc = 0) → t.toNat % widthRegs size = 0 →
      let addr (l : Nat) : DWord := lmAddr k l x b sc
      (first l (fun l => (addr l).toNat % size ≠ 0) → raises i .align (addr l) 0) ∧
      ((∀ l ∈ activeLanes c p, (addr l).toNat % size = 0) →
        (sp = .scratch → first l (fun l => s.scratchSize c.lid c.team < (addr l).toNat + size) → raises i .sprange (addr l) 0) ∧
        (LoadRow i sp size t x b sc → sp = .squad →
          (first l (fun l => s.squadBad c (addr l) = true) → raises i .sprange (addr l) 0) ∧
          ((∀ l ∈ activeLanes c p, s.squadBad c (addr l) = false) → first l (fun l => s.squadGone c (addr l) = true) →
            raises i .qgone (addr l) 0)) ∧
        (LoadRow i sp size t x b sc → sp = .global → ∀ r, first l (fun _ => True) → s.translate c.core c.asid (addr l) .read = .error r →
          raises i .ldfault (addr l) (r.code + 256 * l)))) ∧
    (∀ i o sq t a sc e l, AtomRow i o sq t a sc e → a.toNat % 2 = 0 → a.msb = false →
      let n := if sq then 2 * o.group else o.group
      let size := if o.wide then 8 else 4
      t.toNat % n = 0 → Clear s k p { rd := [a.toNat, a.toNat + 1] ++ group t o.group, wr := group t n } true →
      (e = .rel ∨ e = .ar → s.drainedFor c p = true) → FenceOver s c p →
      (first l (fun l => (c.vPair l a.toNat).toNat % size ≠ 0) → raises i .align (c.vPair l a.toNat) 0) ∧
      ((∀ l ∈ activeLanes c p, (c.vPair l a.toNat).toNat % size = 0) → ∀ r, first l (fun _ => True) →
        s.translate c.core c.asid (c.vPair l a.toNat) .write = .error r →
        raises i .ldfault (c.vPair l a.toNat) (r.code + 256 * l + 2 ^ 16))) ∧
    (∀ a b cc e, Clear s k p { us := [a.toNat, b.toNat, cc.toNat, e.toNat] } true → FenceOver s c p →
      let x := (k.u a.toNat).toNat
      let y := k.u b.toNat
      let z := k.u cc.toNat
      let n := x % 2 ^ 32
      let src := x / 2 ^ 32 % 4
      let dst := x / 2 ^ 34 % 4
      let out (v : DWord) : Prop := s.scratchSize c.lid c.team < v.toNat + n
      let engArg (taddr : DWord) (operand reason : Nat) : Prop := raises (.cpBulk a b cc e) .engarg taddr (16 * operand + reason)
      (2 ^ 36 ≤ x → engArg 0 0 1) ∧
      (x < 2 ^ 36 →
        (n = 0 ∨ n % 4 ≠ 0 → engArg 0 0 8) ∧
        (n ≠ 0 → n % 4 = 0 → (src = 3 ∨ dst = 3 → engArg 0 0 9) ∧
          (src < 3 → dst < 3 →
            (y.toNat % 4 ≠ 0 → engArg y 1 2) ∧
            (y.toNat % 4 = 0 → dst = 1 → out y → engArg y 1 3) ∧
            (y.toNat % 4 = 0 → (dst = 1 → ¬ out y) →
              (z.toNat % 4 ≠ 0 → engArg z 2 2) ∧
              (z.toNat % 4 = 0 → src = 1 → out z → engArg z 2 3) ∧
              (z.toNat % 4 = 0 → (src = 1 → ¬ out z) → 2 ^ 17 ≤ (k.u e.toNat).toNat → engArg 0 3 1)))))) ∧
    (∀ a b cc e, Clear s k p { us := [a.toNat, b.toNat, cc.toNat, e.toNat] } true →
      let t := (k.u a.toNat).toNat
      let y := k.u b.toNat
      let out (v : DWord) : Prop := s.scratchSize c.lid c.team < v.toNat + 3072
      (16 ≤ t → raises (.mma a b cc e) .engarg 0 1) ∧
      (t < 16 → y.toNat % 16 ≠ 0 → raises (.mma a b cc e) .engarg y (16 + 2)) ∧
      (t < 16 → y.toNat % 16 = 0 → out y → raises (.mma a b cc e) .engarg y (16 + 3))) ∧
    (∀ a, Clear s k p { us := [a.toNat] } true →
      let t := (k.u a.toNat).toNat
      (16 ≤ t → raises (.accZero a) .engarg 0 1) ∧
      (∀ x, t < 16 → s.tile? c.core c.asid t = some x → x.lid ≠ c.lid ∨ x.team ≠ c.team → raises (.accZero a) .engarg 0 5)) ∧
    (∀ a b o, Clear s k p { us := [a.toNat, b.toNat] } true →
      let at' := k.u b.toNat
      let team := s.squadTeam c at'
      let core := match s.team? c.lid team with | some t => t.core | none => c.core
      at'.toNat % 0x100000 = 0 → checkRanks (begun s c p) k p.pc [(0, at')] = .ok () → (k.u a.toNat).toNat < 2 ^ 17 →
      s.handleObj core c.lid team (k.u a.toNat) = some o → s.barValid c.cid p o = true → s.barSettled c p o = true → o.squad = false →
      raises (.barArriveQ a b) .badbar 0 (k.u a.toNat).toNat)
end

