-- ==== Sys2Proof/Laws/State.lean ====
section
/-! SUPPORT. What each update of the state leaves of each of its fields, and what it makes of the field that it changes.
Every lemma holds by unfolding the update once. -/

namespace Sys2Proof.Machine

variable (s : State)

/-! ## modCrew -/

@[simp] theorem State.modCrew_cycle (cid : Nat) (f : Crew → Crew) : (s.modCrew cid f).cycle = s.cycle := rfl
@[simp] theorem State.modCrew_ftime (cid : Nat) (f : Crew → Crew) : (s.modCrew cid f).ftime = s.ftime := rfl
@[simp] theorem State.modCrew_ftfrac (cid : Nat) (f : Crew → Crew) : (s.modCrew cid f).ftfrac = s.ftfrac := rfl
@[simp] theorem State.modCrew_cur (cid : Nat) (f : Crew → Crew) : (s.modCrew cid f).cur = s.cur := rfl
@[simp] theorem State.modCrew_picks (cid : Nat) (f : Crew → Crew) : (s.modCrew cid f).picks = s.picks := rfl
@[simp] theorem State.modCrew_woke (cid : Nat) (f : Crew → Crew) : (s.modCrew cid f).woke = s.woke := rfl
@[simp] theorem State.modCrew_entered (cid : Nat) (f : Crew → Crew) : (s.modCrew cid f).entered = s.entered := rfl
@[simp] theorem State.modCrew_passed (cid : Nat) (f : Crew → Crew) : (s.modCrew cid f).passed = s.passed := rfl
@[simp] theorem State.modCrew_arrived (cid : Nat) (f : Crew → Crew) : (s.modCrew cid f).arrived = s.arrived := rfl
@[simp] theorem State.modCrew_sfu (cid : Nat) (f : Crew → Crew) : (s.modCrew cid f).sfu = s.sfu := rfl
@[simp] theorem State.modCrew_tape (cid : Nat) (f : Crew → Crew) : (s.modCrew cid f).tape = s.tape := rfl
@[simp] theorem State.modCrew_nextId (cid : Nat) (f : Crew → Crew) : (s.modCrew cid f).nextId = s.nextId := rfl
@[simp] theorem State.modCrew_free (cid : Nat) (f : Crew → Crew) : (s.modCrew cid f).free = s.free := rfl
@[simp] theorem State.modCrew_age (cid : Nat) (f : Crew → Crew) : (s.modCrew cid f).age = s.age := rfl
@[simp] theorem State.modCrew_crews (cid : Nat) (f : Crew → Crew) : (s.modCrew cid f).crews = s.crews.map fun c => if c.cid == cid then f c else c := rfl
@[simp] theorem State.modCrew_teams (cid : Nat) (f : Crew → Crew) : (s.modCrew cid f).teams = s.teams := rfl
@[simp] theorem State.modCrew_launches (cid : Nat) (f : Crew → Crew) : (s.modCrew cid f).launches = s.launches := rfl
@[simp] theorem State.modCrew_seats (cid : Nat) (f : Crew → Crew) : (s.modCrew cid f).seats = s.seats := rfl
@[simp] theorem State.modCrew_remote (cid : Nat) (f : Crew → Crew) : (s.modCrew cid f).remote = s.remote := rfl
@[simp] theorem State.modCrew_contexts (cid : Nat) (f : Crew → Crew) : (s.modCrew cid f).contexts = s.contexts := rfl
@[simp] theorem State.modCrew_parts (cid : Nat) (f : Crew → Crew) : (s.modCrew cid f).parts = s.parts := rfl
@[simp] theorem State.modCrew_bays (cid : Nat) (f : Crew → Crew) : (s.modCrew cid f).bays = s.bays := rfl
@[simp] theorem State.modCrew_bars (cid : Nat) (f : Crew → Crew) : (s.modCrew cid f).bars = s.bars := rfl
@[simp] theorem State.modCrew_barGen (cid : Nat) (f : Crew → Crew) : (s.modCrew cid f).barGen = s.barGen := rfl
@[simp] theorem State.modCrew_faultq (cid : Nat) (f : Crew → Crew) : (s.modCrew cid f).faultq = s.faultq := rfl
@[simp] theorem State.modCrew_mats (cid : Nat) (f : Crew → Crew) : (s.modCrew cid f).mats = s.mats := rfl
@[simp] theorem State.modCrew_tiles (cid : Nat) (f : Crew → Crew) : (s.modCrew cid f).tiles = s.tiles := rfl
@[simp] theorem State.modCrew_copies (cid : Nat) (f : Crew → Crew) : (s.modCrew cid f).copies = s.copies := rfl
@[simp] theorem State.modCrew_held (cid : Nat) (f : Crew → Crew) : (s.modCrew cid f).held = s.held := rfl
@[simp] theorem State.modCrew_shells (cid : Nat) (f : Crew → Crew) : (s.modCrew cid f).shells = s.shells := rfl
@[simp] theorem State.modCrew_shpoison (cid : Nat) (f : Crew → Crew) : (s.modCrew cid f).shpoison = s.shpoison := rfl
@[simp] theorem State.modCrew_cooling (cid : Nat) (f : Crew → Crew) : (s.modCrew cid f).cooling = s.cooling := rfl
@[simp] theorem State.modCrew_shreqs (cid : Nat) (f : Crew → Crew) : (s.modCrew cid f).shreqs = s.shreqs := rfl
@[simp] theorem State.modCrew_landings (cid : Nat) (f : Crew → Crew) : (s.modCrew cid f).landings = s.landings := rfl
@[simp] theorem State.modCrew_mem (cid : Nat) (f : Crew → Crew) : (s.modCrew cid f).mem = s.mem := rfl
@[simp] theorem State.modCrew_mpoison (cid : Nat) (f : Crew → Crew) : (s.modCrew cid f).mpoison = s.mpoison := rfl
@[simp] theorem State.modCrew_wseq (cid : Nat) (f : Crew → Crew) : (s.modCrew cid f).wseq = s.wseq := rfl
@[simp] theorem State.modCrew_owner (cid : Nat) (f : Crew → Crew) : (s.modCrew cid f).owner = s.owner := rfl
@[simp] theorem State.modCrew_l1 (cid : Nat) (f : Crew → Crew) : (s.modCrew cid f).l1 = s.l1 := rfl
@[simp] theorem State.modCrew_fused (cid : Nat) (f : Crew → Crew) : (s.modCrew cid f).fused = s.fused := rfl
@[simp] theorem State.modCrew_regs (cid : Nat) (f : Crew → Crew) : (s.modCrew cid f).regs = s.regs := rfl
@[simp] theorem State.modCrew_adds (cid : Nat) (f : Crew → Crew) : (s.modCrew cid f).adds = s.adds := rfl
@[simp] theorem State.modCrew_acks (cid : Nat) (f : Crew → Crew) : (s.modCrew cid f).acks = s.acks := rfl
@[simp] theorem State.modCrew_l2 (cid : Nat) (f : Crew → Crew) : (s.modCrew cid f).l2 = s.l2 := rfl
@[simp] theorem State.modCrew_mirrors (cid : Nat) (f : Crew → Crew) : (s.modCrew cid f).mirrors = s.mirrors := rfl
@[simp] theorem State.modCrew_misses (cid : Nat) (f : Crew → Crew) : (s.modCrew cid f).misses = s.misses := rfl
@[simp] theorem State.modCrew_spillq (cid : Nat) (f : Crew → Crew) : (s.modCrew cid f).spillq = s.spillq := rfl
@[simp] theorem State.modCrew_wfill (cid : Nat) (f : Crew → Crew) : (s.modCrew cid f).wfill = s.wfill := rfl
@[simp] theorem State.modCrew_icache (cid : Nat) (f : Crew → Crew) : (s.modCrew cid f).icache = s.icache := rfl
@[simp] theorem State.modCrew_levels (cid : Nat) (f : Crew → Crew) : (s.modCrew cid f).levels = s.levels := rfl
@[simp] theorem State.modCrew_ticks (cid : Nat) (f : Crew → Crew) : (s.modCrew cid f).ticks = s.ticks := rfl
@[simp] theorem State.modCrew_tlb (cid : Nat) (f : Crew → Crew) : (s.modCrew cid f).tlb = s.tlb := rfl
@[simp] theorem State.modCrew_fab (cid : Nat) (f : Crew → Crew) : (s.modCrew cid f).fab = s.fab := rfl
@[simp] theorem State.modCrew_svc (cid : Nat) (f : Crew → Crew) : (s.modCrew cid f).svc = s.svc := rfl

/-! ## modSplit -/

@[simp] theorem State.modSplit_cycle (cid sid : Nat) (f : Split → Split) : (s.modSplit cid sid f).cycle = s.cycle := rfl
@[simp] theorem State.modSplit_ftime (cid sid : Nat) (f : Split → Split) : (s.modSplit cid sid f).ftime = s.ftime := rfl
@[simp] theorem State.modSplit_ftfrac (cid sid : Nat) (f : Split → Split) : (s.modSplit cid sid f).ftfrac = s.ftfrac := rfl
@[simp] theorem State.modSplit_cur (cid sid : Nat) (f : Split → Split) : (s.modSplit cid sid f).cur = s.cur := rfl
@[simp] theorem State.modSplit_picks (cid sid : Nat) (f : Split → Split) : (s.modSplit cid sid f).picks = s.picks := rfl
@[simp] theorem State.modSplit_woke (cid sid : Nat) (f : Split → Split) : (s.modSplit cid sid f).woke = s.woke := rfl
@[simp] theorem State.modSplit_entered (cid sid : Nat) (f : Split → Split) : (s.modSplit cid sid f).entered = s.entered := rfl
@[simp] theorem State.modSplit_passed (cid sid : Nat) (f : Split → Split) : (s.modSplit cid sid f).passed = s.passed := rfl
@[simp] theorem State.modSplit_arrived (cid sid : Nat) (f : Split → Split) : (s.modSplit cid sid f).arrived = s.arrived := rfl
@[simp] theorem State.modSplit_sfu (cid sid : Nat) (f : Split → Split) : (s.modSplit cid sid f).sfu = s.sfu := rfl
@[simp] theorem State.modSplit_tape (cid sid : Nat) (f : Split → Split) : (s.modSplit cid sid f).tape = s.tape := rfl
@[simp] theorem State.modSplit_nextId (cid sid : Nat) (f : Split → Split) : (s.modSplit cid sid f).nextId = s.nextId := rfl
@[simp] theorem State.modSplit_free (cid sid : Nat) (f : Split → Split) : (s.modSplit cid sid f).free = s.free := rfl
@[simp] theorem State.modSplit_age (cid sid : Nat) (f : Split → Split) : (s.modSplit cid sid f).age = s.age := rfl
@[simp] theorem State.modSplit_crews (cid sid : Nat) (f : Split → Split) : (s.modSplit cid sid f).crews = s.crews.map fun c => if c.cid == cid then c.modSplit sid f else c := rfl
@[simp] theorem State.modSplit_teams (cid sid : Nat) (f : Split → Split) : (s.modSplit cid sid f).teams = s.teams := rfl
@[simp] theorem State.modSplit_launches (cid sid : Nat) (f : Split → Split) : (s.modSplit cid sid f).launches = s.launches := rfl
@[simp] theorem State.modSplit_seats (cid sid : Nat) (f : Split → Split) : (s.modSplit cid sid f).seats = s.seats := rfl
@[simp] theorem State.modSplit_remote (cid sid : Nat) (f : Split → Split) : (s.modSplit cid sid f).remote = s.remote := rfl
@[simp] theorem State.modSplit_contexts (cid sid : Nat) (f : Split → Split) : (s.modSplit cid sid f).contexts = s.contexts := rfl
@[simp] theorem State.modSplit_parts (cid sid : Nat) (f : Split → Split) : (s.modSplit cid sid f).parts = s.parts := rfl
@[simp] theorem State.modSplit_bays (cid sid : Nat) (f : Split → Split) : (s.modSplit cid sid f).bays = s.bays := rfl
@[simp] theorem State.modSplit_bars (cid sid : Nat) (f : Split → Split) : (s.modSplit cid sid f).bars = s.bars := rfl
@[simp] theorem State.modSplit_barGen (cid sid : Nat) (f : Split → Split) : (s.modSplit cid sid f).barGen = s.barGen := rfl
@[simp] theorem State.modSplit_faultq (cid sid : Nat) (f : Split → Split) : (s.modSplit cid sid f).faultq = s.faultq := rfl
@[simp] theorem State.modSplit_mats (cid sid : Nat) (f : Split → Split) : (s.modSplit cid sid f).mats = s.mats := rfl
@[simp] theorem State.modSplit_tiles (cid sid : Nat) (f : Split → Split) : (s.modSplit cid sid f).tiles = s.tiles := rfl
@[simp] theorem State.modSplit_copies (cid sid : Nat) (f : Split → Split) : (s.modSplit cid sid f).copies = s.copies := rfl
@[simp] theorem State.modSplit_held (cid sid : Nat) (f : Split → Split) : (s.modSplit cid sid f).held = s.held := rfl
@[simp] theorem State.modSplit_shells (cid sid : Nat) (f : Split → Split) : (s.modSplit cid sid f).shells = s.shells := rfl
@[simp] theorem State.modSplit_shpoison (cid sid : Nat) (f : Split → Split) : (s.modSplit cid sid f).shpoison = s.shpoison := rfl
@[simp] theorem State.modSplit_cooling (cid sid : Nat) (f : Split → Split) : (s.modSplit cid sid f).cooling = s.cooling := rfl
@[simp] theorem State.modSplit_shreqs (cid sid : Nat) (f : Split → Split) : (s.modSplit cid sid f).shreqs = s.shreqs := rfl
@[simp] theorem State.modSplit_landings (cid sid : Nat) (f : Split → Split) : (s.modSplit cid sid f).landings = s.landings := rfl
@[simp] theorem State.modSplit_mem (cid sid : Nat) (f : Split → Split) : (s.modSplit cid sid f).mem = s.mem := rfl
@[simp] theorem State.modSplit_mpoison (cid sid : Nat) (f : Split → Split) : (s.modSplit cid sid f).mpoison = s.mpoison := rfl
@[simp] theorem State.modSplit_wseq (cid sid : Nat) (f : Split → Split) : (s.modSplit cid sid f).wseq = s.wseq := rfl
@[simp] theorem State.modSplit_owner (cid sid : Nat) (f : Split → Split) : (s.modSplit cid sid f).owner = s.owner := rfl
@[simp] theorem State.modSplit_l1 (cid sid : Nat) (f : Split → Split) : (s.modSplit cid sid f).l1 = s.l1 := rfl
@[simp] theorem State.modSplit_fused (cid sid : Nat) (f : Split → Split) : (s.modSplit cid sid f).fused = s.fused := rfl
@[simp] theorem State.modSplit_regs (cid sid : Nat) (f : Split → Split) : (s.modSplit cid sid f).regs = s.regs := rfl
@[simp] theorem State.modSplit_adds (cid sid : Nat) (f : Split → Split) : (s.modSplit cid sid f).adds = s.adds := rfl
@[simp] theorem State.modSplit_acks (cid sid : Nat) (f : Split → Split) : (s.modSplit cid sid f).acks = s.acks := rfl
@[simp] theorem State.modSplit_l2 (cid sid : Nat) (f : Split → Split) : (s.modSplit cid sid f).l2 = s.l2 := rfl
@[simp] theorem State.modSplit_mirrors (cid sid : Nat) (f : Split → Split) : (s.modSplit cid sid f).mirrors = s.mirrors := rfl
@[simp] theorem State.modSplit_misses (cid sid : Nat) (f : Split → Split) : (s.modSplit cid sid f).misses = s.misses := rfl
@[simp] theorem State.modSplit_spillq (cid sid : Nat) (f : Split → Split) : (s.modSplit cid sid f).spillq = s.spillq := rfl
@[simp] theorem State.modSplit_wfill (cid sid : Nat) (f : Split → Split) : (s.modSplit cid sid f).wfill = s.wfill := rfl
@[simp] theorem State.modSplit_icache (cid sid : Nat) (f : Split → Split) : (s.modSplit cid sid f).icache = s.icache := rfl
@[simp] theorem State.modSplit_levels (cid sid : Nat) (f : Split → Split) : (s.modSplit cid sid f).levels = s.levels := rfl
@[simp] theorem State.modSplit_ticks (cid sid : Nat) (f : Split → Split) : (s.modSplit cid sid f).ticks = s.ticks := rfl
@[simp] theorem State.modSplit_tlb (cid sid : Nat) (f : Split → Split) : (s.modSplit cid sid f).tlb = s.tlb := rfl
@[simp] theorem State.modSplit_fab (cid sid : Nat) (f : Split → Split) : (s.modSplit cid sid f).fab = s.fab := rfl
@[simp] theorem State.modSplit_svc (cid sid : Nat) (f : Split → Split) : (s.modSplit cid sid f).svc = s.svc := rfl

/-! ## setPc -/

@[simp] theorem State.setPc_cycle (cid sid : Nat) (pc : DWord) : (s.setPc cid sid pc).cycle = s.cycle := rfl
@[simp] theorem State.setPc_ftime (cid sid : Nat) (pc : DWord) : (s.setPc cid sid pc).ftime = s.ftime := rfl
@[simp] theorem State.setPc_ftfrac (cid sid : Nat) (pc : DWord) : (s.setPc cid sid pc).ftfrac = s.ftfrac := rfl
@[simp] theorem State.setPc_cur (cid sid : Nat) (pc : DWord) : (s.setPc cid sid pc).cur = s.cur := rfl
@[simp] theorem State.setPc_picks (cid sid : Nat) (pc : DWord) : (s.setPc cid sid pc).picks = s.picks := rfl
@[simp] theorem State.setPc_woke (cid sid : Nat) (pc : DWord) : (s.setPc cid sid pc).woke = s.woke := rfl
@[simp] theorem State.setPc_entered (cid sid : Nat) (pc : DWord) : (s.setPc cid sid pc).entered = s.entered := rfl
@[simp] theorem State.setPc_passed (cid sid : Nat) (pc : DWord) : (s.setPc cid sid pc).passed = s.passed := rfl
@[simp] theorem State.setPc_arrived (cid sid : Nat) (pc : DWord) : (s.setPc cid sid pc).arrived = s.arrived := rfl
@[simp] theorem State.setPc_sfu (cid sid : Nat) (pc : DWord) : (s.setPc cid sid pc).sfu = s.sfu := rfl
@[simp] theorem State.setPc_tape (cid sid : Nat) (pc : DWord) : (s.setPc cid sid pc).tape = s.tape := rfl
@[simp] theorem State.setPc_nextId (cid sid : Nat) (pc : DWord) : (s.setPc cid sid pc).nextId = s.nextId := rfl
@[simp] theorem State.setPc_free (cid sid : Nat) (pc : DWord) : (s.setPc cid sid pc).free = s.free := rfl
@[simp] theorem State.setPc_age (cid sid : Nat) (pc : DWord) : (s.setPc cid sid pc).age = s.age := rfl
@[simp] theorem State.setPc_crews (cid sid : Nat) (pc : DWord) : (s.setPc cid sid pc).crews = (s.modSplit cid sid fun p => { p with pc := pc }).crews := rfl
@[simp] theorem State.setPc_teams (cid sid : Nat) (pc : DWord) : (s.setPc cid sid pc).teams = s.teams := rfl
@[simp] theorem State.setPc_launches (cid sid : Nat) (pc : DWord) : (s.setPc cid sid pc).launches = s.launches := rfl
@[simp] theorem State.setPc_seats (cid sid : Nat) (pc : DWord) : (s.setPc cid sid pc).seats = s.seats := rfl
@[simp] theorem State.setPc_remote (cid sid : Nat) (pc : DWord) : (s.setPc cid sid pc).remote = s.remote := rfl
@[simp] theorem State.setPc_contexts (cid sid : Nat) (pc : DWord) : (s.setPc cid sid pc).contexts = s.contexts := rfl
@[simp] theorem State.setPc_parts (cid sid : Nat) (pc : DWord) : (s.setPc cid sid pc).parts = s.parts := rfl
@[simp] theorem State.setPc_bays (cid sid : Nat) (pc : DWord) : (s.setPc cid sid pc).bays = s.bays := rfl
@[simp] theorem State.setPc_bars (cid sid : Nat) (pc : DWord) : (s.setPc cid sid pc).bars = s.bars := rfl
@[simp] theorem State.setPc_barGen (cid sid : Nat) (pc : DWord) : (s.setPc cid sid pc).barGen = s.barGen := rfl
@[simp] theorem State.setPc_faultq (cid sid : Nat) (pc : DWord) : (s.setPc cid sid pc).faultq = s.faultq := rfl
@[simp] theorem State.setPc_mats (cid sid : Nat) (pc : DWord) : (s.setPc cid sid pc).mats = s.mats := rfl
@[simp] theorem State.setPc_tiles (cid sid : Nat) (pc : DWord) : (s.setPc cid sid pc).tiles = s.tiles := rfl
@[simp] theorem State.setPc_copies (cid sid : Nat) (pc : DWord) : (s.setPc cid sid pc).copies = s.copies := rfl
@[simp] theorem State.setPc_held (cid sid : Nat) (pc : DWord) : (s.setPc cid sid pc).held = s.held := rfl
@[simp] theorem State.setPc_shells (cid sid : Nat) (pc : DWord) : (s.setPc cid sid pc).shells = s.shells := rfl
@[simp] theorem State.setPc_shpoison (cid sid : Nat) (pc : DWord) : (s.setPc cid sid pc).shpoison = s.shpoison := rfl
@[simp] theorem State.setPc_cooling (cid sid : Nat) (pc : DWord) : (s.setPc cid sid pc).cooling = s.cooling := rfl
@[simp] theorem State.setPc_shreqs (cid sid : Nat) (pc : DWord) : (s.setPc cid sid pc).shreqs = s.shreqs := rfl
@[simp] theorem State.setPc_landings (cid sid : Nat) (pc : DWord) : (s.setPc cid sid pc).landings = s.landings := rfl
@[simp] theorem State.setPc_mem (cid sid : Nat) (pc : DWord) : (s.setPc cid sid pc).mem = s.mem := rfl
@[simp] theorem State.setPc_mpoison (cid sid : Nat) (pc : DWord) : (s.setPc cid sid pc).mpoison = s.mpoison := rfl
@[simp] theorem State.setPc_wseq (cid sid : Nat) (pc : DWord) : (s.setPc cid sid pc).wseq = s.wseq := rfl
@[simp] theorem State.setPc_owner (cid sid : Nat) (pc : DWord) : (s.setPc cid sid pc).owner = s.owner := rfl
@[simp] theorem State.setPc_l1 (cid sid : Nat) (pc : DWord) : (s.setPc cid sid pc).l1 = s.l1 := rfl
@[simp] theorem State.setPc_fused (cid sid : Nat) (pc : DWord) : (s.setPc cid sid pc).fused = s.fused := rfl
@[simp] theorem State.setPc_regs (cid sid : Nat) (pc : DWord) : (s.setPc cid sid pc).regs = s.regs := rfl
@[simp] theorem State.setPc_adds (cid sid : Nat) (pc : DWord) : (s.setPc cid sid pc).adds = s.adds := rfl
@[simp] theorem State.setPc_acks (cid sid : Nat) (pc : DWord) : (s.setPc cid sid pc).acks = s.acks := rfl
@[simp] theorem State.setPc_l2 (cid sid : Nat) (pc : DWord) : (s.setPc cid sid pc).l2 = s.l2 := rfl
@[simp] theorem State.setPc_mirrors (cid sid : Nat) (pc : DWord) : (s.setPc cid sid pc).mirrors = s.mirrors := rfl
@[simp] theorem State.setPc_misses (cid sid : Nat) (pc : DWord) : (s.setPc cid sid pc).misses = s.misses := rfl
@[simp] theorem State.setPc_spillq (cid sid : Nat) (pc : DWord) : (s.setPc cid sid pc).spillq = s.spillq := rfl
@[simp] theorem State.setPc_wfill (cid sid : Nat) (pc : DWord) : (s.setPc cid sid pc).wfill = s.wfill := rfl
@[simp] theorem State.setPc_icache (cid sid : Nat) (pc : DWord) : (s.setPc cid sid pc).icache = s.icache := rfl
@[simp] theorem State.setPc_levels (cid sid : Nat) (pc : DWord) : (s.setPc cid sid pc).levels = s.levels := rfl
@[simp] theorem State.setPc_ticks (cid sid : Nat) (pc : DWord) : (s.setPc cid sid pc).ticks = s.ticks := rfl
@[simp] theorem State.setPc_tlb (cid sid : Nat) (pc : DWord) : (s.setPc cid sid pc).tlb = s.tlb := rfl
@[simp] theorem State.setPc_fab (cid sid : Nat) (pc : DWord) : (s.setPc cid sid pc).fab = s.fab := rfl
@[simp] theorem State.setPc_svc (cid sid : Nat) (pc : DWord) : (s.setPc cid sid pc).svc = s.svc := rfl

/-! ## modLaunch -/

@[simp] theorem State.modLaunch_cycle (lid : Nat) (f : Launch → Launch) : (s.modLaunch lid f).cycle = s.cycle := rfl
@[simp] theorem State.modLaunch_ftime (lid : Nat) (f : Launch → Launch) : (s.modLaunch lid f).ftime = s.ftime := rfl
@[simp] theorem State.modLaunch_ftfrac (lid : Nat) (f : Launch → Launch) : (s.modLaunch lid f).ftfrac = s.ftfrac := rfl
@[simp] theorem State.modLaunch_cur (lid : Nat) (f : Launch → Launch) : (s.modLaunch lid f).cur = s.cur := rfl
@[simp] theorem State.modLaunch_picks (lid : Nat) (f : Launch → Launch) : (s.modLaunch lid f).picks = s.picks := rfl
@[simp] theorem State.modLaunch_woke (lid : Nat) (f : Launch → Launch) : (s.modLaunch lid f).woke = s.woke := rfl
@[simp] theorem State.modLaunch_entered (lid : Nat) (f : Launch → Launch) : (s.modLaunch lid f).entered = s.entered := rfl
@[simp] theorem State.modLaunch_passed (lid : Nat) (f : Launch → Launch) : (s.modLaunch lid f).passed = s.passed := rfl
@[simp] theorem State.modLaunch_arrived (lid : Nat) (f : Launch → Launch) : (s.modLaunch lid f).arrived = s.arrived := rfl
@[simp] theorem State.modLaunch_sfu (lid : Nat) (f : Launch → Launch) : (s.modLaunch lid f).sfu = s.sfu := rfl
@[simp] theorem State.modLaunch_tape (lid : Nat) (f : Launch → Launch) : (s.modLaunch lid f).tape = s.tape := rfl
@[simp] theorem State.modLaunch_nextId (lid : Nat) (f : Launch → Launch) : (s.modLaunch lid f).nextId = s.nextId := rfl
@[simp] theorem State.modLaunch_free (lid : Nat) (f : Launch → Launch) : (s.modLaunch lid f).free = s.free := rfl
@[simp] theorem State.modLaunch_age (lid : Nat) (f : Launch → Launch) : (s.modLaunch lid f).age = s.age := rfl
@[simp] theorem State.modLaunch_crews (lid : Nat) (f : Launch → Launch) : (s.modLaunch lid f).crews = s.crews := rfl
@[simp] theorem State.modLaunch_teams (lid : Nat) (f : Launch → Launch) : (s.modLaunch lid f).teams = s.teams := rfl
@[simp] theorem State.modLaunch_launches (lid : Nat) (f : Launch → Launch) : (s.modLaunch lid f).launches = s.launches.map fun l => if l.lid == lid then f l else l := rfl
@[simp] theorem State.modLaunch_seats (lid : Nat) (f : Launch → Launch) : (s.modLaunch lid f).seats = s.seats := rfl
@[simp] theorem State.modLaunch_remote (lid : Nat) (f : Launch → Launch) : (s.modLaunch lid f).remote = s.remote := rfl
@[simp] theorem State.modLaunch_contexts (lid : Nat) (f : Launch → Launch) : (s.modLaunch lid f).contexts = s.contexts := rfl
@[simp] theorem State.modLaunch_parts (lid : Nat) (f : Launch → Launch) : (s.modLaunch lid f).parts = s.parts := rfl
@[simp] theorem State.modLaunch_bays (lid : Nat) (f : Launch → Launch) : (s.modLaunch lid f).bays = s.bays := rfl
@[simp] theorem State.modLaunch_bars (lid : Nat) (f : Launch → Launch) : (s.modLaunch lid f).bars = s.bars := rfl
@[simp] theorem State.modLaunch_barGen (lid : Nat) (f : Launch → Launch) : (s.modLaunch lid f).barGen = s.barGen := rfl
@[simp] theorem State.modLaunch_faultq (lid : Nat) (f : Launch → Launch) : (s.modLaunch lid f).faultq = s.faultq := rfl
@[simp] theorem State.modLaunch_mats (lid : Nat) (f : Launch → Launch) : (s.modLaunch lid f).mats = s.mats := rfl
@[simp] theorem State.modLaunch_tiles (lid : Nat) (f : Launch → Launch) : (s.modLaunch lid f).tiles = s.tiles := rfl
@[simp] theorem State.modLaunch_copies (lid : Nat) (f : Launch → Launch) : (s.modLaunch lid f).copies = s.copies := rfl
@[simp] theorem State.modLaunch_held (lid : Nat) (f : Launch → Launch) : (s.modLaunch lid f).held = s.held := rfl
@[simp] theorem State.modLaunch_shells (lid : Nat) (f : Launch → Launch) : (s.modLaunch lid f).shells = s.shells := rfl
@[simp] theorem State.modLaunch_shpoison (lid : Nat) (f : Launch → Launch) : (s.modLaunch lid f).shpoison = s.shpoison := rfl
@[simp] theorem State.modLaunch_cooling (lid : Nat) (f : Launch → Launch) : (s.modLaunch lid f).cooling = s.cooling := rfl
@[simp] theorem State.modLaunch_shreqs (lid : Nat) (f : Launch → Launch) : (s.modLaunch lid f).shreqs = s.shreqs := rfl
@[simp] theorem State.modLaunch_landings (lid : Nat) (f : Launch → Launch) : (s.modLaunch lid f).landings = s.landings := rfl
@[simp] theorem State.modLaunch_mem (lid : Nat) (f : Launch → Launch) : (s.modLaunch lid f).mem = s.mem := rfl
@[simp] theorem State.modLaunch_mpoison (lid : Nat) (f : Launch → Launch) : (s.modLaunch lid f).mpoison = s.mpoison := rfl
@[simp] theorem State.modLaunch_wseq (lid : Nat) (f : Launch → Launch) : (s.modLaunch lid f).wseq = s.wseq := rfl
@[simp] theorem State.modLaunch_owner (lid : Nat) (f : Launch → Launch) : (s.modLaunch lid f).owner = s.owner := rfl
@[simp] theorem State.modLaunch_l1 (lid : Nat) (f : Launch → Launch) : (s.modLaunch lid f).l1 = s.l1 := rfl
@[simp] theorem State.modLaunch_fused (lid : Nat) (f : Launch → Launch) : (s.modLaunch lid f).fused = s.fused := rfl
@[simp] theorem State.modLaunch_regs (lid : Nat) (f : Launch → Launch) : (s.modLaunch lid f).regs = s.regs := rfl
@[simp] theorem State.modLaunch_adds (lid : Nat) (f : Launch → Launch) : (s.modLaunch lid f).adds = s.adds := rfl
@[simp] theorem State.modLaunch_acks (lid : Nat) (f : Launch → Launch) : (s.modLaunch lid f).acks = s.acks := rfl
@[simp] theorem State.modLaunch_l2 (lid : Nat) (f : Launch → Launch) : (s.modLaunch lid f).l2 = s.l2 := rfl
@[simp] theorem State.modLaunch_mirrors (lid : Nat) (f : Launch → Launch) : (s.modLaunch lid f).mirrors = s.mirrors := rfl
@[simp] theorem State.modLaunch_misses (lid : Nat) (f : Launch → Launch) : (s.modLaunch lid f).misses = s.misses := rfl
@[simp] theorem State.modLaunch_spillq (lid : Nat) (f : Launch → Launch) : (s.modLaunch lid f).spillq = s.spillq := rfl
@[simp] theorem State.modLaunch_wfill (lid : Nat) (f : Launch → Launch) : (s.modLaunch lid f).wfill = s.wfill := rfl
@[simp] theorem State.modLaunch_icache (lid : Nat) (f : Launch → Launch) : (s.modLaunch lid f).icache = s.icache := rfl
@[simp] theorem State.modLaunch_levels (lid : Nat) (f : Launch → Launch) : (s.modLaunch lid f).levels = s.levels := rfl
@[simp] theorem State.modLaunch_ticks (lid : Nat) (f : Launch → Launch) : (s.modLaunch lid f).ticks = s.ticks := rfl
@[simp] theorem State.modLaunch_tlb (lid : Nat) (f : Launch → Launch) : (s.modLaunch lid f).tlb = s.tlb := rfl
@[simp] theorem State.modLaunch_fab (lid : Nat) (f : Launch → Launch) : (s.modLaunch lid f).fab = s.fab := rfl
@[simp] theorem State.modLaunch_svc (lid : Nat) (f : Launch → Launch) : (s.modLaunch lid f).svc = s.svc := rfl

/-! ## modTeam -/

@[simp] theorem State.modTeam_cycle (lid tid : Nat) (f : Team → Team) : (s.modTeam lid tid f).cycle = s.cycle := rfl
@[simp] theorem State.modTeam_ftime (lid tid : Nat) (f : Team → Team) : (s.modTeam lid tid f).ftime = s.ftime := rfl
@[simp] theorem State.modTeam_ftfrac (lid tid : Nat) (f : Team → Team) : (s.modTeam lid tid f).ftfrac = s.ftfrac := rfl
@[simp] theorem State.modTeam_cur (lid tid : Nat) (f : Team → Team) : (s.modTeam lid tid f).cur = s.cur := rfl
@[simp] theorem State.modTeam_picks (lid tid : Nat) (f : Team → Team) : (s.modTeam lid tid f).picks = s.picks := rfl
@[simp] theorem State.modTeam_woke (lid tid : Nat) (f : Team → Team) : (s.modTeam lid tid f).woke = s.woke := rfl
@[simp] theorem State.modTeam_entered (lid tid : Nat) (f : Team → Team) : (s.modTeam lid tid f).entered = s.entered := rfl
@[simp] theorem State.modTeam_passed (lid tid : Nat) (f : Team → Team) : (s.modTeam lid tid f).passed = s.passed := rfl
@[simp] theorem State.modTeam_arrived (lid tid : Nat) (f : Team → Team) : (s.modTeam lid tid f).arrived = s.arrived := rfl
@[simp] theorem State.modTeam_sfu (lid tid : Nat) (f : Team → Team) : (s.modTeam lid tid f).sfu = s.sfu := rfl
@[simp] theorem State.modTeam_tape (lid tid : Nat) (f : Team → Team) : (s.modTeam lid tid f).tape = s.tape := rfl
@[simp] theorem State.modTeam_nextId (lid tid : Nat) (f : Team → Team) : (s.modTeam lid tid f).nextId = s.nextId := rfl
@[simp] theorem State.modTeam_free (lid tid : Nat) (f : Team → Team) : (s.modTeam lid tid f).free = s.free := rfl
@[simp] theorem State.modTeam_age (lid tid : Nat) (f : Team → Team) : (s.modTeam lid tid f).age = s.age := rfl
@[simp] theorem State.modTeam_crews (lid tid : Nat) (f : Team → Team) : (s.modTeam lid tid f).crews = s.crews := rfl
@[simp] theorem State.modTeam_teams (lid tid : Nat) (f : Team → Team) : (s.modTeam lid tid f).teams = s.teams.map fun t => if t.lid == lid && t.tid == tid then f t else t := rfl
@[simp] theorem State.modTeam_launches (lid tid : Nat) (f : Team → Team) : (s.modTeam lid tid f).launches = s.launches := rfl
@[simp] theorem State.modTeam_seats (lid tid : Nat) (f : Team → Team) : (s.modTeam lid tid f).seats = s.seats := rfl
@[simp] theorem State.modTeam_remote (lid tid : Nat) (f : Team → Team) : (s.modTeam lid tid f).remote = s.remote := rfl
@[simp] theorem State.modTeam_contexts (lid tid : Nat) (f : Team → Team) : (s.modTeam lid tid f).contexts = s.contexts := rfl
@[simp] theorem State.modTeam_parts (lid tid : Nat) (f : Team → Team) : (s.modTeam lid tid f).parts = s.parts := rfl
@[simp] theorem State.modTeam_bays (lid tid : Nat) (f : Team → Team) : (s.modTeam lid tid f).bays = s.bays := rfl
@[simp] theorem State.modTeam_bars (lid tid : Nat) (f : Team → Team) : (s.modTeam lid tid f).bars = s.bars := rfl
@[simp] theorem State.modTeam_barGen (lid tid : Nat) (f : Team → Team) : (s.modTeam lid tid f).barGen = s.barGen := rfl
@[simp] theorem State.modTeam_faultq (lid tid : Nat) (f : Team → Team) : (s.modTeam lid tid f).faultq = s.faultq := rfl
@[simp] theorem State.modTeam_mats (lid tid : Nat) (f : Team → Team) : (s.modTeam lid tid f).mats = s.mats := rfl
@[simp] theorem State.modTeam_tiles (lid tid : Nat) (f : Team → Team) : (s.modTeam lid tid f).tiles = s.tiles := rfl
@[simp] theorem State.modTeam_copies (lid tid : Nat) (f : Team → Team) : (s.modTeam lid tid f).copies = s.copies := rfl
@[simp] theorem State.modTeam_held (lid tid : Nat) (f : Team → Team) : (s.modTeam lid tid f).held = s.held := rfl
@[simp] theorem State.modTeam_shells (lid tid : Nat) (f : Team → Team) : (s.modTeam lid tid f).shells = s.shells := rfl
@[simp] theorem State.modTeam_shpoison (lid tid : Nat) (f : Team → Team) : (s.modTeam lid tid f).shpoison = s.shpoison := rfl
@[simp] theorem State.modTeam_cooling (lid tid : Nat) (f : Team → Team) : (s.modTeam lid tid f).cooling = s.cooling := rfl
@[simp] theorem State.modTeam_shreqs (lid tid : Nat) (f : Team → Team) : (s.modTeam lid tid f).shreqs = s.shreqs := rfl
@[simp] theorem State.modTeam_landings (lid tid : Nat) (f : Team → Team) : (s.modTeam lid tid f).landings = s.landings := rfl
@[simp] theorem State.modTeam_mem (lid tid : Nat) (f : Team → Team) : (s.modTeam lid tid f).mem = s.mem := rfl
@[simp] theorem State.modTeam_mpoison (lid tid : Nat) (f : Team → Team) : (s.modTeam lid tid f).mpoison = s.mpoison := rfl
@[simp] theorem State.modTeam_wseq (lid tid : Nat) (f : Team → Team) : (s.modTeam lid tid f).wseq = s.wseq := rfl
@[simp] theorem State.modTeam_owner (lid tid : Nat) (f : Team → Team) : (s.modTeam lid tid f).owner = s.owner := rfl
@[simp] theorem State.modTeam_l1 (lid tid : Nat) (f : Team → Team) : (s.modTeam lid tid f).l1 = s.l1 := rfl
@[simp] theorem State.modTeam_fused (lid tid : Nat) (f : Team → Team) : (s.modTeam lid tid f).fused = s.fused := rfl
@[simp] theorem State.modTeam_regs (lid tid : Nat) (f : Team → Team) : (s.modTeam lid tid f).regs = s.regs := rfl
@[simp] theorem State.modTeam_adds (lid tid : Nat) (f : Team → Team) : (s.modTeam lid tid f).adds = s.adds := rfl
@[simp] theorem State.modTeam_acks (lid tid : Nat) (f : Team → Team) : (s.modTeam lid tid f).acks = s.acks := rfl
@[simp] theorem State.modTeam_l2 (lid tid : Nat) (f : Team → Team) : (s.modTeam lid tid f).l2 = s.l2 := rfl
@[simp] theorem State.modTeam_mirrors (lid tid : Nat) (f : Team → Team) : (s.modTeam lid tid f).mirrors = s.mirrors := rfl
@[simp] theorem State.modTeam_misses (lid tid : Nat) (f : Team → Team) : (s.modTeam lid tid f).misses = s.misses := rfl
@[simp] theorem State.modTeam_spillq (lid tid : Nat) (f : Team → Team) : (s.modTeam lid tid f).spillq = s.spillq := rfl
@[simp] theorem State.modTeam_wfill (lid tid : Nat) (f : Team → Team) : (s.modTeam lid tid f).wfill = s.wfill := rfl
@[simp] theorem State.modTeam_icache (lid tid : Nat) (f : Team → Team) : (s.modTeam lid tid f).icache = s.icache := rfl
@[simp] theorem State.modTeam_levels (lid tid : Nat) (f : Team → Team) : (s.modTeam lid tid f).levels = s.levels := rfl
@[simp] theorem State.modTeam_ticks (lid tid : Nat) (f : Team → Team) : (s.modTeam lid tid f).ticks = s.ticks := rfl
@[simp] theorem State.modTeam_tlb (lid tid : Nat) (f : Team → Team) : (s.modTeam lid tid f).tlb = s.tlb := rfl
@[simp] theorem State.modTeam_fab (lid tid : Nat) (f : Team → Team) : (s.modTeam lid tid f).fab = s.fab := rfl
@[simp] theorem State.modTeam_svc (lid tid : Nat) (f : Team → Team) : (s.modTeam lid tid f).svc = s.svc := rfl

/-! ## modSeat -/

@[simp] theorem State.modSeat_cycle (lid index : Nat) (f : Seat → Seat) : (s.modSeat lid index f).cycle = s.cycle := rfl
@[simp] theorem State.modSeat_ftime (lid index : Nat) (f : Seat → Seat) : (s.modSeat lid index f).ftime = s.ftime := rfl
@[simp] theorem State.modSeat_ftfrac (lid index : Nat) (f : Seat → Seat) : (s.modSeat lid index f).ftfrac = s.ftfrac := rfl
@[simp] theorem State.modSeat_cur (lid index : Nat) (f : Seat → Seat) : (s.modSeat lid index f).cur = s.cur := rfl
@[simp] theorem State.modSeat_picks (lid index : Nat) (f : Seat → Seat) : (s.modSeat lid index f).picks = s.picks := rfl
@[simp] theorem State.modSeat_woke (lid index : Nat) (f : Seat → Seat) : (s.modSeat lid index f).woke = s.woke := rfl
@[simp] theorem State.modSeat_entered (lid index : Nat) (f : Seat → Seat) : (s.modSeat lid index f).entered = s.entered := rfl
@[simp] theorem State.modSeat_passed (lid index : Nat) (f : Seat → Seat) : (s.modSeat lid index f).passed = s.passed := rfl
@[simp] theorem State.modSeat_arrived (lid index : Nat) (f : Seat → Seat) : (s.modSeat lid index f).arrived = s.arrived := rfl
@[simp] theorem State.modSeat_sfu (lid index : Nat) (f : Seat → Seat) : (s.modSeat lid index f).sfu = s.sfu := rfl
@[simp] theorem State.modSeat_tape (lid index : Nat) (f : Seat → Seat) : (s.modSeat lid index f).tape = s.tape := rfl
@[simp] theorem State.modSeat_nextId (lid index : Nat) (f : Seat → Seat) : (s.modSeat lid index f).nextId = s.nextId := rfl
@[simp] theorem State.modSeat_free (lid index : Nat) (f : Seat → Seat) : (s.modSeat lid index f).free = s.free := rfl
@[simp] theorem State.modSeat_age (lid index : Nat) (f : Seat → Seat) : (s.modSeat lid index f).age = s.age := rfl
@[simp] theorem State.modSeat_crews (lid index : Nat) (f : Seat → Seat) : (s.modSeat lid index f).crews = s.crews := rfl
@[simp] theorem State.modSeat_teams (lid index : Nat) (f : Seat → Seat) : (s.modSeat lid index f).teams = s.teams := rfl
@[simp] theorem State.modSeat_launches (lid index : Nat) (f : Seat → Seat) : (s.modSeat lid index f).launches = s.launches := rfl
@[simp] theorem State.modSeat_seats (lid index : Nat) (f : Seat → Seat) : (s.modSeat lid index f).seats = s.seats.map fun t => if t.lid == lid && t.index == index then f t else t := rfl
@[simp] theorem State.modSeat_remote (lid index : Nat) (f : Seat → Seat) : (s.modSeat lid index f).remote = s.remote := rfl
@[simp] theorem State.modSeat_contexts (lid index : Nat) (f : Seat → Seat) : (s.modSeat lid index f).contexts = s.contexts := rfl
@[simp] theorem State.modSeat_parts (lid index : Nat) (f : Seat → Seat) : (s.modSeat lid index f).parts = s.parts := rfl
@[simp] theorem State.modSeat_bays (lid index : Nat) (f : Seat → Seat) : (s.modSeat lid index f).bays = s.bays := rfl
@[simp] theorem State.modSeat_bars (lid index : Nat) (f : Seat → Seat) : (s.modSeat lid index f).bars = s.bars := rfl
@[simp] theorem State.modSeat_barGen (lid index : Nat) (f : Seat → Seat) : (s.modSeat lid index f).barGen = s.barGen := rfl
@[simp] theorem State.modSeat_faultq (lid index : Nat) (f : Seat → Seat) : (s.modSeat lid index f).faultq = s.faultq := rfl
@[simp] theorem State.modSeat_mats (lid index : Nat) (f : Seat → Seat) : (s.modSeat lid index f).mats = s.mats := rfl
@[simp] theorem State.modSeat_tiles (lid index : Nat) (f : Seat → Seat) : (s.modSeat lid index f).tiles = s.tiles := rfl
@[simp] theorem State.modSeat_copies (lid index : Nat) (f : Seat → Seat) : (s.modSeat lid index f).copies = s.copies := rfl
@[simp] theorem State.modSeat_held (lid index : Nat) (f : Seat → Seat) : (s.modSeat lid index f).held = s.held := rfl
@[simp] theorem State.modSeat_shells (lid index : Nat) (f : Seat → Seat) : (s.modSeat lid index f).shells = s.shells := rfl
@[simp] theorem State.modSeat_shpoison (lid index : Nat) (f : Seat → Seat) : (s.modSeat lid index f).shpoison = s.shpoison := rfl
@[simp] theorem State.modSeat_cooling (lid index : Nat) (f : Seat → Seat) : (s.modSeat lid index f).cooling = s.cooling := rfl
@[simp] theorem State.modSeat_shreqs (lid index : Nat) (f : Seat → Seat) : (s.modSeat lid index f).shreqs = s.shreqs := rfl
@[simp] theorem State.modSeat_landings (lid index : Nat) (f : Seat → Seat) : (s.modSeat lid index f).landings = s.landings := rfl
@[simp] theorem State.modSeat_mem (lid index : Nat) (f : Seat → Seat) : (s.modSeat lid index f).mem = s.mem := rfl
@[simp] theorem State.modSeat_mpoison (lid index : Nat) (f : Seat → Seat) : (s.modSeat lid index f).mpoison = s.mpoison := rfl
@[simp] theorem State.modSeat_wseq (lid index : Nat) (f : Seat → Seat) : (s.modSeat lid index f).wseq = s.wseq := rfl
@[simp] theorem State.modSeat_owner (lid index : Nat) (f : Seat → Seat) : (s.modSeat lid index f).owner = s.owner := rfl
@[simp] theorem State.modSeat_l1 (lid index : Nat) (f : Seat → Seat) : (s.modSeat lid index f).l1 = s.l1 := rfl
@[simp] theorem State.modSeat_fused (lid index : Nat) (f : Seat → Seat) : (s.modSeat lid index f).fused = s.fused := rfl
@[simp] theorem State.modSeat_regs (lid index : Nat) (f : Seat → Seat) : (s.modSeat lid index f).regs = s.regs := rfl
@[simp] theorem State.modSeat_adds (lid index : Nat) (f : Seat → Seat) : (s.modSeat lid index f).adds = s.adds := rfl
@[simp] theorem State.modSeat_acks (lid index : Nat) (f : Seat → Seat) : (s.modSeat lid index f).acks = s.acks := rfl
@[simp] theorem State.modSeat_l2 (lid index : Nat) (f : Seat → Seat) : (s.modSeat lid index f).l2 = s.l2 := rfl
@[simp] theorem State.modSeat_mirrors (lid index : Nat) (f : Seat → Seat) : (s.modSeat lid index f).mirrors = s.mirrors := rfl
@[simp] theorem State.modSeat_misses (lid index : Nat) (f : Seat → Seat) : (s.modSeat lid index f).misses = s.misses := rfl
@[simp] theorem State.modSeat_spillq (lid index : Nat) (f : Seat → Seat) : (s.modSeat lid index f).spillq = s.spillq := rfl
@[simp] theorem State.modSeat_wfill (lid index : Nat) (f : Seat → Seat) : (s.modSeat lid index f).wfill = s.wfill := rfl
@[simp] theorem State.modSeat_icache (lid index : Nat) (f : Seat → Seat) : (s.modSeat lid index f).icache = s.icache := rfl
@[simp] theorem State.modSeat_levels (lid index : Nat) (f : Seat → Seat) : (s.modSeat lid index f).levels = s.levels := rfl
@[simp] theorem State.modSeat_ticks (lid index : Nat) (f : Seat → Seat) : (s.modSeat lid index f).ticks = s.ticks := rfl
@[simp] theorem State.modSeat_tlb (lid index : Nat) (f : Seat → Seat) : (s.modSeat lid index f).tlb = s.tlb := rfl
@[simp] theorem State.modSeat_fab (lid index : Nat) (f : Seat → Seat) : (s.modSeat lid index f).fab = s.fab := rfl
@[simp] theorem State.modSeat_svc (lid index : Nat) (f : Seat → Seat) : (s.modSeat lid index f).svc = s.svc := rfl

/-! ## modContext -/

@[simp] theorem State.modContext_cycle (asid : Nat) (f : Context → Context) : (s.modContext asid f).cycle = s.cycle := rfl
@[simp] theorem State.modContext_ftime (asid : Nat) (f : Context → Context) : (s.modContext asid f).ftime = s.ftime := rfl
@[simp] theorem State.modContext_ftfrac (asid : Nat) (f : Context → Context) : (s.modContext asid f).ftfrac = s.ftfrac := rfl
@[simp] theorem State.modContext_cur (asid : Nat) (f : Context → Context) : (s.modContext asid f).cur = s.cur := rfl
@[simp] theorem State.modContext_picks (asid : Nat) (f : Context → Context) : (s.modContext asid f).picks = s.picks := rfl
@[simp] theorem State.modContext_woke (asid : Nat) (f : Context → Context) : (s.modContext asid f).woke = s.woke := rfl
@[simp] theorem State.modContext_entered (asid : Nat) (f : Context → Context) : (s.modContext asid f).entered = s.entered := rfl
@[simp] theorem State.modContext_passed (asid : Nat) (f : Context → Context) : (s.modContext asid f).passed = s.passed := rfl
@[simp] theorem State.modContext_arrived (asid : Nat) (f : Context → Context) : (s.modContext asid f).arrived = s.arrived := rfl
@[simp] theorem State.modContext_sfu (asid : Nat) (f : Context → Context) : (s.modContext asid f).sfu = s.sfu := rfl
@[simp] theorem State.modContext_tape (asid : Nat) (f : Context → Context) : (s.modContext asid f).tape = s.tape := rfl
@[simp] theorem State.modContext_nextId (asid : Nat) (f : Context → Context) : (s.modContext asid f).nextId = s.nextId := rfl
@[simp] theorem State.modContext_free (asid : Nat) (f : Context → Context) : (s.modContext asid f).free = s.free := rfl
@[simp] theorem State.modContext_age (asid : Nat) (f : Context → Context) : (s.modContext asid f).age = s.age := rfl
@[simp] theorem State.modContext_crews (asid : Nat) (f : Context → Context) : (s.modContext asid f).crews = s.crews := rfl
@[simp] theorem State.modContext_teams (asid : Nat) (f : Context → Context) : (s.modContext asid f).teams = s.teams := rfl
@[simp] theorem State.modContext_launches (asid : Nat) (f : Context → Context) : (s.modContext asid f).launches = s.launches := rfl
@[simp] theorem State.modContext_seats (asid : Nat) (f : Context → Context) : (s.modContext asid f).seats = s.seats := rfl
@[simp] theorem State.modContext_remote (asid : Nat) (f : Context → Context) : (s.modContext asid f).remote = s.remote := rfl
@[simp] theorem State.modContext_contexts (asid : Nat) (f : Context → Context) : (s.modContext asid f).contexts = s.contexts.map fun c => if c.asid == asid then f c else c := rfl
@[simp] theorem State.modContext_parts (asid : Nat) (f : Context → Context) : (s.modContext asid f).parts = s.parts := rfl
@[simp] theorem State.modContext_bays (asid : Nat) (f : Context → Context) : (s.modContext asid f).bays = s.bays := rfl
@[simp] theorem State.modContext_bars (asid : Nat) (f : Context → Context) : (s.modContext asid f).bars = s.bars := rfl
@[simp] theorem State.modContext_barGen (asid : Nat) (f : Context → Context) : (s.modContext asid f).barGen = s.barGen := rfl
@[simp] theorem State.modContext_faultq (asid : Nat) (f : Context → Context) : (s.modContext asid f).faultq = s.faultq := rfl
@[simp] theorem State.modContext_mats (asid : Nat) (f : Context → Context) : (s.modContext asid f).mats = s.mats := rfl
@[simp] theorem State.modContext_tiles (asid : Nat) (f : Context → Context) : (s.modContext asid f).tiles = s.tiles := rfl
@[simp] theorem State.modContext_copies (asid : Nat) (f : Context → Context) : (s.modContext asid f).copies = s.copies := rfl
@[simp] theorem State.modContext_held (asid : Nat) (f : Context → Context) : (s.modContext asid f).held = s.held := rfl
@[simp] theorem State.modContext_shells (asid : Nat) (f : Context → Context) : (s.modContext asid f).shells = s.shells := rfl
@[simp] theorem State.modContext_shpoison (asid : Nat) (f : Context → Context) : (s.modContext asid f).shpoison = s.shpoison := rfl
@[simp] theorem State.modContext_cooling (asid : Nat) (f : Context → Context) : (s.modContext asid f).cooling = s.cooling := rfl
@[simp] theorem State.modContext_shreqs (asid : Nat) (f : Context → Context) : (s.modContext asid f).shreqs = s.shreqs := rfl
@[simp] theorem State.modContext_landings (asid : Nat) (f : Context → Context) : (s.modContext asid f).landings = s.landings := rfl
@[simp] theorem State.modContext_mem (asid : Nat) (f : Context → Context) : (s.modContext asid f).mem = s.mem := rfl
@[simp] theorem State.modContext_mpoison (asid : Nat) (f : Context → Context) : (s.modContext asid f).mpoison = s.mpoison := rfl
@[simp] theorem State.modContext_wseq (asid : Nat) (f : Context → Context) : (s.modContext asid f).wseq = s.wseq := rfl
@[simp] theorem State.modContext_owner (asid : Nat) (f : Context → Context) : (s.modContext asid f).owner = s.owner := rfl
@[simp] theorem State.modContext_l1 (asid : Nat) (f : Context → Context) : (s.modContext asid f).l1 = s.l1 := rfl
@[simp] theorem State.modContext_fused (asid : Nat) (f : Context → Context) : (s.modContext asid f).fused = s.fused := rfl
@[simp] theorem State.modContext_regs (asid : Nat) (f : Context → Context) : (s.modContext asid f).regs = s.regs := rfl
@[simp] theorem State.modContext_adds (asid : Nat) (f : Context → Context) : (s.modContext asid f).adds = s.adds := rfl
@[simp] theorem State.modContext_acks (asid : Nat) (f : Context → Context) : (s.modContext asid f).acks = s.acks := rfl
@[simp] theorem State.modContext_l2 (asid : Nat) (f : Context → Context) : (s.modContext asid f).l2 = s.l2 := rfl
@[simp] theorem State.modContext_mirrors (asid : Nat) (f : Context → Context) : (s.modContext asid f).mirrors = s.mirrors := rfl
@[simp] theorem State.modContext_misses (asid : Nat) (f : Context → Context) : (s.modContext asid f).misses = s.misses := rfl
@[simp] theorem State.modContext_spillq (asid : Nat) (f : Context → Context) : (s.modContext asid f).spillq = s.spillq := rfl
@[simp] theorem State.modContext_wfill (asid : Nat) (f : Context → Context) : (s.modContext asid f).wfill = s.wfill := rfl
@[simp] theorem State.modContext_icache (asid : Nat) (f : Context → Context) : (s.modContext asid f).icache = s.icache := rfl
@[simp] theorem State.modContext_levels (asid : Nat) (f : Context → Context) : (s.modContext asid f).levels = s.levels := rfl
@[simp] theorem State.modContext_ticks (asid : Nat) (f : Context → Context) : (s.modContext asid f).ticks = s.ticks := rfl
@[simp] theorem State.modContext_tlb (asid : Nat) (f : Context → Context) : (s.modContext asid f).tlb = s.tlb := rfl
@[simp] theorem State.modContext_fab (asid : Nat) (f : Context → Context) : (s.modContext asid f).fab = s.fab := rfl
@[simp] theorem State.modContext_svc (asid : Nat) (f : Context → Context) : (s.modContext asid f).svc = s.svc := rfl

/-! ## modPart -/

@[simp] theorem State.modPart_cycle (n : Nat) (f : Partition → Partition) : (s.modPart n f).cycle = s.cycle := rfl
@[simp] theorem State.modPart_ftime (n : Nat) (f : Partition → Partition) : (s.modPart n f).ftime = s.ftime := rfl
@[simp] theorem State.modPart_ftfrac (n : Nat) (f : Partition → Partition) : (s.modPart n f).ftfrac = s.ftfrac := rfl
@[simp] theorem State.modPart_cur (n : Nat) (f : Partition → Partition) : (s.modPart n f).cur = s.cur := rfl
@[simp] theorem State.modPart_picks (n : Nat) (f : Partition → Partition) : (s.modPart n f).picks = s.picks := rfl
@[simp] theorem State.modPart_woke (n : Nat) (f : Partition → Partition) : (s.modPart n f).woke = s.woke := rfl
@[simp] theorem State.modPart_entered (n : Nat) (f : Partition → Partition) : (s.modPart n f).entered = s.entered := rfl
@[simp] theorem State.modPart_passed (n : Nat) (f : Partition → Partition) : (s.modPart n f).passed = s.passed := rfl
@[simp] theorem State.modPart_arrived (n : Nat) (f : Partition → Partition) : (s.modPart n f).arrived = s.arrived := rfl
@[simp] theorem State.modPart_sfu (n : Nat) (f : Partition → Partition) : (s.modPart n f).sfu = s.sfu := rfl
@[simp] theorem State.modPart_tape (n : Nat) (f : Partition → Partition) : (s.modPart n f).tape = s.tape := rfl
@[simp] theorem State.modPart_nextId (n : Nat) (f : Partition → Partition) : (s.modPart n f).nextId = s.nextId := rfl
@[simp] theorem State.modPart_free (n : Nat) (f : Partition → Partition) : (s.modPart n f).free = s.free := rfl
@[simp] theorem State.modPart_age (n : Nat) (f : Partition → Partition) : (s.modPart n f).age = s.age := rfl
@[simp] theorem State.modPart_crews (n : Nat) (f : Partition → Partition) : (s.modPart n f).crews = s.crews := rfl
@[simp] theorem State.modPart_teams (n : Nat) (f : Partition → Partition) : (s.modPart n f).teams = s.teams := rfl
@[simp] theorem State.modPart_launches (n : Nat) (f : Partition → Partition) : (s.modPart n f).launches = s.launches := rfl
@[simp] theorem State.modPart_seats (n : Nat) (f : Partition → Partition) : (s.modPart n f).seats = s.seats := rfl
@[simp] theorem State.modPart_remote (n : Nat) (f : Partition → Partition) : (s.modPart n f).remote = s.remote := rfl
@[simp] theorem State.modPart_contexts (n : Nat) (f : Partition → Partition) : (s.modPart n f).contexts = s.contexts := rfl
@[simp] theorem State.modPart_parts (n : Nat) (f : Partition → Partition) : (s.modPart n f).parts = s.parts.modify n f := rfl
@[simp] theorem State.modPart_bays (n : Nat) (f : Partition → Partition) : (s.modPart n f).bays = s.bays := rfl
@[simp] theorem State.modPart_bars (n : Nat) (f : Partition → Partition) : (s.modPart n f).bars = s.bars := rfl
@[simp] theorem State.modPart_barGen (n : Nat) (f : Partition → Partition) : (s.modPart n f).barGen = s.barGen := rfl
@[simp] theorem State.modPart_faultq (n : Nat) (f : Partition → Partition) : (s.modPart n f).faultq = s.faultq := rfl
@[simp] theorem State.modPart_mats (n : Nat) (f : Partition → Partition) : (s.modPart n f).mats = s.mats := rfl
@[simp] theorem State.modPart_tiles (n : Nat) (f : Partition → Partition) : (s.modPart n f).tiles = s.tiles := rfl
@[simp] theorem State.modPart_copies (n : Nat) (f : Partition → Partition) : (s.modPart n f).copies = s.copies := rfl
@[simp] theorem State.modPart_held (n : Nat) (f : Partition → Partition) : (s.modPart n f).held = s.held := rfl
@[simp] theorem State.modPart_shells (n : Nat) (f : Partition → Partition) : (s.modPart n f).shells = s.shells := rfl
@[simp] theorem State.modPart_shpoison (n : Nat) (f : Partition → Partition) : (s.modPart n f).shpoison = s.shpoison := rfl
@[simp] theorem State.modPart_cooling (n : Nat) (f : Partition → Partition) : (s.modPart n f).cooling = s.cooling := rfl
@[simp] theorem State.modPart_shreqs (n : Nat) (f : Partition → Partition) : (s.modPart n f).shreqs = s.shreqs := rfl
@[simp] theorem State.modPart_landings (n : Nat) (f : Partition → Partition) : (s.modPart n f).landings = s.landings := rfl
@[simp] theorem State.modPart_mem (n : Nat) (f : Partition → Partition) : (s.modPart n f).mem = s.mem := rfl
@[simp] theorem State.modPart_mpoison (n : Nat) (f : Partition → Partition) : (s.modPart n f).mpoison = s.mpoison := rfl
@[simp] theorem State.modPart_wseq (n : Nat) (f : Partition → Partition) : (s.modPart n f).wseq = s.wseq := rfl
@[simp] theorem State.modPart_owner (n : Nat) (f : Partition → Partition) : (s.modPart n f).owner = s.owner := rfl
@[simp] theorem State.modPart_l1 (n : Nat) (f : Partition → Partition) : (s.modPart n f).l1 = s.l1 := rfl
@[simp] theorem State.modPart_fused (n : Nat) (f : Partition → Partition) : (s.modPart n f).fused = s.fused := rfl
@[simp] theorem State.modPart_regs (n : Nat) (f : Partition → Partition) : (s.modPart n f).regs = s.regs := rfl
@[simp] theorem State.modPart_adds (n : Nat) (f : Partition → Partition) : (s.modPart n f).adds = s.adds := rfl
@[simp] theorem State.modPart_acks (n : Nat) (f : Partition → Partition) : (s.modPart n f).acks = s.acks := rfl
@[simp] theorem State.modPart_l2 (n : Nat) (f : Partition → Partition) : (s.modPart n f).l2 = s.l2 := rfl
@[simp] theorem State.modPart_mirrors (n : Nat) (f : Partition → Partition) : (s.modPart n f).mirrors = s.mirrors := rfl
@[simp] theorem State.modPart_misses (n : Nat) (f : Partition → Partition) : (s.modPart n f).misses = s.misses := rfl
@[simp] theorem State.modPart_spillq (n : Nat) (f : Partition → Partition) : (s.modPart n f).spillq = s.spillq := rfl
@[simp] theorem State.modPart_wfill (n : Nat) (f : Partition → Partition) : (s.modPart n f).wfill = s.wfill := rfl
@[simp] theorem State.modPart_icache (n : Nat) (f : Partition → Partition) : (s.modPart n f).icache = s.icache := rfl
@[simp] theorem State.modPart_levels (n : Nat) (f : Partition → Partition) : (s.modPart n f).levels = s.levels := rfl
@[simp] theorem State.modPart_ticks (n : Nat) (f : Partition → Partition) : (s.modPart n f).ticks = s.ticks := rfl
@[simp] theorem State.modPart_tlb (n : Nat) (f : Partition → Partition) : (s.modPart n f).tlb = s.tlb := rfl
@[simp] theorem State.modPart_fab (n : Nat) (f : Partition → Partition) : (s.modPart n f).fab = s.fab := rfl
@[simp] theorem State.modPart_svc (n : Nat) (f : Partition → Partition) : (s.modPart n f).svc = s.svc := rfl

/-! ## bumpId -/

@[simp] theorem State.bumpId_cycle : (s.bumpId).cycle = s.cycle := rfl
@[simp] theorem State.bumpId_ftime : (s.bumpId).ftime = s.ftime := rfl
@[simp] theorem State.bumpId_ftfrac : (s.bumpId).ftfrac = s.ftfrac := rfl
@[simp] theorem State.bumpId_cur : (s.bumpId).cur = s.cur := rfl
@[simp] theorem State.bumpId_picks : (s.bumpId).picks = s.picks := rfl
@[simp] theorem State.bumpId_woke : (s.bumpId).woke = s.woke := rfl
@[simp] theorem State.bumpId_entered : (s.bumpId).entered = s.entered := rfl
@[simp] theorem State.bumpId_passed : (s.bumpId).passed = s.passed := rfl
@[simp] theorem State.bumpId_arrived : (s.bumpId).arrived = s.arrived := rfl
@[simp] theorem State.bumpId_sfu : (s.bumpId).sfu = s.sfu := rfl
@[simp] theorem State.bumpId_tape : (s.bumpId).tape = s.tape := rfl
@[simp] theorem State.bumpId_nextId : (s.bumpId).nextId = s.nextId + 1 := rfl
@[simp] theorem State.bumpId_free : (s.bumpId).free = s.free := rfl
@[simp] theorem State.bumpId_age : (s.bumpId).age = s.age := rfl
@[simp] theorem State.bumpId_crews : (s.bumpId).crews = s.crews := rfl
@[simp] theorem State.bumpId_teams : (s.bumpId).teams = s.teams := rfl
@[simp] theorem State.bumpId_launches : (s.bumpId).launches = s.launches := rfl
@[simp] theorem State.bumpId_seats : (s.bumpId).seats = s.seats := rfl
@[simp] theorem State.bumpId_remote : (s.bumpId).remote = s.remote := rfl
@[simp] theorem State.bumpId_contexts : (s.bumpId).contexts = s.contexts := rfl
@[simp] theorem State.bumpId_parts : (s.bumpId).parts = s.parts := rfl
@[simp] theorem State.bumpId_bays : (s.bumpId).bays = s.bays := rfl
@[simp] theorem State.bumpId_bars : (s.bumpId).bars = s.bars := rfl
@[simp] theorem State.bumpId_barGen : (s.bumpId).barGen = s.barGen := rfl
@[simp] theorem State.bumpId_faultq : (s.bumpId).faultq = s.faultq := rfl
@[simp] theorem State.bumpId_mats : (s.bumpId).mats = s.mats := rfl
@[simp] theorem State.bumpId_tiles : (s.bumpId).tiles = s.tiles := rfl
@[simp] theorem State.bumpId_copies : (s.bumpId).copies = s.copies := rfl
@[simp] theorem State.bumpId_held : (s.bumpId).held = s.held := rfl
@[simp] theorem State.bumpId_shells : (s.bumpId).shells = s.shells := rfl
@[simp] theorem State.bumpId_shpoison : (s.bumpId).shpoison = s.shpoison := rfl
@[simp] theorem State.bumpId_cooling : (s.bumpId).cooling = s.cooling := rfl
@[simp] theorem State.bumpId_shreqs : (s.bumpId).shreqs = s.shreqs := rfl
@[simp] theorem State.bumpId_landings : (s.bumpId).landings = s.landings := rfl
@[simp] theorem State.bumpId_mem : (s.bumpId).mem = s.mem := rfl
@[simp] theorem State.bumpId_mpoison : (s.bumpId).mpoison = s.mpoison := rfl
@[simp] theorem State.bumpId_wseq : (s.bumpId).wseq = s.wseq := rfl
@[simp] theorem State.bumpId_owner : (s.bumpId).owner = s.owner := rfl
@[simp] theorem State.bumpId_l1 : (s.bumpId).l1 = s.l1 := rfl
@[simp] theorem State.bumpId_fused : (s.bumpId).fused = s.fused := rfl
@[simp] theorem State.bumpId_regs : (s.bumpId).regs = s.regs := rfl
@[simp] theorem State.bumpId_adds : (s.bumpId).adds = s.adds := rfl
@[simp] theorem State.bumpId_acks : (s.bumpId).acks = s.acks := rfl
@[simp] theorem State.bumpId_l2 : (s.bumpId).l2 = s.l2 := rfl
@[simp] theorem State.bumpId_mirrors : (s.bumpId).mirrors = s.mirrors := rfl
@[simp] theorem State.bumpId_misses : (s.bumpId).misses = s.misses := rfl
@[simp] theorem State.bumpId_spillq : (s.bumpId).spillq = s.spillq := rfl
@[simp] theorem State.bumpId_wfill : (s.bumpId).wfill = s.wfill := rfl
@[simp] theorem State.bumpId_icache : (s.bumpId).icache = s.icache := rfl
@[simp] theorem State.bumpId_levels : (s.bumpId).levels = s.levels := rfl
@[simp] theorem State.bumpId_ticks : (s.bumpId).ticks = s.ticks := rfl
@[simp] theorem State.bumpId_tlb : (s.bumpId).tlb = s.tlb := rfl
@[simp] theorem State.bumpId_fab : (s.bumpId).fab = s.fab := rfl
@[simp] theorem State.bumpId_svc : (s.bumpId).svc = s.svc := rfl

/-! ## bumpFree -/

@[simp] theorem State.bumpFree_cycle : (s.bumpFree).cycle = s.cycle := rfl
@[simp] theorem State.bumpFree_ftime : (s.bumpFree).ftime = s.ftime := rfl
@[simp] theorem State.bumpFree_ftfrac : (s.bumpFree).ftfrac = s.ftfrac := rfl
@[simp] theorem State.bumpFree_cur : (s.bumpFree).cur = s.cur := rfl
@[simp] theorem State.bumpFree_picks : (s.bumpFree).picks = s.picks := rfl
@[simp] theorem State.bumpFree_woke : (s.bumpFree).woke = s.woke := rfl
@[simp] theorem State.bumpFree_entered : (s.bumpFree).entered = s.entered := rfl
@[simp] theorem State.bumpFree_passed : (s.bumpFree).passed = s.passed := rfl
@[simp] theorem State.bumpFree_arrived : (s.bumpFree).arrived = s.arrived := rfl
@[simp] theorem State.bumpFree_sfu : (s.bumpFree).sfu = s.sfu := rfl
@[simp] theorem State.bumpFree_tape : (s.bumpFree).tape = s.tape := rfl
@[simp] theorem State.bumpFree_nextId : (s.bumpFree).nextId = s.nextId := rfl
@[simp] theorem State.bumpFree_free : (s.bumpFree).free = s.free + 1 := rfl
@[simp] theorem State.bumpFree_age : (s.bumpFree).age = s.age := rfl
@[simp] theorem State.bumpFree_crews : (s.bumpFree).crews = s.crews := rfl
@[simp] theorem State.bumpFree_teams : (s.bumpFree).teams = s.teams := rfl
@[simp] theorem State.bumpFree_launches : (s.bumpFree).launches = s.launches := rfl
@[simp] theorem State.bumpFree_seats : (s.bumpFree).seats = s.seats := rfl
@[simp] theorem State.bumpFree_remote : (s.bumpFree).remote = s.remote := rfl
@[simp] theorem State.bumpFree_contexts : (s.bumpFree).contexts = s.contexts := rfl
@[simp] theorem State.bumpFree_parts : (s.bumpFree).parts = s.parts := rfl
@[simp] theorem State.bumpFree_bays : (s.bumpFree).bays = s.bays := rfl
@[simp] theorem State.bumpFree_bars : (s.bumpFree).bars = s.bars := rfl
@[simp] theorem State.bumpFree_barGen : (s.bumpFree).barGen = s.barGen := rfl
@[simp] theorem State.bumpFree_faultq : (s.bumpFree).faultq = s.faultq := rfl
@[simp] theorem State.bumpFree_mats : (s.bumpFree).mats = s.mats := rfl
@[simp] theorem State.bumpFree_tiles : (s.bumpFree).tiles = s.tiles := rfl
@[simp] theorem State.bumpFree_copies : (s.bumpFree).copies = s.copies := rfl
@[simp] theorem State.bumpFree_held : (s.bumpFree).held = s.held := rfl
@[simp] theorem State.bumpFree_shells : (s.bumpFree).shells = s.shells := rfl
@[simp] theorem State.bumpFree_shpoison : (s.bumpFree).shpoison = s.shpoison := rfl
@[simp] theorem State.bumpFree_cooling : (s.bumpFree).cooling = s.cooling := rfl
@[simp] theorem State.bumpFree_shreqs : (s.bumpFree).shreqs = s.shreqs := rfl
@[simp] theorem State.bumpFree_landings : (s.bumpFree).landings = s.landings := rfl
@[simp] theorem State.bumpFree_mem : (s.bumpFree).mem = s.mem := rfl
@[simp] theorem State.bumpFree_mpoison : (s.bumpFree).mpoison = s.mpoison := rfl
@[simp] theorem State.bumpFree_wseq : (s.bumpFree).wseq = s.wseq := rfl
@[simp] theorem State.bumpFree_owner : (s.bumpFree).owner = s.owner := rfl
@[simp] theorem State.bumpFree_l1 : (s.bumpFree).l1 = s.l1 := rfl
@[simp] theorem State.bumpFree_fused : (s.bumpFree).fused = s.fused := rfl
@[simp] theorem State.bumpFree_regs : (s.bumpFree).regs = s.regs := rfl
@[simp] theorem State.bumpFree_adds : (s.bumpFree).adds = s.adds := rfl
@[simp] theorem State.bumpFree_acks : (s.bumpFree).acks = s.acks := rfl
@[simp] theorem State.bumpFree_l2 : (s.bumpFree).l2 = s.l2 := rfl
@[simp] theorem State.bumpFree_mirrors : (s.bumpFree).mirrors = s.mirrors := rfl
@[simp] theorem State.bumpFree_misses : (s.bumpFree).misses = s.misses := rfl
@[simp] theorem State.bumpFree_spillq : (s.bumpFree).spillq = s.spillq := rfl
@[simp] theorem State.bumpFree_wfill : (s.bumpFree).wfill = s.wfill := rfl
@[simp] theorem State.bumpFree_icache : (s.bumpFree).icache = s.icache := rfl
@[simp] theorem State.bumpFree_levels : (s.bumpFree).levels = s.levels := rfl
@[simp] theorem State.bumpFree_ticks : (s.bumpFree).ticks = s.ticks := rfl
@[simp] theorem State.bumpFree_tlb : (s.bumpFree).tlb = s.tlb := rfl
@[simp] theorem State.bumpFree_fab : (s.bumpFree).fab = s.fab := rfl
@[simp] theorem State.bumpFree_svc : (s.bumpFree).svc = s.svc := rfl

/-! ## unage -/

@[simp] theorem State.unage_cycle (cid sid : Nat) : (s.unage cid sid).cycle = s.cycle := rfl
@[simp] theorem State.unage_ftime (cid sid : Nat) : (s.unage cid sid).ftime = s.ftime := rfl
@[simp] theorem State.unage_ftfrac (cid sid : Nat) : (s.unage cid sid).ftfrac = s.ftfrac := rfl
@[simp] theorem State.unage_cur (cid sid : Nat) : (s.unage cid sid).cur = s.cur := rfl
@[simp] theorem State.unage_picks (cid sid : Nat) : (s.unage cid sid).picks = s.picks := rfl
@[simp] theorem State.unage_woke (cid sid : Nat) : (s.unage cid sid).woke = s.woke.filter fun e => !(e.1 == cid && e.2 == sid) := rfl
@[simp] theorem State.unage_entered (cid sid : Nat) : (s.unage cid sid).entered = s.entered := rfl
@[simp] theorem State.unage_passed (cid sid : Nat) : (s.unage cid sid).passed = s.passed := rfl
@[simp] theorem State.unage_arrived (cid sid : Nat) : (s.unage cid sid).arrived = s.arrived := rfl
@[simp] theorem State.unage_sfu (cid sid : Nat) : (s.unage cid sid).sfu = s.sfu := rfl
@[simp] theorem State.unage_tape (cid sid : Nat) : (s.unage cid sid).tape = s.tape := rfl
@[simp] theorem State.unage_nextId (cid sid : Nat) : (s.unage cid sid).nextId = s.nextId := rfl
@[simp] theorem State.unage_free (cid sid : Nat) : (s.unage cid sid).free = s.free := rfl
@[simp] theorem State.unage_age (cid sid : Nat) : (s.unage cid sid).age = s.age.filter fun e => !(e.1 == cid && e.2 == sid) := rfl
@[simp] theorem State.unage_crews (cid sid : Nat) : (s.unage cid sid).crews = s.crews := rfl
@[simp] theorem State.unage_teams (cid sid : Nat) : (s.unage cid sid).teams = s.teams := rfl
@[simp] theorem State.unage_launches (cid sid : Nat) : (s.unage cid sid).launches = s.launches := rfl
@[simp] theorem State.unage_seats (cid sid : Nat) : (s.unage cid sid).seats = s.seats := rfl
@[simp] theorem State.unage_remote (cid sid : Nat) : (s.unage cid sid).remote = s.remote := rfl
@[simp] theorem State.unage_contexts (cid sid : Nat) : (s.unage cid sid).contexts = s.contexts := rfl
@[simp] theorem State.unage_parts (cid sid : Nat) : (s.unage cid sid).parts = s.parts := rfl
@[simp] theorem State.unage_bays (cid sid : Nat) : (s.unage cid sid).bays = s.bays := rfl
@[simp] theorem State.unage_bars (cid sid : Nat) : (s.unage cid sid).bars = s.bars := rfl
@[simp] theorem State.unage_barGen (cid sid : Nat) : (s.unage cid sid).barGen = s.barGen := rfl
@[simp] theorem State.unage_faultq (cid sid : Nat) : (s.unage cid sid).faultq = s.faultq := rfl
@[simp] theorem State.unage_mats (cid sid : Nat) : (s.unage cid sid).mats = s.mats := rfl
@[simp] theorem State.unage_tiles (cid sid : Nat) : (s.unage cid sid).tiles = s.tiles := rfl
@[simp] theorem State.unage_copies (cid sid : Nat) : (s.unage cid sid).copies = s.copies := rfl
@[simp] theorem State.unage_held (cid sid : Nat) : (s.unage cid sid).held = s.held := rfl
@[simp] theorem State.unage_shells (cid sid : Nat) : (s.unage cid sid).shells = s.shells := rfl
@[simp] theorem State.unage_shpoison (cid sid : Nat) : (s.unage cid sid).shpoison = s.shpoison := rfl
@[simp] theorem State.unage_cooling (cid sid : Nat) : (s.unage cid sid).cooling = s.cooling := rfl
@[simp] theorem State.unage_shreqs (cid sid : Nat) : (s.unage cid sid).shreqs = s.shreqs := rfl
@[simp] theorem State.unage_landings (cid sid : Nat) : (s.unage cid sid).landings = s.landings := rfl
@[simp] theorem State.unage_mem (cid sid : Nat) : (s.unage cid sid).mem = s.mem := rfl
@[simp] theorem State.unage_mpoison (cid sid : Nat) : (s.unage cid sid).mpoison = s.mpoison := rfl
@[simp] theorem State.unage_wseq (cid sid : Nat) : (s.unage cid sid).wseq = s.wseq := rfl
@[simp] theorem State.unage_owner (cid sid : Nat) : (s.unage cid sid).owner = s.owner := rfl
@[simp] theorem State.unage_l1 (cid sid : Nat) : (s.unage cid sid).l1 = s.l1 := rfl
@[simp] theorem State.unage_fused (cid sid : Nat) : (s.unage cid sid).fused = s.fused := rfl
@[simp] theorem State.unage_regs (cid sid : Nat) : (s.unage cid sid).regs = s.regs := rfl
@[simp] theorem State.unage_adds (cid sid : Nat) : (s.unage cid sid).adds = s.adds := rfl
@[simp] theorem State.unage_acks (cid sid : Nat) : (s.unage cid sid).acks = s.acks := rfl
@[simp] theorem State.unage_l2 (cid sid : Nat) : (s.unage cid sid).l2 = s.l2 := rfl
@[simp] theorem State.unage_mirrors (cid sid : Nat) : (s.unage cid sid).mirrors = s.mirrors := rfl
@[simp] theorem State.unage_misses (cid sid : Nat) : (s.unage cid sid).misses = s.misses := rfl
@[simp] theorem State.unage_spillq (cid sid : Nat) : (s.unage cid sid).spillq = s.spillq := rfl
@[simp] theorem State.unage_wfill (cid sid : Nat) : (s.unage cid sid).wfill = s.wfill := rfl
@[simp] theorem State.unage_icache (cid sid : Nat) : (s.unage cid sid).icache = s.icache := rfl
@[simp] theorem State.unage_levels (cid sid : Nat) : (s.unage cid sid).levels = s.levels := rfl
@[simp] theorem State.unage_ticks (cid sid : Nat) : (s.unage cid sid).ticks = s.ticks := rfl
@[simp] theorem State.unage_tlb (cid sid : Nat) : (s.unage cid sid).tlb = s.tlb := rfl
@[simp] theorem State.unage_fab (cid sid : Nat) : (s.unage cid sid).fab = s.fab := rfl
@[simp] theorem State.unage_svc (cid sid : Nat) : (s.unage cid sid).svc = s.svc := rfl

/-! ## enter -/

@[simp] theorem State.enter_cycle (xs : List (Nat × Nat)) : (s.enter xs).cycle = s.cycle := rfl
@[simp] theorem State.enter_ftime (xs : List (Nat × Nat)) : (s.enter xs).ftime = s.ftime := rfl
@[simp] theorem State.enter_ftfrac (xs : List (Nat × Nat)) : (s.enter xs).ftfrac = s.ftfrac := rfl
@[simp] theorem State.enter_cur (xs : List (Nat × Nat)) : (s.enter xs).cur = s.cur := rfl
@[simp] theorem State.enter_picks (xs : List (Nat × Nat)) : (s.enter xs).picks = s.picks := rfl
@[simp] theorem State.enter_entered (xs : List (Nat × Nat)) : (s.enter xs).entered = s.entered ++ xs := rfl
@[simp] theorem State.enter_passed (xs : List (Nat × Nat)) : (s.enter xs).passed = s.passed := rfl
@[simp] theorem State.enter_arrived (xs : List (Nat × Nat)) : (s.enter xs).arrived = s.arrived := rfl
@[simp] theorem State.enter_sfu (xs : List (Nat × Nat)) : (s.enter xs).sfu = s.sfu := rfl
@[simp] theorem State.enter_tape (xs : List (Nat × Nat)) : (s.enter xs).tape = s.tape := rfl
@[simp] theorem State.enter_nextId (xs : List (Nat × Nat)) : (s.enter xs).nextId = s.nextId := rfl
@[simp] theorem State.enter_free (xs : List (Nat × Nat)) : (s.enter xs).free = s.free := rfl
@[simp] theorem State.enter_crews (xs : List (Nat × Nat)) : (s.enter xs).crews = s.crews := rfl
@[simp] theorem State.enter_teams (xs : List (Nat × Nat)) : (s.enter xs).teams = s.teams := rfl
@[simp] theorem State.enter_launches (xs : List (Nat × Nat)) : (s.enter xs).launches = s.launches := rfl
@[simp] theorem State.enter_seats (xs : List (Nat × Nat)) : (s.enter xs).seats = s.seats := rfl
@[simp] theorem State.enter_remote (xs : List (Nat × Nat)) : (s.enter xs).remote = s.remote := rfl
@[simp] theorem State.enter_contexts (xs : List (Nat × Nat)) : (s.enter xs).contexts = s.contexts := rfl
@[simp] theorem State.enter_parts (xs : List (Nat × Nat)) : (s.enter xs).parts = s.parts := rfl
@[simp] theorem State.enter_bays (xs : List (Nat × Nat)) : (s.enter xs).bays = s.bays := rfl
@[simp] theorem State.enter_bars (xs : List (Nat × Nat)) : (s.enter xs).bars = s.bars := rfl
@[simp] theorem State.enter_barGen (xs : List (Nat × Nat)) : (s.enter xs).barGen = s.barGen := rfl
@[simp] theorem State.enter_faultq (xs : List (Nat × Nat)) : (s.enter xs).faultq = s.faultq := rfl
@[simp] theorem State.enter_mats (xs : List (Nat × Nat)) : (s.enter xs).mats = s.mats := rfl
@[simp] theorem State.enter_tiles (xs : List (Nat × Nat)) : (s.enter xs).tiles = s.tiles := rfl
@[simp] theorem State.enter_copies (xs : List (Nat × Nat)) : (s.enter xs).copies = s.copies := rfl
@[simp] theorem State.enter_held (xs : List (Nat × Nat)) : (s.enter xs).held = s.held := rfl
@[simp] theorem State.enter_shells (xs : List (Nat × Nat)) : (s.enter xs).shells = s.shells := rfl
@[simp] theorem State.enter_shpoison (xs : List (Nat × Nat)) : (s.enter xs).shpoison = s.shpoison := rfl
@[simp] theorem State.enter_cooling (xs : List (Nat × Nat)) : (s.enter xs).cooling = s.cooling := rfl
@[simp] theorem State.enter_shreqs (xs : List (Nat × Nat)) : (s.enter xs).shreqs = s.shreqs := rfl
@[simp] theorem State.enter_landings (xs : List (Nat × Nat)) : (s.enter xs).landings = s.landings := rfl
@[simp] theorem State.enter_mem (xs : List (Nat × Nat)) : (s.enter xs).mem = s.mem := rfl
@[simp] theorem State.enter_mpoison (xs : List (Nat × Nat)) : (s.enter xs).mpoison = s.mpoison := rfl
@[simp] theorem State.enter_wseq (xs : List (Nat × Nat)) : (s.enter xs).wseq = s.wseq := rfl
@[simp] theorem State.enter_owner (xs : List (Nat × Nat)) : (s.enter xs).owner = s.owner := rfl
@[simp] theorem State.enter_l1 (xs : List (Nat × Nat)) : (s.enter xs).l1 = s.l1 := rfl
@[simp] theorem State.enter_fused (xs : List (Nat × Nat)) : (s.enter xs).fused = s.fused := rfl
@[simp] theorem State.enter_regs (xs : List (Nat × Nat)) : (s.enter xs).regs = s.regs := rfl
@[simp] theorem State.enter_adds (xs : List (Nat × Nat)) : (s.enter xs).adds = s.adds := rfl
@[simp] theorem State.enter_acks (xs : List (Nat × Nat)) : (s.enter xs).acks = s.acks := rfl
@[simp] theorem State.enter_l2 (xs : List (Nat × Nat)) : (s.enter xs).l2 = s.l2 := rfl
@[simp] theorem State.enter_mirrors (xs : List (Nat × Nat)) : (s.enter xs).mirrors = s.mirrors := rfl
@[simp] theorem State.enter_misses (xs : List (Nat × Nat)) : (s.enter xs).misses = s.misses := rfl
@[simp] theorem State.enter_spillq (xs : List (Nat × Nat)) : (s.enter xs).spillq = s.spillq := rfl
@[simp] theorem State.enter_wfill (xs : List (Nat × Nat)) : (s.enter xs).wfill = s.wfill := rfl
@[simp] theorem State.enter_icache (xs : List (Nat × Nat)) : (s.enter xs).icache = s.icache := rfl
@[simp] theorem State.enter_levels (xs : List (Nat × Nat)) : (s.enter xs).levels = s.levels := rfl
@[simp] theorem State.enter_ticks (xs : List (Nat × Nat)) : (s.enter xs).ticks = s.ticks := rfl
@[simp] theorem State.enter_tlb (xs : List (Nat × Nat)) : (s.enter xs).tlb = s.tlb := rfl
@[simp] theorem State.enter_fab (xs : List (Nat × Nat)) : (s.enter xs).fab = s.fab := rfl
@[simp] theorem State.enter_svc (xs : List (Nat × Nat)) : (s.enter xs).svc = s.svc := rfl

/-! ## enage -/

@[simp] theorem State.enage_cycle (cid sid : Nat) : (s.enage cid sid).cycle = s.cycle := rfl
@[simp] theorem State.enage_ftime (cid sid : Nat) : (s.enage cid sid).ftime = s.ftime := rfl
@[simp] theorem State.enage_ftfrac (cid sid : Nat) : (s.enage cid sid).ftfrac = s.ftfrac := rfl
@[simp] theorem State.enage_cur (cid sid : Nat) : (s.enage cid sid).cur = s.cur := rfl
@[simp] theorem State.enage_picks (cid sid : Nat) : (s.enage cid sid).picks = s.picks := rfl
@[simp] theorem State.enage_entered (cid sid : Nat) : (s.enage cid sid).entered = s.entered := rfl
@[simp] theorem State.enage_passed (cid sid : Nat) : (s.enage cid sid).passed = s.passed := rfl
@[simp] theorem State.enage_arrived (cid sid : Nat) : (s.enage cid sid).arrived = s.arrived := rfl
@[simp] theorem State.enage_sfu (cid sid : Nat) : (s.enage cid sid).sfu = s.sfu := rfl
@[simp] theorem State.enage_tape (cid sid : Nat) : (s.enage cid sid).tape = s.tape := rfl
@[simp] theorem State.enage_nextId (cid sid : Nat) : (s.enage cid sid).nextId = s.nextId := rfl
@[simp] theorem State.enage_free (cid sid : Nat) : (s.enage cid sid).free = s.free := rfl
@[simp] theorem State.enage_crews (cid sid : Nat) : (s.enage cid sid).crews = s.crews := rfl
@[simp] theorem State.enage_teams (cid sid : Nat) : (s.enage cid sid).teams = s.teams := rfl
@[simp] theorem State.enage_launches (cid sid : Nat) : (s.enage cid sid).launches = s.launches := rfl
@[simp] theorem State.enage_seats (cid sid : Nat) : (s.enage cid sid).seats = s.seats := rfl
@[simp] theorem State.enage_remote (cid sid : Nat) : (s.enage cid sid).remote = s.remote := rfl
@[simp] theorem State.enage_contexts (cid sid : Nat) : (s.enage cid sid).contexts = s.contexts := rfl
@[simp] theorem State.enage_parts (cid sid : Nat) : (s.enage cid sid).parts = s.parts := rfl
@[simp] theorem State.enage_bays (cid sid : Nat) : (s.enage cid sid).bays = s.bays := rfl
@[simp] theorem State.enage_bars (cid sid : Nat) : (s.enage cid sid).bars = s.bars := rfl
@[simp] theorem State.enage_barGen (cid sid : Nat) : (s.enage cid sid).barGen = s.barGen := rfl
@[simp] theorem State.enage_faultq (cid sid : Nat) : (s.enage cid sid).faultq = s.faultq := rfl
@[simp] theorem State.enage_mats (cid sid : Nat) : (s.enage cid sid).mats = s.mats := rfl
@[simp] theorem State.enage_tiles (cid sid : Nat) : (s.enage cid sid).tiles = s.tiles := rfl
@[simp] theorem State.enage_copies (cid sid : Nat) : (s.enage cid sid).copies = s.copies := rfl
@[simp] theorem State.enage_held (cid sid : Nat) : (s.enage cid sid).held = s.held := rfl
@[simp] theorem State.enage_shells (cid sid : Nat) : (s.enage cid sid).shells = s.shells := rfl
@[simp] theorem State.enage_shpoison (cid sid : Nat) : (s.enage cid sid).shpoison = s.shpoison := rfl
@[simp] theorem State.enage_cooling (cid sid : Nat) : (s.enage cid sid).cooling = s.cooling := rfl
@[simp] theorem State.enage_shreqs (cid sid : Nat) : (s.enage cid sid).shreqs = s.shreqs := rfl
@[simp] theorem State.enage_landings (cid sid : Nat) : (s.enage cid sid).landings = s.landings := rfl
@[simp] theorem State.enage_mem (cid sid : Nat) : (s.enage cid sid).mem = s.mem := rfl
@[simp] theorem State.enage_mpoison (cid sid : Nat) : (s.enage cid sid).mpoison = s.mpoison := rfl
@[simp] theorem State.enage_wseq (cid sid : Nat) : (s.enage cid sid).wseq = s.wseq := rfl
@[simp] theorem State.enage_owner (cid sid : Nat) : (s.enage cid sid).owner = s.owner := rfl
@[simp] theorem State.enage_l1 (cid sid : Nat) : (s.enage cid sid).l1 = s.l1 := rfl
@[simp] theorem State.enage_fused (cid sid : Nat) : (s.enage cid sid).fused = s.fused := rfl
@[simp] theorem State.enage_regs (cid sid : Nat) : (s.enage cid sid).regs = s.regs := rfl
@[simp] theorem State.enage_adds (cid sid : Nat) : (s.enage cid sid).adds = s.adds := rfl
@[simp] theorem State.enage_acks (cid sid : Nat) : (s.enage cid sid).acks = s.acks := rfl
@[simp] theorem State.enage_l2 (cid sid : Nat) : (s.enage cid sid).l2 = s.l2 := rfl
@[simp] theorem State.enage_mirrors (cid sid : Nat) : (s.enage cid sid).mirrors = s.mirrors := rfl
@[simp] theorem State.enage_misses (cid sid : Nat) : (s.enage cid sid).misses = s.misses := rfl
@[simp] theorem State.enage_spillq (cid sid : Nat) : (s.enage cid sid).spillq = s.spillq := rfl
@[simp] theorem State.enage_wfill (cid sid : Nat) : (s.enage cid sid).wfill = s.wfill := rfl
@[simp] theorem State.enage_icache (cid sid : Nat) : (s.enage cid sid).icache = s.icache := rfl
@[simp] theorem State.enage_levels (cid sid : Nat) : (s.enage cid sid).levels = s.levels := rfl
@[simp] theorem State.enage_ticks (cid sid : Nat) : (s.enage cid sid).ticks = s.ticks := rfl
@[simp] theorem State.enage_tlb (cid sid : Nat) : (s.enage cid sid).tlb = s.tlb := rfl
@[simp] theorem State.enage_fab (cid sid : Nat) : (s.enage cid sid).fab = s.fab := rfl
@[simp] theorem State.enage_svc (cid sid : Nat) : (s.enage cid sid).svc = s.svc := rfl

/-! ## loseLandings -/

@[simp] theorem State.loseLandings_cycle (cid : Nat) (sid : Option Nat) : (s.loseLandings cid sid).cycle = s.cycle := rfl
@[simp] theorem State.loseLandings_ftime (cid : Nat) (sid : Option Nat) : (s.loseLandings cid sid).ftime = s.ftime := rfl
@[simp] theorem State.loseLandings_ftfrac (cid : Nat) (sid : Option Nat) : (s.loseLandings cid sid).ftfrac = s.ftfrac := rfl
@[simp] theorem State.loseLandings_cur (cid : Nat) (sid : Option Nat) : (s.loseLandings cid sid).cur = s.cur := rfl
@[simp] theorem State.loseLandings_picks (cid : Nat) (sid : Option Nat) : (s.loseLandings cid sid).picks = s.picks := rfl
@[simp] theorem State.loseLandings_woke (cid : Nat) (sid : Option Nat) : (s.loseLandings cid sid).woke = s.woke := rfl
@[simp] theorem State.loseLandings_entered (cid : Nat) (sid : Option Nat) : (s.loseLandings cid sid).entered = s.entered := rfl
@[simp] theorem State.loseLandings_passed (cid : Nat) (sid : Option Nat) : (s.loseLandings cid sid).passed = s.passed := rfl
@[simp] theorem State.loseLandings_arrived (cid : Nat) (sid : Option Nat) : (s.loseLandings cid sid).arrived = s.arrived := rfl
@[simp] theorem State.loseLandings_sfu (cid : Nat) (sid : Option Nat) : (s.loseLandings cid sid).sfu = s.sfu := rfl
@[simp] theorem State.loseLandings_tape (cid : Nat) (sid : Option Nat) : (s.loseLandings cid sid).tape = s.tape := rfl
@[simp] theorem State.loseLandings_nextId (cid : Nat) (sid : Option Nat) : (s.loseLandings cid sid).nextId = s.nextId := rfl
@[simp] theorem State.loseLandings_free (cid : Nat) (sid : Option Nat) : (s.loseLandings cid sid).free = s.free := rfl
@[simp] theorem State.loseLandings_age (cid : Nat) (sid : Option Nat) : (s.loseLandings cid sid).age = s.age := rfl
@[simp] theorem State.loseLandings_crews (cid : Nat) (sid : Option Nat) : (s.loseLandings cid sid).crews = s.crews := rfl
@[simp] theorem State.loseLandings_teams (cid : Nat) (sid : Option Nat) : (s.loseLandings cid sid).teams = s.teams := rfl
@[simp] theorem State.loseLandings_launches (cid : Nat) (sid : Option Nat) : (s.loseLandings cid sid).launches = s.launches := rfl
@[simp] theorem State.loseLandings_seats (cid : Nat) (sid : Option Nat) : (s.loseLandings cid sid).seats = s.seats := rfl
@[simp] theorem State.loseLandings_remote (cid : Nat) (sid : Option Nat) : (s.loseLandings cid sid).remote = s.remote := rfl
@[simp] theorem State.loseLandings_contexts (cid : Nat) (sid : Option Nat) : (s.loseLandings cid sid).contexts = s.contexts := rfl
@[simp] theorem State.loseLandings_parts (cid : Nat) (sid : Option Nat) : (s.loseLandings cid sid).parts = s.parts := rfl
@[simp] theorem State.loseLandings_bays (cid : Nat) (sid : Option Nat) : (s.loseLandings cid sid).bays = s.bays := rfl
@[simp] theorem State.loseLandings_bars (cid : Nat) (sid : Option Nat) : (s.loseLandings cid sid).bars = s.bars := rfl
@[simp] theorem State.loseLandings_barGen (cid : Nat) (sid : Option Nat) : (s.loseLandings cid sid).barGen = s.barGen := rfl
@[simp] theorem State.loseLandings_faultq (cid : Nat) (sid : Option Nat) : (s.loseLandings cid sid).faultq = s.faultq := rfl
@[simp] theorem State.loseLandings_mats (cid : Nat) (sid : Option Nat) : (s.loseLandings cid sid).mats = s.mats := rfl
@[simp] theorem State.loseLandings_tiles (cid : Nat) (sid : Option Nat) : (s.loseLandings cid sid).tiles = s.tiles := rfl
@[simp] theorem State.loseLandings_copies (cid : Nat) (sid : Option Nat) : (s.loseLandings cid sid).copies = s.copies := rfl
@[simp] theorem State.loseLandings_held (cid : Nat) (sid : Option Nat) : (s.loseLandings cid sid).held = s.held := rfl
@[simp] theorem State.loseLandings_shells (cid : Nat) (sid : Option Nat) : (s.loseLandings cid sid).shells = s.shells := rfl
@[simp] theorem State.loseLandings_shpoison (cid : Nat) (sid : Option Nat) : (s.loseLandings cid sid).shpoison = s.shpoison := rfl
@[simp] theorem State.loseLandings_cooling (cid : Nat) (sid : Option Nat) : (s.loseLandings cid sid).cooling = s.cooling := rfl
@[simp] theorem State.loseLandings_shreqs (cid : Nat) (sid : Option Nat) : (s.loseLandings cid sid).shreqs = s.shreqs := rfl
@[simp] theorem State.loseLandings_mem (cid : Nat) (sid : Option Nat) : (s.loseLandings cid sid).mem = s.mem := rfl
@[simp] theorem State.loseLandings_mpoison (cid : Nat) (sid : Option Nat) : (s.loseLandings cid sid).mpoison = s.mpoison := rfl
@[simp] theorem State.loseLandings_wseq (cid : Nat) (sid : Option Nat) : (s.loseLandings cid sid).wseq = s.wseq := rfl
@[simp] theorem State.loseLandings_owner (cid : Nat) (sid : Option Nat) : (s.loseLandings cid sid).owner = s.owner := rfl
@[simp] theorem State.loseLandings_l1 (cid : Nat) (sid : Option Nat) : (s.loseLandings cid sid).l1 = s.l1 := rfl
@[simp] theorem State.loseLandings_fused (cid : Nat) (sid : Option Nat) : (s.loseLandings cid sid).fused = s.fused := rfl
@[simp] theorem State.loseLandings_regs (cid : Nat) (sid : Option Nat) : (s.loseLandings cid sid).regs = s.regs := rfl
@[simp] theorem State.loseLandings_adds (cid : Nat) (sid : Option Nat) : (s.loseLandings cid sid).adds = s.adds := rfl
@[simp] theorem State.loseLandings_acks (cid : Nat) (sid : Option Nat) : (s.loseLandings cid sid).acks = s.acks := rfl
@[simp] theorem State.loseLandings_l2 (cid : Nat) (sid : Option Nat) : (s.loseLandings cid sid).l2 = s.l2 := rfl
@[simp] theorem State.loseLandings_mirrors (cid : Nat) (sid : Option Nat) : (s.loseLandings cid sid).mirrors = s.mirrors := rfl
@[simp] theorem State.loseLandings_misses (cid : Nat) (sid : Option Nat) : (s.loseLandings cid sid).misses = s.misses := rfl
@[simp] theorem State.loseLandings_spillq (cid : Nat) (sid : Option Nat) : (s.loseLandings cid sid).spillq = s.spillq := rfl
@[simp] theorem State.loseLandings_wfill (cid : Nat) (sid : Option Nat) : (s.loseLandings cid sid).wfill = s.wfill := rfl
@[simp] theorem State.loseLandings_icache (cid : Nat) (sid : Option Nat) : (s.loseLandings cid sid).icache = s.icache := rfl
@[simp] theorem State.loseLandings_levels (cid : Nat) (sid : Option Nat) : (s.loseLandings cid sid).levels = s.levels := rfl
@[simp] theorem State.loseLandings_ticks (cid : Nat) (sid : Option Nat) : (s.loseLandings cid sid).ticks = s.ticks := rfl
@[simp] theorem State.loseLandings_tlb (cid : Nat) (sid : Option Nat) : (s.loseLandings cid sid).tlb = s.tlb := rfl
@[simp] theorem State.loseLandings_fab (cid : Nat) (sid : Option Nat) : (s.loseLandings cid sid).fab = s.fab := rfl
@[simp] theorem State.loseLandings_svc (cid : Nat) (sid : Option Nat) : (s.loseLandings cid sid).svc = s.svc := rfl

/-! ## takeMark -/

@[simp] theorem State.takeMark_cycle (cid sid : Nat) (f : MarkRec → MarkRec) : (s.takeMark cid sid f).cycle = s.cycle := rfl
@[simp] theorem State.takeMark_ftime (cid sid : Nat) (f : MarkRec → MarkRec) : (s.takeMark cid sid f).ftime = s.ftime := rfl
@[simp] theorem State.takeMark_ftfrac (cid sid : Nat) (f : MarkRec → MarkRec) : (s.takeMark cid sid f).ftfrac = s.ftfrac := rfl
@[simp] theorem State.takeMark_cur (cid sid : Nat) (f : MarkRec → MarkRec) : (s.takeMark cid sid f).cur = s.cur := rfl
@[simp] theorem State.takeMark_picks (cid sid : Nat) (f : MarkRec → MarkRec) : (s.takeMark cid sid f).picks = s.picks := rfl
@[simp] theorem State.takeMark_woke (cid sid : Nat) (f : MarkRec → MarkRec) : (s.takeMark cid sid f).woke = s.woke := rfl
@[simp] theorem State.takeMark_entered (cid sid : Nat) (f : MarkRec → MarkRec) : (s.takeMark cid sid f).entered = s.entered := rfl
@[simp] theorem State.takeMark_passed (cid sid : Nat) (f : MarkRec → MarkRec) : (s.takeMark cid sid f).passed = s.passed := rfl
@[simp] theorem State.takeMark_arrived (cid sid : Nat) (f : MarkRec → MarkRec) : (s.takeMark cid sid f).arrived = s.arrived := rfl
@[simp] theorem State.takeMark_sfu (cid sid : Nat) (f : MarkRec → MarkRec) : (s.takeMark cid sid f).sfu = s.sfu := rfl
@[simp] theorem State.takeMark_tape (cid sid : Nat) (f : MarkRec → MarkRec) : (s.takeMark cid sid f).tape = s.tape := rfl
@[simp] theorem State.takeMark_nextId (cid sid : Nat) (f : MarkRec → MarkRec) : (s.takeMark cid sid f).nextId = s.nextId + 1 := rfl
@[simp] theorem State.takeMark_free (cid sid : Nat) (f : MarkRec → MarkRec) : (s.takeMark cid sid f).free = s.free := rfl
@[simp] theorem State.takeMark_age (cid sid : Nat) (f : MarkRec → MarkRec) : (s.takeMark cid sid f).age = s.age := rfl
@[simp] theorem State.takeMark_teams (cid sid : Nat) (f : MarkRec → MarkRec) : (s.takeMark cid sid f).teams = s.teams := rfl
@[simp] theorem State.takeMark_launches (cid sid : Nat) (f : MarkRec → MarkRec) : (s.takeMark cid sid f).launches = s.launches := rfl
@[simp] theorem State.takeMark_seats (cid sid : Nat) (f : MarkRec → MarkRec) : (s.takeMark cid sid f).seats = s.seats := rfl
@[simp] theorem State.takeMark_remote (cid sid : Nat) (f : MarkRec → MarkRec) : (s.takeMark cid sid f).remote = s.remote := rfl
@[simp] theorem State.takeMark_contexts (cid sid : Nat) (f : MarkRec → MarkRec) : (s.takeMark cid sid f).contexts = s.contexts := rfl
@[simp] theorem State.takeMark_parts (cid sid : Nat) (f : MarkRec → MarkRec) : (s.takeMark cid sid f).parts = s.parts := rfl
@[simp] theorem State.takeMark_bays (cid sid : Nat) (f : MarkRec → MarkRec) : (s.takeMark cid sid f).bays = s.bays := rfl
@[simp] theorem State.takeMark_bars (cid sid : Nat) (f : MarkRec → MarkRec) : (s.takeMark cid sid f).bars = s.bars := rfl
@[simp] theorem State.takeMark_barGen (cid sid : Nat) (f : MarkRec → MarkRec) : (s.takeMark cid sid f).barGen = s.barGen := rfl
@[simp] theorem State.takeMark_faultq (cid sid : Nat) (f : MarkRec → MarkRec) : (s.takeMark cid sid f).faultq = s.faultq := rfl
@[simp] theorem State.takeMark_mats (cid sid : Nat) (f : MarkRec → MarkRec) : (s.takeMark cid sid f).mats = s.mats := rfl
@[simp] theorem State.takeMark_tiles (cid sid : Nat) (f : MarkRec → MarkRec) : (s.takeMark cid sid f).tiles = s.tiles := rfl
@[simp] theorem State.takeMark_copies (cid sid : Nat) (f : MarkRec → MarkRec) : (s.takeMark cid sid f).copies = s.copies := rfl
@[simp] theorem State.takeMark_held (cid sid : Nat) (f : MarkRec → MarkRec) : (s.takeMark cid sid f).held = s.held := rfl
@[simp] theorem State.takeMark_shells (cid sid : Nat) (f : MarkRec → MarkRec) : (s.takeMark cid sid f).shells = s.shells := rfl
@[simp] theorem State.takeMark_shpoison (cid sid : Nat) (f : MarkRec → MarkRec) : (s.takeMark cid sid f).shpoison = s.shpoison := rfl
@[simp] theorem State.takeMark_cooling (cid sid : Nat) (f : MarkRec → MarkRec) : (s.takeMark cid sid f).cooling = s.cooling := rfl
@[simp] theorem State.takeMark_shreqs (cid sid : Nat) (f : MarkRec → MarkRec) : (s.takeMark cid sid f).shreqs = s.shreqs := rfl
@[simp] theorem State.takeMark_landings (cid sid : Nat) (f : MarkRec → MarkRec) : (s.takeMark cid sid f).landings = s.landings := rfl
@[simp] theorem State.takeMark_mem (cid sid : Nat) (f : MarkRec → MarkRec) : (s.takeMark cid sid f).mem = s.mem := rfl
@[simp] theorem State.takeMark_mpoison (cid sid : Nat) (f : MarkRec → MarkRec) : (s.takeMark cid sid f).mpoison = s.mpoison := rfl
@[simp] theorem State.takeMark_wseq (cid sid : Nat) (f : MarkRec → MarkRec) : (s.takeMark cid sid f).wseq = s.wseq := rfl
@[simp] theorem State.takeMark_owner (cid sid : Nat) (f : MarkRec → MarkRec) : (s.takeMark cid sid f).owner = s.owner := rfl
@[simp] theorem State.takeMark_l1 (cid sid : Nat) (f : MarkRec → MarkRec) : (s.takeMark cid sid f).l1 = s.l1 := rfl
@[simp] theorem State.takeMark_fused (cid sid : Nat) (f : MarkRec → MarkRec) : (s.takeMark cid sid f).fused = s.fused := rfl
@[simp] theorem State.takeMark_regs (cid sid : Nat) (f : MarkRec → MarkRec) : (s.takeMark cid sid f).regs = s.regs := rfl
@[simp] theorem State.takeMark_adds (cid sid : Nat) (f : MarkRec → MarkRec) : (s.takeMark cid sid f).adds = s.adds := rfl
@[simp] theorem State.takeMark_acks (cid sid : Nat) (f : MarkRec → MarkRec) : (s.takeMark cid sid f).acks = s.acks := rfl
@[simp] theorem State.takeMark_l2 (cid sid : Nat) (f : MarkRec → MarkRec) : (s.takeMark cid sid f).l2 = s.l2 := rfl
@[simp] theorem State.takeMark_mirrors (cid sid : Nat) (f : MarkRec → MarkRec) : (s.takeMark cid sid f).mirrors = s.mirrors := rfl
@[simp] theorem State.takeMark_misses (cid sid : Nat) (f : MarkRec → MarkRec) : (s.takeMark cid sid f).misses = s.misses := rfl
@[simp] theorem State.takeMark_spillq (cid sid : Nat) (f : MarkRec → MarkRec) : (s.takeMark cid sid f).spillq = s.spillq := rfl
@[simp] theorem State.takeMark_wfill (cid sid : Nat) (f : MarkRec → MarkRec) : (s.takeMark cid sid f).wfill = s.wfill := rfl
@[simp] theorem State.takeMark_icache (cid sid : Nat) (f : MarkRec → MarkRec) : (s.takeMark cid sid f).icache = s.icache := rfl
@[simp] theorem State.takeMark_levels (cid sid : Nat) (f : MarkRec → MarkRec) : (s.takeMark cid sid f).levels = s.levels := rfl
@[simp] theorem State.takeMark_ticks (cid sid : Nat) (f : MarkRec → MarkRec) : (s.takeMark cid sid f).ticks = s.ticks := rfl
@[simp] theorem State.takeMark_tlb (cid sid : Nat) (f : MarkRec → MarkRec) : (s.takeMark cid sid f).tlb = s.tlb := rfl
@[simp] theorem State.takeMark_fab (cid sid : Nat) (f : MarkRec → MarkRec) : (s.takeMark cid sid f).fab = s.fab := rfl
@[simp] theorem State.takeMark_svc (cid sid : Nat) (f : MarkRec → MarkRec) : (s.takeMark cid sid f).svc = s.svc := rfl

/-! ## landMark -/

@[simp] theorem State.landMark_cycle (cid sid seq : Nat) : (s.landMark cid sid seq).cycle = s.cycle := rfl
@[simp] theorem State.landMark_ftime (cid sid seq : Nat) : (s.landMark cid sid seq).ftime = s.ftime := rfl
@[simp] theorem State.landMark_ftfrac (cid sid seq : Nat) : (s.landMark cid sid seq).ftfrac = s.ftfrac := rfl
@[simp] theorem State.landMark_cur (cid sid seq : Nat) : (s.landMark cid sid seq).cur = s.cur := rfl
@[simp] theorem State.landMark_picks (cid sid seq : Nat) : (s.landMark cid sid seq).picks = s.picks := rfl
@[simp] theorem State.landMark_woke (cid sid seq : Nat) : (s.landMark cid sid seq).woke = s.woke := rfl
@[simp] theorem State.landMark_entered (cid sid seq : Nat) : (s.landMark cid sid seq).entered = s.entered := rfl
@[simp] theorem State.landMark_passed (cid sid seq : Nat) : (s.landMark cid sid seq).passed = s.passed := rfl
@[simp] theorem State.landMark_arrived (cid sid seq : Nat) : (s.landMark cid sid seq).arrived = s.arrived := rfl
@[simp] theorem State.landMark_sfu (cid sid seq : Nat) : (s.landMark cid sid seq).sfu = s.sfu := rfl
@[simp] theorem State.landMark_tape (cid sid seq : Nat) : (s.landMark cid sid seq).tape = s.tape := rfl
@[simp] theorem State.landMark_nextId (cid sid seq : Nat) : (s.landMark cid sid seq).nextId = s.nextId + 1 := rfl
@[simp] theorem State.landMark_free (cid sid seq : Nat) : (s.landMark cid sid seq).free = s.free := rfl
@[simp] theorem State.landMark_age (cid sid seq : Nat) : (s.landMark cid sid seq).age = s.age := rfl
@[simp] theorem State.landMark_teams (cid sid seq : Nat) : (s.landMark cid sid seq).teams = s.teams := rfl
@[simp] theorem State.landMark_launches (cid sid seq : Nat) : (s.landMark cid sid seq).launches = s.launches := rfl
@[simp] theorem State.landMark_seats (cid sid seq : Nat) : (s.landMark cid sid seq).seats = s.seats := rfl
@[simp] theorem State.landMark_remote (cid sid seq : Nat) : (s.landMark cid sid seq).remote = s.remote := rfl
@[simp] theorem State.landMark_contexts (cid sid seq : Nat) : (s.landMark cid sid seq).contexts = s.contexts := rfl
@[simp] theorem State.landMark_parts (cid sid seq : Nat) : (s.landMark cid sid seq).parts = s.parts := rfl
@[simp] theorem State.landMark_bays (cid sid seq : Nat) : (s.landMark cid sid seq).bays = s.bays := rfl
@[simp] theorem State.landMark_bars (cid sid seq : Nat) : (s.landMark cid sid seq).bars = s.bars := rfl
@[simp] theorem State.landMark_barGen (cid sid seq : Nat) : (s.landMark cid sid seq).barGen = s.barGen := rfl
@[simp] theorem State.landMark_faultq (cid sid seq : Nat) : (s.landMark cid sid seq).faultq = s.faultq := rfl
@[simp] theorem State.landMark_mats (cid sid seq : Nat) : (s.landMark cid sid seq).mats = s.mats := rfl
@[simp] theorem State.landMark_tiles (cid sid seq : Nat) : (s.landMark cid sid seq).tiles = s.tiles := rfl
@[simp] theorem State.landMark_copies (cid sid seq : Nat) : (s.landMark cid sid seq).copies = s.copies := rfl
@[simp] theorem State.landMark_held (cid sid seq : Nat) : (s.landMark cid sid seq).held = s.held := rfl
@[simp] theorem State.landMark_shells (cid sid seq : Nat) : (s.landMark cid sid seq).shells = s.shells := rfl
@[simp] theorem State.landMark_shpoison (cid sid seq : Nat) : (s.landMark cid sid seq).shpoison = s.shpoison := rfl
@[simp] theorem State.landMark_cooling (cid sid seq : Nat) : (s.landMark cid sid seq).cooling = s.cooling := rfl
@[simp] theorem State.landMark_shreqs (cid sid seq : Nat) : (s.landMark cid sid seq).shreqs = s.shreqs := rfl
@[simp] theorem State.landMark_landings (cid sid seq : Nat) : (s.landMark cid sid seq).landings = s.landings := rfl
@[simp] theorem State.landMark_mem (cid sid seq : Nat) : (s.landMark cid sid seq).mem = s.mem := rfl
@[simp] theorem State.landMark_mpoison (cid sid seq : Nat) : (s.landMark cid sid seq).mpoison = s.mpoison := rfl
@[simp] theorem State.landMark_wseq (cid sid seq : Nat) : (s.landMark cid sid seq).wseq = s.wseq := rfl
@[simp] theorem State.landMark_owner (cid sid seq : Nat) : (s.landMark cid sid seq).owner = s.owner := rfl
@[simp] theorem State.landMark_l1 (cid sid seq : Nat) : (s.landMark cid sid seq).l1 = s.l1 := rfl
@[simp] theorem State.landMark_fused (cid sid seq : Nat) : (s.landMark cid sid seq).fused = s.fused := rfl
@[simp] theorem State.landMark_regs (cid sid seq : Nat) : (s.landMark cid sid seq).regs = s.regs := rfl
@[simp] theorem State.landMark_adds (cid sid seq : Nat) : (s.landMark cid sid seq).adds = s.adds := rfl
@[simp] theorem State.landMark_acks (cid sid seq : Nat) : (s.landMark cid sid seq).acks = s.acks := rfl
@[simp] theorem State.landMark_l2 (cid sid seq : Nat) : (s.landMark cid sid seq).l2 = s.l2 := rfl
@[simp] theorem State.landMark_mirrors (cid sid seq : Nat) : (s.landMark cid sid seq).mirrors = s.mirrors := rfl
@[simp] theorem State.landMark_misses (cid sid seq : Nat) : (s.landMark cid sid seq).misses = s.misses := rfl
@[simp] theorem State.landMark_spillq (cid sid seq : Nat) : (s.landMark cid sid seq).spillq = s.spillq := rfl
@[simp] theorem State.landMark_wfill (cid sid seq : Nat) : (s.landMark cid sid seq).wfill = s.wfill := rfl
@[simp] theorem State.landMark_icache (cid sid seq : Nat) : (s.landMark cid sid seq).icache = s.icache := rfl
@[simp] theorem State.landMark_levels (cid sid seq : Nat) : (s.landMark cid sid seq).levels = s.levels := rfl
@[simp] theorem State.landMark_ticks (cid sid seq : Nat) : (s.landMark cid sid seq).ticks = s.ticks := rfl
@[simp] theorem State.landMark_tlb (cid sid seq : Nat) : (s.landMark cid sid seq).tlb = s.tlb := rfl
@[simp] theorem State.landMark_fab (cid sid seq : Nat) : (s.landMark cid sid seq).fab = s.fab := rfl
@[simp] theorem State.landMark_svc (cid sid seq : Nat) : (s.landMark cid sid seq).svc = s.svc := rfl

/-! ## hold -/

@[simp] theorem State.hold_cycle (cid sid pa : Nat) (write : Bool) : (s.hold cid sid pa write).cycle = s.cycle := rfl
@[simp] theorem State.hold_ftime (cid sid pa : Nat) (write : Bool) : (s.hold cid sid pa write).ftime = s.ftime := rfl
@[simp] theorem State.hold_ftfrac (cid sid pa : Nat) (write : Bool) : (s.hold cid sid pa write).ftfrac = s.ftfrac := rfl
@[simp] theorem State.hold_cur (cid sid pa : Nat) (write : Bool) : (s.hold cid sid pa write).cur = s.cur := rfl
@[simp] theorem State.hold_picks (cid sid pa : Nat) (write : Bool) : (s.hold cid sid pa write).picks = s.picks := rfl
@[simp] theorem State.hold_woke (cid sid pa : Nat) (write : Bool) : (s.hold cid sid pa write).woke = s.woke := rfl
@[simp] theorem State.hold_entered (cid sid pa : Nat) (write : Bool) : (s.hold cid sid pa write).entered = s.entered := rfl
@[simp] theorem State.hold_passed (cid sid pa : Nat) (write : Bool) : (s.hold cid sid pa write).passed = s.passed := rfl
@[simp] theorem State.hold_arrived (cid sid pa : Nat) (write : Bool) : (s.hold cid sid pa write).arrived = s.arrived := rfl
@[simp] theorem State.hold_sfu (cid sid pa : Nat) (write : Bool) : (s.hold cid sid pa write).sfu = s.sfu := rfl
@[simp] theorem State.hold_tape (cid sid pa : Nat) (write : Bool) : (s.hold cid sid pa write).tape = s.tape := rfl
@[simp] theorem State.hold_nextId (cid sid pa : Nat) (write : Bool) : (s.hold cid sid pa write).nextId = s.nextId := rfl
@[simp] theorem State.hold_free (cid sid pa : Nat) (write : Bool) : (s.hold cid sid pa write).free = s.free := rfl
@[simp] theorem State.hold_age (cid sid pa : Nat) (write : Bool) : (s.hold cid sid pa write).age = s.age := rfl
@[simp] theorem State.hold_teams (cid sid pa : Nat) (write : Bool) : (s.hold cid sid pa write).teams = s.teams := rfl
@[simp] theorem State.hold_launches (cid sid pa : Nat) (write : Bool) : (s.hold cid sid pa write).launches = s.launches := rfl
@[simp] theorem State.hold_seats (cid sid pa : Nat) (write : Bool) : (s.hold cid sid pa write).seats = s.seats := rfl
@[simp] theorem State.hold_remote (cid sid pa : Nat) (write : Bool) : (s.hold cid sid pa write).remote = s.remote := rfl
@[simp] theorem State.hold_contexts (cid sid pa : Nat) (write : Bool) : (s.hold cid sid pa write).contexts = s.contexts := rfl
@[simp] theorem State.hold_parts (cid sid pa : Nat) (write : Bool) : (s.hold cid sid pa write).parts = s.parts := rfl
@[simp] theorem State.hold_bays (cid sid pa : Nat) (write : Bool) : (s.hold cid sid pa write).bays = s.bays := rfl
@[simp] theorem State.hold_bars (cid sid pa : Nat) (write : Bool) : (s.hold cid sid pa write).bars = s.bars := rfl
@[simp] theorem State.hold_barGen (cid sid pa : Nat) (write : Bool) : (s.hold cid sid pa write).barGen = s.barGen := rfl
@[simp] theorem State.hold_faultq (cid sid pa : Nat) (write : Bool) : (s.hold cid sid pa write).faultq = s.faultq := rfl
@[simp] theorem State.hold_mats (cid sid pa : Nat) (write : Bool) : (s.hold cid sid pa write).mats = s.mats := rfl
@[simp] theorem State.hold_tiles (cid sid pa : Nat) (write : Bool) : (s.hold cid sid pa write).tiles = s.tiles := rfl
@[simp] theorem State.hold_copies (cid sid pa : Nat) (write : Bool) : (s.hold cid sid pa write).copies = s.copies := rfl
@[simp] theorem State.hold_held (cid sid pa : Nat) (write : Bool) : (s.hold cid sid pa write).held = s.held := rfl
@[simp] theorem State.hold_shells (cid sid pa : Nat) (write : Bool) : (s.hold cid sid pa write).shells = s.shells := rfl
@[simp] theorem State.hold_shpoison (cid sid pa : Nat) (write : Bool) : (s.hold cid sid pa write).shpoison = s.shpoison := rfl
@[simp] theorem State.hold_cooling (cid sid pa : Nat) (write : Bool) : (s.hold cid sid pa write).cooling = s.cooling := rfl
@[simp] theorem State.hold_shreqs (cid sid pa : Nat) (write : Bool) : (s.hold cid sid pa write).shreqs = s.shreqs := rfl
@[simp] theorem State.hold_landings (cid sid pa : Nat) (write : Bool) : (s.hold cid sid pa write).landings = s.landings := rfl
@[simp] theorem State.hold_mem (cid sid pa : Nat) (write : Bool) : (s.hold cid sid pa write).mem = s.mem := rfl
@[simp] theorem State.hold_mpoison (cid sid pa : Nat) (write : Bool) : (s.hold cid sid pa write).mpoison = s.mpoison := rfl
@[simp] theorem State.hold_wseq (cid sid pa : Nat) (write : Bool) : (s.hold cid sid pa write).wseq = s.wseq := rfl
@[simp] theorem State.hold_owner (cid sid pa : Nat) (write : Bool) : (s.hold cid sid pa write).owner = s.owner := rfl
@[simp] theorem State.hold_l1 (cid sid pa : Nat) (write : Bool) : (s.hold cid sid pa write).l1 = s.l1 := rfl
@[simp] theorem State.hold_fused (cid sid pa : Nat) (write : Bool) : (s.hold cid sid pa write).fused = s.fused := rfl
@[simp] theorem State.hold_regs (cid sid pa : Nat) (write : Bool) : (s.hold cid sid pa write).regs = s.regs := rfl
@[simp] theorem State.hold_adds (cid sid pa : Nat) (write : Bool) : (s.hold cid sid pa write).adds = s.adds := rfl
@[simp] theorem State.hold_acks (cid sid pa : Nat) (write : Bool) : (s.hold cid sid pa write).acks = s.acks := rfl
@[simp] theorem State.hold_l2 (cid sid pa : Nat) (write : Bool) : (s.hold cid sid pa write).l2 = s.l2 := rfl
@[simp] theorem State.hold_mirrors (cid sid pa : Nat) (write : Bool) : (s.hold cid sid pa write).mirrors = s.mirrors := rfl
@[simp] theorem State.hold_misses (cid sid pa : Nat) (write : Bool) : (s.hold cid sid pa write).misses = s.misses := rfl
@[simp] theorem State.hold_spillq (cid sid pa : Nat) (write : Bool) : (s.hold cid sid pa write).spillq = s.spillq := rfl
@[simp] theorem State.hold_wfill (cid sid pa : Nat) (write : Bool) : (s.hold cid sid pa write).wfill = s.wfill := rfl
@[simp] theorem State.hold_icache (cid sid pa : Nat) (write : Bool) : (s.hold cid sid pa write).icache = s.icache := rfl
@[simp] theorem State.hold_levels (cid sid pa : Nat) (write : Bool) : (s.hold cid sid pa write).levels = s.levels := rfl
@[simp] theorem State.hold_ticks (cid sid pa : Nat) (write : Bool) : (s.hold cid sid pa write).ticks = s.ticks := rfl
@[simp] theorem State.hold_tlb (cid sid pa : Nat) (write : Bool) : (s.hold cid sid pa write).tlb = s.tlb := rfl
@[simp] theorem State.hold_fab (cid sid pa : Nat) (write : Bool) : (s.hold cid sid pa write).fab = s.fab := rfl
@[simp] theorem State.hold_svc (cid sid pa : Nat) (write : Bool) : (s.hold cid sid pa write).svc = s.svc := rfl

/-! ## stall -/

@[simp] theorem State.stall_cycle (cid sid : Nat) : (s.stall cid sid).cycle = s.cycle := rfl
@[simp] theorem State.stall_ftime (cid sid : Nat) : (s.stall cid sid).ftime = s.ftime := rfl
@[simp] theorem State.stall_ftfrac (cid sid : Nat) : (s.stall cid sid).ftfrac = s.ftfrac := rfl
@[simp] theorem State.stall_cur (cid sid : Nat) : (s.stall cid sid).cur = s.cur := rfl
@[simp] theorem State.stall_picks (cid sid : Nat) : (s.stall cid sid).picks = s.picks := rfl
@[simp] theorem State.stall_woke (cid sid : Nat) : (s.stall cid sid).woke = s.woke := rfl
@[simp] theorem State.stall_entered (cid sid : Nat) : (s.stall cid sid).entered = s.entered := rfl
@[simp] theorem State.stall_passed (cid sid : Nat) : (s.stall cid sid).passed = s.passed := rfl
@[simp] theorem State.stall_arrived (cid sid : Nat) : (s.stall cid sid).arrived = s.arrived := rfl
@[simp] theorem State.stall_sfu (cid sid : Nat) : (s.stall cid sid).sfu = s.sfu := rfl
@[simp] theorem State.stall_tape (cid sid : Nat) : (s.stall cid sid).tape = s.tape := rfl
@[simp] theorem State.stall_nextId (cid sid : Nat) : (s.stall cid sid).nextId = s.nextId := rfl
@[simp] theorem State.stall_free (cid sid : Nat) : (s.stall cid sid).free = s.free := rfl
@[simp] theorem State.stall_age (cid sid : Nat) : (s.stall cid sid).age = s.age := rfl
@[simp] theorem State.stall_teams (cid sid : Nat) : (s.stall cid sid).teams = s.teams := rfl
@[simp] theorem State.stall_launches (cid sid : Nat) : (s.stall cid sid).launches = s.launches := rfl
@[simp] theorem State.stall_seats (cid sid : Nat) : (s.stall cid sid).seats = s.seats := rfl
@[simp] theorem State.stall_remote (cid sid : Nat) : (s.stall cid sid).remote = s.remote := rfl
@[simp] theorem State.stall_contexts (cid sid : Nat) : (s.stall cid sid).contexts = s.contexts := rfl
@[simp] theorem State.stall_parts (cid sid : Nat) : (s.stall cid sid).parts = s.parts := rfl
@[simp] theorem State.stall_bays (cid sid : Nat) : (s.stall cid sid).bays = s.bays := rfl
@[simp] theorem State.stall_bars (cid sid : Nat) : (s.stall cid sid).bars = s.bars := rfl
@[simp] theorem State.stall_barGen (cid sid : Nat) : (s.stall cid sid).barGen = s.barGen := rfl
@[simp] theorem State.stall_faultq (cid sid : Nat) : (s.stall cid sid).faultq = s.faultq := rfl
@[simp] theorem State.stall_mats (cid sid : Nat) : (s.stall cid sid).mats = s.mats := rfl
@[simp] theorem State.stall_tiles (cid sid : Nat) : (s.stall cid sid).tiles = s.tiles := rfl
@[simp] theorem State.stall_copies (cid sid : Nat) : (s.stall cid sid).copies = s.copies := rfl
@[simp] theorem State.stall_held (cid sid : Nat) : (s.stall cid sid).held = s.held := rfl
@[simp] theorem State.stall_shells (cid sid : Nat) : (s.stall cid sid).shells = s.shells := rfl
@[simp] theorem State.stall_shpoison (cid sid : Nat) : (s.stall cid sid).shpoison = s.shpoison := rfl
@[simp] theorem State.stall_cooling (cid sid : Nat) : (s.stall cid sid).cooling = s.cooling := rfl
@[simp] theorem State.stall_shreqs (cid sid : Nat) : (s.stall cid sid).shreqs = s.shreqs := rfl
@[simp] theorem State.stall_landings (cid sid : Nat) : (s.stall cid sid).landings = s.landings := rfl
@[simp] theorem State.stall_mem (cid sid : Nat) : (s.stall cid sid).mem = s.mem := rfl
@[simp] theorem State.stall_mpoison (cid sid : Nat) : (s.stall cid sid).mpoison = s.mpoison := rfl
@[simp] theorem State.stall_wseq (cid sid : Nat) : (s.stall cid sid).wseq = s.wseq := rfl
@[simp] theorem State.stall_owner (cid sid : Nat) : (s.stall cid sid).owner = s.owner := rfl
@[simp] theorem State.stall_l1 (cid sid : Nat) : (s.stall cid sid).l1 = s.l1 := rfl
@[simp] theorem State.stall_fused (cid sid : Nat) : (s.stall cid sid).fused = s.fused := rfl
@[simp] theorem State.stall_regs (cid sid : Nat) : (s.stall cid sid).regs = s.regs := rfl
@[simp] theorem State.stall_adds (cid sid : Nat) : (s.stall cid sid).adds = s.adds := rfl
@[simp] theorem State.stall_acks (cid sid : Nat) : (s.stall cid sid).acks = s.acks := rfl
@[simp] theorem State.stall_l2 (cid sid : Nat) : (s.stall cid sid).l2 = s.l2 := rfl
@[simp] theorem State.stall_mirrors (cid sid : Nat) : (s.stall cid sid).mirrors = s.mirrors := rfl
@[simp] theorem State.stall_misses (cid sid : Nat) : (s.stall cid sid).misses = s.misses := rfl
@[simp] theorem State.stall_spillq (cid sid : Nat) : (s.stall cid sid).spillq = s.spillq := rfl
@[simp] theorem State.stall_wfill (cid sid : Nat) : (s.stall cid sid).wfill = s.wfill := rfl
@[simp] theorem State.stall_icache (cid sid : Nat) : (s.stall cid sid).icache = s.icache := rfl
@[simp] theorem State.stall_levels (cid sid : Nat) : (s.stall cid sid).levels = s.levels := rfl
@[simp] theorem State.stall_ticks (cid sid : Nat) : (s.stall cid sid).ticks = s.ticks := rfl
@[simp] theorem State.stall_tlb (cid sid : Nat) : (s.stall cid sid).tlb = s.tlb := rfl
@[simp] theorem State.stall_fab (cid sid : Nat) : (s.stall cid sid).fab = s.fab := rfl
@[simp] theorem State.stall_svc (cid sid : Nat) : (s.stall cid sid).svc = s.svc := rfl

/-! ## retry -/

@[simp] theorem State.retry_cycle : (s.retry).cycle = s.cycle := rfl
@[simp] theorem State.retry_ftime : (s.retry).ftime = s.ftime := rfl
@[simp] theorem State.retry_ftfrac : (s.retry).ftfrac = s.ftfrac := rfl
@[simp] theorem State.retry_cur : (s.retry).cur = s.cur := rfl
@[simp] theorem State.retry_picks : (s.retry).picks = s.picks := rfl
@[simp] theorem State.retry_woke : (s.retry).woke = s.woke := rfl
@[simp] theorem State.retry_entered : (s.retry).entered = s.entered := rfl
@[simp] theorem State.retry_passed : (s.retry).passed = s.passed := rfl
@[simp] theorem State.retry_arrived : (s.retry).arrived = s.arrived := rfl
@[simp] theorem State.retry_sfu : (s.retry).sfu = s.sfu := rfl
@[simp] theorem State.retry_tape : (s.retry).tape = s.tape := rfl
@[simp] theorem State.retry_nextId : (s.retry).nextId = s.nextId := rfl
@[simp] theorem State.retry_free : (s.retry).free = s.free := rfl
@[simp] theorem State.retry_age : (s.retry).age = s.age := rfl
@[simp] theorem State.retry_teams : (s.retry).teams = s.teams := rfl
@[simp] theorem State.retry_launches : (s.retry).launches = s.launches := rfl
@[simp] theorem State.retry_seats : (s.retry).seats = s.seats := rfl
@[simp] theorem State.retry_remote : (s.retry).remote = s.remote := rfl
@[simp] theorem State.retry_contexts : (s.retry).contexts = s.contexts := rfl
@[simp] theorem State.retry_parts : (s.retry).parts = s.parts := rfl
@[simp] theorem State.retry_bays : (s.retry).bays = s.bays := rfl
@[simp] theorem State.retry_bars : (s.retry).bars = s.bars := rfl
@[simp] theorem State.retry_barGen : (s.retry).barGen = s.barGen := rfl
@[simp] theorem State.retry_faultq : (s.retry).faultq = s.faultq := rfl
@[simp] theorem State.retry_mats : (s.retry).mats = s.mats := rfl
@[simp] theorem State.retry_tiles : (s.retry).tiles = s.tiles := rfl
@[simp] theorem State.retry_copies : (s.retry).copies = s.copies := rfl
@[simp] theorem State.retry_held : (s.retry).held = s.held := rfl
@[simp] theorem State.retry_shells : (s.retry).shells = s.shells := rfl
@[simp] theorem State.retry_shpoison : (s.retry).shpoison = s.shpoison := rfl
@[simp] theorem State.retry_cooling : (s.retry).cooling = s.cooling := rfl
@[simp] theorem State.retry_shreqs : (s.retry).shreqs = s.shreqs := rfl
@[simp] theorem State.retry_landings : (s.retry).landings = s.landings := rfl
@[simp] theorem State.retry_mem : (s.retry).mem = s.mem := rfl
@[simp] theorem State.retry_mpoison : (s.retry).mpoison = s.mpoison := rfl
@[simp] theorem State.retry_wseq : (s.retry).wseq = s.wseq := rfl
@[simp] theorem State.retry_owner : (s.retry).owner = s.owner := rfl
@[simp] theorem State.retry_l1 : (s.retry).l1 = s.l1 := rfl
@[simp] theorem State.retry_fused : (s.retry).fused = s.fused := rfl
@[simp] theorem State.retry_regs : (s.retry).regs = s.regs := rfl
@[simp] theorem State.retry_adds : (s.retry).adds = s.adds := rfl
@[simp] theorem State.retry_acks : (s.retry).acks = s.acks := rfl
@[simp] theorem State.retry_l2 : (s.retry).l2 = s.l2 := rfl
@[simp] theorem State.retry_mirrors : (s.retry).mirrors = s.mirrors := rfl
@[simp] theorem State.retry_misses : (s.retry).misses = s.misses := rfl
@[simp] theorem State.retry_spillq : (s.retry).spillq = s.spillq := rfl
@[simp] theorem State.retry_wfill : (s.retry).wfill = s.wfill := rfl
@[simp] theorem State.retry_icache : (s.retry).icache = s.icache := rfl
@[simp] theorem State.retry_levels : (s.retry).levels = s.levels := rfl
@[simp] theorem State.retry_ticks : (s.retry).ticks = s.ticks := rfl
@[simp] theorem State.retry_tlb : (s.retry).tlb = s.tlb := rfl
@[simp] theorem State.retry_fab : (s.retry).fab = s.fab := rfl
@[simp] theorem State.retry_svc : (s.retry).svc = s.svc := rfl

/-! ## countIssue -/

@[simp] theorem State.countIssue_cycle (cid sid : Nat) : (s.countIssue cid sid).cycle = s.cycle := rfl
@[simp] theorem State.countIssue_ftime (cid sid : Nat) : (s.countIssue cid sid).ftime = s.ftime := rfl
@[simp] theorem State.countIssue_ftfrac (cid sid : Nat) : (s.countIssue cid sid).ftfrac = s.ftfrac := rfl
@[simp] theorem State.countIssue_cur (cid sid : Nat) : (s.countIssue cid sid).cur = s.cur := rfl
@[simp] theorem State.countIssue_picks (cid sid : Nat) : (s.countIssue cid sid).picks = s.picks := rfl
@[simp] theorem State.countIssue_woke (cid sid : Nat) : (s.countIssue cid sid).woke = s.woke := rfl
@[simp] theorem State.countIssue_entered (cid sid : Nat) : (s.countIssue cid sid).entered = s.entered := rfl
@[simp] theorem State.countIssue_passed (cid sid : Nat) : (s.countIssue cid sid).passed = s.passed := rfl
@[simp] theorem State.countIssue_arrived (cid sid : Nat) : (s.countIssue cid sid).arrived = s.arrived := rfl
@[simp] theorem State.countIssue_sfu (cid sid : Nat) : (s.countIssue cid sid).sfu = s.sfu := rfl
@[simp] theorem State.countIssue_tape (cid sid : Nat) : (s.countIssue cid sid).tape = s.tape := rfl
@[simp] theorem State.countIssue_nextId (cid sid : Nat) : (s.countIssue cid sid).nextId = s.nextId := rfl
@[simp] theorem State.countIssue_free (cid sid : Nat) : (s.countIssue cid sid).free = s.free := rfl
@[simp] theorem State.countIssue_age (cid sid : Nat) : (s.countIssue cid sid).age = s.age := rfl
@[simp] theorem State.countIssue_teams (cid sid : Nat) : (s.countIssue cid sid).teams = s.teams := rfl
@[simp] theorem State.countIssue_launches (cid sid : Nat) : (s.countIssue cid sid).launches = s.launches := rfl
@[simp] theorem State.countIssue_seats (cid sid : Nat) : (s.countIssue cid sid).seats = s.seats := rfl
@[simp] theorem State.countIssue_remote (cid sid : Nat) : (s.countIssue cid sid).remote = s.remote := rfl
@[simp] theorem State.countIssue_contexts (cid sid : Nat) : (s.countIssue cid sid).contexts = s.contexts := rfl
@[simp] theorem State.countIssue_parts (cid sid : Nat) : (s.countIssue cid sid).parts = s.parts := rfl
@[simp] theorem State.countIssue_bays (cid sid : Nat) : (s.countIssue cid sid).bays = s.bays := rfl
@[simp] theorem State.countIssue_bars (cid sid : Nat) : (s.countIssue cid sid).bars = s.bars := rfl
@[simp] theorem State.countIssue_barGen (cid sid : Nat) : (s.countIssue cid sid).barGen = s.barGen := rfl
@[simp] theorem State.countIssue_faultq (cid sid : Nat) : (s.countIssue cid sid).faultq = s.faultq := rfl
@[simp] theorem State.countIssue_mats (cid sid : Nat) : (s.countIssue cid sid).mats = s.mats := rfl
@[simp] theorem State.countIssue_tiles (cid sid : Nat) : (s.countIssue cid sid).tiles = s.tiles := rfl
@[simp] theorem State.countIssue_copies (cid sid : Nat) : (s.countIssue cid sid).copies = s.copies := rfl
@[simp] theorem State.countIssue_held (cid sid : Nat) : (s.countIssue cid sid).held = s.held := rfl
@[simp] theorem State.countIssue_shells (cid sid : Nat) : (s.countIssue cid sid).shells = s.shells := rfl
@[simp] theorem State.countIssue_shpoison (cid sid : Nat) : (s.countIssue cid sid).shpoison = s.shpoison := rfl
@[simp] theorem State.countIssue_cooling (cid sid : Nat) : (s.countIssue cid sid).cooling = s.cooling := rfl
@[simp] theorem State.countIssue_shreqs (cid sid : Nat) : (s.countIssue cid sid).shreqs = s.shreqs := rfl
@[simp] theorem State.countIssue_landings (cid sid : Nat) : (s.countIssue cid sid).landings = s.landings := rfl
@[simp] theorem State.countIssue_mem (cid sid : Nat) : (s.countIssue cid sid).mem = s.mem := rfl
@[simp] theorem State.countIssue_mpoison (cid sid : Nat) : (s.countIssue cid sid).mpoison = s.mpoison := rfl
@[simp] theorem State.countIssue_wseq (cid sid : Nat) : (s.countIssue cid sid).wseq = s.wseq := rfl
@[simp] theorem State.countIssue_owner (cid sid : Nat) : (s.countIssue cid sid).owner = s.owner := rfl
@[simp] theorem State.countIssue_l1 (cid sid : Nat) : (s.countIssue cid sid).l1 = s.l1 := rfl
@[simp] theorem State.countIssue_fused (cid sid : Nat) : (s.countIssue cid sid).fused = s.fused := rfl
@[simp] theorem State.countIssue_regs (cid sid : Nat) : (s.countIssue cid sid).regs = s.regs := rfl
@[simp] theorem State.countIssue_adds (cid sid : Nat) : (s.countIssue cid sid).adds = s.adds := rfl
@[simp] theorem State.countIssue_acks (cid sid : Nat) : (s.countIssue cid sid).acks = s.acks := rfl
@[simp] theorem State.countIssue_l2 (cid sid : Nat) : (s.countIssue cid sid).l2 = s.l2 := rfl
@[simp] theorem State.countIssue_mirrors (cid sid : Nat) : (s.countIssue cid sid).mirrors = s.mirrors := rfl
@[simp] theorem State.countIssue_misses (cid sid : Nat) : (s.countIssue cid sid).misses = s.misses := rfl
@[simp] theorem State.countIssue_spillq (cid sid : Nat) : (s.countIssue cid sid).spillq = s.spillq := rfl
@[simp] theorem State.countIssue_wfill (cid sid : Nat) : (s.countIssue cid sid).wfill = s.wfill := rfl
@[simp] theorem State.countIssue_icache (cid sid : Nat) : (s.countIssue cid sid).icache = s.icache := rfl
@[simp] theorem State.countIssue_levels (cid sid : Nat) : (s.countIssue cid sid).levels = s.levels := rfl
@[simp] theorem State.countIssue_ticks (cid sid : Nat) : (s.countIssue cid sid).ticks = s.ticks := rfl
@[simp] theorem State.countIssue_tlb (cid sid : Nat) : (s.countIssue cid sid).tlb = s.tlb := rfl
@[simp] theorem State.countIssue_fab (cid sid : Nat) : (s.countIssue cid sid).fab = s.fab := rfl
@[simp] theorem State.countIssue_svc (cid sid : Nat) : (s.countIssue cid sid).svc = s.svc := rfl

/-! ## advance -/

@[simp] theorem State.advance_cycle (c : Crew) (p : Split) : (s.advance c p).cycle = s.cycle := rfl
@[simp] theorem State.advance_ftime (c : Crew) (p : Split) : (s.advance c p).ftime = s.ftime := rfl
@[simp] theorem State.advance_ftfrac (c : Crew) (p : Split) : (s.advance c p).ftfrac = s.ftfrac := rfl
@[simp] theorem State.advance_cur (c : Crew) (p : Split) : (s.advance c p).cur = s.cur := rfl
@[simp] theorem State.advance_picks (c : Crew) (p : Split) : (s.advance c p).picks = s.picks := rfl
@[simp] theorem State.advance_woke (c : Crew) (p : Split) : (s.advance c p).woke = s.woke := rfl
@[simp] theorem State.advance_entered (c : Crew) (p : Split) : (s.advance c p).entered = s.entered := rfl
@[simp] theorem State.advance_passed (c : Crew) (p : Split) : (s.advance c p).passed = s.passed := rfl
@[simp] theorem State.advance_arrived (c : Crew) (p : Split) : (s.advance c p).arrived = s.arrived := rfl
@[simp] theorem State.advance_sfu (c : Crew) (p : Split) : (s.advance c p).sfu = s.sfu := rfl
@[simp] theorem State.advance_tape (c : Crew) (p : Split) : (s.advance c p).tape = s.tape := rfl
@[simp] theorem State.advance_nextId (c : Crew) (p : Split) : (s.advance c p).nextId = s.nextId := rfl
@[simp] theorem State.advance_free (c : Crew) (p : Split) : (s.advance c p).free = s.free := rfl
@[simp] theorem State.advance_age (c : Crew) (p : Split) : (s.advance c p).age = s.age := rfl
@[simp] theorem State.advance_teams (c : Crew) (p : Split) : (s.advance c p).teams = s.teams := rfl
@[simp] theorem State.advance_launches (c : Crew) (p : Split) : (s.advance c p).launches = s.launches := rfl
@[simp] theorem State.advance_seats (c : Crew) (p : Split) : (s.advance c p).seats = s.seats := rfl
@[simp] theorem State.advance_remote (c : Crew) (p : Split) : (s.advance c p).remote = s.remote := rfl
@[simp] theorem State.advance_contexts (c : Crew) (p : Split) : (s.advance c p).contexts = s.contexts := rfl
@[simp] theorem State.advance_parts (c : Crew) (p : Split) : (s.advance c p).parts = s.parts := rfl
@[simp] theorem State.advance_bays (c : Crew) (p : Split) : (s.advance c p).bays = s.bays := rfl
@[simp] theorem State.advance_bars (c : Crew) (p : Split) : (s.advance c p).bars = s.bars := rfl
@[simp] theorem State.advance_barGen (c : Crew) (p : Split) : (s.advance c p).barGen = s.barGen := rfl
@[simp] theorem State.advance_faultq (c : Crew) (p : Split) : (s.advance c p).faultq = s.faultq := rfl
@[simp] theorem State.advance_mats (c : Crew) (p : Split) : (s.advance c p).mats = s.mats := rfl
@[simp] theorem State.advance_tiles (c : Crew) (p : Split) : (s.advance c p).tiles = s.tiles := rfl
@[simp] theorem State.advance_copies (c : Crew) (p : Split) : (s.advance c p).copies = s.copies := rfl
@[simp] theorem State.advance_held (c : Crew) (p : Split) : (s.advance c p).held = s.held := rfl
@[simp] theorem State.advance_shells (c : Crew) (p : Split) : (s.advance c p).shells = s.shells := rfl
@[simp] theorem State.advance_shpoison (c : Crew) (p : Split) : (s.advance c p).shpoison = s.shpoison := rfl
@[simp] theorem State.advance_cooling (c : Crew) (p : Split) : (s.advance c p).cooling = s.cooling := rfl
@[simp] theorem State.advance_shreqs (c : Crew) (p : Split) : (s.advance c p).shreqs = s.shreqs := rfl
@[simp] theorem State.advance_landings (c : Crew) (p : Split) : (s.advance c p).landings = s.landings := rfl
@[simp] theorem State.advance_mem (c : Crew) (p : Split) : (s.advance c p).mem = s.mem := rfl
@[simp] theorem State.advance_mpoison (c : Crew) (p : Split) : (s.advance c p).mpoison = s.mpoison := rfl
@[simp] theorem State.advance_wseq (c : Crew) (p : Split) : (s.advance c p).wseq = s.wseq := rfl
@[simp] theorem State.advance_owner (c : Crew) (p : Split) : (s.advance c p).owner = s.owner := rfl
@[simp] theorem State.advance_l1 (c : Crew) (p : Split) : (s.advance c p).l1 = s.l1 := rfl
@[simp] theorem State.advance_fused (c : Crew) (p : Split) : (s.advance c p).fused = s.fused := rfl
@[simp] theorem State.advance_regs (c : Crew) (p : Split) : (s.advance c p).regs = s.regs := rfl
@[simp] theorem State.advance_adds (c : Crew) (p : Split) : (s.advance c p).adds = s.adds := rfl
@[simp] theorem State.advance_acks (c : Crew) (p : Split) : (s.advance c p).acks = s.acks := rfl
@[simp] theorem State.advance_l2 (c : Crew) (p : Split) : (s.advance c p).l2 = s.l2 := rfl
@[simp] theorem State.advance_mirrors (c : Crew) (p : Split) : (s.advance c p).mirrors = s.mirrors := rfl
@[simp] theorem State.advance_misses (c : Crew) (p : Split) : (s.advance c p).misses = s.misses := rfl
@[simp] theorem State.advance_spillq (c : Crew) (p : Split) : (s.advance c p).spillq = s.spillq := rfl
@[simp] theorem State.advance_wfill (c : Crew) (p : Split) : (s.advance c p).wfill = s.wfill := rfl
@[simp] theorem State.advance_icache (c : Crew) (p : Split) : (s.advance c p).icache = s.icache := rfl
@[simp] theorem State.advance_levels (c : Crew) (p : Split) : (s.advance c p).levels = s.levels := rfl
@[simp] theorem State.advance_ticks (c : Crew) (p : Split) : (s.advance c p).ticks = s.ticks := rfl
@[simp] theorem State.advance_tlb (c : Crew) (p : Split) : (s.advance c p).tlb = s.tlb := rfl
@[simp] theorem State.advance_fab (c : Crew) (p : Split) : (s.advance c p).fab = s.fab := rfl
@[simp] theorem State.advance_svc (c : Crew) (p : Split) : (s.advance c p).svc = s.svc := rfl

/-! ## writeByte -/

@[simp] theorem State.writeByte_cycle (pa : Nat) (b : Byte) : (s.writeByte pa b).cycle = s.cycle := rfl
@[simp] theorem State.writeByte_ftime (pa : Nat) (b : Byte) : (s.writeByte pa b).ftime = s.ftime := rfl
@[simp] theorem State.writeByte_ftfrac (pa : Nat) (b : Byte) : (s.writeByte pa b).ftfrac = s.ftfrac := rfl
@[simp] theorem State.writeByte_cur (pa : Nat) (b : Byte) : (s.writeByte pa b).cur = s.cur := rfl
@[simp] theorem State.writeByte_picks (pa : Nat) (b : Byte) : (s.writeByte pa b).picks = s.picks := rfl
@[simp] theorem State.writeByte_woke (pa : Nat) (b : Byte) : (s.writeByte pa b).woke = s.woke := rfl
@[simp] theorem State.writeByte_entered (pa : Nat) (b : Byte) : (s.writeByte pa b).entered = s.entered := rfl
@[simp] theorem State.writeByte_passed (pa : Nat) (b : Byte) : (s.writeByte pa b).passed = s.passed := rfl
@[simp] theorem State.writeByte_arrived (pa : Nat) (b : Byte) : (s.writeByte pa b).arrived = s.arrived := rfl
@[simp] theorem State.writeByte_sfu (pa : Nat) (b : Byte) : (s.writeByte pa b).sfu = s.sfu := rfl
@[simp] theorem State.writeByte_tape (pa : Nat) (b : Byte) : (s.writeByte pa b).tape = s.tape := rfl
@[simp] theorem State.writeByte_nextId (pa : Nat) (b : Byte) : (s.writeByte pa b).nextId = s.nextId := rfl
@[simp] theorem State.writeByte_free (pa : Nat) (b : Byte) : (s.writeByte pa b).free = s.free := rfl
@[simp] theorem State.writeByte_age (pa : Nat) (b : Byte) : (s.writeByte pa b).age = s.age := rfl
@[simp] theorem State.writeByte_crews (pa : Nat) (b : Byte) : (s.writeByte pa b).crews = s.crews := rfl
@[simp] theorem State.writeByte_teams (pa : Nat) (b : Byte) : (s.writeByte pa b).teams = s.teams := rfl
@[simp] theorem State.writeByte_launches (pa : Nat) (b : Byte) : (s.writeByte pa b).launches = s.launches := rfl
@[simp] theorem State.writeByte_seats (pa : Nat) (b : Byte) : (s.writeByte pa b).seats = s.seats := rfl
@[simp] theorem State.writeByte_remote (pa : Nat) (b : Byte) : (s.writeByte pa b).remote = s.remote := rfl
@[simp] theorem State.writeByte_contexts (pa : Nat) (b : Byte) : (s.writeByte pa b).contexts = s.contexts := rfl
@[simp] theorem State.writeByte_parts (pa : Nat) (b : Byte) : (s.writeByte pa b).parts = s.parts := rfl
@[simp] theorem State.writeByte_bays (pa : Nat) (b : Byte) : (s.writeByte pa b).bays = s.bays := rfl
@[simp] theorem State.writeByte_bars (pa : Nat) (b : Byte) : (s.writeByte pa b).bars = s.bars := rfl
@[simp] theorem State.writeByte_barGen (pa : Nat) (b : Byte) : (s.writeByte pa b).barGen = s.barGen := rfl
@[simp] theorem State.writeByte_faultq (pa : Nat) (b : Byte) : (s.writeByte pa b).faultq = s.faultq := rfl
@[simp] theorem State.writeByte_mats (pa : Nat) (b : Byte) : (s.writeByte pa b).mats = s.mats := rfl
@[simp] theorem State.writeByte_tiles (pa : Nat) (b : Byte) : (s.writeByte pa b).tiles = s.tiles := rfl
@[simp] theorem State.writeByte_copies (pa : Nat) (b : Byte) : (s.writeByte pa b).copies = s.copies := rfl
@[simp] theorem State.writeByte_held (pa : Nat) (b : Byte) : (s.writeByte pa b).held = s.held := rfl
@[simp] theorem State.writeByte_shells (pa : Nat) (b : Byte) : (s.writeByte pa b).shells = s.shells := rfl
@[simp] theorem State.writeByte_shpoison (pa : Nat) (b : Byte) : (s.writeByte pa b).shpoison = s.shpoison := rfl
@[simp] theorem State.writeByte_cooling (pa : Nat) (b : Byte) : (s.writeByte pa b).cooling = s.cooling := rfl
@[simp] theorem State.writeByte_shreqs (pa : Nat) (b : Byte) : (s.writeByte pa b).shreqs = s.shreqs := rfl
@[simp] theorem State.writeByte_landings (pa : Nat) (b : Byte) : (s.writeByte pa b).landings = s.landings := rfl
@[simp] theorem State.writeByte_mem (pa : Nat) (b : Byte) : (s.writeByte pa b).mem = sset 0 s.mem pa b := rfl
@[simp] theorem State.writeByte_mpoison (pa : Nat) (b : Byte) : (s.writeByte pa b).mpoison = s.mpoison := rfl
@[simp] theorem State.writeByte_wseq (pa : Nat) (b : Byte) : (s.writeByte pa b).wseq = s.wseq := rfl
@[simp] theorem State.writeByte_owner (pa : Nat) (b : Byte) : (s.writeByte pa b).owner = s.owner := rfl
@[simp] theorem State.writeByte_l1 (pa : Nat) (b : Byte) : (s.writeByte pa b).l1 = s.l1 := rfl
@[simp] theorem State.writeByte_fused (pa : Nat) (b : Byte) : (s.writeByte pa b).fused = s.fused := rfl
@[simp] theorem State.writeByte_regs (pa : Nat) (b : Byte) : (s.writeByte pa b).regs = s.regs := rfl
@[simp] theorem State.writeByte_adds (pa : Nat) (b : Byte) : (s.writeByte pa b).adds = s.adds := rfl
@[simp] theorem State.writeByte_acks (pa : Nat) (b : Byte) : (s.writeByte pa b).acks = s.acks := rfl
@[simp] theorem State.writeByte_l2 (pa : Nat) (b : Byte) : (s.writeByte pa b).l2 = s.l2 := rfl
@[simp] theorem State.writeByte_mirrors (pa : Nat) (b : Byte) : (s.writeByte pa b).mirrors = s.mirrors := rfl
@[simp] theorem State.writeByte_misses (pa : Nat) (b : Byte) : (s.writeByte pa b).misses = s.misses := rfl
@[simp] theorem State.writeByte_spillq (pa : Nat) (b : Byte) : (s.writeByte pa b).spillq = s.spillq := rfl
@[simp] theorem State.writeByte_wfill (pa : Nat) (b : Byte) : (s.writeByte pa b).wfill = s.wfill := rfl
@[simp] theorem State.writeByte_icache (pa : Nat) (b : Byte) : (s.writeByte pa b).icache = s.icache := rfl
@[simp] theorem State.writeByte_levels (pa : Nat) (b : Byte) : (s.writeByte pa b).levels = s.levels := rfl
@[simp] theorem State.writeByte_ticks (pa : Nat) (b : Byte) : (s.writeByte pa b).ticks = s.ticks := rfl
@[simp] theorem State.writeByte_tlb (pa : Nat) (b : Byte) : (s.writeByte pa b).tlb = s.tlb := rfl
@[simp] theorem State.writeByte_fab (pa : Nat) (b : Byte) : (s.writeByte pa b).fab = s.fab := rfl
@[simp] theorem State.writeByte_svc (pa : Nat) (b : Byte) : (s.writeByte pa b).svc = s.svc := rfl

/-! ## writeBytes -/

@[simp] theorem State.writeBytes_cycle (pa : Nat) (bs : List Byte) : (s.writeBytes pa bs).cycle = s.cycle := rfl
@[simp] theorem State.writeBytes_ftime (pa : Nat) (bs : List Byte) : (s.writeBytes pa bs).ftime = s.ftime := rfl
@[simp] theorem State.writeBytes_ftfrac (pa : Nat) (bs : List Byte) : (s.writeBytes pa bs).ftfrac = s.ftfrac := rfl
@[simp] theorem State.writeBytes_cur (pa : Nat) (bs : List Byte) : (s.writeBytes pa bs).cur = s.cur := rfl
@[simp] theorem State.writeBytes_picks (pa : Nat) (bs : List Byte) : (s.writeBytes pa bs).picks = s.picks := rfl
@[simp] theorem State.writeBytes_woke (pa : Nat) (bs : List Byte) : (s.writeBytes pa bs).woke = s.woke := rfl
@[simp] theorem State.writeBytes_entered (pa : Nat) (bs : List Byte) : (s.writeBytes pa bs).entered = s.entered := rfl
@[simp] theorem State.writeBytes_passed (pa : Nat) (bs : List Byte) : (s.writeBytes pa bs).passed = s.passed := rfl
@[simp] theorem State.writeBytes_arrived (pa : Nat) (bs : List Byte) : (s.writeBytes pa bs).arrived = s.arrived := rfl
@[simp] theorem State.writeBytes_sfu (pa : Nat) (bs : List Byte) : (s.writeBytes pa bs).sfu = s.sfu := rfl
@[simp] theorem State.writeBytes_tape (pa : Nat) (bs : List Byte) : (s.writeBytes pa bs).tape = s.tape := rfl
@[simp] theorem State.writeBytes_nextId (pa : Nat) (bs : List Byte) : (s.writeBytes pa bs).nextId = s.nextId := rfl
@[simp] theorem State.writeBytes_free (pa : Nat) (bs : List Byte) : (s.writeBytes pa bs).free = s.free := rfl
@[simp] theorem State.writeBytes_age (pa : Nat) (bs : List Byte) : (s.writeBytes pa bs).age = s.age := rfl
@[simp] theorem State.writeBytes_crews (pa : Nat) (bs : List Byte) : (s.writeBytes pa bs).crews = s.crews := rfl
@[simp] theorem State.writeBytes_teams (pa : Nat) (bs : List Byte) : (s.writeBytes pa bs).teams = s.teams := rfl
@[simp] theorem State.writeBytes_launches (pa : Nat) (bs : List Byte) : (s.writeBytes pa bs).launches = s.launches := rfl
@[simp] theorem State.writeBytes_seats (pa : Nat) (bs : List Byte) : (s.writeBytes pa bs).seats = s.seats := rfl
@[simp] theorem State.writeBytes_remote (pa : Nat) (bs : List Byte) : (s.writeBytes pa bs).remote = s.remote := rfl
@[simp] theorem State.writeBytes_contexts (pa : Nat) (bs : List Byte) : (s.writeBytes pa bs).contexts = s.contexts := rfl
@[simp] theorem State.writeBytes_parts (pa : Nat) (bs : List Byte) : (s.writeBytes pa bs).parts = s.parts := rfl
@[simp] theorem State.writeBytes_bays (pa : Nat) (bs : List Byte) : (s.writeBytes pa bs).bays = s.bays := rfl
@[simp] theorem State.writeBytes_bars (pa : Nat) (bs : List Byte) : (s.writeBytes pa bs).bars = s.bars := rfl
@[simp] theorem State.writeBytes_barGen (pa : Nat) (bs : List Byte) : (s.writeBytes pa bs).barGen = s.barGen := rfl
@[simp] theorem State.writeBytes_faultq (pa : Nat) (bs : List Byte) : (s.writeBytes pa bs).faultq = s.faultq := rfl
@[simp] theorem State.writeBytes_mats (pa : Nat) (bs : List Byte) : (s.writeBytes pa bs).mats = s.mats := rfl
@[simp] theorem State.writeBytes_tiles (pa : Nat) (bs : List Byte) : (s.writeBytes pa bs).tiles = s.tiles := rfl
@[simp] theorem State.writeBytes_copies (pa : Nat) (bs : List Byte) : (s.writeBytes pa bs).copies = s.copies := rfl
@[simp] theorem State.writeBytes_held (pa : Nat) (bs : List Byte) : (s.writeBytes pa bs).held = s.held := rfl
@[simp] theorem State.writeBytes_shells (pa : Nat) (bs : List Byte) : (s.writeBytes pa bs).shells = s.shells := rfl
@[simp] theorem State.writeBytes_shpoison (pa : Nat) (bs : List Byte) : (s.writeBytes pa bs).shpoison = s.shpoison := rfl
@[simp] theorem State.writeBytes_cooling (pa : Nat) (bs : List Byte) : (s.writeBytes pa bs).cooling = s.cooling := rfl
@[simp] theorem State.writeBytes_shreqs (pa : Nat) (bs : List Byte) : (s.writeBytes pa bs).shreqs = s.shreqs := rfl
@[simp] theorem State.writeBytes_landings (pa : Nat) (bs : List Byte) : (s.writeBytes pa bs).landings = s.landings := rfl
@[simp] theorem State.writeBytes_mem (pa : Nat) (bs : List Byte) : (s.writeBytes pa bs).mem = ssetList 0 s.mem pa bs := rfl
@[simp] theorem State.writeBytes_mpoison (pa : Nat) (bs : List Byte) : (s.writeBytes pa bs).mpoison = s.mpoison := rfl
@[simp] theorem State.writeBytes_wseq (pa : Nat) (bs : List Byte) : (s.writeBytes pa bs).wseq = s.wseq := rfl
@[simp] theorem State.writeBytes_owner (pa : Nat) (bs : List Byte) : (s.writeBytes pa bs).owner = s.owner := rfl
@[simp] theorem State.writeBytes_l1 (pa : Nat) (bs : List Byte) : (s.writeBytes pa bs).l1 = s.l1 := rfl
@[simp] theorem State.writeBytes_fused (pa : Nat) (bs : List Byte) : (s.writeBytes pa bs).fused = s.fused := rfl
@[simp] theorem State.writeBytes_regs (pa : Nat) (bs : List Byte) : (s.writeBytes pa bs).regs = s.regs := rfl
@[simp] theorem State.writeBytes_adds (pa : Nat) (bs : List Byte) : (s.writeBytes pa bs).adds = s.adds := rfl
@[simp] theorem State.writeBytes_acks (pa : Nat) (bs : List Byte) : (s.writeBytes pa bs).acks = s.acks := rfl
@[simp] theorem State.writeBytes_l2 (pa : Nat) (bs : List Byte) : (s.writeBytes pa bs).l2 = s.l2 := rfl
@[simp] theorem State.writeBytes_mirrors (pa : Nat) (bs : List Byte) : (s.writeBytes pa bs).mirrors = s.mirrors := rfl
@[simp] theorem State.writeBytes_misses (pa : Nat) (bs : List Byte) : (s.writeBytes pa bs).misses = s.misses := rfl
@[simp] theorem State.writeBytes_spillq (pa : Nat) (bs : List Byte) : (s.writeBytes pa bs).spillq = s.spillq := rfl
@[simp] theorem State.writeBytes_wfill (pa : Nat) (bs : List Byte) : (s.writeBytes pa bs).wfill = s.wfill := rfl
@[simp] theorem State.writeBytes_icache (pa : Nat) (bs : List Byte) : (s.writeBytes pa bs).icache = s.icache := rfl
@[simp] theorem State.writeBytes_levels (pa : Nat) (bs : List Byte) : (s.writeBytes pa bs).levels = s.levels := rfl
@[simp] theorem State.writeBytes_ticks (pa : Nat) (bs : List Byte) : (s.writeBytes pa bs).ticks = s.ticks := rfl
@[simp] theorem State.writeBytes_tlb (pa : Nat) (bs : List Byte) : (s.writeBytes pa bs).tlb = s.tlb := rfl
@[simp] theorem State.writeBytes_fab (pa : Nat) (bs : List Byte) : (s.writeBytes pa bs).fab = s.fab := rfl
@[simp] theorem State.writeBytes_svc (pa : Nat) (bs : List Byte) : (s.writeBytes pa bs).svc = s.svc := rfl

/-! ## writePairs -/

@[simp] theorem State.writePairs_cycle (ps : List (Nat × Byte)) : (s.writePairs ps).cycle = s.cycle := rfl
@[simp] theorem State.writePairs_ftime (ps : List (Nat × Byte)) : (s.writePairs ps).ftime = s.ftime := rfl
@[simp] theorem State.writePairs_ftfrac (ps : List (Nat × Byte)) : (s.writePairs ps).ftfrac = s.ftfrac := rfl
@[simp] theorem State.writePairs_cur (ps : List (Nat × Byte)) : (s.writePairs ps).cur = s.cur := rfl
@[simp] theorem State.writePairs_picks (ps : List (Nat × Byte)) : (s.writePairs ps).picks = s.picks := rfl
@[simp] theorem State.writePairs_woke (ps : List (Nat × Byte)) : (s.writePairs ps).woke = s.woke := rfl
@[simp] theorem State.writePairs_entered (ps : List (Nat × Byte)) : (s.writePairs ps).entered = s.entered := rfl
@[simp] theorem State.writePairs_passed (ps : List (Nat × Byte)) : (s.writePairs ps).passed = s.passed := rfl
@[simp] theorem State.writePairs_arrived (ps : List (Nat × Byte)) : (s.writePairs ps).arrived = s.arrived := rfl
@[simp] theorem State.writePairs_sfu (ps : List (Nat × Byte)) : (s.writePairs ps).sfu = s.sfu := rfl
@[simp] theorem State.writePairs_tape (ps : List (Nat × Byte)) : (s.writePairs ps).tape = s.tape := rfl
@[simp] theorem State.writePairs_nextId (ps : List (Nat × Byte)) : (s.writePairs ps).nextId = s.nextId := rfl
@[simp] theorem State.writePairs_free (ps : List (Nat × Byte)) : (s.writePairs ps).free = s.free := rfl
@[simp] theorem State.writePairs_age (ps : List (Nat × Byte)) : (s.writePairs ps).age = s.age := rfl
@[simp] theorem State.writePairs_crews (ps : List (Nat × Byte)) : (s.writePairs ps).crews = s.crews := rfl
@[simp] theorem State.writePairs_teams (ps : List (Nat × Byte)) : (s.writePairs ps).teams = s.teams := rfl
@[simp] theorem State.writePairs_launches (ps : List (Nat × Byte)) : (s.writePairs ps).launches = s.launches := rfl
@[simp] theorem State.writePairs_seats (ps : List (Nat × Byte)) : (s.writePairs ps).seats = s.seats := rfl
@[simp] theorem State.writePairs_remote (ps : List (Nat × Byte)) : (s.writePairs ps).remote = s.remote := rfl
@[simp] theorem State.writePairs_contexts (ps : List (Nat × Byte)) : (s.writePairs ps).contexts = s.contexts := rfl
@[simp] theorem State.writePairs_parts (ps : List (Nat × Byte)) : (s.writePairs ps).parts = s.parts := rfl
@[simp] theorem State.writePairs_bays (ps : List (Nat × Byte)) : (s.writePairs ps).bays = s.bays := rfl
@[simp] theorem State.writePairs_bars (ps : List (Nat × Byte)) : (s.writePairs ps).bars = s.bars := rfl
@[simp] theorem State.writePairs_barGen (ps : List (Nat × Byte)) : (s.writePairs ps).barGen = s.barGen := rfl
@[simp] theorem State.writePairs_faultq (ps : List (Nat × Byte)) : (s.writePairs ps).faultq = s.faultq := rfl
@[simp] theorem State.writePairs_mats (ps : List (Nat × Byte)) : (s.writePairs ps).mats = s.mats := rfl
@[simp] theorem State.writePairs_tiles (ps : List (Nat × Byte)) : (s.writePairs ps).tiles = s.tiles := rfl
@[simp] theorem State.writePairs_copies (ps : List (Nat × Byte)) : (s.writePairs ps).copies = s.copies := rfl
@[simp] theorem State.writePairs_held (ps : List (Nat × Byte)) : (s.writePairs ps).held = s.held := rfl
@[simp] theorem State.writePairs_shells (ps : List (Nat × Byte)) : (s.writePairs ps).shells = s.shells := rfl
@[simp] theorem State.writePairs_shpoison (ps : List (Nat × Byte)) : (s.writePairs ps).shpoison = s.shpoison := rfl
@[simp] theorem State.writePairs_cooling (ps : List (Nat × Byte)) : (s.writePairs ps).cooling = s.cooling := rfl
@[simp] theorem State.writePairs_shreqs (ps : List (Nat × Byte)) : (s.writePairs ps).shreqs = s.shreqs := rfl
@[simp] theorem State.writePairs_landings (ps : List (Nat × Byte)) : (s.writePairs ps).landings = s.landings := rfl
@[simp] theorem State.writePairs_mem (ps : List (Nat × Byte)) : (s.writePairs ps).mem = ps.foldl (fun m p => sset 0 m p.1 p.2) s.mem := rfl
@[simp] theorem State.writePairs_mpoison (ps : List (Nat × Byte)) : (s.writePairs ps).mpoison = s.mpoison := rfl
@[simp] theorem State.writePairs_wseq (ps : List (Nat × Byte)) : (s.writePairs ps).wseq = s.wseq := rfl
@[simp] theorem State.writePairs_owner (ps : List (Nat × Byte)) : (s.writePairs ps).owner = s.owner := rfl
@[simp] theorem State.writePairs_l1 (ps : List (Nat × Byte)) : (s.writePairs ps).l1 = s.l1 := rfl
@[simp] theorem State.writePairs_fused (ps : List (Nat × Byte)) : (s.writePairs ps).fused = s.fused := rfl
@[simp] theorem State.writePairs_regs (ps : List (Nat × Byte)) : (s.writePairs ps).regs = s.regs := rfl
@[simp] theorem State.writePairs_adds (ps : List (Nat × Byte)) : (s.writePairs ps).adds = s.adds := rfl
@[simp] theorem State.writePairs_acks (ps : List (Nat × Byte)) : (s.writePairs ps).acks = s.acks := rfl
@[simp] theorem State.writePairs_l2 (ps : List (Nat × Byte)) : (s.writePairs ps).l2 = s.l2 := rfl
@[simp] theorem State.writePairs_mirrors (ps : List (Nat × Byte)) : (s.writePairs ps).mirrors = s.mirrors := rfl
@[simp] theorem State.writePairs_misses (ps : List (Nat × Byte)) : (s.writePairs ps).misses = s.misses := rfl
@[simp] theorem State.writePairs_spillq (ps : List (Nat × Byte)) : (s.writePairs ps).spillq = s.spillq := rfl
@[simp] theorem State.writePairs_wfill (ps : List (Nat × Byte)) : (s.writePairs ps).wfill = s.wfill := rfl
@[simp] theorem State.writePairs_icache (ps : List (Nat × Byte)) : (s.writePairs ps).icache = s.icache := rfl
@[simp] theorem State.writePairs_levels (ps : List (Nat × Byte)) : (s.writePairs ps).levels = s.levels := rfl
@[simp] theorem State.writePairs_ticks (ps : List (Nat × Byte)) : (s.writePairs ps).ticks = s.ticks := rfl
@[simp] theorem State.writePairs_tlb (ps : List (Nat × Byte)) : (s.writePairs ps).tlb = s.tlb := rfl
@[simp] theorem State.writePairs_fab (ps : List (Nat × Byte)) : (s.writePairs ps).fab = s.fab := rfl
@[simp] theorem State.writePairs_svc (ps : List (Nat × Byte)) : (s.writePairs ps).svc = s.svc := rfl

/-! ## unpoison -/

@[simp] theorem State.unpoison_cycle (pa n : Nat) : (s.unpoison pa n).cycle = s.cycle := rfl
@[simp] theorem State.unpoison_ftime (pa n : Nat) : (s.unpoison pa n).ftime = s.ftime := rfl
@[simp] theorem State.unpoison_ftfrac (pa n : Nat) : (s.unpoison pa n).ftfrac = s.ftfrac := rfl
@[simp] theorem State.unpoison_cur (pa n : Nat) : (s.unpoison pa n).cur = s.cur := rfl
@[simp] theorem State.unpoison_picks (pa n : Nat) : (s.unpoison pa n).picks = s.picks := rfl
@[simp] theorem State.unpoison_woke (pa n : Nat) : (s.unpoison pa n).woke = s.woke := rfl
@[simp] theorem State.unpoison_entered (pa n : Nat) : (s.unpoison pa n).entered = s.entered := rfl
@[simp] theorem State.unpoison_passed (pa n : Nat) : (s.unpoison pa n).passed = s.passed := rfl
@[simp] theorem State.unpoison_arrived (pa n : Nat) : (s.unpoison pa n).arrived = s.arrived := rfl
@[simp] theorem State.unpoison_sfu (pa n : Nat) : (s.unpoison pa n).sfu = s.sfu := rfl
@[simp] theorem State.unpoison_tape (pa n : Nat) : (s.unpoison pa n).tape = s.tape := rfl
@[simp] theorem State.unpoison_nextId (pa n : Nat) : (s.unpoison pa n).nextId = s.nextId := rfl
@[simp] theorem State.unpoison_free (pa n : Nat) : (s.unpoison pa n).free = s.free := rfl
@[simp] theorem State.unpoison_age (pa n : Nat) : (s.unpoison pa n).age = s.age := rfl
@[simp] theorem State.unpoison_crews (pa n : Nat) : (s.unpoison pa n).crews = s.crews := rfl
@[simp] theorem State.unpoison_teams (pa n : Nat) : (s.unpoison pa n).teams = s.teams := rfl
@[simp] theorem State.unpoison_launches (pa n : Nat) : (s.unpoison pa n).launches = s.launches := rfl
@[simp] theorem State.unpoison_seats (pa n : Nat) : (s.unpoison pa n).seats = s.seats := rfl
@[simp] theorem State.unpoison_remote (pa n : Nat) : (s.unpoison pa n).remote = s.remote := rfl
@[simp] theorem State.unpoison_contexts (pa n : Nat) : (s.unpoison pa n).contexts = s.contexts := rfl
@[simp] theorem State.unpoison_parts (pa n : Nat) : (s.unpoison pa n).parts = s.parts := rfl
@[simp] theorem State.unpoison_bays (pa n : Nat) : (s.unpoison pa n).bays = s.bays := rfl
@[simp] theorem State.unpoison_bars (pa n : Nat) : (s.unpoison pa n).bars = s.bars := rfl
@[simp] theorem State.unpoison_barGen (pa n : Nat) : (s.unpoison pa n).barGen = s.barGen := rfl
@[simp] theorem State.unpoison_faultq (pa n : Nat) : (s.unpoison pa n).faultq = s.faultq := rfl
@[simp] theorem State.unpoison_mats (pa n : Nat) : (s.unpoison pa n).mats = s.mats := rfl
@[simp] theorem State.unpoison_tiles (pa n : Nat) : (s.unpoison pa n).tiles = s.tiles := rfl
@[simp] theorem State.unpoison_copies (pa n : Nat) : (s.unpoison pa n).copies = s.copies := rfl
@[simp] theorem State.unpoison_held (pa n : Nat) : (s.unpoison pa n).held = s.held := rfl
@[simp] theorem State.unpoison_shells (pa n : Nat) : (s.unpoison pa n).shells = s.shells := rfl
@[simp] theorem State.unpoison_shpoison (pa n : Nat) : (s.unpoison pa n).shpoison = s.shpoison := rfl
@[simp] theorem State.unpoison_cooling (pa n : Nat) : (s.unpoison pa n).cooling = s.cooling := rfl
@[simp] theorem State.unpoison_shreqs (pa n : Nat) : (s.unpoison pa n).shreqs = s.shreqs := rfl
@[simp] theorem State.unpoison_landings (pa n : Nat) : (s.unpoison pa n).landings = s.landings := rfl
@[simp] theorem State.unpoison_mem (pa n : Nat) : (s.unpoison pa n).mem = s.mem := rfl
@[simp] theorem State.unpoison_wseq (pa n : Nat) : (s.unpoison pa n).wseq = s.wseq := rfl
@[simp] theorem State.unpoison_owner (pa n : Nat) : (s.unpoison pa n).owner = s.owner := rfl
@[simp] theorem State.unpoison_l1 (pa n : Nat) : (s.unpoison pa n).l1 = s.l1 := rfl
@[simp] theorem State.unpoison_fused (pa n : Nat) : (s.unpoison pa n).fused = s.fused := rfl
@[simp] theorem State.unpoison_regs (pa n : Nat) : (s.unpoison pa n).regs = s.regs := rfl
@[simp] theorem State.unpoison_adds (pa n : Nat) : (s.unpoison pa n).adds = s.adds := rfl
@[simp] theorem State.unpoison_acks (pa n : Nat) : (s.unpoison pa n).acks = s.acks := rfl
@[simp] theorem State.unpoison_l2 (pa n : Nat) : (s.unpoison pa n).l2 = s.l2 := rfl
@[simp] theorem State.unpoison_mirrors (pa n : Nat) : (s.unpoison pa n).mirrors = s.mirrors := rfl
@[simp] theorem State.unpoison_misses (pa n : Nat) : (s.unpoison pa n).misses = s.misses := rfl
@[simp] theorem State.unpoison_spillq (pa n : Nat) : (s.unpoison pa n).spillq = s.spillq := rfl
@[simp] theorem State.unpoison_wfill (pa n : Nat) : (s.unpoison pa n).wfill = s.wfill := rfl
@[simp] theorem State.unpoison_icache (pa n : Nat) : (s.unpoison pa n).icache = s.icache := rfl
@[simp] theorem State.unpoison_levels (pa n : Nat) : (s.unpoison pa n).levels = s.levels := rfl
@[simp] theorem State.unpoison_ticks (pa n : Nat) : (s.unpoison pa n).ticks = s.ticks := rfl
@[simp] theorem State.unpoison_tlb (pa n : Nat) : (s.unpoison pa n).tlb = s.tlb := rfl
@[simp] theorem State.unpoison_fab (pa n : Nat) : (s.unpoison pa n).fab = s.fab := rfl
@[simp] theorem State.unpoison_svc (pa n : Nat) : (s.unpoison pa n).svc = s.svc := rfl

/-! ## poison -/

@[simp] theorem State.poison_cycle (pa n : Nat) : (s.poison pa n).cycle = s.cycle := rfl
@[simp] theorem State.poison_ftime (pa n : Nat) : (s.poison pa n).ftime = s.ftime := rfl
@[simp] theorem State.poison_ftfrac (pa n : Nat) : (s.poison pa n).ftfrac = s.ftfrac := rfl
@[simp] theorem State.poison_cur (pa n : Nat) : (s.poison pa n).cur = s.cur := rfl
@[simp] theorem State.poison_picks (pa n : Nat) : (s.poison pa n).picks = s.picks := rfl
@[simp] theorem State.poison_woke (pa n : Nat) : (s.poison pa n).woke = s.woke := rfl
@[simp] theorem State.poison_entered (pa n : Nat) : (s.poison pa n).entered = s.entered := rfl
@[simp] theorem State.poison_passed (pa n : Nat) : (s.poison pa n).passed = s.passed := rfl
@[simp] theorem State.poison_arrived (pa n : Nat) : (s.poison pa n).arrived = s.arrived := rfl
@[simp] theorem State.poison_sfu (pa n : Nat) : (s.poison pa n).sfu = s.sfu := rfl
@[simp] theorem State.poison_tape (pa n : Nat) : (s.poison pa n).tape = s.tape := rfl
@[simp] theorem State.poison_nextId (pa n : Nat) : (s.poison pa n).nextId = s.nextId := rfl
@[simp] theorem State.poison_free (pa n : Nat) : (s.poison pa n).free = s.free := rfl
@[simp] theorem State.poison_age (pa n : Nat) : (s.poison pa n).age = s.age := rfl
@[simp] theorem State.poison_crews (pa n : Nat) : (s.poison pa n).crews = s.crews := rfl
@[simp] theorem State.poison_teams (pa n : Nat) : (s.poison pa n).teams = s.teams := rfl
@[simp] theorem State.poison_launches (pa n : Nat) : (s.poison pa n).launches = s.launches := rfl
@[simp] theorem State.poison_seats (pa n : Nat) : (s.poison pa n).seats = s.seats := rfl
@[simp] theorem State.poison_remote (pa n : Nat) : (s.poison pa n).remote = s.remote := rfl
@[simp] theorem State.poison_contexts (pa n : Nat) : (s.poison pa n).contexts = s.contexts := rfl
@[simp] theorem State.poison_parts (pa n : Nat) : (s.poison pa n).parts = s.parts := rfl
@[simp] theorem State.poison_bays (pa n : Nat) : (s.poison pa n).bays = s.bays := rfl
@[simp] theorem State.poison_bars (pa n : Nat) : (s.poison pa n).bars = s.bars := rfl
@[simp] theorem State.poison_barGen (pa n : Nat) : (s.poison pa n).barGen = s.barGen := rfl
@[simp] theorem State.poison_faultq (pa n : Nat) : (s.poison pa n).faultq = s.faultq := rfl
@[simp] theorem State.poison_mats (pa n : Nat) : (s.poison pa n).mats = s.mats := rfl
@[simp] theorem State.poison_tiles (pa n : Nat) : (s.poison pa n).tiles = s.tiles := rfl
@[simp] theorem State.poison_copies (pa n : Nat) : (s.poison pa n).copies = s.copies := rfl
@[simp] theorem State.poison_held (pa n : Nat) : (s.poison pa n).held = s.held := rfl
@[simp] theorem State.poison_shells (pa n : Nat) : (s.poison pa n).shells = s.shells := rfl
@[simp] theorem State.poison_shpoison (pa n : Nat) : (s.poison pa n).shpoison = s.shpoison := rfl
@[simp] theorem State.poison_cooling (pa n : Nat) : (s.poison pa n).cooling = s.cooling := rfl
@[simp] theorem State.poison_shreqs (pa n : Nat) : (s.poison pa n).shreqs = s.shreqs := rfl
@[simp] theorem State.poison_landings (pa n : Nat) : (s.poison pa n).landings = s.landings := rfl
@[simp] theorem State.poison_mem (pa n : Nat) : (s.poison pa n).mem = s.mem := rfl
@[simp] theorem State.poison_wseq (pa n : Nat) : (s.poison pa n).wseq = s.wseq := rfl
@[simp] theorem State.poison_owner (pa n : Nat) : (s.poison pa n).owner = s.owner := rfl
@[simp] theorem State.poison_l1 (pa n : Nat) : (s.poison pa n).l1 = s.l1 := rfl
@[simp] theorem State.poison_fused (pa n : Nat) : (s.poison pa n).fused = s.fused := rfl
@[simp] theorem State.poison_regs (pa n : Nat) : (s.poison pa n).regs = s.regs := rfl
@[simp] theorem State.poison_adds (pa n : Nat) : (s.poison pa n).adds = s.adds := rfl
@[simp] theorem State.poison_acks (pa n : Nat) : (s.poison pa n).acks = s.acks := rfl
@[simp] theorem State.poison_l2 (pa n : Nat) : (s.poison pa n).l2 = s.l2 := rfl
@[simp] theorem State.poison_mirrors (pa n : Nat) : (s.poison pa n).mirrors = s.mirrors := rfl
@[simp] theorem State.poison_misses (pa n : Nat) : (s.poison pa n).misses = s.misses := rfl
@[simp] theorem State.poison_spillq (pa n : Nat) : (s.poison pa n).spillq = s.spillq := rfl
@[simp] theorem State.poison_wfill (pa n : Nat) : (s.poison pa n).wfill = s.wfill := rfl
@[simp] theorem State.poison_icache (pa n : Nat) : (s.poison pa n).icache = s.icache := rfl
@[simp] theorem State.poison_levels (pa n : Nat) : (s.poison pa n).levels = s.levels := rfl
@[simp] theorem State.poison_ticks (pa n : Nat) : (s.poison pa n).ticks = s.ticks := rfl
@[simp] theorem State.poison_tlb (pa n : Nat) : (s.poison pa n).tlb = s.tlb := rfl
@[simp] theorem State.poison_fab (pa n : Nat) : (s.poison pa n).fab = s.fab := rfl
@[simp] theorem State.poison_svc (pa n : Nat) : (s.poison pa n).svc = s.svc := rfl

/-! ## bumpWseq -/

@[simp] theorem State.bumpWseq_cycle (line : Nat) : (s.bumpWseq line).cycle = s.cycle := rfl
@[simp] theorem State.bumpWseq_ftime (line : Nat) : (s.bumpWseq line).ftime = s.ftime := rfl
@[simp] theorem State.bumpWseq_ftfrac (line : Nat) : (s.bumpWseq line).ftfrac = s.ftfrac := rfl
@[simp] theorem State.bumpWseq_cur (line : Nat) : (s.bumpWseq line).cur = s.cur := rfl
@[simp] theorem State.bumpWseq_picks (line : Nat) : (s.bumpWseq line).picks = s.picks := rfl
@[simp] theorem State.bumpWseq_woke (line : Nat) : (s.bumpWseq line).woke = s.woke := rfl
@[simp] theorem State.bumpWseq_entered (line : Nat) : (s.bumpWseq line).entered = s.entered := rfl
@[simp] theorem State.bumpWseq_passed (line : Nat) : (s.bumpWseq line).passed = s.passed := rfl
@[simp] theorem State.bumpWseq_arrived (line : Nat) : (s.bumpWseq line).arrived = s.arrived := rfl
@[simp] theorem State.bumpWseq_sfu (line : Nat) : (s.bumpWseq line).sfu = s.sfu := rfl
@[simp] theorem State.bumpWseq_tape (line : Nat) : (s.bumpWseq line).tape = s.tape := rfl
@[simp] theorem State.bumpWseq_nextId (line : Nat) : (s.bumpWseq line).nextId = s.nextId := rfl
@[simp] theorem State.bumpWseq_free (line : Nat) : (s.bumpWseq line).free = s.free := rfl
@[simp] theorem State.bumpWseq_age (line : Nat) : (s.bumpWseq line).age = s.age := rfl
@[simp] theorem State.bumpWseq_crews (line : Nat) : (s.bumpWseq line).crews = s.crews := rfl
@[simp] theorem State.bumpWseq_teams (line : Nat) : (s.bumpWseq line).teams = s.teams := rfl
@[simp] theorem State.bumpWseq_launches (line : Nat) : (s.bumpWseq line).launches = s.launches := rfl
@[simp] theorem State.bumpWseq_seats (line : Nat) : (s.bumpWseq line).seats = s.seats := rfl
@[simp] theorem State.bumpWseq_remote (line : Nat) : (s.bumpWseq line).remote = s.remote := rfl
@[simp] theorem State.bumpWseq_contexts (line : Nat) : (s.bumpWseq line).contexts = s.contexts := rfl
@[simp] theorem State.bumpWseq_parts (line : Nat) : (s.bumpWseq line).parts = s.parts := rfl
@[simp] theorem State.bumpWseq_bays (line : Nat) : (s.bumpWseq line).bays = s.bays := rfl
@[simp] theorem State.bumpWseq_bars (line : Nat) : (s.bumpWseq line).bars = s.bars := rfl
@[simp] theorem State.bumpWseq_barGen (line : Nat) : (s.bumpWseq line).barGen = s.barGen := rfl
@[simp] theorem State.bumpWseq_faultq (line : Nat) : (s.bumpWseq line).faultq = s.faultq := rfl
@[simp] theorem State.bumpWseq_mats (line : Nat) : (s.bumpWseq line).mats = s.mats := rfl
@[simp] theorem State.bumpWseq_tiles (line : Nat) : (s.bumpWseq line).tiles = s.tiles := rfl
@[simp] theorem State.bumpWseq_copies (line : Nat) : (s.bumpWseq line).copies = s.copies := rfl
@[simp] theorem State.bumpWseq_held (line : Nat) : (s.bumpWseq line).held = s.held := rfl
@[simp] theorem State.bumpWseq_shells (line : Nat) : (s.bumpWseq line).shells = s.shells := rfl
@[simp] theorem State.bumpWseq_shpoison (line : Nat) : (s.bumpWseq line).shpoison = s.shpoison := rfl
@[simp] theorem State.bumpWseq_cooling (line : Nat) : (s.bumpWseq line).cooling = s.cooling := rfl
@[simp] theorem State.bumpWseq_shreqs (line : Nat) : (s.bumpWseq line).shreqs = s.shreqs := rfl
@[simp] theorem State.bumpWseq_landings (line : Nat) : (s.bumpWseq line).landings = s.landings := rfl
@[simp] theorem State.bumpWseq_mem (line : Nat) : (s.bumpWseq line).mem = s.mem := rfl
@[simp] theorem State.bumpWseq_mpoison (line : Nat) : (s.bumpWseq line).mpoison = s.mpoison := rfl
@[simp] theorem State.bumpWseq_wseq (line : Nat) : (s.bumpWseq line).wseq = sset 0 s.wseq line (sget 0 s.wseq line + 1) := rfl
@[simp] theorem State.bumpWseq_owner (line : Nat) : (s.bumpWseq line).owner = s.owner := rfl
@[simp] theorem State.bumpWseq_l1 (line : Nat) : (s.bumpWseq line).l1 = s.l1 := rfl
@[simp] theorem State.bumpWseq_fused (line : Nat) : (s.bumpWseq line).fused = s.fused := rfl
@[simp] theorem State.bumpWseq_regs (line : Nat) : (s.bumpWseq line).regs = s.regs := rfl
@[simp] theorem State.bumpWseq_adds (line : Nat) : (s.bumpWseq line).adds = s.adds := rfl
@[simp] theorem State.bumpWseq_acks (line : Nat) : (s.bumpWseq line).acks = s.acks := rfl
@[simp] theorem State.bumpWseq_l2 (line : Nat) : (s.bumpWseq line).l2 = s.l2 := rfl
@[simp] theorem State.bumpWseq_mirrors (line : Nat) : (s.bumpWseq line).mirrors = s.mirrors := rfl
@[simp] theorem State.bumpWseq_misses (line : Nat) : (s.bumpWseq line).misses = s.misses := rfl
@[simp] theorem State.bumpWseq_spillq (line : Nat) : (s.bumpWseq line).spillq = s.spillq := rfl
@[simp] theorem State.bumpWseq_wfill (line : Nat) : (s.bumpWseq line).wfill = s.wfill := rfl
@[simp] theorem State.bumpWseq_icache (line : Nat) : (s.bumpWseq line).icache = s.icache := rfl
@[simp] theorem State.bumpWseq_levels (line : Nat) : (s.bumpWseq line).levels = s.levels := rfl
@[simp] theorem State.bumpWseq_ticks (line : Nat) : (s.bumpWseq line).ticks = s.ticks := rfl
@[simp] theorem State.bumpWseq_tlb (line : Nat) : (s.bumpWseq line).tlb = s.tlb := rfl
@[simp] theorem State.bumpWseq_fab (line : Nat) : (s.bumpWseq line).fab = s.fab := rfl
@[simp] theorem State.bumpWseq_svc (line : Nat) : (s.bumpWseq line).svc = s.svc := rfl

/-! ## markWritten -/

@[simp] theorem State.markWritten_cycle (core : Nat) (ws : List Nat) : (s.markWritten core ws).cycle = s.cycle := rfl
@[simp] theorem State.markWritten_ftime (core : Nat) (ws : List Nat) : (s.markWritten core ws).ftime = s.ftime := rfl
@[simp] theorem State.markWritten_ftfrac (core : Nat) (ws : List Nat) : (s.markWritten core ws).ftfrac = s.ftfrac := rfl
@[simp] theorem State.markWritten_cur (core : Nat) (ws : List Nat) : (s.markWritten core ws).cur = s.cur := rfl
@[simp] theorem State.markWritten_picks (core : Nat) (ws : List Nat) : (s.markWritten core ws).picks = s.picks := rfl
@[simp] theorem State.markWritten_woke (core : Nat) (ws : List Nat) : (s.markWritten core ws).woke = s.woke := rfl
@[simp] theorem State.markWritten_entered (core : Nat) (ws : List Nat) : (s.markWritten core ws).entered = s.entered := rfl
@[simp] theorem State.markWritten_passed (core : Nat) (ws : List Nat) : (s.markWritten core ws).passed = s.passed := rfl
@[simp] theorem State.markWritten_arrived (core : Nat) (ws : List Nat) : (s.markWritten core ws).arrived = s.arrived := rfl
@[simp] theorem State.markWritten_sfu (core : Nat) (ws : List Nat) : (s.markWritten core ws).sfu = s.sfu := rfl
@[simp] theorem State.markWritten_tape (core : Nat) (ws : List Nat) : (s.markWritten core ws).tape = s.tape := rfl
@[simp] theorem State.markWritten_nextId (core : Nat) (ws : List Nat) : (s.markWritten core ws).nextId = s.nextId := rfl
@[simp] theorem State.markWritten_free (core : Nat) (ws : List Nat) : (s.markWritten core ws).free = s.free := rfl
@[simp] theorem State.markWritten_age (core : Nat) (ws : List Nat) : (s.markWritten core ws).age = s.age := rfl
@[simp] theorem State.markWritten_crews (core : Nat) (ws : List Nat) : (s.markWritten core ws).crews = s.crews := rfl
@[simp] theorem State.markWritten_teams (core : Nat) (ws : List Nat) : (s.markWritten core ws).teams = s.teams := rfl
@[simp] theorem State.markWritten_launches (core : Nat) (ws : List Nat) : (s.markWritten core ws).launches = s.launches := rfl
@[simp] theorem State.markWritten_seats (core : Nat) (ws : List Nat) : (s.markWritten core ws).seats = s.seats := rfl
@[simp] theorem State.markWritten_remote (core : Nat) (ws : List Nat) : (s.markWritten core ws).remote = s.remote := rfl
@[simp] theorem State.markWritten_contexts (core : Nat) (ws : List Nat) : (s.markWritten core ws).contexts = s.contexts := rfl
@[simp] theorem State.markWritten_parts (core : Nat) (ws : List Nat) : (s.markWritten core ws).parts = s.parts := rfl
@[simp] theorem State.markWritten_bays (core : Nat) (ws : List Nat) : (s.markWritten core ws).bays = s.bays := rfl
@[simp] theorem State.markWritten_bars (core : Nat) (ws : List Nat) : (s.markWritten core ws).bars = s.bars := rfl
@[simp] theorem State.markWritten_barGen (core : Nat) (ws : List Nat) : (s.markWritten core ws).barGen = s.barGen := rfl
@[simp] theorem State.markWritten_faultq (core : Nat) (ws : List Nat) : (s.markWritten core ws).faultq = s.faultq := rfl
@[simp] theorem State.markWritten_mats (core : Nat) (ws : List Nat) : (s.markWritten core ws).mats = s.mats := rfl
@[simp] theorem State.markWritten_tiles (core : Nat) (ws : List Nat) : (s.markWritten core ws).tiles = s.tiles := rfl
@[simp] theorem State.markWritten_copies (core : Nat) (ws : List Nat) : (s.markWritten core ws).copies = s.copies := rfl
@[simp] theorem State.markWritten_held (core : Nat) (ws : List Nat) : (s.markWritten core ws).held = s.held := rfl
@[simp] theorem State.markWritten_shells (core : Nat) (ws : List Nat) : (s.markWritten core ws).shells = s.shells := rfl
@[simp] theorem State.markWritten_shpoison (core : Nat) (ws : List Nat) : (s.markWritten core ws).shpoison = s.shpoison := rfl
@[simp] theorem State.markWritten_cooling (core : Nat) (ws : List Nat) : (s.markWritten core ws).cooling = s.cooling := rfl
@[simp] theorem State.markWritten_shreqs (core : Nat) (ws : List Nat) : (s.markWritten core ws).shreqs = s.shreqs := rfl
@[simp] theorem State.markWritten_landings (core : Nat) (ws : List Nat) : (s.markWritten core ws).landings = s.landings := rfl
@[simp] theorem State.markWritten_mem (core : Nat) (ws : List Nat) : (s.markWritten core ws).mem = s.mem := rfl
@[simp] theorem State.markWritten_mpoison (core : Nat) (ws : List Nat) : (s.markWritten core ws).mpoison = s.mpoison := rfl
@[simp] theorem State.markWritten_wseq (core : Nat) (ws : List Nat) : (s.markWritten core ws).wseq = s.wseq := rfl
@[simp] theorem State.markWritten_owner (core : Nat) (ws : List Nat) : (s.markWritten core ws).owner = s.owner := rfl
@[simp] theorem State.markWritten_l1 (core : Nat) (ws : List Nat) : (s.markWritten core ws).l1 = s.l1 := rfl
@[simp] theorem State.markWritten_fused (core : Nat) (ws : List Nat) : (s.markWritten core ws).fused = s.fused := rfl
@[simp] theorem State.markWritten_regs (core : Nat) (ws : List Nat) : (s.markWritten core ws).regs = s.regs := rfl
@[simp] theorem State.markWritten_adds (core : Nat) (ws : List Nat) : (s.markWritten core ws).adds = s.adds := rfl
@[simp] theorem State.markWritten_acks (core : Nat) (ws : List Nat) : (s.markWritten core ws).acks = s.acks := rfl
@[simp] theorem State.markWritten_mirrors (core : Nat) (ws : List Nat) : (s.markWritten core ws).mirrors = s.mirrors := rfl
@[simp] theorem State.markWritten_misses (core : Nat) (ws : List Nat) : (s.markWritten core ws).misses = s.misses := rfl
@[simp] theorem State.markWritten_spillq (core : Nat) (ws : List Nat) : (s.markWritten core ws).spillq = s.spillq := rfl
@[simp] theorem State.markWritten_icache (core : Nat) (ws : List Nat) : (s.markWritten core ws).icache = s.icache := rfl
@[simp] theorem State.markWritten_levels (core : Nat) (ws : List Nat) : (s.markWritten core ws).levels = s.levels := rfl
@[simp] theorem State.markWritten_ticks (core : Nat) (ws : List Nat) : (s.markWritten core ws).ticks = s.ticks := rfl
@[simp] theorem State.markWritten_tlb (core : Nat) (ws : List Nat) : (s.markWritten core ws).tlb = s.tlb := rfl
@[simp] theorem State.markWritten_fab (core : Nat) (ws : List Nat) : (s.markWritten core ws).fab = s.fab := rfl
@[simp] theorem State.markWritten_svc (core : Nat) (ws : List Nat) : (s.markWritten core ws).svc = s.svc := rfl

/-! ## noteWriteBack -/

@[simp] theorem State.noteWriteBack_cycle (slice line : Nat) : (s.noteWriteBack slice line).cycle = s.cycle := rfl
@[simp] theorem State.noteWriteBack_ftime (slice line : Nat) : (s.noteWriteBack slice line).ftime = s.ftime := rfl
@[simp] theorem State.noteWriteBack_ftfrac (slice line : Nat) : (s.noteWriteBack slice line).ftfrac = s.ftfrac := rfl
@[simp] theorem State.noteWriteBack_cur (slice line : Nat) : (s.noteWriteBack slice line).cur = s.cur := rfl
@[simp] theorem State.noteWriteBack_picks (slice line : Nat) : (s.noteWriteBack slice line).picks = s.picks := rfl
@[simp] theorem State.noteWriteBack_woke (slice line : Nat) : (s.noteWriteBack slice line).woke = s.woke := rfl
@[simp] theorem State.noteWriteBack_entered (slice line : Nat) : (s.noteWriteBack slice line).entered = s.entered := rfl
@[simp] theorem State.noteWriteBack_passed (slice line : Nat) : (s.noteWriteBack slice line).passed = s.passed := rfl
@[simp] theorem State.noteWriteBack_arrived (slice line : Nat) : (s.noteWriteBack slice line).arrived = s.arrived := rfl
@[simp] theorem State.noteWriteBack_sfu (slice line : Nat) : (s.noteWriteBack slice line).sfu = s.sfu := rfl
@[simp] theorem State.noteWriteBack_tape (slice line : Nat) : (s.noteWriteBack slice line).tape = s.tape := rfl
@[simp] theorem State.noteWriteBack_nextId (slice line : Nat) : (s.noteWriteBack slice line).nextId = s.nextId := rfl
@[simp] theorem State.noteWriteBack_free (slice line : Nat) : (s.noteWriteBack slice line).free = s.free := rfl
@[simp] theorem State.noteWriteBack_age (slice line : Nat) : (s.noteWriteBack slice line).age = s.age := rfl
@[simp] theorem State.noteWriteBack_crews (slice line : Nat) : (s.noteWriteBack slice line).crews = s.crews := rfl
@[simp] theorem State.noteWriteBack_teams (slice line : Nat) : (s.noteWriteBack slice line).teams = s.teams := rfl
@[simp] theorem State.noteWriteBack_launches (slice line : Nat) : (s.noteWriteBack slice line).launches = s.launches := rfl
@[simp] theorem State.noteWriteBack_seats (slice line : Nat) : (s.noteWriteBack slice line).seats = s.seats := rfl
@[simp] theorem State.noteWriteBack_remote (slice line : Nat) : (s.noteWriteBack slice line).remote = s.remote := rfl
@[simp] theorem State.noteWriteBack_contexts (slice line : Nat) : (s.noteWriteBack slice line).contexts = s.contexts := rfl
@[simp] theorem State.noteWriteBack_parts (slice line : Nat) : (s.noteWriteBack slice line).parts = s.parts := rfl
@[simp] theorem State.noteWriteBack_bays (slice line : Nat) : (s.noteWriteBack slice line).bays = s.bays := rfl
@[simp] theorem State.noteWriteBack_bars (slice line : Nat) : (s.noteWriteBack slice line).bars = s.bars := rfl
@[simp] theorem State.noteWriteBack_barGen (slice line : Nat) : (s.noteWriteBack slice line).barGen = s.barGen := rfl
@[simp] theorem State.noteWriteBack_faultq (slice line : Nat) : (s.noteWriteBack slice line).faultq = s.faultq := rfl
@[simp] theorem State.noteWriteBack_mats (slice line : Nat) : (s.noteWriteBack slice line).mats = s.mats := rfl
@[simp] theorem State.noteWriteBack_tiles (slice line : Nat) : (s.noteWriteBack slice line).tiles = s.tiles := rfl
@[simp] theorem State.noteWriteBack_copies (slice line : Nat) : (s.noteWriteBack slice line).copies = s.copies := rfl
@[simp] theorem State.noteWriteBack_held (slice line : Nat) : (s.noteWriteBack slice line).held = s.held := rfl
@[simp] theorem State.noteWriteBack_shells (slice line : Nat) : (s.noteWriteBack slice line).shells = s.shells := rfl
@[simp] theorem State.noteWriteBack_shpoison (slice line : Nat) : (s.noteWriteBack slice line).shpoison = s.shpoison := rfl
@[simp] theorem State.noteWriteBack_cooling (slice line : Nat) : (s.noteWriteBack slice line).cooling = s.cooling := rfl
@[simp] theorem State.noteWriteBack_shreqs (slice line : Nat) : (s.noteWriteBack slice line).shreqs = s.shreqs := rfl
@[simp] theorem State.noteWriteBack_landings (slice line : Nat) : (s.noteWriteBack slice line).landings = s.landings := rfl
@[simp] theorem State.noteWriteBack_mem (slice line : Nat) : (s.noteWriteBack slice line).mem = s.mem := rfl
@[simp] theorem State.noteWriteBack_mpoison (slice line : Nat) : (s.noteWriteBack slice line).mpoison = s.mpoison := rfl
@[simp] theorem State.noteWriteBack_wseq (slice line : Nat) : (s.noteWriteBack slice line).wseq = s.wseq := rfl
@[simp] theorem State.noteWriteBack_owner (slice line : Nat) : (s.noteWriteBack slice line).owner = s.owner := rfl
@[simp] theorem State.noteWriteBack_l1 (slice line : Nat) : (s.noteWriteBack slice line).l1 = s.l1 := rfl
@[simp] theorem State.noteWriteBack_fused (slice line : Nat) : (s.noteWriteBack slice line).fused = s.fused := rfl
@[simp] theorem State.noteWriteBack_regs (slice line : Nat) : (s.noteWriteBack slice line).regs = s.regs := rfl
@[simp] theorem State.noteWriteBack_adds (slice line : Nat) : (s.noteWriteBack slice line).adds = s.adds := rfl
@[simp] theorem State.noteWriteBack_acks (slice line : Nat) : (s.noteWriteBack slice line).acks = s.acks := rfl
@[simp] theorem State.noteWriteBack_l2 (slice line : Nat) : (s.noteWriteBack slice line).l2 = s.l2 := rfl
@[simp] theorem State.noteWriteBack_mirrors (slice line : Nat) : (s.noteWriteBack slice line).mirrors = s.mirrors := rfl
@[simp] theorem State.noteWriteBack_spillq (slice line : Nat) : (s.noteWriteBack slice line).spillq = s.spillq := rfl
@[simp] theorem State.noteWriteBack_wfill (slice line : Nat) : (s.noteWriteBack slice line).wfill = s.wfill := rfl
@[simp] theorem State.noteWriteBack_icache (slice line : Nat) : (s.noteWriteBack slice line).icache = s.icache := rfl
@[simp] theorem State.noteWriteBack_levels (slice line : Nat) : (s.noteWriteBack slice line).levels = s.levels := rfl
@[simp] theorem State.noteWriteBack_ticks (slice line : Nat) : (s.noteWriteBack slice line).ticks = s.ticks := rfl
@[simp] theorem State.noteWriteBack_tlb (slice line : Nat) : (s.noteWriteBack slice line).tlb = s.tlb := rfl
@[simp] theorem State.noteWriteBack_fab (slice line : Nat) : (s.noteWriteBack slice line).fab = s.fab := rfl
@[simp] theorem State.noteWriteBack_svc (slice line : Nat) : (s.noteWriteBack slice line).svc = s.svc := rfl

/-! ## l1Drop -/

@[simp] theorem State.l1Drop_cycle (f : L1Word → Bool) : (s.l1Drop f).cycle = s.cycle := rfl
@[simp] theorem State.l1Drop_ftime (f : L1Word → Bool) : (s.l1Drop f).ftime = s.ftime := rfl
@[simp] theorem State.l1Drop_ftfrac (f : L1Word → Bool) : (s.l1Drop f).ftfrac = s.ftfrac := rfl
@[simp] theorem State.l1Drop_cur (f : L1Word → Bool) : (s.l1Drop f).cur = s.cur := rfl
@[simp] theorem State.l1Drop_picks (f : L1Word → Bool) : (s.l1Drop f).picks = s.picks := rfl
@[simp] theorem State.l1Drop_woke (f : L1Word → Bool) : (s.l1Drop f).woke = s.woke := rfl
@[simp] theorem State.l1Drop_entered (f : L1Word → Bool) : (s.l1Drop f).entered = s.entered := rfl
@[simp] theorem State.l1Drop_passed (f : L1Word → Bool) : (s.l1Drop f).passed = s.passed := rfl
@[simp] theorem State.l1Drop_arrived (f : L1Word → Bool) : (s.l1Drop f).arrived = s.arrived := rfl
@[simp] theorem State.l1Drop_sfu (f : L1Word → Bool) : (s.l1Drop f).sfu = s.sfu := rfl
@[simp] theorem State.l1Drop_tape (f : L1Word → Bool) : (s.l1Drop f).tape = s.tape := rfl
@[simp] theorem State.l1Drop_nextId (f : L1Word → Bool) : (s.l1Drop f).nextId = s.nextId := rfl
@[simp] theorem State.l1Drop_free (f : L1Word → Bool) : (s.l1Drop f).free = s.free := rfl
@[simp] theorem State.l1Drop_age (f : L1Word → Bool) : (s.l1Drop f).age = s.age := rfl
@[simp] theorem State.l1Drop_crews (f : L1Word → Bool) : (s.l1Drop f).crews = s.crews := rfl
@[simp] theorem State.l1Drop_teams (f : L1Word → Bool) : (s.l1Drop f).teams = s.teams := rfl
@[simp] theorem State.l1Drop_launches (f : L1Word → Bool) : (s.l1Drop f).launches = s.launches := rfl
@[simp] theorem State.l1Drop_seats (f : L1Word → Bool) : (s.l1Drop f).seats = s.seats := rfl
@[simp] theorem State.l1Drop_remote (f : L1Word → Bool) : (s.l1Drop f).remote = s.remote := rfl
@[simp] theorem State.l1Drop_contexts (f : L1Word → Bool) : (s.l1Drop f).contexts = s.contexts := rfl
@[simp] theorem State.l1Drop_parts (f : L1Word → Bool) : (s.l1Drop f).parts = s.parts := rfl
@[simp] theorem State.l1Drop_bays (f : L1Word → Bool) : (s.l1Drop f).bays = s.bays := rfl
@[simp] theorem State.l1Drop_bars (f : L1Word → Bool) : (s.l1Drop f).bars = s.bars := rfl
@[simp] theorem State.l1Drop_barGen (f : L1Word → Bool) : (s.l1Drop f).barGen = s.barGen := rfl
@[simp] theorem State.l1Drop_faultq (f : L1Word → Bool) : (s.l1Drop f).faultq = s.faultq := rfl
@[simp] theorem State.l1Drop_mats (f : L1Word → Bool) : (s.l1Drop f).mats = s.mats := rfl
@[simp] theorem State.l1Drop_tiles (f : L1Word → Bool) : (s.l1Drop f).tiles = s.tiles := rfl
@[simp] theorem State.l1Drop_copies (f : L1Word → Bool) : (s.l1Drop f).copies = s.copies := rfl
@[simp] theorem State.l1Drop_held (f : L1Word → Bool) : (s.l1Drop f).held = s.held := rfl
@[simp] theorem State.l1Drop_shells (f : L1Word → Bool) : (s.l1Drop f).shells = s.shells := rfl
@[simp] theorem State.l1Drop_shpoison (f : L1Word → Bool) : (s.l1Drop f).shpoison = s.shpoison := rfl
@[simp] theorem State.l1Drop_cooling (f : L1Word → Bool) : (s.l1Drop f).cooling = s.cooling := rfl
@[simp] theorem State.l1Drop_shreqs (f : L1Word → Bool) : (s.l1Drop f).shreqs = s.shreqs := rfl
@[simp] theorem State.l1Drop_landings (f : L1Word → Bool) : (s.l1Drop f).landings = s.landings := rfl
@[simp] theorem State.l1Drop_mem (f : L1Word → Bool) : (s.l1Drop f).mem = s.mem := rfl
@[simp] theorem State.l1Drop_mpoison (f : L1Word → Bool) : (s.l1Drop f).mpoison = s.mpoison := rfl
@[simp] theorem State.l1Drop_wseq (f : L1Word → Bool) : (s.l1Drop f).wseq = s.wseq := rfl
@[simp] theorem State.l1Drop_owner (f : L1Word → Bool) : (s.l1Drop f).owner = s.owner := rfl
@[simp] theorem State.l1Drop_fused (f : L1Word → Bool) : (s.l1Drop f).fused = s.fused := rfl
@[simp] theorem State.l1Drop_regs (f : L1Word → Bool) : (s.l1Drop f).regs = s.regs := rfl
@[simp] theorem State.l1Drop_adds (f : L1Word → Bool) : (s.l1Drop f).adds = s.adds := rfl
@[simp] theorem State.l1Drop_acks (f : L1Word → Bool) : (s.l1Drop f).acks = s.acks := rfl
@[simp] theorem State.l1Drop_l2 (f : L1Word → Bool) : (s.l1Drop f).l2 = s.l2 := rfl
@[simp] theorem State.l1Drop_mirrors (f : L1Word → Bool) : (s.l1Drop f).mirrors = s.mirrors := rfl
@[simp] theorem State.l1Drop_misses (f : L1Word → Bool) : (s.l1Drop f).misses = s.misses := rfl
@[simp] theorem State.l1Drop_spillq (f : L1Word → Bool) : (s.l1Drop f).spillq = s.spillq := rfl
@[simp] theorem State.l1Drop_wfill (f : L1Word → Bool) : (s.l1Drop f).wfill = s.wfill := rfl
@[simp] theorem State.l1Drop_icache (f : L1Word → Bool) : (s.l1Drop f).icache = s.icache := rfl
@[simp] theorem State.l1Drop_levels (f : L1Word → Bool) : (s.l1Drop f).levels = s.levels := rfl
@[simp] theorem State.l1Drop_ticks (f : L1Word → Bool) : (s.l1Drop f).ticks = s.ticks := rfl
@[simp] theorem State.l1Drop_tlb (f : L1Word → Bool) : (s.l1Drop f).tlb = s.tlb := rfl
@[simp] theorem State.l1Drop_fab (f : L1Word → Bool) : (s.l1Drop f).fab = s.fab := rfl
@[simp] theorem State.l1Drop_svc (f : L1Word → Bool) : (s.l1Drop f).svc = s.svc := rfl

/-! ## modFab -/

@[simp] theorem State.modFab_cycle (f : Fabric → Fabric) : (s.modFab f).cycle = s.cycle := rfl
@[simp] theorem State.modFab_ftime (f : Fabric → Fabric) : (s.modFab f).ftime = s.ftime := rfl
@[simp] theorem State.modFab_ftfrac (f : Fabric → Fabric) : (s.modFab f).ftfrac = s.ftfrac := rfl
@[simp] theorem State.modFab_cur (f : Fabric → Fabric) : (s.modFab f).cur = s.cur := rfl
@[simp] theorem State.modFab_picks (f : Fabric → Fabric) : (s.modFab f).picks = s.picks := rfl
@[simp] theorem State.modFab_woke (f : Fabric → Fabric) : (s.modFab f).woke = s.woke := rfl
@[simp] theorem State.modFab_entered (f : Fabric → Fabric) : (s.modFab f).entered = s.entered := rfl
@[simp] theorem State.modFab_passed (f : Fabric → Fabric) : (s.modFab f).passed = s.passed := rfl
@[simp] theorem State.modFab_arrived (f : Fabric → Fabric) : (s.modFab f).arrived = s.arrived := rfl
@[simp] theorem State.modFab_sfu (f : Fabric → Fabric) : (s.modFab f).sfu = s.sfu := rfl
@[simp] theorem State.modFab_tape (f : Fabric → Fabric) : (s.modFab f).tape = s.tape := rfl
@[simp] theorem State.modFab_nextId (f : Fabric → Fabric) : (s.modFab f).nextId = s.nextId := rfl
@[simp] theorem State.modFab_free (f : Fabric → Fabric) : (s.modFab f).free = s.free := rfl
@[simp] theorem State.modFab_age (f : Fabric → Fabric) : (s.modFab f).age = s.age := rfl
@[simp] theorem State.modFab_crews (f : Fabric → Fabric) : (s.modFab f).crews = s.crews := rfl
@[simp] theorem State.modFab_teams (f : Fabric → Fabric) : (s.modFab f).teams = s.teams := rfl
@[simp] theorem State.modFab_launches (f : Fabric → Fabric) : (s.modFab f).launches = s.launches := rfl
@[simp] theorem State.modFab_seats (f : Fabric → Fabric) : (s.modFab f).seats = s.seats := rfl
@[simp] theorem State.modFab_remote (f : Fabric → Fabric) : (s.modFab f).remote = s.remote := rfl
@[simp] theorem State.modFab_contexts (f : Fabric → Fabric) : (s.modFab f).contexts = s.contexts := rfl
@[simp] theorem State.modFab_parts (f : Fabric → Fabric) : (s.modFab f).parts = s.parts := rfl
@[simp] theorem State.modFab_bays (f : Fabric → Fabric) : (s.modFab f).bays = s.bays := rfl
@[simp] theorem State.modFab_bars (f : Fabric → Fabric) : (s.modFab f).bars = s.bars := rfl
@[simp] theorem State.modFab_barGen (f : Fabric → Fabric) : (s.modFab f).barGen = s.barGen := rfl
@[simp] theorem State.modFab_faultq (f : Fabric → Fabric) : (s.modFab f).faultq = s.faultq := rfl
@[simp] theorem State.modFab_mats (f : Fabric → Fabric) : (s.modFab f).mats = s.mats := rfl
@[simp] theorem State.modFab_tiles (f : Fabric → Fabric) : (s.modFab f).tiles = s.tiles := rfl
@[simp] theorem State.modFab_copies (f : Fabric → Fabric) : (s.modFab f).copies = s.copies := rfl
@[simp] theorem State.modFab_held (f : Fabric → Fabric) : (s.modFab f).held = s.held := rfl
@[simp] theorem State.modFab_shells (f : Fabric → Fabric) : (s.modFab f).shells = s.shells := rfl
@[simp] theorem State.modFab_shpoison (f : Fabric → Fabric) : (s.modFab f).shpoison = s.shpoison := rfl
@[simp] theorem State.modFab_cooling (f : Fabric → Fabric) : (s.modFab f).cooling = s.cooling := rfl
@[simp] theorem State.modFab_shreqs (f : Fabric → Fabric) : (s.modFab f).shreqs = s.shreqs := rfl
@[simp] theorem State.modFab_landings (f : Fabric → Fabric) : (s.modFab f).landings = s.landings := rfl
@[simp] theorem State.modFab_mem (f : Fabric → Fabric) : (s.modFab f).mem = s.mem := rfl
@[simp] theorem State.modFab_mpoison (f : Fabric → Fabric) : (s.modFab f).mpoison = s.mpoison := rfl
@[simp] theorem State.modFab_wseq (f : Fabric → Fabric) : (s.modFab f).wseq = s.wseq := rfl
@[simp] theorem State.modFab_owner (f : Fabric → Fabric) : (s.modFab f).owner = s.owner := rfl
@[simp] theorem State.modFab_l1 (f : Fabric → Fabric) : (s.modFab f).l1 = s.l1 := rfl
@[simp] theorem State.modFab_fused (f : Fabric → Fabric) : (s.modFab f).fused = s.fused := rfl
@[simp] theorem State.modFab_regs (f : Fabric → Fabric) : (s.modFab f).regs = s.regs := rfl
@[simp] theorem State.modFab_adds (f : Fabric → Fabric) : (s.modFab f).adds = s.adds := rfl
@[simp] theorem State.modFab_acks (f : Fabric → Fabric) : (s.modFab f).acks = s.acks := rfl
@[simp] theorem State.modFab_l2 (f : Fabric → Fabric) : (s.modFab f).l2 = s.l2 := rfl
@[simp] theorem State.modFab_mirrors (f : Fabric → Fabric) : (s.modFab f).mirrors = s.mirrors := rfl
@[simp] theorem State.modFab_misses (f : Fabric → Fabric) : (s.modFab f).misses = s.misses := rfl
@[simp] theorem State.modFab_spillq (f : Fabric → Fabric) : (s.modFab f).spillq = s.spillq := rfl
@[simp] theorem State.modFab_wfill (f : Fabric → Fabric) : (s.modFab f).wfill = s.wfill := rfl
@[simp] theorem State.modFab_icache (f : Fabric → Fabric) : (s.modFab f).icache = s.icache := rfl
@[simp] theorem State.modFab_levels (f : Fabric → Fabric) : (s.modFab f).levels = s.levels := rfl
@[simp] theorem State.modFab_ticks (f : Fabric → Fabric) : (s.modFab f).ticks = s.ticks := rfl
@[simp] theorem State.modFab_tlb (f : Fabric → Fabric) : (s.modFab f).tlb = s.tlb := rfl
@[simp] theorem State.modFab_fab (f : Fabric → Fabric) : (s.modFab f).fab = f s.fab := rfl
@[simp] theorem State.modFab_svc (f : Fabric → Fabric) : (s.modFab f).svc = s.svc := rfl

/-! ## modSvc -/

@[simp] theorem State.modSvc_cycle (f : Service → Service) : (s.modSvc f).cycle = s.cycle := rfl
@[simp] theorem State.modSvc_ftime (f : Service → Service) : (s.modSvc f).ftime = s.ftime := rfl
@[simp] theorem State.modSvc_ftfrac (f : Service → Service) : (s.modSvc f).ftfrac = s.ftfrac := rfl
@[simp] theorem State.modSvc_cur (f : Service → Service) : (s.modSvc f).cur = s.cur := rfl
@[simp] theorem State.modSvc_picks (f : Service → Service) : (s.modSvc f).picks = s.picks := rfl
@[simp] theorem State.modSvc_woke (f : Service → Service) : (s.modSvc f).woke = s.woke := rfl
@[simp] theorem State.modSvc_entered (f : Service → Service) : (s.modSvc f).entered = s.entered := rfl
@[simp] theorem State.modSvc_passed (f : Service → Service) : (s.modSvc f).passed = s.passed := rfl
@[simp] theorem State.modSvc_arrived (f : Service → Service) : (s.modSvc f).arrived = s.arrived := rfl
@[simp] theorem State.modSvc_sfu (f : Service → Service) : (s.modSvc f).sfu = s.sfu := rfl
@[simp] theorem State.modSvc_tape (f : Service → Service) : (s.modSvc f).tape = s.tape := rfl
@[simp] theorem State.modSvc_nextId (f : Service → Service) : (s.modSvc f).nextId = s.nextId := rfl
@[simp] theorem State.modSvc_free (f : Service → Service) : (s.modSvc f).free = s.free := rfl
@[simp] theorem State.modSvc_age (f : Service → Service) : (s.modSvc f).age = s.age := rfl
@[simp] theorem State.modSvc_crews (f : Service → Service) : (s.modSvc f).crews = s.crews := rfl
@[simp] theorem State.modSvc_teams (f : Service → Service) : (s.modSvc f).teams = s.teams := rfl
@[simp] theorem State.modSvc_launches (f : Service → Service) : (s.modSvc f).launches = s.launches := rfl
@[simp] theorem State.modSvc_seats (f : Service → Service) : (s.modSvc f).seats = s.seats := rfl
@[simp] theorem State.modSvc_remote (f : Service → Service) : (s.modSvc f).remote = s.remote := rfl
@[simp] theorem State.modSvc_contexts (f : Service → Service) : (s.modSvc f).contexts = s.contexts := rfl
@[simp] theorem State.modSvc_parts (f : Service → Service) : (s.modSvc f).parts = s.parts := rfl
@[simp] theorem State.modSvc_bays (f : Service → Service) : (s.modSvc f).bays = s.bays := rfl
@[simp] theorem State.modSvc_bars (f : Service → Service) : (s.modSvc f).bars = s.bars := rfl
@[simp] theorem State.modSvc_barGen (f : Service → Service) : (s.modSvc f).barGen = s.barGen := rfl
@[simp] theorem State.modSvc_faultq (f : Service → Service) : (s.modSvc f).faultq = s.faultq := rfl
@[simp] theorem State.modSvc_mats (f : Service → Service) : (s.modSvc f).mats = s.mats := rfl
@[simp] theorem State.modSvc_tiles (f : Service → Service) : (s.modSvc f).tiles = s.tiles := rfl
@[simp] theorem State.modSvc_copies (f : Service → Service) : (s.modSvc f).copies = s.copies := rfl
@[simp] theorem State.modSvc_held (f : Service → Service) : (s.modSvc f).held = s.held := rfl
@[simp] theorem State.modSvc_shells (f : Service → Service) : (s.modSvc f).shells = s.shells := rfl
@[simp] theorem State.modSvc_shpoison (f : Service → Service) : (s.modSvc f).shpoison = s.shpoison := rfl
@[simp] theorem State.modSvc_cooling (f : Service → Service) : (s.modSvc f).cooling = s.cooling := rfl
@[simp] theorem State.modSvc_shreqs (f : Service → Service) : (s.modSvc f).shreqs = s.shreqs := rfl
@[simp] theorem State.modSvc_landings (f : Service → Service) : (s.modSvc f).landings = s.landings := rfl
@[simp] theorem State.modSvc_mem (f : Service → Service) : (s.modSvc f).mem = s.mem := rfl
@[simp] theorem State.modSvc_mpoison (f : Service → Service) : (s.modSvc f).mpoison = s.mpoison := rfl
@[simp] theorem State.modSvc_wseq (f : Service → Service) : (s.modSvc f).wseq = s.wseq := rfl
@[simp] theorem State.modSvc_owner (f : Service → Service) : (s.modSvc f).owner = s.owner := rfl
@[simp] theorem State.modSvc_l1 (f : Service → Service) : (s.modSvc f).l1 = s.l1 := rfl
@[simp] theorem State.modSvc_fused (f : Service → Service) : (s.modSvc f).fused = s.fused := rfl
@[simp] theorem State.modSvc_regs (f : Service → Service) : (s.modSvc f).regs = s.regs := rfl
@[simp] theorem State.modSvc_adds (f : Service → Service) : (s.modSvc f).adds = s.adds := rfl
@[simp] theorem State.modSvc_acks (f : Service → Service) : (s.modSvc f).acks = s.acks := rfl
@[simp] theorem State.modSvc_l2 (f : Service → Service) : (s.modSvc f).l2 = s.l2 := rfl
@[simp] theorem State.modSvc_mirrors (f : Service → Service) : (s.modSvc f).mirrors = s.mirrors := rfl
@[simp] theorem State.modSvc_misses (f : Service → Service) : (s.modSvc f).misses = s.misses := rfl
@[simp] theorem State.modSvc_spillq (f : Service → Service) : (s.modSvc f).spillq = s.spillq := rfl
@[simp] theorem State.modSvc_wfill (f : Service → Service) : (s.modSvc f).wfill = s.wfill := rfl
@[simp] theorem State.modSvc_icache (f : Service → Service) : (s.modSvc f).icache = s.icache := rfl
@[simp] theorem State.modSvc_levels (f : Service → Service) : (s.modSvc f).levels = s.levels := rfl
@[simp] theorem State.modSvc_ticks (f : Service → Service) : (s.modSvc f).ticks = s.ticks := rfl
@[simp] theorem State.modSvc_tlb (f : Service → Service) : (s.modSvc f).tlb = s.tlb := rfl
@[simp] theorem State.modSvc_fab (f : Service → Service) : (s.modSvc f).fab = s.fab := rfl
@[simp] theorem State.modSvc_svc (f : Service → Service) : (s.modSvc f).svc = f s.svc := rfl

/-! ## modBay -/

@[simp] theorem State.modBay_cycle (b : Nat) (f : Bay → Bay) : (s.modBay b f).cycle = s.cycle := rfl
@[simp] theorem State.modBay_ftime (b : Nat) (f : Bay → Bay) : (s.modBay b f).ftime = s.ftime := rfl
@[simp] theorem State.modBay_ftfrac (b : Nat) (f : Bay → Bay) : (s.modBay b f).ftfrac = s.ftfrac := rfl
@[simp] theorem State.modBay_cur (b : Nat) (f : Bay → Bay) : (s.modBay b f).cur = s.cur := rfl
@[simp] theorem State.modBay_picks (b : Nat) (f : Bay → Bay) : (s.modBay b f).picks = s.picks := rfl
@[simp] theorem State.modBay_woke (b : Nat) (f : Bay → Bay) : (s.modBay b f).woke = s.woke := rfl
@[simp] theorem State.modBay_entered (b : Nat) (f : Bay → Bay) : (s.modBay b f).entered = s.entered := rfl
@[simp] theorem State.modBay_passed (b : Nat) (f : Bay → Bay) : (s.modBay b f).passed = s.passed := rfl
@[simp] theorem State.modBay_arrived (b : Nat) (f : Bay → Bay) : (s.modBay b f).arrived = s.arrived := rfl
@[simp] theorem State.modBay_sfu (b : Nat) (f : Bay → Bay) : (s.modBay b f).sfu = s.sfu := rfl
@[simp] theorem State.modBay_tape (b : Nat) (f : Bay → Bay) : (s.modBay b f).tape = s.tape := rfl
@[simp] theorem State.modBay_nextId (b : Nat) (f : Bay → Bay) : (s.modBay b f).nextId = s.nextId := rfl
@[simp] theorem State.modBay_free (b : Nat) (f : Bay → Bay) : (s.modBay b f).free = s.free := rfl
@[simp] theorem State.modBay_age (b : Nat) (f : Bay → Bay) : (s.modBay b f).age = s.age := rfl
@[simp] theorem State.modBay_crews (b : Nat) (f : Bay → Bay) : (s.modBay b f).crews = s.crews := rfl
@[simp] theorem State.modBay_teams (b : Nat) (f : Bay → Bay) : (s.modBay b f).teams = s.teams := rfl
@[simp] theorem State.modBay_launches (b : Nat) (f : Bay → Bay) : (s.modBay b f).launches = s.launches := rfl
@[simp] theorem State.modBay_seats (b : Nat) (f : Bay → Bay) : (s.modBay b f).seats = s.seats := rfl
@[simp] theorem State.modBay_remote (b : Nat) (f : Bay → Bay) : (s.modBay b f).remote = s.remote := rfl
@[simp] theorem State.modBay_contexts (b : Nat) (f : Bay → Bay) : (s.modBay b f).contexts = s.contexts := rfl
@[simp] theorem State.modBay_parts (b : Nat) (f : Bay → Bay) : (s.modBay b f).parts = s.parts := rfl
@[simp] theorem State.modBay_bars (b : Nat) (f : Bay → Bay) : (s.modBay b f).bars = s.bars := rfl
@[simp] theorem State.modBay_barGen (b : Nat) (f : Bay → Bay) : (s.modBay b f).barGen = s.barGen := rfl
@[simp] theorem State.modBay_faultq (b : Nat) (f : Bay → Bay) : (s.modBay b f).faultq = s.faultq := rfl
@[simp] theorem State.modBay_mats (b : Nat) (f : Bay → Bay) : (s.modBay b f).mats = s.mats := rfl
@[simp] theorem State.modBay_tiles (b : Nat) (f : Bay → Bay) : (s.modBay b f).tiles = s.tiles := rfl
@[simp] theorem State.modBay_copies (b : Nat) (f : Bay → Bay) : (s.modBay b f).copies = s.copies := rfl
@[simp] theorem State.modBay_held (b : Nat) (f : Bay → Bay) : (s.modBay b f).held = s.held := rfl
@[simp] theorem State.modBay_shells (b : Nat) (f : Bay → Bay) : (s.modBay b f).shells = s.shells := rfl
@[simp] theorem State.modBay_shpoison (b : Nat) (f : Bay → Bay) : (s.modBay b f).shpoison = s.shpoison := rfl
@[simp] theorem State.modBay_cooling (b : Nat) (f : Bay → Bay) : (s.modBay b f).cooling = s.cooling := rfl
@[simp] theorem State.modBay_shreqs (b : Nat) (f : Bay → Bay) : (s.modBay b f).shreqs = s.shreqs := rfl
@[simp] theorem State.modBay_landings (b : Nat) (f : Bay → Bay) : (s.modBay b f).landings = s.landings := rfl
@[simp] theorem State.modBay_mem (b : Nat) (f : Bay → Bay) : (s.modBay b f).mem = s.mem := rfl
@[simp] theorem State.modBay_mpoison (b : Nat) (f : Bay → Bay) : (s.modBay b f).mpoison = s.mpoison := rfl
@[simp] theorem State.modBay_wseq (b : Nat) (f : Bay → Bay) : (s.modBay b f).wseq = s.wseq := rfl
@[simp] theorem State.modBay_owner (b : Nat) (f : Bay → Bay) : (s.modBay b f).owner = s.owner := rfl
@[simp] theorem State.modBay_l1 (b : Nat) (f : Bay → Bay) : (s.modBay b f).l1 = s.l1 := rfl
@[simp] theorem State.modBay_fused (b : Nat) (f : Bay → Bay) : (s.modBay b f).fused = s.fused := rfl
@[simp] theorem State.modBay_regs (b : Nat) (f : Bay → Bay) : (s.modBay b f).regs = s.regs := rfl
@[simp] theorem State.modBay_adds (b : Nat) (f : Bay → Bay) : (s.modBay b f).adds = s.adds := rfl
@[simp] theorem State.modBay_acks (b : Nat) (f : Bay → Bay) : (s.modBay b f).acks = s.acks := rfl
@[simp] theorem State.modBay_l2 (b : Nat) (f : Bay → Bay) : (s.modBay b f).l2 = s.l2 := rfl
@[simp] theorem State.modBay_mirrors (b : Nat) (f : Bay → Bay) : (s.modBay b f).mirrors = s.mirrors := rfl
@[simp] theorem State.modBay_misses (b : Nat) (f : Bay → Bay) : (s.modBay b f).misses = s.misses := rfl
@[simp] theorem State.modBay_spillq (b : Nat) (f : Bay → Bay) : (s.modBay b f).spillq = s.spillq := rfl
@[simp] theorem State.modBay_wfill (b : Nat) (f : Bay → Bay) : (s.modBay b f).wfill = s.wfill := rfl
@[simp] theorem State.modBay_icache (b : Nat) (f : Bay → Bay) : (s.modBay b f).icache = s.icache := rfl
@[simp] theorem State.modBay_levels (b : Nat) (f : Bay → Bay) : (s.modBay b f).levels = s.levels := rfl
@[simp] theorem State.modBay_ticks (b : Nat) (f : Bay → Bay) : (s.modBay b f).ticks = s.ticks := rfl
@[simp] theorem State.modBay_tlb (b : Nat) (f : Bay → Bay) : (s.modBay b f).tlb = s.tlb := rfl
@[simp] theorem State.modBay_fab (b : Nat) (f : Bay → Bay) : (s.modBay b f).fab = s.fab := rfl
@[simp] theorem State.modBay_svc (b : Nat) (f : Bay → Bay) : (s.modBay b f).svc = s.svc := rfl

/-! ## finish -/

@[simp] theorem State.finish_cycle : (s.finish).cycle = s.cycle := rfl
@[simp] theorem State.finish_ftime : (s.finish).ftime = s.ftime := rfl
@[simp] theorem State.finish_ftfrac : (s.finish).ftfrac = s.ftfrac := rfl
@[simp] theorem State.finish_cur : (s.finish).cur = none := rfl
@[simp] theorem State.finish_picks : (s.finish).picks = s.picks := rfl
@[simp] theorem State.finish_woke : (s.finish).woke = s.woke := rfl
@[simp] theorem State.finish_entered : (s.finish).entered = s.entered := rfl
@[simp] theorem State.finish_passed : (s.finish).passed = s.passed := rfl
@[simp] theorem State.finish_arrived : (s.finish).arrived = s.arrived := rfl
@[simp] theorem State.finish_sfu : (s.finish).sfu = s.sfu := rfl
@[simp] theorem State.finish_tape : (s.finish).tape = s.tape := rfl
@[simp] theorem State.finish_nextId : (s.finish).nextId = s.nextId := rfl
@[simp] theorem State.finish_free : (s.finish).free = s.free := rfl
@[simp] theorem State.finish_age : (s.finish).age = s.age := rfl
@[simp] theorem State.finish_crews : (s.finish).crews = s.crews := rfl
@[simp] theorem State.finish_teams : (s.finish).teams = s.teams := rfl
@[simp] theorem State.finish_launches : (s.finish).launches = s.launches := rfl
@[simp] theorem State.finish_seats : (s.finish).seats = s.seats := rfl
@[simp] theorem State.finish_remote : (s.finish).remote = s.remote := rfl
@[simp] theorem State.finish_contexts : (s.finish).contexts = s.contexts := rfl
@[simp] theorem State.finish_parts : (s.finish).parts = s.parts := rfl
@[simp] theorem State.finish_bays : (s.finish).bays = s.bays := rfl
@[simp] theorem State.finish_bars : (s.finish).bars = s.bars := rfl
@[simp] theorem State.finish_barGen : (s.finish).barGen = s.barGen := rfl
@[simp] theorem State.finish_faultq : (s.finish).faultq = s.faultq := rfl
@[simp] theorem State.finish_mats : (s.finish).mats = s.mats := rfl
@[simp] theorem State.finish_tiles : (s.finish).tiles = s.tiles := rfl
@[simp] theorem State.finish_copies : (s.finish).copies = s.copies := rfl
@[simp] theorem State.finish_held : (s.finish).held = s.held := rfl
@[simp] theorem State.finish_shells : (s.finish).shells = s.shells := rfl
@[simp] theorem State.finish_shpoison : (s.finish).shpoison = s.shpoison := rfl
@[simp] theorem State.finish_cooling : (s.finish).cooling = s.cooling := rfl
@[simp] theorem State.finish_shreqs : (s.finish).shreqs = s.shreqs := rfl
@[simp] theorem State.finish_landings : (s.finish).landings = s.landings := rfl
@[simp] theorem State.finish_mem : (s.finish).mem = s.mem := rfl
@[simp] theorem State.finish_mpoison : (s.finish).mpoison = s.mpoison := rfl
@[simp] theorem State.finish_wseq : (s.finish).wseq = s.wseq := rfl
@[simp] theorem State.finish_owner : (s.finish).owner = s.owner := rfl
@[simp] theorem State.finish_l1 : (s.finish).l1 = s.l1 := rfl
@[simp] theorem State.finish_fused : (s.finish).fused = s.fused := rfl
@[simp] theorem State.finish_regs : (s.finish).regs = s.regs := rfl
@[simp] theorem State.finish_adds : (s.finish).adds = s.adds := rfl
@[simp] theorem State.finish_acks : (s.finish).acks = s.acks := rfl
@[simp] theorem State.finish_l2 : (s.finish).l2 = s.l2 := rfl
@[simp] theorem State.finish_mirrors : (s.finish).mirrors = s.mirrors := rfl
@[simp] theorem State.finish_misses : (s.finish).misses = s.misses := rfl
@[simp] theorem State.finish_spillq : (s.finish).spillq = s.spillq := rfl
@[simp] theorem State.finish_wfill : (s.finish).wfill = s.wfill := rfl
@[simp] theorem State.finish_icache : (s.finish).icache = s.icache := rfl
@[simp] theorem State.finish_levels : (s.finish).levels = s.levels := rfl
@[simp] theorem State.finish_ticks : (s.finish).ticks = s.ticks := rfl
@[simp] theorem State.finish_tlb : (s.finish).tlb = s.tlb := rfl
@[simp] theorem State.finish_fab : (s.finish).fab = s.fab := rfl
@[simp] theorem State.finish_svc : (s.finish).svc = s.svc := rfl

/-! ## notePick -/

@[simp] theorem State.notePick_cycle (c : Crew) (p : Split) (n : Needs) : (s.notePick c p n).cycle = s.cycle := rfl
@[simp] theorem State.notePick_ftime (c : Crew) (p : Split) (n : Needs) : (s.notePick c p n).ftime = s.ftime := rfl
@[simp] theorem State.notePick_ftfrac (c : Crew) (p : Split) (n : Needs) : (s.notePick c p n).ftfrac = s.ftfrac := rfl
@[simp] theorem State.notePick_cur (c : Crew) (p : Split) (n : Needs) : (s.notePick c p n).cur = s.cur := rfl
@[simp] theorem State.notePick_woke (c : Crew) (p : Split) (n : Needs) : (s.notePick c p n).woke = s.woke := rfl
@[simp] theorem State.notePick_entered (c : Crew) (p : Split) (n : Needs) : (s.notePick c p n).entered = s.entered := rfl
@[simp] theorem State.notePick_passed (c : Crew) (p : Split) (n : Needs) : (s.notePick c p n).passed = s.passed := rfl
@[simp] theorem State.notePick_arrived (c : Crew) (p : Split) (n : Needs) : (s.notePick c p n).arrived = s.arrived := rfl
@[simp] theorem State.notePick_tape (c : Crew) (p : Split) (n : Needs) : (s.notePick c p n).tape = s.tape := rfl
@[simp] theorem State.notePick_nextId (c : Crew) (p : Split) (n : Needs) : (s.notePick c p n).nextId = s.nextId := rfl
@[simp] theorem State.notePick_free (c : Crew) (p : Split) (n : Needs) : (s.notePick c p n).free = s.free := rfl
@[simp] theorem State.notePick_age (c : Crew) (p : Split) (n : Needs) : (s.notePick c p n).age = s.age := rfl
@[simp] theorem State.notePick_crews (c : Crew) (p : Split) (n : Needs) : (s.notePick c p n).crews = s.crews := rfl
@[simp] theorem State.notePick_teams (c : Crew) (p : Split) (n : Needs) : (s.notePick c p n).teams = s.teams := rfl
@[simp] theorem State.notePick_launches (c : Crew) (p : Split) (n : Needs) : (s.notePick c p n).launches = s.launches := rfl
@[simp] theorem State.notePick_seats (c : Crew) (p : Split) (n : Needs) : (s.notePick c p n).seats = s.seats := rfl
@[simp] theorem State.notePick_remote (c : Crew) (p : Split) (n : Needs) : (s.notePick c p n).remote = s.remote := rfl
@[simp] theorem State.notePick_contexts (c : Crew) (p : Split) (n : Needs) : (s.notePick c p n).contexts = s.contexts := rfl
@[simp] theorem State.notePick_parts (c : Crew) (p : Split) (n : Needs) : (s.notePick c p n).parts = s.parts := rfl
@[simp] theorem State.notePick_bays (c : Crew) (p : Split) (n : Needs) : (s.notePick c p n).bays = s.bays := rfl
@[simp] theorem State.notePick_bars (c : Crew) (p : Split) (n : Needs) : (s.notePick c p n).bars = s.bars := rfl
@[simp] theorem State.notePick_barGen (c : Crew) (p : Split) (n : Needs) : (s.notePick c p n).barGen = s.barGen := rfl
@[simp] theorem State.notePick_faultq (c : Crew) (p : Split) (n : Needs) : (s.notePick c p n).faultq = s.faultq := rfl
@[simp] theorem State.notePick_mats (c : Crew) (p : Split) (n : Needs) : (s.notePick c p n).mats = s.mats := rfl
@[simp] theorem State.notePick_tiles (c : Crew) (p : Split) (n : Needs) : (s.notePick c p n).tiles = s.tiles := rfl
@[simp] theorem State.notePick_copies (c : Crew) (p : Split) (n : Needs) : (s.notePick c p n).copies = s.copies := rfl
@[simp] theorem State.notePick_held (c : Crew) (p : Split) (n : Needs) : (s.notePick c p n).held = s.held := rfl
@[simp] theorem State.notePick_shells (c : Crew) (p : Split) (n : Needs) : (s.notePick c p n).shells = s.shells := rfl
@[simp] theorem State.notePick_shpoison (c : Crew) (p : Split) (n : Needs) : (s.notePick c p n).shpoison = s.shpoison := rfl
@[simp] theorem State.notePick_cooling (c : Crew) (p : Split) (n : Needs) : (s.notePick c p n).cooling = s.cooling := rfl
@[simp] theorem State.notePick_shreqs (c : Crew) (p : Split) (n : Needs) : (s.notePick c p n).shreqs = s.shreqs := rfl
@[simp] theorem State.notePick_landings (c : Crew) (p : Split) (n : Needs) : (s.notePick c p n).landings = s.landings := rfl
@[simp] theorem State.notePick_mem (c : Crew) (p : Split) (n : Needs) : (s.notePick c p n).mem = s.mem := rfl
@[simp] theorem State.notePick_mpoison (c : Crew) (p : Split) (n : Needs) : (s.notePick c p n).mpoison = s.mpoison := rfl
@[simp] theorem State.notePick_wseq (c : Crew) (p : Split) (n : Needs) : (s.notePick c p n).wseq = s.wseq := rfl
@[simp] theorem State.notePick_owner (c : Crew) (p : Split) (n : Needs) : (s.notePick c p n).owner = s.owner := rfl
@[simp] theorem State.notePick_l1 (c : Crew) (p : Split) (n : Needs) : (s.notePick c p n).l1 = s.l1 := rfl
@[simp] theorem State.notePick_fused (c : Crew) (p : Split) (n : Needs) : (s.notePick c p n).fused = s.fused := rfl
@[simp] theorem State.notePick_regs (c : Crew) (p : Split) (n : Needs) : (s.notePick c p n).regs = s.regs := rfl
@[simp] theorem State.notePick_adds (c : Crew) (p : Split) (n : Needs) : (s.notePick c p n).adds = s.adds := rfl
@[simp] theorem State.notePick_acks (c : Crew) (p : Split) (n : Needs) : (s.notePick c p n).acks = s.acks := rfl
@[simp] theorem State.notePick_l2 (c : Crew) (p : Split) (n : Needs) : (s.notePick c p n).l2 = s.l2 := rfl
@[simp] theorem State.notePick_mirrors (c : Crew) (p : Split) (n : Needs) : (s.notePick c p n).mirrors = s.mirrors := rfl
@[simp] theorem State.notePick_misses (c : Crew) (p : Split) (n : Needs) : (s.notePick c p n).misses = s.misses := rfl
@[simp] theorem State.notePick_spillq (c : Crew) (p : Split) (n : Needs) : (s.notePick c p n).spillq = s.spillq := rfl
@[simp] theorem State.notePick_wfill (c : Crew) (p : Split) (n : Needs) : (s.notePick c p n).wfill = s.wfill := rfl
@[simp] theorem State.notePick_icache (c : Crew) (p : Split) (n : Needs) : (s.notePick c p n).icache = s.icache := rfl
@[simp] theorem State.notePick_levels (c : Crew) (p : Split) (n : Needs) : (s.notePick c p n).levels = s.levels := rfl
@[simp] theorem State.notePick_ticks (c : Crew) (p : Split) (n : Needs) : (s.notePick c p n).ticks = s.ticks := rfl
@[simp] theorem State.notePick_tlb (c : Crew) (p : Split) (n : Needs) : (s.notePick c p n).tlb = s.tlb := rfl
@[simp] theorem State.notePick_fab (c : Crew) (p : Split) (n : Needs) : (s.notePick c p n).fab = s.fab := rfl
@[simp] theorem State.notePick_svc (c : Crew) (p : Split) (n : Needs) : (s.notePick c p n).svc = s.svc := rfl

/-! ## releaseHeld -/

@[simp] theorem State.releaseHeld_cycle : (s.releaseHeld).cycle = s.cycle := rfl
@[simp] theorem State.releaseHeld_ftime : (s.releaseHeld).ftime = s.ftime := rfl
@[simp] theorem State.releaseHeld_ftfrac : (s.releaseHeld).ftfrac = s.ftfrac := rfl
@[simp] theorem State.releaseHeld_cur : (s.releaseHeld).cur = s.cur := rfl
@[simp] theorem State.releaseHeld_picks : (s.releaseHeld).picks = s.picks := rfl
@[simp] theorem State.releaseHeld_woke : (s.releaseHeld).woke = s.woke := rfl
@[simp] theorem State.releaseHeld_entered : (s.releaseHeld).entered = s.entered := rfl
@[simp] theorem State.releaseHeld_passed : (s.releaseHeld).passed = s.passed := rfl
@[simp] theorem State.releaseHeld_arrived : (s.releaseHeld).arrived = s.arrived := rfl
@[simp] theorem State.releaseHeld_sfu : (s.releaseHeld).sfu = s.sfu := rfl
@[simp] theorem State.releaseHeld_tape : (s.releaseHeld).tape = s.tape := rfl
@[simp] theorem State.releaseHeld_nextId : (s.releaseHeld).nextId = s.nextId := rfl
@[simp] theorem State.releaseHeld_free : (s.releaseHeld).free = s.free := rfl
@[simp] theorem State.releaseHeld_age : (s.releaseHeld).age = s.age := rfl
@[simp] theorem State.releaseHeld_crews : (s.releaseHeld).crews = s.crews := rfl
@[simp] theorem State.releaseHeld_teams : (s.releaseHeld).teams = s.teams := rfl
@[simp] theorem State.releaseHeld_seats : (s.releaseHeld).seats = s.seats := rfl
@[simp] theorem State.releaseHeld_remote : (s.releaseHeld).remote = s.remote := rfl
@[simp] theorem State.releaseHeld_contexts : (s.releaseHeld).contexts = s.contexts := rfl
@[simp] theorem State.releaseHeld_parts : (s.releaseHeld).parts = s.parts := rfl
@[simp] theorem State.releaseHeld_bays : (s.releaseHeld).bays = s.bays := rfl
@[simp] theorem State.releaseHeld_bars : (s.releaseHeld).bars = s.bars := rfl
@[simp] theorem State.releaseHeld_barGen : (s.releaseHeld).barGen = s.barGen := rfl
@[simp] theorem State.releaseHeld_faultq : (s.releaseHeld).faultq = s.faultq := rfl
@[simp] theorem State.releaseHeld_mats : (s.releaseHeld).mats = s.mats := rfl
@[simp] theorem State.releaseHeld_tiles : (s.releaseHeld).tiles = s.tiles := rfl
@[simp] theorem State.releaseHeld_copies : (s.releaseHeld).copies = s.copies := rfl
@[simp] theorem State.releaseHeld_held : (s.releaseHeld).held = s.held := rfl
@[simp] theorem State.releaseHeld_shells : (s.releaseHeld).shells = s.shells := rfl
@[simp] theorem State.releaseHeld_shpoison : (s.releaseHeld).shpoison = s.shpoison := rfl
@[simp] theorem State.releaseHeld_cooling : (s.releaseHeld).cooling = s.cooling := rfl
@[simp] theorem State.releaseHeld_shreqs : (s.releaseHeld).shreqs = s.shreqs := rfl
@[simp] theorem State.releaseHeld_landings : (s.releaseHeld).landings = s.landings := rfl
@[simp] theorem State.releaseHeld_mem : (s.releaseHeld).mem = s.mem := rfl
@[simp] theorem State.releaseHeld_mpoison : (s.releaseHeld).mpoison = s.mpoison := rfl
@[simp] theorem State.releaseHeld_wseq : (s.releaseHeld).wseq = s.wseq := rfl
@[simp] theorem State.releaseHeld_owner : (s.releaseHeld).owner = s.owner := rfl
@[simp] theorem State.releaseHeld_l1 : (s.releaseHeld).l1 = s.l1 := rfl
@[simp] theorem State.releaseHeld_fused : (s.releaseHeld).fused = s.fused := rfl
@[simp] theorem State.releaseHeld_regs : (s.releaseHeld).regs = s.regs := rfl
@[simp] theorem State.releaseHeld_adds : (s.releaseHeld).adds = s.adds := rfl
@[simp] theorem State.releaseHeld_acks : (s.releaseHeld).acks = s.acks := rfl
@[simp] theorem State.releaseHeld_l2 : (s.releaseHeld).l2 = s.l2 := rfl
@[simp] theorem State.releaseHeld_mirrors : (s.releaseHeld).mirrors = s.mirrors := rfl
@[simp] theorem State.releaseHeld_misses : (s.releaseHeld).misses = s.misses := rfl
@[simp] theorem State.releaseHeld_spillq : (s.releaseHeld).spillq = s.spillq := rfl
@[simp] theorem State.releaseHeld_wfill : (s.releaseHeld).wfill = s.wfill := rfl
@[simp] theorem State.releaseHeld_icache : (s.releaseHeld).icache = s.icache := rfl
@[simp] theorem State.releaseHeld_levels : (s.releaseHeld).levels = s.levels := rfl
@[simp] theorem State.releaseHeld_ticks : (s.releaseHeld).ticks = s.ticks := rfl
@[simp] theorem State.releaseHeld_tlb : (s.releaseHeld).tlb = s.tlb := rfl
@[simp] theorem State.releaseHeld_fab : (s.releaseHeld).fab = s.fab := rfl
@[simp] theorem State.releaseHeld_svc : (s.releaseHeld).svc = s.svc := rfl

/-! ## noteTick -/

@[simp] theorem State.noteTick_cycle (k : Nat) : (s.noteTick k).cycle = s.cycle := rfl
@[simp] theorem State.noteTick_ftime (k : Nat) : (s.noteTick k).ftime = s.ftime := rfl
@[simp] theorem State.noteTick_ftfrac (k : Nat) : (s.noteTick k).ftfrac = s.ftfrac := rfl
@[simp] theorem State.noteTick_cur (k : Nat) : (s.noteTick k).cur = s.cur := rfl
@[simp] theorem State.noteTick_picks (k : Nat) : (s.noteTick k).picks = s.picks := rfl
@[simp] theorem State.noteTick_woke (k : Nat) : (s.noteTick k).woke = s.woke := rfl
@[simp] theorem State.noteTick_entered (k : Nat) : (s.noteTick k).entered = s.entered := rfl
@[simp] theorem State.noteTick_passed (k : Nat) : (s.noteTick k).passed = s.passed := rfl
@[simp] theorem State.noteTick_arrived (k : Nat) : (s.noteTick k).arrived = s.arrived := rfl
@[simp] theorem State.noteTick_sfu (k : Nat) : (s.noteTick k).sfu = s.sfu := rfl
@[simp] theorem State.noteTick_tape (k : Nat) : (s.noteTick k).tape = s.tape := rfl
@[simp] theorem State.noteTick_nextId (k : Nat) : (s.noteTick k).nextId = s.nextId := rfl
@[simp] theorem State.noteTick_free (k : Nat) : (s.noteTick k).free = s.free := rfl
@[simp] theorem State.noteTick_age (k : Nat) : (s.noteTick k).age = s.age := rfl
@[simp] theorem State.noteTick_crews (k : Nat) : (s.noteTick k).crews = s.crews := rfl
@[simp] theorem State.noteTick_teams (k : Nat) : (s.noteTick k).teams = s.teams := rfl
@[simp] theorem State.noteTick_launches (k : Nat) : (s.noteTick k).launches = s.launches := rfl
@[simp] theorem State.noteTick_seats (k : Nat) : (s.noteTick k).seats = s.seats := rfl
@[simp] theorem State.noteTick_remote (k : Nat) : (s.noteTick k).remote = s.remote := rfl
@[simp] theorem State.noteTick_contexts (k : Nat) : (s.noteTick k).contexts = s.contexts := rfl
@[simp] theorem State.noteTick_parts (k : Nat) : (s.noteTick k).parts = s.parts := rfl
@[simp] theorem State.noteTick_bays (k : Nat) : (s.noteTick k).bays = s.bays := rfl
@[simp] theorem State.noteTick_bars (k : Nat) : (s.noteTick k).bars = s.bars := rfl
@[simp] theorem State.noteTick_barGen (k : Nat) : (s.noteTick k).barGen = s.barGen := rfl
@[simp] theorem State.noteTick_faultq (k : Nat) : (s.noteTick k).faultq = s.faultq := rfl
@[simp] theorem State.noteTick_mats (k : Nat) : (s.noteTick k).mats = s.mats := rfl
@[simp] theorem State.noteTick_tiles (k : Nat) : (s.noteTick k).tiles = s.tiles := rfl
@[simp] theorem State.noteTick_copies (k : Nat) : (s.noteTick k).copies = s.copies := rfl
@[simp] theorem State.noteTick_held (k : Nat) : (s.noteTick k).held = s.held := rfl
@[simp] theorem State.noteTick_shells (k : Nat) : (s.noteTick k).shells = s.shells := rfl
@[simp] theorem State.noteTick_shpoison (k : Nat) : (s.noteTick k).shpoison = s.shpoison := rfl
@[simp] theorem State.noteTick_cooling (k : Nat) : (s.noteTick k).cooling = s.cooling := rfl
@[simp] theorem State.noteTick_shreqs (k : Nat) : (s.noteTick k).shreqs = s.shreqs := rfl
@[simp] theorem State.noteTick_landings (k : Nat) : (s.noteTick k).landings = s.landings := rfl
@[simp] theorem State.noteTick_mem (k : Nat) : (s.noteTick k).mem = s.mem := rfl
@[simp] theorem State.noteTick_mpoison (k : Nat) : (s.noteTick k).mpoison = s.mpoison := rfl
@[simp] theorem State.noteTick_wseq (k : Nat) : (s.noteTick k).wseq = s.wseq := rfl
@[simp] theorem State.noteTick_owner (k : Nat) : (s.noteTick k).owner = s.owner := rfl
@[simp] theorem State.noteTick_l1 (k : Nat) : (s.noteTick k).l1 = s.l1 := rfl
@[simp] theorem State.noteTick_fused (k : Nat) : (s.noteTick k).fused = s.fused := rfl
@[simp] theorem State.noteTick_regs (k : Nat) : (s.noteTick k).regs = s.regs := rfl
@[simp] theorem State.noteTick_adds (k : Nat) : (s.noteTick k).adds = s.adds := rfl
@[simp] theorem State.noteTick_acks (k : Nat) : (s.noteTick k).acks = s.acks := rfl
@[simp] theorem State.noteTick_l2 (k : Nat) : (s.noteTick k).l2 = s.l2 := rfl
@[simp] theorem State.noteTick_mirrors (k : Nat) : (s.noteTick k).mirrors = s.mirrors := rfl
@[simp] theorem State.noteTick_misses (k : Nat) : (s.noteTick k).misses = s.misses := rfl
@[simp] theorem State.noteTick_spillq (k : Nat) : (s.noteTick k).spillq = s.spillq := rfl
@[simp] theorem State.noteTick_wfill (k : Nat) : (s.noteTick k).wfill = s.wfill := rfl
@[simp] theorem State.noteTick_icache (k : Nat) : (s.noteTick k).icache = s.icache := rfl
@[simp] theorem State.noteTick_levels (k : Nat) : (s.noteTick k).levels = s.levels := rfl
@[simp] theorem State.noteTick_ticks (k : Nat) : (s.noteTick k).ticks = sset 0 s.ticks k (sget 0 s.ticks k + 1) := rfl
@[simp] theorem State.noteTick_tlb (k : Nat) : (s.noteTick k).tlb = s.tlb := rfl
@[simp] theorem State.noteTick_fab (k : Nat) : (s.noteTick k).fab = s.fab := rfl
@[simp] theorem State.noteTick_svc (k : Nat) : (s.noteTick k).svc = s.svc := rfl

/-! ## clearResv -/

@[simp] theorem State.clearResv_cycle (ws : List Nat) : (s.clearResv ws).cycle = s.cycle := rfl
@[simp] theorem State.clearResv_ftime (ws : List Nat) : (s.clearResv ws).ftime = s.ftime := rfl
@[simp] theorem State.clearResv_ftfrac (ws : List Nat) : (s.clearResv ws).ftfrac = s.ftfrac := rfl
@[simp] theorem State.clearResv_cur (ws : List Nat) : (s.clearResv ws).cur = s.cur := rfl
@[simp] theorem State.clearResv_picks (ws : List Nat) : (s.clearResv ws).picks = s.picks := rfl
@[simp] theorem State.clearResv_woke (ws : List Nat) : (s.clearResv ws).woke = s.woke := rfl
@[simp] theorem State.clearResv_entered (ws : List Nat) : (s.clearResv ws).entered = s.entered := rfl
@[simp] theorem State.clearResv_passed (ws : List Nat) : (s.clearResv ws).passed = s.passed := rfl
@[simp] theorem State.clearResv_arrived (ws : List Nat) : (s.clearResv ws).arrived = s.arrived := rfl
@[simp] theorem State.clearResv_sfu (ws : List Nat) : (s.clearResv ws).sfu = s.sfu := rfl
@[simp] theorem State.clearResv_tape (ws : List Nat) : (s.clearResv ws).tape = s.tape := rfl
@[simp] theorem State.clearResv_nextId (ws : List Nat) : (s.clearResv ws).nextId = s.nextId := rfl
@[simp] theorem State.clearResv_free (ws : List Nat) : (s.clearResv ws).free = s.free := rfl
@[simp] theorem State.clearResv_age (ws : List Nat) : (s.clearResv ws).age = s.age := rfl
@[simp] theorem State.clearResv_teams (ws : List Nat) : (s.clearResv ws).teams = s.teams := rfl
@[simp] theorem State.clearResv_launches (ws : List Nat) : (s.clearResv ws).launches = s.launches := rfl
@[simp] theorem State.clearResv_seats (ws : List Nat) : (s.clearResv ws).seats = s.seats := rfl
@[simp] theorem State.clearResv_remote (ws : List Nat) : (s.clearResv ws).remote = s.remote := rfl
@[simp] theorem State.clearResv_contexts (ws : List Nat) : (s.clearResv ws).contexts = s.contexts := rfl
@[simp] theorem State.clearResv_parts (ws : List Nat) : (s.clearResv ws).parts = s.parts := rfl
@[simp] theorem State.clearResv_bays (ws : List Nat) : (s.clearResv ws).bays = s.bays := rfl
@[simp] theorem State.clearResv_bars (ws : List Nat) : (s.clearResv ws).bars = s.bars := rfl
@[simp] theorem State.clearResv_barGen (ws : List Nat) : (s.clearResv ws).barGen = s.barGen := rfl
@[simp] theorem State.clearResv_faultq (ws : List Nat) : (s.clearResv ws).faultq = s.faultq := rfl
@[simp] theorem State.clearResv_mats (ws : List Nat) : (s.clearResv ws).mats = s.mats := rfl
@[simp] theorem State.clearResv_tiles (ws : List Nat) : (s.clearResv ws).tiles = s.tiles := rfl
@[simp] theorem State.clearResv_copies (ws : List Nat) : (s.clearResv ws).copies = s.copies := rfl
@[simp] theorem State.clearResv_held (ws : List Nat) : (s.clearResv ws).held = s.held := rfl
@[simp] theorem State.clearResv_shells (ws : List Nat) : (s.clearResv ws).shells = s.shells := rfl
@[simp] theorem State.clearResv_shpoison (ws : List Nat) : (s.clearResv ws).shpoison = s.shpoison := rfl
@[simp] theorem State.clearResv_cooling (ws : List Nat) : (s.clearResv ws).cooling = s.cooling := rfl
@[simp] theorem State.clearResv_shreqs (ws : List Nat) : (s.clearResv ws).shreqs = s.shreqs := rfl
@[simp] theorem State.clearResv_landings (ws : List Nat) : (s.clearResv ws).landings = s.landings := rfl
@[simp] theorem State.clearResv_mem (ws : List Nat) : (s.clearResv ws).mem = s.mem := rfl
@[simp] theorem State.clearResv_mpoison (ws : List Nat) : (s.clearResv ws).mpoison = s.mpoison := rfl
@[simp] theorem State.clearResv_wseq (ws : List Nat) : (s.clearResv ws).wseq = s.wseq := rfl
@[simp] theorem State.clearResv_owner (ws : List Nat) : (s.clearResv ws).owner = s.owner := rfl
@[simp] theorem State.clearResv_l1 (ws : List Nat) : (s.clearResv ws).l1 = s.l1 := rfl
@[simp] theorem State.clearResv_fused (ws : List Nat) : (s.clearResv ws).fused = s.fused := rfl
@[simp] theorem State.clearResv_regs (ws : List Nat) : (s.clearResv ws).regs = s.regs := rfl
@[simp] theorem State.clearResv_adds (ws : List Nat) : (s.clearResv ws).adds = s.adds := rfl
@[simp] theorem State.clearResv_acks (ws : List Nat) : (s.clearResv ws).acks = s.acks := rfl
@[simp] theorem State.clearResv_l2 (ws : List Nat) : (s.clearResv ws).l2 = s.l2 := rfl
@[simp] theorem State.clearResv_mirrors (ws : List Nat) : (s.clearResv ws).mirrors = s.mirrors := rfl
@[simp] theorem State.clearResv_misses (ws : List Nat) : (s.clearResv ws).misses = s.misses := rfl
@[simp] theorem State.clearResv_spillq (ws : List Nat) : (s.clearResv ws).spillq = s.spillq := rfl
@[simp] theorem State.clearResv_wfill (ws : List Nat) : (s.clearResv ws).wfill = s.wfill := rfl
@[simp] theorem State.clearResv_icache (ws : List Nat) : (s.clearResv ws).icache = s.icache := rfl
@[simp] theorem State.clearResv_levels (ws : List Nat) : (s.clearResv ws).levels = s.levels := rfl
@[simp] theorem State.clearResv_ticks (ws : List Nat) : (s.clearResv ws).ticks = s.ticks := rfl
@[simp] theorem State.clearResv_tlb (ws : List Nat) : (s.clearResv ws).tlb = s.tlb := rfl
@[simp] theorem State.clearResv_fab (ws : List Nat) : (s.clearResv ws).fab = s.fab := rfl
@[simp] theorem State.clearResv_svc (ws : List Nat) : (s.clearResv ws).svc = s.svc := rfl

/-! ## dropMirrors -/

@[simp] theorem State.dropMirrors_cycle (line : Nat) : (s.dropMirrors line).cycle = s.cycle := rfl
@[simp] theorem State.dropMirrors_ftime (line : Nat) : (s.dropMirrors line).ftime = s.ftime := rfl
@[simp] theorem State.dropMirrors_ftfrac (line : Nat) : (s.dropMirrors line).ftfrac = s.ftfrac := rfl
@[simp] theorem State.dropMirrors_cur (line : Nat) : (s.dropMirrors line).cur = s.cur := rfl
@[simp] theorem State.dropMirrors_picks (line : Nat) : (s.dropMirrors line).picks = s.picks := rfl
@[simp] theorem State.dropMirrors_woke (line : Nat) : (s.dropMirrors line).woke = s.woke := rfl
@[simp] theorem State.dropMirrors_entered (line : Nat) : (s.dropMirrors line).entered = s.entered := rfl
@[simp] theorem State.dropMirrors_passed (line : Nat) : (s.dropMirrors line).passed = s.passed := rfl
@[simp] theorem State.dropMirrors_arrived (line : Nat) : (s.dropMirrors line).arrived = s.arrived := rfl
@[simp] theorem State.dropMirrors_sfu (line : Nat) : (s.dropMirrors line).sfu = s.sfu := rfl
@[simp] theorem State.dropMirrors_tape (line : Nat) : (s.dropMirrors line).tape = s.tape := rfl
@[simp] theorem State.dropMirrors_nextId (line : Nat) : (s.dropMirrors line).nextId = s.nextId := rfl
@[simp] theorem State.dropMirrors_free (line : Nat) : (s.dropMirrors line).free = s.free := rfl
@[simp] theorem State.dropMirrors_age (line : Nat) : (s.dropMirrors line).age = s.age := rfl
@[simp] theorem State.dropMirrors_crews (line : Nat) : (s.dropMirrors line).crews = s.crews := rfl
@[simp] theorem State.dropMirrors_teams (line : Nat) : (s.dropMirrors line).teams = s.teams := rfl
@[simp] theorem State.dropMirrors_launches (line : Nat) : (s.dropMirrors line).launches = s.launches := rfl
@[simp] theorem State.dropMirrors_seats (line : Nat) : (s.dropMirrors line).seats = s.seats := rfl
@[simp] theorem State.dropMirrors_remote (line : Nat) : (s.dropMirrors line).remote = s.remote := rfl
@[simp] theorem State.dropMirrors_contexts (line : Nat) : (s.dropMirrors line).contexts = s.contexts := rfl
@[simp] theorem State.dropMirrors_parts (line : Nat) : (s.dropMirrors line).parts = s.parts := rfl
@[simp] theorem State.dropMirrors_bays (line : Nat) : (s.dropMirrors line).bays = s.bays := rfl
@[simp] theorem State.dropMirrors_bars (line : Nat) : (s.dropMirrors line).bars = s.bars := rfl
@[simp] theorem State.dropMirrors_barGen (line : Nat) : (s.dropMirrors line).barGen = s.barGen := rfl
@[simp] theorem State.dropMirrors_faultq (line : Nat) : (s.dropMirrors line).faultq = s.faultq := rfl
@[simp] theorem State.dropMirrors_mats (line : Nat) : (s.dropMirrors line).mats = s.mats := rfl
@[simp] theorem State.dropMirrors_tiles (line : Nat) : (s.dropMirrors line).tiles = s.tiles := rfl
@[simp] theorem State.dropMirrors_copies (line : Nat) : (s.dropMirrors line).copies = s.copies := rfl
@[simp] theorem State.dropMirrors_held (line : Nat) : (s.dropMirrors line).held = s.held := rfl
@[simp] theorem State.dropMirrors_shells (line : Nat) : (s.dropMirrors line).shells = s.shells := rfl
@[simp] theorem State.dropMirrors_shpoison (line : Nat) : (s.dropMirrors line).shpoison = s.shpoison := rfl
@[simp] theorem State.dropMirrors_cooling (line : Nat) : (s.dropMirrors line).cooling = s.cooling := rfl
@[simp] theorem State.dropMirrors_shreqs (line : Nat) : (s.dropMirrors line).shreqs = s.shreqs := rfl
@[simp] theorem State.dropMirrors_landings (line : Nat) : (s.dropMirrors line).landings = s.landings := rfl
@[simp] theorem State.dropMirrors_mem (line : Nat) : (s.dropMirrors line).mem = s.mem := rfl
@[simp] theorem State.dropMirrors_mpoison (line : Nat) : (s.dropMirrors line).mpoison = s.mpoison := rfl
@[simp] theorem State.dropMirrors_wseq (line : Nat) : (s.dropMirrors line).wseq = s.wseq := rfl
@[simp] theorem State.dropMirrors_owner (line : Nat) : (s.dropMirrors line).owner = s.owner := rfl
@[simp] theorem State.dropMirrors_l1 (line : Nat) : (s.dropMirrors line).l1 = s.l1 := rfl
@[simp] theorem State.dropMirrors_fused (line : Nat) : (s.dropMirrors line).fused = s.fused := rfl
@[simp] theorem State.dropMirrors_regs (line : Nat) : (s.dropMirrors line).regs = s.regs := rfl
@[simp] theorem State.dropMirrors_adds (line : Nat) : (s.dropMirrors line).adds = s.adds := rfl
@[simp] theorem State.dropMirrors_acks (line : Nat) : (s.dropMirrors line).acks = s.acks := rfl
@[simp] theorem State.dropMirrors_l2 (line : Nat) : (s.dropMirrors line).l2 = s.l2 := rfl
@[simp] theorem State.dropMirrors_misses (line : Nat) : (s.dropMirrors line).misses = s.misses := rfl
@[simp] theorem State.dropMirrors_spillq (line : Nat) : (s.dropMirrors line).spillq = s.spillq := rfl
@[simp] theorem State.dropMirrors_wfill (line : Nat) : (s.dropMirrors line).wfill = s.wfill := rfl
@[simp] theorem State.dropMirrors_icache (line : Nat) : (s.dropMirrors line).icache = s.icache := rfl
@[simp] theorem State.dropMirrors_levels (line : Nat) : (s.dropMirrors line).levels = s.levels := rfl
@[simp] theorem State.dropMirrors_ticks (line : Nat) : (s.dropMirrors line).ticks = s.ticks := rfl
@[simp] theorem State.dropMirrors_tlb (line : Nat) : (s.dropMirrors line).tlb = s.tlb := rfl
@[simp] theorem State.dropMirrors_fab (line : Nat) : (s.dropMirrors line).fab = s.fab := rfl
@[simp] theorem State.dropMirrors_svc (line : Nat) : (s.dropMirrors line).svc = s.svc := rfl

/-! ## setOwner -/

@[simp] theorem State.setOwner_cycle (secs : List Nat) (o : Nat) : (s.setOwner secs o).cycle = s.cycle := rfl
@[simp] theorem State.setOwner_ftime (secs : List Nat) (o : Nat) : (s.setOwner secs o).ftime = s.ftime := rfl
@[simp] theorem State.setOwner_ftfrac (secs : List Nat) (o : Nat) : (s.setOwner secs o).ftfrac = s.ftfrac := rfl
@[simp] theorem State.setOwner_cur (secs : List Nat) (o : Nat) : (s.setOwner secs o).cur = s.cur := rfl
@[simp] theorem State.setOwner_picks (secs : List Nat) (o : Nat) : (s.setOwner secs o).picks = s.picks := rfl
@[simp] theorem State.setOwner_woke (secs : List Nat) (o : Nat) : (s.setOwner secs o).woke = s.woke := rfl
@[simp] theorem State.setOwner_entered (secs : List Nat) (o : Nat) : (s.setOwner secs o).entered = s.entered := rfl
@[simp] theorem State.setOwner_passed (secs : List Nat) (o : Nat) : (s.setOwner secs o).passed = s.passed := rfl
@[simp] theorem State.setOwner_arrived (secs : List Nat) (o : Nat) : (s.setOwner secs o).arrived = s.arrived := rfl
@[simp] theorem State.setOwner_sfu (secs : List Nat) (o : Nat) : (s.setOwner secs o).sfu = s.sfu := rfl
@[simp] theorem State.setOwner_tape (secs : List Nat) (o : Nat) : (s.setOwner secs o).tape = s.tape := rfl
@[simp] theorem State.setOwner_nextId (secs : List Nat) (o : Nat) : (s.setOwner secs o).nextId = s.nextId := rfl
@[simp] theorem State.setOwner_free (secs : List Nat) (o : Nat) : (s.setOwner secs o).free = s.free := rfl
@[simp] theorem State.setOwner_age (secs : List Nat) (o : Nat) : (s.setOwner secs o).age = s.age := rfl
@[simp] theorem State.setOwner_crews (secs : List Nat) (o : Nat) : (s.setOwner secs o).crews = s.crews := rfl
@[simp] theorem State.setOwner_teams (secs : List Nat) (o : Nat) : (s.setOwner secs o).teams = s.teams := rfl
@[simp] theorem State.setOwner_launches (secs : List Nat) (o : Nat) : (s.setOwner secs o).launches = s.launches := rfl
@[simp] theorem State.setOwner_seats (secs : List Nat) (o : Nat) : (s.setOwner secs o).seats = s.seats := rfl
@[simp] theorem State.setOwner_remote (secs : List Nat) (o : Nat) : (s.setOwner secs o).remote = s.remote := rfl
@[simp] theorem State.setOwner_contexts (secs : List Nat) (o : Nat) : (s.setOwner secs o).contexts = s.contexts := rfl
@[simp] theorem State.setOwner_parts (secs : List Nat) (o : Nat) : (s.setOwner secs o).parts = s.parts := rfl
@[simp] theorem State.setOwner_bays (secs : List Nat) (o : Nat) : (s.setOwner secs o).bays = s.bays := rfl
@[simp] theorem State.setOwner_bars (secs : List Nat) (o : Nat) : (s.setOwner secs o).bars = s.bars := rfl
@[simp] theorem State.setOwner_barGen (secs : List Nat) (o : Nat) : (s.setOwner secs o).barGen = s.barGen := rfl
@[simp] theorem State.setOwner_faultq (secs : List Nat) (o : Nat) : (s.setOwner secs o).faultq = s.faultq := rfl
@[simp] theorem State.setOwner_mats (secs : List Nat) (o : Nat) : (s.setOwner secs o).mats = s.mats := rfl
@[simp] theorem State.setOwner_tiles (secs : List Nat) (o : Nat) : (s.setOwner secs o).tiles = s.tiles := rfl
@[simp] theorem State.setOwner_copies (secs : List Nat) (o : Nat) : (s.setOwner secs o).copies = s.copies := rfl
@[simp] theorem State.setOwner_held (secs : List Nat) (o : Nat) : (s.setOwner secs o).held = s.held := rfl
@[simp] theorem State.setOwner_shells (secs : List Nat) (o : Nat) : (s.setOwner secs o).shells = s.shells := rfl
@[simp] theorem State.setOwner_shpoison (secs : List Nat) (o : Nat) : (s.setOwner secs o).shpoison = s.shpoison := rfl
@[simp] theorem State.setOwner_cooling (secs : List Nat) (o : Nat) : (s.setOwner secs o).cooling = s.cooling := rfl
@[simp] theorem State.setOwner_shreqs (secs : List Nat) (o : Nat) : (s.setOwner secs o).shreqs = s.shreqs := rfl
@[simp] theorem State.setOwner_landings (secs : List Nat) (o : Nat) : (s.setOwner secs o).landings = s.landings := rfl
@[simp] theorem State.setOwner_mem (secs : List Nat) (o : Nat) : (s.setOwner secs o).mem = s.mem := rfl
@[simp] theorem State.setOwner_mpoison (secs : List Nat) (o : Nat) : (s.setOwner secs o).mpoison = s.mpoison := rfl
@[simp] theorem State.setOwner_wseq (secs : List Nat) (o : Nat) : (s.setOwner secs o).wseq = s.wseq := rfl
@[simp] theorem State.setOwner_owner (secs : List Nat) (o : Nat) : (s.setOwner secs o).owner = secs.foldl (fun t sec => sset noOwner t sec o) s.owner := rfl
@[simp] theorem State.setOwner_l1 (secs : List Nat) (o : Nat) : (s.setOwner secs o).l1 = s.l1 := rfl
@[simp] theorem State.setOwner_fused (secs : List Nat) (o : Nat) : (s.setOwner secs o).fused = s.fused := rfl
@[simp] theorem State.setOwner_regs (secs : List Nat) (o : Nat) : (s.setOwner secs o).regs = s.regs := rfl
@[simp] theorem State.setOwner_adds (secs : List Nat) (o : Nat) : (s.setOwner secs o).adds = s.adds := rfl
@[simp] theorem State.setOwner_acks (secs : List Nat) (o : Nat) : (s.setOwner secs o).acks = s.acks := rfl
@[simp] theorem State.setOwner_l2 (secs : List Nat) (o : Nat) : (s.setOwner secs o).l2 = s.l2 := rfl
@[simp] theorem State.setOwner_mirrors (secs : List Nat) (o : Nat) : (s.setOwner secs o).mirrors = s.mirrors := rfl
@[simp] theorem State.setOwner_misses (secs : List Nat) (o : Nat) : (s.setOwner secs o).misses = s.misses := rfl
@[simp] theorem State.setOwner_spillq (secs : List Nat) (o : Nat) : (s.setOwner secs o).spillq = s.spillq := rfl
@[simp] theorem State.setOwner_wfill (secs : List Nat) (o : Nat) : (s.setOwner secs o).wfill = s.wfill := rfl
@[simp] theorem State.setOwner_icache (secs : List Nat) (o : Nat) : (s.setOwner secs o).icache = s.icache := rfl
@[simp] theorem State.setOwner_levels (secs : List Nat) (o : Nat) : (s.setOwner secs o).levels = s.levels := rfl
@[simp] theorem State.setOwner_ticks (secs : List Nat) (o : Nat) : (s.setOwner secs o).ticks = s.ticks := rfl
@[simp] theorem State.setOwner_tlb (secs : List Nat) (o : Nat) : (s.setOwner secs o).tlb = s.tlb := rfl
@[simp] theorem State.setOwner_fab (secs : List Nat) (o : Nat) : (s.setOwner secs o).fab = s.fab := rfl
@[simp] theorem State.setOwner_svc (secs : List Nat) (o : Nat) : (s.setOwner secs o).svc = s.svc := rfl

/-! ## dropHolders -/

@[simp] theorem State.dropHolders_cycle (lines : List Nat) : (s.dropHolders lines).cycle = s.cycle := rfl
@[simp] theorem State.dropHolders_ftime (lines : List Nat) : (s.dropHolders lines).ftime = s.ftime := rfl
@[simp] theorem State.dropHolders_ftfrac (lines : List Nat) : (s.dropHolders lines).ftfrac = s.ftfrac := rfl
@[simp] theorem State.dropHolders_cur (lines : List Nat) : (s.dropHolders lines).cur = s.cur := rfl
@[simp] theorem State.dropHolders_picks (lines : List Nat) : (s.dropHolders lines).picks = s.picks := rfl
@[simp] theorem State.dropHolders_woke (lines : List Nat) : (s.dropHolders lines).woke = s.woke := rfl
@[simp] theorem State.dropHolders_entered (lines : List Nat) : (s.dropHolders lines).entered = s.entered := rfl
@[simp] theorem State.dropHolders_passed (lines : List Nat) : (s.dropHolders lines).passed = s.passed := rfl
@[simp] theorem State.dropHolders_arrived (lines : List Nat) : (s.dropHolders lines).arrived = s.arrived := rfl
@[simp] theorem State.dropHolders_sfu (lines : List Nat) : (s.dropHolders lines).sfu = s.sfu := rfl
@[simp] theorem State.dropHolders_tape (lines : List Nat) : (s.dropHolders lines).tape = s.tape := rfl
@[simp] theorem State.dropHolders_nextId (lines : List Nat) : (s.dropHolders lines).nextId = s.nextId := rfl
@[simp] theorem State.dropHolders_free (lines : List Nat) : (s.dropHolders lines).free = s.free := rfl
@[simp] theorem State.dropHolders_age (lines : List Nat) : (s.dropHolders lines).age = s.age := rfl
@[simp] theorem State.dropHolders_crews (lines : List Nat) : (s.dropHolders lines).crews = s.crews := rfl
@[simp] theorem State.dropHolders_teams (lines : List Nat) : (s.dropHolders lines).teams = s.teams := rfl
@[simp] theorem State.dropHolders_launches (lines : List Nat) : (s.dropHolders lines).launches = s.launches := rfl
@[simp] theorem State.dropHolders_seats (lines : List Nat) : (s.dropHolders lines).seats = s.seats := rfl
@[simp] theorem State.dropHolders_remote (lines : List Nat) : (s.dropHolders lines).remote = s.remote := rfl
@[simp] theorem State.dropHolders_contexts (lines : List Nat) : (s.dropHolders lines).contexts = s.contexts := rfl
@[simp] theorem State.dropHolders_parts (lines : List Nat) : (s.dropHolders lines).parts = s.parts := rfl
@[simp] theorem State.dropHolders_bays (lines : List Nat) : (s.dropHolders lines).bays = s.bays := rfl
@[simp] theorem State.dropHolders_bars (lines : List Nat) : (s.dropHolders lines).bars = s.bars := rfl
@[simp] theorem State.dropHolders_barGen (lines : List Nat) : (s.dropHolders lines).barGen = s.barGen := rfl
@[simp] theorem State.dropHolders_faultq (lines : List Nat) : (s.dropHolders lines).faultq = s.faultq := rfl
@[simp] theorem State.dropHolders_mats (lines : List Nat) : (s.dropHolders lines).mats = s.mats := rfl
@[simp] theorem State.dropHolders_tiles (lines : List Nat) : (s.dropHolders lines).tiles = s.tiles := rfl
@[simp] theorem State.dropHolders_copies (lines : List Nat) : (s.dropHolders lines).copies = s.copies := rfl
@[simp] theorem State.dropHolders_held (lines : List Nat) : (s.dropHolders lines).held = s.held := rfl
@[simp] theorem State.dropHolders_shells (lines : List Nat) : (s.dropHolders lines).shells = s.shells := rfl
@[simp] theorem State.dropHolders_shpoison (lines : List Nat) : (s.dropHolders lines).shpoison = s.shpoison := rfl
@[simp] theorem State.dropHolders_cooling (lines : List Nat) : (s.dropHolders lines).cooling = s.cooling := rfl
@[simp] theorem State.dropHolders_shreqs (lines : List Nat) : (s.dropHolders lines).shreqs = s.shreqs := rfl
@[simp] theorem State.dropHolders_landings (lines : List Nat) : (s.dropHolders lines).landings = s.landings := rfl
@[simp] theorem State.dropHolders_mem (lines : List Nat) : (s.dropHolders lines).mem = s.mem := rfl
@[simp] theorem State.dropHolders_mpoison (lines : List Nat) : (s.dropHolders lines).mpoison = s.mpoison := rfl
@[simp] theorem State.dropHolders_wseq (lines : List Nat) : (s.dropHolders lines).wseq = s.wseq := rfl
@[simp] theorem State.dropHolders_owner (lines : List Nat) : (s.dropHolders lines).owner = s.owner := rfl
@[simp] theorem State.dropHolders_l1 (lines : List Nat) : (s.dropHolders lines).l1 = s.l1 := rfl
@[simp] theorem State.dropHolders_fused (lines : List Nat) : (s.dropHolders lines).fused = s.fused := rfl
@[simp] theorem State.dropHolders_regs (lines : List Nat) : (s.dropHolders lines).regs = s.regs := rfl
@[simp] theorem State.dropHolders_adds (lines : List Nat) : (s.dropHolders lines).adds = s.adds := rfl
@[simp] theorem State.dropHolders_acks (lines : List Nat) : (s.dropHolders lines).acks = s.acks := rfl
@[simp] theorem State.dropHolders_l2 (lines : List Nat) : (s.dropHolders lines).l2 = s.l2 := rfl
@[simp] theorem State.dropHolders_mirrors (lines : List Nat) : (s.dropHolders lines).mirrors = s.mirrors := rfl
@[simp] theorem State.dropHolders_misses (lines : List Nat) : (s.dropHolders lines).misses = s.misses := rfl
@[simp] theorem State.dropHolders_spillq (lines : List Nat) : (s.dropHolders lines).spillq = s.spillq := rfl
@[simp] theorem State.dropHolders_wfill (lines : List Nat) : (s.dropHolders lines).wfill = s.wfill := rfl
@[simp] theorem State.dropHolders_icache (lines : List Nat) : (s.dropHolders lines).icache = s.icache := rfl
@[simp] theorem State.dropHolders_levels (lines : List Nat) : (s.dropHolders lines).levels = s.levels := rfl
@[simp] theorem State.dropHolders_ticks (lines : List Nat) : (s.dropHolders lines).ticks = s.ticks := rfl
@[simp] theorem State.dropHolders_tlb (lines : List Nat) : (s.dropHolders lines).tlb = s.tlb := rfl
@[simp] theorem State.dropHolders_svc (lines : List Nat) : (s.dropHolders lines).svc = s.svc := rfl

/-! ## putBar -/

@[simp] theorem State.putBar_cycle (b : BarObj) : (s.putBar b).cycle = s.cycle := rfl
@[simp] theorem State.putBar_ftime (b : BarObj) : (s.putBar b).ftime = s.ftime := rfl
@[simp] theorem State.putBar_ftfrac (b : BarObj) : (s.putBar b).ftfrac = s.ftfrac := rfl
@[simp] theorem State.putBar_cur (b : BarObj) : (s.putBar b).cur = s.cur := rfl
@[simp] theorem State.putBar_picks (b : BarObj) : (s.putBar b).picks = s.picks := rfl
@[simp] theorem State.putBar_woke (b : BarObj) : (s.putBar b).woke = s.woke := rfl
@[simp] theorem State.putBar_entered (b : BarObj) : (s.putBar b).entered = s.entered := rfl
@[simp] theorem State.putBar_passed (b : BarObj) : (s.putBar b).passed = s.passed := rfl
@[simp] theorem State.putBar_arrived (b : BarObj) : (s.putBar b).arrived = s.arrived := rfl
@[simp] theorem State.putBar_sfu (b : BarObj) : (s.putBar b).sfu = s.sfu := rfl
@[simp] theorem State.putBar_tape (b : BarObj) : (s.putBar b).tape = s.tape := rfl
@[simp] theorem State.putBar_nextId (b : BarObj) : (s.putBar b).nextId = s.nextId := rfl
@[simp] theorem State.putBar_free (b : BarObj) : (s.putBar b).free = s.free := rfl
@[simp] theorem State.putBar_age (b : BarObj) : (s.putBar b).age = s.age := rfl
@[simp] theorem State.putBar_crews (b : BarObj) : (s.putBar b).crews = s.crews := rfl
@[simp] theorem State.putBar_teams (b : BarObj) : (s.putBar b).teams = s.teams := rfl
@[simp] theorem State.putBar_launches (b : BarObj) : (s.putBar b).launches = s.launches := rfl
@[simp] theorem State.putBar_seats (b : BarObj) : (s.putBar b).seats = s.seats := rfl
@[simp] theorem State.putBar_remote (b : BarObj) : (s.putBar b).remote = s.remote := rfl
@[simp] theorem State.putBar_contexts (b : BarObj) : (s.putBar b).contexts = s.contexts := rfl
@[simp] theorem State.putBar_parts (b : BarObj) : (s.putBar b).parts = s.parts := rfl
@[simp] theorem State.putBar_bays (b : BarObj) : (s.putBar b).bays = s.bays := rfl
@[simp] theorem State.putBar_bars (b : BarObj) : (s.putBar b).bars = s.bars.map fun x => if x.core == b.core && x.idx == b.idx then b else x := rfl
@[simp] theorem State.putBar_barGen (b : BarObj) : (s.putBar b).barGen = s.barGen := rfl
@[simp] theorem State.putBar_faultq (b : BarObj) : (s.putBar b).faultq = s.faultq := rfl
@[simp] theorem State.putBar_mats (b : BarObj) : (s.putBar b).mats = s.mats := rfl
@[simp] theorem State.putBar_tiles (b : BarObj) : (s.putBar b).tiles = s.tiles := rfl
@[simp] theorem State.putBar_copies (b : BarObj) : (s.putBar b).copies = s.copies := rfl
@[simp] theorem State.putBar_held (b : BarObj) : (s.putBar b).held = s.held := rfl
@[simp] theorem State.putBar_shells (b : BarObj) : (s.putBar b).shells = s.shells := rfl
@[simp] theorem State.putBar_shpoison (b : BarObj) : (s.putBar b).shpoison = s.shpoison := rfl
@[simp] theorem State.putBar_cooling (b : BarObj) : (s.putBar b).cooling = s.cooling := rfl
@[simp] theorem State.putBar_shreqs (b : BarObj) : (s.putBar b).shreqs = s.shreqs := rfl
@[simp] theorem State.putBar_landings (b : BarObj) : (s.putBar b).landings = s.landings := rfl
@[simp] theorem State.putBar_mem (b : BarObj) : (s.putBar b).mem = s.mem := rfl
@[simp] theorem State.putBar_mpoison (b : BarObj) : (s.putBar b).mpoison = s.mpoison := rfl
@[simp] theorem State.putBar_wseq (b : BarObj) : (s.putBar b).wseq = s.wseq := rfl
@[simp] theorem State.putBar_owner (b : BarObj) : (s.putBar b).owner = s.owner := rfl
@[simp] theorem State.putBar_l1 (b : BarObj) : (s.putBar b).l1 = s.l1 := rfl
@[simp] theorem State.putBar_fused (b : BarObj) : (s.putBar b).fused = s.fused := rfl
@[simp] theorem State.putBar_regs (b : BarObj) : (s.putBar b).regs = s.regs := rfl
@[simp] theorem State.putBar_adds (b : BarObj) : (s.putBar b).adds = s.adds := rfl
@[simp] theorem State.putBar_acks (b : BarObj) : (s.putBar b).acks = s.acks := rfl
@[simp] theorem State.putBar_l2 (b : BarObj) : (s.putBar b).l2 = s.l2 := rfl
@[simp] theorem State.putBar_mirrors (b : BarObj) : (s.putBar b).mirrors = s.mirrors := rfl
@[simp] theorem State.putBar_misses (b : BarObj) : (s.putBar b).misses = s.misses := rfl
@[simp] theorem State.putBar_spillq (b : BarObj) : (s.putBar b).spillq = s.spillq := rfl
@[simp] theorem State.putBar_wfill (b : BarObj) : (s.putBar b).wfill = s.wfill := rfl
@[simp] theorem State.putBar_icache (b : BarObj) : (s.putBar b).icache = s.icache := rfl
@[simp] theorem State.putBar_levels (b : BarObj) : (s.putBar b).levels = s.levels := rfl
@[simp] theorem State.putBar_ticks (b : BarObj) : (s.putBar b).ticks = s.ticks := rfl
@[simp] theorem State.putBar_tlb (b : BarObj) : (s.putBar b).tlb = s.tlb := rfl
@[simp] theorem State.putBar_fab (b : BarObj) : (s.putBar b).fab = s.fab := rfl
@[simp] theorem State.putBar_svc (b : BarObj) : (s.putBar b).svc = s.svc := rfl

/-! ## wakeAll -/

@[simp] theorem State.wakeAll_cycle (core idx : Nat) (scope : Scope) (w : Wake) : (s.wakeAll core idx scope w).cycle = s.cycle := rfl
@[simp] theorem State.wakeAll_ftime (core idx : Nat) (scope : Scope) (w : Wake) : (s.wakeAll core idx scope w).ftime = s.ftime := rfl
@[simp] theorem State.wakeAll_ftfrac (core idx : Nat) (scope : Scope) (w : Wake) : (s.wakeAll core idx scope w).ftfrac = s.ftfrac := rfl
@[simp] theorem State.wakeAll_cur (core idx : Nat) (scope : Scope) (w : Wake) : (s.wakeAll core idx scope w).cur = s.cur := rfl
@[simp] theorem State.wakeAll_picks (core idx : Nat) (scope : Scope) (w : Wake) : (s.wakeAll core idx scope w).picks = s.picks := rfl
@[simp] theorem State.wakeAll_woke (core idx : Nat) (scope : Scope) (w : Wake) : (s.wakeAll core idx scope w).woke = s.woke := rfl
@[simp] theorem State.wakeAll_entered (core idx : Nat) (scope : Scope) (w : Wake) : (s.wakeAll core idx scope w).entered = s.entered := rfl
@[simp] theorem State.wakeAll_passed (core idx : Nat) (scope : Scope) (w : Wake) : (s.wakeAll core idx scope w).passed = s.passed := rfl
@[simp] theorem State.wakeAll_arrived (core idx : Nat) (scope : Scope) (w : Wake) : (s.wakeAll core idx scope w).arrived = s.arrived := rfl
@[simp] theorem State.wakeAll_sfu (core idx : Nat) (scope : Scope) (w : Wake) : (s.wakeAll core idx scope w).sfu = s.sfu := rfl
@[simp] theorem State.wakeAll_tape (core idx : Nat) (scope : Scope) (w : Wake) : (s.wakeAll core idx scope w).tape = s.tape := rfl
@[simp] theorem State.wakeAll_nextId (core idx : Nat) (scope : Scope) (w : Wake) : (s.wakeAll core idx scope w).nextId = s.nextId := rfl
@[simp] theorem State.wakeAll_free (core idx : Nat) (scope : Scope) (w : Wake) : (s.wakeAll core idx scope w).free = s.free := rfl
@[simp] theorem State.wakeAll_age (core idx : Nat) (scope : Scope) (w : Wake) : (s.wakeAll core idx scope w).age = s.age := rfl
@[simp] theorem State.wakeAll_teams (core idx : Nat) (scope : Scope) (w : Wake) : (s.wakeAll core idx scope w).teams = s.teams := rfl
@[simp] theorem State.wakeAll_launches (core idx : Nat) (scope : Scope) (w : Wake) : (s.wakeAll core idx scope w).launches = s.launches := rfl
@[simp] theorem State.wakeAll_seats (core idx : Nat) (scope : Scope) (w : Wake) : (s.wakeAll core idx scope w).seats = s.seats := rfl
@[simp] theorem State.wakeAll_remote (core idx : Nat) (scope : Scope) (w : Wake) : (s.wakeAll core idx scope w).remote = s.remote := rfl
@[simp] theorem State.wakeAll_contexts (core idx : Nat) (scope : Scope) (w : Wake) : (s.wakeAll core idx scope w).contexts = s.contexts := rfl
@[simp] theorem State.wakeAll_parts (core idx : Nat) (scope : Scope) (w : Wake) : (s.wakeAll core idx scope w).parts = s.parts := rfl
@[simp] theorem State.wakeAll_bays (core idx : Nat) (scope : Scope) (w : Wake) : (s.wakeAll core idx scope w).bays = s.bays := rfl
@[simp] theorem State.wakeAll_bars (core idx : Nat) (scope : Scope) (w : Wake) : (s.wakeAll core idx scope w).bars = s.bars := rfl
@[simp] theorem State.wakeAll_barGen (core idx : Nat) (scope : Scope) (w : Wake) : (s.wakeAll core idx scope w).barGen = s.barGen := rfl
@[simp] theorem State.wakeAll_faultq (core idx : Nat) (scope : Scope) (w : Wake) : (s.wakeAll core idx scope w).faultq = s.faultq := rfl
@[simp] theorem State.wakeAll_mats (core idx : Nat) (scope : Scope) (w : Wake) : (s.wakeAll core idx scope w).mats = s.mats := rfl
@[simp] theorem State.wakeAll_tiles (core idx : Nat) (scope : Scope) (w : Wake) : (s.wakeAll core idx scope w).tiles = s.tiles := rfl
@[simp] theorem State.wakeAll_copies (core idx : Nat) (scope : Scope) (w : Wake) : (s.wakeAll core idx scope w).copies = s.copies := rfl
@[simp] theorem State.wakeAll_held (core idx : Nat) (scope : Scope) (w : Wake) : (s.wakeAll core idx scope w).held = s.held := rfl
@[simp] theorem State.wakeAll_shells (core idx : Nat) (scope : Scope) (w : Wake) : (s.wakeAll core idx scope w).shells = s.shells := rfl
@[simp] theorem State.wakeAll_shpoison (core idx : Nat) (scope : Scope) (w : Wake) : (s.wakeAll core idx scope w).shpoison = s.shpoison := rfl
@[simp] theorem State.wakeAll_cooling (core idx : Nat) (scope : Scope) (w : Wake) : (s.wakeAll core idx scope w).cooling = s.cooling := rfl
@[simp] theorem State.wakeAll_shreqs (core idx : Nat) (scope : Scope) (w : Wake) : (s.wakeAll core idx scope w).shreqs = s.shreqs := rfl
@[simp] theorem State.wakeAll_landings (core idx : Nat) (scope : Scope) (w : Wake) : (s.wakeAll core idx scope w).landings = s.landings := rfl
@[simp] theorem State.wakeAll_mem (core idx : Nat) (scope : Scope) (w : Wake) : (s.wakeAll core idx scope w).mem = s.mem := rfl
@[simp] theorem State.wakeAll_mpoison (core idx : Nat) (scope : Scope) (w : Wake) : (s.wakeAll core idx scope w).mpoison = s.mpoison := rfl
@[simp] theorem State.wakeAll_wseq (core idx : Nat) (scope : Scope) (w : Wake) : (s.wakeAll core idx scope w).wseq = s.wseq := rfl
@[simp] theorem State.wakeAll_owner (core idx : Nat) (scope : Scope) (w : Wake) : (s.wakeAll core idx scope w).owner = s.owner := rfl
@[simp] theorem State.wakeAll_l1 (core idx : Nat) (scope : Scope) (w : Wake) : (s.wakeAll core idx scope w).l1 = s.l1 := rfl
@[simp] theorem State.wakeAll_fused (core idx : Nat) (scope : Scope) (w : Wake) : (s.wakeAll core idx scope w).fused = s.fused := rfl
@[simp] theorem State.wakeAll_regs (core idx : Nat) (scope : Scope) (w : Wake) : (s.wakeAll core idx scope w).regs = s.regs := rfl
@[simp] theorem State.wakeAll_adds (core idx : Nat) (scope : Scope) (w : Wake) : (s.wakeAll core idx scope w).adds = s.adds := rfl
@[simp] theorem State.wakeAll_acks (core idx : Nat) (scope : Scope) (w : Wake) : (s.wakeAll core idx scope w).acks = s.acks := rfl
@[simp] theorem State.wakeAll_l2 (core idx : Nat) (scope : Scope) (w : Wake) : (s.wakeAll core idx scope w).l2 = s.l2 := rfl
@[simp] theorem State.wakeAll_mirrors (core idx : Nat) (scope : Scope) (w : Wake) : (s.wakeAll core idx scope w).mirrors = s.mirrors := rfl
@[simp] theorem State.wakeAll_misses (core idx : Nat) (scope : Scope) (w : Wake) : (s.wakeAll core idx scope w).misses = s.misses := rfl
@[simp] theorem State.wakeAll_spillq (core idx : Nat) (scope : Scope) (w : Wake) : (s.wakeAll core idx scope w).spillq = s.spillq := rfl
@[simp] theorem State.wakeAll_wfill (core idx : Nat) (scope : Scope) (w : Wake) : (s.wakeAll core idx scope w).wfill = s.wfill := rfl
@[simp] theorem State.wakeAll_icache (core idx : Nat) (scope : Scope) (w : Wake) : (s.wakeAll core idx scope w).icache = s.icache := rfl
@[simp] theorem State.wakeAll_levels (core idx : Nat) (scope : Scope) (w : Wake) : (s.wakeAll core idx scope w).levels = s.levels := rfl
@[simp] theorem State.wakeAll_ticks (core idx : Nat) (scope : Scope) (w : Wake) : (s.wakeAll core idx scope w).ticks = s.ticks := rfl
@[simp] theorem State.wakeAll_tlb (core idx : Nat) (scope : Scope) (w : Wake) : (s.wakeAll core idx scope w).tlb = s.tlb := rfl
@[simp] theorem State.wakeAll_fab (core idx : Nat) (scope : Scope) (w : Wake) : (s.wakeAll core idx scope w).fab = s.fab := rfl
@[simp] theorem State.wakeAll_svc (core idx : Nat) (scope : Scope) (w : Wake) : (s.wakeAll core idx scope w).svc = s.svc := rfl

/-! ## tlbFill -/

/-- A fill of a TLB changes nothing else. -/
theorem State.tlbFill_eq (core asid : Nat) (va : DWord) :
    s.tlbFill core asid va = { s with tlb := (s.tlbFill core asid va).tlb } := by
  unfold State.tlbFill
  split
  · rfl
  · split
    · rfl
    · split <;> rfl

@[simp] theorem State.tlbFill_cycle (core asid : Nat) (va : DWord) : (s.tlbFill core asid va).cycle = s.cycle := by
  rw [State.tlbFill_eq]
@[simp] theorem State.tlbFill_ftime (core asid : Nat) (va : DWord) : (s.tlbFill core asid va).ftime = s.ftime := by
  rw [State.tlbFill_eq]
@[simp] theorem State.tlbFill_ftfrac (core asid : Nat) (va : DWord) : (s.tlbFill core asid va).ftfrac = s.ftfrac := by
  rw [State.tlbFill_eq]
@[simp] theorem State.tlbFill_cur (core asid : Nat) (va : DWord) : (s.tlbFill core asid va).cur = s.cur := by
  rw [State.tlbFill_eq]
@[simp] theorem State.tlbFill_picks (core asid : Nat) (va : DWord) : (s.tlbFill core asid va).picks = s.picks := by
  rw [State.tlbFill_eq]
@[simp] theorem State.tlbFill_woke (core asid : Nat) (va : DWord) : (s.tlbFill core asid va).woke = s.woke := by
  rw [State.tlbFill_eq]
@[simp] theorem State.tlbFill_entered (core asid : Nat) (va : DWord) : (s.tlbFill core asid va).entered = s.entered := by
  rw [State.tlbFill_eq]
@[simp] theorem State.tlbFill_passed (core asid : Nat) (va : DWord) : (s.tlbFill core asid va).passed = s.passed := by
  rw [State.tlbFill_eq]
@[simp] theorem State.tlbFill_arrived (core asid : Nat) (va : DWord) : (s.tlbFill core asid va).arrived = s.arrived := by
  rw [State.tlbFill_eq]
@[simp] theorem State.tlbFill_sfu (core asid : Nat) (va : DWord) : (s.tlbFill core asid va).sfu = s.sfu := by
  rw [State.tlbFill_eq]
@[simp] theorem State.tlbFill_tape (core asid : Nat) (va : DWord) : (s.tlbFill core asid va).tape = s.tape := by
  rw [State.tlbFill_eq]
@[simp] theorem State.tlbFill_nextId (core asid : Nat) (va : DWord) : (s.tlbFill core asid va).nextId = s.nextId := by
  rw [State.tlbFill_eq]
@[simp] theorem State.tlbFill_free (core asid : Nat) (va : DWord) : (s.tlbFill core asid va).free = s.free := by
  rw [State.tlbFill_eq]
@[simp] theorem State.tlbFill_age (core asid : Nat) (va : DWord) : (s.tlbFill core asid va).age = s.age := by
  rw [State.tlbFill_eq]
@[simp] theorem State.tlbFill_crews (core asid : Nat) (va : DWord) : (s.tlbFill core asid va).crews = s.crews := by
  rw [State.tlbFill_eq]
@[simp] theorem State.tlbFill_teams (core asid : Nat) (va : DWord) : (s.tlbFill core asid va).teams = s.teams := by
  rw [State.tlbFill_eq]
@[simp] theorem State.tlbFill_launches (core asid : Nat) (va : DWord) : (s.tlbFill core asid va).launches = s.launches := by
  rw [State.tlbFill_eq]
@[simp] theorem State.tlbFill_seats (core asid : Nat) (va : DWord) : (s.tlbFill core asid va).seats = s.seats := by
  rw [State.tlbFill_eq]
@[simp] theorem State.tlbFill_remote (core asid : Nat) (va : DWord) : (s.tlbFill core asid va).remote = s.remote := by
  rw [State.tlbFill_eq]
@[simp] theorem State.tlbFill_contexts (core asid : Nat) (va : DWord) : (s.tlbFill core asid va).contexts = s.contexts := by
  rw [State.tlbFill_eq]
@[simp] theorem State.tlbFill_parts (core asid : Nat) (va : DWord) : (s.tlbFill core asid va).parts = s.parts := by
  rw [State.tlbFill_eq]
@[simp] theorem State.tlbFill_bays (core asid : Nat) (va : DWord) : (s.tlbFill core asid va).bays = s.bays := by
  rw [State.tlbFill_eq]
@[simp] theorem State.tlbFill_bars (core asid : Nat) (va : DWord) : (s.tlbFill core asid va).bars = s.bars := by
  rw [State.tlbFill_eq]
@[simp] theorem State.tlbFill_barGen (core asid : Nat) (va : DWord) : (s.tlbFill core asid va).barGen = s.barGen := by
  rw [State.tlbFill_eq]
@[simp] theorem State.tlbFill_faultq (core asid : Nat) (va : DWord) : (s.tlbFill core asid va).faultq = s.faultq := by
  rw [State.tlbFill_eq]
@[simp] theorem State.tlbFill_mats (core asid : Nat) (va : DWord) : (s.tlbFill core asid va).mats = s.mats := by
  rw [State.tlbFill_eq]
@[simp] theorem State.tlbFill_tiles (core asid : Nat) (va : DWord) : (s.tlbFill core asid va).tiles = s.tiles := by
  rw [State.tlbFill_eq]
@[simp] theorem State.tlbFill_copies (core asid : Nat) (va : DWord) : (s.tlbFill core asid va).copies = s.copies := by
  rw [State.tlbFill_eq]
@[simp] theorem State.tlbFill_held (core asid : Nat) (va : DWord) : (s.tlbFill core asid va).held = s.held := by
  rw [State.tlbFill_eq]
@[simp] theorem State.tlbFill_shells (core asid : Nat) (va : DWord) : (s.tlbFill core asid va).shells = s.shells := by
  rw [State.tlbFill_eq]
@[simp] theorem State.tlbFill_shpoison (core asid : Nat) (va : DWord) : (s.tlbFill core asid va).shpoison = s.shpoison := by
  rw [State.tlbFill_eq]
@[simp] theorem State.tlbFill_cooling (core asid : Nat) (va : DWord) : (s.tlbFill core asid va).cooling = s.cooling := by
  rw [State.tlbFill_eq]
@[simp] theorem State.tlbFill_shreqs (core asid : Nat) (va : DWord) : (s.tlbFill core asid va).shreqs = s.shreqs := by
  rw [State.tlbFill_eq]
@[simp] theorem State.tlbFill_landings (core asid : Nat) (va : DWord) : (s.tlbFill core asid va).landings = s.landings := by
  rw [State.tlbFill_eq]
@[simp] theorem State.tlbFill_mem (core asid : Nat) (va : DWord) : (s.tlbFill core asid va).mem = s.mem := by
  rw [State.tlbFill_eq]
@[simp] theorem State.tlbFill_mpoison (core asid : Nat) (va : DWord) : (s.tlbFill core asid va).mpoison = s.mpoison := by
  rw [State.tlbFill_eq]
@[simp] theorem State.tlbFill_wseq (core asid : Nat) (va : DWord) : (s.tlbFill core asid va).wseq = s.wseq := by
  rw [State.tlbFill_eq]
@[simp] theorem State.tlbFill_owner (core asid : Nat) (va : DWord) : (s.tlbFill core asid va).owner = s.owner := by
  rw [State.tlbFill_eq]
@[simp] theorem State.tlbFill_l1 (core asid : Nat) (va : DWord) : (s.tlbFill core asid va).l1 = s.l1 := by
  rw [State.tlbFill_eq]
@[simp] theorem State.tlbFill_fused (core asid : Nat) (va : DWord) : (s.tlbFill core asid va).fused = s.fused := by
  rw [State.tlbFill_eq]
@[simp] theorem State.tlbFill_regs (core asid : Nat) (va : DWord) : (s.tlbFill core asid va).regs = s.regs := by
  rw [State.tlbFill_eq]
@[simp] theorem State.tlbFill_adds (core asid : Nat) (va : DWord) : (s.tlbFill core asid va).adds = s.adds := by
  rw [State.tlbFill_eq]
@[simp] theorem State.tlbFill_acks (core asid : Nat) (va : DWord) : (s.tlbFill core asid va).acks = s.acks := by
  rw [State.tlbFill_eq]
@[simp] theorem State.tlbFill_l2 (core asid : Nat) (va : DWord) : (s.tlbFill core asid va).l2 = s.l2 := by
  rw [State.tlbFill_eq]
@[simp] theorem State.tlbFill_mirrors (core asid : Nat) (va : DWord) : (s.tlbFill core asid va).mirrors = s.mirrors := by
  rw [State.tlbFill_eq]
@[simp] theorem State.tlbFill_misses (core asid : Nat) (va : DWord) : (s.tlbFill core asid va).misses = s.misses := by
  rw [State.tlbFill_eq]
@[simp] theorem State.tlbFill_spillq (core asid : Nat) (va : DWord) : (s.tlbFill core asid va).spillq = s.spillq := by
  rw [State.tlbFill_eq]
@[simp] theorem State.tlbFill_wfill (core asid : Nat) (va : DWord) : (s.tlbFill core asid va).wfill = s.wfill := by
  rw [State.tlbFill_eq]
@[simp] theorem State.tlbFill_icache (core asid : Nat) (va : DWord) : (s.tlbFill core asid va).icache = s.icache := by
  rw [State.tlbFill_eq]
@[simp] theorem State.tlbFill_levels (core asid : Nat) (va : DWord) : (s.tlbFill core asid va).levels = s.levels := by
  rw [State.tlbFill_eq]
@[simp] theorem State.tlbFill_ticks (core asid : Nat) (va : DWord) : (s.tlbFill core asid va).ticks = s.ticks := by
  rw [State.tlbFill_eq]
@[simp] theorem State.tlbFill_fab (core asid : Nat) (va : DWord) : (s.tlbFill core asid va).fab = s.fab := by
  rw [State.tlbFill_eq]
@[simp] theorem State.tlbFill_svc (core asid : Nat) (va : DWord) : (s.tlbFill core asid va).svc = s.svc := by
  rw [State.tlbFill_eq]

/-! ## noteArrival -/

/-- A value that arrives changes only what the core's later picks see. -/
theorem State.noteArrival_eq (cid reg seq : Nat) :
    s.noteArrival cid reg seq = { s with
      arrived := (s.noteArrival cid reg seq).arrived, picks := (s.noteArrival cid reg seq).picks } := by
  unfold State.noteArrival
  split <;> rfl

@[simp] theorem State.noteArrival_cycle (cid reg seq : Nat) : (s.noteArrival cid reg seq).cycle = s.cycle := by
  rw [State.noteArrival_eq]
@[simp] theorem State.noteArrival_ftime (cid reg seq : Nat) : (s.noteArrival cid reg seq).ftime = s.ftime := by
  rw [State.noteArrival_eq]
@[simp] theorem State.noteArrival_ftfrac (cid reg seq : Nat) : (s.noteArrival cid reg seq).ftfrac = s.ftfrac := by
  rw [State.noteArrival_eq]
@[simp] theorem State.noteArrival_cur (cid reg seq : Nat) : (s.noteArrival cid reg seq).cur = s.cur := by
  rw [State.noteArrival_eq]
@[simp] theorem State.noteArrival_woke (cid reg seq : Nat) : (s.noteArrival cid reg seq).woke = s.woke := by
  rw [State.noteArrival_eq]
@[simp] theorem State.noteArrival_entered (cid reg seq : Nat) : (s.noteArrival cid reg seq).entered = s.entered := by
  rw [State.noteArrival_eq]
@[simp] theorem State.noteArrival_passed (cid reg seq : Nat) : (s.noteArrival cid reg seq).passed = s.passed := by
  rw [State.noteArrival_eq]
@[simp] theorem State.noteArrival_sfu (cid reg seq : Nat) : (s.noteArrival cid reg seq).sfu = s.sfu := by
  rw [State.noteArrival_eq]
@[simp] theorem State.noteArrival_tape (cid reg seq : Nat) : (s.noteArrival cid reg seq).tape = s.tape := by
  rw [State.noteArrival_eq]
@[simp] theorem State.noteArrival_nextId (cid reg seq : Nat) : (s.noteArrival cid reg seq).nextId = s.nextId := by
  rw [State.noteArrival_eq]
@[simp] theorem State.noteArrival_free (cid reg seq : Nat) : (s.noteArrival cid reg seq).free = s.free := by
  rw [State.noteArrival_eq]
@[simp] theorem State.noteArrival_age (cid reg seq : Nat) : (s.noteArrival cid reg seq).age = s.age := by
  rw [State.noteArrival_eq]
@[simp] theorem State.noteArrival_crews (cid reg seq : Nat) : (s.noteArrival cid reg seq).crews = s.crews := by
  rw [State.noteArrival_eq]
@[simp] theorem State.noteArrival_teams (cid reg seq : Nat) : (s.noteArrival cid reg seq).teams = s.teams := by
  rw [State.noteArrival_eq]
@[simp] theorem State.noteArrival_launches (cid reg seq : Nat) : (s.noteArrival cid reg seq).launches = s.launches := by
  rw [State.noteArrival_eq]
@[simp] theorem State.noteArrival_seats (cid reg seq : Nat) : (s.noteArrival cid reg seq).seats = s.seats := by
  rw [State.noteArrival_eq]
@[simp] theorem State.noteArrival_remote (cid reg seq : Nat) : (s.noteArrival cid reg seq).remote = s.remote := by
  rw [State.noteArrival_eq]
@[simp] theorem State.noteArrival_contexts (cid reg seq : Nat) : (s.noteArrival cid reg seq).contexts = s.contexts := by
  rw [State.noteArrival_eq]
@[simp] theorem State.noteArrival_parts (cid reg seq : Nat) : (s.noteArrival cid reg seq).parts = s.parts := by
  rw [State.noteArrival_eq]
@[simp] theorem State.noteArrival_bays (cid reg seq : Nat) : (s.noteArrival cid reg seq).bays = s.bays := by
  rw [State.noteArrival_eq]
@[simp] theorem State.noteArrival_bars (cid reg seq : Nat) : (s.noteArrival cid reg seq).bars = s.bars := by
  rw [State.noteArrival_eq]
@[simp] theorem State.noteArrival_barGen (cid reg seq : Nat) : (s.noteArrival cid reg seq).barGen = s.barGen := by
  rw [State.noteArrival_eq]
@[simp] theorem State.noteArrival_faultq (cid reg seq : Nat) : (s.noteArrival cid reg seq).faultq = s.faultq := by
  rw [State.noteArrival_eq]
@[simp] theorem State.noteArrival_mats (cid reg seq : Nat) : (s.noteArrival cid reg seq).mats = s.mats := by
  rw [State.noteArrival_eq]
@[simp] theorem State.noteArrival_tiles (cid reg seq : Nat) : (s.noteArrival cid reg seq).tiles = s.tiles := by
  rw [State.noteArrival_eq]
@[simp] theorem State.noteArrival_copies (cid reg seq : Nat) : (s.noteArrival cid reg seq).copies = s.copies := by
  rw [State.noteArrival_eq]
@[simp] theorem State.noteArrival_held (cid reg seq : Nat) : (s.noteArrival cid reg seq).held = s.held := by
  rw [State.noteArrival_eq]
@[simp] theorem State.noteArrival_shells (cid reg seq : Nat) : (s.noteArrival cid reg seq).shells = s.shells := by
  rw [State.noteArrival_eq]
@[simp] theorem State.noteArrival_shpoison (cid reg seq : Nat) : (s.noteArrival cid reg seq).shpoison = s.shpoison := by
  rw [State.noteArrival_eq]
@[simp] theorem State.noteArrival_cooling (cid reg seq : Nat) : (s.noteArrival cid reg seq).cooling = s.cooling := by
  rw [State.noteArrival_eq]
@[simp] theorem State.noteArrival_shreqs (cid reg seq : Nat) : (s.noteArrival cid reg seq).shreqs = s.shreqs := by
  rw [State.noteArrival_eq]
@[simp] theorem State.noteArrival_landings (cid reg seq : Nat) : (s.noteArrival cid reg seq).landings = s.landings := by
  rw [State.noteArrival_eq]
@[simp] theorem State.noteArrival_mem (cid reg seq : Nat) : (s.noteArrival cid reg seq).mem = s.mem := by
  rw [State.noteArrival_eq]
@[simp] theorem State.noteArrival_mpoison (cid reg seq : Nat) : (s.noteArrival cid reg seq).mpoison = s.mpoison := by
  rw [State.noteArrival_eq]
@[simp] theorem State.noteArrival_wseq (cid reg seq : Nat) : (s.noteArrival cid reg seq).wseq = s.wseq := by
  rw [State.noteArrival_eq]
@[simp] theorem State.noteArrival_owner (cid reg seq : Nat) : (s.noteArrival cid reg seq).owner = s.owner := by
  rw [State.noteArrival_eq]
@[simp] theorem State.noteArrival_l1 (cid reg seq : Nat) : (s.noteArrival cid reg seq).l1 = s.l1 := by
  rw [State.noteArrival_eq]
@[simp] theorem State.noteArrival_fused (cid reg seq : Nat) : (s.noteArrival cid reg seq).fused = s.fused := by
  rw [State.noteArrival_eq]
@[simp] theorem State.noteArrival_regs (cid reg seq : Nat) : (s.noteArrival cid reg seq).regs = s.regs := by
  rw [State.noteArrival_eq]
@[simp] theorem State.noteArrival_adds (cid reg seq : Nat) : (s.noteArrival cid reg seq).adds = s.adds := by
  rw [State.noteArrival_eq]
@[simp] theorem State.noteArrival_acks (cid reg seq : Nat) : (s.noteArrival cid reg seq).acks = s.acks := by
  rw [State.noteArrival_eq]
@[simp] theorem State.noteArrival_l2 (cid reg seq : Nat) : (s.noteArrival cid reg seq).l2 = s.l2 := by
  rw [State.noteArrival_eq]
@[simp] theorem State.noteArrival_mirrors (cid reg seq : Nat) : (s.noteArrival cid reg seq).mirrors = s.mirrors := by
  rw [State.noteArrival_eq]
@[simp] theorem State.noteArrival_misses (cid reg seq : Nat) : (s.noteArrival cid reg seq).misses = s.misses := by
  rw [State.noteArrival_eq]
@[simp] theorem State.noteArrival_spillq (cid reg seq : Nat) : (s.noteArrival cid reg seq).spillq = s.spillq := by
  rw [State.noteArrival_eq]
@[simp] theorem State.noteArrival_wfill (cid reg seq : Nat) : (s.noteArrival cid reg seq).wfill = s.wfill := by
  rw [State.noteArrival_eq]
@[simp] theorem State.noteArrival_icache (cid reg seq : Nat) : (s.noteArrival cid reg seq).icache = s.icache := by
  rw [State.noteArrival_eq]
@[simp] theorem State.noteArrival_levels (cid reg seq : Nat) : (s.noteArrival cid reg seq).levels = s.levels := by
  rw [State.noteArrival_eq]
@[simp] theorem State.noteArrival_ticks (cid reg seq : Nat) : (s.noteArrival cid reg seq).ticks = s.ticks := by
  rw [State.noteArrival_eq]
@[simp] theorem State.noteArrival_tlb (cid reg seq : Nat) : (s.noteArrival cid reg seq).tlb = s.tlb := by
  rw [State.noteArrival_eq]
@[simp] theorem State.noteArrival_fab (cid reg seq : Nat) : (s.noteArrival cid reg seq).fab = s.fab := by
  rw [State.noteArrival_eq]
@[simp] theorem State.noteArrival_svc (cid reg seq : Nat) : (s.noteArrival cid reg seq).svc = s.svc := by
  rw [State.noteArrival_eq]

/-! ## giveBack, l1Evict -/

theorem State.noteWriteBacks_eq (core : Nat) (ls : List Nat) :
    ls.foldl (fun (s : State) l => s.noteWriteBack (sliceOf core (256 * l)) l) s = { s with
      misses := (ls.foldl (fun (s : State) l => s.noteWriteBack (sliceOf core (256 * l)) l) s).misses } := by
  induction ls generalizing s with
  | nil => rfl
  | cons l ls ih => exact ih (s.noteWriteBack (sliceOf core (256 * l)) l)

/-- Words that an L1 gives up change the slices and their miss tables alone. -/
theorem State.giveBack_eq (core : Nat) (ws : List Nat) :
    s.giveBack core ws = { s with
      misses := (s.giveBack core ws).misses, l2 := (s.giveBack core ws).l2, wfill := (s.giveBack core ws).wfill } := by
  unfold State.giveBack
  rw [State.noteWriteBacks_eq]
  rfl

/-- A line that an L1 loses changes that L1, the owners, the slices and their miss tables alone. -/
theorem State.l1Evict_eq (core line : Nat) :
    s.l1Evict core line = { s with
      misses := (s.l1Evict core line).misses, l2 := (s.l1Evict core line).l2, wfill := (s.l1Evict core line).wfill,
      owner := (s.l1Evict core line).owner, l1 := (s.l1Evict core line).l1 } := by
  unfold State.l1Evict
  rw [State.giveBack_eq]

@[simp] theorem State.giveBack_cycle (core : Nat) (ws : List Nat) : (s.giveBack core ws).cycle = s.cycle := by
  rw [State.giveBack_eq]
@[simp] theorem State.giveBack_ftime (core : Nat) (ws : List Nat) : (s.giveBack core ws).ftime = s.ftime := by
  rw [State.giveBack_eq]
@[simp] theorem State.giveBack_ftfrac (core : Nat) (ws : List Nat) : (s.giveBack core ws).ftfrac = s.ftfrac := by
  rw [State.giveBack_eq]
@[simp] theorem State.giveBack_cur (core : Nat) (ws : List Nat) : (s.giveBack core ws).cur = s.cur := by
  rw [State.giveBack_eq]
@[simp] theorem State.giveBack_picks (core : Nat) (ws : List Nat) : (s.giveBack core ws).picks = s.picks := by
  rw [State.giveBack_eq]
@[simp] theorem State.giveBack_woke (core : Nat) (ws : List Nat) : (s.giveBack core ws).woke = s.woke := by
  rw [State.giveBack_eq]
@[simp] theorem State.giveBack_entered (core : Nat) (ws : List Nat) : (s.giveBack core ws).entered = s.entered := by
  rw [State.giveBack_eq]
@[simp] theorem State.giveBack_passed (core : Nat) (ws : List Nat) : (s.giveBack core ws).passed = s.passed := by
  rw [State.giveBack_eq]
@[simp] theorem State.giveBack_arrived (core : Nat) (ws : List Nat) : (s.giveBack core ws).arrived = s.arrived := by
  rw [State.giveBack_eq]
@[simp] theorem State.giveBack_sfu (core : Nat) (ws : List Nat) : (s.giveBack core ws).sfu = s.sfu := by
  rw [State.giveBack_eq]
@[simp] theorem State.giveBack_tape (core : Nat) (ws : List Nat) : (s.giveBack core ws).tape = s.tape := by
  rw [State.giveBack_eq]
@[simp] theorem State.giveBack_nextId (core : Nat) (ws : List Nat) : (s.giveBack core ws).nextId = s.nextId := by
  rw [State.giveBack_eq]
@[simp] theorem State.giveBack_free (core : Nat) (ws : List Nat) : (s.giveBack core ws).free = s.free := by
  rw [State.giveBack_eq]
@[simp] theorem State.giveBack_age (core : Nat) (ws : List Nat) : (s.giveBack core ws).age = s.age := by
  rw [State.giveBack_eq]
@[simp] theorem State.giveBack_crews (core : Nat) (ws : List Nat) : (s.giveBack core ws).crews = s.crews := by
  rw [State.giveBack_eq]
@[simp] theorem State.giveBack_teams (core : Nat) (ws : List Nat) : (s.giveBack core ws).teams = s.teams := by
  rw [State.giveBack_eq]
@[simp] theorem State.giveBack_launches (core : Nat) (ws : List Nat) : (s.giveBack core ws).launches = s.launches := by
  rw [State.giveBack_eq]
@[simp] theorem State.giveBack_seats (core : Nat) (ws : List Nat) : (s.giveBack core ws).seats = s.seats := by
  rw [State.giveBack_eq]
@[simp] theorem State.giveBack_remote (core : Nat) (ws : List Nat) : (s.giveBack core ws).remote = s.remote := by
  rw [State.giveBack_eq]
@[simp] theorem State.giveBack_contexts (core : Nat) (ws : List Nat) : (s.giveBack core ws).contexts = s.contexts := by
  rw [State.giveBack_eq]
@[simp] theorem State.giveBack_parts (core : Nat) (ws : List Nat) : (s.giveBack core ws).parts = s.parts := by
  rw [State.giveBack_eq]
@[simp] theorem State.giveBack_bays (core : Nat) (ws : List Nat) : (s.giveBack core ws).bays = s.bays := by
  rw [State.giveBack_eq]
@[simp] theorem State.giveBack_bars (core : Nat) (ws : List Nat) : (s.giveBack core ws).bars = s.bars := by
  rw [State.giveBack_eq]
@[simp] theorem State.giveBack_barGen (core : Nat) (ws : List Nat) : (s.giveBack core ws).barGen = s.barGen := by
  rw [State.giveBack_eq]
@[simp] theorem State.giveBack_faultq (core : Nat) (ws : List Nat) : (s.giveBack core ws).faultq = s.faultq := by
  rw [State.giveBack_eq]
@[simp] theorem State.giveBack_mats (core : Nat) (ws : List Nat) : (s.giveBack core ws).mats = s.mats := by
  rw [State.giveBack_eq]
@[simp] theorem State.giveBack_tiles (core : Nat) (ws : List Nat) : (s.giveBack core ws).tiles = s.tiles := by
  rw [State.giveBack_eq]
@[simp] theorem State.giveBack_copies (core : Nat) (ws : List Nat) : (s.giveBack core ws).copies = s.copies := by
  rw [State.giveBack_eq]
@[simp] theorem State.giveBack_held (core : Nat) (ws : List Nat) : (s.giveBack core ws).held = s.held := by
  rw [State.giveBack_eq]
@[simp] theorem State.giveBack_shells (core : Nat) (ws : List Nat) : (s.giveBack core ws).shells = s.shells := by
  rw [State.giveBack_eq]
@[simp] theorem State.giveBack_shpoison (core : Nat) (ws : List Nat) : (s.giveBack core ws).shpoison = s.shpoison := by
  rw [State.giveBack_eq]
@[simp] theorem State.giveBack_cooling (core : Nat) (ws : List Nat) : (s.giveBack core ws).cooling = s.cooling := by
  rw [State.giveBack_eq]
@[simp] theorem State.giveBack_shreqs (core : Nat) (ws : List Nat) : (s.giveBack core ws).shreqs = s.shreqs := by
  rw [State.giveBack_eq]
@[simp] theorem State.giveBack_landings (core : Nat) (ws : List Nat) : (s.giveBack core ws).landings = s.landings := by
  rw [State.giveBack_eq]
@[simp] theorem State.giveBack_mem (core : Nat) (ws : List Nat) : (s.giveBack core ws).mem = s.mem := by
  rw [State.giveBack_eq]
@[simp] theorem State.giveBack_mpoison (core : Nat) (ws : List Nat) : (s.giveBack core ws).mpoison = s.mpoison := by
  rw [State.giveBack_eq]
@[simp] theorem State.giveBack_wseq (core : Nat) (ws : List Nat) : (s.giveBack core ws).wseq = s.wseq := by
  rw [State.giveBack_eq]
@[simp] theorem State.giveBack_owner (core : Nat) (ws : List Nat) : (s.giveBack core ws).owner = s.owner := by
  rw [State.giveBack_eq]
@[simp] theorem State.giveBack_l1 (core : Nat) (ws : List Nat) : (s.giveBack core ws).l1 = s.l1 := by
  rw [State.giveBack_eq]
@[simp] theorem State.giveBack_fused (core : Nat) (ws : List Nat) : (s.giveBack core ws).fused = s.fused := by
  rw [State.giveBack_eq]
@[simp] theorem State.giveBack_regs (core : Nat) (ws : List Nat) : (s.giveBack core ws).regs = s.regs := by
  rw [State.giveBack_eq]
@[simp] theorem State.giveBack_adds (core : Nat) (ws : List Nat) : (s.giveBack core ws).adds = s.adds := by
  rw [State.giveBack_eq]
@[simp] theorem State.giveBack_acks (core : Nat) (ws : List Nat) : (s.giveBack core ws).acks = s.acks := by
  rw [State.giveBack_eq]
@[simp] theorem State.giveBack_mirrors (core : Nat) (ws : List Nat) : (s.giveBack core ws).mirrors = s.mirrors := by
  rw [State.giveBack_eq]
@[simp] theorem State.giveBack_spillq (core : Nat) (ws : List Nat) : (s.giveBack core ws).spillq = s.spillq := by
  rw [State.giveBack_eq]
@[simp] theorem State.giveBack_icache (core : Nat) (ws : List Nat) : (s.giveBack core ws).icache = s.icache := by
  rw [State.giveBack_eq]
@[simp] theorem State.giveBack_levels (core : Nat) (ws : List Nat) : (s.giveBack core ws).levels = s.levels := by
  rw [State.giveBack_eq]
@[simp] theorem State.giveBack_ticks (core : Nat) (ws : List Nat) : (s.giveBack core ws).ticks = s.ticks := by
  rw [State.giveBack_eq]
@[simp] theorem State.giveBack_tlb (core : Nat) (ws : List Nat) : (s.giveBack core ws).tlb = s.tlb := by
  rw [State.giveBack_eq]
@[simp] theorem State.giveBack_fab (core : Nat) (ws : List Nat) : (s.giveBack core ws).fab = s.fab := by
  rw [State.giveBack_eq]
@[simp] theorem State.giveBack_svc (core : Nat) (ws : List Nat) : (s.giveBack core ws).svc = s.svc := by
  rw [State.giveBack_eq]
@[simp] theorem State.l1Evict_cycle (core line : Nat) : (s.l1Evict core line).cycle = s.cycle := by
  rw [State.l1Evict_eq]
@[simp] theorem State.l1Evict_ftime (core line : Nat) : (s.l1Evict core line).ftime = s.ftime := by
  rw [State.l1Evict_eq]
@[simp] theorem State.l1Evict_ftfrac (core line : Nat) : (s.l1Evict core line).ftfrac = s.ftfrac := by
  rw [State.l1Evict_eq]
@[simp] theorem State.l1Evict_cur (core line : Nat) : (s.l1Evict core line).cur = s.cur := by
  rw [State.l1Evict_eq]
@[simp] theorem State.l1Evict_picks (core line : Nat) : (s.l1Evict core line).picks = s.picks := by
  rw [State.l1Evict_eq]
@[simp] theorem State.l1Evict_woke (core line : Nat) : (s.l1Evict core line).woke = s.woke := by
  rw [State.l1Evict_eq]
@[simp] theorem State.l1Evict_entered (core line : Nat) : (s.l1Evict core line).entered = s.entered := by
  rw [State.l1Evict_eq]
@[simp] theorem State.l1Evict_passed (core line : Nat) : (s.l1Evict core line).passed = s.passed := by
  rw [State.l1Evict_eq]
@[simp] theorem State.l1Evict_arrived (core line : Nat) : (s.l1Evict core line).arrived = s.arrived := by
  rw [State.l1Evict_eq]
@[simp] theorem State.l1Evict_sfu (core line : Nat) : (s.l1Evict core line).sfu = s.sfu := by
  rw [State.l1Evict_eq]
@[simp] theorem State.l1Evict_tape (core line : Nat) : (s.l1Evict core line).tape = s.tape := by
  rw [State.l1Evict_eq]
@[simp] theorem State.l1Evict_nextId (core line : Nat) : (s.l1Evict core line).nextId = s.nextId := by
  rw [State.l1Evict_eq]
@[simp] theorem State.l1Evict_free (core line : Nat) : (s.l1Evict core line).free = s.free := by
  rw [State.l1Evict_eq]
@[simp] theorem State.l1Evict_age (core line : Nat) : (s.l1Evict core line).age = s.age := by
  rw [State.l1Evict_eq]
@[simp] theorem State.l1Evict_crews (core line : Nat) : (s.l1Evict core line).crews = s.crews := by
  rw [State.l1Evict_eq]
@[simp] theorem State.l1Evict_teams (core line : Nat) : (s.l1Evict core line).teams = s.teams := by
  rw [State.l1Evict_eq]
@[simp] theorem State.l1Evict_launches (core line : Nat) : (s.l1Evict core line).launches = s.launches := by
  rw [State.l1Evict_eq]
@[simp] theorem State.l1Evict_seats (core line : Nat) : (s.l1Evict core line).seats = s.seats := by
  rw [State.l1Evict_eq]
@[simp] theorem State.l1Evict_remote (core line : Nat) : (s.l1Evict core line).remote = s.remote := by
  rw [State.l1Evict_eq]
@[simp] theorem State.l1Evict_contexts (core line : Nat) : (s.l1Evict core line).contexts = s.contexts := by
  rw [State.l1Evict_eq]
@[simp] theorem State.l1Evict_parts (core line : Nat) : (s.l1Evict core line).parts = s.parts := by
  rw [State.l1Evict_eq]
@[simp] theorem State.l1Evict_bays (core line : Nat) : (s.l1Evict core line).bays = s.bays := by
  rw [State.l1Evict_eq]
@[simp] theorem State.l1Evict_bars (core line : Nat) : (s.l1Evict core line).bars = s.bars := by
  rw [State.l1Evict_eq]
@[simp] theorem State.l1Evict_barGen (core line : Nat) : (s.l1Evict core line).barGen = s.barGen := by
  rw [State.l1Evict_eq]
@[simp] theorem State.l1Evict_faultq (core line : Nat) : (s.l1Evict core line).faultq = s.faultq := by
  rw [State.l1Evict_eq]
@[simp] theorem State.l1Evict_mats (core line : Nat) : (s.l1Evict core line).mats = s.mats := by
  rw [State.l1Evict_eq]
@[simp] theorem State.l1Evict_tiles (core line : Nat) : (s.l1Evict core line).tiles = s.tiles := by
  rw [State.l1Evict_eq]
@[simp] theorem State.l1Evict_copies (core line : Nat) : (s.l1Evict core line).copies = s.copies := by
  rw [State.l1Evict_eq]
@[simp] theorem State.l1Evict_held (core line : Nat) : (s.l1Evict core line).held = s.held := by
  rw [State.l1Evict_eq]
@[simp] theorem State.l1Evict_shells (core line : Nat) : (s.l1Evict core line).shells = s.shells := by
  rw [State.l1Evict_eq]
@[simp] theorem State.l1Evict_shpoison (core line : Nat) : (s.l1Evict core line).shpoison = s.shpoison := by
  rw [State.l1Evict_eq]
@[simp] theorem State.l1Evict_cooling (core line : Nat) : (s.l1Evict core line).cooling = s.cooling := by
  rw [State.l1Evict_eq]
@[simp] theorem State.l1Evict_shreqs (core line : Nat) : (s.l1Evict core line).shreqs = s.shreqs := by
  rw [State.l1Evict_eq]
@[simp] theorem State.l1Evict_landings (core line : Nat) : (s.l1Evict core line).landings = s.landings := by
  rw [State.l1Evict_eq]
@[simp] theorem State.l1Evict_mem (core line : Nat) : (s.l1Evict core line).mem = s.mem := by
  rw [State.l1Evict_eq]
@[simp] theorem State.l1Evict_mpoison (core line : Nat) : (s.l1Evict core line).mpoison = s.mpoison := by
  rw [State.l1Evict_eq]
@[simp] theorem State.l1Evict_wseq (core line : Nat) : (s.l1Evict core line).wseq = s.wseq := by
  rw [State.l1Evict_eq]
@[simp] theorem State.l1Evict_fused (core line : Nat) : (s.l1Evict core line).fused = s.fused := by
  rw [State.l1Evict_eq]
@[simp] theorem State.l1Evict_regs (core line : Nat) : (s.l1Evict core line).regs = s.regs := by
  rw [State.l1Evict_eq]
@[simp] theorem State.l1Evict_adds (core line : Nat) : (s.l1Evict core line).adds = s.adds := by
  rw [State.l1Evict_eq]
@[simp] theorem State.l1Evict_acks (core line : Nat) : (s.l1Evict core line).acks = s.acks := by
  rw [State.l1Evict_eq]
@[simp] theorem State.l1Evict_mirrors (core line : Nat) : (s.l1Evict core line).mirrors = s.mirrors := by
  rw [State.l1Evict_eq]
@[simp] theorem State.l1Evict_spillq (core line : Nat) : (s.l1Evict core line).spillq = s.spillq := by
  rw [State.l1Evict_eq]
@[simp] theorem State.l1Evict_icache (core line : Nat) : (s.l1Evict core line).icache = s.icache := by
  rw [State.l1Evict_eq]
@[simp] theorem State.l1Evict_levels (core line : Nat) : (s.l1Evict core line).levels = s.levels := by
  rw [State.l1Evict_eq]
@[simp] theorem State.l1Evict_ticks (core line : Nat) : (s.l1Evict core line).ticks = s.ticks := by
  rw [State.l1Evict_eq]
@[simp] theorem State.l1Evict_tlb (core line : Nat) : (s.l1Evict core line).tlb = s.tlb := by
  rw [State.l1Evict_eq]
@[simp] theorem State.l1Evict_fab (core line : Nat) : (s.l1Evict core line).fab = s.fab := by
  rw [State.l1Evict_eq]
@[simp] theorem State.l1Evict_svc (core line : Nat) : (s.l1Evict core line).svc = s.svc := by
  rw [State.l1Evict_eq]

/-! ## l1Put -/

/-- A word that an L1 takes changes that L1 alone, and the owners and the slices of a line that leaves it. -/
theorem State.l1Put_eq (w : L1Word) :
    s.l1Put w = { s with l1 := (s.l1Put w).l1, owner := (s.l1Put w).owner, l2 := (s.l1Put w).l2,
                          misses := (s.l1Put w).misses, wfill := (s.l1Put w).wfill } := by
  unfold State.l1Put
  dsimp only
  split
  · rfl
  · split
    · split
      · rfl
      · rw [State.l1Evict_eq]
    · rfl

@[simp] theorem State.l1Put_cycle (w : L1Word) : (s.l1Put w).cycle = s.cycle := by
  rw [State.l1Put_eq]
@[simp] theorem State.l1Put_ftime (w : L1Word) : (s.l1Put w).ftime = s.ftime := by
  rw [State.l1Put_eq]
@[simp] theorem State.l1Put_ftfrac (w : L1Word) : (s.l1Put w).ftfrac = s.ftfrac := by
  rw [State.l1Put_eq]
@[simp] theorem State.l1Put_cur (w : L1Word) : (s.l1Put w).cur = s.cur := by
  rw [State.l1Put_eq]
@[simp] theorem State.l1Put_picks (w : L1Word) : (s.l1Put w).picks = s.picks := by
  rw [State.l1Put_eq]
@[simp] theorem State.l1Put_woke (w : L1Word) : (s.l1Put w).woke = s.woke := by
  rw [State.l1Put_eq]
@[simp] theorem State.l1Put_entered (w : L1Word) : (s.l1Put w).entered = s.entered := by
  rw [State.l1Put_eq]
@[simp] theorem State.l1Put_passed (w : L1Word) : (s.l1Put w).passed = s.passed := by
  rw [State.l1Put_eq]
@[simp] theorem State.l1Put_arrived (w : L1Word) : (s.l1Put w).arrived = s.arrived := by
  rw [State.l1Put_eq]
@[simp] theorem State.l1Put_sfu (w : L1Word) : (s.l1Put w).sfu = s.sfu := by
  rw [State.l1Put_eq]
@[simp] theorem State.l1Put_tape (w : L1Word) : (s.l1Put w).tape = s.tape := by
  rw [State.l1Put_eq]
@[simp] theorem State.l1Put_nextId (w : L1Word) : (s.l1Put w).nextId = s.nextId := by
  rw [State.l1Put_eq]
@[simp] theorem State.l1Put_free (w : L1Word) : (s.l1Put w).free = s.free := by
  rw [State.l1Put_eq]
@[simp] theorem State.l1Put_age (w : L1Word) : (s.l1Put w).age = s.age := by
  rw [State.l1Put_eq]
@[simp] theorem State.l1Put_crews (w : L1Word) : (s.l1Put w).crews = s.crews := by
  rw [State.l1Put_eq]
@[simp] theorem State.l1Put_teams (w : L1Word) : (s.l1Put w).teams = s.teams := by
  rw [State.l1Put_eq]
@[simp] theorem State.l1Put_launches (w : L1Word) : (s.l1Put w).launches = s.launches := by
  rw [State.l1Put_eq]
@[simp] theorem State.l1Put_seats (w : L1Word) : (s.l1Put w).seats = s.seats := by
  rw [State.l1Put_eq]
@[simp] theorem State.l1Put_remote (w : L1Word) : (s.l1Put w).remote = s.remote := by
  rw [State.l1Put_eq]
@[simp] theorem State.l1Put_contexts (w : L1Word) : (s.l1Put w).contexts = s.contexts := by
  rw [State.l1Put_eq]
@[simp] theorem State.l1Put_parts (w : L1Word) : (s.l1Put w).parts = s.parts := by
  rw [State.l1Put_eq]
@[simp] theorem State.l1Put_bays (w : L1Word) : (s.l1Put w).bays = s.bays := by
  rw [State.l1Put_eq]
@[simp] theorem State.l1Put_bars (w : L1Word) : (s.l1Put w).bars = s.bars := by
  rw [State.l1Put_eq]
@[simp] theorem State.l1Put_barGen (w : L1Word) : (s.l1Put w).barGen = s.barGen := by
  rw [State.l1Put_eq]
@[simp] theorem State.l1Put_faultq (w : L1Word) : (s.l1Put w).faultq = s.faultq := by
  rw [State.l1Put_eq]
@[simp] theorem State.l1Put_mats (w : L1Word) : (s.l1Put w).mats = s.mats := by
  rw [State.l1Put_eq]
@[simp] theorem State.l1Put_tiles (w : L1Word) : (s.l1Put w).tiles = s.tiles := by
  rw [State.l1Put_eq]
@[simp] theorem State.l1Put_copies (w : L1Word) : (s.l1Put w).copies = s.copies := by
  rw [State.l1Put_eq]
@[simp] theorem State.l1Put_held (w : L1Word) : (s.l1Put w).held = s.held := by
  rw [State.l1Put_eq]
@[simp] theorem State.l1Put_shells (w : L1Word) : (s.l1Put w).shells = s.shells := by
  rw [State.l1Put_eq]
@[simp] theorem State.l1Put_shpoison (w : L1Word) : (s.l1Put w).shpoison = s.shpoison := by
  rw [State.l1Put_eq]
@[simp] theorem State.l1Put_cooling (w : L1Word) : (s.l1Put w).cooling = s.cooling := by
  rw [State.l1Put_eq]
@[simp] theorem State.l1Put_shreqs (w : L1Word) : (s.l1Put w).shreqs = s.shreqs := by
  rw [State.l1Put_eq]
@[simp] theorem State.l1Put_landings (w : L1Word) : (s.l1Put w).landings = s.landings := by
  rw [State.l1Put_eq]
@[simp] theorem State.l1Put_mem (w : L1Word) : (s.l1Put w).mem = s.mem := by
  rw [State.l1Put_eq]
@[simp] theorem State.l1Put_mpoison (w : L1Word) : (s.l1Put w).mpoison = s.mpoison := by
  rw [State.l1Put_eq]
@[simp] theorem State.l1Put_wseq (w : L1Word) : (s.l1Put w).wseq = s.wseq := by
  rw [State.l1Put_eq]
@[simp] theorem State.l1Put_fused (w : L1Word) : (s.l1Put w).fused = s.fused := by
  rw [State.l1Put_eq]
@[simp] theorem State.l1Put_regs (w : L1Word) : (s.l1Put w).regs = s.regs := by
  rw [State.l1Put_eq]
@[simp] theorem State.l1Put_adds (w : L1Word) : (s.l1Put w).adds = s.adds := by
  rw [State.l1Put_eq]
@[simp] theorem State.l1Put_acks (w : L1Word) : (s.l1Put w).acks = s.acks := by
  rw [State.l1Put_eq]
@[simp] theorem State.l1Put_mirrors (w : L1Word) : (s.l1Put w).mirrors = s.mirrors := by
  rw [State.l1Put_eq]
@[simp] theorem State.l1Put_spillq (w : L1Word) : (s.l1Put w).spillq = s.spillq := by
  rw [State.l1Put_eq]
@[simp] theorem State.l1Put_icache (w : L1Word) : (s.l1Put w).icache = s.icache := by
  rw [State.l1Put_eq]
@[simp] theorem State.l1Put_levels (w : L1Word) : (s.l1Put w).levels = s.levels := by
  rw [State.l1Put_eq]
@[simp] theorem State.l1Put_ticks (w : L1Word) : (s.l1Put w).ticks = s.ticks := by
  rw [State.l1Put_eq]
@[simp] theorem State.l1Put_tlb (w : L1Word) : (s.l1Put w).tlb = s.tlb := by
  rw [State.l1Put_eq]
@[simp] theorem State.l1Put_fab (w : L1Word) : (s.l1Put w).fab = s.fab := by
  rw [State.l1Put_eq]
@[simp] theorem State.l1Put_svc (w : L1Word) : (s.l1Put w).svc = s.svc := by
  rw [State.l1Put_eq]

end Sys2Proof.Machine
end

