-- ==== Sys2Proof/Laws/Crew.lean ====
section
/-! SUPPORT. What each update of a crew leaves of each of its fields. -/

namespace Sys2Proof.Machine

variable (c : Crew)

/-- A crew with an issue of one of its splits counted. -/
def Crew.counted (c : Crew) (sid : Nat) : Crew :=
  ({ c with
      raised := 0, host := hostIssued c.host
      loads := c.loads.map fun (q : PLoad) => if q.sid == sid then { q with fresh := false } else q }).modSplit sid fun q =>
    { q with waits := none, muted := false, fb := fbCounted q.fb }

/-- The crew that an instruction leaves behind which changes its crew by `g` and goes on at `pc`. -/
def Crew.gone (c : Crew) (sid : Nat) (g : Crew → Crew) (pc : DWord) : Crew :=
  ((g (c.counted sid)).modSplit sid fun q => { q with pc := pc }).untried

theorem Crew.setLanes_keep (n : Nat) (xs : List (Nat × Word)) :
    c.setLanes n xs = { c with vregs := (c.setLanes n xs).vregs, vpoison := (c.setLanes n xs).vpoison } := by
  induction xs generalizing c with
  | nil => rfl
  | cons e t ih => rw [Crew.setLanes, ih]; rfl

/-! ## setAbs -/

@[simp] theorem Crew.setAbs_cid (l i : Nat) (x : Word) : (c.setAbs l i x).cid = c.cid := rfl
@[simp] theorem Crew.setAbs_lid (l i : Nat) (x : Word) : (c.setAbs l i x).lid = c.lid := rfl
@[simp] theorem Crew.setAbs_team (l i : Nat) (x : Word) : (c.setAbs l i x).team = c.team := rfl
@[simp] theorem Crew.setAbs_crewNo (l i : Nat) (x : Word) : (c.setAbs l i x).crewNo = c.crewNo := rfl
@[simp] theorem Crew.setAbs_asid (l i : Nat) (x : Word) : (c.setAbs l i x).asid = c.asid := rfl
@[simp] theorem Crew.setAbs_core (l i : Nat) (x : Word) : (c.setAbs l i x).core = c.core := rfl
@[simp] theorem Crew.setAbs_row (l i : Nat) (x : Word) : (c.setAbs l i x).row = c.row := rfl
@[simp] theorem Crew.setAbs_frame (l i : Nat) (x : Word) : (c.setAbs l i x).frame = c.frame := rfl
@[simp] theorem Crew.setAbs_spillBase (l i : Nat) (x : Word) : (c.setAbs l i x).spillBase = c.spillBase := rfl
@[simp] theorem Crew.setAbs_spillSize (l i : Nat) (x : Word) : (c.setAbs l i x).spillSize = c.spillSize := rfl
@[simp] theorem Crew.setAbs_args (l i : Nat) (x : Word) : (c.setAbs l i x).args = c.args := rfl
@[simp] theorem Crew.setAbs_sregs (l i : Nat) (x : Word) : (c.setAbs l i x).sregs = c.sregs := rfl
@[simp] theorem Crew.setAbs_nc (l i : Nat) (x : Word) : (c.setAbs l i x).nc = c.nc := rfl
@[simp] theorem Crew.setAbs_cb (l i : Nat) (x : Word) : (c.setAbs l i x).cb = c.cb := rfl
@[simp] theorem Crew.setAbs_marks (l i : Nat) (x : Word) : (c.setAbs l i x).marks = c.marks := rfl
@[simp] theorem Crew.setAbs_exited (l i : Nat) (x : Word) : (c.setAbs l i x).exited = c.exited := rfl
@[simp] theorem Crew.setAbs_absent (l i : Nat) (x : Word) : (c.setAbs l i x).absent = c.absent := rfl
@[simp] theorem Crew.setAbs_fpmode (l i : Nat) (x : Word) : (c.setAbs l i x).fpmode = c.fpmode := rfl
@[simp] theorem Crew.setAbs_fpflags (l i : Nat) (x : Word) : (c.setAbs l i x).fpflags = c.fpflags := rfl
@[simp] theorem Crew.setAbs_raised (l i : Nat) (x : Word) : (c.setAbs l i x).raised = c.raised := rfl
@[simp] theorem Crew.setAbs_cpol (l i : Nat) (x : Word) : (c.setAbs l i x).cpol = c.cpol := rfl
@[simp] theorem Crew.setAbs_wb (l i : Nat) (x : Word) : (c.setAbs l i x).wb = c.wb := rfl
@[simp] theorem Crew.setAbs_depth (l i : Nat) (x : Word) : (c.setAbs l i x).depth = c.depth := rfl
@[simp] theorem Crew.setAbs_resident (l i : Nat) (x : Word) : (c.setAbs l i x).resident = c.resident := rfl
@[simp] theorem Crew.setAbs_spilled (l i : Nat) (x : Word) : (c.setAbs l i x).spilled = c.spilled := rfl
@[simp] theorem Crew.setAbs_resv (l i : Nat) (x : Word) : (c.setAbs l i x).resv = c.resv := rfl
@[simp] theorem Crew.setAbs_joins (l i : Nat) (x : Word) : (c.setAbs l i x).joins = c.joins := rfl
@[simp] theorem Crew.setAbs_splits (l i : Nat) (x : Word) : (c.setAbs l i x).splits = c.splits := rfl
@[simp] theorem Crew.setAbs_loads (l i : Nat) (x : Word) : (c.setAbs l i x).loads = c.loads := rfl
@[simp] theorem Crew.setAbs_host (l i : Nat) (x : Word) : (c.setAbs l i x).host = c.host := rfl
@[simp] theorem Crew.setAbs_spoison (l i : Nat) (x : Word) : (c.setAbs l i x).spoison = c.spoison := rfl

/-! ## setV -/

@[simp] theorem Crew.setV_cid (l i : Nat) (x : Word) : (c.setV l i x).cid = c.cid := rfl
@[simp] theorem Crew.setV_lid (l i : Nat) (x : Word) : (c.setV l i x).lid = c.lid := rfl
@[simp] theorem Crew.setV_team (l i : Nat) (x : Word) : (c.setV l i x).team = c.team := rfl
@[simp] theorem Crew.setV_crewNo (l i : Nat) (x : Word) : (c.setV l i x).crewNo = c.crewNo := rfl
@[simp] theorem Crew.setV_asid (l i : Nat) (x : Word) : (c.setV l i x).asid = c.asid := rfl
@[simp] theorem Crew.setV_core (l i : Nat) (x : Word) : (c.setV l i x).core = c.core := rfl
@[simp] theorem Crew.setV_row (l i : Nat) (x : Word) : (c.setV l i x).row = c.row := rfl
@[simp] theorem Crew.setV_frame (l i : Nat) (x : Word) : (c.setV l i x).frame = c.frame := rfl
@[simp] theorem Crew.setV_spillBase (l i : Nat) (x : Word) : (c.setV l i x).spillBase = c.spillBase := rfl
@[simp] theorem Crew.setV_spillSize (l i : Nat) (x : Word) : (c.setV l i x).spillSize = c.spillSize := rfl
@[simp] theorem Crew.setV_args (l i : Nat) (x : Word) : (c.setV l i x).args = c.args := rfl
@[simp] theorem Crew.setV_sregs (l i : Nat) (x : Word) : (c.setV l i x).sregs = c.sregs := rfl
@[simp] theorem Crew.setV_nc (l i : Nat) (x : Word) : (c.setV l i x).nc = c.nc := rfl
@[simp] theorem Crew.setV_cb (l i : Nat) (x : Word) : (c.setV l i x).cb = c.cb := rfl
@[simp] theorem Crew.setV_marks (l i : Nat) (x : Word) : (c.setV l i x).marks = c.marks := rfl
@[simp] theorem Crew.setV_exited (l i : Nat) (x : Word) : (c.setV l i x).exited = c.exited := rfl
@[simp] theorem Crew.setV_absent (l i : Nat) (x : Word) : (c.setV l i x).absent = c.absent := rfl
@[simp] theorem Crew.setV_fpmode (l i : Nat) (x : Word) : (c.setV l i x).fpmode = c.fpmode := rfl
@[simp] theorem Crew.setV_fpflags (l i : Nat) (x : Word) : (c.setV l i x).fpflags = c.fpflags := rfl
@[simp] theorem Crew.setV_raised (l i : Nat) (x : Word) : (c.setV l i x).raised = c.raised := rfl
@[simp] theorem Crew.setV_cpol (l i : Nat) (x : Word) : (c.setV l i x).cpol = c.cpol := rfl
@[simp] theorem Crew.setV_wb (l i : Nat) (x : Word) : (c.setV l i x).wb = c.wb := rfl
@[simp] theorem Crew.setV_depth (l i : Nat) (x : Word) : (c.setV l i x).depth = c.depth := rfl
@[simp] theorem Crew.setV_resident (l i : Nat) (x : Word) : (c.setV l i x).resident = c.resident := rfl
@[simp] theorem Crew.setV_spilled (l i : Nat) (x : Word) : (c.setV l i x).spilled = c.spilled := rfl
@[simp] theorem Crew.setV_resv (l i : Nat) (x : Word) : (c.setV l i x).resv = c.resv := rfl
@[simp] theorem Crew.setV_joins (l i : Nat) (x : Word) : (c.setV l i x).joins = c.joins := rfl
@[simp] theorem Crew.setV_splits (l i : Nat) (x : Word) : (c.setV l i x).splits = c.splits := rfl
@[simp] theorem Crew.setV_loads (l i : Nat) (x : Word) : (c.setV l i x).loads = c.loads := rfl
@[simp] theorem Crew.setV_host (l i : Nat) (x : Word) : (c.setV l i x).host = c.host := rfl
@[simp] theorem Crew.setV_spoison (l i : Nat) (x : Word) : (c.setV l i x).spoison = c.spoison := rfl

/-! ## setU -/

@[simp] theorem Crew.setU_cid (n : Nat) (x : DWord) : (c.setU n x).cid = c.cid := rfl
@[simp] theorem Crew.setU_lid (n : Nat) (x : DWord) : (c.setU n x).lid = c.lid := rfl
@[simp] theorem Crew.setU_team (n : Nat) (x : DWord) : (c.setU n x).team = c.team := rfl
@[simp] theorem Crew.setU_crewNo (n : Nat) (x : DWord) : (c.setU n x).crewNo = c.crewNo := rfl
@[simp] theorem Crew.setU_asid (n : Nat) (x : DWord) : (c.setU n x).asid = c.asid := rfl
@[simp] theorem Crew.setU_core (n : Nat) (x : DWord) : (c.setU n x).core = c.core := rfl
@[simp] theorem Crew.setU_row (n : Nat) (x : DWord) : (c.setU n x).row = c.row := rfl
@[simp] theorem Crew.setU_frame (n : Nat) (x : DWord) : (c.setU n x).frame = c.frame := rfl
@[simp] theorem Crew.setU_spillBase (n : Nat) (x : DWord) : (c.setU n x).spillBase = c.spillBase := rfl
@[simp] theorem Crew.setU_spillSize (n : Nat) (x : DWord) : (c.setU n x).spillSize = c.spillSize := rfl
@[simp] theorem Crew.setU_args (n : Nat) (x : DWord) : (c.setU n x).args = c.args := rfl
@[simp] theorem Crew.setU_vregs (n : Nat) (x : DWord) : (c.setU n x).vregs = c.vregs := rfl
@[simp] theorem Crew.setU_nc (n : Nat) (x : DWord) : (c.setU n x).nc = c.nc := rfl
@[simp] theorem Crew.setU_cb (n : Nat) (x : DWord) : (c.setU n x).cb = c.cb := rfl
@[simp] theorem Crew.setU_marks (n : Nat) (x : DWord) : (c.setU n x).marks = c.marks := rfl
@[simp] theorem Crew.setU_exited (n : Nat) (x : DWord) : (c.setU n x).exited = c.exited := rfl
@[simp] theorem Crew.setU_absent (n : Nat) (x : DWord) : (c.setU n x).absent = c.absent := rfl
@[simp] theorem Crew.setU_fpmode (n : Nat) (x : DWord) : (c.setU n x).fpmode = c.fpmode := rfl
@[simp] theorem Crew.setU_fpflags (n : Nat) (x : DWord) : (c.setU n x).fpflags = c.fpflags := rfl
@[simp] theorem Crew.setU_raised (n : Nat) (x : DWord) : (c.setU n x).raised = c.raised := rfl
@[simp] theorem Crew.setU_cpol (n : Nat) (x : DWord) : (c.setU n x).cpol = c.cpol := rfl
@[simp] theorem Crew.setU_wb (n : Nat) (x : DWord) : (c.setU n x).wb = c.wb := rfl
@[simp] theorem Crew.setU_depth (n : Nat) (x : DWord) : (c.setU n x).depth = c.depth := rfl
@[simp] theorem Crew.setU_resident (n : Nat) (x : DWord) : (c.setU n x).resident = c.resident := rfl
@[simp] theorem Crew.setU_spilled (n : Nat) (x : DWord) : (c.setU n x).spilled = c.spilled := rfl
@[simp] theorem Crew.setU_resv (n : Nat) (x : DWord) : (c.setU n x).resv = c.resv := rfl
@[simp] theorem Crew.setU_joins (n : Nat) (x : DWord) : (c.setU n x).joins = c.joins := rfl
@[simp] theorem Crew.setU_splits (n : Nat) (x : DWord) : (c.setU n x).splits = c.splits := rfl
@[simp] theorem Crew.setU_loads (n : Nat) (x : DWord) : (c.setU n x).loads = c.loads := rfl
@[simp] theorem Crew.setU_host (n : Nat) (x : DWord) : (c.setU n x).host = c.host := rfl
@[simp] theorem Crew.setU_vpoison (n : Nat) (x : DWord) : (c.setU n x).vpoison = c.vpoison := rfl

/-! ## setNc -/

@[simp] theorem Crew.setNc_cid (l n : Nat) : (c.setNc l n).cid = c.cid := rfl
@[simp] theorem Crew.setNc_lid (l n : Nat) : (c.setNc l n).lid = c.lid := rfl
@[simp] theorem Crew.setNc_team (l n : Nat) : (c.setNc l n).team = c.team := rfl
@[simp] theorem Crew.setNc_crewNo (l n : Nat) : (c.setNc l n).crewNo = c.crewNo := rfl
@[simp] theorem Crew.setNc_asid (l n : Nat) : (c.setNc l n).asid = c.asid := rfl
@[simp] theorem Crew.setNc_core (l n : Nat) : (c.setNc l n).core = c.core := rfl
@[simp] theorem Crew.setNc_row (l n : Nat) : (c.setNc l n).row = c.row := rfl
@[simp] theorem Crew.setNc_frame (l n : Nat) : (c.setNc l n).frame = c.frame := rfl
@[simp] theorem Crew.setNc_spillBase (l n : Nat) : (c.setNc l n).spillBase = c.spillBase := rfl
@[simp] theorem Crew.setNc_spillSize (l n : Nat) : (c.setNc l n).spillSize = c.spillSize := rfl
@[simp] theorem Crew.setNc_args (l n : Nat) : (c.setNc l n).args = c.args := rfl
@[simp] theorem Crew.setNc_vregs (l n : Nat) : (c.setNc l n).vregs = c.vregs := rfl
@[simp] theorem Crew.setNc_sregs (l n : Nat) : (c.setNc l n).sregs = c.sregs := rfl
@[simp] theorem Crew.setNc_cb (l n : Nat) : (c.setNc l n).cb = c.cb := rfl
@[simp] theorem Crew.setNc_marks (l n : Nat) : (c.setNc l n).marks = c.marks := rfl
@[simp] theorem Crew.setNc_exited (l n : Nat) : (c.setNc l n).exited = c.exited := rfl
@[simp] theorem Crew.setNc_absent (l n : Nat) : (c.setNc l n).absent = c.absent := rfl
@[simp] theorem Crew.setNc_fpmode (l n : Nat) : (c.setNc l n).fpmode = c.fpmode := rfl
@[simp] theorem Crew.setNc_fpflags (l n : Nat) : (c.setNc l n).fpflags = c.fpflags := rfl
@[simp] theorem Crew.setNc_raised (l n : Nat) : (c.setNc l n).raised = c.raised := rfl
@[simp] theorem Crew.setNc_cpol (l n : Nat) : (c.setNc l n).cpol = c.cpol := rfl
@[simp] theorem Crew.setNc_wb (l n : Nat) : (c.setNc l n).wb = c.wb := rfl
@[simp] theorem Crew.setNc_depth (l n : Nat) : (c.setNc l n).depth = c.depth := rfl
@[simp] theorem Crew.setNc_resident (l n : Nat) : (c.setNc l n).resident = c.resident := rfl
@[simp] theorem Crew.setNc_spilled (l n : Nat) : (c.setNc l n).spilled = c.spilled := rfl
@[simp] theorem Crew.setNc_resv (l n : Nat) : (c.setNc l n).resv = c.resv := rfl
@[simp] theorem Crew.setNc_joins (l n : Nat) : (c.setNc l n).joins = c.joins := rfl
@[simp] theorem Crew.setNc_splits (l n : Nat) : (c.setNc l n).splits = c.splits := rfl
@[simp] theorem Crew.setNc_loads (l n : Nat) : (c.setNc l n).loads = c.loads := rfl
@[simp] theorem Crew.setNc_host (l n : Nat) : (c.setNc l n).host = c.host := rfl
@[simp] theorem Crew.setNc_vpoison (l n : Nat) : (c.setNc l n).vpoison = c.vpoison := rfl
@[simp] theorem Crew.setNc_spoison (l n : Nat) : (c.setNc l n).spoison = c.spoison := rfl

/-! ## setMark -/

@[simp] theorem Crew.setMark_cid (l n : Nat) : (c.setMark l n).cid = c.cid := rfl
@[simp] theorem Crew.setMark_lid (l n : Nat) : (c.setMark l n).lid = c.lid := rfl
@[simp] theorem Crew.setMark_team (l n : Nat) : (c.setMark l n).team = c.team := rfl
@[simp] theorem Crew.setMark_crewNo (l n : Nat) : (c.setMark l n).crewNo = c.crewNo := rfl
@[simp] theorem Crew.setMark_asid (l n : Nat) : (c.setMark l n).asid = c.asid := rfl
@[simp] theorem Crew.setMark_core (l n : Nat) : (c.setMark l n).core = c.core := rfl
@[simp] theorem Crew.setMark_row (l n : Nat) : (c.setMark l n).row = c.row := rfl
@[simp] theorem Crew.setMark_frame (l n : Nat) : (c.setMark l n).frame = c.frame := rfl
@[simp] theorem Crew.setMark_spillBase (l n : Nat) : (c.setMark l n).spillBase = c.spillBase := rfl
@[simp] theorem Crew.setMark_spillSize (l n : Nat) : (c.setMark l n).spillSize = c.spillSize := rfl
@[simp] theorem Crew.setMark_args (l n : Nat) : (c.setMark l n).args = c.args := rfl
@[simp] theorem Crew.setMark_vregs (l n : Nat) : (c.setMark l n).vregs = c.vregs := rfl
@[simp] theorem Crew.setMark_sregs (l n : Nat) : (c.setMark l n).sregs = c.sregs := rfl
@[simp] theorem Crew.setMark_nc (l n : Nat) : (c.setMark l n).nc = c.nc := rfl
@[simp] theorem Crew.setMark_cb (l n : Nat) : (c.setMark l n).cb = c.cb := rfl
@[simp] theorem Crew.setMark_exited (l n : Nat) : (c.setMark l n).exited = c.exited := rfl
@[simp] theorem Crew.setMark_absent (l n : Nat) : (c.setMark l n).absent = c.absent := rfl
@[simp] theorem Crew.setMark_fpmode (l n : Nat) : (c.setMark l n).fpmode = c.fpmode := rfl
@[simp] theorem Crew.setMark_fpflags (l n : Nat) : (c.setMark l n).fpflags = c.fpflags := rfl
@[simp] theorem Crew.setMark_raised (l n : Nat) : (c.setMark l n).raised = c.raised := rfl
@[simp] theorem Crew.setMark_cpol (l n : Nat) : (c.setMark l n).cpol = c.cpol := rfl
@[simp] theorem Crew.setMark_wb (l n : Nat) : (c.setMark l n).wb = c.wb := rfl
@[simp] theorem Crew.setMark_depth (l n : Nat) : (c.setMark l n).depth = c.depth := rfl
@[simp] theorem Crew.setMark_resident (l n : Nat) : (c.setMark l n).resident = c.resident := rfl
@[simp] theorem Crew.setMark_spilled (l n : Nat) : (c.setMark l n).spilled = c.spilled := rfl
@[simp] theorem Crew.setMark_resv (l n : Nat) : (c.setMark l n).resv = c.resv := rfl
@[simp] theorem Crew.setMark_joins (l n : Nat) : (c.setMark l n).joins = c.joins := rfl
@[simp] theorem Crew.setMark_splits (l n : Nat) : (c.setMark l n).splits = c.splits := rfl
@[simp] theorem Crew.setMark_loads (l n : Nat) : (c.setMark l n).loads = c.loads := rfl
@[simp] theorem Crew.setMark_host (l n : Nat) : (c.setMark l n).host = c.host := rfl
@[simp] theorem Crew.setMark_vpoison (l n : Nat) : (c.setMark l n).vpoison = c.vpoison := rfl
@[simp] theorem Crew.setMark_spoison (l n : Nat) : (c.setMark l n).spoison = c.spoison := rfl

/-! ## raiseFlags -/

@[simp] theorem Crew.raiseFlags_cid (fl : Flags) : (c.raiseFlags fl).cid = c.cid := rfl
@[simp] theorem Crew.raiseFlags_lid (fl : Flags) : (c.raiseFlags fl).lid = c.lid := rfl
@[simp] theorem Crew.raiseFlags_team (fl : Flags) : (c.raiseFlags fl).team = c.team := rfl
@[simp] theorem Crew.raiseFlags_crewNo (fl : Flags) : (c.raiseFlags fl).crewNo = c.crewNo := rfl
@[simp] theorem Crew.raiseFlags_asid (fl : Flags) : (c.raiseFlags fl).asid = c.asid := rfl
@[simp] theorem Crew.raiseFlags_core (fl : Flags) : (c.raiseFlags fl).core = c.core := rfl
@[simp] theorem Crew.raiseFlags_row (fl : Flags) : (c.raiseFlags fl).row = c.row := rfl
@[simp] theorem Crew.raiseFlags_frame (fl : Flags) : (c.raiseFlags fl).frame = c.frame := rfl
@[simp] theorem Crew.raiseFlags_spillBase (fl : Flags) : (c.raiseFlags fl).spillBase = c.spillBase := rfl
@[simp] theorem Crew.raiseFlags_spillSize (fl : Flags) : (c.raiseFlags fl).spillSize = c.spillSize := rfl
@[simp] theorem Crew.raiseFlags_args (fl : Flags) : (c.raiseFlags fl).args = c.args := rfl
@[simp] theorem Crew.raiseFlags_vregs (fl : Flags) : (c.raiseFlags fl).vregs = c.vregs := rfl
@[simp] theorem Crew.raiseFlags_sregs (fl : Flags) : (c.raiseFlags fl).sregs = c.sregs := rfl
@[simp] theorem Crew.raiseFlags_nc (fl : Flags) : (c.raiseFlags fl).nc = c.nc := rfl
@[simp] theorem Crew.raiseFlags_cb (fl : Flags) : (c.raiseFlags fl).cb = c.cb := rfl
@[simp] theorem Crew.raiseFlags_marks (fl : Flags) : (c.raiseFlags fl).marks = c.marks := rfl
@[simp] theorem Crew.raiseFlags_exited (fl : Flags) : (c.raiseFlags fl).exited = c.exited := rfl
@[simp] theorem Crew.raiseFlags_absent (fl : Flags) : (c.raiseFlags fl).absent = c.absent := rfl
@[simp] theorem Crew.raiseFlags_fpmode (fl : Flags) : (c.raiseFlags fl).fpmode = c.fpmode := rfl
@[simp] theorem Crew.raiseFlags_cpol (fl : Flags) : (c.raiseFlags fl).cpol = c.cpol := rfl
@[simp] theorem Crew.raiseFlags_wb (fl : Flags) : (c.raiseFlags fl).wb = c.wb := rfl
@[simp] theorem Crew.raiseFlags_depth (fl : Flags) : (c.raiseFlags fl).depth = c.depth := rfl
@[simp] theorem Crew.raiseFlags_resident (fl : Flags) : (c.raiseFlags fl).resident = c.resident := rfl
@[simp] theorem Crew.raiseFlags_spilled (fl : Flags) : (c.raiseFlags fl).spilled = c.spilled := rfl
@[simp] theorem Crew.raiseFlags_resv (fl : Flags) : (c.raiseFlags fl).resv = c.resv := rfl
@[simp] theorem Crew.raiseFlags_joins (fl : Flags) : (c.raiseFlags fl).joins = c.joins := rfl
@[simp] theorem Crew.raiseFlags_splits (fl : Flags) : (c.raiseFlags fl).splits = c.splits := rfl
@[simp] theorem Crew.raiseFlags_loads (fl : Flags) : (c.raiseFlags fl).loads = c.loads := rfl
@[simp] theorem Crew.raiseFlags_host (fl : Flags) : (c.raiseFlags fl).host = c.host := rfl
@[simp] theorem Crew.raiseFlags_vpoison (fl : Flags) : (c.raiseFlags fl).vpoison = c.vpoison := rfl
@[simp] theorem Crew.raiseFlags_spoison (fl : Flags) : (c.raiseFlags fl).spoison = c.spoison := rfl

/-! ## modSplit -/

@[simp] theorem Crew.modSplit_cid (n : Nat) (f : Split → Split) : (c.modSplit n f).cid = c.cid := rfl
@[simp] theorem Crew.modSplit_lid (n : Nat) (f : Split → Split) : (c.modSplit n f).lid = c.lid := rfl
@[simp] theorem Crew.modSplit_team (n : Nat) (f : Split → Split) : (c.modSplit n f).team = c.team := rfl
@[simp] theorem Crew.modSplit_crewNo (n : Nat) (f : Split → Split) : (c.modSplit n f).crewNo = c.crewNo := rfl
@[simp] theorem Crew.modSplit_asid (n : Nat) (f : Split → Split) : (c.modSplit n f).asid = c.asid := rfl
@[simp] theorem Crew.modSplit_core (n : Nat) (f : Split → Split) : (c.modSplit n f).core = c.core := rfl
@[simp] theorem Crew.modSplit_row (n : Nat) (f : Split → Split) : (c.modSplit n f).row = c.row := rfl
@[simp] theorem Crew.modSplit_frame (n : Nat) (f : Split → Split) : (c.modSplit n f).frame = c.frame := rfl
@[simp] theorem Crew.modSplit_spillBase (n : Nat) (f : Split → Split) : (c.modSplit n f).spillBase = c.spillBase := rfl
@[simp] theorem Crew.modSplit_spillSize (n : Nat) (f : Split → Split) : (c.modSplit n f).spillSize = c.spillSize := rfl
@[simp] theorem Crew.modSplit_args (n : Nat) (f : Split → Split) : (c.modSplit n f).args = c.args := rfl
@[simp] theorem Crew.modSplit_vregs (n : Nat) (f : Split → Split) : (c.modSplit n f).vregs = c.vregs := rfl
@[simp] theorem Crew.modSplit_sregs (n : Nat) (f : Split → Split) : (c.modSplit n f).sregs = c.sregs := rfl
@[simp] theorem Crew.modSplit_nc (n : Nat) (f : Split → Split) : (c.modSplit n f).nc = c.nc := rfl
@[simp] theorem Crew.modSplit_cb (n : Nat) (f : Split → Split) : (c.modSplit n f).cb = c.cb := rfl
@[simp] theorem Crew.modSplit_marks (n : Nat) (f : Split → Split) : (c.modSplit n f).marks = c.marks := rfl
@[simp] theorem Crew.modSplit_exited (n : Nat) (f : Split → Split) : (c.modSplit n f).exited = c.exited := rfl
@[simp] theorem Crew.modSplit_absent (n : Nat) (f : Split → Split) : (c.modSplit n f).absent = c.absent := rfl
@[simp] theorem Crew.modSplit_fpmode (n : Nat) (f : Split → Split) : (c.modSplit n f).fpmode = c.fpmode := rfl
@[simp] theorem Crew.modSplit_fpflags (n : Nat) (f : Split → Split) : (c.modSplit n f).fpflags = c.fpflags := rfl
@[simp] theorem Crew.modSplit_raised (n : Nat) (f : Split → Split) : (c.modSplit n f).raised = c.raised := rfl
@[simp] theorem Crew.modSplit_cpol (n : Nat) (f : Split → Split) : (c.modSplit n f).cpol = c.cpol := rfl
@[simp] theorem Crew.modSplit_wb (n : Nat) (f : Split → Split) : (c.modSplit n f).wb = c.wb := rfl
@[simp] theorem Crew.modSplit_depth (n : Nat) (f : Split → Split) : (c.modSplit n f).depth = c.depth := rfl
@[simp] theorem Crew.modSplit_resident (n : Nat) (f : Split → Split) : (c.modSplit n f).resident = c.resident := rfl
@[simp] theorem Crew.modSplit_spilled (n : Nat) (f : Split → Split) : (c.modSplit n f).spilled = c.spilled := rfl
@[simp] theorem Crew.modSplit_resv (n : Nat) (f : Split → Split) : (c.modSplit n f).resv = c.resv := rfl
@[simp] theorem Crew.modSplit_joins (n : Nat) (f : Split → Split) : (c.modSplit n f).joins = c.joins := rfl
@[simp] theorem Crew.modSplit_loads (n : Nat) (f : Split → Split) : (c.modSplit n f).loads = c.loads := rfl
@[simp] theorem Crew.modSplit_host (n : Nat) (f : Split → Split) : (c.modSplit n f).host = c.host := rfl
@[simp] theorem Crew.modSplit_vpoison (n : Nat) (f : Split → Split) : (c.modSplit n f).vpoison = c.vpoison := rfl
@[simp] theorem Crew.modSplit_spoison (n : Nat) (f : Split → Split) : (c.modSplit n f).spoison = c.spoison := rfl

/-! ## untried -/

@[simp] theorem Crew.untried_cid : (c.untried).cid = c.cid := rfl
@[simp] theorem Crew.untried_lid : (c.untried).lid = c.lid := rfl
@[simp] theorem Crew.untried_team : (c.untried).team = c.team := rfl
@[simp] theorem Crew.untried_crewNo : (c.untried).crewNo = c.crewNo := rfl
@[simp] theorem Crew.untried_asid : (c.untried).asid = c.asid := rfl
@[simp] theorem Crew.untried_core : (c.untried).core = c.core := rfl
@[simp] theorem Crew.untried_row : (c.untried).row = c.row := rfl
@[simp] theorem Crew.untried_frame : (c.untried).frame = c.frame := rfl
@[simp] theorem Crew.untried_spillBase : (c.untried).spillBase = c.spillBase := rfl
@[simp] theorem Crew.untried_spillSize : (c.untried).spillSize = c.spillSize := rfl
@[simp] theorem Crew.untried_args : (c.untried).args = c.args := rfl
@[simp] theorem Crew.untried_vregs : (c.untried).vregs = c.vregs := rfl
@[simp] theorem Crew.untried_sregs : (c.untried).sregs = c.sregs := rfl
@[simp] theorem Crew.untried_nc : (c.untried).nc = c.nc := rfl
@[simp] theorem Crew.untried_cb : (c.untried).cb = c.cb := rfl
@[simp] theorem Crew.untried_marks : (c.untried).marks = c.marks := rfl
@[simp] theorem Crew.untried_exited : (c.untried).exited = c.exited := rfl
@[simp] theorem Crew.untried_absent : (c.untried).absent = c.absent := rfl
@[simp] theorem Crew.untried_fpmode : (c.untried).fpmode = c.fpmode := rfl
@[simp] theorem Crew.untried_fpflags : (c.untried).fpflags = c.fpflags := rfl
@[simp] theorem Crew.untried_raised : (c.untried).raised = c.raised := rfl
@[simp] theorem Crew.untried_cpol : (c.untried).cpol = c.cpol := rfl
@[simp] theorem Crew.untried_wb : (c.untried).wb = c.wb := rfl
@[simp] theorem Crew.untried_depth : (c.untried).depth = c.depth := rfl
@[simp] theorem Crew.untried_resident : (c.untried).resident = c.resident := rfl
@[simp] theorem Crew.untried_spilled : (c.untried).spilled = c.spilled := rfl
@[simp] theorem Crew.untried_resv : (c.untried).resv = c.resv := rfl
@[simp] theorem Crew.untried_joins : (c.untried).joins = c.joins := rfl
@[simp] theorem Crew.untried_loads : (c.untried).loads = c.loads := rfl
@[simp] theorem Crew.untried_host : (c.untried).host = c.host := rfl
@[simp] theorem Crew.untried_vpoison : (c.untried).vpoison = c.vpoison := rfl
@[simp] theorem Crew.untried_spoison : (c.untried).spoison = c.spoison := rfl

/-! ## counted -/

@[simp] theorem Crew.counted_cid (n : Nat) : (c.counted n).cid = c.cid := rfl
@[simp] theorem Crew.counted_lid (n : Nat) : (c.counted n).lid = c.lid := rfl
@[simp] theorem Crew.counted_team (n : Nat) : (c.counted n).team = c.team := rfl
@[simp] theorem Crew.counted_crewNo (n : Nat) : (c.counted n).crewNo = c.crewNo := rfl
@[simp] theorem Crew.counted_asid (n : Nat) : (c.counted n).asid = c.asid := rfl
@[simp] theorem Crew.counted_core (n : Nat) : (c.counted n).core = c.core := rfl
@[simp] theorem Crew.counted_row (n : Nat) : (c.counted n).row = c.row := rfl
@[simp] theorem Crew.counted_frame (n : Nat) : (c.counted n).frame = c.frame := rfl
@[simp] theorem Crew.counted_spillBase (n : Nat) : (c.counted n).spillBase = c.spillBase := rfl
@[simp] theorem Crew.counted_spillSize (n : Nat) : (c.counted n).spillSize = c.spillSize := rfl
@[simp] theorem Crew.counted_args (n : Nat) : (c.counted n).args = c.args := rfl
@[simp] theorem Crew.counted_vregs (n : Nat) : (c.counted n).vregs = c.vregs := rfl
@[simp] theorem Crew.counted_sregs (n : Nat) : (c.counted n).sregs = c.sregs := rfl
@[simp] theorem Crew.counted_nc (n : Nat) : (c.counted n).nc = c.nc := rfl
@[simp] theorem Crew.counted_cb (n : Nat) : (c.counted n).cb = c.cb := rfl
@[simp] theorem Crew.counted_marks (n : Nat) : (c.counted n).marks = c.marks := rfl
@[simp] theorem Crew.counted_exited (n : Nat) : (c.counted n).exited = c.exited := rfl
@[simp] theorem Crew.counted_absent (n : Nat) : (c.counted n).absent = c.absent := rfl
@[simp] theorem Crew.counted_fpmode (n : Nat) : (c.counted n).fpmode = c.fpmode := rfl
@[simp] theorem Crew.counted_fpflags (n : Nat) : (c.counted n).fpflags = c.fpflags := rfl
@[simp] theorem Crew.counted_cpol (n : Nat) : (c.counted n).cpol = c.cpol := rfl
@[simp] theorem Crew.counted_wb (n : Nat) : (c.counted n).wb = c.wb := rfl
@[simp] theorem Crew.counted_depth (n : Nat) : (c.counted n).depth = c.depth := rfl
@[simp] theorem Crew.counted_resident (n : Nat) : (c.counted n).resident = c.resident := rfl
@[simp] theorem Crew.counted_spilled (n : Nat) : (c.counted n).spilled = c.spilled := rfl
@[simp] theorem Crew.counted_resv (n : Nat) : (c.counted n).resv = c.resv := rfl
@[simp] theorem Crew.counted_joins (n : Nat) : (c.counted n).joins = c.joins := rfl
@[simp] theorem Crew.counted_vpoison (n : Nat) : (c.counted n).vpoison = c.vpoison := rfl
@[simp] theorem Crew.counted_spoison (n : Nat) : (c.counted n).spoison = c.spoison := rfl

/-! ## setLanes -/

@[simp] theorem Crew.setLanes_cid (n : Nat) (xs : List (Nat × Word)) : (c.setLanes n xs).cid = c.cid := by
  rw [Crew.setLanes_keep]
@[simp] theorem Crew.setLanes_lid (n : Nat) (xs : List (Nat × Word)) : (c.setLanes n xs).lid = c.lid := by
  rw [Crew.setLanes_keep]
@[simp] theorem Crew.setLanes_team (n : Nat) (xs : List (Nat × Word)) : (c.setLanes n xs).team = c.team := by
  rw [Crew.setLanes_keep]
@[simp] theorem Crew.setLanes_crewNo (n : Nat) (xs : List (Nat × Word)) : (c.setLanes n xs).crewNo = c.crewNo := by
  rw [Crew.setLanes_keep]
@[simp] theorem Crew.setLanes_asid (n : Nat) (xs : List (Nat × Word)) : (c.setLanes n xs).asid = c.asid := by
  rw [Crew.setLanes_keep]
@[simp] theorem Crew.setLanes_core (n : Nat) (xs : List (Nat × Word)) : (c.setLanes n xs).core = c.core := by
  rw [Crew.setLanes_keep]
@[simp] theorem Crew.setLanes_row (n : Nat) (xs : List (Nat × Word)) : (c.setLanes n xs).row = c.row := by
  rw [Crew.setLanes_keep]
@[simp] theorem Crew.setLanes_frame (n : Nat) (xs : List (Nat × Word)) : (c.setLanes n xs).frame = c.frame := by
  rw [Crew.setLanes_keep]
@[simp] theorem Crew.setLanes_spillBase (n : Nat) (xs : List (Nat × Word)) : (c.setLanes n xs).spillBase = c.spillBase := by
  rw [Crew.setLanes_keep]
@[simp] theorem Crew.setLanes_spillSize (n : Nat) (xs : List (Nat × Word)) : (c.setLanes n xs).spillSize = c.spillSize := by
  rw [Crew.setLanes_keep]
@[simp] theorem Crew.setLanes_args (n : Nat) (xs : List (Nat × Word)) : (c.setLanes n xs).args = c.args := by
  rw [Crew.setLanes_keep]
@[simp] theorem Crew.setLanes_sregs (n : Nat) (xs : List (Nat × Word)) : (c.setLanes n xs).sregs = c.sregs := by
  rw [Crew.setLanes_keep]
@[simp] theorem Crew.setLanes_nc (n : Nat) (xs : List (Nat × Word)) : (c.setLanes n xs).nc = c.nc := by
  rw [Crew.setLanes_keep]
@[simp] theorem Crew.setLanes_cb (n : Nat) (xs : List (Nat × Word)) : (c.setLanes n xs).cb = c.cb := by
  rw [Crew.setLanes_keep]
@[simp] theorem Crew.setLanes_marks (n : Nat) (xs : List (Nat × Word)) : (c.setLanes n xs).marks = c.marks := by
  rw [Crew.setLanes_keep]
@[simp] theorem Crew.setLanes_exited (n : Nat) (xs : List (Nat × Word)) : (c.setLanes n xs).exited = c.exited := by
  rw [Crew.setLanes_keep]
@[simp] theorem Crew.setLanes_absent (n : Nat) (xs : List (Nat × Word)) : (c.setLanes n xs).absent = c.absent := by
  rw [Crew.setLanes_keep]
@[simp] theorem Crew.setLanes_fpmode (n : Nat) (xs : List (Nat × Word)) : (c.setLanes n xs).fpmode = c.fpmode := by
  rw [Crew.setLanes_keep]
@[simp] theorem Crew.setLanes_fpflags (n : Nat) (xs : List (Nat × Word)) : (c.setLanes n xs).fpflags = c.fpflags := by
  rw [Crew.setLanes_keep]
@[simp] theorem Crew.setLanes_raised (n : Nat) (xs : List (Nat × Word)) : (c.setLanes n xs).raised = c.raised := by
  rw [Crew.setLanes_keep]
@[simp] theorem Crew.setLanes_cpol (n : Nat) (xs : List (Nat × Word)) : (c.setLanes n xs).cpol = c.cpol := by
  rw [Crew.setLanes_keep]
@[simp] theorem Crew.setLanes_wb (n : Nat) (xs : List (Nat × Word)) : (c.setLanes n xs).wb = c.wb := by
  rw [Crew.setLanes_keep]
@[simp] theorem Crew.setLanes_depth (n : Nat) (xs : List (Nat × Word)) : (c.setLanes n xs).depth = c.depth := by
  rw [Crew.setLanes_keep]
@[simp] theorem Crew.setLanes_resident (n : Nat) (xs : List (Nat × Word)) : (c.setLanes n xs).resident = c.resident := by
  rw [Crew.setLanes_keep]
@[simp] theorem Crew.setLanes_spilled (n : Nat) (xs : List (Nat × Word)) : (c.setLanes n xs).spilled = c.spilled := by
  rw [Crew.setLanes_keep]
@[simp] theorem Crew.setLanes_resv (n : Nat) (xs : List (Nat × Word)) : (c.setLanes n xs).resv = c.resv := by
  rw [Crew.setLanes_keep]
@[simp] theorem Crew.setLanes_joins (n : Nat) (xs : List (Nat × Word)) : (c.setLanes n xs).joins = c.joins := by
  rw [Crew.setLanes_keep]
@[simp] theorem Crew.setLanes_splits (n : Nat) (xs : List (Nat × Word)) : (c.setLanes n xs).splits = c.splits := by
  rw [Crew.setLanes_keep]
@[simp] theorem Crew.setLanes_loads (n : Nat) (xs : List (Nat × Word)) : (c.setLanes n xs).loads = c.loads := by
  rw [Crew.setLanes_keep]
@[simp] theorem Crew.setLanes_host (n : Nat) (xs : List (Nat × Word)) : (c.setLanes n xs).host = c.host := by
  rw [Crew.setLanes_keep]
@[simp] theorem Crew.setLanes_spoison (n : Nat) (xs : List (Nat × Word)) : (c.setLanes n xs).spoison = c.spoison := by
  rw [Crew.setLanes_keep]

/-! ## gone -/

@[simp] theorem Crew.gone_cid (n : Nat) (g : Crew → Crew) (pc : DWord) : (c.gone n g pc).cid = (g (c.counted n)).cid := rfl
@[simp] theorem Crew.gone_lid (n : Nat) (g : Crew → Crew) (pc : DWord) : (c.gone n g pc).lid = (g (c.counted n)).lid := rfl
@[simp] theorem Crew.gone_team (n : Nat) (g : Crew → Crew) (pc : DWord) : (c.gone n g pc).team = (g (c.counted n)).team := rfl
@[simp] theorem Crew.gone_crewNo (n : Nat) (g : Crew → Crew) (pc : DWord) : (c.gone n g pc).crewNo = (g (c.counted n)).crewNo := rfl
@[simp] theorem Crew.gone_asid (n : Nat) (g : Crew → Crew) (pc : DWord) : (c.gone n g pc).asid = (g (c.counted n)).asid := rfl
@[simp] theorem Crew.gone_core (n : Nat) (g : Crew → Crew) (pc : DWord) : (c.gone n g pc).core = (g (c.counted n)).core := rfl
@[simp] theorem Crew.gone_row (n : Nat) (g : Crew → Crew) (pc : DWord) : (c.gone n g pc).row = (g (c.counted n)).row := rfl
@[simp] theorem Crew.gone_frame (n : Nat) (g : Crew → Crew) (pc : DWord) : (c.gone n g pc).frame = (g (c.counted n)).frame := rfl
@[simp] theorem Crew.gone_spillBase (n : Nat) (g : Crew → Crew) (pc : DWord) : (c.gone n g pc).spillBase = (g (c.counted n)).spillBase := rfl
@[simp] theorem Crew.gone_spillSize (n : Nat) (g : Crew → Crew) (pc : DWord) : (c.gone n g pc).spillSize = (g (c.counted n)).spillSize := rfl
@[simp] theorem Crew.gone_args (n : Nat) (g : Crew → Crew) (pc : DWord) : (c.gone n g pc).args = (g (c.counted n)).args := rfl
@[simp] theorem Crew.gone_vregs (n : Nat) (g : Crew → Crew) (pc : DWord) : (c.gone n g pc).vregs = (g (c.counted n)).vregs := rfl
@[simp] theorem Crew.gone_sregs (n : Nat) (g : Crew → Crew) (pc : DWord) : (c.gone n g pc).sregs = (g (c.counted n)).sregs := rfl
@[simp] theorem Crew.gone_nc (n : Nat) (g : Crew → Crew) (pc : DWord) : (c.gone n g pc).nc = (g (c.counted n)).nc := rfl
@[simp] theorem Crew.gone_cb (n : Nat) (g : Crew → Crew) (pc : DWord) : (c.gone n g pc).cb = (g (c.counted n)).cb := rfl
@[simp] theorem Crew.gone_marks (n : Nat) (g : Crew → Crew) (pc : DWord) : (c.gone n g pc).marks = (g (c.counted n)).marks := rfl
@[simp] theorem Crew.gone_exited (n : Nat) (g : Crew → Crew) (pc : DWord) : (c.gone n g pc).exited = (g (c.counted n)).exited := rfl
@[simp] theorem Crew.gone_absent (n : Nat) (g : Crew → Crew) (pc : DWord) : (c.gone n g pc).absent = (g (c.counted n)).absent := rfl
@[simp] theorem Crew.gone_fpmode (n : Nat) (g : Crew → Crew) (pc : DWord) : (c.gone n g pc).fpmode = (g (c.counted n)).fpmode := rfl
@[simp] theorem Crew.gone_fpflags (n : Nat) (g : Crew → Crew) (pc : DWord) : (c.gone n g pc).fpflags = (g (c.counted n)).fpflags := rfl
@[simp] theorem Crew.gone_raised (n : Nat) (g : Crew → Crew) (pc : DWord) : (c.gone n g pc).raised = (g (c.counted n)).raised := rfl
@[simp] theorem Crew.gone_cpol (n : Nat) (g : Crew → Crew) (pc : DWord) : (c.gone n g pc).cpol = (g (c.counted n)).cpol := rfl
@[simp] theorem Crew.gone_wb (n : Nat) (g : Crew → Crew) (pc : DWord) : (c.gone n g pc).wb = (g (c.counted n)).wb := rfl
@[simp] theorem Crew.gone_depth (n : Nat) (g : Crew → Crew) (pc : DWord) : (c.gone n g pc).depth = (g (c.counted n)).depth := rfl
@[simp] theorem Crew.gone_resident (n : Nat) (g : Crew → Crew) (pc : DWord) : (c.gone n g pc).resident = (g (c.counted n)).resident := rfl
@[simp] theorem Crew.gone_spilled (n : Nat) (g : Crew → Crew) (pc : DWord) : (c.gone n g pc).spilled = (g (c.counted n)).spilled := rfl
@[simp] theorem Crew.gone_resv (n : Nat) (g : Crew → Crew) (pc : DWord) : (c.gone n g pc).resv = (g (c.counted n)).resv := rfl
@[simp] theorem Crew.gone_joins (n : Nat) (g : Crew → Crew) (pc : DWord) : (c.gone n g pc).joins = (g (c.counted n)).joins := rfl
@[simp] theorem Crew.gone_loads (n : Nat) (g : Crew → Crew) (pc : DWord) : (c.gone n g pc).loads = (g (c.counted n)).loads := rfl
@[simp] theorem Crew.gone_host (n : Nat) (g : Crew → Crew) (pc : DWord) : (c.gone n g pc).host = (g (c.counted n)).host := rfl
@[simp] theorem Crew.gone_vpoison (n : Nat) (g : Crew → Crew) (pc : DWord) : (c.gone n g pc).vpoison = (g (c.counted n)).vpoison := rfl
@[simp] theorem Crew.gone_spoison (n : Nat) (g : Crew → Crew) (pc : DWord) : (c.gone n g pc).spoison = (g (c.counted n)).spoison := rfl

@[simp] theorem Crew.counted_loads (p : Split) : (c.counted p.sid).loads = agedLoads c p :=
  rfl

/-! ## Registers -/

@[simp] theorem Crew.gone_vAbs (n : Nat) (g : Crew → Crew) (pc : DWord) (l i : Nat) :
    (c.gone n g pc).vAbs l i = (g (c.counted n)).vAbs l i := rfl
@[simp] theorem Crew.gone_u (n : Nat) (g : Crew → Crew) (pc : DWord) (i : Nat) :
    (c.gone n g pc).u i = (g (c.counted n)).u i := rfl
@[simp] theorem Crew.counted_vAbs (n l i : Nat) : (c.counted n).vAbs l i = c.vAbs l i := rfl
@[simp] theorem Crew.counted_u (n i : Nat) : (c.counted n).u i = c.u i := rfl
@[simp] theorem Crew.modSplit_vAbs (n : Nat) (f : Split → Split) (l i : Nat) :
    (c.modSplit n f).vAbs l i = c.vAbs l i := rfl
@[simp] theorem Crew.modSplit_u (n : Nat) (f : Split → Split) (i : Nat) : (c.modSplit n f).u i = c.u i := rfl
@[simp] theorem Crew.raiseFlags_vAbs (fl : Flags) (l i : Nat) : (c.raiseFlags fl).vAbs l i = c.vAbs l i := rfl

/-- A crew that is another but for its lane registers, their poison, the flags, the splits and the host. -/
theorem onlyLanes_of {c c' : Crew} {a : SMap Word} {b : List Nat} {x y : BitVec 5} {q : List Split} {h : Option HostInfo} {p : Split}
    (e : c' = { c with vregs := a, vpoison := b, fpflags := x, raised := y, splits := q, host := h, loads := agedLoads c p }) :
    OnlyLanes c c' p := by
  subst e; rfl

/-- A crew that is another but for its uniform registers, their poison, the splits and the host. -/
theorem onlyUniform_of {c c' : Crew} {a : SMap DWord} {b : List Nat} {y : BitVec 5} {q : List Split} {h : Option HostInfo} {p : Split}
    (e : c' = { c with sregs := a, spoison := b, raised := y, splits := q, host := h, loads := agedLoads c p }) :
    OnlyUniform c c' p := by
  subst e; rfl

end Sys2Proof.Machine
end

