-- ==== Sys2Proof/Laws/Decode.lean ====
section
/-! SUPPORT. What the encoder packs, the decoder's field reader takes out again. -/

namespace Sys2Proof

/-- A field above the last packed one is a field of what was packed before. -/
theorem fld_cat_hi {m : Nat} (x : Nat) (b : BitVec m) (lo n : Nat) (h : m ≤ lo) :
    fld (cat x b) lo n = fld x (lo - m) n := by
  have hb := b.isLt
  obtain ⟨j, rfl⟩ := Nat.exists_eq_add_of_le h
  simp only [fld, cat, Nat.shiftLeft_eq, Nat.shiftRight_eq_div_pow, Nat.add_sub_cancel_left,
    Nat.pow_add]
  rw [← Nat.div_div_eq_div_mul, Nat.mul_comm, Nat.mul_add_div (Nat.two_pow_pos m),
    Nat.div_eq_of_lt hb, Nat.add_zero]

/-- A field inside the last packed one is a field of it. -/
theorem fld_cat_lo {m : Nat} (x : Nat) (b : BitVec m) (lo n : Nat) (h : lo + n ≤ m) :
    fld (cat x b) lo n = fld b.toNat lo n := by
  obtain ⟨j, rfl⟩ := Nat.exists_eq_add_of_le h
  apply BitVec.eq_of_toNat_eq
  simp only [fld, cat, Nat.shiftLeft_eq, Nat.shiftRight_eq_div_pow, BitVec.toNat_ofNat]
  rw [show x * 2 ^ (lo + n + j) + b.toNat = b.toNat + 2 ^ lo * (2 ^ n * (x * 2 ^ j)) by
    rw [Nat.pow_add, Nat.pow_add]; ac_rfl]
  rw [Nat.add_mul_div_left _ _ (Nat.two_pow_pos lo), Nat.add_mul_mod_self_left]

/-- A field that is all of a bit vector is the vector. -/
theorem fld_all {n : Nat} (x : BitVec n) : fld x.toNat 0 n = x := by simp [fld]

/-- Cutting a number to 32 bits leaves its fields below bit 32. -/
theorem fld_word (x lo n : Nat) (h : lo + n ≤ 32) :
    fld (BitVec.ofNat 32 x).toNat lo n = fld x lo n := by
  obtain ⟨j, hj⟩ := Nat.exists_eq_add_of_le h
  apply BitVec.eq_of_toNat_eq
  simp only [fld, Nat.shiftRight_eq_div_pow, BitVec.toNat_ofNat]
  rw [hj, Nat.pow_add, Nat.pow_add, Nat.mul_assoc, Nat.mod_mul_right_div_self,
    Nat.mod_mod_of_dvd _ (Nat.dvd_mul_right _ _)]

/-- Cutting a number to 8 bits leaves its fields below bit 8. -/
theorem fld_byte (x lo n : Nat) (h : lo + n ≤ 8) :
    fld (BitVec.ofNat 8 x).toNat lo n = fld x lo n := by
  obtain ⟨j, hj⟩ := Nat.exists_eq_add_of_le h
  apply BitVec.eq_of_toNat_eq
  simp only [fld, Nat.shiftRight_eq_div_pow, BitVec.toNat_ofNat]
  rw [hj, Nat.pow_add, Nat.pow_add, Nat.mul_assoc, Nat.mod_mul_right_div_self,
    Nat.mod_mod_of_dvd _ (Nat.dvd_mul_right _ _)]

/-- The field of an operand names that operand. -/
theorem Src.ofField_toField (x : Src) : Src.ofField x.toField = x := by
  cases x <;>
    simp only [Src.ofField, Src.toField, fld_byte, fld_cat_hi, fld_cat_lo, fld_all, Nat.reduceLeDiff,
      Nat.reduceAdd, Nat.reduceSub, Nat.le_refl, Nat.zero_le, Nat.sub_self] <;>
    simp [fld]

/-- The field of a scope names that scope. -/
theorem Scope.ofField_toField (x : Scope) : Scope.ofField x.toField = x := by cases x <;> rfl

/-- The field of a semantic names that semantic. -/
theorem Sem.ofField_toField (x : Sem) : Sem.ofField x.toField = x := by cases x <;> rfl

/-- The field of a rounding mode names that mode. -/
theorem Rnd.ofField_toField (x : Rnd) : Rnd.ofField x.toField = x := by cases x <;> rfl

end Sys2Proof
end

