-- ==== Sys2Proof/Laws/Exec.lean ====
section
/-! SUPPORT. The meaning that `exec` calls for each constructor. -/

namespace Sys2Proof.Machine

variable (s : State)

theorem exec_addLr (d : BitVec 8) (a b : Src) : exec (.addLr d a b) s = execAddLr d a b s := rfl
theorem exec_addLi (d : BitVec 8) (a : Src) (i : BitVec 8) : exec (.addLi d a i) s = execAddLi d a i s := rfl
theorem exec_subLr (d : BitVec 8) (a b : Src) : exec (.subLr d a b) s = execSubLr d a b s := rfl
theorem exec_addSatS (d : BitVec 8) (a b : Src) : exec (.addSatS d a b) s = execAddSatS d a b s := rfl
theorem exec_addSatU (d : BitVec 8) (a b : Src) : exec (.addSatU d a b) s = execAddSatU d a b s := rfl
theorem exec_subSatS (d : BitVec 8) (a b : Src) : exec (.subSatS d a b) s = execSubSatS d a b s := rfl
theorem exec_subSatU (d : BitVec 8) (a b : Src) : exec (.subSatU d a b) s = execSubSatU d a b s := rfl
theorem exec_mulLr (d : BitVec 8) (a b : Src) : exec (.mulLr d a b) s = execMulLr d a b s := rfl
theorem exec_mulhiULr (d : BitVec 8) (a b : Src) : exec (.mulhiULr d a b) s = execMulhiULr d a b s := rfl
theorem exec_minSLr (d : BitVec 8) (a b : Src) : exec (.minSLr d a b) s = execMinSLr d a b s := rfl
theorem exec_minULr (d : BitVec 8) (a b : Src) : exec (.minULr d a b) s = execMinULr d a b s := rfl
theorem exec_maxSLr (d : BitVec 8) (a b : Src) : exec (.maxSLr d a b) s = execMaxSLr d a b s := rfl
theorem exec_maxULr (d : BitVec 8) (a b : Src) : exec (.maxULr d a b) s = execMaxULr d a b s := rfl
theorem exec_andLr (d : BitVec 8) (a b : Src) : exec (.andLr d a b) s = execAndLr d a b s := rfl
theorem exec_andLi (d : BitVec 8) (a : Src) (i : BitVec 8) : exec (.andLi d a i) s = execAndLi d a i s := rfl
theorem exec_orLr (d : BitVec 8) (a b : Src) : exec (.orLr d a b) s = execOrLr d a b s := rfl
theorem exec_orLi (d : BitVec 8) (a : Src) (i : BitVec 8) : exec (.orLi d a i) s = execOrLi d a i s := rfl
theorem exec_xorLr (d : BitVec 8) (a b : Src) : exec (.xorLr d a b) s = execXorLr d a b s := rfl
theorem exec_xorLi (d : BitVec 8) (a : Src) (i : BitVec 8) : exec (.xorLi d a i) s = execXorLi d a i s := rfl
theorem exec_shlLr (d : BitVec 8) (a b : Src) : exec (.shlLr d a b) s = execShlLr d a b s := rfl
theorem exec_shlLi (d : BitVec 8) (a : Src) (i : BitVec 5) : exec (.shlLi d a i) s = execShlLi d a i s := rfl
theorem exec_shrULr (d : BitVec 8) (a b : Src) : exec (.shrULr d a b) s = execShrULr d a b s := rfl
theorem exec_shrULi (d : BitVec 8) (a : Src) (i : BitVec 5) : exec (.shrULi d a i) s = execShrULi d a i s := rfl
theorem exec_shrSLr (d : BitVec 8) (a b : Src) : exec (.shrSLr d a b) s = execShrSLr d a b s := rfl
theorem exec_shrSLi (d : BitVec 8) (a : Src) (i : BitVec 5) : exec (.shrSLi d a i) s = execShrSLi d a i s := rfl
theorem exec_notL (d : BitVec 8) (a : Src) : exec (.notL d a) s = execNotL d a s := rfl
theorem exec_negL (d : BitVec 8) (a : Src) : exec (.negL d a) s = execNegL d a s := rfl
theorem exec_absL (d : BitVec 8) (a : Src) : exec (.absL d a) s = execAbsL d a s := rfl
theorem exec_popcL (d : BitVec 8) (a : Src) : exec (.popcL d a) s = execPopcL d a s := rfl
theorem exec_clzL (d : BitVec 8) (a : Src) : exec (.clzL d a) s = execClzL d a s := rfl
theorem exec_brevL (d : BitVec 8) (a : Src) : exec (.brevL d a) s = execBrevL d a s := rfl
theorem exec_sextBL (d : BitVec 8) (a : Src) : exec (.sextBL d a) s = execSextBL d a s := rfl
theorem exec_sextHL (d : BitVec 8) (a : Src) : exec (.sextHL d a) s = execSextHL d a s := rfl
theorem exec_cmpeqLr (d : BitVec 8) (a b : Src) : exec (.cmpeqLr d a b) s = execCmpeqLr d a b s := rfl
theorem exec_cmpltSLr (d : BitVec 8) (a b : Src) : exec (.cmpltSLr d a b) s = execCmpltSLr d a b s := rfl
theorem exec_cmpltULr (d : BitVec 8) (a b : Src) : exec (.cmpltULr d a b) s = execCmpltULr d a b s := rfl
theorem exec_cmpleSLr (d : BitVec 8) (a b : Src) : exec (.cmpleSLr d a b) s = execCmpleSLr d a b s := rfl
theorem exec_cmpleULr (d : BitVec 8) (a b : Src) : exec (.cmpleULr d a b) s = execCmpleULr d a b s := rfl
theorem exec_fadd (d : BitVec 8) (a b : Src) : exec (.fadd d a b) s = execFadd d a b s := rfl
theorem exec_fsub (d : BitVec 8) (a b : Src) : exec (.fsub d a b) s = execFsub d a b s := rfl
theorem exec_fmul (d : BitVec 8) (a b : Src) : exec (.fmul d a b) s = execFmul d a b s := rfl
theorem exec_ffma (d : BitVec 8) (a b : Src) : exec (.ffma d a b) s = execFfma d a b s := rfl
theorem exec_ffnma (d : BitVec 8) (a b : Src) : exec (.ffnma d a b) s = execFfnma d a b s := rfl
theorem exec_fmin (d : BitVec 8) (a b : Src) : exec (.fmin d a b) s = execFmin d a b s := rfl
theorem exec_fmax (d : BitVec 8) (a b : Src) : exec (.fmax d a b) s = execFmax d a b s := rfl
theorem exec_frcp (d : BitVec 8) (a : Src) : exec (.frcp d a) s = execFrcp d a s := rfl
theorem exec_fsqrt (d : BitVec 8) (a : Src) : exec (.fsqrt d a) s = execFsqrt d a s := rfl
theorem exec_frsq (d : BitVec 8) (a : Src) : exec (.frsq d a) s = execFrsq d a s := rfl
theorem exec_fexp2 (d : BitVec 8) (a : Src) : exec (.fexp2 d a) s = execFexp2 d a s := rfl
theorem exec_flog2 (d : BitVec 8) (a : Src) : exec (.flog2 d a) s = execFlog2 d a s := rfl
theorem exec_fcmpeq (d : BitVec 8) (a b : Src) : exec (.fcmpeq d a b) s = execFcmpeq d a b s := rfl
theorem exec_fcmplt (d : BitVec 8) (a b : Src) : exec (.fcmplt d a b) s = execFcmplt d a b s := rfl
theorem exec_fcmple (d : BitVec 8) (a b : Src) : exec (.fcmple d a b) s = execFcmple d a b s := rfl
theorem exec_fcmpun (d : BitVec 8) (a b : Src) : exec (.fcmpun d a b) s = execFcmpun d a b s := rfl
theorem exec_hadd2F16 (d : BitVec 8) (a b : Src) : exec (.hadd2F16 d a b) s = execHadd2F16 d a b s := rfl
theorem exec_hadd2Bf16 (d : BitVec 8) (a b : Src) : exec (.hadd2Bf16 d a b) s = execHadd2Bf16 d a b s := rfl
theorem exec_hsub2F16 (d : BitVec 8) (a b : Src) : exec (.hsub2F16 d a b) s = execHsub2F16 d a b s := rfl
theorem exec_hsub2Bf16 (d : BitVec 8) (a b : Src) : exec (.hsub2Bf16 d a b) s = execHsub2Bf16 d a b s := rfl
theorem exec_hmul2F16 (d : BitVec 8) (a b : Src) : exec (.hmul2F16 d a b) s = execHmul2F16 d a b s := rfl
theorem exec_hmul2Bf16 (d : BitVec 8) (a b : Src) : exec (.hmul2Bf16 d a b) s = execHmul2Bf16 d a b s := rfl
theorem exec_hfma2F16 (d : BitVec 8) (a b : Src) : exec (.hfma2F16 d a b) s = execHfma2F16 d a b s := rfl
theorem exec_hfma2Bf16 (d : BitVec 8) (a b : Src) : exec (.hfma2Bf16 d a b) s = execHfma2Bf16 d a b s := rfl
theorem exec_hmin2F16 (d : BitVec 8) (a b : Src) : exec (.hmin2F16 d a b) s = execHmin2F16 d a b s := rfl
theorem exec_hmin2Bf16 (d : BitVec 8) (a b : Src) : exec (.hmin2Bf16 d a b) s = execHmin2Bf16 d a b s := rfl
theorem exec_hmax2F16 (d : BitVec 8) (a b : Src) : exec (.hmax2F16 d a b) s = execHmax2F16 d a b s := rfl
theorem exec_hmax2Bf16 (d : BitVec 8) (a b : Src) : exec (.hmax2Bf16 d a b) s = execHmax2Bf16 d a b s := rfl
theorem exec_hdot2F16 (d : BitVec 8) (a b : Src) : exec (.hdot2F16 d a b) s = execHdot2F16 d a b s := rfl
theorem exec_hdot2Bf16 (d : BitVec 8) (a b : Src) : exec (.hdot2Bf16 d a b) s = execHdot2Bf16 d a b s := rfl
theorem exec_cvt (d : BitVec 8) (a : Src) (m : Rnd) (t sc : BitVec 3) : exec (.cvt d a m t sc) s = execCvt d a m t sc s := rfl
theorem exec_cvt2F16 (d : BitVec 8) (a b : Src) : exec (.cvt2F16 d a b) s = execCvt2F16 d a b s := rfl
theorem exec_cvt2Bf16 (d : BitVec 8) (a b : Src) : exec (.cvt2Bf16 d a b) s = execCvt2Bf16 d a b s := rfl
theorem exec_qscale (d : BitVec 8) (a : Src) (f : BitVec 3) (l : BitVec 1) : exec (.qscale d a f l) s = execQscale d a f l s := rfl
theorem exec_qpack (d : BitVec 8) (a b : Src) : exec (.qpack d a b) s = execQpack d a b s := rfl
theorem exec_qunpk (d : BitVec 8) (a b : Src) : exec (.qunpk d a b) s = execQunpk d a b s := rfl
theorem exec_movL (d : BitVec 8) (a : Src) : exec (.movL d a) s = execMovL d a s := rfl
theorem exec_moviL (d : BitVec 8) (i : BitVec 16) : exec (.moviL d i) s = execMoviL d i s := rfl
theorem exec_movh (d : BitVec 8) (i : BitVec 16) : exec (.movh d i) s = execMovh d i s := rfl
theorem exec_sel (d : BitVec 8) (a b : Src) : exec (.sel d a b) s = execSel d a b s := rfl
theorem exec_shfl (d : BitVec 8) (a b : Src) : exec (.shfl d a b) s = execShfl d a b s := rfl
theorem exec_perm (d : BitVec 8) (a b : Src) : exec (.perm d a b) s = execPerm d a b s := rfl
theorem exec_ifLc (a : Src) (r : BitVec 16) : exec (.ifLc a r) s = execIfLc a r s := rfl
theorem exec_elseLc (r : BitVec 16) : exec (.elseLc r) s = execElseLc r s := rfl
theorem exec_endif (r : BitVec 16) : exec (.endif r) s = execEndif r s := rfl
theorem exec_loop (r : BitVec 16) : exec (.loop r) s = execLoop r s := rfl
theorem exec_brk (d : BitVec 8) (r : BitVec 16) : exec (.brk d r) s = execBrk d r s := rfl
theorem exec_cont (d : BitVec 8) (r : BitVec 16) : exec (.cont d r) s = execCont d r s := rfl
theorem exec_lend (r : BitVec 16) : exec (.lend r) s = execLend r s := rfl
theorem exec_split (a : Src) (r : BitVec 16) : exec (.split a r) s = execSplit a r s := rfl
theorem exec_meet (r : BitVec 16) : exec (.meet r) s = execMeet r s := rfl
theorem exec_join (r : BitVec 16) : exec (.join r) s = execJoin r s := rfl
theorem exec_ldgB (t x : BitVec 8) (b : BitVec 6) (sc : BitVec 2) : exec (.ldgB t x b sc) s = execLdgB t x b sc s := rfl
theorem exec_ldgH (t x : BitVec 8) (b : BitVec 6) (sc : BitVec 2) : exec (.ldgH t x b sc) s = execLdgH t x b sc s := rfl
theorem exec_ldgW (t x : BitVec 8) (b : BitVec 6) (sc : BitVec 2) : exec (.ldgW t x b sc) s = execLdgW t x b sc s := rfl
theorem exec_ldgD (t x : BitVec 8) (b : BitVec 6) (sc : BitVec 2) : exec (.ldgD t x b sc) s = execLdgD t x b sc s := rfl
theorem exec_ldgQ (t x : BitVec 8) (b : BitVec 6) (sc : BitVec 2) : exec (.ldgQ t x b sc) s = execLdgQ t x b sc s := rfl
theorem exec_stgB (t x : BitVec 8) (b : BitVec 6) (sc : BitVec 2) : exec (.stgB t x b sc) s = execStgB t x b sc s := rfl
theorem exec_stgH (t x : BitVec 8) (b : BitVec 6) (sc : BitVec 2) : exec (.stgH t x b sc) s = execStgH t x b sc s := rfl
theorem exec_stgW (t x : BitVec 8) (b : BitVec 6) (sc : BitVec 2) : exec (.stgW t x b sc) s = execStgW t x b sc s := rfl
theorem exec_stgD (t x : BitVec 8) (b : BitVec 6) (sc : BitVec 2) : exec (.stgD t x b sc) s = execStgD t x b sc s := rfl
theorem exec_stgQ (t x : BitVec 8) (b : BitVec 6) (sc : BitVec 2) : exec (.stgQ t x b sc) s = execStgQ t x b sc s := rfl
theorem exec_ldsB (t x : BitVec 8) (b : BitVec 6) (sc : BitVec 2) : exec (.ldsB t x b sc) s = execLdsB t x b sc s := rfl
theorem exec_ldsH (t x : BitVec 8) (b : BitVec 6) (sc : BitVec 2) : exec (.ldsH t x b sc) s = execLdsH t x b sc s := rfl
theorem exec_ldsW (t x : BitVec 8) (b : BitVec 6) (sc : BitVec 2) : exec (.ldsW t x b sc) s = execLdsW t x b sc s := rfl
theorem exec_ldsD (t x : BitVec 8) (b : BitVec 6) (sc : BitVec 2) : exec (.ldsD t x b sc) s = execLdsD t x b sc s := rfl
theorem exec_ldsQ (t x : BitVec 8) (b : BitVec 6) (sc : BitVec 2) : exec (.ldsQ t x b sc) s = execLdsQ t x b sc s := rfl
theorem exec_stsB (t x : BitVec 8) (b : BitVec 6) (sc : BitVec 2) : exec (.stsB t x b sc) s = execStsB t x b sc s := rfl
theorem exec_stsH (t x : BitVec 8) (b : BitVec 6) (sc : BitVec 2) : exec (.stsH t x b sc) s = execStsH t x b sc s := rfl
theorem exec_stsW (t x : BitVec 8) (b : BitVec 6) (sc : BitVec 2) : exec (.stsW t x b sc) s = execStsW t x b sc s := rfl
theorem exec_stsD (t x : BitVec 8) (b : BitVec 6) (sc : BitVec 2) : exec (.stsD t x b sc) s = execStsD t x b sc s := rfl
theorem exec_stsQ (t x : BitVec 8) (b : BitVec 6) (sc : BitVec 2) : exec (.stsQ t x b sc) s = execStsQ t x b sc s := rfl
theorem exec_ldqW (t x : BitVec 8) (b : BitVec 6) (sc : BitVec 2) : exec (.ldqW t x b sc) s = execLdqW t x b sc s := rfl
theorem exec_stqW (t x : BitVec 8) (b : BitVec 6) (sc : BitVec 2) : exec (.stqW t x b sc) s = execStqW t x b sc s := rfl
theorem exec_ldaW (t a : BitVec 8) (sc : Scope) : exec (.ldaW t a sc) s = execLdaW t a sc s := rfl
theorem exec_stlW (t a : BitVec 8) (sc : Scope) : exec (.stlW t a sc) s = execStlW t a sc s := rfl
theorem exec_ldrW (t a : BitVec 8) : exec (.ldrW t a) s = execLdrW t a s := rfl
theorem exec_stcW (t a : BitVec 8) : exec (.stcW t a) s = execStcW t a s := rfl
theorem exec_atomAdd (t a : BitVec 8) (c : Scope) (e : Sem) : exec (.atomAdd t a c e) s = execAtomAdd t a c e s := rfl
theorem exec_atomAnd (t a : BitVec 8) (c : Scope) (e : Sem) : exec (.atomAnd t a c e) s = execAtomAnd t a c e s := rfl
theorem exec_atomOr (t a : BitVec 8) (c : Scope) (e : Sem) : exec (.atomOr t a c e) s = execAtomOr t a c e s := rfl
theorem exec_atomXor (t a : BitVec 8) (c : Scope) (e : Sem) : exec (.atomXor t a c e) s = execAtomXor t a c e s := rfl
theorem exec_atomMinS (t a : BitVec 8) (c : Scope) (e : Sem) : exec (.atomMinS t a c e) s = execAtomMinS t a c e s := rfl
theorem exec_atomMinU (t a : BitVec 8) (c : Scope) (e : Sem) : exec (.atomMinU t a c e) s = execAtomMinU t a c e s := rfl
theorem exec_atomMaxS (t a : BitVec 8) (c : Scope) (e : Sem) : exec (.atomMaxS t a c e) s = execAtomMaxS t a c e s := rfl
theorem exec_atomMaxU (t a : BitVec 8) (c : Scope) (e : Sem) : exec (.atomMaxU t a c e) s = execAtomMaxU t a c e s := rfl
theorem exec_atomXchg (t a : BitVec 8) (c : Scope) (e : Sem) : exec (.atomXchg t a c e) s = execAtomXchg t a c e s := rfl
theorem exec_atomCas (t a : BitVec 8) (c : Scope) (e : Sem) : exec (.atomCas t a c e) s = execAtomCas t a c e s := rfl
theorem exec_atomAddF (t a : BitVec 8) (c : Scope) (e : Sem) : exec (.atomAddF t a c e) s = execAtomAddF t a c e s := rfl
theorem exec_atomAddD (t a : BitVec 8) (c : Scope) (e : Sem) : exec (.atomAddD t a c e) s = execAtomAddD t a c e s := rfl
theorem exec_atomXchgD (t a : BitVec 8) (c : Scope) (e : Sem) : exec (.atomXchgD t a c e) s = execAtomXchgD t a c e s := rfl
theorem exec_atomCasD (t a : BitVec 8) (c : Scope) (e : Sem) : exec (.atomCasD t a c e) s = execAtomCasD t a c e s := rfl
theorem exec_atomSeqAdd (t a : BitVec 8) (c : Scope) (e : Sem) : exec (.atomSeqAdd t a c e) s = execAtomSeqAdd t a c e s := rfl
theorem exec_atomSeqAnd (t a : BitVec 8) (c : Scope) (e : Sem) : exec (.atomSeqAnd t a c e) s = execAtomSeqAnd t a c e s := rfl
theorem exec_atomSeqOr (t a : BitVec 8) (c : Scope) (e : Sem) : exec (.atomSeqOr t a c e) s = execAtomSeqOr t a c e s := rfl
theorem exec_atomSeqXor (t a : BitVec 8) (c : Scope) (e : Sem) : exec (.atomSeqXor t a c e) s = execAtomSeqXor t a c e s := rfl
theorem exec_atomSeqMinS (t a : BitVec 8) (c : Scope) (e : Sem) : exec (.atomSeqMinS t a c e) s = execAtomSeqMinS t a c e s := rfl
theorem exec_atomSeqMinU (t a : BitVec 8) (c : Scope) (e : Sem) : exec (.atomSeqMinU t a c e) s = execAtomSeqMinU t a c e s := rfl
theorem exec_atomSeqMaxS (t a : BitVec 8) (c : Scope) (e : Sem) : exec (.atomSeqMaxS t a c e) s = execAtomSeqMaxS t a c e s := rfl
theorem exec_atomSeqMaxU (t a : BitVec 8) (c : Scope) (e : Sem) : exec (.atomSeqMaxU t a c e) s = execAtomSeqMaxU t a c e s := rfl
theorem exec_atomSeqXchg (t a : BitVec 8) (c : Scope) (e : Sem) : exec (.atomSeqXchg t a c e) s = execAtomSeqXchg t a c e s := rfl
theorem exec_atomSeqCas (t a : BitVec 8) (c : Scope) (e : Sem) : exec (.atomSeqCas t a c e) s = execAtomSeqCas t a c e s := rfl
theorem exec_atomSeqAddF (t a : BitVec 8) (c : Scope) (e : Sem) : exec (.atomSeqAddF t a c e) s = execAtomSeqAddF t a c e s := rfl
theorem exec_atomSeqAddD (t a : BitVec 8) (c : Scope) (e : Sem) : exec (.atomSeqAddD t a c e) s = execAtomSeqAddD t a c e s := rfl
theorem exec_atomSeqXchgD (t a : BitVec 8) (c : Scope) (e : Sem) : exec (.atomSeqXchgD t a c e) s = execAtomSeqXchgD t a c e s := rfl
theorem exec_atomSeqCasD (t a : BitVec 8) (c : Scope) (e : Sem) : exec (.atomSeqCasD t a c e) s = execAtomSeqCasD t a c e s := rfl
theorem exec_redAdd (t a : BitVec 8) (c : Scope) (e : Sem) : exec (.redAdd t a c e) s = execRedAdd t a c e s := rfl
theorem exec_redAnd (t a : BitVec 8) (c : Scope) (e : Sem) : exec (.redAnd t a c e) s = execRedAnd t a c e s := rfl
theorem exec_redOr (t a : BitVec 8) (c : Scope) (e : Sem) : exec (.redOr t a c e) s = execRedOr t a c e s := rfl
theorem exec_redXor (t a : BitVec 8) (c : Scope) (e : Sem) : exec (.redXor t a c e) s = execRedXor t a c e s := rfl
theorem exec_redMinS (t a : BitVec 8) (c : Scope) (e : Sem) : exec (.redMinS t a c e) s = execRedMinS t a c e s := rfl
theorem exec_redMinU (t a : BitVec 8) (c : Scope) (e : Sem) : exec (.redMinU t a c e) s = execRedMinU t a c e s := rfl
theorem exec_redMaxS (t a : BitVec 8) (c : Scope) (e : Sem) : exec (.redMaxS t a c e) s = execRedMaxS t a c e s := rfl
theorem exec_redMaxU (t a : BitVec 8) (c : Scope) (e : Sem) : exec (.redMaxU t a c e) s = execRedMaxU t a c e s := rfl
theorem exec_redAddF (t a : BitVec 8) (c : Scope) (e : Sem) : exec (.redAddF t a c e) s = execRedAddF t a c e s := rfl
theorem exec_redAddD (t a : BitVec 8) (c : Scope) (e : Sem) : exec (.redAddD t a c e) s = execRedAddD t a c e s := rfl
theorem exec_addU (d a b : BitVec 6) : exec (.addU d a b) s = execAddU d a b s := rfl
theorem exec_subU (d a b : BitVec 6) : exec (.subU d a b) s = execSubU d a b s := rfl
theorem exec_mulU (d a b : BitVec 6) : exec (.mulU d a b) s = execMulU d a b s := rfl
theorem exec_mulhiSU (d a b : BitVec 6) : exec (.mulhiSU d a b) s = execMulhiSU d a b s := rfl
theorem exec_mulhiUU (d a b : BitVec 6) : exec (.mulhiUU d a b) s = execMulhiUU d a b s := rfl
theorem exec_andU (d a b : BitVec 6) : exec (.andU d a b) s = execAndU d a b s := rfl
theorem exec_orU (d a b : BitVec 6) : exec (.orU d a b) s = execOrU d a b s := rfl
theorem exec_xorU (d a b : BitVec 6) : exec (.xorU d a b) s = execXorU d a b s := rfl
theorem exec_andnU (d a b : BitVec 6) : exec (.andnU d a b) s = execAndnU d a b s := rfl
theorem exec_shlU (d a b : BitVec 6) : exec (.shlU d a b) s = execShlU d a b s := rfl
theorem exec_shrUU (d a b : BitVec 6) : exec (.shrUU d a b) s = execShrUU d a b s := rfl
theorem exec_shrSU (d a b : BitVec 6) : exec (.shrSU d a b) s = execShrSU d a b s := rfl
theorem exec_minSU (d a b : BitVec 6) : exec (.minSU d a b) s = execMinSU d a b s := rfl
theorem exec_minUU (d a b : BitVec 6) : exec (.minUU d a b) s = execMinUU d a b s := rfl
theorem exec_maxSU (d a b : BitVec 6) : exec (.maxSU d a b) s = execMaxSU d a b s := rfl
theorem exec_maxUU (d a b : BitVec 6) : exec (.maxUU d a b) s = execMaxUU d a b s := rfl
theorem exec_cmpeqU (d a b : BitVec 6) : exec (.cmpeqU d a b) s = execCmpeqU d a b s := rfl
theorem exec_cmpneU (d a b : BitVec 6) : exec (.cmpneU d a b) s = execCmpneU d a b s := rfl
theorem exec_cmpltSU (d a b : BitVec 6) : exec (.cmpltSU d a b) s = execCmpltSU d a b s := rfl
theorem exec_cmpltUU (d a b : BitVec 6) : exec (.cmpltUU d a b) s = execCmpltUU d a b s := rfl
theorem exec_cmpleSU (d a b : BitVec 6) : exec (.cmpleSU d a b) s = execCmpleSU d a b s := rfl
theorem exec_cmpleUU (d a b : BitVec 6) : exec (.cmpleUU d a b) s = execCmpleUU d a b s := rfl
theorem exec_movU (d a : BitVec 6) : exec (.movU d a) s = execMovU d a s := rfl
theorem exec_notU (d a : BitVec 6) : exec (.notU d a) s = execNotU d a s := rfl
theorem exec_negU (d a : BitVec 6) : exec (.negU d a) s = execNegU d a s := rfl
theorem exec_absU (d a : BitVec 6) : exec (.absU d a) s = execAbsU d a s := rfl
theorem exec_popcU (d a : BitVec 6) : exec (.popcU d a) s = execPopcU d a s := rfl
theorem exec_clzU (d a : BitVec 6) : exec (.clzU d a) s = execClzU d a s := rfl
theorem exec_brevU (d a : BitVec 6) : exec (.brevU d a) s = execBrevU d a s := rfl
theorem exec_sextBU (d a : BitVec 6) : exec (.sextBU d a) s = execSextBU d a s := rfl
theorem exec_sextHU (d a : BitVec 6) : exec (.sextHU d a) s = execSextHU d a s := rfl
theorem exec_sextWU (d a : BitVec 6) : exec (.sextWU d a) s = execSextWU d a s := rfl
theorem exec_addUi (d a : BitVec 6) (i : BitVec 12) : exec (.addUi d a i) s = execAddUi d a i s := rfl
theorem exec_andUi (d a : BitVec 6) (i : BitVec 12) : exec (.andUi d a i) s = execAndUi d a i s := rfl
theorem exec_orUi (d a : BitVec 6) (i : BitVec 12) : exec (.orUi d a i) s = execOrUi d a i s := rfl
theorem exec_xorUi (d a : BitVec 6) (i : BitVec 12) : exec (.xorUi d a i) s = execXorUi d a i s := rfl
theorem exec_shlUi (d a i : BitVec 6) : exec (.shlUi d a i) s = execShlUi d a i s := rfl
theorem exec_shrUUi (d a i : BitVec 6) : exec (.shrUUi d a i) s = execShrUUi d a i s := rfl
theorem exec_shrSUi (d a i : BitVec 6) : exec (.shrSUi d a i) s = execShrSUi d a i s := rfl
theorem exec_cmpeqUi (d a : BitVec 6) (i : BitVec 12) : exec (.cmpeqUi d a i) s = execCmpeqUi d a i s := rfl
theorem exec_cmpltSUi (d a : BitVec 6) (i : BitVec 12) : exec (.cmpltSUi d a i) s = execCmpltSUi d a i s := rfl
theorem exec_cmpltUUi (d a : BitVec 6) (i : BitVec 12) : exec (.cmpltUUi d a i) s = execCmpltUUi d a i s := rfl
theorem exec_moviU (d : BitVec 6) (i : BitVec 18) : exec (.moviU d i) s = execMoviU d i s := rfl
theorem exec_movx (d : BitVec 6) (i : BitVec 18) : exec (.movx d i) s = execMovx d i s := rfl
theorem exec_bra (r : BitVec 18) : exec (.bra r) s = execBra r s := rfl
theorem exec_bz (a : BitVec 6) (r : BitVec 18) : exec (.bz a r) s = execBz a r s := rfl
theorem exec_bnz (a : BitVec 6) (r : BitVec 18) : exec (.bnz a r) s = execBnz a r s := rfl
theorem exec_jmp (a : BitVec 6) : exec (.jmp a) s = execJmp a s := rfl
theorem exec_call (n : BitVec 6) (r : BitVec 18) : exec (.call n r) s = execCall n r s := rfl
theorem exec_trap (c : BitVec 18) : exec (.trap c) s = execTrap c s := rfl
theorem exec_any (d : BitVec 6) (f : Src) : exec (.any d f) s = execAny d f s := rfl
theorem exec_all (d : BitVec 6) (f : Src) : exec (.all d f) s = execAll d f s := rfl
theorem exec_ballot (d : BitVec 6) (f : Src) : exec (.ballot d f) s = execBallot d f s := rfl
theorem exec_srdS (d : BitVec 6) (p : BitVec 8) : exec (.srdS d p) s = execSrdS d p s := rfl
theorem exec_srdV (d : BitVec 6) (p : BitVec 8) (h : BitVec 1) : exec (.srdV d p h) s = execSrdV d p h s := rfl
theorem exec_swr (a : BitVec 6) (p : BitVec 8) : exec (.swr a p) s = execSwr a p s := rfl
theorem exec_fence (c : Scope) (e : Sem) : exec (.fence c e) s = execFence c e s := rfl
theorem exec_fqpop (d : BitVec 6) : exec (.fqpop d) s = execFqpop d s := rfl
theorem exec_launch (a : BitVec 6) : exec (.launch a) s = execLaunch a s := rfl
theorem exec_launchAt (a b : BitVec 6) : exec (.launchAt a b) s = execLaunchAt a b s := rfl
theorem exec_fbMark (a b c : BitVec 6) : exec (.fbMark a b c) s = execFbMark a b c s := rfl
theorem exec_barAlloc (d : BitVec 6) : exec (.barAlloc d) s = execBarAlloc d s := rfl
theorem exec_barInit (a b c : BitVec 6) : exec (.barInit a b c) s = execBarInit a b c s := rfl
theorem exec_barExpect (a b : BitVec 6) : exec (.barExpect a b) s = execBarExpect a b s := rfl
theorem exec_barArrive (a : BitVec 6) : exec (.barArrive a) s = execBarArrive a s := rfl
theorem exec_barArriveQ (a b : BitVec 6) : exec (.barArriveQ a b) s = execBarArriveQ a b s := rfl
theorem exec_barWait (a : BitVec 6) : exec (.barWait a) s = execBarWait a s := rfl
theorem exec_barTest (d a : BitVec 6) : exec (.barTest d a) s = execBarTest d a s := rfl
theorem exec_barFree (a : BitVec 6) : exec (.barFree a) s = execBarFree a s := rfl
theorem exec_cpTile (a b c e : BitVec 6) : exec (.cpTile a b c e) s = execCpTile a b c e s := rfl
theorem exec_cpBulk (a b c e : BitVec 6) : exec (.cpBulk a b c e) s = execCpBulk a b c e s := rfl
theorem exec_cpGather (a b c e : BitVec 6) : exec (.cpGather a b c e) s = execCpGather a b c e s := rfl
theorem exec_cpRed (a b c e : BitVec 6) : exec (.cpRed a b c e) s = execCpRed a b c e s := rfl
theorem exec_cpAt (a b e : BitVec 6) : exec (.cpAt a b e) s = execCpAt a b e s := rfl
theorem exec_mma (a b c e : BitVec 6) : exec (.mma a b c e) s = execMma a b c e s := rfl
theorem exec_accZero (a : BitVec 6) : exec (.accZero a) s = execAccZero a s := rfl
theorem exec_accLd (a b : BitVec 6) : exec (.accLd a b) s = execAccLd a b s := rfl
theorem exec_accSt (a b c e : BitVec 6) : exec (.accSt a b c e) s = execAccSt a b c e s := rfl
theorem exec_accRed (a b c e : BitVec 6) : exec (.accRed a b c e) s = execAccRed a b c e s := rfl
theorem exec_sldB (d a : BitVec 6) (i : BitVec 12) : exec (.sldB d a i) s = execSldB d a i s := rfl
theorem exec_sldH (d a : BitVec 6) (i : BitVec 12) : exec (.sldH d a i) s = execSldH d a i s := rfl
theorem exec_sldW (d a : BitVec 6) (i : BitVec 12) : exec (.sldW d a i) s = execSldW d a i s := rfl
theorem exec_sldD (d a : BitVec 6) (i : BitVec 12) : exec (.sldD d a i) s = execSldD d a i s := rfl
theorem exec_sstB (t a : BitVec 6) (i : BitVec 12) : exec (.sstB t a i) s = execSstB t a i s := rfl
theorem exec_sstH (t a : BitVec 6) (i : BitVec 12) : exec (.sstH t a i) s = execSstH t a i s := rfl
theorem exec_sstW (t a : BitVec 6) (i : BitVec 12) : exec (.sstW t a i) s = execSstW t a i s := rfl
theorem exec_sstD (t a : BitVec 6) (i : BitVec 12) : exec (.sstD t a i) s = execSstD t a i s := rfl
theorem exec_shGetW (d a : BitVec 6) (e : Sem) : exec (.shGetW d a e) s = execShGetW d a e s := rfl
theorem exec_shGetP (a b : BitVec 6) (e : Sem) : exec (.shGetP a b e) s = execShGetP a b e s := rfl
theorem exec_shOpAdd (d a b : BitVec 6) (e : Sem) : exec (.shOpAdd d a b e) s = execShOpAdd d a b e s := rfl
theorem exec_shOpAddF (d a b : BitVec 6) (e : Sem) : exec (.shOpAddF d a b e) s = execShOpAddF d a b e s := rfl
theorem exec_shOpMin (d a b : BitVec 6) (e : Sem) : exec (.shOpMin d a b e) s = execShOpMin d a b e s := rfl
theorem exec_shOpMax (d a b : BitVec 6) (e : Sem) : exec (.shOpMax d a b e) s = execShOpMax d a b e s := rfl
theorem exec_shOpMinS (d a b : BitVec 6) (e : Sem) : exec (.shOpMinS d a b e) s = execShOpMinS d a b e s := rfl
theorem exec_shOpMinU (d a b : BitVec 6) (e : Sem) : exec (.shOpMinU d a b e) s = execShOpMinU d a b e s := rfl
theorem exec_shOpMaxS (d a b : BitVec 6) (e : Sem) : exec (.shOpMaxS d a b e) s = execShOpMaxS d a b e s := rfl
theorem exec_shOpMaxU (d a b : BitVec 6) (e : Sem) : exec (.shOpMaxU d a b e) s = execShOpMaxU d a b e s := rfl
theorem exec_shOpAnd (d a b : BitVec 6) (e : Sem) : exec (.shOpAnd d a b e) s = execShOpAnd d a b e s := rfl
theorem exec_shOpOr (d a b : BitVec 6) (e : Sem) : exec (.shOpOr d a b e) s = execShOpOr d a b e s := rfl
theorem exec_shOpXor (d a b : BitVec 6) (e : Sem) : exec (.shOpXor d a b e) s = execShOpXor d a b e s := rfl
theorem exec_shOpSwap (d a b : BitVec 6) (e : Sem) : exec (.shOpSwap d a b e) s = execShOpSwap d a b e s := rfl
theorem exec_shOpCas (d a b : BitVec 6) (e : Sem) : exec (.shOpCas d a b e) s = execShOpCas d a b e s := rfl
theorem exec_shLand (a : BitVec 6) : exec (.shLand a) s = execShLand a s := rfl
theorem exec_shPut (a b : BitVec 6) : exec (.shPut a b) s = execShPut a b s := rfl
theorem exec_shFloat (a : BitVec 6) (e : Sem) : exec (.shFloat a e) s = execShFloat a e s := rfl
theorem exec_ret : exec (.ret) s = execRet s := rfl
theorem exec_exit : exec (.exit) s = execExit s := rfl
theorem exec_yield : exec (.yield) s = execYield s := rfl
theorem exec_nop : exec (.nop) s = execNop s := rfl
theorem exec_rett : exec (.rett) s = execRett s := rfl
theorem exec_term : exec (.term) s = execTerm s := rfl
theorem exec_stdrain : exec (.stdrain) s = execStdrain s := rfl
theorem exec_step : exec (.step) s = execStep s := rfl
theorem exec_fbGo : exec (.fbGo) s = execFbGo s := rfl
theorem exec_teamRetire (lid tid : Nat) : exec (.teamRetire lid tid) s = execTeamRetire lid tid s := rfl
theorem exec_gridRetire (lid : Nat) : exec (.gridRetire lid) s = execGridRetire lid s := rfl
theorem exec_launchAtDue (lid : Nat) : exec (.launchAtDue lid) s = execLaunchAtDue lid s := rfl
theorem exec_distributorPass (part : Nat) : exec (.distributorPass part) s = execDistributorPass part s := rfl
theorem exec_contextSwitchOut (asid : Nat) : exec (.contextSwitchOut asid) s = execContextSwitchOut asid s := rfl
theorem exec_contextSwitchIn (asid : Nat) : exec (.contextSwitchIn asid) s = execContextSwitchIn asid s := rfl
theorem exec_preempt (lid tid : Nat) : exec (.preempt lid tid) s = execPreempt lid tid s := rfl
theorem exec_teamResume (lid tid : Nat) : exec (.teamResume lid tid) s = execTeamResume lid tid s := rfl
theorem exec_splitWake (cid sid : Nat) : exec (.splitWake cid sid) s = execSplitWake cid sid s := rfl
theorem exec_fairnessSwap (cid sid : Nat) : exec (.fairnessSwap cid sid) s = execFairnessSwap cid sid s := rfl
theorem exec_yieldShadowEnd (cid sid : Nat) : exec (.yieldShadowEnd cid sid) s = execYieldShadowEnd cid sid s := rfl
theorem exec_mmaExec (core : Nat) : exec (.mmaExec core) s = execMmaExec core s := rfl
theorem exec_accZeroExec (core : Nat) : exec (.accZeroExec core) s = execAccZeroExec core s := rfl
theorem exec_accLdExec (core : Nat) : exec (.accLdExec core) s = execAccLdExec core s := rfl
theorem exec_accStExec (core : Nat) : exec (.accStExec core) s = execAccStExec core s := rfl
theorem exec_accStComplete (core : Nat) : exec (.accStComplete core) s = execAccStComplete core s := rfl
theorem exec_accRedExec (core : Nat) : exec (.accRedExec core) s = execAccRedExec core s := rfl
theorem exec_accRedComplete (core : Nat) : exec (.accRedComplete core) s = execAccRedComplete core s := rfl
theorem exec_copyDispatch (core : Nat) : exec (.copyDispatch core) s = execCopyDispatch core s := rfl
theorem exec_cpAtDispatch (core seq : Nat) : exec (.cpAtDispatch core seq) s = execCpAtDispatch core seq s := rfl
theorem exec_copyComplete (die engine : Nat) : exec (.copyComplete die engine) s = execCopyComplete die engine s := rfl
theorem exec_sliceAdderOp (seq : Nat) : exec (.sliceAdderOp seq) s = execSliceAdderOp seq s := rfl
theorem exec_heldWritePerform (seq : Nat) : exec (.heldWritePerform seq) s = execHeldWritePerform seq s := rfl
theorem exec_storeRegistration (seq : Nat) : exec (.storeRegistration seq) s = execStoreRegistration seq s := rfl
theorem exec_sectorRevoke (sector : Nat) : exec (.sectorRevoke sector) s = execSectorRevoke sector s := rfl
theorem exec_ownerWriteBack (sector : Nat) : exec (.ownerWriteBack sector) s = execOwnerWriteBack sector s := rfl
theorem exec_readForward (core word : Nat) : exec (.readForward core word) s = execReadForward core word s := rfl
theorem exec_mirrorInvalidate (line : Nat) : exec (.mirrorInvalidate line) s = execMirrorInvalidate line s := rfl
theorem exec_lineFill (slice line : Nat) : exec (.lineFill slice line) s = execLineFill slice line s := rfl
theorem exec_spillQueueRefill (slice : Nat) : exec (.spillQueueRefill slice) s = execSpillQueueRefill slice s := rfl
theorem exec_peerL1Probe (core line : Nat) : exec (.peerL1Probe core line) s = execPeerL1Probe core line s := rfl
theorem exec_registrationAck (core asid : Nat) : exec (.registrationAck core asid) s = execRegistrationAck core asid s := rfl
theorem exec_storeTranslate (cid sid : Nat) : exec (.storeTranslate cid sid) s = execStoreTranslate cid sid s := rfl
theorem exec_faultQueueAdmit (core : Nat) : exec (.faultQueueAdmit core) s = execFaultQueueAdmit core s := rfl
theorem exec_pageWalkDone (core asid va : Nat) : exec (.pageWalkDone core asid va) s = execPageWalkDone core asid va s := rfl
theorem exec_trapEntry (cid sid : Nat) : exec (.trapEntry cid sid) s = execTrapEntry cid sid s := rfl
theorem exec_shellOpEffect (core shell : Nat) : exec (.shellOpEffect core shell) s = execShellOpEffect core shell s := rfl
theorem exec_shellLandEffect (core shell : Nat) : exec (.shellLandEffect core shell) s = execShellLandEffect core shell s := rfl
theorem exec_shellFloatEffect (shell : Nat) : exec (.shellFloatEffect shell) s = execShellFloatEffect shell s := rfl
theorem exec_shellOverstay (shell : Nat) : exec (.shellOverstay shell) s = execShellOverstay shell s := rfl
theorem exec_shellLandingLoss (shell : Nat) : exec (.shellLandingLoss shell) s = execShellLandingLoss shell s := rfl
theorem exec_shellCooldownEnd (shell : Nat) : exec (.shellCooldownEnd shell) s = execShellCooldownEnd shell s := rfl
theorem exec_neighbourRead (cid sid : Nat) : exec (.neighbourRead cid sid) s = execNeighbourRead cid sid s := rfl
theorem exec_stepComplete (cid sid : Nat) : exec (.stepComplete cid sid) s = execStepComplete cid sid s := rfl
theorem exec_pageOut (lid seat : Nat) : exec (.pageOut lid seat) s = execPageOut lid seat s := rfl
theorem exec_hostCut (cid : Nat) : exec (.hostCut cid) s = execHostCut cid s := rfl
theorem exec_ctxStart (part asid : Nat) : exec (.ctxStart part asid) s = execCtxStart part asid s := rfl
theorem exec_ctxStop (part asid : Nat) : exec (.ctxStop part asid) s = execCtxStop part asid s := rfl
theorem exec_pctlWrite (part : Nat) (value : Word) : exec (.pctlWrite part value) s = execPctlWrite part value s := rfl
theorem exec_engMaskWrite (part die : Nat) (value : Word) : exec (.engMaskWrite part die value) s = execEngMaskWrite part die value s := rfl
theorem exec_scrubComplete (bay : Nat) : exec (.scrubComplete bay) s = execScrubComplete bay s := rfl
theorem exec_l2BucketTick (slice : Nat) : exec (.l2BucketTick slice) s = execL2BucketTick slice s := rfl
theorem exec_portBucketTick (port : Nat) : exec (.portBucketTick port) s = execPortBucketTick port s := rfl
theorem exec_kbktWrite (entry : Nat) (value : DWord) : exec (.kbktWrite entry value) s = execKbktWrite entry value s := rfl
theorem exec_ingressFlit (port src key offset : Nat) (write : Bool) (data : DWord) : exec (.ingressFlit port src key offset write data) s = execIngressFlit port src key offset write data s := rfl
theorem exec_exportRequest (src key offset : Nat) (write : Bool) (data : DWord) : exec (.exportRequest src key offset write data) s = execExportRequest src key offset write data s := rfl
theorem exec_remoteArrive (asid src key count : Nat) (value : DWord) : exec (.remoteArrive asid src key count value) s = execRemoteArrive asid src key count value s := rfl
theorem exec_arrivalPerform (n : Nat) : exec (.arrivalPerform n) s = execArrivalPerform n s := rfl
theorem exec_routeUnusableTimeout (ep : Nat) : exec (.routeUnusableTimeout ep) s = execRouteUnusableTimeout ep s := rfl
theorem exec_strictRetransmit (dst key : Nat) : exec (.strictRetransmit dst key) s = execStrictRetransmit dst key s := rfl
theorem exec_rswapRoute : exec (.rswapRoute) s = execRswapRoute s := rfl
theorem exec_rswapKey : exec (.rswapKey) s = execRswapKey s := rfl
theorem exec_swapComplete : exec (.swapComplete) s = execSwapComplete s := rfl
theorem exec_portFail (port : Nat) : exec (.portFail port) s = execPortFail port s := rfl
theorem exec_portLive (port : Nat) : exec (.portLive port) s = execPortLive port s := rfl
theorem exec_portctlEn (port : Nat) (en : Bool) : exec (.portctlEn port en) s = execPortctlEn port en s := rfl
theorem exec_portctlFailClear (port : Nat) : exec (.portctlFailClear port) s = execPortctlFailClear port s := rfl
theorem exec_portctlKclr (port : Nat) : exec (.portctlKclr port) s = execPortctlKclr port s := rfl
theorem exec_ftimeSyncExchange (master : DWord) (offset : Half) : exec (.ftimeSyncExchange master offset) s = execFtimeSyncExchange master offset s := rfl
theorem exec_ftimeLockLoss : exec (.ftimeLockLoss) s = execFtimeLockLoss s := rfl
theorem exec_shootdownPage (part asid size : Nat) : exec (.shootdownPage part asid size) s = execShootdownPage part asid size s := rfl
theorem exec_shootdownAll (part asid : Nat) : exec (.shootdownAll part asid) s = execShootdownAll part asid s := rfl
theorem exec_shootdownComplete (part : Nat) : exec (.shootdownComplete part) s = execShootdownComplete part s := rfl
theorem exec_correctableError (unit : Nat) : exec (.correctableError unit) s = execCorrectableError unit s := rfl
theorem exec_uncorrectableError (place : Place) : exec (.uncorrectableError place) s = execUncorrectableError place s := rfl
theorem exec_powerThrottle (on : Bool) : exec (.powerThrottle on) s = execPowerThrottle on s := rfl
theorem exec_hotStop (outlet : Half) : exec (.hotStop outlet) s = execHotStop outlet s := rfl
theorem exec_hotClear (outlet : Half) : exec (.hotClear outlet) s = execHotClear outlet s := rfl
theorem exec_deviceReset (image : BootImage) : exec (.deviceReset image) s = execDeviceReset image s := rfl
theorem exec_attGo : exec (.attGo) s = execAttGo s := rfl
theorem exec_attQuoteDone : exec (.attQuoteDone) s = execAttQuoteDone s := rfl
theorem exec_attnonceWrite (offset : Nat) (value : DWord) : exec (.attnonceWrite offset value) s = execAttnonceWrite offset value s := rfl
theorem exec_coreretWrite (value : DWord) : exec (.coreretWrite value) s = execCoreretWrite value s := rfl
theorem exec_coreMarginFail (core : Nat) : exec (.coreMarginFail core) s = execCoreMarginFail core s := rfl
theorem exec_eolUpdate (date : Word) : exec (.eolUpdate date) s = execEolUpdate date s := rfl
theorem exec_ceclrWrite (value : DWord) : exec (.ceclrWrite value) s = execCeclrWrite value s := rfl
theorem exec_mgmtRegisterWrite (offset size : Nat) (value : DWord) : exec (.mgmtRegisterWrite offset size value) s = execMgmtRegisterWrite offset size value s := rfl
theorem exec_loadDataArrival (cid sid : Nat) : exec (.loadDataArrival cid sid) s = execLoadDataArrival cid sid s := rfl
theorem exec_bayRetire (bay : Nat) : exec (.bayRetire bay) s = execBayRetire bay s := rfl

end Sys2Proof.Machine
end

