-- ==== Sys2Proof/Laws/Sparse.lean ====
section
/-! SUPPORT. Reading after writing in a sparse table, and the canonical form that every write keeps. -/

namespace Sys2Proof

variable {α : Type}

@[simp] theorem sget_nil (d : α) (k : Nat) : sget d [] k = d := rfl

/-- A listed pair is read back at its key and nowhere else. -/
theorem sget_sput (d : α) (m : SMap α) (k j : Nat) (x : α) :
    sget d (sput k x m) j = if j = k then x else sget d m j := by
  induction m with
  | nil => simp only [sput, sget, eq_comm]
  | cons e t ih =>
    obtain ⟨i, y⟩ := e
    simp only [sput]
    split
    · simp only [sget, eq_comm]
    · split
      · subst k; simp only [sget, eq_comm]; split <;> rfl
      · rename_i h1 h2
        simp only [sget, ih]
        by_cases hj : j = k
        · subst hj; simp [Ne.symm h2]
        · simp [hj]

/-- A key taken out reads as the default; the others read as before. -/
theorem sget_sdel (d : α) (m : SMap α) (k j : Nat) :
    sget d (sdel k m) j = if j = k then d else sget d m j := by
  induction m with
  | nil => simp [sdel]
  | cons e t ih =>
    obtain ⟨i, y⟩ := e
    simp only [sdel]
    split
    · subst k
      simp only [ih, sget]
      by_cases hj : j = i
      · simp [hj]
      · simp [hj, Ne.symm hj]
    · rename_i h
      simp only [sget, ih]
      by_cases hj : j = k
      · subst hj; simp [h]
      · simp [hj]

/-- A read after a write: the value written at its key, the old value elsewhere. -/
theorem sget_sset [DecidableEq α] (d : α) (m : SMap α) (k j : Nat) (x : α) :
    sget d (sset d m k x) j = if j = k then x else sget d m j := by
  simp only [sset]
  split
  · subst x; exact sget_sdel d m k j
  · exact sget_sput d m k j x

@[simp] theorem sget_sset_self [DecidableEq α] (d : α) (m : SMap α) (k : Nat) (x : α) :
    sget d (sset d m k x) k = x := by simp [sget_sset]

theorem sget_sset_of_ne [DecidableEq α] (d : α) (m : SMap α) {k j : Nat} (x : α) (h : j ≠ k) :
    sget d (sset d m k x) j = sget d m j := by simp [sget_sset, h]

/-- A run of values is read back at its keys and nowhere else. -/
theorem sget_ssetList [DecidableEq α] (d : α) (xs : List α) (m : SMap α) (k j : Nat) :
    sget d (ssetList d m k xs) j = if k ≤ j ∧ j < k + xs.length then xs.getD (j - k) d else sget d m j := by
  induction xs generalizing m k with
  | nil => simp only [ssetList, List.length_nil]; rw [if_neg (by omega)]
  | cons x t ih =>
    simp only [ssetList, ih, sget_sset, List.length_cons]
    by_cases h1 : j = k
    · subst h1; rw [if_neg (by omega)]; simp
    · by_cases h2 : k + 1 ≤ j ∧ j < k + 1 + t.length
      · rw [if_pos h2, if_pos (by omega)]
        obtain ⟨n, rfl⟩ := Nat.exists_eq_add_of_lt (show k < j by omega)
        simp [show k + n + 1 - (k + 1) = n by omega, show k + n + 1 - k = n + 1 by omega]
      · rw [if_neg h2, if_neg h1, if_neg (by omega)]

/-! ## The canonical form -/

/-- Whether a bound lets a key follow. -/
def below (b : Option Nat) (k : Nat) : Prop := ∀ n, b = some n → n < k

/-- The canonical form of a table with a first pair. -/
theorem swfFrom_cons [DecidableEq α] (d : α) (b : Option Nat) (j : Nat) (x : α) (t : SMap α) :
    swfFrom d b ((j, x) :: t) = true ↔ below b j ∧ x ≠ d ∧ swfFrom d (some j) t = true := by
  cases b <;> simp [swfFrom, below, and_assoc]

theorem swfFrom_weaken [DecidableEq α] (d : α) {a b : Option Nat} {m : SMap α}
    (h : ∀ k, below b k → below a k) (w : swfFrom d b m = true) : swfFrom d a m = true := by
  cases m with
  | nil => rfl
  | cons e t => rw [swfFrom_cons] at w ⊢; exact ⟨h _ w.1, w.2⟩

theorem below_trans {b : Option Nat} {j k : Nat} (h : below b j) (hk : below (some j) k) : below b k := by
  intro n hn
  have h1 := h n hn
  have h2 := hk j rfl
  omega

theorem swfFrom_sput [DecidableEq α] (d : α) (k : Nat) (x : α) (hx : x ≠ d) (m : SMap α) (b : Option Nat)
    (hb : below b k) (w : swfFrom d b m = true) : swfFrom d b (sput k x m) = true := by
  induction m generalizing b with
  | nil => simp only [sput]; rw [swfFrom_cons]; exact ⟨hb, hx, rfl⟩
  | cons e t ih =>
    obtain ⟨j, y⟩ := e
    rw [swfFrom_cons] at w
    simp only [sput]
    split
    · rename_i h
      rw [swfFrom_cons, swfFrom_cons]
      exact ⟨hb, hx, (by intro n hn; cases hn; exact h), w.2⟩
    · split
      · rename_i _ h; subst h; rw [swfFrom_cons]; exact ⟨hb, hx, w.2.2⟩
      · rw [swfFrom_cons]
        exact ⟨w.1, w.2.1, ih (some j) (by intro n hn; cases hn; omega) w.2.2⟩

theorem swfFrom_sdel [DecidableEq α] (d : α) (k : Nat) (m : SMap α) (b : Option Nat)
    (w : swfFrom d b m = true) : swfFrom d b (sdel k m) = true := by
  induction m generalizing b with
  | nil => rfl
  | cons e t ih =>
    obtain ⟨j, y⟩ := e
    rw [swfFrom_cons] at w
    simp only [sdel]
    split
    · exact swfFrom_weaken d (fun _ => below_trans w.1) (ih _ w.2.2)
    · rw [swfFrom_cons]; exact ⟨w.1, w.2.1, ih _ w.2.2⟩

/-- A write keeps the canonical form. -/
theorem swf_sset [DecidableEq α] (d : α) (m : SMap α) (k : Nat) (x : α) (w : swf d m = true) :
    swf d (sset d m k x) = true := by
  simp only [swf, sset] at *
  split
  · exact swfFrom_sdel d k m none w
  · rename_i h
    exact swfFrom_sput d k x h m none (by intro n hn; cases hn) w

/-- A run of writes keeps the canonical form. -/
theorem swf_ssetList [DecidableEq α] (d : α) (xs : List α) (m : SMap α) (k : Nat) (w : swf d m = true) :
    swf d (ssetList d m k xs) = true := by
  induction xs generalizing m k with
  | nil => exact w
  | cons x t ih => exact ih _ _ (swf_sset d m k x w)

/-- Writes of listed pairs keep the canonical form. -/
theorem swf_foldl_sset [DecidableEq α] (d : α) (ps : List (Nat × α)) (m : SMap α) (w : swf d m = true) :
    swf d (ps.foldl (fun m p => sset d m p.1 p.2) m) = true := by
  induction ps generalizing m with
  | nil => exact w
  | cons p t ih => exact ih _ (swf_sset d m p.1 p.2 w)

/-- Dropping keys keeps the canonical form. -/
theorem swf_sdrop [DecidableEq α] (d : α) (p : Nat → Bool) (m : SMap α) (w : swf d m = true) :
    swf d (sdrop p m) = true := by
  have go : ∀ (m : SMap α) (b : Option Nat), swfFrom d b m = true → swfFrom d b (sdrop p m) = true := by
    intro m
    induction m with
    | nil => intro b _; rfl
    | cons e t ih =>
      obtain ⟨j, y⟩ := e
      intro b w
      rw [swfFrom_cons] at w
      simp only [sdrop, List.filter_cons] at *
      split
      · rw [swfFrom_cons]; exact ⟨w.1, w.2.1, ih _ w.2.2⟩
      · exact swfFrom_weaken d (fun _ => below_trans w.1) (ih _ w.2.2)
  exact go m none w

/-- Dropped keys read as the default, the others as before. -/
theorem sget_sdrop (d : α) (p : Nat → Bool) (m : SMap α) (k : Nat) :
    sget d (sdrop p m) k = if p k then d else sget d m k := by
  induction m with
  | nil => simp [sdrop]
  | cons e t ih =>
    obtain ⟨j, y⟩ := e
    simp only [sdrop, List.filter_cons] at *
    by_cases hp : p j
    · simp only [hp, Bool.not_true, Bool.false_eq_true, if_false, ih, sget]
      by_cases h : j = k
      · subst h; simp [hp]
      · simp [h]
    · simp only [hp, Bool.not_false, if_true, sget, ih]
      by_cases h : j = k
      · subst h; simp [hp]
      · simp [h]

/-- A key that the bound of a table shuts out reads as the default. -/
theorem sget_of_below [DecidableEq α] (d : α) {m : SMap α} {b : Nat} (w : swfFrom d (some b) m = true) {k : Nat}
    (h : k ≤ b) : sget d m k = d := by
  induction m generalizing b with
  | nil => rfl
  | cons e t ih =>
    obtain ⟨j, x⟩ := e
    rw [swfFrom_cons] at w
    have hb := w.1 b rfl
    rw [sget, if_neg (by omega)]
    exact ih w.2.2 (by omega)

/-- Two tables in canonical form that read alike at every key are the same list. -/
theorem swf_ext [DecidableEq α] (d : α) {m n : SMap α} (hm : swf d m = true) (hn : swf d n = true)
    (h : ∀ k, sget d m k = sget d n k) : m = n := by
  have go : ∀ (m n : SMap α) (b : Option Nat), swfFrom d b m = true → swfFrom d b n = true →
      (∀ k, sget d m k = sget d n k) → m = n := by
    intro m
    induction m with
    | nil =>
      intro n b _ hn h
      cases n with
      | nil => rfl
      | cons e t =>
        rw [swfFrom_cons] at hn
        exact absurd (by simpa [sget] using (h e.1).symm) hn.2.1
    | cons e t ih =>
      intro n b hm hn h
      cases n with
      | nil =>
        rw [swfFrom_cons] at hm
        exact absurd (by simpa [sget] using h e.1) hm.2.1
      | cons f u =>
        obtain ⟨i, x⟩ := e
        obtain ⟨j, y⟩ := f
        rw [swfFrom_cons] at hm hn
        have hij : i = j := by
          rcases Nat.lt_trichotomy i j with c | c | c
          · have := h i
            rw [sget, if_pos rfl, sget, if_neg (by omega), sget_of_below d hn.2.2 (by omega)] at this
            exact absurd this hm.2.1
          · exact c
          · have := h j
            rw [sget, if_neg (by omega), sget_of_below d hm.2.2 (by omega), sget, if_pos rfl] at this
            exact absurd this.symm hn.2.1
        subst hij
        have hxy : x = y := by simpa [sget] using h i
        subst hxy
        refine congrArg _ (ih u (some i) hm.2.2 hn.2.2 fun k => ?_)
        by_cases hk : k ≤ i
        · rw [sget_of_below d hm.2.2 hk, sget_of_below d hn.2.2 hk]
        · have := h k
          rwa [sget, if_neg (by omega), sget, if_neg (by omega)] at this
  exact go m n none hm hn h

end Sys2Proof
end

