-- ==== Sys2Proof/Laws/Regs.lean ====
section
/-! SUPPORT. Crews, splits and registers after an update. -/

namespace Sys2Proof.Machine

/-! ## Registers of a crew -/

section
variable (c : Crew)

/-- A lane register read after a write of a lane register. -/
theorem Crew.vAbs_setAbs (l i k j : Nat) (x : Word) (hl : l < 32) (hk : k < 32) :
    (c.setAbs l i x).vAbs k j = if k = l ∧ j = i then x else c.vAbs k j := by
  simp only [Crew.vAbs, Crew.setAbs, sget_sset]
  by_cases h : k = l ∧ j = i
  · rw [if_pos h, if_pos (by omega)]
  · rw [if_neg h, if_neg (by omega)]

/-- A uniform register read after a write of a uniform register. -/
theorem Crew.u_setU (n k : Nat) (x : DWord) : (c.setU n x).u k = if k = n then x else c.u k := by
  simp only [Crew.u, Crew.setU, sget_sset]

/-- Lane registers read after one value per lane is written to register `n` of the window. -/
theorem Crew.vAbs_setLanes (n : Nat) (val : Nat → Word) (ls : List Nat) (hl : ∀ l ∈ ls, l < 32) (k j : Nat)
    (hk : k < 32) :
    (c.setLanes n (ls.map fun l => (l, val l))).vAbs k j = if k ∈ ls ∧ j = c.wb + n then val k else c.vAbs k j := by
  induction ls generalizing c with
  | nil => simp [Crew.setLanes]
  | cons l t ih =>
    have hl' : ∀ l ∈ t, l < 32 := fun x hx => hl x (List.mem_cons_of_mem _ hx)
    simp only [List.map_cons, Crew.setLanes]
    rw [ih (c.setV l n (val l)) hl', Crew.setV,
      Crew.vAbs_setAbs c l (c.wb + n) k j (val l) (hl l List.mem_cons_self) hk, Crew.setAbs_wb]
    by_cases h1 : j = c.wb + n
    · by_cases h2 : k ∈ t
      · simp [h1, h2]
      · by_cases h3 : k = l
        · subst h3; simp [h1]
        · simp [h2, h3]
    · simp [h1]

/-- Which lane registers are poisoned after one value per lane is written. -/
theorem Crew.vpoison_setLanes (n : Nat) (xs : List (Nat × Word)) (k : Nat) :
    k ∈ (c.setLanes n xs).vpoison ↔ k ∈ c.vpoison ∧ ¬ ∃ l ∈ xs.map Prod.fst, k = 32 * (c.wb + n) + l := by
  induction xs generalizing c with
  | nil => simp [Crew.setLanes]
  | cons e t ih =>
    simp only [Crew.setLanes, ih]
    simp only [Crew.setV, Crew.setAbs, List.mem_filter, bne_iff_ne, ne_eq, List.map_cons, List.mem_cons,
      exists_eq_or_imp, not_or, and_assoc]

end

/-! ## Lanes -/

theorem mem_lanes {l : Nat} : l ∈ lanes ↔ l < 32 := by
  constructor
  · intro h; simp only [lanes, List.mem_cons, List.not_mem_nil, or_false] at h; omega
  · intro h
    have : ∀ n < 32, n ∈ lanes := by decide
    exact this l h

theorem activeLanes_lt {c : Crew} {p : Split} : ∀ l ∈ activeLanes c p, l < 32 := by
  intro l h
  simp only [activeLanes, maskLanes, List.mem_filter] at h
  exact mem_lanes.mp h.1.1

/-! ## Crews and splits -/

/-- A list entry found by a key after a map that keeps keys. -/
theorem find?_map_key {α : Type} (key : α → Nat) (g : α → α) (hg : ∀ a, key (g a) = key a) (k : Nat) (xs : List α) :
    (xs.map g).find? (fun a => key a == k) = (xs.find? fun a => key a == k).map g := by
  induction xs with
  | nil => rfl
  | cons x t ih =>
    simp only [List.map_cons, List.find?_cons, hg]
    cases key x == k
    · exact ih
    · rfl

/-- Finding a crew after an update of a crew. -/
theorem State.crew?_modCrew (s : State) (cid k : Nat) (f : Crew → Crew) (hf : ∀ c, (f c).cid = c.cid) :
    (s.modCrew cid f).crew? k = (s.crew? k).map fun c => if c.cid = cid then f c else c := by
  have := find?_map_key Crew.cid (fun c => if c.cid == cid then f c else c)
    (by intro a; split <;> simp [hf]) k s.crews
  simpa [State.crew?, State.modCrew] using this

theorem State.crew?_cid {s : State} {k : Nat} {c : Crew} (h : s.crew? k = some c) : c.cid = k := by
  have := List.find?_some h; simpa using this

theorem Crew.split?_sid {c : Crew} {k : Nat} {p : Split} (h : c.split? k = some p) : p.sid = k := by
  have := List.find?_some h; simpa using this

/-- The crew that an update changes. -/
theorem State.crew?_modCrew_self {s : State} {c : Crew} (f : Crew → Crew) (hf : ∀ c, (f c).cid = c.cid)
    (h : s.crew? c.cid = some c) : (s.modCrew c.cid f).crew? c.cid = some (f c) := by
  rw [State.crew?_modCrew s c.cid c.cid f hf, h]; simp

/-- The crews that an update leaves. -/
theorem State.crew?_modCrew_ne {s : State} {cid k : Nat} (f : Crew → Crew) (hf : ∀ c, (f c).cid = c.cid)
    (h : k ≠ cid) : (s.modCrew cid f).crew? k = s.crew? k := by
  rw [State.crew?_modCrew s cid k f hf]
  cases hk : s.crew? k with
  | none => rfl
  | some c => have := State.crew?_cid hk; simp [this, h]

/-- Finding a split after an update of a split. -/
theorem Crew.split?_modSplit (c : Crew) (sid k : Nat) (f : Split → Split) (hf : ∀ p, (f p).sid = p.sid) :
    (c.modSplit sid f).split? k = (c.split? k).map fun p => if p.sid = sid then f p else p := by
  have := find?_map_key Split.sid (fun p => if p.sid == sid then f p else p)
    (by intro a; split <;> simp [hf]) k c.splits
  simpa [Crew.split?, Crew.modSplit] using this

theorem Crew.split?_congr {c c' : Crew} (h : c'.splits = c.splits) (k : Nat) : c'.split? k = c.split? k := by
  simp [Crew.split?, h]

/-- Finding a split of a crew whose splits may be tried again. -/
theorem Crew.split?_untried (c : Crew) (k : Nat) : c.untried.split? k = (c.split? k).map Split.untried :=
  find?_map_key Split.sid Split.untried (fun _ => rfl) k c.splits

theorem State.retry_eq (s : State) : s.retry = { s with crews := s.crews.map Crew.untried } := rfl

/-- Finding a crew once every split may be tried again. -/
theorem State.crew?_retry (s : State) (k : Nat) : s.retry.crew? k = (s.crew? k).map Crew.untried :=
  find?_map_key Crew.cid Crew.untried (fun _ => rfl) k s.crews

theorem State.crew?_unage (s : State) (cid sid k : Nat) : (s.unage cid sid).crew? k = s.crew? k := rfl

/-- After an issue only the age order, and what it holds of the splits woken in this cycle, differ from a retry. -/
theorem State.afterIssue_eq (s : State) (cid sid : Nat) :
    s.afterIssue cid sid = { s.retry with age := (s.afterIssue cid sid).age, woke := (s.afterIssue cid sid).woke,
                                          entered := (s.afterIssue cid sid).entered } := by
  unfold State.afterIssue
  simp only
  split <;> rfl

/-- Finding a crew after an issue. -/
theorem State.crew?_afterIssue (s : State) (cid sid k : Nat) :
    (s.afterIssue cid sid).crew? k = (s.crew? k).map Crew.untried := by
  rw [State.afterIssue_eq]; exact s.crew?_retry k

/-- After a boundary trap only the age order differs from a retry. -/
theorem State.afterTrap_eq (s : State) (cid sid : Nat) :
    s.afterTrap cid sid = { s.retry with age := (s.afterTrap cid sid).age, woke := (s.afterTrap cid sid).woke } := by
  unfold State.afterTrap
  simp only
  split
  · rfl
  · split <;> rfl

/-- Finding a crew after a boundary trap. -/
theorem State.crew?_afterTrap (s : State) (cid sid k : Nat) :
    (s.afterTrap cid sid).crew? k = (s.crew? k).map Crew.untried := by
  rw [State.afterTrap_eq]; exact s.crew?_retry k

end Sys2Proof.Machine
end

