-- ==== Sys2Proof/Laws/Issue.lean ====
section
/-! SUPPORT. What the issue of an instruction can do, and what the checks of its operands do; stated once, to be cited
instead of unfolding them. -/

namespace Sys2Proof.Machine

open Host (Outcome)

section
variable {s : State} {c : Crew} {p : Split} {body : Crew → Split → State → Res}

/-- The issue of an instruction whose body answers a state. -/
theorem issue_ok (h : Issues s c p) {t : State}
    (hb : body (s.seen c p.sid) p (s.countIssue c.cid p.sid) = .ok t) :
    issue s body = .next (t.afterIssue c.cid p.sid) := by
  unfold issue
  simp only [h.cur, h.crew, h.split, h.may, h.due, hb, Bool.not_true, Bool.false_eq_true, if_false]

/-- The issue of an instruction whose body raises a trap. -/
theorem issue_trap (h : Issues s c p) {k : Trap}
    (hb : body (s.seen c p.sid) p (s.countIssue c.cid p.sid) = .error (.trap k)) :
    issue s body = .next (s.raise c.cid p.sid k) := by
  unfold issue
  simp only [h.cur, h.crew, h.split, h.may, h.due, hb, Bool.not_true, Bool.false_eq_true, if_false]

/-- The issue of an instruction whose body waits. -/
theorem issue_wait (h : Issues s c p) (hb : body (s.seen c p.sid) p (s.countIssue c.cid p.sid) = .error .wait) :
    issue s body = .next (s.stall c.cid p.sid) := by
  unfold issue
  simp only [h.cur, h.crew, h.split, h.may, h.due, hb, Bool.not_true, Bool.false_eq_true, if_false]

/-- Everything that the issue of an instruction can do. -/
theorem issue_cases (s : State) (body : Crew → Split → State → Res) :
    issue s body = .fault .noIssuer ∨
    ∃ cid sid c p, s.cur = some (cid, sid) ∧ s.crew? cid = some c ∧ c.split? sid = some p ∧
      (issue s body = .next (s.stall cid sid) ∨
       (s.mayIssue c p = true ∧
         ((∃ d, s.dueTrap cid p = some d ∧ issue s body = .next ((s.takeDue cid sid d).afterTrap cid sid)) ∨
          (s.dueTrap cid p = none ∧
            ((∃ t, body (s.seen c sid) p (s.countIssue cid sid) = .ok t ∧
                issue s body = .next (t.afterIssue cid sid)) ∨
             (∃ k, body (s.seen c sid) p (s.countIssue cid sid) = .error (.trap k) ∧
                issue s body = .next (s.raise cid sid k)) ∨
             (∃ pa w, body (s.seen c sid) p (s.countIssue cid sid) = .error (.held pa w) ∧
                issue s body = .next (s.hold cid sid pa w)) ∨
             (∃ ops, body (s.seen c sid) p (s.countIssue cid sid) = .error (.nbr ops) ∧
                issue s body = .next (s.modSplit cid sid fun q => { q with status := .nbrWait ops }))))))) := by
  unfold issue
  split
  · exact .inl rfl
  rename_i cid sid hcur
  split
  · exact .inl rfl
  rename_i c hc
  split
  · exact .inl rfl
  rename_i p hp
  refine .inr ⟨cid, sid, c, p, hcur, hc, hp, ?_⟩
  split
  · exact .inl rfl
  rename_i hm
  have hm : s.mayIssue c p = true := by simpa using hm
  split
  · rename_i d hd
    split
    · exact .inr ⟨hm, .inl ⟨d, hd, rfl⟩⟩
    · exact .inl rfl
  · rename_i hd
    split
    · rename_i t hb; exact .inr ⟨hm, .inr ⟨hd, .inl ⟨t, hb, rfl⟩⟩⟩
    · rename_i k hb; exact .inr ⟨hm, .inr ⟨hd, .inr (.inl ⟨k, hb, rfl⟩)⟩⟩
    · exact .inl rfl
    · rename_i pa w hb; exact .inr ⟨hm, .inr ⟨hd, .inr (.inr (.inl ⟨pa, w, hb, rfl⟩))⟩⟩
    · rename_i ops hb; exact .inr ⟨hm, .inr ⟨hd, .inr (.inr (.inr ⟨ops, hb, rfl⟩))⟩⟩

/-- With a live split selected, the issue of an instruction answers a next state. -/
theorem issue_answers {cid sid : Nat} (hc : s.cur = some (cid, sid)) (hk : s.crew? cid = some c)
    (hp : c.split? sid = some p) : ∃ t, issue s body = .next t := by
  rcases issue_cases s body with h | ⟨_, _, _, _, _, _, _, h | ⟨_, ⟨_, _, h⟩ | ⟨_, ⟨_, _, h⟩ | ⟨_, _, h⟩ | ⟨_, _, _, h⟩ | ⟨_, _, h⟩⟩⟩⟩
  · exfalso
    unfold issue at h
    simp only [hc, hk, hp] at h
    split at h
    · cases h
    · split at h
      · split at h <;> cases h
      · split at h <;> cases h
  all_goals exact ⟨_, h⟩

/-! ## The crew as it is read -/

/-- What a second pick of a cycle reads differs in the uniform registers, FPMODE, FPFLAGS and CPOL alone. -/
theorem State.seen_eq (s : State) (c : Crew) (sid : Nat) :
    s.seen c sid = { c with sregs := (s.seen c sid).sregs, spoison := (s.seen c sid).spoison, fpmode := (s.seen c sid).fpmode
                            fpflags := (s.seen c sid).fpflags, cpol := (s.seen c sid).cpol } := by
  unfold State.seen
  split <;> rfl

@[simp] theorem State.seen_cid (s : State) (c : Crew) (sid : Nat) : (s.seen c sid).cid = c.cid := by
  rw [State.seen_eq]
@[simp] theorem State.seen_wb (s : State) (c : Crew) (sid : Nat) : (s.seen c sid).wb = c.wb := by
  rw [State.seen_eq]
@[simp] theorem State.seen_splits (s : State) (c : Crew) (sid : Nat) : (s.seen c sid).splits = c.splits := by
  rw [State.seen_eq]
@[simp] theorem State.seen_vAbs (s : State) (c : Crew) (sid l i : Nat) :
    (s.seen c sid).vAbs l i = c.vAbs l i := by
  rw [State.seen_eq]; rfl
@[simp] theorem State.seen_v (s : State) (c : Crew) (sid l i : Nat) : (s.seen c sid).v l i = c.v l i := by
  rw [State.seen_eq]; rfl
@[simp] theorem State.seen_active (s : State) (c : Crew) (sid : Nat) (p : Split) :
    activeLanes (s.seen c sid) p = activeLanes c p := by
  rw [State.seen_eq]; rfl

/-- A first pick reads its crew as it stands. -/
theorem State.seen_of_first {s : State} {c : Crew} {sid : Nat}
    (h : s.picks.find? (fun q => q.cid == c.cid && q.sid != sid) = none) : s.seen c sid = c := by
  unfold State.seen
  rw [h]

theorem State.advance_eq (s : State) (c : Crew) (p : Split) : s.advance c p = s.setPc c.cid p.sid (p.pc + 4) := rfl

/-! ## The checks of the operands -/

theorem need_true {b : Bool} {k : Trap} (h : b = true) : need b k = .ok () := by simp [need, h]
theorem need_false {b : Bool} {k : Trap} (h : b = false) : need b k = .error (.trap k) := by simp [need, h]
theorem await_true {b : Bool} (h : b = true) : await b = .ok () := by simp [await, h]

@[simp] theorem State.countIssue_inField (s : State) (a b : Nat) (c : Crew) :
    (s.countIssue a b).inField c = s.inField c := rfl
@[simp] theorem State.countIssue_nbrVal (s : State) (a b : Nat) (c : Crew) (l d j : Nat) :
    (s.countIssue a b).nbrVal c l d j = s.nbrVal c l d j := rfl
@[simp] theorem State.countIssue_op (s : State) (a b : Nat) (c : Crew) (l : Nat) (x : Src) :
    (s.countIssue a b).op c l x = s.op c l x := by cases x <;> rfl

/-- The checks of operands that are in reach let the instruction go on. -/
theorem checkUses_ok {w : Word} {u : Uses} {marks : Bool} {r : Crew} (h : Clear s r p u marks) (a b : Nat) :
    checkUses w u marks (s.countIssue a b) r p = .ok () := by
  have h1 : u.inRange (s.countIssue a b) r = true := h.range
  have h2 : u.srcs.findSome? (nbrTrap (s.countIssue a b) r p) = none := h.nbr
  have h3 : (if marks = true then none else u.pinned r p) = none := by
    rcases h.pins with hm | hm
    · simp [hm]
    · simp [hm]
  have h4 : u.busy (s.countIssue a b) r p = false := h.free
  have h5 : u.waitsFor (s.countIssue a b) r p = [] := h.served
  simp only [checkUses, need_true h1, h2, h3, h4, h5, await, Bool.not_false, if_true]
  rfl

/-- Operands that are not poisoned pass the last check. -/
theorem checkPoison_ok {s : State} {u : Uses} {r : Crew} (h : u.poison s r p = none) : checkPoison u s r p = .ok () := by
  simp only [checkPoison, h]
  rfl

/-- The checks of an instruction without a trap of its own, on operands in reach. -/
theorem checkAll_ok {w : Word} {u : Uses} {r : Crew} (h : Clear s r p u false) (a b : Nat) :
    checkAll w u (s.countIssue a b) r p = .ok () := by
  simp only [checkAll, checkUses_ok h a b]
  exact checkPoison_ok (s := s.countIssue a b) h.clean

/-! ## What a completed instruction leaves -/

end

theorem State.countIssue_eq (s : State) (cid sid : Nat) :
    s.countIssue cid sid = s.modCrew cid fun c => c.counted sid := rfl

section
variable {s : State} {c : Crew} {p : Split}

/-- A state that differs from another in the crews and the age order is that other with its own crews and age order. -/
theorem rest_of {s t : State} {x : List Crew} {y z w : List (Nat × Nat)}
    (h : t = { s with crews := x, age := y, woke := z, entered := w }) :
    t = { s with crews := t.crews, age := t.age, woke := t.woke, entered := t.entered } := by subst h; rfl

/-- After an issue that has changed the crews alone. -/
theorem State.afterIssue_rest {s t : State} {x : List Crew} (h : t = { s with crews := x }) (cid sid : Nat) :
    t.afterIssue cid sid = { s with
      crews := (t.afterIssue cid sid).crews, age := (t.afterIssue cid sid).age, woke := (t.afterIssue cid sid).woke,
      entered := (t.afterIssue cid sid).entered } := by
  subst h
  exact rest_of (State.afterIssue_eq _ cid sid)

/-- Two changes of one crew are one. -/
theorem State.modCrew_modCrew (s : State) (cid : Nat) (f g : Crew → Crew) (hf : ∀ k, (f k).cid = k.cid) :
    (s.modCrew cid f).modCrew cid g = s.modCrew cid fun k => g (f k) := by
  simp only [State.modCrew, List.map_map]
  congr 1
  apply List.map_congr_left
  intro k _
  simp only [Function.comp_apply]
  by_cases h : k.cid == cid
  · simp [h, hf]
  · simp [h]

theorem Crew.counted_split? (c : Crew) (sid n : Nat) :
    (c.counted sid).split? n = 
      (c.split? n).map fun q => if q.sid = sid then { q with waits := none, muted := false, fb := fbCounted q.fb } else q := by
  have h := Crew.split?_modSplit { c with
      raised := 0, host := hostIssued c.host
      loads := c.loads.map fun (q : PLoad) => if q.sid == sid then { q with fresh := false } else q } sid n
    (fun q => { q with waits := none, muted := false, fb := fbCounted q.fb }) (fun _ => rfl)
  rw [Crew.counted, h]
  rfl

/-- A change of the issuing crew alone: what becomes of every crew and of the rest of the state. -/
theorem crew_change (h : Issues s c p) (g : Crew → Crew) (hcid : ∀ k, (g k).cid = k.cid) :
    let t := ((s.countIssue c.cid p.sid).modCrew c.cid g).afterIssue c.cid p.sid
    (∀ k, k ≠ c.cid → t.crew? k = (s.crew? k).map Crew.untried) ∧
    t.crew? c.cid = some (g (c.counted p.sid)).untried ∧
    t = { s with crews := t.crews, age := t.age, woke := t.woke, entered := t.entered } := by
  have hcnt : ∀ k : Crew, (k.counted p.sid).cid = k.cid := fun _ => rfl
  refine ⟨?_, ?_, ?_⟩
  · intro k hk
    rw [State.crew?_afterIssue, State.crew?_modCrew_ne _ hcid hk, State.countIssue_eq,
      State.crew?_modCrew_ne _ hcnt hk]
  · have h1 := State.crew?_modCrew_self (fun k => k.counted p.sid) hcnt h.crew
    have h2 := State.crew?_modCrew (s.countIssue c.cid p.sid) c.cid c.cid g hcid
    rw [State.crew?_afterIssue, h2, State.countIssue_eq, h1]
    simp
  · exact State.afterIssue_rest (x := ((s.countIssue c.cid p.sid).modCrew c.cid g).crews) rfl _ _

/-- The splits of a crew after a change that gives the issuing split by `f` and keeps the others. -/
theorem splitsGo_of (h : Issues s c p) {k : Crew} {f : Split → Split} (hf : ∀ q, (f q).sid = q.sid)
    (hk : k.splits = ((c.counted p.sid).modSplit p.sid f).splits) :
    SplitsGo c k.untried p (f { p with waits := none, muted := false, fb := fbCounted p.fb }).untried := by
  intro n
  rw [Crew.split?_untried, Crew.split?_congr hk, Crew.split?_modSplit _ _ _ _ hf, Crew.counted_split?]
  by_cases hn : n = p.sid
  · subst hn
    rw [if_pos rfl, h.split]
    simp
  · rw [if_neg hn]
    cases hq : c.split? n with
    | none => rfl
    | some q =>
      have : q.sid ≠ p.sid := fun e => hn ((Crew.split?_sid hq).symm.trans e)
      simp [this]

/-- A change `g` of the issuing crew that leaves its splits and host, then the next program counter. -/
theorem goes_of_crew (h : Issues s c p) (g : Crew → Crew) (hcid : ∀ k, (g k).cid = k.cid)
    (hspl : (g (c.counted p.sid)).splits = (c.counted p.sid).splits)
    (hhost : (g (c.counted p.sid)).host = (c.counted p.sid).host) (pc : DWord) :
    Goes s ((((s.countIssue c.cid p.sid).modCrew c.cid g).setPc c.cid p.sid pc).afterIssue c.cid p.sid) c
      (c.gone p.sid g pc) p (p.issued pc) := by
  have e : ((s.countIssue c.cid p.sid).modCrew c.cid g).setPc c.cid p.sid pc =
      (s.countIssue c.cid p.sid).modCrew c.cid fun k => (g k).modSplit p.sid fun q => { q with pc := pc } :=
    State.modCrew_modCrew _ _ _ _ hcid
  rw [e]
  obtain ⟨h1, h2, h3⟩ := crew_change h (fun k => (g k).modSplit p.sid fun q => { q with pc := pc }) hcid
  exact ⟨⟨h1, h2, splitsGo_of h (f := fun q => { q with pc := pc }) (fun _ => rfl)
    (by simp only [Crew.modSplit, hspl]), hhost⟩, h3⟩

end

end Sys2Proof.Machine
end

