-- ==== Sys2Proof/Laws/Lane.lean ====
section
/-! SUPPORT. What the shared lane and uniform operations do when their operands are in reach. -/

namespace Sys2Proof.Machine

variable {s : State} {c : Crew} {p : Split}

/-- An instruction that changes its crew by `g` alone, and then goes on at the next word. -/
theorem issue_crew {body : Crew → Split → State → Res} (h : Issues s c p) (g : Crew → Crew)
    (hb : body (s.seen c p.sid) p (s.countIssue c.cid p.sid) =
      .ok (((s.countIssue c.cid p.sid).modCrew c.cid g).setPc c.cid p.sid (p.pc + 4)))
    (hcid : ∀ k, (g k).cid = k.cid)
    (hspl : (g (c.counted p.sid)).splits = (c.counted p.sid).splits)
    (hhost : (g (c.counted p.sid)).host = (c.counted p.sid).host) :
    ∃ t, issue s body = .next t ∧ Goes s t c (c.gone p.sid g (p.pc + 4)) p (p.issued (p.pc + 4)) :=
  ⟨_, issue_ok h hb, goes_of_crew h g hcid hspl hhost _⟩

/-- An instruction that changes nothing but where its split goes on. -/
theorem issue_go {body : Crew → Split → State → Res} (h : Issues s c p) (pc : DWord)
    (hb : body (s.seen c p.sid) p (s.countIssue c.cid p.sid) =
      .ok ((s.countIssue c.cid p.sid).setPc c.cid p.sid pc)) :
    ∃ t, issue s body = .next t ∧ Goes s t c (c.gone p.sid id pc) p (p.issued pc) := by
  refine ⟨_, issue_ok h hb, ?_⟩
  have h1 : (s.countIssue c.cid p.sid).modCrew c.cid id = s.countIssue c.cid p.sid := by
    simp only [State.modCrew, id_eq, ite_self, List.map_id']
  have := goes_of_crew h id (fun _ => rfl) rfl rfl pc
  rwa [h1] at this

/-- What `laneOp` does: a value in each active lane, and the flags of every lane (R93, R94). -/
theorem laneOp_goes {w : Word} {d : BitVec 8} {srcs : List Src} {rd : Bool}
    {f : Rnd → (Src → Word) → Word → Word × Flags} (h : Issues s c p)
    (hu : Clear s (s.seen c p.sid) p
      { srcs := srcs, rd := if rd then [d.toNat] else [], wr := [d.toNat] } false) :
    let r := s.seen c p.sid
    let res := fun l => f r.rnd (s.op r l) (c.v l d.toNat)
    ∃ t c', laneOp w d srcs rd f s = .next t ∧ Goes s t c c' p (p.issued (p.pc + 4)) ∧ OnlyLanes c c' p ∧
      LanesHold c c' p d.toNat (fun l => (res l).1) ∧
      c'.fpflags = c.fpflags ||| orFlags ((activeLanes c p).map fun l => (res l).2) := by
  intro r res
  let rs := (activeLanes c p).map fun l => (l, res l)
  let g : Crew → Crew := fun k =>
    (k.setLanes d.toNat (rs.map fun r => (r.1, r.2.1))).raiseFlags (orFlags (rs.map fun r => r.2.2))
  have hb : (fun (c : Crew) (p : Split) (s : State) => (do
      checkAll w { srcs := srcs, rd := if rd then [d.toNat] else [], wr := [d.toNat] } s c p
      let rs := (activeLanes c p).map fun l => (l, f c.rnd (s.op c l) (c.v l d.toNat))
      pure ((s.modCrew c.cid fun k =>
        (k.setLanes d.toNat (rs.map fun r => (r.1, r.2.1))).raiseFlags
          (orFlags (rs.map fun r => r.2.2))).advance c p) : Res)) (s.seen c p.sid) p (s.countIssue c.cid p.sid) =
      .ok (((s.countIssue c.cid p.sid).modCrew c.cid g).setPc c.cid p.sid (p.pc + 4)) := by
    have hop : ∀ l, (s.countIssue c.cid p.sid).op (s.seen c p.sid) l = s.op (s.seen c p.sid) l := by
      intro l; funext x; simp
    simp only [checkAll_ok hu, State.seen_active, State.seen_v, State.seen_cid, hop, State.advance_eq]
    rfl
  refine ⟨_, c.gone p.sid g (p.pc + 4), issue_ok h hb, goes_of_crew h g ?_ ?_ ?_ _, ?_, ⟨?_, ?_⟩, ?_⟩
  · intro k; simp [g]
  · simp [g]
  · simp [g]
  · apply onlyLanes_of
    have : ∀ k, g k = { k with vregs := (g k).vregs, vpoison := (g k).vpoison, fpflags := (g k).fpflags
                               raised := (g k).raised } := by
      intro k; simp only [g, Crew.raiseFlags]; rw [Crew.setLanes_keep]
    rw [Crew.gone, this]; rfl
  · intro l n hl
    rw [Crew.gone_vAbs]
    simp only [g, rs, List.map_map, Crew.raiseFlags_vAbs]
    have := Crew.vAbs_setLanes (c.counted p.sid) d.toNat (fun l => (res l).1) (activeLanes c p)
      activeLanes_lt l n hl
    rw [Crew.counted_vAbs, Crew.counted_wb] at this
    exact this
  · intro k
    rw [Crew.gone_vpoison]
    simp only [g, Crew.raiseFlags_vpoison]
    rw [Crew.vpoison_setLanes, Crew.counted_vpoison, Crew.counted_wb]
    simp [rs]
  · rw [Crew.gone_fpflags]
    simp only [g, Crew.raiseFlags, Crew.setLanes_fpflags, Crew.counted_fpflags, rs, List.map_map]
    rfl

/-- The flags of lanes that raise none. -/
theorem orFlags_zero (xs : List Flags) (h : ∀ x ∈ xs, x = 0) : orFlags xs = 0 := by
  unfold orFlags
  induction xs with
  | nil => rfl
  | cons a t ih =>
    simp only [List.foldl_cons]
    have : a = 0 := h a (by simp)
    subst this
    exact ih (fun x hx => h x (by simp [hx]))

/-- What `laneInt` does: a value in each active lane, and no flag. -/
theorem laneInt_goes {w : Word} {d : BitVec 8} {srcs : List Src} {rd : Bool}
    {f : (Src → Word) → Word → Word} (h : Issues s c p)
    (hu : Clear s (s.seen c p.sid) p
      { srcs := srcs, rd := if rd then [d.toNat] else [], wr := [d.toNat] } false) :
    ∃ t c', laneInt w d srcs rd f s = .next t ∧ Goes s t c c' p (p.issued (p.pc + 4)) ∧ OnlyLanes c c' p ∧
      LanesHold c c' p d.toNat (fun l => f (s.op (s.seen c p.sid) l) (c.v l d.toNat)) ∧ c'.fpflags = c.fpflags := by
  obtain ⟨t, c', h1, h2, h3, h4, h5⟩ := laneOp_goes (w := w) (f := fun _ val old => (f val old, 0)) h hu
  refine ⟨t, c', h1, h2, h3, h4, ?_⟩
  rw [h5, orFlags_zero]
  · simp
  · intro x hx; obtain ⟨_, _, rfl⟩ := List.mem_map.mp hx; rfl

/-- What `uniOp` does: one value in S(D) (R52). -/
theorem uniOp_goes {w : Word} {d : BitVec 6} {us : List (BitVec 6)} {f : (BitVec 6 → DWord) → DWord}
    (h : Issues s c p)
    (hu : Clear s (s.seen c p.sid) p { us := us.map (·.toNat), ud := [d.toNat] } false) :
    let r := s.seen c p.sid
    ∃ t c', uniOp w d us f s = .next t ∧ Goes s t c c' p (p.issued (p.pc + 4)) ∧ OnlyUniform c c' p ∧
      UniformHolds c c' d.toNat (f fun n => r.u n.toNat) := by
  intro r
  let x := f fun n => r.u n.toNat
  let g : Crew → Crew := fun k => k.setU d.toNat x
  have hb : (fun (c : Crew) (p : Split) (s : State) => (do
      checkAll w { us := us.map (·.toNat), ud := [d.toNat] } s c p
      let x := f fun n => c.u n.toNat
      pure ((s.modCrew c.cid fun k => k.setU d.toNat x).advance c p) : Res)) (s.seen c p.sid) p
      (s.countIssue c.cid p.sid) =
      .ok (((s.countIssue c.cid p.sid).modCrew c.cid g).setPc c.cid p.sid (p.pc + 4)) := by
    simp only [checkAll_ok hu, State.advance_eq, State.seen_cid]
    rfl
  refine ⟨_, c.gone p.sid g (p.pc + 4), issue_ok h hb, goes_of_crew h g ?_ ?_ ?_ _, ?_, ⟨?_, ?_⟩⟩
  · intro k; rfl
  · rfl
  · rfl
  · exact onlyUniform_of (a := (g (c.counted p.sid)).sregs) (b := (g (c.counted p.sid)).spoison) (y := 0)
      (q := (c.gone p.sid g (p.pc + 4)).splits) (h := hostIssued c.host) rfl
  · intro n; exact Crew.u_setU (c.counted p.sid) d.toNat n x
  · intro k
    have : (c.gone p.sid g (p.pc + 4)).spoison = c.spoison.filter (· != d.toNat) := rfl
    rw [this]; simp

end Sys2Proof.Machine
end

