-- ==== Sys2Proof/Laws/Memory.lean ====
section
/-! SUPPORT. Physical memory: what a write leaves at every byte, and the canonical form that every write keeps. -/

namespace Sys2Proof.Machine

/-! ## Reading after writing -/

theorem State.readByte_writeByte (s : State) (a k : Nat) (b : Byte) :
    (s.writeByte a b).readByte k = if k = a then b else s.readByte k := sget_sset 0 s.mem a k b

theorem State.readByte_writeBytes (s : State) (a k : Nat) (bs : List Byte) :
    (s.writeBytes a bs).readByte k = if a ≤ k ∧ k < a + bs.length then bs.getD (k - a) 0 else s.readByte k :=
  sget_ssetList 0 bs s.mem a k

/-- A byte that no pair names is as before. -/
theorem State.readByte_writePairs_of_notMem (s : State) (ps : List (Nat × Byte)) (k : Nat) (h : ∀ p ∈ ps, p.1 ≠ k) :
    (s.writePairs ps).readByte k = s.readByte k := by
  have go : ∀ (ps : List (Nat × Byte)) (m : SMap Byte), (∀ p ∈ ps, p.1 ≠ k) →
      sget 0 (ps.foldl (fun m p => sset 0 m p.1 p.2) m) k = sget 0 m k := by
    intro ps
    induction ps with
    | nil => intro m _; rfl
    | cons p t ih =>
      intro m h
      rw [List.foldl_cons, ih _ fun q hq => h q (List.mem_cons_of_mem _ hq),
        sget_sset_of_ne 0 m p.2 fun e => h p List.mem_cons_self e.symm]
  exact go ps s.mem h

/-- A byte that is named once holds its value. -/
theorem State.readByte_writePairs_of_mem (s : State) (ps : List (Nat × Byte)) (k : Nat) (b : Byte)
    (hm : (k, b) ∈ ps) (hn : (ps.map Prod.fst).Nodup) : (s.writePairs ps).readByte k = b := by
  have go : ∀ (ps : List (Nat × Byte)) (s : State), (k, b) ∈ ps → (ps.map Prod.fst).Nodup →
      (s.writePairs ps).readByte k = b := by
    intro ps
    induction ps with
    | nil => intro s h; cases h
    | cons p t ih =>
      intro s h hn
      rw [List.map_cons, List.nodup_cons] at hn
      obtain h | h := List.mem_cons.mp h
      · subst h
        have : (s.writePairs ((k, b) :: t)).readByte k = ((s.writeByte k b).writePairs t).readByte k := rfl
        rw [this, State.readByte_writePairs_of_notMem, State.readByte_writeByte, if_pos rfl]
        intro q hq e
        exact hn.1 (List.mem_map.mpr ⟨q, hq, e⟩)
      · exact ih (s.writeByte p.1 p.2) h hn.2
  exact go ps s hm hn

theorem sgetList_congr (d : Byte) (m m' : SMap Byte) (n : Nat) :
    ∀ a, (∀ k, a ≤ k → k < a + n → sget d m' k = sget d m k) → sgetList d m' a n = sgetList d m a n := by
  induction n with
  | zero => intro a _; rfl
  | succ n ih =>
    intro a h
    rw [sgetList, sgetList, h a (by omega) (by omega), ih (a + 1) fun k h1 h2 => h k (by omega) (by omega)]

/-- Bytes that read alike one by one read alike together. -/
theorem State.readNat_congr (s t : State) (a n : Nat) (h : ∀ k, a ≤ k → k < a + n → t.readByte k = s.readByte k) :
    t.readNat a n = s.readNat a n := congrArg leNat (sgetList_congr 0 s.mem t.mem n a h)

/-! ## What a coherent write does to memory -/

theorem State.foldl_mem {α : Type} (f : State → α → State) (hf : ∀ s x, (f s x).mem = s.mem) (xs : List α) (s : State) :
    (xs.foldl f s).mem = s.mem := by
  induction xs generalizing s with
  | nil => rfl
  | cons x t ih => rw [List.foldl_cons, ih, hf]

@[simp] theorem State.performWrite_mem (s : State) (ps : List (Nat × Byte)) :
    (s.performWrite ps).mem = (s.writePairs ps).mem := rfl

/-- A revocation moves nothing but the owner, its L1 and what the slices know of the words. -/
theorem State.revoke_eq (s : State) (sector : Nat) : s.revoke sector = { s with
    owner := (s.revoke sector).owner, l1 := (s.revoke sector).l1, l2 := (s.revoke sector).l2
    misses := (s.revoke sector).misses, wfill := (s.revoke sector).wfill } := by
  unfold State.revoke
  dsimp only
  split
  · rw [State.giveBack_eq]
  · rfl

@[simp] theorem State.revoke_mem (s : State) (sector : Nat) : (s.revoke sector).mem = s.mem := by
  rw [State.revoke_eq]

@[simp] theorem State.homeWrite_mem (s : State) (core : Nat) (ps : List (Nat × Byte)) :
    (s.homeWrite core ps).mem = (s.writePairs ps).mem := by
  have h : ∀ (xs ys : List Nat), (ys.foldl (fun s l => s.dropMirrors l) (xs.foldl (fun s c => s.revoke c) s)).mem = s.mem := by
    intro xs ys
    rw [State.foldl_mem (fun s l => s.dropMirrors l) (fun _ _ => rfl), State.foldl_mem (fun s c => s.revoke c) (fun _ _ => State.revoke_mem _ _)]
  exact congrArg (fun m => ps.foldl (fun m p => sset 0 m p.1 p.2) m) (h _ _)

@[simp] theorem State.ownerWrite_mem (s : State) (core : Nat) (ps : List (Nat × Byte)) :
    (s.ownerWrite core ps).mem = (s.writePairs ps).mem := by
  exact State.foldl_mem (fun s w => s.l1Put
    { core := s.l1Core core (4 * w), addr := w, st := .ownedDirty, data := s.readBytes (4 * w) 4, bad := false })
    (fun s w => State.l1Put_mem s _) _ _

@[simp] theorem State.registerWrite_mem (s : State) (core line : Nat) (ps : List (Nat × Byte)) :
    (s.registerWrite core line ps).mem = (s.writePairs ps).mem := by
  have h : ∀ (me : Nat) (xs : List Nat), ((xs.foldl (fun (s : State) sec =>
      if s.ownerOf sec == me then s
      else { s.revoke sec with owner := sset noOwner (s.revoke sec).owner sec me }) (s.dropMirrors line))).mem = s.mem := by
    intro me xs
    rw [State.foldl_mem]
    · rfl
    · intro s x
      split
      · rfl
      · exact State.revoke_mem s x
  unfold State.registerWrite
  dsimp only
  split
  · rw [State.l1Drop_mem, State.bumpWseq_mem, State.homeWrite_mem]
  · rw [State.ownerWrite_mem]
    exact congrArg (fun m => ps.foldl (fun m p => sset 0 m p.1 p.2) m) (h _ _)

/-! ## The canonical form -/

theorem memWf_writeByte (s : State) (a : Nat) (b : Byte) (h : s.memWf = true) : (s.writeByte a b).memWf = true :=
  swf_sset 0 s.mem a b h

theorem memWf_writeBytes (s : State) (a : Nat) (bs : List Byte) (h : s.memWf = true) :
    (s.writeBytes a bs).memWf = true := swf_ssetList 0 bs s.mem a h

theorem memWf_writePairs (s : State) (ps : List (Nat × Byte)) (h : s.memWf = true) : (s.writePairs ps).memWf = true :=
  swf_foldl_sset 0 ps s.mem h

/-- A state with the memory of another has its canonical form. -/
theorem memWf_of_mem {s t : State} (e : t.mem = s.mem) (h : s.memWf = true) : t.memWf = true := by
  rw [State.memWf, e]; exact h

theorem memWf_performWrite (s : State) (ps : List (Nat × Byte)) (h : s.memWf = true) :
    (s.performWrite ps).memWf = true := memWf_of_mem (s.performWrite_mem ps) (memWf_writePairs s ps h)

theorem memWf_homeWrite (s : State) (core : Nat) (ps : List (Nat × Byte)) (h : s.memWf = true) :
    (s.homeWrite core ps).memWf = true :=
  memWf_of_mem (s.homeWrite_mem core ps) (memWf_writePairs s ps h)

theorem memWf_ownerWrite (s : State) (core : Nat) (ps : List (Nat × Byte)) (h : s.memWf = true) :
    (s.ownerWrite core ps).memWf = true := memWf_of_mem (s.ownerWrite_mem core ps) (memWf_writePairs s ps h)

theorem memWf_registerWrite (s : State) (core line : Nat) (ps : List (Nat × Byte)) (h : s.memWf = true) :
    (s.registerWrite core line ps).memWf = true :=
  memWf_of_mem (s.registerWrite_mem core line ps) (memWf_writePairs s ps h)

/-- Writes that are dropped leave memory as it is (R320). -/
theorem State.dropWrites_mem (s : State) (ps : List (Nat × Byte)) : (s.dropWrites ps).mem = s.mem := by
  unfold State.dropWrites State.countErrors
  exact State.foldl_mem (fun (s : State) w => s.poison (4 * w) 4) (fun _ _ => rfl) _ _

theorem memWf_deviceWrite (s : State) (asid : Nat) (va : DWord) (bs : List Byte) (h : s.memWf = true) :
    (s.deviceWrite asid va bs).memWf = true := by
  unfold State.deviceWrite
  dsimp only
  split
  · exact memWf_homeWrite s _ _ h
  · exact memWf_of_mem (State.dropWrites_mem _ _) (memWf_homeWrite s _ _ h)

/-- A bay whose generation advances reads as zero in canonical form (R305). -/
theorem memWf_drop (s : State) (p : Nat → Bool) (h : s.memWf = true) : ({ s with mem := sdrop p s.mem } : State).memWf = true :=
  swf_sdrop 0 p s.mem h

theorem memWf_withFetchWord (s : State) (n w : Nat) (h : s.memWf = true) : (s.withFetchWord n w).memWf = true :=
  swf_ssetList 0 _ s.mem _ h

theorem memWf_reset : State.reset.memWf = true := rfl

/-- Two memories in canonical form that read alike at every byte are the same list. -/
theorem mem_ext {s t : State} (hs : s.memWf = true) (ht : t.memWf = true) (h : ∀ k, s.readByte k = t.readByte k) :
    s.mem = t.mem := swf_ext 0 hs ht h

end Sys2Proof.Machine
end

