-- ==== Sys2Proof/Laws/PerInstr.lean ====
section
/-! SUPPORT. A family of facts with one lemma per instruction: where the words of the instructions stand (R36, R37). -/

set_option Elab.async false
set_option linter.unusedSimpArgs false

namespace Sys2Proof.Laws.WordForm

/-- The opcode byte of an instruction's word is not 0: the lane opcode 0x00 is no instruction (R37, R54). -/
def Statement (i : Instr) : Prop := i.isWord = true → fld (encode i).toNat 24 8 ≠ 0#8

theorem addLr (d a b) : Statement (.addLr d a b) := by
  intro _; simp only [encode, fld_word, fld_cat_hi, fld_cat_lo, Nat.reduceLeDiff, Nat.reduceAdd, Nat.reduceSub]; decide
theorem addLi (d a i) : Statement (.addLi d a i) := by
  intro _; simp only [encode, fld_word, fld_cat_hi, fld_cat_lo, Nat.reduceLeDiff, Nat.reduceAdd, Nat.reduceSub]; decide
theorem subLr (d a b) : Statement (.subLr d a b) := by
  intro _; simp only [encode, fld_word, fld_cat_hi, fld_cat_lo, Nat.reduceLeDiff, Nat.reduceAdd, Nat.reduceSub]; decide
theorem addSatS (d a b) : Statement (.addSatS d a b) := by
  intro _; simp only [encode, fld_word, fld_cat_hi, fld_cat_lo, Nat.reduceLeDiff, Nat.reduceAdd, Nat.reduceSub]; decide
theorem addSatU (d a b) : Statement (.addSatU d a b) := by
  intro _; simp only [encode, fld_word, fld_cat_hi, fld_cat_lo, Nat.reduceLeDiff, Nat.reduceAdd, Nat.reduceSub]; decide
theorem subSatS (d a b) : Statement (.subSatS d a b) := by
  intro _; simp only [encode, fld_word, fld_cat_hi, fld_cat_lo, Nat.reduceLeDiff, Nat.reduceAdd, Nat.reduceSub]; decide
theorem subSatU (d a b) : Statement (.subSatU d a b) := by
  intro _; simp only [encode, fld_word, fld_cat_hi, fld_cat_lo, Nat.reduceLeDiff, Nat.reduceAdd, Nat.reduceSub]; decide
theorem mulLr (d a b) : Statement (.mulLr d a b) := by
  intro _; simp only [encode, fld_word, fld_cat_hi, fld_cat_lo, Nat.reduceLeDiff, Nat.reduceAdd, Nat.reduceSub]; decide
theorem mulhiULr (d a b) : Statement (.mulhiULr d a b) := by
  intro _; simp only [encode, fld_word, fld_cat_hi, fld_cat_lo, Nat.reduceLeDiff, Nat.reduceAdd, Nat.reduceSub]; decide
theorem minSLr (d a b) : Statement (.minSLr d a b) := by
  intro _; simp only [encode, fld_word, fld_cat_hi, fld_cat_lo, Nat.reduceLeDiff, Nat.reduceAdd, Nat.reduceSub]; decide
theorem minULr (d a b) : Statement (.minULr d a b) := by
  intro _; simp only [encode, fld_word, fld_cat_hi, fld_cat_lo, Nat.reduceLeDiff, Nat.reduceAdd, Nat.reduceSub]; decide
theorem maxSLr (d a b) : Statement (.maxSLr d a b) := by
  intro _; simp only [encode, fld_word, fld_cat_hi, fld_cat_lo, Nat.reduceLeDiff, Nat.reduceAdd, Nat.reduceSub]; decide
theorem maxULr (d a b) : Statement (.maxULr d a b) := by
  intro _; simp only [encode, fld_word, fld_cat_hi, fld_cat_lo, Nat.reduceLeDiff, Nat.reduceAdd, Nat.reduceSub]; decide
theorem andLr (d a b) : Statement (.andLr d a b) := by
  intro _; simp only [encode, fld_word, fld_cat_hi, fld_cat_lo, Nat.reduceLeDiff, Nat.reduceAdd, Nat.reduceSub]; decide
theorem andLi (d a i) : Statement (.andLi d a i) := by
  intro _; simp only [encode, fld_word, fld_cat_hi, fld_cat_lo, Nat.reduceLeDiff, Nat.reduceAdd, Nat.reduceSub]; decide
theorem orLr (d a b) : Statement (.orLr d a b) := by
  intro _; simp only [encode, fld_word, fld_cat_hi, fld_cat_lo, Nat.reduceLeDiff, Nat.reduceAdd, Nat.reduceSub]; decide
theorem orLi (d a i) : Statement (.orLi d a i) := by
  intro _; simp only [encode, fld_word, fld_cat_hi, fld_cat_lo, Nat.reduceLeDiff, Nat.reduceAdd, Nat.reduceSub]; decide
theorem xorLr (d a b) : Statement (.xorLr d a b) := by
  intro _; simp only [encode, fld_word, fld_cat_hi, fld_cat_lo, Nat.reduceLeDiff, Nat.reduceAdd, Nat.reduceSub]; decide
theorem xorLi (d a i) : Statement (.xorLi d a i) := by
  intro _; simp only [encode, fld_word, fld_cat_hi, fld_cat_lo, Nat.reduceLeDiff, Nat.reduceAdd, Nat.reduceSub]; decide
theorem shlLr (d a b) : Statement (.shlLr d a b) := by
  intro _; simp only [encode, fld_word, fld_cat_hi, fld_cat_lo, Nat.reduceLeDiff, Nat.reduceAdd, Nat.reduceSub]; decide
theorem shlLi (d a i) : Statement (.shlLi d a i) := by
  intro _; simp only [encode, fld_word, fld_cat_hi, fld_cat_lo, Nat.reduceLeDiff, Nat.reduceAdd, Nat.reduceSub]; decide
theorem shrULr (d a b) : Statement (.shrULr d a b) := by
  intro _; simp only [encode, fld_word, fld_cat_hi, fld_cat_lo, Nat.reduceLeDiff, Nat.reduceAdd, Nat.reduceSub]; decide
theorem shrULi (d a i) : Statement (.shrULi d a i) := by
  intro _; simp only [encode, fld_word, fld_cat_hi, fld_cat_lo, Nat.reduceLeDiff, Nat.reduceAdd, Nat.reduceSub]; decide
theorem shrSLr (d a b) : Statement (.shrSLr d a b) := by
  intro _; simp only [encode, fld_word, fld_cat_hi, fld_cat_lo, Nat.reduceLeDiff, Nat.reduceAdd, Nat.reduceSub]; decide
theorem shrSLi (d a i) : Statement (.shrSLi d a i) := by
  intro _; simp only [encode, fld_word, fld_cat_hi, fld_cat_lo, Nat.reduceLeDiff, Nat.reduceAdd, Nat.reduceSub]; decide
theorem notL (d a) : Statement (.notL d a) := by
  intro _; simp only [encode, fld_word, fld_cat_hi, fld_cat_lo, Nat.reduceLeDiff, Nat.reduceAdd, Nat.reduceSub]; decide
theorem negL (d a) : Statement (.negL d a) := by
  intro _; simp only [encode, fld_word, fld_cat_hi, fld_cat_lo, Nat.reduceLeDiff, Nat.reduceAdd, Nat.reduceSub]; decide
theorem absL (d a) : Statement (.absL d a) := by
  intro _; simp only [encode, fld_word, fld_cat_hi, fld_cat_lo, Nat.reduceLeDiff, Nat.reduceAdd, Nat.reduceSub]; decide
theorem popcL (d a) : Statement (.popcL d a) := by
  intro _; simp only [encode, fld_word, fld_cat_hi, fld_cat_lo, Nat.reduceLeDiff, Nat.reduceAdd, Nat.reduceSub]; decide
theorem clzL (d a) : Statement (.clzL d a) := by
  intro _; simp only [encode, fld_word, fld_cat_hi, fld_cat_lo, Nat.reduceLeDiff, Nat.reduceAdd, Nat.reduceSub]; decide
theorem brevL (d a) : Statement (.brevL d a) := by
  intro _; simp only [encode, fld_word, fld_cat_hi, fld_cat_lo, Nat.reduceLeDiff, Nat.reduceAdd, Nat.reduceSub]; decide
theorem sextBL (d a) : Statement (.sextBL d a) := by
  intro _; simp only [encode, fld_word, fld_cat_hi, fld_cat_lo, Nat.reduceLeDiff, Nat.reduceAdd, Nat.reduceSub]; decide
theorem sextHL (d a) : Statement (.sextHL d a) := by
  intro _; simp only [encode, fld_word, fld_cat_hi, fld_cat_lo, Nat.reduceLeDiff, Nat.reduceAdd, Nat.reduceSub]; decide
theorem cmpeqLr (d a b) : Statement (.cmpeqLr d a b) := by
  intro _; simp only [encode, fld_word, fld_cat_hi, fld_cat_lo, Nat.reduceLeDiff, Nat.reduceAdd, Nat.reduceSub]; decide
theorem cmpltSLr (d a b) : Statement (.cmpltSLr d a b) := by
  intro _; simp only [encode, fld_word, fld_cat_hi, fld_cat_lo, Nat.reduceLeDiff, Nat.reduceAdd, Nat.reduceSub]; decide
theorem cmpltULr (d a b) : Statement (.cmpltULr d a b) := by
  intro _; simp only [encode, fld_word, fld_cat_hi, fld_cat_lo, Nat.reduceLeDiff, Nat.reduceAdd, Nat.reduceSub]; decide
theorem cmpleSLr (d a b) : Statement (.cmpleSLr d a b) := by
  intro _; simp only [encode, fld_word, fld_cat_hi, fld_cat_lo, Nat.reduceLeDiff, Nat.reduceAdd, Nat.reduceSub]; decide
theorem cmpleULr (d a b) : Statement (.cmpleULr d a b) := by
  intro _; simp only [encode, fld_word, fld_cat_hi, fld_cat_lo, Nat.reduceLeDiff, Nat.reduceAdd, Nat.reduceSub]; decide
theorem fadd (d a b) : Statement (.fadd d a b) := by
  intro _; simp only [encode, fld_word, fld_cat_hi, fld_cat_lo, Nat.reduceLeDiff, Nat.reduceAdd, Nat.reduceSub]; decide
theorem fsub (d a b) : Statement (.fsub d a b) := by
  intro _; simp only [encode, fld_word, fld_cat_hi, fld_cat_lo, Nat.reduceLeDiff, Nat.reduceAdd, Nat.reduceSub]; decide
theorem fmul (d a b) : Statement (.fmul d a b) := by
  intro _; simp only [encode, fld_word, fld_cat_hi, fld_cat_lo, Nat.reduceLeDiff, Nat.reduceAdd, Nat.reduceSub]; decide
theorem ffma (d a b) : Statement (.ffma d a b) := by
  intro _; simp only [encode, fld_word, fld_cat_hi, fld_cat_lo, Nat.reduceLeDiff, Nat.reduceAdd, Nat.reduceSub]; decide
theorem ffnma (d a b) : Statement (.ffnma d a b) := by
  intro _; simp only [encode, fld_word, fld_cat_hi, fld_cat_lo, Nat.reduceLeDiff, Nat.reduceAdd, Nat.reduceSub]; decide
theorem fmin (d a b) : Statement (.fmin d a b) := by
  intro _; simp only [encode, fld_word, fld_cat_hi, fld_cat_lo, Nat.reduceLeDiff, Nat.reduceAdd, Nat.reduceSub]; decide
theorem fmax (d a b) : Statement (.fmax d a b) := by
  intro _; simp only [encode, fld_word, fld_cat_hi, fld_cat_lo, Nat.reduceLeDiff, Nat.reduceAdd, Nat.reduceSub]; decide
theorem frcp (d a) : Statement (.frcp d a) := by
  intro _; simp only [encode, fld_word, fld_cat_hi, fld_cat_lo, Nat.reduceLeDiff, Nat.reduceAdd, Nat.reduceSub]; decide
theorem fsqrt (d a) : Statement (.fsqrt d a) := by
  intro _; simp only [encode, fld_word, fld_cat_hi, fld_cat_lo, Nat.reduceLeDiff, Nat.reduceAdd, Nat.reduceSub]; decide
theorem frsq (d a) : Statement (.frsq d a) := by
  intro _; simp only [encode, fld_word, fld_cat_hi, fld_cat_lo, Nat.reduceLeDiff, Nat.reduceAdd, Nat.reduceSub]; decide
theorem fexp2 (d a) : Statement (.fexp2 d a) := by
  intro _; simp only [encode, fld_word, fld_cat_hi, fld_cat_lo, Nat.reduceLeDiff, Nat.reduceAdd, Nat.reduceSub]; decide
theorem flog2 (d a) : Statement (.flog2 d a) := by
  intro _; simp only [encode, fld_word, fld_cat_hi, fld_cat_lo, Nat.reduceLeDiff, Nat.reduceAdd, Nat.reduceSub]; decide
theorem fcmpeq (d a b) : Statement (.fcmpeq d a b) := by
  intro _; simp only [encode, fld_word, fld_cat_hi, fld_cat_lo, Nat.reduceLeDiff, Nat.reduceAdd, Nat.reduceSub]; decide
theorem fcmplt (d a b) : Statement (.fcmplt d a b) := by
  intro _; simp only [encode, fld_word, fld_cat_hi, fld_cat_lo, Nat.reduceLeDiff, Nat.reduceAdd, Nat.reduceSub]; decide
theorem fcmple (d a b) : Statement (.fcmple d a b) := by
  intro _; simp only [encode, fld_word, fld_cat_hi, fld_cat_lo, Nat.reduceLeDiff, Nat.reduceAdd, Nat.reduceSub]; decide
theorem fcmpun (d a b) : Statement (.fcmpun d a b) := by
  intro _; simp only [encode, fld_word, fld_cat_hi, fld_cat_lo, Nat.reduceLeDiff, Nat.reduceAdd, Nat.reduceSub]; decide
theorem hadd2F16 (d a b) : Statement (.hadd2F16 d a b) := by
  intro _; simp only [encode, fld_word, fld_cat_hi, fld_cat_lo, Nat.reduceLeDiff, Nat.reduceAdd, Nat.reduceSub]; decide
theorem hadd2Bf16 (d a b) : Statement (.hadd2Bf16 d a b) := by
  intro _; simp only [encode, fld_word, fld_cat_hi, fld_cat_lo, Nat.reduceLeDiff, Nat.reduceAdd, Nat.reduceSub]; decide
theorem hsub2F16 (d a b) : Statement (.hsub2F16 d a b) := by
  intro _; simp only [encode, fld_word, fld_cat_hi, fld_cat_lo, Nat.reduceLeDiff, Nat.reduceAdd, Nat.reduceSub]; decide
theorem hsub2Bf16 (d a b) : Statement (.hsub2Bf16 d a b) := by
  intro _; simp only [encode, fld_word, fld_cat_hi, fld_cat_lo, Nat.reduceLeDiff, Nat.reduceAdd, Nat.reduceSub]; decide
theorem hmul2F16 (d a b) : Statement (.hmul2F16 d a b) := by
  intro _; simp only [encode, fld_word, fld_cat_hi, fld_cat_lo, Nat.reduceLeDiff, Nat.reduceAdd, Nat.reduceSub]; decide
theorem hmul2Bf16 (d a b) : Statement (.hmul2Bf16 d a b) := by
  intro _; simp only [encode, fld_word, fld_cat_hi, fld_cat_lo, Nat.reduceLeDiff, Nat.reduceAdd, Nat.reduceSub]; decide
theorem hfma2F16 (d a b) : Statement (.hfma2F16 d a b) := by
  intro _; simp only [encode, fld_word, fld_cat_hi, fld_cat_lo, Nat.reduceLeDiff, Nat.reduceAdd, Nat.reduceSub]; decide
theorem hfma2Bf16 (d a b) : Statement (.hfma2Bf16 d a b) := by
  intro _; simp only [encode, fld_word, fld_cat_hi, fld_cat_lo, Nat.reduceLeDiff, Nat.reduceAdd, Nat.reduceSub]; decide
theorem hmin2F16 (d a b) : Statement (.hmin2F16 d a b) := by
  intro _; simp only [encode, fld_word, fld_cat_hi, fld_cat_lo, Nat.reduceLeDiff, Nat.reduceAdd, Nat.reduceSub]; decide
theorem hmin2Bf16 (d a b) : Statement (.hmin2Bf16 d a b) := by
  intro _; simp only [encode, fld_word, fld_cat_hi, fld_cat_lo, Nat.reduceLeDiff, Nat.reduceAdd, Nat.reduceSub]; decide
theorem hmax2F16 (d a b) : Statement (.hmax2F16 d a b) := by
  intro _; simp only [encode, fld_word, fld_cat_hi, fld_cat_lo, Nat.reduceLeDiff, Nat.reduceAdd, Nat.reduceSub]; decide
theorem hmax2Bf16 (d a b) : Statement (.hmax2Bf16 d a b) := by
  intro _; simp only [encode, fld_word, fld_cat_hi, fld_cat_lo, Nat.reduceLeDiff, Nat.reduceAdd, Nat.reduceSub]; decide
theorem hdot2F16 (d a b) : Statement (.hdot2F16 d a b) := by
  intro _; simp only [encode, fld_word, fld_cat_hi, fld_cat_lo, Nat.reduceLeDiff, Nat.reduceAdd, Nat.reduceSub]; decide
theorem hdot2Bf16 (d a b) : Statement (.hdot2Bf16 d a b) := by
  intro _; simp only [encode, fld_word, fld_cat_hi, fld_cat_lo, Nat.reduceLeDiff, Nat.reduceAdd, Nat.reduceSub]; decide
theorem cvt (d a m t s) : Statement (.cvt d a m t s) := by
  intro _; simp only [encode, fld_word, fld_cat_hi, fld_cat_lo, Nat.reduceLeDiff, Nat.reduceAdd, Nat.reduceSub]; decide
theorem cvt2F16 (d a b) : Statement (.cvt2F16 d a b) := by
  intro _; simp only [encode, fld_word, fld_cat_hi, fld_cat_lo, Nat.reduceLeDiff, Nat.reduceAdd, Nat.reduceSub]; decide
theorem cvt2Bf16 (d a b) : Statement (.cvt2Bf16 d a b) := by
  intro _; simp only [encode, fld_word, fld_cat_hi, fld_cat_lo, Nat.reduceLeDiff, Nat.reduceAdd, Nat.reduceSub]; decide
theorem qscale (d a f l) : Statement (.qscale d a f l) := by
  intro _; simp only [encode, fld_word, fld_cat_hi, fld_cat_lo, Nat.reduceLeDiff, Nat.reduceAdd, Nat.reduceSub]; decide
theorem qpack (d a b) : Statement (.qpack d a b) := by
  intro _; simp only [encode, fld_word, fld_cat_hi, fld_cat_lo, Nat.reduceLeDiff, Nat.reduceAdd, Nat.reduceSub]; decide
theorem qunpk (d a b) : Statement (.qunpk d a b) := by
  intro _; simp only [encode, fld_word, fld_cat_hi, fld_cat_lo, Nat.reduceLeDiff, Nat.reduceAdd, Nat.reduceSub]; decide
theorem movL (d a) : Statement (.movL d a) := by
  intro _; simp only [encode, fld_word, fld_cat_hi, fld_cat_lo, Nat.reduceLeDiff, Nat.reduceAdd, Nat.reduceSub]; decide
theorem moviL (d i) : Statement (.moviL d i) := by
  intro _; simp only [encode, fld_word, fld_cat_hi, fld_cat_lo, Nat.reduceLeDiff, Nat.reduceAdd, Nat.reduceSub]; decide
theorem movh (d i) : Statement (.movh d i) := by
  intro _; simp only [encode, fld_word, fld_cat_hi, fld_cat_lo, Nat.reduceLeDiff, Nat.reduceAdd, Nat.reduceSub]; decide
theorem sel (d a b) : Statement (.sel d a b) := by
  intro _; simp only [encode, fld_word, fld_cat_hi, fld_cat_lo, Nat.reduceLeDiff, Nat.reduceAdd, Nat.reduceSub]; decide
theorem shfl (d a b) : Statement (.shfl d a b) := by
  intro _; simp only [encode, fld_word, fld_cat_hi, fld_cat_lo, Nat.reduceLeDiff, Nat.reduceAdd, Nat.reduceSub]; decide
theorem perm (d a b) : Statement (.perm d a b) := by
  intro _; simp only [encode, fld_word, fld_cat_hi, fld_cat_lo, Nat.reduceLeDiff, Nat.reduceAdd, Nat.reduceSub]; decide
theorem ifLc (a r) : Statement (.ifLc a r) := by
  intro _; simp only [encode, fld_word, fld_cat_hi, fld_cat_lo, Nat.reduceLeDiff, Nat.reduceAdd, Nat.reduceSub]; decide
theorem elseLc (r) : Statement (.elseLc r) := by
  intro _; simp only [encode, fld_word, fld_cat_hi, fld_cat_lo, Nat.reduceLeDiff, Nat.reduceAdd, Nat.reduceSub]; decide
theorem endif (r) : Statement (.endif r) := by
  intro _; simp only [encode, fld_word, fld_cat_hi, fld_cat_lo, Nat.reduceLeDiff, Nat.reduceAdd, Nat.reduceSub]; decide
theorem loop (r) : Statement (.loop r) := by
  intro _; simp only [encode, fld_word, fld_cat_hi, fld_cat_lo, Nat.reduceLeDiff, Nat.reduceAdd, Nat.reduceSub]; decide
theorem brk (d r) : Statement (.brk d r) := by
  intro _; simp only [encode, fld_word, fld_cat_hi, fld_cat_lo, Nat.reduceLeDiff, Nat.reduceAdd, Nat.reduceSub]; decide
theorem cont (d r) : Statement (.cont d r) := by
  intro _; simp only [encode, fld_word, fld_cat_hi, fld_cat_lo, Nat.reduceLeDiff, Nat.reduceAdd, Nat.reduceSub]; decide
theorem lend (r) : Statement (.lend r) := by
  intro _; simp only [encode, fld_word, fld_cat_hi, fld_cat_lo, Nat.reduceLeDiff, Nat.reduceAdd, Nat.reduceSub]; decide
theorem split (a r) : Statement (.split a r) := by
  intro _; simp only [encode, fld_word, fld_cat_hi, fld_cat_lo, Nat.reduceLeDiff, Nat.reduceAdd, Nat.reduceSub]; decide
theorem meet (r) : Statement (.meet r) := by
  intro _; simp only [encode, fld_word, fld_cat_hi, fld_cat_lo, Nat.reduceLeDiff, Nat.reduceAdd, Nat.reduceSub]; decide
theorem join (r) : Statement (.join r) := by
  intro _; simp only [encode, fld_word, fld_cat_hi, fld_cat_lo, Nat.reduceLeDiff, Nat.reduceAdd, Nat.reduceSub]; decide
theorem ldgB (t x b s) : Statement (.ldgB t x b s) := by
  intro _; simp only [encode, fld_word, fld_cat_hi, fld_cat_lo, Nat.reduceLeDiff, Nat.reduceAdd, Nat.reduceSub]; decide
theorem ldgH (t x b s) : Statement (.ldgH t x b s) := by
  intro _; simp only [encode, fld_word, fld_cat_hi, fld_cat_lo, Nat.reduceLeDiff, Nat.reduceAdd, Nat.reduceSub]; decide
theorem ldgW (t x b s) : Statement (.ldgW t x b s) := by
  intro _; simp only [encode, fld_word, fld_cat_hi, fld_cat_lo, Nat.reduceLeDiff, Nat.reduceAdd, Nat.reduceSub]; decide
theorem ldgD (t x b s) : Statement (.ldgD t x b s) := by
  intro _; simp only [encode, fld_word, fld_cat_hi, fld_cat_lo, Nat.reduceLeDiff, Nat.reduceAdd, Nat.reduceSub]; decide
theorem ldgQ (t x b s) : Statement (.ldgQ t x b s) := by
  intro _; simp only [encode, fld_word, fld_cat_hi, fld_cat_lo, Nat.reduceLeDiff, Nat.reduceAdd, Nat.reduceSub]; decide
theorem stgB (t x b s) : Statement (.stgB t x b s) := by
  intro _; simp only [encode, fld_word, fld_cat_hi, fld_cat_lo, Nat.reduceLeDiff, Nat.reduceAdd, Nat.reduceSub]; decide
theorem stgH (t x b s) : Statement (.stgH t x b s) := by
  intro _; simp only [encode, fld_word, fld_cat_hi, fld_cat_lo, Nat.reduceLeDiff, Nat.reduceAdd, Nat.reduceSub]; decide
theorem stgW (t x b s) : Statement (.stgW t x b s) := by
  intro _; simp only [encode, fld_word, fld_cat_hi, fld_cat_lo, Nat.reduceLeDiff, Nat.reduceAdd, Nat.reduceSub]; decide
theorem stgD (t x b s) : Statement (.stgD t x b s) := by
  intro _; simp only [encode, fld_word, fld_cat_hi, fld_cat_lo, Nat.reduceLeDiff, Nat.reduceAdd, Nat.reduceSub]; decide
theorem stgQ (t x b s) : Statement (.stgQ t x b s) := by
  intro _; simp only [encode, fld_word, fld_cat_hi, fld_cat_lo, Nat.reduceLeDiff, Nat.reduceAdd, Nat.reduceSub]; decide
theorem ldsB (t x b s) : Statement (.ldsB t x b s) := by
  intro _; simp only [encode, fld_word, fld_cat_hi, fld_cat_lo, Nat.reduceLeDiff, Nat.reduceAdd, Nat.reduceSub]; decide
theorem ldsH (t x b s) : Statement (.ldsH t x b s) := by
  intro _; simp only [encode, fld_word, fld_cat_hi, fld_cat_lo, Nat.reduceLeDiff, Nat.reduceAdd, Nat.reduceSub]; decide
theorem ldsW (t x b s) : Statement (.ldsW t x b s) := by
  intro _; simp only [encode, fld_word, fld_cat_hi, fld_cat_lo, Nat.reduceLeDiff, Nat.reduceAdd, Nat.reduceSub]; decide
theorem ldsD (t x b s) : Statement (.ldsD t x b s) := by
  intro _; simp only [encode, fld_word, fld_cat_hi, fld_cat_lo, Nat.reduceLeDiff, Nat.reduceAdd, Nat.reduceSub]; decide
theorem ldsQ (t x b s) : Statement (.ldsQ t x b s) := by
  intro _; simp only [encode, fld_word, fld_cat_hi, fld_cat_lo, Nat.reduceLeDiff, Nat.reduceAdd, Nat.reduceSub]; decide
theorem stsB (t x b s) : Statement (.stsB t x b s) := by
  intro _; simp only [encode, fld_word, fld_cat_hi, fld_cat_lo, Nat.reduceLeDiff, Nat.reduceAdd, Nat.reduceSub]; decide
theorem stsH (t x b s) : Statement (.stsH t x b s) := by
  intro _; simp only [encode, fld_word, fld_cat_hi, fld_cat_lo, Nat.reduceLeDiff, Nat.reduceAdd, Nat.reduceSub]; decide
theorem stsW (t x b s) : Statement (.stsW t x b s) := by
  intro _; simp only [encode, fld_word, fld_cat_hi, fld_cat_lo, Nat.reduceLeDiff, Nat.reduceAdd, Nat.reduceSub]; decide
theorem stsD (t x b s) : Statement (.stsD t x b s) := by
  intro _; simp only [encode, fld_word, fld_cat_hi, fld_cat_lo, Nat.reduceLeDiff, Nat.reduceAdd, Nat.reduceSub]; decide
theorem stsQ (t x b s) : Statement (.stsQ t x b s) := by
  intro _; simp only [encode, fld_word, fld_cat_hi, fld_cat_lo, Nat.reduceLeDiff, Nat.reduceAdd, Nat.reduceSub]; decide
theorem ldqW (t x b s) : Statement (.ldqW t x b s) := by
  intro _; simp only [encode, fld_word, fld_cat_hi, fld_cat_lo, Nat.reduceLeDiff, Nat.reduceAdd, Nat.reduceSub]; decide
theorem stqW (t x b s) : Statement (.stqW t x b s) := by
  intro _; simp only [encode, fld_word, fld_cat_hi, fld_cat_lo, Nat.reduceLeDiff, Nat.reduceAdd, Nat.reduceSub]; decide
theorem ldaW (t a s) : Statement (.ldaW t a s) := by
  intro _; simp only [encode, fld_word, fld_cat_hi, fld_cat_lo, Nat.reduceLeDiff, Nat.reduceAdd, Nat.reduceSub]; decide
theorem stlW (t a s) : Statement (.stlW t a s) := by
  intro _; simp only [encode, fld_word, fld_cat_hi, fld_cat_lo, Nat.reduceLeDiff, Nat.reduceAdd, Nat.reduceSub]; decide
theorem ldrW (t a) : Statement (.ldrW t a) := by
  intro _; simp only [encode, fld_word, fld_cat_hi, fld_cat_lo, Nat.reduceLeDiff, Nat.reduceAdd, Nat.reduceSub]; decide
theorem stcW (t a) : Statement (.stcW t a) := by
  intro _; simp only [encode, fld_word, fld_cat_hi, fld_cat_lo, Nat.reduceLeDiff, Nat.reduceAdd, Nat.reduceSub]; decide
theorem atomAdd (t a c e) : Statement (.atomAdd t a c e) := by
  intro _; simp only [encode, fld_word, fld_cat_hi, fld_cat_lo, Nat.reduceLeDiff, Nat.reduceAdd, Nat.reduceSub]; decide
theorem atomAnd (t a c e) : Statement (.atomAnd t a c e) := by
  intro _; simp only [encode, fld_word, fld_cat_hi, fld_cat_lo, Nat.reduceLeDiff, Nat.reduceAdd, Nat.reduceSub]; decide
theorem atomOr (t a c e) : Statement (.atomOr t a c e) := by
  intro _; simp only [encode, fld_word, fld_cat_hi, fld_cat_lo, Nat.reduceLeDiff, Nat.reduceAdd, Nat.reduceSub]; decide
theorem atomXor (t a c e) : Statement (.atomXor t a c e) := by
  intro _; simp only [encode, fld_word, fld_cat_hi, fld_cat_lo, Nat.reduceLeDiff, Nat.reduceAdd, Nat.reduceSub]; decide
theorem atomMinS (t a c e) : Statement (.atomMinS t a c e) := by
  intro _; simp only [encode, fld_word, fld_cat_hi, fld_cat_lo, Nat.reduceLeDiff, Nat.reduceAdd, Nat.reduceSub]; decide
theorem atomMinU (t a c e) : Statement (.atomMinU t a c e) := by
  intro _; simp only [encode, fld_word, fld_cat_hi, fld_cat_lo, Nat.reduceLeDiff, Nat.reduceAdd, Nat.reduceSub]; decide
theorem atomMaxS (t a c e) : Statement (.atomMaxS t a c e) := by
  intro _; simp only [encode, fld_word, fld_cat_hi, fld_cat_lo, Nat.reduceLeDiff, Nat.reduceAdd, Nat.reduceSub]; decide
theorem atomMaxU (t a c e) : Statement (.atomMaxU t a c e) := by
  intro _; simp only [encode, fld_word, fld_cat_hi, fld_cat_lo, Nat.reduceLeDiff, Nat.reduceAdd, Nat.reduceSub]; decide
theorem atomXchg (t a c e) : Statement (.atomXchg t a c e) := by
  intro _; simp only [encode, fld_word, fld_cat_hi, fld_cat_lo, Nat.reduceLeDiff, Nat.reduceAdd, Nat.reduceSub]; decide
theorem atomCas (t a c e) : Statement (.atomCas t a c e) := by
  intro _; simp only [encode, fld_word, fld_cat_hi, fld_cat_lo, Nat.reduceLeDiff, Nat.reduceAdd, Nat.reduceSub]; decide
theorem atomAddF (t a c e) : Statement (.atomAddF t a c e) := by
  intro _; simp only [encode, fld_word, fld_cat_hi, fld_cat_lo, Nat.reduceLeDiff, Nat.reduceAdd, Nat.reduceSub]; decide
theorem atomAddD (t a c e) : Statement (.atomAddD t a c e) := by
  intro _; simp only [encode, fld_word, fld_cat_hi, fld_cat_lo, Nat.reduceLeDiff, Nat.reduceAdd, Nat.reduceSub]; decide
theorem atomXchgD (t a c e) : Statement (.atomXchgD t a c e) := by
  intro _; simp only [encode, fld_word, fld_cat_hi, fld_cat_lo, Nat.reduceLeDiff, Nat.reduceAdd, Nat.reduceSub]; decide
theorem atomCasD (t a c e) : Statement (.atomCasD t a c e) := by
  intro _; simp only [encode, fld_word, fld_cat_hi, fld_cat_lo, Nat.reduceLeDiff, Nat.reduceAdd, Nat.reduceSub]; decide
theorem atomSeqAdd (t a c e) : Statement (.atomSeqAdd t a c e) := by
  intro _; simp only [encode, fld_word, fld_cat_hi, fld_cat_lo, Nat.reduceLeDiff, Nat.reduceAdd, Nat.reduceSub]; decide
theorem atomSeqAnd (t a c e) : Statement (.atomSeqAnd t a c e) := by
  intro _; simp only [encode, fld_word, fld_cat_hi, fld_cat_lo, Nat.reduceLeDiff, Nat.reduceAdd, Nat.reduceSub]; decide
theorem atomSeqOr (t a c e) : Statement (.atomSeqOr t a c e) := by
  intro _; simp only [encode, fld_word, fld_cat_hi, fld_cat_lo, Nat.reduceLeDiff, Nat.reduceAdd, Nat.reduceSub]; decide
theorem atomSeqXor (t a c e) : Statement (.atomSeqXor t a c e) := by
  intro _; simp only [encode, fld_word, fld_cat_hi, fld_cat_lo, Nat.reduceLeDiff, Nat.reduceAdd, Nat.reduceSub]; decide
theorem atomSeqMinS (t a c e) : Statement (.atomSeqMinS t a c e) := by
  intro _; simp only [encode, fld_word, fld_cat_hi, fld_cat_lo, Nat.reduceLeDiff, Nat.reduceAdd, Nat.reduceSub]; decide
theorem atomSeqMinU (t a c e) : Statement (.atomSeqMinU t a c e) := by
  intro _; simp only [encode, fld_word, fld_cat_hi, fld_cat_lo, Nat.reduceLeDiff, Nat.reduceAdd, Nat.reduceSub]; decide
theorem atomSeqMaxS (t a c e) : Statement (.atomSeqMaxS t a c e) := by
  intro _; simp only [encode, fld_word, fld_cat_hi, fld_cat_lo, Nat.reduceLeDiff, Nat.reduceAdd, Nat.reduceSub]; decide
theorem atomSeqMaxU (t a c e) : Statement (.atomSeqMaxU t a c e) := by
  intro _; simp only [encode, fld_word, fld_cat_hi, fld_cat_lo, Nat.reduceLeDiff, Nat.reduceAdd, Nat.reduceSub]; decide
theorem atomSeqXchg (t a c e) : Statement (.atomSeqXchg t a c e) := by
  intro _; simp only [encode, fld_word, fld_cat_hi, fld_cat_lo, Nat.reduceLeDiff, Nat.reduceAdd, Nat.reduceSub]; decide
theorem atomSeqCas (t a c e) : Statement (.atomSeqCas t a c e) := by
  intro _; simp only [encode, fld_word, fld_cat_hi, fld_cat_lo, Nat.reduceLeDiff, Nat.reduceAdd, Nat.reduceSub]; decide
theorem atomSeqAddF (t a c e) : Statement (.atomSeqAddF t a c e) := by
  intro _; simp only [encode, fld_word, fld_cat_hi, fld_cat_lo, Nat.reduceLeDiff, Nat.reduceAdd, Nat.reduceSub]; decide
theorem atomSeqAddD (t a c e) : Statement (.atomSeqAddD t a c e) := by
  intro _; simp only [encode, fld_word, fld_cat_hi, fld_cat_lo, Nat.reduceLeDiff, Nat.reduceAdd, Nat.reduceSub]; decide
theorem atomSeqXchgD (t a c e) : Statement (.atomSeqXchgD t a c e) := by
  intro _; simp only [encode, fld_word, fld_cat_hi, fld_cat_lo, Nat.reduceLeDiff, Nat.reduceAdd, Nat.reduceSub]; decide
theorem atomSeqCasD (t a c e) : Statement (.atomSeqCasD t a c e) := by
  intro _; simp only [encode, fld_word, fld_cat_hi, fld_cat_lo, Nat.reduceLeDiff, Nat.reduceAdd, Nat.reduceSub]; decide
theorem redAdd (t a c e) : Statement (.redAdd t a c e) := by
  intro _; simp only [encode, fld_word, fld_cat_hi, fld_cat_lo, Nat.reduceLeDiff, Nat.reduceAdd, Nat.reduceSub]; decide
theorem redAnd (t a c e) : Statement (.redAnd t a c e) := by
  intro _; simp only [encode, fld_word, fld_cat_hi, fld_cat_lo, Nat.reduceLeDiff, Nat.reduceAdd, Nat.reduceSub]; decide
theorem redOr (t a c e) : Statement (.redOr t a c e) := by
  intro _; simp only [encode, fld_word, fld_cat_hi, fld_cat_lo, Nat.reduceLeDiff, Nat.reduceAdd, Nat.reduceSub]; decide
theorem redXor (t a c e) : Statement (.redXor t a c e) := by
  intro _; simp only [encode, fld_word, fld_cat_hi, fld_cat_lo, Nat.reduceLeDiff, Nat.reduceAdd, Nat.reduceSub]; decide
theorem redMinS (t a c e) : Statement (.redMinS t a c e) := by
  intro _; simp only [encode, fld_word, fld_cat_hi, fld_cat_lo, Nat.reduceLeDiff, Nat.reduceAdd, Nat.reduceSub]; decide
theorem redMinU (t a c e) : Statement (.redMinU t a c e) := by
  intro _; simp only [encode, fld_word, fld_cat_hi, fld_cat_lo, Nat.reduceLeDiff, Nat.reduceAdd, Nat.reduceSub]; decide
theorem redMaxS (t a c e) : Statement (.redMaxS t a c e) := by
  intro _; simp only [encode, fld_word, fld_cat_hi, fld_cat_lo, Nat.reduceLeDiff, Nat.reduceAdd, Nat.reduceSub]; decide
theorem redMaxU (t a c e) : Statement (.redMaxU t a c e) := by
  intro _; simp only [encode, fld_word, fld_cat_hi, fld_cat_lo, Nat.reduceLeDiff, Nat.reduceAdd, Nat.reduceSub]; decide
theorem redAddF (t a c e) : Statement (.redAddF t a c e) := by
  intro _; simp only [encode, fld_word, fld_cat_hi, fld_cat_lo, Nat.reduceLeDiff, Nat.reduceAdd, Nat.reduceSub]; decide
theorem redAddD (t a c e) : Statement (.redAddD t a c e) := by
  intro _; simp only [encode, fld_word, fld_cat_hi, fld_cat_lo, Nat.reduceLeDiff, Nat.reduceAdd, Nat.reduceSub]; decide
theorem addU (d a b) : Statement (.addU d a b) := by
  intro _; simp only [encode, fld_word, fld_cat_hi, fld_cat_lo, Nat.reduceLeDiff, Nat.reduceAdd, Nat.reduceSub]; decide
theorem subU (d a b) : Statement (.subU d a b) := by
  intro _; simp only [encode, fld_word, fld_cat_hi, fld_cat_lo, Nat.reduceLeDiff, Nat.reduceAdd, Nat.reduceSub]; decide
theorem mulU (d a b) : Statement (.mulU d a b) := by
  intro _; simp only [encode, fld_word, fld_cat_hi, fld_cat_lo, Nat.reduceLeDiff, Nat.reduceAdd, Nat.reduceSub]; decide
theorem mulhiSU (d a b) : Statement (.mulhiSU d a b) := by
  intro _; simp only [encode, fld_word, fld_cat_hi, fld_cat_lo, Nat.reduceLeDiff, Nat.reduceAdd, Nat.reduceSub]; decide
theorem mulhiUU (d a b) : Statement (.mulhiUU d a b) := by
  intro _; simp only [encode, fld_word, fld_cat_hi, fld_cat_lo, Nat.reduceLeDiff, Nat.reduceAdd, Nat.reduceSub]; decide
theorem andU (d a b) : Statement (.andU d a b) := by
  intro _; simp only [encode, fld_word, fld_cat_hi, fld_cat_lo, Nat.reduceLeDiff, Nat.reduceAdd, Nat.reduceSub]; decide
theorem orU (d a b) : Statement (.orU d a b) := by
  intro _; simp only [encode, fld_word, fld_cat_hi, fld_cat_lo, Nat.reduceLeDiff, Nat.reduceAdd, Nat.reduceSub]; decide
theorem xorU (d a b) : Statement (.xorU d a b) := by
  intro _; simp only [encode, fld_word, fld_cat_hi, fld_cat_lo, Nat.reduceLeDiff, Nat.reduceAdd, Nat.reduceSub]; decide
theorem andnU (d a b) : Statement (.andnU d a b) := by
  intro _; simp only [encode, fld_word, fld_cat_hi, fld_cat_lo, Nat.reduceLeDiff, Nat.reduceAdd, Nat.reduceSub]; decide
theorem shlU (d a b) : Statement (.shlU d a b) := by
  intro _; simp only [encode, fld_word, fld_cat_hi, fld_cat_lo, Nat.reduceLeDiff, Nat.reduceAdd, Nat.reduceSub]; decide
theorem shrUU (d a b) : Statement (.shrUU d a b) := by
  intro _; simp only [encode, fld_word, fld_cat_hi, fld_cat_lo, Nat.reduceLeDiff, Nat.reduceAdd, Nat.reduceSub]; decide
theorem shrSU (d a b) : Statement (.shrSU d a b) := by
  intro _; simp only [encode, fld_word, fld_cat_hi, fld_cat_lo, Nat.reduceLeDiff, Nat.reduceAdd, Nat.reduceSub]; decide
theorem minSU (d a b) : Statement (.minSU d a b) := by
  intro _; simp only [encode, fld_word, fld_cat_hi, fld_cat_lo, Nat.reduceLeDiff, Nat.reduceAdd, Nat.reduceSub]; decide
theorem minUU (d a b) : Statement (.minUU d a b) := by
  intro _; simp only [encode, fld_word, fld_cat_hi, fld_cat_lo, Nat.reduceLeDiff, Nat.reduceAdd, Nat.reduceSub]; decide
theorem maxSU (d a b) : Statement (.maxSU d a b) := by
  intro _; simp only [encode, fld_word, fld_cat_hi, fld_cat_lo, Nat.reduceLeDiff, Nat.reduceAdd, Nat.reduceSub]; decide
theorem maxUU (d a b) : Statement (.maxUU d a b) := by
  intro _; simp only [encode, fld_word, fld_cat_hi, fld_cat_lo, Nat.reduceLeDiff, Nat.reduceAdd, Nat.reduceSub]; decide
theorem cmpeqU (d a b) : Statement (.cmpeqU d a b) := by
  intro _; simp only [encode, fld_word, fld_cat_hi, fld_cat_lo, Nat.reduceLeDiff, Nat.reduceAdd, Nat.reduceSub]; decide
theorem cmpneU (d a b) : Statement (.cmpneU d a b) := by
  intro _; simp only [encode, fld_word, fld_cat_hi, fld_cat_lo, Nat.reduceLeDiff, Nat.reduceAdd, Nat.reduceSub]; decide
theorem cmpltSU (d a b) : Statement (.cmpltSU d a b) := by
  intro _; simp only [encode, fld_word, fld_cat_hi, fld_cat_lo, Nat.reduceLeDiff, Nat.reduceAdd, Nat.reduceSub]; decide
theorem cmpltUU (d a b) : Statement (.cmpltUU d a b) := by
  intro _; simp only [encode, fld_word, fld_cat_hi, fld_cat_lo, Nat.reduceLeDiff, Nat.reduceAdd, Nat.reduceSub]; decide
theorem cmpleSU (d a b) : Statement (.cmpleSU d a b) := by
  intro _; simp only [encode, fld_word, fld_cat_hi, fld_cat_lo, Nat.reduceLeDiff, Nat.reduceAdd, Nat.reduceSub]; decide
theorem cmpleUU (d a b) : Statement (.cmpleUU d a b) := by
  intro _; simp only [encode, fld_word, fld_cat_hi, fld_cat_lo, Nat.reduceLeDiff, Nat.reduceAdd, Nat.reduceSub]; decide
theorem movU (d a) : Statement (.movU d a) := by
  intro _; simp only [encode, fld_word, fld_cat_hi, fld_cat_lo, Nat.reduceLeDiff, Nat.reduceAdd, Nat.reduceSub]; decide
theorem notU (d a) : Statement (.notU d a) := by
  intro _; simp only [encode, fld_word, fld_cat_hi, fld_cat_lo, Nat.reduceLeDiff, Nat.reduceAdd, Nat.reduceSub]; decide
theorem negU (d a) : Statement (.negU d a) := by
  intro _; simp only [encode, fld_word, fld_cat_hi, fld_cat_lo, Nat.reduceLeDiff, Nat.reduceAdd, Nat.reduceSub]; decide
theorem absU (d a) : Statement (.absU d a) := by
  intro _; simp only [encode, fld_word, fld_cat_hi, fld_cat_lo, Nat.reduceLeDiff, Nat.reduceAdd, Nat.reduceSub]; decide
theorem popcU (d a) : Statement (.popcU d a) := by
  intro _; simp only [encode, fld_word, fld_cat_hi, fld_cat_lo, Nat.reduceLeDiff, Nat.reduceAdd, Nat.reduceSub]; decide
theorem clzU (d a) : Statement (.clzU d a) := by
  intro _; simp only [encode, fld_word, fld_cat_hi, fld_cat_lo, Nat.reduceLeDiff, Nat.reduceAdd, Nat.reduceSub]; decide
theorem brevU (d a) : Statement (.brevU d a) := by
  intro _; simp only [encode, fld_word, fld_cat_hi, fld_cat_lo, Nat.reduceLeDiff, Nat.reduceAdd, Nat.reduceSub]; decide
theorem sextBU (d a) : Statement (.sextBU d a) := by
  intro _; simp only [encode, fld_word, fld_cat_hi, fld_cat_lo, Nat.reduceLeDiff, Nat.reduceAdd, Nat.reduceSub]; decide
theorem sextHU (d a) : Statement (.sextHU d a) := by
  intro _; simp only [encode, fld_word, fld_cat_hi, fld_cat_lo, Nat.reduceLeDiff, Nat.reduceAdd, Nat.reduceSub]; decide
theorem sextWU (d a) : Statement (.sextWU d a) := by
  intro _; simp only [encode, fld_word, fld_cat_hi, fld_cat_lo, Nat.reduceLeDiff, Nat.reduceAdd, Nat.reduceSub]; decide
theorem addUi (d a i) : Statement (.addUi d a i) := by
  intro _; simp only [encode, fld_word, fld_cat_hi, fld_cat_lo, Nat.reduceLeDiff, Nat.reduceAdd, Nat.reduceSub]; decide
theorem andUi (d a i) : Statement (.andUi d a i) := by
  intro _; simp only [encode, fld_word, fld_cat_hi, fld_cat_lo, Nat.reduceLeDiff, Nat.reduceAdd, Nat.reduceSub]; decide
theorem orUi (d a i) : Statement (.orUi d a i) := by
  intro _; simp only [encode, fld_word, fld_cat_hi, fld_cat_lo, Nat.reduceLeDiff, Nat.reduceAdd, Nat.reduceSub]; decide
theorem xorUi (d a i) : Statement (.xorUi d a i) := by
  intro _; simp only [encode, fld_word, fld_cat_hi, fld_cat_lo, Nat.reduceLeDiff, Nat.reduceAdd, Nat.reduceSub]; decide
theorem shlUi (d a i) : Statement (.shlUi d a i) := by
  intro _; simp only [encode, fld_word, fld_cat_hi, fld_cat_lo, Nat.reduceLeDiff, Nat.reduceAdd, Nat.reduceSub]; decide
theorem shrUUi (d a i) : Statement (.shrUUi d a i) := by
  intro _; simp only [encode, fld_word, fld_cat_hi, fld_cat_lo, Nat.reduceLeDiff, Nat.reduceAdd, Nat.reduceSub]; decide
theorem shrSUi (d a i) : Statement (.shrSUi d a i) := by
  intro _; simp only [encode, fld_word, fld_cat_hi, fld_cat_lo, Nat.reduceLeDiff, Nat.reduceAdd, Nat.reduceSub]; decide
theorem cmpeqUi (d a i) : Statement (.cmpeqUi d a i) := by
  intro _; simp only [encode, fld_word, fld_cat_hi, fld_cat_lo, Nat.reduceLeDiff, Nat.reduceAdd, Nat.reduceSub]; decide
theorem cmpltSUi (d a i) : Statement (.cmpltSUi d a i) := by
  intro _; simp only [encode, fld_word, fld_cat_hi, fld_cat_lo, Nat.reduceLeDiff, Nat.reduceAdd, Nat.reduceSub]; decide
theorem cmpltUUi (d a i) : Statement (.cmpltUUi d a i) := by
  intro _; simp only [encode, fld_word, fld_cat_hi, fld_cat_lo, Nat.reduceLeDiff, Nat.reduceAdd, Nat.reduceSub]; decide
theorem moviU (d i) : Statement (.moviU d i) := by
  intro _; simp only [encode, fld_word, fld_cat_hi, fld_cat_lo, Nat.reduceLeDiff, Nat.reduceAdd, Nat.reduceSub]; decide
theorem movx (d i) : Statement (.movx d i) := by
  intro _; simp only [encode, fld_word, fld_cat_hi, fld_cat_lo, Nat.reduceLeDiff, Nat.reduceAdd, Nat.reduceSub]; decide
theorem bra (r) : Statement (.bra r) := by
  intro _; simp only [encode, fld_word, fld_cat_hi, fld_cat_lo, Nat.reduceLeDiff, Nat.reduceAdd, Nat.reduceSub]; decide
theorem bz (a r) : Statement (.bz a r) := by
  intro _; simp only [encode, fld_word, fld_cat_hi, fld_cat_lo, Nat.reduceLeDiff, Nat.reduceAdd, Nat.reduceSub]; decide
theorem bnz (a r) : Statement (.bnz a r) := by
  intro _; simp only [encode, fld_word, fld_cat_hi, fld_cat_lo, Nat.reduceLeDiff, Nat.reduceAdd, Nat.reduceSub]; decide
theorem jmp (a) : Statement (.jmp a) := by
  intro _; simp only [encode, fld_word, fld_cat_hi, fld_cat_lo, Nat.reduceLeDiff, Nat.reduceAdd, Nat.reduceSub]; decide
theorem call (n r) : Statement (.call n r) := by
  intro _; simp only [encode, fld_word, fld_cat_hi, fld_cat_lo, Nat.reduceLeDiff, Nat.reduceAdd, Nat.reduceSub]; decide
theorem trap (c) : Statement (.trap c) := by
  intro _; simp only [encode, fld_word, fld_cat_hi, fld_cat_lo, Nat.reduceLeDiff, Nat.reduceAdd, Nat.reduceSub]; decide
theorem any (d f) : Statement (.any d f) := by
  intro _; simp only [encode, fld_word, fld_cat_hi, fld_cat_lo, Nat.reduceLeDiff, Nat.reduceAdd, Nat.reduceSub]; decide
theorem all (d f) : Statement (.all d f) := by
  intro _; simp only [encode, fld_word, fld_cat_hi, fld_cat_lo, Nat.reduceLeDiff, Nat.reduceAdd, Nat.reduceSub]; decide
theorem ballot (d f) : Statement (.ballot d f) := by
  intro _; simp only [encode, fld_word, fld_cat_hi, fld_cat_lo, Nat.reduceLeDiff, Nat.reduceAdd, Nat.reduceSub]; decide
theorem srdS (d p) : Statement (.srdS d p) := by
  intro _; simp only [encode, fld_word, fld_cat_hi, fld_cat_lo, Nat.reduceLeDiff, Nat.reduceAdd, Nat.reduceSub]; decide
theorem srdV (d p h) : Statement (.srdV d p h) := by
  intro _; simp only [encode, fld_word, fld_cat_hi, fld_cat_lo, Nat.reduceLeDiff, Nat.reduceAdd, Nat.reduceSub]; decide
theorem swr (a p) : Statement (.swr a p) := by
  intro _; simp only [encode, fld_word, fld_cat_hi, fld_cat_lo, Nat.reduceLeDiff, Nat.reduceAdd, Nat.reduceSub]; decide
theorem fence (c e) : Statement (.fence c e) := by
  intro _; simp only [encode, fld_word, fld_cat_hi, fld_cat_lo, Nat.reduceLeDiff, Nat.reduceAdd, Nat.reduceSub]; decide
theorem fqpop (d) : Statement (.fqpop d) := by
  intro _; simp only [encode, fld_word, fld_cat_hi, fld_cat_lo, Nat.reduceLeDiff, Nat.reduceAdd, Nat.reduceSub]; decide
theorem launch (a) : Statement (.launch a) := by
  intro _; simp only [encode, fld_word, fld_cat_hi, fld_cat_lo, Nat.reduceLeDiff, Nat.reduceAdd, Nat.reduceSub]; decide
theorem launchAt (a b) : Statement (.launchAt a b) := by
  intro _; simp only [encode, fld_word, fld_cat_hi, fld_cat_lo, Nat.reduceLeDiff, Nat.reduceAdd, Nat.reduceSub]; decide
theorem fbMark (a b c) : Statement (.fbMark a b c) := by
  intro _; simp only [encode, fld_word, fld_cat_hi, fld_cat_lo, Nat.reduceLeDiff, Nat.reduceAdd, Nat.reduceSub]; decide
theorem barAlloc (d) : Statement (.barAlloc d) := by
  intro _; simp only [encode, fld_word, fld_cat_hi, fld_cat_lo, Nat.reduceLeDiff, Nat.reduceAdd, Nat.reduceSub]; decide
theorem barInit (a b c) : Statement (.barInit a b c) := by
  intro _; simp only [encode, fld_word, fld_cat_hi, fld_cat_lo, Nat.reduceLeDiff, Nat.reduceAdd, Nat.reduceSub]; decide
theorem barExpect (a b) : Statement (.barExpect a b) := by
  intro _; simp only [encode, fld_word, fld_cat_hi, fld_cat_lo, Nat.reduceLeDiff, Nat.reduceAdd, Nat.reduceSub]; decide
theorem barArrive (a) : Statement (.barArrive a) := by
  intro _; simp only [encode, fld_word, fld_cat_hi, fld_cat_lo, Nat.reduceLeDiff, Nat.reduceAdd, Nat.reduceSub]; decide
theorem barArriveQ (a b) : Statement (.barArriveQ a b) := by
  intro _; simp only [encode, fld_word, fld_cat_hi, fld_cat_lo, Nat.reduceLeDiff, Nat.reduceAdd, Nat.reduceSub]; decide
theorem barWait (a) : Statement (.barWait a) := by
  intro _; simp only [encode, fld_word, fld_cat_hi, fld_cat_lo, Nat.reduceLeDiff, Nat.reduceAdd, Nat.reduceSub]; decide
theorem barTest (d a) : Statement (.barTest d a) := by
  intro _; simp only [encode, fld_word, fld_cat_hi, fld_cat_lo, Nat.reduceLeDiff, Nat.reduceAdd, Nat.reduceSub]; decide
theorem barFree (a) : Statement (.barFree a) := by
  intro _; simp only [encode, fld_word, fld_cat_hi, fld_cat_lo, Nat.reduceLeDiff, Nat.reduceAdd, Nat.reduceSub]; decide
theorem cpTile (a b c e) : Statement (.cpTile a b c e) := by
  intro _; simp only [encode, fld_word, fld_cat_hi, fld_cat_lo, Nat.reduceLeDiff, Nat.reduceAdd, Nat.reduceSub]; decide
theorem cpBulk (a b c e) : Statement (.cpBulk a b c e) := by
  intro _; simp only [encode, fld_word, fld_cat_hi, fld_cat_lo, Nat.reduceLeDiff, Nat.reduceAdd, Nat.reduceSub]; decide
theorem cpGather (a b c e) : Statement (.cpGather a b c e) := by
  intro _; simp only [encode, fld_word, fld_cat_hi, fld_cat_lo, Nat.reduceLeDiff, Nat.reduceAdd, Nat.reduceSub]; decide
theorem cpRed (a b c e) : Statement (.cpRed a b c e) := by
  intro _; simp only [encode, fld_word, fld_cat_hi, fld_cat_lo, Nat.reduceLeDiff, Nat.reduceAdd, Nat.reduceSub]; decide
theorem cpAt (a b e) : Statement (.cpAt a b e) := by
  intro _; simp only [encode, fld_word, fld_cat_hi, fld_cat_lo, Nat.reduceLeDiff, Nat.reduceAdd, Nat.reduceSub]; decide
theorem mma (a b c e) : Statement (.mma a b c e) := by
  intro _; simp only [encode, fld_word, fld_cat_hi, fld_cat_lo, Nat.reduceLeDiff, Nat.reduceAdd, Nat.reduceSub]; decide
theorem accZero (a) : Statement (.accZero a) := by
  intro _; simp only [encode, fld_word, fld_cat_hi, fld_cat_lo, Nat.reduceLeDiff, Nat.reduceAdd, Nat.reduceSub]; decide
theorem accLd (a b) : Statement (.accLd a b) := by
  intro _; simp only [encode, fld_word, fld_cat_hi, fld_cat_lo, Nat.reduceLeDiff, Nat.reduceAdd, Nat.reduceSub]; decide
theorem accSt (a b c e) : Statement (.accSt a b c e) := by
  intro _; simp only [encode, fld_word, fld_cat_hi, fld_cat_lo, Nat.reduceLeDiff, Nat.reduceAdd, Nat.reduceSub]; decide
theorem accRed (a b c e) : Statement (.accRed a b c e) := by
  intro _; simp only [encode, fld_word, fld_cat_hi, fld_cat_lo, Nat.reduceLeDiff, Nat.reduceAdd, Nat.reduceSub]; decide
theorem sldB (d a i) : Statement (.sldB d a i) := by
  intro _; simp only [encode, fld_word, fld_cat_hi, fld_cat_lo, Nat.reduceLeDiff, Nat.reduceAdd, Nat.reduceSub]; decide
theorem sldH (d a i) : Statement (.sldH d a i) := by
  intro _; simp only [encode, fld_word, fld_cat_hi, fld_cat_lo, Nat.reduceLeDiff, Nat.reduceAdd, Nat.reduceSub]; decide
theorem sldW (d a i) : Statement (.sldW d a i) := by
  intro _; simp only [encode, fld_word, fld_cat_hi, fld_cat_lo, Nat.reduceLeDiff, Nat.reduceAdd, Nat.reduceSub]; decide
theorem sldD (d a i) : Statement (.sldD d a i) := by
  intro _; simp only [encode, fld_word, fld_cat_hi, fld_cat_lo, Nat.reduceLeDiff, Nat.reduceAdd, Nat.reduceSub]; decide
theorem sstB (t a i) : Statement (.sstB t a i) := by
  intro _; simp only [encode, fld_word, fld_cat_hi, fld_cat_lo, Nat.reduceLeDiff, Nat.reduceAdd, Nat.reduceSub]; decide
theorem sstH (t a i) : Statement (.sstH t a i) := by
  intro _; simp only [encode, fld_word, fld_cat_hi, fld_cat_lo, Nat.reduceLeDiff, Nat.reduceAdd, Nat.reduceSub]; decide
theorem sstW (t a i) : Statement (.sstW t a i) := by
  intro _; simp only [encode, fld_word, fld_cat_hi, fld_cat_lo, Nat.reduceLeDiff, Nat.reduceAdd, Nat.reduceSub]; decide
theorem sstD (t a i) : Statement (.sstD t a i) := by
  intro _; simp only [encode, fld_word, fld_cat_hi, fld_cat_lo, Nat.reduceLeDiff, Nat.reduceAdd, Nat.reduceSub]; decide
theorem shGetW (d a e) : Statement (.shGetW d a e) := by
  intro _; simp only [encode, fld_word, fld_cat_hi, fld_cat_lo, Nat.reduceLeDiff, Nat.reduceAdd, Nat.reduceSub]; decide
theorem shGetP (a b e) : Statement (.shGetP a b e) := by
  intro _; simp only [encode, fld_word, fld_cat_hi, fld_cat_lo, Nat.reduceLeDiff, Nat.reduceAdd, Nat.reduceSub]; decide
theorem shOpAdd (d a b e) : Statement (.shOpAdd d a b e) := by
  intro _; simp only [encode, fld_word, fld_cat_hi, fld_cat_lo, Nat.reduceLeDiff, Nat.reduceAdd, Nat.reduceSub]; decide
theorem shOpAddF (d a b e) : Statement (.shOpAddF d a b e) := by
  intro _; simp only [encode, fld_word, fld_cat_hi, fld_cat_lo, Nat.reduceLeDiff, Nat.reduceAdd, Nat.reduceSub]; decide
theorem shOpMin (d a b e) : Statement (.shOpMin d a b e) := by
  intro _; simp only [encode, fld_word, fld_cat_hi, fld_cat_lo, Nat.reduceLeDiff, Nat.reduceAdd, Nat.reduceSub]; decide
theorem shOpMax (d a b e) : Statement (.shOpMax d a b e) := by
  intro _; simp only [encode, fld_word, fld_cat_hi, fld_cat_lo, Nat.reduceLeDiff, Nat.reduceAdd, Nat.reduceSub]; decide
theorem shOpMinS (d a b e) : Statement (.shOpMinS d a b e) := by
  intro _; simp only [encode, fld_word, fld_cat_hi, fld_cat_lo, Nat.reduceLeDiff, Nat.reduceAdd, Nat.reduceSub]; decide
theorem shOpMinU (d a b e) : Statement (.shOpMinU d a b e) := by
  intro _; simp only [encode, fld_word, fld_cat_hi, fld_cat_lo, Nat.reduceLeDiff, Nat.reduceAdd, Nat.reduceSub]; decide
theorem shOpMaxS (d a b e) : Statement (.shOpMaxS d a b e) := by
  intro _; simp only [encode, fld_word, fld_cat_hi, fld_cat_lo, Nat.reduceLeDiff, Nat.reduceAdd, Nat.reduceSub]; decide
theorem shOpMaxU (d a b e) : Statement (.shOpMaxU d a b e) := by
  intro _; simp only [encode, fld_word, fld_cat_hi, fld_cat_lo, Nat.reduceLeDiff, Nat.reduceAdd, Nat.reduceSub]; decide
theorem shOpAnd (d a b e) : Statement (.shOpAnd d a b e) := by
  intro _; simp only [encode, fld_word, fld_cat_hi, fld_cat_lo, Nat.reduceLeDiff, Nat.reduceAdd, Nat.reduceSub]; decide
theorem shOpOr (d a b e) : Statement (.shOpOr d a b e) := by
  intro _; simp only [encode, fld_word, fld_cat_hi, fld_cat_lo, Nat.reduceLeDiff, Nat.reduceAdd, Nat.reduceSub]; decide
theorem shOpXor (d a b e) : Statement (.shOpXor d a b e) := by
  intro _; simp only [encode, fld_word, fld_cat_hi, fld_cat_lo, Nat.reduceLeDiff, Nat.reduceAdd, Nat.reduceSub]; decide
theorem shOpSwap (d a b e) : Statement (.shOpSwap d a b e) := by
  intro _; simp only [encode, fld_word, fld_cat_hi, fld_cat_lo, Nat.reduceLeDiff, Nat.reduceAdd, Nat.reduceSub]; decide
theorem shOpCas (d a b e) : Statement (.shOpCas d a b e) := by
  intro _; simp only [encode, fld_word, fld_cat_hi, fld_cat_lo, Nat.reduceLeDiff, Nat.reduceAdd, Nat.reduceSub]; decide
theorem shLand (a) : Statement (.shLand a) := by
  intro _; simp only [encode, fld_word, fld_cat_hi, fld_cat_lo, Nat.reduceLeDiff, Nat.reduceAdd, Nat.reduceSub]; decide
theorem shPut (a b) : Statement (.shPut a b) := by
  intro _; simp only [encode, fld_word, fld_cat_hi, fld_cat_lo, Nat.reduceLeDiff, Nat.reduceAdd, Nat.reduceSub]; decide
theorem shFloat (a e) : Statement (.shFloat a e) := by
  intro _; simp only [encode, fld_word, fld_cat_hi, fld_cat_lo, Nat.reduceLeDiff, Nat.reduceAdd, Nat.reduceSub]; decide
theorem ret : Statement .ret := by
  intro _; simp only [encode, fld_word, fld_cat_hi, fld_cat_lo, Nat.reduceLeDiff, Nat.reduceAdd, Nat.reduceSub]; decide
theorem exit : Statement .exit := by
  intro _; simp only [encode, fld_word, fld_cat_hi, fld_cat_lo, Nat.reduceLeDiff, Nat.reduceAdd, Nat.reduceSub]; decide
theorem yield : Statement .yield := by
  intro _; simp only [encode, fld_word, fld_cat_hi, fld_cat_lo, Nat.reduceLeDiff, Nat.reduceAdd, Nat.reduceSub]; decide
theorem nop : Statement .nop := by
  intro _; simp only [encode, fld_word, fld_cat_hi, fld_cat_lo, Nat.reduceLeDiff, Nat.reduceAdd, Nat.reduceSub]; decide
theorem rett : Statement .rett := by
  intro _; simp only [encode, fld_word, fld_cat_hi, fld_cat_lo, Nat.reduceLeDiff, Nat.reduceAdd, Nat.reduceSub]; decide
theorem term : Statement .term := by
  intro _; simp only [encode, fld_word, fld_cat_hi, fld_cat_lo, Nat.reduceLeDiff, Nat.reduceAdd, Nat.reduceSub]; decide
theorem stdrain : Statement .stdrain := by
  intro _; simp only [encode, fld_word, fld_cat_hi, fld_cat_lo, Nat.reduceLeDiff, Nat.reduceAdd, Nat.reduceSub]; decide
theorem step : Statement .step := by
  intro _; simp only [encode, fld_word, fld_cat_hi, fld_cat_lo, Nat.reduceLeDiff, Nat.reduceAdd, Nat.reduceSub]; decide
theorem fbGo : Statement .fbGo := by
  intro _; simp only [encode, fld_word, fld_cat_hi, fld_cat_lo, Nat.reduceLeDiff, Nat.reduceAdd, Nat.reduceSub]; decide
theorem teamRetire (lid tid) : Statement (.teamRetire lid tid) := by
  intro h; cases h
theorem gridRetire (lid) : Statement (.gridRetire lid) := by
  intro h; cases h
theorem launchAtDue (lid) : Statement (.launchAtDue lid) := by
  intro h; cases h
theorem distributorPass (part) : Statement (.distributorPass part) := by
  intro h; cases h
theorem contextSwitchOut (asid) : Statement (.contextSwitchOut asid) := by
  intro h; cases h
theorem contextSwitchIn (asid) : Statement (.contextSwitchIn asid) := by
  intro h; cases h
theorem preempt (lid tid) : Statement (.preempt lid tid) := by
  intro h; cases h
theorem teamResume (lid tid) : Statement (.teamResume lid tid) := by
  intro h; cases h
theorem splitWake (cid sid) : Statement (.splitWake cid sid) := by
  intro h; cases h
theorem fairnessSwap (cid sid) : Statement (.fairnessSwap cid sid) := by
  intro h; cases h
theorem yieldShadowEnd (cid sid) : Statement (.yieldShadowEnd cid sid) := by
  intro h; cases h
theorem mmaExec (core) : Statement (.mmaExec core) := by
  intro h; cases h
theorem accZeroExec (core) : Statement (.accZeroExec core) := by
  intro h; cases h
theorem accLdExec (core) : Statement (.accLdExec core) := by
  intro h; cases h
theorem accStExec (core) : Statement (.accStExec core) := by
  intro h; cases h
theorem accStComplete (core) : Statement (.accStComplete core) := by
  intro h; cases h
theorem accRedExec (core) : Statement (.accRedExec core) := by
  intro h; cases h
theorem accRedComplete (core) : Statement (.accRedComplete core) := by
  intro h; cases h
theorem copyDispatch (core) : Statement (.copyDispatch core) := by
  intro h; cases h
theorem cpAtDispatch (core seq) : Statement (.cpAtDispatch core seq) := by
  intro h; cases h
theorem copyComplete (die engine) : Statement (.copyComplete die engine) := by
  intro h; cases h
theorem sliceAdderOp (seq) : Statement (.sliceAdderOp seq) := by
  intro h; cases h
theorem heldWritePerform (seq) : Statement (.heldWritePerform seq) := by
  intro h; cases h
theorem storeRegistration (seq) : Statement (.storeRegistration seq) := by
  intro h; cases h
theorem sectorRevoke (sector) : Statement (.sectorRevoke sector) := by
  intro h; cases h
theorem ownerWriteBack (sector) : Statement (.ownerWriteBack sector) := by
  intro h; cases h
theorem readForward (core word) : Statement (.readForward core word) := by
  intro h; cases h
theorem mirrorInvalidate (line) : Statement (.mirrorInvalidate line) := by
  intro h; cases h
theorem lineFill (slice line) : Statement (.lineFill slice line) := by
  intro h; cases h
theorem spillQueueRefill (slice) : Statement (.spillQueueRefill slice) := by
  intro h; cases h
theorem peerL1Probe (core line) : Statement (.peerL1Probe core line) := by
  intro h; cases h
theorem registrationAck (core asid) : Statement (.registrationAck core asid) := by
  intro h; cases h
theorem storeTranslate (cid sid) : Statement (.storeTranslate cid sid) := by
  intro h; cases h
theorem faultQueueAdmit (core) : Statement (.faultQueueAdmit core) := by
  intro h; cases h
theorem pageWalkDone (core asid va) : Statement (.pageWalkDone core asid va) := by
  intro h; cases h
theorem trapEntry (cid sid) : Statement (.trapEntry cid sid) := by
  intro h; cases h
theorem shellOpEffect (core shell) : Statement (.shellOpEffect core shell) := by
  intro h; cases h
theorem shellLandEffect (core shell) : Statement (.shellLandEffect core shell) := by
  intro h; cases h
theorem shellFloatEffect (shell) : Statement (.shellFloatEffect shell) := by
  intro h; cases h
theorem shellOverstay (shell) : Statement (.shellOverstay shell) := by
  intro h; cases h
theorem shellLandingLoss (shell) : Statement (.shellLandingLoss shell) := by
  intro h; cases h
theorem shellCooldownEnd (shell) : Statement (.shellCooldownEnd shell) := by
  intro h; cases h
theorem neighbourRead (cid sid) : Statement (.neighbourRead cid sid) := by
  intro h; cases h
theorem stepComplete (cid sid) : Statement (.stepComplete cid sid) := by
  intro h; cases h
theorem pageOut (lid seat) : Statement (.pageOut lid seat) := by
  intro h; cases h
theorem hostCut (cid) : Statement (.hostCut cid) := by
  intro h; cases h
theorem ctxStart (part asid) : Statement (.ctxStart part asid) := by
  intro h; cases h
theorem ctxStop (part asid) : Statement (.ctxStop part asid) := by
  intro h; cases h
theorem pctlWrite (part value) : Statement (.pctlWrite part value) := by
  intro h; cases h
theorem engMaskWrite (part die value) : Statement (.engMaskWrite part die value) := by
  intro h; cases h
theorem scrubComplete (bay) : Statement (.scrubComplete bay) := by
  intro h; cases h
theorem l2BucketTick (slice) : Statement (.l2BucketTick slice) := by
  intro h; cases h
theorem portBucketTick (port) : Statement (.portBucketTick port) := by
  intro h; cases h
theorem kbktWrite (entry value) : Statement (.kbktWrite entry value) := by
  intro h; cases h
theorem ingressFlit (port src key offset write data) : Statement (.ingressFlit port src key offset write data) := by
  intro h; cases h
theorem exportRequest (src key offset write data) : Statement (.exportRequest src key offset write data) := by
  intro h; cases h
theorem remoteArrive (asid src key count value) : Statement (.remoteArrive asid src key count value) := by
  intro h; cases h
theorem arrivalPerform (n) : Statement (.arrivalPerform n) := by
  intro h; cases h
theorem routeUnusableTimeout (ep) : Statement (.routeUnusableTimeout ep) := by
  intro h; cases h
theorem strictRetransmit (dst key) : Statement (.strictRetransmit dst key) := by
  intro h; cases h
theorem rswapRoute : Statement .rswapRoute := by
  intro h; cases h
theorem rswapKey : Statement .rswapKey := by
  intro h; cases h
theorem swapComplete : Statement .swapComplete := by
  intro h; cases h
theorem portFail (port) : Statement (.portFail port) := by
  intro h; cases h
theorem portLive (port) : Statement (.portLive port) := by
  intro h; cases h
theorem portctlEn (port en) : Statement (.portctlEn port en) := by
  intro h; cases h
theorem portctlFailClear (port) : Statement (.portctlFailClear port) := by
  intro h; cases h
theorem portctlKclr (port) : Statement (.portctlKclr port) := by
  intro h; cases h
theorem ftimeSyncExchange (master offset) : Statement (.ftimeSyncExchange master offset) := by
  intro h; cases h
theorem ftimeLockLoss : Statement .ftimeLockLoss := by
  intro h; cases h
theorem shootdownPage (part asid size) : Statement (.shootdownPage part asid size) := by
  intro h; cases h
theorem shootdownAll (part asid) : Statement (.shootdownAll part asid) := by
  intro h; cases h
theorem shootdownComplete (part) : Statement (.shootdownComplete part) := by
  intro h; cases h
theorem correctableError (unit) : Statement (.correctableError unit) := by
  intro h; cases h
theorem uncorrectableError (place) : Statement (.uncorrectableError place) := by
  intro h; cases h
theorem powerThrottle (on) : Statement (.powerThrottle on) := by
  intro h; cases h
theorem hotStop (outlet) : Statement (.hotStop outlet) := by
  intro h; cases h
theorem hotClear (outlet) : Statement (.hotClear outlet) := by
  intro h; cases h
theorem deviceReset (image) : Statement (.deviceReset image) := by
  intro h; cases h
theorem attGo : Statement .attGo := by
  intro h; cases h
theorem attQuoteDone : Statement .attQuoteDone := by
  intro h; cases h
theorem attnonceWrite (offset value) : Statement (.attnonceWrite offset value) := by
  intro h; cases h
theorem coreretWrite (value) : Statement (.coreretWrite value) := by
  intro h; cases h
theorem coreMarginFail (core) : Statement (.coreMarginFail core) := by
  intro h; cases h
theorem eolUpdate (date) : Statement (.eolUpdate date) := by
  intro h; cases h
theorem ceclrWrite (value) : Statement (.ceclrWrite value) := by
  intro h; cases h
theorem mgmtRegisterWrite (offset size value) : Statement (.mgmtRegisterWrite offset size value) := by
  intro h; cases h
theorem loadDataArrival (cid sid) : Statement (.loadDataArrival cid sid) := by
  intro h; cases h
theorem bayRetire (bay) : Statement (.bayRetire bay) := by
  intro h; cases h

end Sys2Proof.Laws.WordForm
end

