-- ==== Sys2Proof/Laws/Rows.lean ====
section
/-! SUPPORT. The meanings of the integer and floating-point instructions of the lanes and of the uniform scalars agree with
the rows of the spec's tables, which are written in exact arithmetic. -/

namespace Sys2Proof.Machine

/-! ## Exact arithmetic and machine arithmetic -/

section
variable {n : Nat} (x y : BitVec n)

theorem ofNat_add : BitVec.ofNat n (x.toNat + y.toNat) = x + y := by apply BitVec.eq_of_toNat_eq; simp
theorem ofNat_mul : BitVec.ofNat n (x.toNat * y.toNat) = x * y := by apply BitVec.eq_of_toNat_eq; simp
theorem ofInt_sub : BitVec.ofInt n (x.toInt - y.toInt) = x - y := by
  apply BitVec.eq_of_toInt_eq; simp [BitVec.toInt_sub]
theorem ofInt_neg : BitVec.ofInt n (-x.toInt) = -x := by apply BitVec.eq_of_toInt_eq; simp [BitVec.toInt_neg]
theorem ofInt_addImm {m : Nat} (i : BitVec m) : BitVec.ofInt n (x.toInt + i.toInt) = x + i.signExtend n := by
  rw [BitVec.signExtend, BitVec.ofInt_add, BitVec.ofInt_toInt]

theorem ofNat_zext {m : Nat} (i : BitVec m) : BitVec.ofNat n i.toNat = i.zeroExtend n := by
  apply BitVec.eq_of_toNat_eq; simp

theorem ofNat_trunc {m : Nat} : BitVec.ofNat m x.toNat = x.truncate m := by
  apply BitVec.eq_of_toNat_eq; simp

theorem ofInt_min : BitVec.ofInt n (min x.toInt y.toInt) = if x.slt y then x else y := by
  rw [BitVec.slt]; by_cases h : x.toInt < y.toInt
  · simp [h, Int.min_eq_left (Int.le_of_lt h)]
  · simp [h, Int.min_eq_right (Int.not_lt.mp h)]

theorem ofInt_max : BitVec.ofInt n (max x.toInt y.toInt) = if x.slt y then y else x := by
  rw [BitVec.slt]; by_cases h : x.toInt < y.toInt
  · simp [h, Int.max_eq_right (Int.le_of_lt h)]
  · simp [h, Int.max_eq_left (Int.not_lt.mp h)]

theorem ofNat_min : BitVec.ofNat n (min x.toNat y.toNat) = if x.ult y then x else y := by
  rw [BitVec.ult]; by_cases h : x.toNat < y.toNat
  · simp [h, Nat.min_eq_left (Nat.le_of_lt h)]
  · simp [h, Nat.min_eq_right (Nat.not_lt.mp h)]

theorem ofNat_max : BitVec.ofNat n (max x.toNat y.toNat) = if x.ult y then y else x := by
  rw [BitVec.ult]; by_cases h : x.toNat < y.toNat
  · simp [h, Nat.max_eq_right (Nat.le_of_lt h)]
  · simp [h, Nat.max_eq_left (Nat.not_lt.mp h)]

theorem ofNat_shl (k : Nat) : BitVec.ofNat n (x.toNat * 2 ^ k) = x <<< k := by
  apply BitVec.eq_of_toNat_eq; simp [Nat.shiftLeft_eq]

theorem ofNat_shr (k : Nat) : BitVec.ofNat n (x.toNat / 2 ^ k) = x >>> k := by
  apply BitVec.eq_of_toNat_eq
  rw [BitVec.toNat_ofNat, BitVec.toNat_ushiftRight, Nat.shiftRight_eq_div_pow]
  exact Nat.mod_eq_of_lt (Nat.lt_of_le_of_lt (Nat.div_le_self _ _) x.isLt)

theorem ofInt_sar (k : Nat) : BitVec.ofInt n (x.toInt / 2 ^ k) = x.sshiftRight k := by
  rw [BitVec.sshiftRight]; congr 1; rw [Int.shiftRight_eq_div_pow]; norm_cast

theorem ofNat_not : BitVec.ofNat n (2 ^ n - 1 - x.toNat) = ~~~x := by
  apply BitVec.eq_of_toNat_eq
  rw [BitVec.toNat_not, BitVec.toNat_ofNat]
  have := x.isLt
  exact Nat.mod_eq_of_lt (by omega)

theorem ofNat_abs : BitVec.ofNat n x.toInt.natAbs = absWord x := by
  unfold absWord; rw [BitVec.msb_eq_toInt]
  by_cases h : x.toInt < 0
  · simp only [h, decide_true, if_true]
    apply BitVec.eq_of_toInt_eq; rw [BitVec.toInt_neg]
    rw [← BitVec.ofInt_natCast, BitVec.toInt_ofInt]; congr 1; omega
  · simp only [h, decide_false]
    apply BitVec.eq_of_toInt_eq; rw [← BitVec.ofInt_natCast, Int.natAbs_of_nonneg (by omega)]; simp

/-- The number of set bits is the number of bit places that hold one. -/
theorem popCount_eq : popCount x = ((List.range n).filter x.getLsbD).length := by
  have go : ∀ (l : List Nat) (k : Nat),
      l.foldl (fun k i => if x.getLsbD i then k + 1 else k) k = k + (l.filter x.getLsbD).length := by
    intro l
    induction l with
    | nil => simp
    | cons a t ih => intro k; simp only [List.foldl_cons, ih, List.filter_cons]; split <;> simp; omega
  simp [popCount, go]

/-- The number of leading zeros is the number of powers of two below 2^n that exceed the value. -/
theorem leadingZeros_eq : leadingZeros x = ((List.range n).filter fun i => decide (x.toNat < 2 ^ i)).length := by
  have key : ∀ n m, ((List.range n).filter fun i => decide (m ≤ i)).length = n - m := by
    intro n m
    induction n with
    | zero => simp
    | succ k ih =>
      rw [List.range_succ, List.filter_append, List.length_append, ih]
      by_cases h : m ≤ k <;> simp [h] <;> omega
  unfold leadingZeros
  split
  · subst x; simp
  · rename_i h
    have h0 : x.toNat ≠ 0 := fun e => h (BitVec.eq_of_toNat_eq (by simpa using e))
    have : (fun i => decide (x.toNat < 2 ^ i)) = fun i => decide (Nat.log2 x.toNat + 1 ≤ i) := by
      funext i; congr 1; rw [← Nat.log2_lt h0, Nat.succ_le_iff]
    rw [this, key]; omega

end

section
variable (x y : Word)

theorem clampWord_eq (a : Int) :
    BitVec.ofInt 32 (max (-2 ^ 31) (min (2 ^ 31 - 1) a)) = clampWord (-2147483648) 2147483647 a := rfl

theorem ofInt_satSub : BitVec.ofInt 32 (max 0 ((x.toNat : Int) - y.toNat)) = BitVec.ofNat 32 (x.toNat - y.toNat) := by
  rw [show max 0 ((x.toNat : Int) - y.toNat) = ((x.toNat - y.toNat : Nat) : Int) by omega]
  exact BitVec.ofInt_natCast ..

theorem eq_bit32 : (if x.toNat = y.toNat then 1 else 0) = bit32 (x == y) := by
  unfold bit32; simp only [BitVec.toNat_inj, beq_iff_eq]
theorem slt_bit32 : (if x.toInt < y.toInt then 1 else 0) = bit32 (x.slt y) := by simp [bit32, BitVec.slt]
theorem ult_bit32 : (if x.toNat < y.toNat then 1 else 0) = bit32 (x.ult y) := by simp [bit32, BitVec.ult]
theorem sle_bit32 : (if x.toInt ≤ y.toInt then 1 else 0) = bit32 (x.sle y) := by simp [bit32, BitVec.sle]
theorem ule_bit32 : (if x.toNat ≤ y.toNat then 1 else 0) = bit32 (x.ule y) := by simp [bit32, BitVec.ule]

theorem ofNat_half (i : Half) : BitVec.ofNat 32 (65536 * i.toNat + x.toNat % 65536) = i ++ x.truncate 16 := by
  apply BitVec.eq_of_toNat_eq
  have h1 : (i ++ x.truncate 16 : BitVec 32).toNat = i.toNat <<< 16 ||| (x.truncate 16).toNat := BitVec.toNat_append _ _
  have h2 : (x.truncate 16).toNat = x.toNat % 65536 := by simp
  rw [h1, h2, BitVec.toNat_ofNat, ← Nat.shiftLeft_add_eq_or_of_lt (by omega), Nat.shiftLeft_eq]
  have := i.isLt
  omega

theorem sel_eq (old : Word) : (if old = 0 then y else x) = if old != 0 then x else y := by
  by_cases h : old = 0 <;> simp [h]

theorem permByte_eq (pool : BitVec 64) (k : Nat) :
    (permByte pool k).toNat = 
      if k < 8 then pool.toNat / 256 ^ (k % 8) % 256 else if pool.toNat / 256 ^ (k % 8) % 256 < 128 then 0 else 255 := by
  have h : ((pool >>> (8 * (k % 8))).truncate 8 : Byte).toNat = pool.toNat / 256 ^ (k % 8) % 256 := by
    simp [Nat.shiftRight_eq_div_pow, Nat.pow_mul]
  unfold permByte
  simp only
  split
  · exact h
  · rw [BitVec.msb_eq_decide, h]
    by_cases h2 : pool.toNat / 256 ^ (k % 8) % 256 < 128
    · rw [if_pos h2, if_neg (by simpa using h2)]; rfl
    · rw [if_neg h2, if_pos (by simpa using h2)]; rfl

theorem bytes_eq (b0 b1 b2 b3 : Byte) :
    BitVec.ofNat 32 (b0.toNat + 256 * b1.toNat + 65536 * b2.toNat + 16777216 * b3.toNat) = b3 ++ b2 ++ b1 ++ b0 := by
  apply BitVec.eq_of_toNat_eq
  have h0 := b0.isLt; have h1 := b1.isLt; have h2 := b2.isLt; have h3 := b3.isLt
  have e1 : (b3 ++ b2 : BitVec 16).toNat = 256 * b3.toNat + b2.toNat := by
    rw [BitVec.toNat_append, ← Nat.shiftLeft_add_eq_or_of_lt h2, Nat.shiftLeft_eq]; omega
  have e2 : (b3 ++ b2 ++ b1 : BitVec 24).toNat = 256 * (256 * b3.toNat + b2.toNat) + b1.toNat := by
    rw [BitVec.toNat_append, ← Nat.shiftLeft_add_eq_or_of_lt h1, Nat.shiftLeft_eq, e1]; omega
  have e3 : (b3 ++ b2 ++ b1 ++ b0 : BitVec 32).toNat =
      256 * (256 * (256 * b3.toNat + b2.toNat) + b1.toNat) + b0.toNat := by
    rw [BitVec.toNat_append, ← Nat.shiftLeft_add_eq_or_of_lt h0, Nat.shiftLeft_eq, e2]; omega
  rw [e3, BitVec.toNat_ofNat]; omega

theorem perm_eq (old : Word) :
    (let pool := y ++ x
     let byte (k : Nat) : Nat :=
       let n := old.toNat / 16 ^ k % 16
       let m := pool.toNat / 256 ^ (n % 8) % 256
       if n < 8 then m else if m < 128 then 0 else 255
     BitVec.ofNat 32 (byte 0 + 256 * byte 1 + 65536 * byte 2 + 16777216 * byte 3)) =
    (let pool := y ++ x
     let at' (k : Nat) := permByte pool (old.toNat / 16 ^ k % 16)
     at' 3 ++ at' 2 ++ at' 1 ++ at' 0) := by
  simp only [← bytes_eq, permByte_eq]

/-- Both spellings of the source of an element of CVT2. -/
theorem cvt2_eq (f : Nat → Word → Nat × Flags) :
    packed (fun i => f i (if i = 0 then x else y)) = packed (fun i => f i (if i == 0 then x else y)) := by
  simp only [beq_iff_eq]

end

section
variable (x y : DWord)
theorem eq_bit64 : (if x.toNat = y.toNat then 1 else 0) = bit64 (x == y) := by
  unfold bit64; simp only [BitVec.toNat_inj, beq_iff_eq]
theorem ne_bit64 : (if x.toNat = y.toNat then 0 else 1) = bit64 (x != y) := by
  unfold bit64; by_cases h : x = y <;> simp [h, BitVec.toNat_inj]
theorem slt_bit64 : (if x.toInt < y.toInt then 1 else 0) = bit64 (x.slt y) := by simp [bit64, BitVec.slt]
theorem ult_bit64 : (if x.toNat < y.toNat then 1 else 0) = bit64 (x.ult y) := by simp [bit64, BitVec.ult]
theorem sle_bit64 : (if x.toInt ≤ y.toInt then 1 else 0) = bit64 (x.sle y) := by simp [bit64, BitVec.sle]
theorem ule_bit64 : (if x.toNat ≤ y.toNat then 1 else 0) = bit64 (x.ule y) := by simp [bit64, BitVec.ule]
theorem eqi_bit64 (i : BitVec 12) : (if x.toInt = i.toInt then 1 else 0) = bit64 (x == i.signExtend 64) := by
  unfold bit64; simp only [beq_iff_eq, ← BitVec.toInt_inj, BitVec.toInt_signExtend_of_le (show 12 ≤ 64 by omega)]
theorem slti_bit64 (i : BitVec 12) : (if x.toInt < i.toInt then 1 else 0) = bit64 (x.slt (i.signExtend 64)) := by
  simp [bit64, BitVec.slt, BitVec.toInt_signExtend_of_le]
theorem ulti_bit64 (i : BitVec 12) :
    (if x.toNat < (BitVec.ofInt 64 i.toInt).toNat then 1 else 0) = bit64 (x.ult (i.signExtend 64)) := ult_bit64 _ _
theorem movx_eq (i : BitVec 18) : BitVec.ofNat 64 (x.toNat * 2 ^ 18 + i.toNat) = x <<< 18 ||| i.zeroExtend 64 := by
  apply BitVec.eq_of_toNat_eq
  have := i.isLt
  have h : (i.zeroExtend 64).toNat = i.toNat := by simp; omega
  rw [BitVec.toNat_or, h, BitVec.toNat_shiftLeft, BitVec.toNat_ofNat]
  have h2 : x.toNat <<< 18 % 2 ^ 64 = (x.toNat % 2 ^ 46) <<< 18 := by
    rw [Nat.shiftLeft_eq, Nat.shiftLeft_eq]; omega
  rw [h2, ← Nat.shiftLeft_add_eq_or_of_lt this, Nat.shiftLeft_eq]; omega
end

/-! ## One lemma per row -/

theorem exec_addLr_row (d : BitVec 8) (a b : Src) (s : State) : exec (.addLr d a b) s =
    laneInt (encode (.addLr d a b)) d [a, b] false (fun v _ => let x := v a; let y := v b; BitVec.ofNat 32 (x.toNat + y.toNat)) s := by
  rw [exec_addLr, execAddLr, laneAlu]
  exact congrArg (fun g => laneInt _ _ _ _ g s) (funext fun v => funext fun o => Eq.symm (ofNat_add _ _))

theorem exec_subLr_row (d : BitVec 8) (a b : Src) (s : State) : exec (.subLr d a b) s =
    laneInt (encode (.subLr d a b)) d [a, b] false (fun v _ => let x := v a; let y := v b; BitVec.ofInt 32 (x.toInt - y.toInt)) s := by
  rw [exec_subLr, execSubLr, laneAlu]
  exact congrArg (fun g => laneInt _ _ _ _ g s) (funext fun v => funext fun o => Eq.symm (ofInt_sub _ _))

theorem exec_addSatS_row (d : BitVec 8) (a b : Src) (s : State) : exec (.addSatS d a b) s =
    laneInt (encode (.addSatS d a b)) d [a, b] false (fun v _ => let x := v a; let y := v b; BitVec.ofInt 32 (max (-2 ^ 31) (min (2 ^ 31 - 1) (x.toInt + y.toInt)))) s := by
  rw [exec_addSatS, execAddSatS, laneAlu]
  exact congrArg (fun g => laneInt _ _ _ _ g s) (funext fun v => funext fun o => Eq.symm ((clampWord_eq _).symm))

theorem exec_addSatU_row (d : BitVec 8) (a b : Src) (s : State) : exec (.addSatU d a b) s =
    laneInt (encode (.addSatU d a b)) d [a, b] false (fun v _ => let x := v a; let y := v b; BitVec.ofNat 32 (min (2 ^ 32 - 1) (x.toNat + y.toNat))) s := by
  rw [exec_addSatU, execAddSatU, laneAlu]
  exact congrArg (fun g => laneInt _ _ _ _ g s) (funext fun v => funext fun o => Eq.symm (congrArg (BitVec.ofNat 32) (Nat.min_comm _ _)))

theorem exec_subSatS_row (d : BitVec 8) (a b : Src) (s : State) : exec (.subSatS d a b) s =
    laneInt (encode (.subSatS d a b)) d [a, b] false (fun v _ => let x := v a; let y := v b; BitVec.ofInt 32 (max (-2 ^ 31) (min (2 ^ 31 - 1) (x.toInt - y.toInt)))) s := by
  rw [exec_subSatS, execSubSatS, laneAlu]
  exact congrArg (fun g => laneInt _ _ _ _ g s) (funext fun v => funext fun o => Eq.symm ((clampWord_eq _).symm))

theorem exec_subSatU_row (d : BitVec 8) (a b : Src) (s : State) : exec (.subSatU d a b) s =
    laneInt (encode (.subSatU d a b)) d [a, b] false (fun v _ => let x := v a; let y := v b; BitVec.ofInt 32 (max 0 ((x.toNat : Int) - y.toNat))) s := by
  rw [exec_subSatU, execSubSatU, laneAlu]
  exact congrArg (fun g => laneInt _ _ _ _ g s) (funext fun v => funext fun o => Eq.symm (ofInt_satSub _ _))

theorem exec_mulLr_row (d : BitVec 8) (a b : Src) (s : State) : exec (.mulLr d a b) s =
    laneInt (encode (.mulLr d a b)) d [a, b] false (fun v _ => let x := v a; let y := v b; BitVec.ofNat 32 (x.toNat * y.toNat)) s := by
  rw [exec_mulLr, execMulLr, laneAlu]
  exact congrArg (fun g => laneInt _ _ _ _ g s) (funext fun v => funext fun o => Eq.symm (ofNat_mul _ _))

theorem exec_mulhiULr_row (d : BitVec 8) (a b : Src) (s : State) : exec (.mulhiULr d a b) s =
    laneInt (encode (.mulhiULr d a b)) d [a, b] false (fun v _ => let x := v a; let y := v b; BitVec.ofNat 32 (x.toNat * y.toNat / 2 ^ 32)) s := by
  rw [exec_mulhiULr, execMulhiULr, laneAlu]
  rfl

theorem exec_minSLr_row (d : BitVec 8) (a b : Src) (s : State) : exec (.minSLr d a b) s =
    laneInt (encode (.minSLr d a b)) d [a, b] false (fun v _ => let x := v a; let y := v b; BitVec.ofInt 32 (min x.toInt y.toInt)) s := by
  rw [exec_minSLr, execMinSLr, laneAlu]
  exact congrArg (fun g => laneInt _ _ _ _ g s) (funext fun v => funext fun o => Eq.symm (ofInt_min _ _))

theorem exec_minULr_row (d : BitVec 8) (a b : Src) (s : State) : exec (.minULr d a b) s =
    laneInt (encode (.minULr d a b)) d [a, b] false (fun v _ => let x := v a; let y := v b; BitVec.ofNat 32 (min x.toNat y.toNat)) s := by
  rw [exec_minULr, execMinULr, laneAlu]
  exact congrArg (fun g => laneInt _ _ _ _ g s) (funext fun v => funext fun o => Eq.symm (ofNat_min _ _))

theorem exec_maxSLr_row (d : BitVec 8) (a b : Src) (s : State) : exec (.maxSLr d a b) s =
    laneInt (encode (.maxSLr d a b)) d [a, b] false (fun v _ => let x := v a; let y := v b; BitVec.ofInt 32 (max x.toInt y.toInt)) s := by
  rw [exec_maxSLr, execMaxSLr, laneAlu]
  exact congrArg (fun g => laneInt _ _ _ _ g s) (funext fun v => funext fun o => Eq.symm (ofInt_max _ _))

theorem exec_maxULr_row (d : BitVec 8) (a b : Src) (s : State) : exec (.maxULr d a b) s =
    laneInt (encode (.maxULr d a b)) d [a, b] false (fun v _ => let x := v a; let y := v b; BitVec.ofNat 32 (max x.toNat y.toNat)) s := by
  rw [exec_maxULr, execMaxULr, laneAlu]
  exact congrArg (fun g => laneInt _ _ _ _ g s) (funext fun v => funext fun o => Eq.symm (ofNat_max _ _))

theorem exec_andLr_row (d : BitVec 8) (a b : Src) (s : State) : exec (.andLr d a b) s =
    laneInt (encode (.andLr d a b)) d [a, b] false (fun v _ => let x := v a; let y := v b; x &&& y) s := by
  rw [exec_andLr, execAndLr, laneAlu]

theorem exec_orLr_row (d : BitVec 8) (a b : Src) (s : State) : exec (.orLr d a b) s =
    laneInt (encode (.orLr d a b)) d [a, b] false (fun v _ => let x := v a; let y := v b; x ||| y) s := by
  rw [exec_orLr, execOrLr, laneAlu]

theorem exec_xorLr_row (d : BitVec 8) (a b : Src) (s : State) : exec (.xorLr d a b) s =
    laneInt (encode (.xorLr d a b)) d [a, b] false (fun v _ => let x := v a; let y := v b; x ^^^ y) s := by
  rw [exec_xorLr, execXorLr, laneAlu]

theorem exec_shlLr_row (d : BitVec 8) (a b : Src) (s : State) : exec (.shlLr d a b) s =
    laneInt (encode (.shlLr d a b)) d [a, b] false (fun v _ => let x := v a; let y := v b; BitVec.ofNat 32 (x.toNat * 2 ^ (y.toNat % 32))) s := by
  rw [exec_shlLr, execShlLr, laneAlu]
  exact congrArg (fun g => laneInt _ _ _ _ g s) (funext fun v => funext fun o => Eq.symm (ofNat_shl _ _))

theorem exec_shrULr_row (d : BitVec 8) (a b : Src) (s : State) : exec (.shrULr d a b) s =
    laneInt (encode (.shrULr d a b)) d [a, b] false (fun v _ => let x := v a; let y := v b; BitVec.ofNat 32 (x.toNat / 2 ^ (y.toNat % 32))) s := by
  rw [exec_shrULr, execShrULr, laneAlu]
  exact congrArg (fun g => laneInt _ _ _ _ g s) (funext fun v => funext fun o => Eq.symm (ofNat_shr _ _))

theorem exec_shrSLr_row (d : BitVec 8) (a b : Src) (s : State) : exec (.shrSLr d a b) s =
    laneInt (encode (.shrSLr d a b)) d [a, b] false (fun v _ => let x := v a; let y := v b; BitVec.ofInt 32 (x.toInt / 2 ^ (y.toNat % 32))) s := by
  rw [exec_shrSLr, execShrSLr, laneAlu]
  exact congrArg (fun g => laneInt _ _ _ _ g s) (funext fun v => funext fun o => Eq.symm (ofInt_sar _ _))

theorem exec_cmpeqLr_row (d : BitVec 8) (a b : Src) (s : State) : exec (.cmpeqLr d a b) s =
    laneInt (encode (.cmpeqLr d a b)) d [a, b] false (fun v _ => let x := v a; let y := v b; if x.toNat = y.toNat then 1 else 0) s := by
  rw [exec_cmpeqLr, execCmpeqLr, laneAlu]
  exact congrArg (fun g => laneInt _ _ _ _ g s) (funext fun v => funext fun o => Eq.symm (eq_bit32 _ _))

theorem exec_cmpltSLr_row (d : BitVec 8) (a b : Src) (s : State) : exec (.cmpltSLr d a b) s =
    laneInt (encode (.cmpltSLr d a b)) d [a, b] false (fun v _ => let x := v a; let y := v b; if x.toInt < y.toInt then 1 else 0) s := by
  rw [exec_cmpltSLr, execCmpltSLr, laneAlu]
  exact congrArg (fun g => laneInt _ _ _ _ g s) (funext fun v => funext fun o => Eq.symm (slt_bit32 _ _))

theorem exec_cmpltULr_row (d : BitVec 8) (a b : Src) (s : State) : exec (.cmpltULr d a b) s =
    laneInt (encode (.cmpltULr d a b)) d [a, b] false (fun v _ => let x := v a; let y := v b; if x.toNat < y.toNat then 1 else 0) s := by
  rw [exec_cmpltULr, execCmpltULr, laneAlu]
  exact congrArg (fun g => laneInt _ _ _ _ g s) (funext fun v => funext fun o => Eq.symm (ult_bit32 _ _))

theorem exec_cmpleSLr_row (d : BitVec 8) (a b : Src) (s : State) : exec (.cmpleSLr d a b) s =
    laneInt (encode (.cmpleSLr d a b)) d [a, b] false (fun v _ => let x := v a; let y := v b; if x.toInt ≤ y.toInt then 1 else 0) s := by
  rw [exec_cmpleSLr, execCmpleSLr, laneAlu]
  exact congrArg (fun g => laneInt _ _ _ _ g s) (funext fun v => funext fun o => Eq.symm (sle_bit32 _ _))

theorem exec_cmpleULr_row (d : BitVec 8) (a b : Src) (s : State) : exec (.cmpleULr d a b) s =
    laneInt (encode (.cmpleULr d a b)) d [a, b] false (fun v _ => let x := v a; let y := v b; if x.toNat ≤ y.toNat then 1 else 0) s := by
  rw [exec_cmpleULr, execCmpleULr, laneAlu]
  exact congrArg (fun g => laneInt _ _ _ _ g s) (funext fun v => funext fun o => Eq.symm (ule_bit32 _ _))

theorem exec_addLi_row (d : BitVec 8) (a : Src) (i : BitVec 8) (s : State) : exec (.addLi d a i) s =
    laneInt (encode (.addLi d a i)) d [a] false (fun v _ => let x := v a; BitVec.ofInt 32 (x.toInt + i.toInt)) s := by
  rw [exec_addLi, execAddLi, laneUnary]
  exact congrArg (fun g => laneInt _ _ _ _ g s) (funext fun v => funext fun o => Eq.symm (ofInt_addImm _ _))

theorem exec_andLi_row (d : BitVec 8) (a : Src) (i : BitVec 8) (s : State) : exec (.andLi d a i) s =
    laneInt (encode (.andLi d a i)) d [a] false (fun v _ => let x := v a; x &&& BitVec.ofNat 32 i.toNat) s := by
  rw [exec_andLi, execAndLi, laneUnary]
  exact congrArg (fun g => laneInt _ _ _ _ g s) (funext fun v => funext fun o => Eq.symm (congrArg (v a &&& ·) (ofNat_zext i)))

theorem exec_orLi_row (d : BitVec 8) (a : Src) (i : BitVec 8) (s : State) : exec (.orLi d a i) s =
    laneInt (encode (.orLi d a i)) d [a] false (fun v _ => let x := v a; x ||| BitVec.ofNat 32 i.toNat) s := by
  rw [exec_orLi, execOrLi, laneUnary]
  exact congrArg (fun g => laneInt _ _ _ _ g s) (funext fun v => funext fun o => Eq.symm (congrArg (v a ||| ·) (ofNat_zext i)))

theorem exec_xorLi_row (d : BitVec 8) (a : Src) (i : BitVec 8) (s : State) : exec (.xorLi d a i) s =
    laneInt (encode (.xorLi d a i)) d [a] false (fun v _ => let x := v a; x ^^^ BitVec.ofNat 32 i.toNat) s := by
  rw [exec_xorLi, execXorLi, laneUnary]
  exact congrArg (fun g => laneInt _ _ _ _ g s) (funext fun v => funext fun o => Eq.symm (congrArg (v a ^^^ ·) (ofNat_zext i)))

theorem exec_shlLi_row (d : BitVec 8) (a : Src) (i : BitVec 5) (s : State) : exec (.shlLi d a i) s =
    laneInt (encode (.shlLi d a i)) d [a] false (fun v _ => let x := v a; BitVec.ofNat 32 (x.toNat * 2 ^ i.toNat)) s := by
  rw [exec_shlLi, execShlLi, laneUnary]
  exact congrArg (fun g => laneInt _ _ _ _ g s) (funext fun v => funext fun o => Eq.symm (ofNat_shl _ _))

theorem exec_shrULi_row (d : BitVec 8) (a : Src) (i : BitVec 5) (s : State) : exec (.shrULi d a i) s =
    laneInt (encode (.shrULi d a i)) d [a] false (fun v _ => let x := v a; BitVec.ofNat 32 (x.toNat / 2 ^ i.toNat)) s := by
  rw [exec_shrULi, execShrULi, laneUnary]
  exact congrArg (fun g => laneInt _ _ _ _ g s) (funext fun v => funext fun o => Eq.symm (ofNat_shr _ _))

theorem exec_shrSLi_row (d : BitVec 8) (a : Src) (i : BitVec 5) (s : State) : exec (.shrSLi d a i) s =
    laneInt (encode (.shrSLi d a i)) d [a] false (fun v _ => let x := v a; BitVec.ofInt 32 (x.toInt / 2 ^ i.toNat)) s := by
  rw [exec_shrSLi, execShrSLi, laneUnary]
  exact congrArg (fun g => laneInt _ _ _ _ g s) (funext fun v => funext fun o => Eq.symm (ofInt_sar _ _))

theorem exec_notL_row (d : BitVec 8) (a : Src) (s : State) : exec (.notL d a) s =
    laneInt (encode (.notL d a)) d [a] false (fun v _ => let x := v a; BitVec.ofNat 32 (2 ^ 32 - 1 - x.toNat)) s := by
  rw [exec_notL, execNotL, laneUnary]
  exact congrArg (fun g => laneInt _ _ _ _ g s) (funext fun v => funext fun o => Eq.symm (ofNat_not _))

theorem exec_negL_row (d : BitVec 8) (a : Src) (s : State) : exec (.negL d a) s =
    laneInt (encode (.negL d a)) d [a] false (fun v _ => let x := v a; BitVec.ofInt 32 (-x.toInt)) s := by
  rw [exec_negL, execNegL, laneUnary]
  exact congrArg (fun g => laneInt _ _ _ _ g s) (funext fun v => funext fun o => Eq.symm (ofInt_neg _))

theorem exec_absL_row (d : BitVec 8) (a : Src) (s : State) : exec (.absL d a) s =
    laneInt (encode (.absL d a)) d [a] false (fun v _ => let x := v a; BitVec.ofNat 32 x.toInt.natAbs) s := by
  rw [exec_absL, execAbsL, laneUnary]
  exact congrArg (fun g => laneInt _ _ _ _ g s) (funext fun v => funext fun o => Eq.symm (ofNat_abs _))

theorem exec_popcL_row (d : BitVec 8) (a : Src) (s : State) : exec (.popcL d a) s =
    laneInt (encode (.popcL d a)) d [a] false (fun v _ => let x := v a; BitVec.ofNat 32 ((List.range 32).filter x.getLsbD).length) s := by
  rw [exec_popcL, execPopcL, laneUnary]
  exact congrArg (fun g => laneInt _ _ _ _ g s) (funext fun v => funext fun o => Eq.symm (congrArg (BitVec.ofNat 32) (popCount_eq _).symm))

theorem exec_clzL_row (d : BitVec 8) (a : Src) (s : State) : exec (.clzL d a) s =
    laneInt (encode (.clzL d a)) d [a] false (fun v _ => let x := v a; BitVec.ofNat 32 ((List.range 32).filter fun i => decide (x.toNat < 2 ^ i)).length) s := by
  rw [exec_clzL, execClzL, laneUnary]
  exact congrArg (fun g => laneInt _ _ _ _ g s) (funext fun v => funext fun o => Eq.symm (congrArg (BitVec.ofNat 32) (leadingZeros_eq _).symm))

theorem exec_brevL_row (d : BitVec 8) (a : Src) (s : State) : exec (.brevL d a) s =
    laneInt (encode (.brevL d a)) d [a] false (fun v _ => let x := v a; x.reverse) s := by
  rw [exec_brevL, execBrevL, laneUnary]
  rfl

theorem exec_sextBL_row (d : BitVec 8) (a : Src) (s : State) : exec (.sextBL d a) s =
    laneInt (encode (.sextBL d a)) d [a] false (fun v _ => let x := v a; BitVec.ofInt 32 (BitVec.ofNat 8 x.toNat).toInt) s := by
  rw [exec_sextBL, execSextBL, laneUnary]
  exact congrArg (fun g => laneInt _ _ _ _ g s) (funext fun v => funext fun o => Eq.symm (congrArg (fun (z : BitVec 8) => z.signExtend 32) (ofNat_trunc _)))

theorem exec_sextHL_row (d : BitVec 8) (a : Src) (s : State) : exec (.sextHL d a) s =
    laneInt (encode (.sextHL d a)) d [a] false (fun v _ => let x := v a; BitVec.ofInt 32 (BitVec.ofNat 16 x.toNat).toInt) s := by
  rw [exec_sextHL, execSextHL, laneUnary]
  exact congrArg (fun g => laneInt _ _ _ _ g s) (funext fun v => funext fun o => Eq.symm (congrArg (fun (z : BitVec 16) => z.signExtend 32) (ofNat_trunc _)))

theorem exec_movL_row (d : BitVec 8) (a : Src) (s : State) : exec (.movL d a) s =
    laneInt (encode (.movL d a)) d [a] false (fun v _ => let x := v a; x) s := by
  rw [exec_movL, execMovL, laneUnary]

theorem exec_moviL_row (d : BitVec 8) (i : BitVec 16) (s : State) : exec (.moviL d i) s =
    laneInt (encode (.moviL d i)) d [] false (fun _ _ => BitVec.ofInt 32 i.toInt) s := by
  rw [exec_moviL, execMoviL]
  rfl

theorem exec_movh_row (d : BitVec 8) (i : BitVec 16) (s : State) : exec (.movh d i) s =
    laneInt (encode (.movh d i)) d [] true (fun _ old => BitVec.ofNat 32 (65536 * i.toNat + old.toNat % 65536)) s := by
  rw [exec_movh, execMovh]
  exact congrArg (fun g => laneInt _ _ _ _ g s) (funext fun v => funext fun o => Eq.symm (ofNat_half _ _))

theorem exec_sel_row (d : BitVec 8) (a b : Src) (s : State) : exec (.sel d a b) s =
    laneInt (encode (.sel d a b)) d [a, b] true (fun v old => if old = 0 then v b else v a) s := by
  rw [exec_sel, execSel]
  exact congrArg (fun g => laneInt _ _ _ _ g s) (funext fun v => funext fun o => Eq.symm (sel_eq _ _ _))

theorem exec_perm_row (d : BitVec 8) (a b : Src) (s : State) : exec (.perm d a b) s =
    laneInt (encode (.perm d a b)) d [a, b] true (fun v old =>
      let pool := v b ++ v a
      let byte (k : Nat) : Nat :=
        let n := old.toNat / 16 ^ k % 16
        let m := pool.toNat / 256 ^ (n % 8) % 256
        if n < 8 then m else if m < 128 then 0 else 255
      BitVec.ofNat 32 (byte 0 + 256 * byte 1 + 65536 * byte 2 + 16777216 * byte 3)) s := by
  rw [exec_perm, execPerm]
  exact congrArg (fun g => laneInt _ _ _ _ g s) (funext fun v => funext fun o => Eq.symm (perm_eq _ _ _))

theorem exec_fadd_row (d : BitVec 8) (a b : Src) (s : State) : exec (.fadd d a b) s =
    laneOp (encode (.fadd d a b)) d [a, b] false (fun r v _ => let x := v a; let y := v b; wordOf (Fmt.f32.add 32 r (readF32 x) (readF32 y))) s := by
  rw [exec_fadd, execFadd, fp2]

theorem exec_fsub_row (d : BitVec 8) (a b : Src) (s : State) : exec (.fsub d a b) s =
    laneOp (encode (.fsub d a b)) d [a, b] false (fun r v _ => let x := v a; let y := v b; wordOf (Fmt.f32.add 32 r (readF32 x) (readF32 y).neg)) s := by
  rw [exec_fsub, execFsub, fp2]

theorem exec_fmul_row (d : BitVec 8) (a b : Src) (s : State) : exec (.fmul d a b) s =
    laneOp (encode (.fmul d a b)) d [a, b] false (fun r v _ => let x := v a; let y := v b; wordOf (Fmt.f32.mul 32 r (readF32 x) (readF32 y))) s := by
  rw [exec_fmul, execFmul, fp2]

theorem exec_fmin_row (d : BitVec 8) (a b : Src) (s : State) : exec (.fmin d a b) s =
    laneOp (encode (.fmin d a b)) d [a, b] false (fun _ v _ => let x := v a; let y := v b; wordOf (Fmt.f32.minMax 32 false x.toNat y.toNat)) s := by
  rw [exec_fmin, execFmin, fp2]

theorem exec_fmax_row (d : BitVec 8) (a b : Src) (s : State) : exec (.fmax d a b) s =
    laneOp (encode (.fmax d a b)) d [a, b] false (fun _ v _ => let x := v a; let y := v b; wordOf (Fmt.f32.minMax 32 true x.toNat y.toNat)) s := by
  rw [exec_fmax, execFmax, fp2]

theorem exec_ffma_row (d : BitVec 8) (a b : Src) (s : State) : exec (.ffma d a b) s =
    laneOp (encode (.ffma d a b)) d [a, b] true (fun r v old => wordOf (Fmt.f32.fma 32 r (readF32 (v a)) (readF32 (v b)) (readF32 old))) s := by
  rw [exec_ffma, execFfma, fp3]

theorem exec_ffnma_row (d : BitVec 8) (a b : Src) (s : State) : exec (.ffnma d a b) s =
    laneOp (encode (.ffnma d a b)) d [a, b] true (fun r v old => wordOf (Fmt.f32.fnma 32 r (readF32 (v a)) (readF32 (v b)) (readF32 old))) s := by
  rw [exec_ffnma, execFfnma, fp3]

theorem exec_frcp_row (d : BitVec 8) (a : Src) (s : State) : exec (.frcp d a) s =
    laneOp (encode (.frcp d a)) d [a] false (fun r v _ => wordOf (recipF32 r (readF32 (v a)))) s := by
  rw [exec_frcp, execFrcp, fp1]

theorem exec_fsqrt_row (d : BitVec 8) (a : Src) (s : State) : exec (.fsqrt d a) s =
    laneOp (encode (.fsqrt d a)) d [a] false (fun r v _ => wordOf (sqrtF32 r (readF32 (v a)))) s := by
  rw [exec_fsqrt, execFsqrt, fp1]

theorem exec_frsq_row (d : BitVec 8) (a : Src) (s : State) : exec (.frsq d a) s =
    laneOp (encode (.frsq d a)) d [a] false (fun r v _ => wordOf (rsqrtF32 r (readF32 (v a)))) s := by
  rw [exec_frsq, execFrsq, fp1]

theorem exec_fexp2_row (d : BitVec 8) (a : Src) (s : State) : exec (.fexp2 d a) s =
    laneOp (encode (.fexp2 d a)) d [a] false (fun r v _ => wordOf (exp2F32 r (readF32 (v a)))) s := by
  rw [exec_fexp2, execFexp2, fp1]

theorem exec_flog2_row (d : BitVec 8) (a : Src) (s : State) : exec (.flog2 d a) s =
    laneOp (encode (.flog2 d a)) d [a] false (fun r v _ => wordOf (log2F32 r (readF32 (v a)))) s := by
  rw [exec_flog2, execFlog2, fp1]

theorem exec_fcmpeq_row (d : BitVec 8) (a b : Src) (s : State) : exec (.fcmpeq d a b) s =
    laneOp (encode (.fcmpeq d a b)) d [a, b] false (fun _ v _ => cmpF32 FVal.eq false (v a) (v b)) s := by
  rw [exec_fcmpeq, execFcmpeq, fp2]

theorem exec_fcmplt_row (d : BitVec 8) (a b : Src) (s : State) : exec (.fcmplt d a b) s =
    laneOp (encode (.fcmplt d a b)) d [a, b] false (fun _ v _ => cmpF32 FVal.lt true (v a) (v b)) s := by
  rw [exec_fcmplt, execFcmplt, fp2]

theorem exec_fcmple_row (d : BitVec 8) (a b : Src) (s : State) : exec (.fcmple d a b) s =
    laneOp (encode (.fcmple d a b)) d [a, b] false (fun _ v _ => cmpF32 (fun u v => u.lt v || u.eq v) true (v a) (v b)) s := by
  rw [exec_fcmple, execFcmple, fp2]

theorem exec_fcmpun_row (d : BitVec 8) (a b : Src) (s : State) : exec (.fcmpun d a b) s =
    laneOp (encode (.fcmpun d a b)) d [a, b] false (fun _ v _ => cmpF32 (fun u v => u.isNan || v.isNan) false (v a) (v b)) s := by
  rw [exec_fcmpun, execFcmpun, fp2]

theorem exec_hadd2F16_row (d : BitVec 8) (a b : Src) (s : State) : exec (.hadd2F16 d a b) s =
    laneOp (encode (.hadd2F16 d a b)) d [a, b] false (fun r v _ => packed fun i => Fmt.f16.add 16 r (readHalf .f16 (v a) i) (readHalf .f16 (v b) i)) s := by
  rw [exec_hadd2F16, execHadd2F16, packed3]

theorem exec_hsub2F16_row (d : BitVec 8) (a b : Src) (s : State) : exec (.hsub2F16 d a b) s =
    laneOp (encode (.hsub2F16 d a b)) d [a, b] false (fun r v _ => packed fun i => Fmt.f16.add 16 r (readHalf .f16 (v a) i) (readHalf .f16 (v b) i).neg) s := by
  rw [exec_hsub2F16, execHsub2F16, packed3]

theorem exec_hmul2F16_row (d : BitVec 8) (a b : Src) (s : State) : exec (.hmul2F16 d a b) s =
    laneOp (encode (.hmul2F16 d a b)) d [a, b] false (fun r v _ => packed fun i => Fmt.f16.mul 16 r (readHalf .f16 (v a) i) (readHalf .f16 (v b) i)) s := by
  rw [exec_hmul2F16, execHmul2F16, packed3]

theorem exec_hfma2F16_row (d : BitVec 8) (a b : Src) (s : State) : exec (.hfma2F16 d a b) s =
    laneOp (encode (.hfma2F16 d a b)) d [a, b] true (fun r v old => packed fun i => Fmt.f16.fma 16 r (readHalf .f16 (v a) i) (readHalf .f16 (v b) i) (readHalf .f16 old i)) s := by
  rw [exec_hfma2F16, execHfma2F16, packed3]

theorem exec_hmin2F16_row (d : BitVec 8) (a b : Src) (s : State) : exec (.hmin2F16 d a b) s =
    laneOp (encode (.hmin2F16 d a b)) d [a, b] false (fun _ v _ => packed fun i => Fmt.f16.minMax 16 false (element (v a) i).toNat (element (v b) i).toNat) s := by
  rw [exec_hmin2F16, execHmin2F16, packed3]

theorem exec_hmax2F16_row (d : BitVec 8) (a b : Src) (s : State) : exec (.hmax2F16 d a b) s =
    laneOp (encode (.hmax2F16 d a b)) d [a, b] false (fun _ v _ => packed fun i => Fmt.f16.minMax 16 true (element (v a) i).toNat (element (v b) i).toNat) s := by
  rw [exec_hmax2F16, execHmax2F16, packed3]

theorem exec_cvt2F16_row (d : BitVec 8) (a b : Src) (s : State) : exec (.cvt2F16 d a b) s =
    laneOp (encode (.cvt2F16 d a b)) d [a, b] false (fun r v _ => packed fun i => Fmt.f16.convert 16 r (readF32 (if i = 0 then v a else v b))) s := by
  rw [exec_cvt2F16, execCvt2F16, packed3]
  exact congrArg (fun g => laneOp _ _ _ _ g s) (funext fun r => funext fun v => funext fun o => Eq.symm (cvt2_eq (v a) (v b) (fun _ z => Fmt.f16.convert 16 r (readF32 z))))

theorem exec_hdot2F16_row (d : BitVec 8) (a b : Src) (s : State) : exec (.hdot2F16 d a b) s =
    laneOp (encode (.hdot2F16 d a b)) d [a, b] true (fun r v old => dot2 .f16 r (v a) (v b) old) s := by
  rw [exec_hdot2F16, execHdot2F16, fp3]

theorem exec_hadd2Bf16_row (d : BitVec 8) (a b : Src) (s : State) : exec (.hadd2Bf16 d a b) s =
    laneOp (encode (.hadd2Bf16 d a b)) d [a, b] false (fun r v _ => packed fun i => Fmt.bf16.add 16 r (readHalf .bf16 (v a) i) (readHalf .bf16 (v b) i)) s := by
  rw [exec_hadd2Bf16, execHadd2Bf16, packed3]

theorem exec_hsub2Bf16_row (d : BitVec 8) (a b : Src) (s : State) : exec (.hsub2Bf16 d a b) s =
    laneOp (encode (.hsub2Bf16 d a b)) d [a, b] false (fun r v _ => packed fun i => Fmt.bf16.add 16 r (readHalf .bf16 (v a) i) (readHalf .bf16 (v b) i).neg) s := by
  rw [exec_hsub2Bf16, execHsub2Bf16, packed3]

theorem exec_hmul2Bf16_row (d : BitVec 8) (a b : Src) (s : State) : exec (.hmul2Bf16 d a b) s =
    laneOp (encode (.hmul2Bf16 d a b)) d [a, b] false (fun r v _ => packed fun i => Fmt.bf16.mul 16 r (readHalf .bf16 (v a) i) (readHalf .bf16 (v b) i)) s := by
  rw [exec_hmul2Bf16, execHmul2Bf16, packed3]

theorem exec_hfma2Bf16_row (d : BitVec 8) (a b : Src) (s : State) : exec (.hfma2Bf16 d a b) s =
    laneOp (encode (.hfma2Bf16 d a b)) d [a, b] true (fun r v old => packed fun i => Fmt.bf16.fma 16 r (readHalf .bf16 (v a) i) (readHalf .bf16 (v b) i) (readHalf .bf16 old i)) s := by
  rw [exec_hfma2Bf16, execHfma2Bf16, packed3]

theorem exec_hmin2Bf16_row (d : BitVec 8) (a b : Src) (s : State) : exec (.hmin2Bf16 d a b) s =
    laneOp (encode (.hmin2Bf16 d a b)) d [a, b] false (fun _ v _ => packed fun i => Fmt.bf16.minMax 16 false (element (v a) i).toNat (element (v b) i).toNat) s := by
  rw [exec_hmin2Bf16, execHmin2Bf16, packed3]

theorem exec_hmax2Bf16_row (d : BitVec 8) (a b : Src) (s : State) : exec (.hmax2Bf16 d a b) s =
    laneOp (encode (.hmax2Bf16 d a b)) d [a, b] false (fun _ v _ => packed fun i => Fmt.bf16.minMax 16 true (element (v a) i).toNat (element (v b) i).toNat) s := by
  rw [exec_hmax2Bf16, execHmax2Bf16, packed3]

theorem exec_cvt2Bf16_row (d : BitVec 8) (a b : Src) (s : State) : exec (.cvt2Bf16 d a b) s =
    laneOp (encode (.cvt2Bf16 d a b)) d [a, b] false (fun r v _ => packed fun i => Fmt.bf16.convert 16 r (readF32 (if i = 0 then v a else v b))) s := by
  rw [exec_cvt2Bf16, execCvt2Bf16, packed3]
  exact congrArg (fun g => laneOp _ _ _ _ g s) (funext fun r => funext fun v => funext fun o => Eq.symm (cvt2_eq (v a) (v b) (fun _ z => Fmt.bf16.convert 16 r (readF32 z))))

theorem exec_hdot2Bf16_row (d : BitVec 8) (a b : Src) (s : State) : exec (.hdot2Bf16 d a b) s =
    laneOp (encode (.hdot2Bf16 d a b)) d [a, b] true (fun r v old => dot2 .bf16 r (v a) (v b) old) s := by
  rw [exec_hdot2Bf16, execHdot2Bf16, fp3]

/-- CVT (R105). -/
theorem exec_cvt_row (d : BitVec 8) (a : Src) (m : Rnd) (t u : BitVec 3) (h : cvtPair t.toNat u.toNat = true) (s : State) :
    exec (.cvt d a m t u) s = laneOp (encode (.cvt d a m t u)) d [a] false
      (fun _ v _ => cvtTo m t.toNat (cvtSource u.toNat (v a))) s := by
  have h' : cvtLegal t.toNat u.toNat = true := h
  rw [exec_cvt, execCvt]
  simp only [h', if_true]

theorem exec_addU_row (d a b : BitVec 6) (s : State) : exec (.addU d a b) s =
    uniOp (encode (.addU d a b)) d [a, b] (fun u => let x := u a; let y := u b; BitVec.ofNat 64 (x.toNat + y.toNat)) s := by
  rw [exec_addU, execAddU, uniAlu]
  exact congrArg (fun g => uniOp _ _ _ g s) (funext fun u => Eq.symm (ofNat_add _ _))

theorem exec_subU_row (d a b : BitVec 6) (s : State) : exec (.subU d a b) s =
    uniOp (encode (.subU d a b)) d [a, b] (fun u => let x := u a; let y := u b; BitVec.ofInt 64 (x.toInt - y.toInt)) s := by
  rw [exec_subU, execSubU, uniAlu]
  exact congrArg (fun g => uniOp _ _ _ g s) (funext fun u => Eq.symm (ofInt_sub _ _))

theorem exec_mulU_row (d a b : BitVec 6) (s : State) : exec (.mulU d a b) s =
    uniOp (encode (.mulU d a b)) d [a, b] (fun u => let x := u a; let y := u b; BitVec.ofNat 64 (x.toNat * y.toNat)) s := by
  rw [exec_mulU, execMulU, uniAlu]
  exact congrArg (fun g => uniOp _ _ _ g s) (funext fun u => Eq.symm (ofNat_mul _ _))

theorem exec_mulhiSU_row (d a b : BitVec 6) (s : State) : exec (.mulhiSU d a b) s =
    uniOp (encode (.mulhiSU d a b)) d [a, b] (fun u => let x := u a; let y := u b; BitVec.ofInt 64 (x.toInt * y.toInt / 2 ^ 64)) s := by
  rw [exec_mulhiSU, execMulhiSU, uniAlu]
  rfl

theorem exec_mulhiUU_row (d a b : BitVec 6) (s : State) : exec (.mulhiUU d a b) s =
    uniOp (encode (.mulhiUU d a b)) d [a, b] (fun u => let x := u a; let y := u b; BitVec.ofNat 64 (x.toNat * y.toNat / 2 ^ 64)) s := by
  rw [exec_mulhiUU, execMulhiUU, uniAlu]
  rfl

theorem exec_andU_row (d a b : BitVec 6) (s : State) : exec (.andU d a b) s =
    uniOp (encode (.andU d a b)) d [a, b] (fun u => let x := u a; let y := u b; x &&& y) s := by
  rw [exec_andU, execAndU, uniAlu]

theorem exec_orU_row (d a b : BitVec 6) (s : State) : exec (.orU d a b) s =
    uniOp (encode (.orU d a b)) d [a, b] (fun u => let x := u a; let y := u b; x ||| y) s := by
  rw [exec_orU, execOrU, uniAlu]

theorem exec_xorU_row (d a b : BitVec 6) (s : State) : exec (.xorU d a b) s =
    uniOp (encode (.xorU d a b)) d [a, b] (fun u => let x := u a; let y := u b; x ^^^ y) s := by
  rw [exec_xorU, execXorU, uniAlu]

theorem exec_andnU_row (d a b : BitVec 6) (s : State) : exec (.andnU d a b) s =
    uniOp (encode (.andnU d a b)) d [a, b] (fun u => let x := u a; let y := u b; x &&& ~~~y) s := by
  rw [exec_andnU, execAndnU, uniAlu]

theorem exec_shlU_row (d a b : BitVec 6) (s : State) : exec (.shlU d a b) s =
    uniOp (encode (.shlU d a b)) d [a, b] (fun u => let x := u a; let y := u b; BitVec.ofNat 64 (x.toNat * 2 ^ (y.toNat % 64))) s := by
  rw [exec_shlU, execShlU, uniAlu]
  exact congrArg (fun g => uniOp _ _ _ g s) (funext fun u => Eq.symm (ofNat_shl _ _))

theorem exec_shrUU_row (d a b : BitVec 6) (s : State) : exec (.shrUU d a b) s =
    uniOp (encode (.shrUU d a b)) d [a, b] (fun u => let x := u a; let y := u b; BitVec.ofNat 64 (x.toNat / 2 ^ (y.toNat % 64))) s := by
  rw [exec_shrUU, execShrUU, uniAlu]
  exact congrArg (fun g => uniOp _ _ _ g s) (funext fun u => Eq.symm (ofNat_shr _ _))

theorem exec_shrSU_row (d a b : BitVec 6) (s : State) : exec (.shrSU d a b) s =
    uniOp (encode (.shrSU d a b)) d [a, b] (fun u => let x := u a; let y := u b; BitVec.ofInt 64 (x.toInt / 2 ^ (y.toNat % 64))) s := by
  rw [exec_shrSU, execShrSU, uniAlu]
  exact congrArg (fun g => uniOp _ _ _ g s) (funext fun u => Eq.symm (ofInt_sar _ _))

theorem exec_minSU_row (d a b : BitVec 6) (s : State) : exec (.minSU d a b) s =
    uniOp (encode (.minSU d a b)) d [a, b] (fun u => let x := u a; let y := u b; BitVec.ofInt 64 (min x.toInt y.toInt)) s := by
  rw [exec_minSU, execMinSU, uniAlu]
  exact congrArg (fun g => uniOp _ _ _ g s) (funext fun u => Eq.symm (ofInt_min _ _))

theorem exec_minUU_row (d a b : BitVec 6) (s : State) : exec (.minUU d a b) s =
    uniOp (encode (.minUU d a b)) d [a, b] (fun u => let x := u a; let y := u b; BitVec.ofNat 64 (min x.toNat y.toNat)) s := by
  rw [exec_minUU, execMinUU, uniAlu]
  exact congrArg (fun g => uniOp _ _ _ g s) (funext fun u => Eq.symm (ofNat_min _ _))

theorem exec_maxSU_row (d a b : BitVec 6) (s : State) : exec (.maxSU d a b) s =
    uniOp (encode (.maxSU d a b)) d [a, b] (fun u => let x := u a; let y := u b; BitVec.ofInt 64 (max x.toInt y.toInt)) s := by
  rw [exec_maxSU, execMaxSU, uniAlu]
  exact congrArg (fun g => uniOp _ _ _ g s) (funext fun u => Eq.symm (ofInt_max _ _))

theorem exec_maxUU_row (d a b : BitVec 6) (s : State) : exec (.maxUU d a b) s =
    uniOp (encode (.maxUU d a b)) d [a, b] (fun u => let x := u a; let y := u b; BitVec.ofNat 64 (max x.toNat y.toNat)) s := by
  rw [exec_maxUU, execMaxUU, uniAlu]
  exact congrArg (fun g => uniOp _ _ _ g s) (funext fun u => Eq.symm (ofNat_max _ _))

theorem exec_cmpeqU_row (d a b : BitVec 6) (s : State) : exec (.cmpeqU d a b) s =
    uniOp (encode (.cmpeqU d a b)) d [a, b] (fun u => let x := u a; let y := u b; if x.toNat = y.toNat then 1 else 0) s := by
  rw [exec_cmpeqU, execCmpeqU, uniAlu]
  exact congrArg (fun g => uniOp _ _ _ g s) (funext fun u => Eq.symm (eq_bit64 _ _))

theorem exec_cmpneU_row (d a b : BitVec 6) (s : State) : exec (.cmpneU d a b) s =
    uniOp (encode (.cmpneU d a b)) d [a, b] (fun u => let x := u a; let y := u b; if x.toNat = y.toNat then 0 else 1) s := by
  rw [exec_cmpneU, execCmpneU, uniAlu]
  exact congrArg (fun g => uniOp _ _ _ g s) (funext fun u => Eq.symm (ne_bit64 _ _))

theorem exec_cmpltSU_row (d a b : BitVec 6) (s : State) : exec (.cmpltSU d a b) s =
    uniOp (encode (.cmpltSU d a b)) d [a, b] (fun u => let x := u a; let y := u b; if x.toInt < y.toInt then 1 else 0) s := by
  rw [exec_cmpltSU, execCmpltSU, uniAlu]
  exact congrArg (fun g => uniOp _ _ _ g s) (funext fun u => Eq.symm (slt_bit64 _ _))

theorem exec_cmpltUU_row (d a b : BitVec 6) (s : State) : exec (.cmpltUU d a b) s =
    uniOp (encode (.cmpltUU d a b)) d [a, b] (fun u => let x := u a; let y := u b; if x.toNat < y.toNat then 1 else 0) s := by
  rw [exec_cmpltUU, execCmpltUU, uniAlu]
  exact congrArg (fun g => uniOp _ _ _ g s) (funext fun u => Eq.symm (ult_bit64 _ _))

theorem exec_cmpleSU_row (d a b : BitVec 6) (s : State) : exec (.cmpleSU d a b) s =
    uniOp (encode (.cmpleSU d a b)) d [a, b] (fun u => let x := u a; let y := u b; if x.toInt ≤ y.toInt then 1 else 0) s := by
  rw [exec_cmpleSU, execCmpleSU, uniAlu]
  exact congrArg (fun g => uniOp _ _ _ g s) (funext fun u => Eq.symm (sle_bit64 _ _))

theorem exec_cmpleUU_row (d a b : BitVec 6) (s : State) : exec (.cmpleUU d a b) s =
    uniOp (encode (.cmpleUU d a b)) d [a, b] (fun u => let x := u a; let y := u b; if x.toNat ≤ y.toNat then 1 else 0) s := by
  rw [exec_cmpleUU, execCmpleUU, uniAlu]
  exact congrArg (fun g => uniOp _ _ _ g s) (funext fun u => Eq.symm (ule_bit64 _ _))

theorem exec_movU_row (d a : BitVec 6) (s : State) : exec (.movU d a) s =
    uniOp (encode (.movU d a)) d [a] (fun u => let x := u a; x) s := by
  rw [exec_movU, execMovU, uniUnary]

theorem exec_notU_row (d a : BitVec 6) (s : State) : exec (.notU d a) s =
    uniOp (encode (.notU d a)) d [a] (fun u => let x := u a; BitVec.ofNat 64 (2 ^ 64 - 1 - x.toNat)) s := by
  rw [exec_notU, execNotU, uniUnary]
  exact congrArg (fun g => uniOp _ _ _ g s) (funext fun u => Eq.symm (ofNat_not _))

theorem exec_negU_row (d a : BitVec 6) (s : State) : exec (.negU d a) s =
    uniOp (encode (.negU d a)) d [a] (fun u => let x := u a; BitVec.ofInt 64 (-x.toInt)) s := by
  rw [exec_negU, execNegU, uniUnary]
  exact congrArg (fun g => uniOp _ _ _ g s) (funext fun u => Eq.symm (ofInt_neg _))

theorem exec_absU_row (d a : BitVec 6) (s : State) : exec (.absU d a) s =
    uniOp (encode (.absU d a)) d [a] (fun u => let x := u a; BitVec.ofNat 64 x.toInt.natAbs) s := by
  rw [exec_absU, execAbsU, uniUnary]
  exact congrArg (fun g => uniOp _ _ _ g s) (funext fun u => Eq.symm (ofNat_abs _))

theorem exec_popcU_row (d a : BitVec 6) (s : State) : exec (.popcU d a) s =
    uniOp (encode (.popcU d a)) d [a] (fun u => let x := u a; BitVec.ofNat 64 ((List.range 64).filter x.getLsbD).length) s := by
  rw [exec_popcU, execPopcU, uniUnary]
  exact congrArg (fun g => uniOp _ _ _ g s) (funext fun u => Eq.symm (congrArg (BitVec.ofNat 64) (popCount_eq _).symm))

theorem exec_clzU_row (d a : BitVec 6) (s : State) : exec (.clzU d a) s =
    uniOp (encode (.clzU d a)) d [a] (fun u => let x := u a; BitVec.ofNat 64 ((List.range 64).filter fun i => decide (x.toNat < 2 ^ i)).length) s := by
  rw [exec_clzU, execClzU, uniUnary]
  exact congrArg (fun g => uniOp _ _ _ g s) (funext fun u => Eq.symm (congrArg (BitVec.ofNat 64) (leadingZeros_eq _).symm))

theorem exec_brevU_row (d a : BitVec 6) (s : State) : exec (.brevU d a) s =
    uniOp (encode (.brevU d a)) d [a] (fun u => let x := u a; x.reverse) s := by
  rw [exec_brevU, execBrevU, uniUnary]
  rfl

theorem exec_sextBU_row (d a : BitVec 6) (s : State) : exec (.sextBU d a) s =
    uniOp (encode (.sextBU d a)) d [a] (fun u => let x := u a; BitVec.ofInt 64 (BitVec.ofNat 8 x.toNat).toInt) s := by
  rw [exec_sextBU, execSextBU, uniUnary]
  exact congrArg (fun g => uniOp _ _ _ g s) (funext fun u => Eq.symm (congrArg (fun (z : BitVec 8) => z.signExtend 64) (ofNat_trunc _)))

theorem exec_sextHU_row (d a : BitVec 6) (s : State) : exec (.sextHU d a) s =
    uniOp (encode (.sextHU d a)) d [a] (fun u => let x := u a; BitVec.ofInt 64 (BitVec.ofNat 16 x.toNat).toInt) s := by
  rw [exec_sextHU, execSextHU, uniUnary]
  exact congrArg (fun g => uniOp _ _ _ g s) (funext fun u => Eq.symm (congrArg (fun (z : BitVec 16) => z.signExtend 64) (ofNat_trunc _)))

theorem exec_sextWU_row (d a : BitVec 6) (s : State) : exec (.sextWU d a) s =
    uniOp (encode (.sextWU d a)) d [a] (fun u => let x := u a; BitVec.ofInt 64 (BitVec.ofNat 32 x.toNat).toInt) s := by
  rw [exec_sextWU, execSextWU, uniUnary]
  exact congrArg (fun g => uniOp _ _ _ g s) (funext fun u => Eq.symm (congrArg (fun (z : BitVec 32) => z.signExtend 64) (ofNat_trunc _)))

theorem exec_addUi_row (d a : BitVec 6) (i : BitVec 12) (s : State) : exec (.addUi d a i) s =
    uniOp (encode (.addUi d a i)) d [a] (fun u => let x := u a; BitVec.ofInt 64 (x.toInt + i.toInt)) s := by
  rw [exec_addUi, execAddUi, uniUnary]
  exact congrArg (fun g => uniOp _ _ _ g s) (funext fun u => Eq.symm (ofInt_addImm _ _))

theorem exec_andUi_row (d a : BitVec 6) (i : BitVec 12) (s : State) : exec (.andUi d a i) s =
    uniOp (encode (.andUi d a i)) d [a] (fun u => let x := u a; x &&& BitVec.ofNat 64 i.toNat) s := by
  rw [exec_andUi, execAndUi, uniUnary]
  exact congrArg (fun g => uniOp _ _ _ g s) (funext fun u => Eq.symm (congrArg (u a &&& ·) (ofNat_zext i)))

theorem exec_orUi_row (d a : BitVec 6) (i : BitVec 12) (s : State) : exec (.orUi d a i) s =
    uniOp (encode (.orUi d a i)) d [a] (fun u => let x := u a; x ||| BitVec.ofNat 64 i.toNat) s := by
  rw [exec_orUi, execOrUi, uniUnary]
  exact congrArg (fun g => uniOp _ _ _ g s) (funext fun u => Eq.symm (congrArg (u a ||| ·) (ofNat_zext i)))

theorem exec_xorUi_row (d a : BitVec 6) (i : BitVec 12) (s : State) : exec (.xorUi d a i) s =
    uniOp (encode (.xorUi d a i)) d [a] (fun u => let x := u a; x ^^^ BitVec.ofNat 64 i.toNat) s := by
  rw [exec_xorUi, execXorUi, uniUnary]
  exact congrArg (fun g => uniOp _ _ _ g s) (funext fun u => Eq.symm (congrArg (u a ^^^ ·) (ofNat_zext i)))

theorem exec_cmpeqUi_row (d a : BitVec 6) (i : BitVec 12) (s : State) : exec (.cmpeqUi d a i) s =
    uniOp (encode (.cmpeqUi d a i)) d [a] (fun u => let x := u a; if x.toInt = i.toInt then 1 else 0) s := by
  rw [exec_cmpeqUi, execCmpeqUi, uniUnary]
  exact congrArg (fun g => uniOp _ _ _ g s) (funext fun u => Eq.symm (eqi_bit64 _ _))

theorem exec_cmpltSUi_row (d a : BitVec 6) (i : BitVec 12) (s : State) : exec (.cmpltSUi d a i) s =
    uniOp (encode (.cmpltSUi d a i)) d [a] (fun u => let x := u a; if x.toInt < i.toInt then 1 else 0) s := by
  rw [exec_cmpltSUi, execCmpltSUi, uniUnary]
  exact congrArg (fun g => uniOp _ _ _ g s) (funext fun u => Eq.symm (slti_bit64 _ _))

theorem exec_cmpltUUi_row (d a : BitVec 6) (i : BitVec 12) (s : State) : exec (.cmpltUUi d a i) s =
    uniOp (encode (.cmpltUUi d a i)) d [a] (fun u => let x := u a; if x.toNat < (BitVec.ofInt 64 i.toInt).toNat then 1 else 0) s := by
  rw [exec_cmpltUUi, execCmpltUUi, uniUnary]
  exact congrArg (fun g => uniOp _ _ _ g s) (funext fun u => Eq.symm (ulti_bit64 _ _))

theorem exec_shlUi_row (d a i : BitVec 6) (s : State) : exec (.shlUi d a i) s =
    uniOp (encode (.shlUi d a i)) d [a] (fun u => let x := u a; BitVec.ofNat 64 (x.toNat * 2 ^ i.toNat)) s := by
  rw [exec_shlUi, execShlUi, uniUnary]
  exact congrArg (fun g => uniOp _ _ _ g s) (funext fun u => Eq.symm (ofNat_shl _ _))

theorem exec_shrUUi_row (d a i : BitVec 6) (s : State) : exec (.shrUUi d a i) s =
    uniOp (encode (.shrUUi d a i)) d [a] (fun u => let x := u a; BitVec.ofNat 64 (x.toNat / 2 ^ i.toNat)) s := by
  rw [exec_shrUUi, execShrUUi, uniUnary]
  exact congrArg (fun g => uniOp _ _ _ g s) (funext fun u => Eq.symm (ofNat_shr _ _))

theorem exec_shrSUi_row (d a i : BitVec 6) (s : State) : exec (.shrSUi d a i) s =
    uniOp (encode (.shrSUi d a i)) d [a] (fun u => let x := u a; BitVec.ofInt 64 (x.toInt / 2 ^ i.toNat)) s := by
  rw [exec_shrSUi, execShrSUi, uniUnary]
  exact congrArg (fun g => uniOp _ _ _ g s) (funext fun u => Eq.symm (ofInt_sar _ _))

theorem exec_moviU_row (d : BitVec 6) (i : BitVec 18) (s : State) : exec (.moviU d i) s =
    uniOp (encode (.moviU d i)) d [] (fun _ => BitVec.ofInt 64 i.toInt) s := by
  rw [exec_moviU, execMoviU]
  rfl

theorem exec_movx_row (d : BitVec 6) (i : BitVec 18) (s : State) : exec (.movx d i) s =
    uniOp (encode (.movx d i)) d [d] (fun u => BitVec.ofNat 64 ((u d).toNat * 2 ^ 18 + i.toNat)) s := by
  rw [exec_movx, execMovx, uniUnary]
  exact congrArg (fun g => uniOp _ _ _ g s) (funext fun u => Eq.symm (movx_eq _ _))

/-! ## All rows -/

/-- The meaning of an instruction of `IntRow` is the shared operation with the value of its row. -/
theorem IntRow.exec_eq {i : Instr} {d : BitVec 8} {srcs : List Src} {rd : Bool} {f : (Src → Word) → Word → Word}
    (h : IntRow i d srcs rd f) : ∀ s, exec i s = laneInt (encode i) d srcs rd f s := by
  cases h with
  | addLr d a b => exact exec_addLr_row d a b
  | subLr d a b => exact exec_subLr_row d a b
  | addSatS d a b => exact exec_addSatS_row d a b
  | addSatU d a b => exact exec_addSatU_row d a b
  | subSatS d a b => exact exec_subSatS_row d a b
  | subSatU d a b => exact exec_subSatU_row d a b
  | mulLr d a b => exact exec_mulLr_row d a b
  | mulhiULr d a b => exact exec_mulhiULr_row d a b
  | minSLr d a b => exact exec_minSLr_row d a b
  | minULr d a b => exact exec_minULr_row d a b
  | maxSLr d a b => exact exec_maxSLr_row d a b
  | maxULr d a b => exact exec_maxULr_row d a b
  | andLr d a b => exact exec_andLr_row d a b
  | orLr d a b => exact exec_orLr_row d a b
  | xorLr d a b => exact exec_xorLr_row d a b
  | shlLr d a b => exact exec_shlLr_row d a b
  | shrULr d a b => exact exec_shrULr_row d a b
  | shrSLr d a b => exact exec_shrSLr_row d a b
  | cmpeqLr d a b => exact exec_cmpeqLr_row d a b
  | cmpltSLr d a b => exact exec_cmpltSLr_row d a b
  | cmpltULr d a b => exact exec_cmpltULr_row d a b
  | cmpleSLr d a b => exact exec_cmpleSLr_row d a b
  | cmpleULr d a b => exact exec_cmpleULr_row d a b
  | addLi d a i => exact exec_addLi_row d a i
  | andLi d a i => exact exec_andLi_row d a i
  | orLi d a i => exact exec_orLi_row d a i
  | xorLi d a i => exact exec_xorLi_row d a i
  | shlLi d a i => exact exec_shlLi_row d a i
  | shrULi d a i => exact exec_shrULi_row d a i
  | shrSLi d a i => exact exec_shrSLi_row d a i
  | notL d a => exact exec_notL_row d a
  | negL d a => exact exec_negL_row d a
  | absL d a => exact exec_absL_row d a
  | popcL d a => exact exec_popcL_row d a
  | clzL d a => exact exec_clzL_row d a
  | brevL d a => exact exec_brevL_row d a
  | sextBL d a => exact exec_sextBL_row d a
  | sextHL d a => exact exec_sextHL_row d a
  | movL d a => exact exec_movL_row d a
  | moviL d i => exact exec_moviL_row d i
  | movh d i => exact exec_movh_row d i
  | sel d a b => exact exec_sel_row d a b
  | perm d a b => exact exec_perm_row d a b

/-- The meaning of an instruction of `FloatRow` is the shared operation with the value of its row. -/
theorem FloatRow.exec_eq {i : Instr} {d : BitVec 8} {srcs : List Src} {rd : Bool}
    {f : Rnd → (Src → Word) → Word → Word × Flags} (h : FloatRow i d srcs rd f) : ∀ s, exec i s = laneOp (encode i) d srcs rd f s := by
  cases h with
  | fadd d a b => exact exec_fadd_row d a b
  | fsub d a b => exact exec_fsub_row d a b
  | fmul d a b => exact exec_fmul_row d a b
  | fmin d a b => exact exec_fmin_row d a b
  | fmax d a b => exact exec_fmax_row d a b
  | ffma d a b => exact exec_ffma_row d a b
  | ffnma d a b => exact exec_ffnma_row d a b
  | frcp d a => exact exec_frcp_row d a
  | fsqrt d a => exact exec_fsqrt_row d a
  | frsq d a => exact exec_frsq_row d a
  | fexp2 d a => exact exec_fexp2_row d a
  | flog2 d a => exact exec_flog2_row d a
  | fcmpeq d a b => exact exec_fcmpeq_row d a b
  | fcmplt d a b => exact exec_fcmplt_row d a b
  | fcmple d a b => exact exec_fcmple_row d a b
  | fcmpun d a b => exact exec_fcmpun_row d a b
  | hadd2F16 d a b => exact exec_hadd2F16_row d a b
  | hsub2F16 d a b => exact exec_hsub2F16_row d a b
  | hmul2F16 d a b => exact exec_hmul2F16_row d a b
  | hfma2F16 d a b => exact exec_hfma2F16_row d a b
  | hmin2F16 d a b => exact exec_hmin2F16_row d a b
  | hmax2F16 d a b => exact exec_hmax2F16_row d a b
  | cvt2F16 d a b => exact exec_cvt2F16_row d a b
  | hdot2F16 d a b => exact exec_hdot2F16_row d a b
  | hadd2Bf16 d a b => exact exec_hadd2Bf16_row d a b
  | hsub2Bf16 d a b => exact exec_hsub2Bf16_row d a b
  | hmul2Bf16 d a b => exact exec_hmul2Bf16_row d a b
  | hfma2Bf16 d a b => exact exec_hfma2Bf16_row d a b
  | hmin2Bf16 d a b => exact exec_hmin2Bf16_row d a b
  | hmax2Bf16 d a b => exact exec_hmax2Bf16_row d a b
  | cvt2Bf16 d a b => exact exec_cvt2Bf16_row d a b
  | hdot2Bf16 d a b => exact exec_hdot2Bf16_row d a b
  | cvt d a m t u h => exact exec_cvt_row d a m t u h

/-- The meaning of an instruction of `UniRow` is the shared operation with the value of its row. -/
theorem UniRow.exec_eq {i : Instr} {d : BitVec 6} {us : List (BitVec 6)} {f : (BitVec 6 → DWord) → DWord}
    (h : UniRow i d us f) : ∀ s, exec i s = uniOp (encode i) d us f s := by
  cases h with
  | addU d a b => exact exec_addU_row d a b
  | subU d a b => exact exec_subU_row d a b
  | mulU d a b => exact exec_mulU_row d a b
  | mulhiSU d a b => exact exec_mulhiSU_row d a b
  | mulhiUU d a b => exact exec_mulhiUU_row d a b
  | andU d a b => exact exec_andU_row d a b
  | orU d a b => exact exec_orU_row d a b
  | xorU d a b => exact exec_xorU_row d a b
  | andnU d a b => exact exec_andnU_row d a b
  | shlU d a b => exact exec_shlU_row d a b
  | shrUU d a b => exact exec_shrUU_row d a b
  | shrSU d a b => exact exec_shrSU_row d a b
  | minSU d a b => exact exec_minSU_row d a b
  | minUU d a b => exact exec_minUU_row d a b
  | maxSU d a b => exact exec_maxSU_row d a b
  | maxUU d a b => exact exec_maxUU_row d a b
  | cmpeqU d a b => exact exec_cmpeqU_row d a b
  | cmpneU d a b => exact exec_cmpneU_row d a b
  | cmpltSU d a b => exact exec_cmpltSU_row d a b
  | cmpltUU d a b => exact exec_cmpltUU_row d a b
  | cmpleSU d a b => exact exec_cmpleSU_row d a b
  | cmpleUU d a b => exact exec_cmpleUU_row d a b
  | movU d a => exact exec_movU_row d a
  | notU d a => exact exec_notU_row d a
  | negU d a => exact exec_negU_row d a
  | absU d a => exact exec_absU_row d a
  | popcU d a => exact exec_popcU_row d a
  | clzU d a => exact exec_clzU_row d a
  | brevU d a => exact exec_brevU_row d a
  | sextBU d a => exact exec_sextBU_row d a
  | sextHU d a => exact exec_sextHU_row d a
  | sextWU d a => exact exec_sextWU_row d a
  | addUi d a i => exact exec_addUi_row d a i
  | andUi d a i => exact exec_andUi_row d a i
  | orUi d a i => exact exec_orUi_row d a i
  | xorUi d a i => exact exec_xorUi_row d a i
  | cmpeqUi d a i => exact exec_cmpeqUi_row d a i
  | cmpltSUi d a i => exact exec_cmpltSUi_row d a i
  | cmpltUUi d a i => exact exec_cmpltUUi_row d a i
  | shlUi d a i => exact exec_shlUi_row d a i
  | shrUUi d a i => exact exec_shrUUi_row d a i
  | shrSUi d a i => exact exec_shrSUi_row d a i
  | moviU d i => exact exec_moviU_row d i
  | movx d i => exact exec_movx_row d i

end Sys2Proof.Machine
end

