-- ==== Sys2Proof/Tests/Slice0.lean ====
section
/-! SUPPORT. The model's own tests: words written out in the spec and what they decode to, ill-formed terms, single steps with
results from the spec, and for each statement with hypotheses a state that meets them. -/

namespace Sys2Proof.Machine

/-! ## Words that the spec writes out -/

/-- Tables 3.4 to 3.9, R100, R103, R106, R109, R111, R284. -/
theorem test_decode_lane :
    decodeTableWord 32 0x1A060503 = some (.absL 6 (.v 5)) ∧
    decodeTableWord 32 0x29070700 = some (.frsq 7 (.v 7)) ∧ decodeTableWord 32 0x37080203 = some (.hfma2Bf16 8 (.v 2) (.v 3)) ∧
    decodeTableWord 32 0x40040242 = some (.cvt 4 (.v 2) .rz 0 2) ∧ decodeTableWord 32 0x44080206 = some (.qpack 8 (.v 2) (.v 6)) ∧
    decodeTableWord 32 0x4E093F80 = some (.movh 9 0x3F80) ∧ decodeTableWord 32 0x0100C0C8 = some (.addLr 0 (.nbr 0 0) (.nbr 1 0)) ∧
    decodeTableWord 32 0x2001D1D9 = some (.fadd 1 (.nbr 2 1) (.nbr 3 1)) := by decide

/-- R157 to R172 and Tables 9.1 to 9.4. -/
theorem test_decode_memory :
    decodeTableWord 32 0x64080204 = some (.ldgQ 8 2 1 0) ∧ decodeTableWord 32 0x65038018 = some (.stgB 3 0x80 6 0) ∧
    decodeTableWord 32 0x6B040309 = some (.ldsH 4 3 2 1) ∧ decodeTableWord 32 0x7304020C = some (.stsQ 4 2 3 0) ∧
    decodeTableWord 32 0x7407081A = some (.ldqW 7 8 6 2) ∧ decodeTableWord 32 0x7509081A = some (.stqW 9 8 6 2) ∧
    decodeTableWord 32 0xF90C2FFE = some (.sldH 3 2 0xFFE) ∧ decodeTableWord 32 0xFE141004 = some (.sstW 5 1 4) ∧
    decodeTableWord 32 0xFF300028 = some (.sstD 12 0 40) ∧ decodeTableWord 32 0x7604020C = some (.ldaW 4 2 .sys) ∧
    decodeTableWord 32 0x77050208 = some (.stlW 5 2 .dev) ∧ decodeTableWord 32 0xB200000E = some (.fence .sys .rel) ∧
    decodeTableWord 32 0x78040200 = some (.ldrW 4 2) ∧ decodeTableWord 32 0x79060200 = some (.stcW 6 2) := by decide

/-- R168, R169. -/
theorem test_decode_atomics :
    decodeTableWord 32 0x7B080288 = some (.atomSeqXchg 8 2 .dev .relaxed) ∧ decodeTableWord 32 0x7A08029B = some (.atomCas 8 2 .dev .ar) ∧
    decodeTableWord 32 0x7C0502AA = some (.redAddF 5 2 .dev .rel) ∧ decodeTableWord 32 0x7B040208 = some (.atomSeqAdd 4 2 .dev .relaxed) := by
  decide

/-- R173 to R184 and Table 7.3. -/
theorem test_decode_barriers_and_engines :
    decodeTableWord 32 0xC0200000 = some (.barAlloc 8) ∧ decodeTableWord 32 0xC2209000 = some (.barExpect 8 9) ∧
    decodeTableWord 32 0xC3200000 = some (.barArrive 8) ∧ decodeTableWord 32 0xC4209000 = some (.barArriveQ 8 9) ∧
    decodeTableWord 32 0xC5200000 = some (.barWait 8) ∧ decodeTableWord 32 0xE1100000 = some (.accZero 4) ∧
    decodeTableWord 32 0xE2105000 = some (.accLd 4 5) ∧ decodeTableWord 32 0xE3105187 = some (.accSt 4 5 6 7) ∧
    decodeTableWord 32 0xE4105187 = some (.accRed 4 5 6 7) := by decide

/-- Tables 14.1 and 14.3, R251, R285, R333, R338, R348. -/
theorem test_decode_control :
    decodeTableWord 32 0xA003FFFD = some (.bra 0x3FFFD) ∧ decodeTableWord 32 0xA3005000 = some (.jmp 5) ∧
    decodeTableWord 32 0xA408000A = some (.call 2 10) ∧ decodeTableWord 32 0xA5000000 = some .ret ∧
    decodeTableWord 32 0xA7000000 = some .yield ∧ decodeTableWord 32 0xA8000000 = some .nop ∧
    decodeTableWord 32 0xA9000005 = some (.trap 5) ∧ decodeTableWord 32 0xAA000000 = some .rett ∧
    decodeTableWord 32 0xAB000000 = some .term ∧ decodeTableWord 32 0xAD0C0002 = some (.all 3 (.v 2)) ∧
    decodeTableWord 32 0xAE100006 = some (.ballot 4 (.v 6)) ∧ decodeTableWord 32 0xB4500000 = some (.fqpop 20) ∧
    decodeTableWord 32 0xB5000000 = some .step ∧ decodeTableWord 32 0xB61C0000 = some (.launch 7) ∧
    decodeTableWord 32 0xB8B6EB00 = some (.fbMark 45 46 44) ∧ decodeTableWord 32 0xB9000000 = some .fbGo := by decide

/-- R38: words that no row of the opcode table gives a meaning. -/
theorem test_decode_reserved :
    decodeTableWord 32 0 = none ∧ decodeTableWord 32 0x1A050309 = none ∧
    decodeTableWord 32 0xA6000001 = none ∧ decodeTableWord 32 0x4C020101 = none := by decide

/-! ## Ill-formed terms -/

/-- A destination that is no lane register (R39), a group that is not aligned or a scaled uniform X (R40), an odd A (R41). -/
theorem test_illformed_operands :
    (Instr.addLr 0x80 (.v 1) (.v 2)).wf = false ∧ (Instr.ldgQ 9 2 1 0).wf = false ∧ (Instr.ldgD 1 2 1 0).wf = false ∧
    (Instr.stgB 3 0x80 6 1).wf = false ∧ (Instr.ldaW 4 3 .sys).wf = false ∧ (Instr.stcW 5 2).wf = false ∧
    (Instr.atomCasD 6 2 .dev .ar).wf = false ∧ (Instr.atomSeqCasD 12 2 .dev .ar).wf = false ∧ (Instr.shfl 1 (.s 2) (.v 3)).wf = false ∧
    (Instr.fqpop 61).wf = false ∧ (Instr.shOpCas 1 2 63 .rel).wf = false := by decide

/-- Codes that the spec reserves (R42, R48, R54, R165, R168, R231, R249; Tables 2.4 and 14.2). -/
theorem test_illformed_codes :
    (Instr.cvt 4 (.v 2) .rn 1 1).wf = false ∧ (Instr.cvt 4 (.v 2) .rn 0 1).wf = false ∧ (Instr.cvt 4 (.v 2) .rn 5 2).wf = false ∧
    (Instr.qscale 6 (.v 2) 5 0).wf = false ∧ (Instr.qscale 6 (.s 2) 0 1).wf = false ∧ (Instr.brk 0xFF 0).wf = false ∧
    (Instr.call 0 1).wf = false ∧ (Instr.call 16 1).wf = false ∧ (Instr.srdS 1 0x16).wf = false ∧ (Instr.srdV 1 0x11 0).wf = false ∧
    (Instr.swr 1 0x0B).wf = false ∧ (Instr.fence .sys .relaxed).wf = false ∧ (Instr.redAdd 5 2 .dev .acq).wf = false ∧
    (Instr.shFloat 1 .acq).wf = false := by decide

/-- Numbers beyond the parts of the device. -/
theorem test_illformed_events :
    (Instr.pctlWrite 24 0).wf = false ∧ (Instr.scrubComplete 24).wf = false ∧ (Instr.portBucketTick 72).wf = false ∧
    (Instr.mmaExec 288).wf = false ∧ (Instr.shellOverstay 576).wf = false ∧ (Instr.kbktWrite 64 0).wf = false ∧
    (Instr.engMaskWrite 0 4 0).wf = false ∧ (Instr.spillQueueRefill 288).wf = false := by decide

/-! ## Values that the spec works out -/

/-- Table 5.11 (its row of 3.3 apart: log entry 30). -/
theorem test_narrow :
    narrowOf 3 (readF32 0x43960000) = (0x79, 0b00001) ∧ narrowOf 3 (readF32 0x43FA0000) = (0x7E, 0b00101) ∧
    narrowOf 3 (readF32 0x3A83126F) = (0x01, 0b00011) ∧ narrowOf 0 (readF32 0x40A00000) = (0b0110, 0b00001) ∧
    narrowOf 0 (readF32 0x40200000) = (0b0100, 0b00001) ∧ narrowOf 0 (readF32 0xBE800000) = (0, 0b00011) ∧
    narrowOf 2 (readF32 0x7F800000) = (0b011111, 0b10000) := by decide

/-- R279: cell (13, 6) of a field of 16 by 8 cells. -/
theorem test_cell_place :
    let r : LRec := { fetchRecord with kind := 1, xext := 16, yext := 8, dgx := 1, dgy := 1 }
    r.seatOf 13 6 = (30, 1) ∧ r.cellAt 3 25 = (13, 6) := by decide

/-- R320: the port of a strict message under key 0x42 from endpoint 5 to endpoint 0x123, with and without port 17. -/
theorem test_strict_port :
    let f : Fabric := { Fabric.reset with
      fctl := 0x80000005, portLive := BitVec.allOnes 72, route0 := [(0x123, 0x00000000000300000000010000020210)] }
    let g : Fabric := { f with portLive := ~~~(1#72 <<< 17) }
    State.strictPort { State.reset with fab := f } 0x123 0x42 = some 17 ∧
    State.strictPort { State.reset with fab := g } 0x123 0x42 = some 4 := by decide

/-! ## Single steps -/

/-- What a step makes of a state, seen through `f`. -/
noncomputable def after {α : Type} (s : State) (f : State → α) : Option α :=
  match step s with
  | .next t => some (f t)
  | _ => none

/-- The machine of `withFetchWord` with an instruction, its crew changed by `g`. -/
def ready (w : Nat) (g : Crew → Crew) : State :=
  let s := State.reset.withFetchWord 32 w
  { s with crews := s.crews.map g }

/-- Register `i` of lane `l` of every crew. -/
def laneRegs (l i : Nat) (t : State) : List Word := t.crews.map fun c => c.vAbs l i

/-- The PC of every split. -/
def pcs (t : State) : List DWord := t.crews.flatMap fun c => c.splits.map (·.pc)

/-- R96: a sum wraps. -/
theorem test_add_wraps :
    after (ready 0x02010020 fun c => c.setAbs 31 0 0xFFFFFFFF) (fun t => (laneRegs 31 1 t, pcs t)) = some ([0x1F#32], [0x1004#64]) := by
  decide

/-- R100: FFMA rounds once: (1 + 2^-23) (1 - 2^-23) - 1 is -2^-46, and no flag is raised. -/
theorem test_ffma_rounds_once :
    after (ready 0x23030001 fun c => ((c.setAbs 0 0 0x3F800001).setAbs 0 1 0x3F7FFFFE).setAbs 0 3 0xBF800000)
      (fun t => (laneRegs 0 3 t, t.crews.map (·.fpflags))) = some ([0xA8800000#32], [0#5]) := by decide

/-- R106: CVT.RN.F16.I32 of 65,521 overflows, CVT.RZ.F16.I32 does not. -/
theorem test_cvt_overflow :
    after (ready 0x40010018 fun c => c.setAbs 0 0 65521) (fun t => (laneRegs 0 1 t, t.crews.map (·.fpflags))) =
      some ([0x7C00#32], [0b00101#5]) ∧
    after (ready 0x40010058 fun c => c.setAbs 0 0 65521) (fun t => (laneRegs 0 1 t, t.crews.map (·.fpflags))) =
      some ([0x7BFF#32], [0b00001#5]) := by decide

/-- Table 6.7: QPACK.E2M1 gives lane 5, which holds the special value, code 8. -/
theorem test_qpack_special :
    after (ready 0x44080206 fun c => lanes.foldl (fun c l => (c.setAbs l 2 (if l = 5 then 0x40A00000 else 0x3F800000)).setAbs l 6 0x4A7F) c)
      (fun t => (laneRegs 0 8 t, laneRegs 4 8 t)) = some ([0x2222#32], [0x2282#32]) := by decide

/-- R50: MOVX shifts in 18 bits. -/
theorem test_movx :
    after (ready (encode (.movx 7 0x16789)).toNat fun c => c.setU 7 0x48D1) (fun t => t.crews.map (·.u 7)) =
      some [0x0000000123456789#64] := by decide

/-- R113: SHFL reads the register of an absent lane's neighbour by the low five bits of B. -/
theorem test_shfl :
    after (ready (encode (.shfl 4 (.v 3) (.v 11))).toNat fun c => (c.setAbs 9 3 7).setAbs 31 11 0x29) (laneRegs 31 4) = some [7#32] := by
  decide

/-- R248: BRA back 3 words. -/
theorem test_bra_back : after (ready 0xA003FFFD id) pcs = some [0xFF4#64] := by decide

/-- R328, R329, R332: TRAP #5 enters the handler. -/
theorem test_trap_enters :
    after (ready 0xA9000005 id) (fun t => t.crews.flatMap fun c => c.splits.map fun p => (p.pc, p.tcause, p.trappc, p.taux, p.inHandler)) =
      some [(0x2000#64, 0x14#16, 0x1004#64, 5#64, true)] := by decide

/-- R38, R54: a word with no meaning raises ILLOP with itself. -/
theorem test_illop :
    after (ready 0x1A050309 id) (fun t => t.crews.flatMap fun c => c.splits.map fun p => (p.pc, p.tcause, p.taux)) =
      some [(0x2000#64, 1#16, 0x1A050309#64)] := by decide

/-- R67: EXIT of its last lanes ends a crew. -/
theorem test_exit : after (ready 0xA6000000 id) (fun t => (t.crews, t.age)) = some ([], []) := by decide

/-- R244, Table 14.2: IF parks the lanes whose operand is 0, and goes on. -/
theorem test_if :
    after (ready (encode (.ifLc (.v 1) 5)).toNat fun c => c.setAbs 3 1 1) (fun t => (t.crews.map fun c => (c.ncOf 3, c.ncOf 4), pcs t)) =
      some ([(0, 1)], [0x1004#64]) := by decide

/-- R251: BALLOT gives a bit for each active lane whose operand is not 0. -/
theorem test_ballot :
    after (ready 0xAE100006 fun c => (c.setAbs 0 6 1).setAbs 31 6 9) (fun t => t.crews.map (·.u 4)) = some [0x80000001#64] := by decide

/-- R249: CALL #16 writes its link below the new window and goes 10 words on. -/
theorem test_call :
    after (ready 0xA408000A id) (fun t => (t.crews.map fun c => (c.wb, c.depth, c.vAbs 31 14, c.vAbs 31 15), pcs t)) =
      some ([(16, 1, 0x1004#32, 0x20000000#32)], [0x1028#64]) := by decide

/-- R89, R163: STS.Q names four words of a lane, each lowest byte first. -/
theorem test_sts_quad :
    after (ready 0x7304020C fun c => ((lanes.foldl (fun c l => c.setAbs l 2 (.ofNat 32 (16 * l))) c).setU 3 0x100).setAbs 1 7 0xAABBCCDD)
      (fun t => t.crews.flatMap fun c => c.splits.flatMap fun p => p.stores.flatMap fun q => ((q.lanes.drop 1).take 1).map fun x =>
        (x.addr, x.data.drop 12)) = some [(0x110, [0xDD#8, 0xCC#8, 0xBB#8, 0xAA#8])] := by decide

/-- R341: the walk of VA 0x0012_3456_789A_BCDE ends in a 2 MiB leaf in bay 2. -/
theorem test_walk :
    let e (m : List Host.Cell) (a : Nat) (x : Nat) := ssetList 0 m a (leBytes 8 x)
    let s : State := { State.reset.withFetchWord 32 0 with
      parts := [{ fetchPart with size := 4, roottab := 0x10000 }], tlb := []
      mem := e (e (e (e (e [] 0x10008 0x20001) 0x20090 0x30001) 0x30340 0x40001) 0x40AC8 0x50001) 0x50E20 0x1240200007 }
    s.translate 0 1 0x00123456789ABCDE .write = .ok 0x12403ABCDE ∧ s.translate 0 1 0x00123456789ABCDE .exec = .error .exec := by decide

theorem issues_of {s : State} {c : Crew} {p : Split} (h : s.cur = some (c.cid, p.sid) ∧ s.crew? c.cid = some c ∧
    c.split? p.sid = some p ∧ s.mayIssue c p = true ∧ s.dueTrap c.cid p = none) : Issues s c p :=
  ⟨h.1, h.2.1, h.2.2.1, h.2.2.2.1, h.2.2.2.2⟩

theorem clear_of {s : State} {c : Crew} {p : Split} {u : Uses} {m : Bool} (h : u.inRange s c = true ∧
    u.srcs.findSome? (nbrTrap s c p) = none ∧ (m = true ∨ u.pinned c p = none) ∧ u.busy s c p = false ∧
    u.waitsFor s c p = [] ∧ u.poison s c p = none) : Clear s c p u m :=
  ⟨h.1, h.2.1, h.2.2.1, h.2.2.2.1, h.2.2.2.2.1, h.2.2.2.2.2⟩

theorem fenceOver_none {s : State} {c : Crew} {p : Split} (h : p.fence = none) (hl : c.loads = []) (ha : s.adds = []) : FenceOver s c p := by
  refine ⟨by simp [hl], by simp [ha], fun f hf => ?_⟩
  rw [h] at hf
  cases hf

theorem fenceOver_done {s : State} {c : Crew} {p : Split} {f : PFence} (h : p.fence = some f) (hl : c.loads = []) (ha : s.adds = [])
    (hd : s.fenceDone c p f = true) : FenceOver s c p := by
  refine ⟨by simp [hl], by simp [ha], fun g hg => ?_⟩
  rw [h] at hg
  cases hg
  exact hd

/-- The crew of the sample states, with a change. -/
def crewW (g : Crew → Crew) : Crew := g (newCrew (fetchLaunch 0) 0 0 0 0 0 0)

/-- Its split, with a change. -/
def splitW (f : Split → Split) : Split := f (newSplit 0 (BitVec.allOnes 32) 0x1000 (launchMark 0x1000 (BitVec.allOnes 32) 0))

/-- A state in which that crew's split is about to issue: changes of the split, of the crew and of the state. -/
def stateW (f : Split → Split) (g : Crew → Crew) (h : State → State) : State :=
  h { State.reset.withFetchWord 32 0xA8000000 with cur := some (0, 0), tape := [], crews := [crewW fun c => g { c with splits := [splitW f] }] }

/-- The crew of such a state. -/
def crewX (f : Split → Split) (g : Crew → Crew) : Crew := crewW fun c => g { c with splits := [splitW f] }

/-- A construct at an address, with its false arm at `lf`. -/
def constructW (m : Mode) (join : Nat) : Construct :=
  { mode := m, addr := 0x0FF0, lf := 0x1100, lj := none, depth := 0, falseArm := false, join := join }

/-- A fallback record whose running arm is the even lanes. -/
def fallbackW (done : Bool) : Fallback :=
  { fb := 1, ra := 0, rm := 0x55555555, pm := 0xAAAAAAAA, pa := 0, ppc := 0x1200, pwb := 0, pdepth := 0, savedNc := []
    pupper := [], level := 0, finished := done, count := 7 }

/-- The split of the sample states with one construct open. -/
def inside (e : Construct) (f : Option Fallback) (p : Split) : Split := { p with stack := [e], fb := f, ad := 1 }

/-- A sibling of the split, at the JOIN of the real construct 9. -/
def siblingW (arrived : Bool) : Split :=
  { splitW (inside (constructW .real 9) none) with
    sid := 3, mask := 0xFFFF0000, status := if arrived then .joinWait 1 else .ready }

/-- The split of the sample states in handler mode. -/
def handling (p : Split) : Split := { p with handler := some ⟨⟨[], 0, [], 0, [], none⟩, 0, 0⟩ }

/-- The seat of the sample field. -/
def seatW : Seat :=
  { lid := 0, index := 0, sigma := [], done := false, rpc := 0, ad := 0, nc := [], cb := 0, flags := 0, buf0 := [], buf1 := []
    exited := 0, resident := true, kept := [], bad := [] }

/-- The launch of the sample states as a field of one seat. -/
def fieldOf (s : State) : State :=
  { s with
    launches := [{ fetchLaunch 0 with record := { fetchRecord with kind := 1, xext := 4, yext := 1, dgx := 1, dgy := 1, pub := 1 } }], seats := [seatW] }

/-- The split of the sample states with a fence of its own. -/
def fencing (sc : Scope) (p : Split) : Split := { p with fence := some ⟨sc, .ar, 5⟩ }

/-- A store that the split has issued and that has not translated. -/
def pendingStore (p : Split) : Split :=
  { p with stores := [{ space := .global, lanes := [⟨0, 0x3000, [1, 2, 3, 4]⟩], size := 4, red := none, word := 0, uniform := true, pc := 0
                        sid := 0, seq := 0, anc := [], hint := 0, rel := none, bad := [] }] }

/-- A crew whose lane 0 alone is active. -/
def oneLane (c : Crew) : Crew := (List.range 31).foldl (fun c l => c.setNc (l + 1) 1) c

/-- A barrier object of the sample states: entry 0 of core 0, generation 1. -/
def barW (squad : Bool) : BarObj :=
  { core := 0, idx := 0, lid := 0, team := 0, gen := 1, squad := squad, offset := 524272, baseA := 1, baseB := 0, far := false
    farFlip := false }

/-- The tiles of the sample states: number 15 belongs to the team. -/
def tileW : Tile := { core := 0, asid := 1, num := 15, lid := 0, team := 0, words := [], poison := [] }

/-- The split of the sample states holds shell 575. -/
def landedW : Landing :=
  { shell := 575, core := 0, cid := 0, sid := 0, asid := 1, original := List.replicate 16 0, working := List.replicate 16 0, badOrig := []
    badWork := [], since := 0, seq := 0, lost := false }

/-- The record of a launch of one team in memory, with its team count. -/
def recordBytes (teams : Nat) : List Byte :=
  leBytes 4 0 ++ leBytes 4 teams ++ leBytes 8 0x1000 ++ leBytes 8 0 ++ leBytes 8 0 ++ leBytes 8 0 ++ leBytes 4 0x400101 ++ leBytes 4 256

/-- A store-fault record of the sample crew, counted or held back. -/
def faultW (held : Bool) : FaultRec :=
  { core := 0, cid := 0, sid := 0, va := 0x40000000, data0 := 0, data1 := 0, seq := 0, mask := 1, reason := 1, size := 16, lane := 31
    word := 0, held := held, lid := 0 }


/-- The sample device between issues, with a change. -/
def restW (h : State → State) : State := h { State.reset.withFetchWord 32 0xA8000000 with tape := [] }

/-- The sample launch with a change, and with a change of its record. -/
def launchW (f : LRec → LRec) (g : Launch → Launch) : Launch := g { fetchLaunch 0 with record := f fetchRecord }

/-- A matrix command on tile 15 of the sample team. -/
def matW (op : MatOp) : MatCmd :=
  { core := 0, asid := 1, lid := 0, team := 0, tile := 15, op := op, handle := 0, ran := false, spans := [], reads := []
    hint := 0, seq := 5 }

/-- A copy command of the sample team with a piece at the end of the first GiB or at the end of the scratchpad. -/
def copyW (sp : Space) (red : Option AOp) (ph : CPhase) : CopyCmd :=
  { core := 0, asid := 1, lid := 0, team := 0, cid := 0, sid := 0, handle := 0, bytes := 4, red := red, read := [0x20], wrote := [], registered := false, phase := ph, hint := 0, seq := 5
    pieces := [{ sspace := .global, steam := 0, saddr := 0x2000, late := false, space := sp, team := 0, addr := if sp = .global then 0x3FFFFFFC else 524284, data := [1, 2, 3, 4], poison := false }] }

/-- A store of the sample split with one lane access. -/
def storeW (sp : Space) (addr : DWord) (red : Option AOp) : PStore :=
  { space := sp, lanes := [⟨31, addr, [1, 2, 3, 4]⟩], size := 4, red := red, word := 0, uniform := false, pc := 0x1000, sid := 0, seq := 3, anc := []
    hint := 0, rel := none, bad := [] }

/-- The sample device whose split has issued one store. -/
def storing (q : PStore) (h : State → State) : State :=
  restW fun s => h { s with crews := [crewX (fun p => { p with stores := [q] }) id] }

/-- A store piece on its way to its slice. -/
def regW : RegReq := {
  id := 3, core := 0, cid := 0, sid := 0, asid := 1, line := 0x3FFFFF, bytes := [(0x3FFFFFFF, 7)], hint := 0, seq := 3, anc := [], inL1 := false, rel := none }

/-- An addition at the end of the first GiB. -/
def addW (op : AOp) (ret : Option AddRet) : AddReq :=
  { id := 3, core := 0, cid := 0, sid := 0, asid := 1, addr := 0x3FFFFFFC, op := op, wide := false, x := 1, cmp := 0, poison := false, ret := ret
    acq := none, job := none, hint := 0, seq := 3, anc := [], rel := none, paid := false }

/-- A load of the sample split of one word in each of two lines. -/
def loadW (uniform reserve : Bool) (addrs : List (Nat × Nat)) : PLoad :=
  { sid := 0, space := .global, lanes := addrs.map fun a => ⟨a.1, 0, a.2, BitVec.ofNat 64 a.2, none⟩, size := 4, uniform := uniform, dst := 62, regs := 1
    pc := 0x1000, seq := 3, cpol := 0, acq := none, reserve := reserve, anc := [], after := 0, fresh := false }

/-- The sample device as shell 575 passes the station of core 0, `n` circulations after the start. -/
def passing (n : Nat) (h : State → State) : State := restW fun s => h { s with cycle := 575 * Config.stationAt 0 + 576 * n + 575 }

theorem passing_passes (s : State) (n : Nat) (h : s.cycle = 575 * Config.stationAt 0 + 576 * n + 575) : s.passes 0 575 = true := by
  simp only [State.passes, h, beq_iff_eq]
  omega

/-- An operation of the sample split queued for word 15 of shell 575. -/
def shellW (op : ShOp) : ShReq :=
  { core := 0, cid := 0, sid := 0, asid := 1, lid := 0, team := 0, shell := 575, word := 15, op := op, acq := true, rel := false, dst := 62, seq := 3
    anc := [], cycle := 0 }

/-- An operation without release, the only one queued, may be performed at the pass. -/
theorem passing_eligible (s : State) (n : Nat) (q : ShReq) (h : s.cycle = 575 * Config.stationAt 0 + 576 * n + 575) (hs : s.shreqs = [q]) (hq : q.cycle = 0)
    (hr : q.rel = false) (hp : precedes q.anc q.sid q.seq q.sid q.seq = false) : s.shellEligible q = true := by
  simp only [State.shellEligible, hs, hr, hp, hq, h, List.all_cons, List.all_nil, Bool.and_false, Bool.false_and, Bool.not_false, Bool.and_true, Bool.true_or,
    decide_eq_true_eq]
  omega

/-- The host of the sample field, and the device that holds it. -/
def hostC (f : Split → Split) (h : HostInfo) : Crew :=
  crewX (fun p => f { p with mask := 0xF }) fun c => { c with absent := 0xFFFFFFF0, host := some h }

def hosted (f : Split → Split) (h : HostInfo) (g : State → State) : State := restW fun s => g (fieldOf { s with crews := [hostC f h] })

/-- The sample device after its boot, with a change. -/
def bootW (h : State → State) : State := restW fun s => h { s with svc := { s.svc with bootok := true } }

/-- The same with a change of a partition. -/
def partW (n : Nat) (f : Partition → Partition) (h : State → State) : State := bootW fun s => h { s with parts := s.parts.set n (f (s.part n)) }

/-- The sample device on a fabric, with a change of the fabric: key 0xFFFF of entry 63 for partition 0, its first 64 KiB exported, endpoint 5 routed to port 71. -/
def fabW (f : Fabric → Fabric) (h : State → State) : State := bootW fun s => h { s with
  fab := f { s.fab with fctl := 0x80000000, keytab0 := [(63, 0xC000FFFF)], exptab := [(63, 2 ^ 127 + 2 ^ 64)], route0 := [(5, 2 ^ 81 + 2 ^ 71)], portLive := 1 <<< 71 } }

/-- A flit of key 0xFFFF at port 71. -/
def flitW (pool : Bool) : Ingress :=
  { port := 71, src := 16383, key := 0xFFFF, entry := 63, copy := false, part := 0, offset := 0xFFF8, write := true, data := 0, ask := none
    place := some 0xFFF8, pool := pool }

/-- A message to endpoint 5 under key 0xFFFF. -/
def messageW (port : Option Nat) (lost : Bool) : StrictMsg :=
  { dst := 5, key := 0xFFFF, port := port, seq := 0, sent := false, lost := lost, msg := ⟨0x800A000000000, 0xFFFF, [1, 2, 3, 4], []⟩ }

/-! ## States that meet the statements' hypotheses -/

/-- The sample device whose next turn is the next issue, its split at an address, with a change. -/
def issuing (pc : DWord) (h : State → State) : State := stateW (fun p => { p with pc := pc }) id fun s => h { s with cur := none, tape := [.issue] }

/-- What the sample split needs of its row, where its instruction is `i`. -/
def needW (i : Instr) : Needs := needsOf i (splitW id)

/-- A pick of the sample split. -/
def pickW : Pick :=
  { core := 0, row := 0, cid := 0, sid := 0, needs := needsNone, sregs := [], spoison := [], fpmode := 0, fpflags := 0, cpol := 0 }

theorem test_meets_step_runs : ∃ (s s0 : State) (rest : List Turn) (c : Crew) (p : Split) (n : Needs) (i : Instr), s.svc.hot = false ∧
    s.tape = .issue :: rest ∧ s0 = { s with tape := rest } ∧ s0.nextPick = some (c, p, n) ∧ s0.dueTrap c.cid p = none ∧
    s0.translate c.core c.asid p.pc .exec = .ok 0x1000 ∧ s0.icache = [] ∧ s0.mayReach (s0.loadSlice c.core 0x1000) c.core c.asid 0x1000 false false = true ∧
    s0.poisoned 0x1000 4 = false ∧ decodeBytes (s0.readBytes 0x1000 4) = .ok i :=
  ⟨issuing 0x1000 id, _, [], crewX id id, splitW id, needW .nop, .nop, by decide, rfl, rfl, by decide, by decide, by decide, by decide,
    by decide, by decide, by decide⟩

/-- Nothing more can be picked in the cycle: the step picks in the next. -/
theorem test_meets_step_next_cycle : ∃ (s s0 : State) (rest : List Turn) (c : Crew) (p : Split) (n : Needs), s.svc.hot = false ∧
    s.tape = .issue :: rest ∧ ({ s with tape := rest } : State).nextPick = none ∧ s.picks ≠ [] ∧ s0 = State.tick { s with tape := rest } ∧
    s0.nextPick = some (c, p, n) ∧ s0.dueTrap c.cid p = none :=
  ⟨issuing 0x1000 fun s => { s with picks := [pickW] }, _, [], crewX id id, splitW id, needW .nop, by decide, rfl, by decide, by decide, rfl,
    by decide, by decide⟩

theorem test_meets_step_row : ∃ (s s0 : State) (rest : List Turn) (c : Crew) (p : Split) (n : Needs), s.svc.hot = false ∧
    s.tape = .issueRow 0 0 :: rest ∧ s0 = { s with tape := rest } ∧ s0.corePick 0 0 = some (c, p, n) ∧ s0.dueTrap c.cid p = none :=
  ⟨issuing 0x1000 fun s => { s with tape := [.issueRow 0 0] }, _, [], crewX id id, splitW id, needW .nop, by decide, rfl, rfl, by decide,
    by decide⟩

theorem test_meets_step_row_next_cycle : ∃ (s s0 : State) (rest : List Turn) (c : Crew) (p : Split) (n : Needs), s.svc.hot = false ∧
    s.tape = .issueRow 0 0 :: rest ∧ ({ s with tape := rest } : State).corePick 0 0 = none ∧ s0 = State.tick { s with tape := rest } ∧
    s0.corePick 0 0 = some (c, p, n) ∧ s0.dueTrap c.cid p = none :=
  ⟨issuing 0x1000 fun s => { s with picks := [pickW], tape := [.issueRow 0 0] }, _, [], crewX id id, splitW id, needW .nop, by decide, rfl,
    by decide, rfl, by decide, by decide⟩

theorem test_meets_step_illop : ∃ (s s0 : State) (rest : List Turn) (c : Crew) (p : Split) (n : Needs) (e : Reject), s.svc.hot = false ∧
    s.tape = .issue :: rest ∧ s0 = { s with tape := rest } ∧ s0.nextPick = some (c, p, n) ∧ s0.dueTrap c.cid p = none ∧
    s0.translate c.core c.asid p.pc .exec = .ok 0x1FFC ∧ s0.icache = [] ∧ s0.mayReach (s0.loadSlice c.core 0x1FFC) c.core c.asid 0x1FFC false false = true ∧
    s0.poisoned 0x1FFC 4 = false ∧ decodeBytes (s0.readBytes 0x1FFC 4) = .error e :=
  ⟨issuing 0x1FFC id, _, [], crewX (fun p => { p with pc := 0x1FFC }) id, splitW fun p => { p with pc := 0x1FFC }, needsNone, _, by decide, rfl,
    rfl, by decide, by decide, by decide, by decide, by decide, by decide, rfl⟩

theorem test_meets_step_poison : ∃ (s s0 : State) (rest : List Turn) (c : Crew) (p : Split) (n : Needs), s.svc.hot = false ∧
    s.tape = .issue :: rest ∧ s0 = { s with tape := rest } ∧ s0.nextPick = some (c, p, n) ∧ s0.dueTrap c.cid p = none ∧
    s0.translate c.core c.asid p.pc .exec = .ok 0x1000 ∧ s0.icache = [] ∧ s0.mayReach (s0.loadSlice c.core 0x1000) c.core c.asid 0x1000 false false = true ∧
    s0.poisoned 0x1000 4 = true :=
  ⟨issuing 0x1000 fun s => { s with mpoison := [0x400] }, _, [], crewX id id, splitW id, needsNone, by decide, rfl, rfl, by decide, by decide,
    by decide, by decide, by decide, by decide⟩

/-- Instruction fetch holds a copy of a word that a store has since changed. -/
theorem test_meets_step_copy : ∃ (s s0 : State) (rest : List Turn) (c : Crew) (p : Split) (n : Needs) (w : CodeWord) (i : Instr), s.svc.hot = false ∧
    s.tape = .issue :: rest ∧ s0 = { s with tape := rest } ∧ s0.nextPick = some (c, p, n) ∧ s0.dueTrap c.cid p = none ∧
    s0.translate c.core c.asid p.pc .exec = .ok 0x1000 ∧ s0.icache.find? (fun w => w.lid == c.lid && w.core == c.core && w.addr == 0x1000 && !w.off) = some w ∧
    decodeBytes w.data = .ok i ∧ s0.readBytes 0x1000 4 ≠ w.data :=
  ⟨issuing 0x1000 fun s => { s with icache := [⟨0, 0, 0x1000, bytesOfWord 0xA6000000, false⟩] }, _, [], crewX id id, splitW id, needW .exit, _, .exit,
    by decide, rfl, rfl, by decide, by decide, by decide, rfl, by decide, by decide⟩

/-- A copy that instruction fetch holds of a word that decodes to nothing. -/
theorem test_meets_step_copy_illop : ∃ (s s0 : State) (rest : List Turn) (c : Crew) (p : Split) (n : Needs) (w : CodeWord) (e : Reject), s.svc.hot = false ∧
    s.tape = .issue :: rest ∧ s0 = { s with tape := rest } ∧ s0.nextPick = some (c, p, n) ∧ s0.dueTrap c.cid p = none ∧
    s0.translate c.core c.asid p.pc .exec = .ok 0x1000 ∧ s0.icache.find? (fun w => w.lid == c.lid && w.core == c.core && w.addr == 0x1000 && !w.off) = some w ∧
    decodeBytes w.data = .error e :=
  ⟨issuing 0x1000 fun s => { s with icache := [⟨0, 0, 0x1000, bytesOfWord 0, false⟩] }, _, [], crewX id id, splitW id, needsNone, _, _,
    by decide, rfl, rfl, by decide, by decide, by decide, rfl, rfl⟩

theorem test_meets_step_fault : ∃ (s s0 : State) (rest : List Turn) (c : Crew) (p : Split) (n : Needs), s.svc.hot = false ∧
    s.tape = .issue :: rest ∧ s0 = { s with tape := rest } ∧ s0.nextPick = some (c, p, n) ∧ s0.dueTrap c.cid p = none ∧
    s0.translate c.core c.asid p.pc .exec = .error .notmap ∧ s0.releasing c p = false :=
  ⟨issuing 0x40000000 id, _, [], crewX (fun p => { p with pc := 0x40000000 }) id, splitW fun p => { p with pc := 0x40000000 }, needsNone, by decide,
    rfl, rfl, by decide, by decide, by decide⟩

theorem test_meets_step_event : ∃ (s : State) (rest : List Turn) (i : Instr), s.tape = .event i :: rest ∧ i.isWord = false :=
  ⟨stateW id id fun s => { s with tape := [.event (.scrubComplete 23)] }, [], .scrubComplete 23, by decide⟩

theorem test_meets_every_step_keeps : ∃ s : State, s.Inv := ⟨stateW id id id, by decide, by decide, by decide⟩

theorem test_meets_decode_of_encode : ∃ i : Instr, i.isWord = true ∧ i.wf = true := ⟨.ldgQ 124 127 63 3, by decide⟩

theorem test_meets_oldest : ∃ (s : State) (c : Crew) (p : Split) (n : Needs) (i : Instr) (q : Pick), s.rowPick 0 0 = some (c, p, n) ∧
    s.dueTrap c.cid p = none ∧ s.fetch c p = .instr i ∧ q ∈ s.picks ∧ q.core = 0 ∧ q.row = 0 ∧ q.needs.lane = true :=
  ⟨issuing 0x1000 fun s => { s with picks := [{ pickW with cid := 7, needs := { needsNone with lane := true, banks := [0, 0, 3] } }] }, crewX id id, splitW id,
    needW .nop, .nop, _, by decide, by decide, by decide, .head _, by decide⟩

theorem test_meets_next_pick : ∃ (s : State) (k : Crew × Split × Needs), s.nextPick = some k :=
  ⟨issuing 0x1000 id, (crewX id id, splitW id, needW .nop), by decide⟩

/-- A body that raises a trap, for a split with a trap handler. -/
theorem test_meets_trap_entry : ∃ (s : State) (c : Crew) (p : Split) (k : Trap) (body : Crew → Split → State → Res), Issues s c p ∧
    p.drained = true ∧ body (reads s c p) p (begun s c p) = .error (.trap k) ∧ p.inHandler = false ∧ s.trapEnt c.asid ≠ 0 :=
  ⟨stateW id id id, crewX id id, splitW id, ⟨.illop, 0x1000, 0, 0⟩, fun _ _ _ => .error (.trap ⟨.illop, 0x1000, 0, 0⟩),
    issues_of (by decide), by decide, rfl, by decide, by decide⟩

theorem test_meets_fatal_trap : ∃ (s : State) (c : Crew) (p : Split) (k : Trap) (body : Crew → Split → State → Res), Issues s c p ∧
    p.drained = true ∧ body (reads s c p) p (begun s c p) = .error (.trap k) ∧ (p.inHandler = true ∨ s.trapEnt c.asid = 0) ∧
    s.inField c = false :=
  ⟨stateW id id fun s => { s with contexts := [{ fetchContext with trapent := 0 }] }, crewX id id, splitW id, ⟨.illop, 0x1000, 0, 0⟩,
    fun _ _ _ => .error (.trap ⟨.illop, 0x1000, 0, 0⟩), issues_of (by decide), by decide, rfl, by decide, by decide⟩

/-- The first register beyond a window of 32. -/
theorem test_meets_outside : ∃ (s : State) (c : Crew) (p : Split) (i : Instr) (d : BitVec 8) (srcs : List Src) (rd : Bool)
    (f : (Src → Word) → Word → Word), IntRow i d srcs rd f ∧ Issues s c p ∧
    (c.ws ≤ d.toNat ∨ (∃ n, Src.v n ∈ srcs ∧ c.ws ≤ n.toNat)) :=
  ⟨stateW id (fun c => { c with frame := 64 }) id, crewX id (fun c => { c with frame := 64 }), splitW id, _, _, _, _, _, .addLr 32 (.v 1) (.v 2),
    issues_of (by decide), by decide⟩

theorem test_meets_outside_float : ∃ (s : State) (c : Crew) (p : Split) (i : Instr) (d : BitVec 8) (srcs : List Src) (rd : Bool)
    (f : Rnd → (Src → Word) → Word → Word × Flags), FloatRow i d srcs rd f ∧ Issues s c p ∧
    (c.ws ≤ d.toNat ∨ (∃ n, Src.v n ∈ srcs ∧ c.ws ≤ n.toNat)) :=
  ⟨stateW id (fun c => { c with frame := 64 }) id, crewX id (fun c => { c with frame := 64 }), splitW id, _, _, _, _, _, .fadd 0 (.v 1) (.v 32),
    issues_of (by decide), .inr ⟨32, by decide, by decide⟩⟩

theorem test_meets_lane_integer : ∃ (s : State) (c : Crew) (p : Split) (i : Instr) (d : BitVec 8) (srcs : List Src) (rd : Bool)
    (f : (Src → Word) → Word → Word), IntRow i d srcs rd f ∧ Issues s c p ∧
    Clear s (reads s c p) p { srcs := srcs, rd := if rd then [d.toNat] else [], wr := [d.toNat] } false :=
  ⟨stateW id id id, crewX id id, splitW id, _, _, _, _, _, .sel 127 (.v 127) (.s 63), issues_of (by decide), clear_of (by decide)⟩

theorem test_meets_lane_float : ∃ (s : State) (c : Crew) (p : Split) (i : Instr) (d : BitVec 8) (srcs : List Src) (rd : Bool)
    (f : Rnd → (Src → Word) → Word → Word × Flags), FloatRow i d srcs rd f ∧ Issues s c p ∧
    Clear s (reads s c p) p { srcs := srcs, rd := if rd then [d.toNat] else [], wr := [d.toNat] } false :=
  ⟨stateW id id id, crewX id id, splitW id, _, _, _, _, _, .ffma 127 (.v 127) (.s 63), issues_of (by decide), clear_of (by decide)⟩

theorem test_meets_uniform : ∃ (s : State) (c : Crew) (p : Split) (i : Instr) (d : BitVec 6) (us : List (BitVec 6))
    (f : (BitVec 6 → DWord) → DWord), UniRow i d us f ∧ Issues s c p ∧
    Clear s (reads s c p) p { us := us.map (·.toNat), ud := [d.toNat] } false :=
  ⟨stateW id id id, crewX id id, splitW id, _, _, _, _, .addU 63 63 62, issues_of (by decide), clear_of (by decide)⟩

theorem test_meets_shfl : ∃ (s : State) (c : Crew) (p : Split) (d : BitVec 8) (n : BitVec 7) (b : Src), Issues s c p ∧
    Clear s (reads s c p) p { srcs := [.v n, b], wr := [d.toNat] } false ∧
    ∀ l ∈ activeLanes c p, 32 * (c.wb + n.toNat) + (s.op (reads s c p) l b).toNat % 32 ∉ c.vpoison :=
  ⟨stateW id id id, crewX id id, splitW id, 127, 127, .v 3, issues_of (by decide), clear_of (by decide), by decide⟩

theorem test_meets_shfl_illopnd : ∃ (s : State) (c : Crew) (p : Split) (a : Src), (∀ n, a ≠ .v n) ∧ Issues s c p :=
  ⟨stateW id id id, crewX id id, splitW id, .s 0, by simp, issues_of (by decide)⟩

theorem test_meets_qscale : ∃ (s : State) (c : Crew) (p : Split) (d : BitVec 8) (a : Src) (f : BitVec 3) (len : BitVec 1), Issues s c p ∧
    f.toNat < 5 ∧ (len = 0#1 ∨ ∃ n, a = .v n) ∧ Clear s (reads s c p) p { srcs := [a], rd := [126, 127], wr := [d.toNat] } false ∧
    a = .v 125 ∧ len = 1 :=
  ⟨stateW id id id, crewX id id, splitW id, 0, .v 125, 4, 1, issues_of (by decide), by decide, .inr ⟨_, rfl⟩, clear_of (by decide), rfl, rfl⟩

theorem test_meets_qpack : ∃ (s : State) (c : Crew) (p : Split) (d : BitVec 8) (a b : Src), Issues s c p ∧
    Clear s (reads s c p) p { srcs := [a, b], wr := [d.toNat] } false :=
  ⟨stateW id id id, crewX id id, splitW id, 127, .v 0, .s 63, issues_of (by decide), clear_of (by decide)⟩

/-- IF at the greatest NC and active depth that it may meet, and LEND. -/
theorem test_meets_structured : ∃ (s : State) (c : Crew) (p : Split) (i : Instr) (srcs : List Src) (k : CtlStep) (r : BitVec 16),
    CtlRow s c p i srcs k r ∧ Issues s c p ∧ Clear s (reads s c p) p { srcs := srcs } false :=
  ⟨stateW (fun p => { p with ad := 254 }) (fun c => c.setNc 31 254) id, crewX (fun p => { p with ad := 254 }) (fun c => c.setNc 31 254),
    splitW (fun p => { p with ad := 254 }), _, _, _, _, .ifLc (.v 1) 0xFFFF ⟨by decide, by decide⟩, issues_of (by decide), clear_of (by decide)⟩

theorem test_meets_real_split : ∃ (s : State) (c : Crew) (p : Split) (a : Src), Issues s c p ∧ p.inHandler = false ∧
    Clear s (reads s c p) p { srcs := [a] } false ∧ p.stack.length < 16 ∧ p.fb = none ∧
    (∃ l ∈ activeLanes c p, s.op (reads s c p) l a ≠ 0) ∧ (∃ l ∈ activeLanes c p, s.op (reads s c p) l a = 0) ∧
    s.extraSplits c.core c.row < 24 ∧ c.splits.length < 4 ∧ c.joins.length < 4 :=
  ⟨stateW (fun p => { p with stack := List.replicate 15 (constructW .inline 0) }) (fun c => c.setAbs 31 1 1) id,
    crewX (fun p => { p with stack := List.replicate 15 (constructW .inline 0) }) (fun c => c.setAbs 31 1 1),
    splitW (fun p => { p with stack := List.replicate 15 (constructW .inline 0) }), .v 1, issues_of (by decide), by decide, clear_of (by decide),
    by decide, by decide, ⟨31, by decide, by decide⟩, ⟨0, by decide, by decide⟩, by decide, by decide, by decide⟩

/-- Four join records are in use: no real construct is free. -/
theorem test_meets_fallback_split : ∃ (s : State) (c : Crew) (p : Split) (a : Src), Issues s c p ∧ p.inHandler = false ∧
    Clear s (reads s c p) p { srcs := [a] } false ∧ p.stack.length < 16 ∧ p.fb = none ∧
    (∃ l ∈ activeLanes c p, s.op (reads s c p) l a ≠ 0) ∧ (∃ l ∈ activeLanes c p, s.op (reads s c p) l a = 0) ∧
    (24 ≤ s.extraSplits c.core c.row ∨ 4 ≤ c.splits.length ∨ 4 ≤ c.joins.length) ∧ noOverflow c p :=
  ⟨stateW id (fun c => { c.setAbs 31 1 1 with joins := List.replicate 4 ⟨9, none, 0, 0, 0⟩ }) id,
    crewX id (fun c => { c.setAbs 31 1 1 with joins := List.replicate 4 ⟨9, none, 0, 0, 0⟩ }), splitW id, .v 1, issues_of (by decide), by decide,
    clear_of (by decide), by decide, by decide, ⟨31, by decide, by decide⟩, ⟨0, by decide, by decide⟩, by decide, ⟨by decide, by decide⟩⟩

theorem test_meets_inline_split : ∃ (s : State) (c : Crew) (p : Split) (a : Src), Issues s c p ∧ p.inHandler = false ∧
    Clear s (reads s c p) p { srcs := [a] } false ∧ p.stack.length < 16 ∧ noOverflow c p ∧
    ¬ ∃ l, l ∈ activeLanes c p ∧ s.op (reads s c p) l a ≠ 0 :=
  ⟨stateW (fun p => { p with ad := 254 }) id id, crewX (fun p => { p with ad := 254 }) id, splitW (fun p => { p with ad := 254 }), .v 1,
    issues_of (by decide), by decide, clear_of (by decide), by decide, ⟨by decide, by decide⟩, by decide⟩

theorem test_meets_meet_without : ∃ (s : State) (c : Crew) (p : Split), Issues s c p ∧ p.stack = [] :=
  ⟨stateW id id id, crewX id id, splitW id, issues_of (by decide), rfl⟩

theorem test_meets_meet_real : ∃ (s : State) (c : Crew) (p : Split) (st : List Construct) (e : Construct), Issues s c p ∧ p.stack = st ++ [e] ∧
    e.mode = .real :=
  ⟨stateW (inside (constructW .real 9) none) id id, crewX (inside (constructW .real 9) none) id, splitW (inside (constructW .real 9) none), [],
    constructW .real 9, issues_of (by decide), rfl, rfl⟩

theorem test_meets_meet_inline : ∃ (s : State) (c : Crew) (p : Split) (st : List Construct) (e : Construct), Issues s c p ∧ p.stack = st ++ [e] ∧
    e.mode = .inline ∧ 0 < p.ad :=
  ⟨stateW (inside (constructW .inline 0) none) id id, crewX (inside (constructW .inline 0) none) id, splitW (inside (constructW .inline 0) none), [],
    constructW .inline 0, issues_of (by decide), rfl, rfl, by decide⟩

/-- A fallback construct, whose parked arm is finished or not. -/
theorem test_meets_meet_fallback (done : Bool) : ∃ (s : State) (c : Crew) (p : Split) (st : List Construct) (e : Construct) (f : Fallback), Issues s c p ∧
    p.stack = st ++ [e] ∧ e.mode = .fallback ∧ p.fb = some f ∧ f.finished = done :=
  ⟨stateW (inside (constructW .fallback 0) (some (fallbackW done))) id id, crewX (inside (constructW .fallback 0) (some (fallbackW done))) id,
    splitW (inside (constructW .fallback 0) (some (fallbackW done))), [], constructW .fallback 0, fallbackW done,
    issues_of (by cases done <;> decide), rfl, rfl, rfl, rfl⟩

/-- A swap at MEET and one at JOIN that need not wait. -/
theorem test_meets_swaps : ∃ (s : State) (c : Crew) (p : Split) (st : List Construct) (e : Construct) (f : Fallback) (u v : State), Issues s c p ∧
    p.stack = st ++ [e] ∧ e.mode = .fallback ∧ p.fb = some f ∧ f.finished = false ∧
    swapArms ((begun s c p).modSplit c.cid p.sid fun q => { q with stack := st ++ [{ e with lj := some 0x1200 }] }) c.cid p.sid true p.muted = .ok u ∧
    swapArms (begun s c p) c.cid p.sid true p.muted = .ok v :=
  ⟨stateW (inside (constructW .fallback 0) (some (fallbackW false))) id id, crewX (inside (constructW .fallback 0) (some (fallbackW false))) id,
    splitW (inside (constructW .fallback 0) (some (fallbackW false))), [], constructW .fallback 0, fallbackW false, _, _, issues_of (by decide), rfl, rfl, rfl, rfl, rfl, rfl⟩

theorem test_meets_join_parks : ∃ (s : State) (c : Crew) (p : Split) (st : List Construct) (e : Construct) (j : JoinRec) (o : Split), Issues s c p ∧
    p.stack = st ++ [e] ∧ e.mode = .real ∧ j ∈ c.joins ∧ j.id = e.join ∧ o ∈ c.splits ∧ o.sid ≠ p.sid ∧ o.holds e.join = true ∧
    o.atJoin e.join = false :=
  ⟨stateW (inside (constructW .real 9) none) (fun c => { c with splits := c.splits ++ [siblingW false], joins := [⟨9, none, 0, 0, 0⟩] }) id,
    crewX (inside (constructW .real 9) none) fun c => { c with splits := c.splits ++ [siblingW false], joins := [⟨9, none, 0, 0, 0⟩] },
    splitW (inside (constructW .real 9) none), [], constructW .real 9, ⟨9, none, 0, 0, 0⟩, siblingW false, issues_of (by decide), by decide⟩

theorem test_meets_merge : ∃ (s : State) (c : Crew) (p : Split) (st : List Construct) (e : Construct) (j : JoinRec), Issues s c p ∧
    p.stack = st ++ [e] ∧ e.mode = .real ∧ c.joins.find? (fun k => k.id == e.join) = some j ∧
    (∀ o ∈ c.splits, o ≠ p → o.holds e.join = true → o.sid ≠ p.sid ∧ o.atJoin e.join = true) ∧ 1 < c.splits.length :=
  ⟨stateW (inside (constructW .real 9) none) (fun c => { c with splits := c.splits ++ [siblingW true], joins := [⟨9, none, 0, 0, 0⟩] }) id,
    crewX (inside (constructW .real 9) none) fun c => { c with splits := c.splits ++ [siblingW true], joins := [⟨9, none, 0, 0, 0⟩] },
    splitW (inside (constructW .real 9) none), [], constructW .real 9, ⟨9, none, 0, 0, 0⟩, issues_of (by decide), by decide⟩

/-- A taken branch inside a construct to its last word, and one to the first word of its false arm, which leaves the true one. -/
theorem test_meets_branch : ∃ (s : State) (c : Crew) (p : Split), Issues s c p ∧ Clear s (reads s c p) p { us := [63] } false ∧
    escapes (reads s c p) p 0x10FC = false ∧ escapes (reads s c p) p 0x1100 = true ∧ p.recipe = false ∧
    (reads s c p).u 63 = 0 ∧ (reads s c p).u 0 ≠ 0 ∧ (reads s c p).u 0 &&& 3 ≠ 0 ∧ Clear s (reads s c p) p { us := [0] } false :=
  ⟨stateW (inside (constructW .inline 0) none) (·.setU 0 0x10FE) id, crewX (inside (constructW .inline 0) none) (·.setU 0 0x10FE),
    splitW (inside (constructW .inline 0) none), issues_of (by decide), clear_of (by decide), by decide, by decide, by decide, by decide,
    by decide, by decide, clear_of (by decide)⟩

/-- CALL #120 that needs the last granule of the spill area. -/
theorem test_meets_call : ∃ (s : State) (c : Crew) (p : Split) (n : BitVec 6), Issues s c p ∧ n ≠ 0 ∧ n.toNat < 16 ∧ c.splits.length = 1 ∧
    c.depth < 65535 ∧ (∀ g ∈ c.touched (c.wb + 8 * n.toNat), 4096 * (g + 1) ≤ c.spillSize) ∧
    ({ wr := [8 * n.toNat - 2, 8 * n.toNat - 1] } : Uses).pinned (reads s c p) p = none ∧
    s.laneBusy (reads s c p) (c.wb + 8 * n.toNat - 2) = false ∧ s.laneBusy (reads s c p) (c.wb + 8 * n.toNat - 1) = false ∧
    ∃ u, makeResident (begun s c p) (reads s c p) p (c.wb + 8 * n.toNat) = .ok u :=
  ⟨stateW id (fun c => { c with spillSize := 32768, depth := 65534 }) id, crewX id fun c => { c with spillSize := 32768, depth := 65534 }, splitW id, 15,
    issues_of (by decide), by decide, by decide, by decide, by decide, by decide, by decide, by decide, by decide, _, rfl⟩

/-- RET from the outermost call, by a link of slide 8 to 0x2004. -/
theorem test_meets_ret : ∃ (s : State) (c : Crew) (p : Split), Issues s c p ∧ c.splits.length = 1 ∧ 0 < c.depth ∧
    (∀ e ∈ p.stack, e.depth ≠ c.depth) ∧ s.laneBusy (reads s c p) (c.wb - 2) = false ∧ s.laneBusy (reads s c p) (c.wb - 1) = false ∧
    32 * (c.wb - 2) ∉ c.vpoison ∧ 32 * (c.wb - 1) ∉ c.vpoison ∧
    ∃ u, makeResident (begun s c p) (reads s c p) p (c.wb - 8 * (((c.vAbs 0 (c.wb - 2)).toNat + 2 ^ 32 * (c.vAbs 0 (c.wb - 1)).toNat) / 2 ^ 60)) = .ok u :=
  ⟨stateW id (fun c => { (c.setAbs 0 6 0x2004).setAbs 0 7 0x10000000 with wb := 8, depth := 1 }) id,
    crewX id fun c => { (c.setAbs 0 6 0x2004).setAbs 0 7 0x10000000 with wb := 8, depth := 1 }, splitW id,
    issues_of (by decide), by decide, by decide, by decide, by decide, by decide, by decide, by decide, _, rfl⟩

/-- One granule leaves and stands in the spill area; a granule comes back that the program has not written. -/
theorem test_meets_slid : ∃ (s : State) (c : Crew) (g pa : Nat), c.leaving 32 = [g] ∧
    s.translate c.core c.asid (c.granuleAt g) .write = .ok pa ∧ g ∈ c.resident ∧ Keeps s c 32 (32 * g) :=
  ⟨stateW id (fun c => { c with frame := 64, resident := [0, 3] }) id, crewX id fun c => { c with frame := 64, resident := [0, 3] }, 3, 0x7000,
    by decide, by decide, by decide, .inl (by decide)⟩

theorem test_meets_spill_stands : ∃ (s : State) (c : Crew), c.leaving 0 = [] ∧ 0 ∈ c.touched 0 ∧ 0 ∉ c.resident ∧ 0 ∈ c.spilled ∧ SpillStands s c 0 := by
  refine ⟨stateW id (fun c => { c with frame := 64, resident := [1], spilled := [0] }) fun s => { s with mem := [] },
    crewX id (fun c => { c with frame := 64, resident := [1], spilled := [0] }), by decide, by decide, by decide, by decide, ?_⟩
  intro g hg _ _
  have h : g ∈ [0] := hg
  rw [List.mem_singleton] at h
  subst h
  exact ⟨0x4000, by decide, fun _ _ _ _ => rfl⟩

theorem test_meets_vote : ∃ (s : State) (c : Crew) (p : Split) (i : Instr) (d : BitVec 6) (f : Src) (g : List Nat → List Nat → DWord), VoteRow i d f g ∧
    Issues s c p ∧ Clear s (reads s c p) p { srcs := [f], ud := [d.toNat] } false :=
  ⟨stateW id id id, crewX id id, splitW id, _, _, _, _, .ballot 63 (.v 127), issues_of (by decide), clear_of (by decide)⟩

/-- Special registers of 32 and 64 bits, to the last registers that take them; a reserved number; a 64-bit one to an odd register. -/
theorem test_meets_srd : ∃ (s : State) (c : Crew) (p : Split), Issues s c p ∧ specialWidth 0x15 = some 64 ∧
    Clear s (reads s c p) p { ud := [63] } false ∧ specialWidth 0x0E = some 8 ∧ Clear s (reads s c p) p { wr := [127] } false ∧
    (64 * 1 + 62) % 2 = 0 ∧ Clear s (reads s c p) p { wr := [126, 127] } false ∧ specialWidth 0x16 = none ∧ (64 * 1 + 63) % 2 = 1 :=
  ⟨stateW id id id, crewX id id, splitW id, issues_of (by decide), rfl, clear_of (by decide), rfl, clear_of (by decide), rfl, clear_of (by decide),
    rfl, rfl⟩

theorem test_meets_swr : ∃ (s : State) (c : Crew) (p : Split), Issues s c p ∧ Clear s (reads s c p) p { us := [63] } false ∧
    ¬ (0x0C ≤ (0x0B : BitVec 8).toNat ∧ (0x0B : BitVec 8).toNat ≤ 0x0E) ∧
    ¬ (0x12 ≤ (0x15 : BitVec 8).toNat ∧ (0x15 : BitVec 8).toNat ≤ 0x15 ∧ p.inHandler = true) :=
  ⟨stateW id id id, crewX id id, splitW id, issues_of (by decide), clear_of (by decide), by decide⟩

theorem test_meets_swr_in_handler : ∃ (s : State) (c : Crew) (p : Split), Issues s c p ∧ Clear s (reads s c p) p { us := [63] } false ∧ p.inHandler = true :=
  ⟨stateW handling id id, crewX handling id, splitW handling, issues_of (by decide), clear_of (by decide), rfl⟩

theorem test_meets_stdrain : (∃ (s : State) (c : Crew) (p : Split), Issues s c p ∧ p.drained = true) ∧
    ∃ (s : State) (c : Crew) (p : Split), Issues s c p ∧ p.drained = false :=
  ⟨⟨stateW id id id, crewX id id, splitW id, issues_of (by decide), rfl⟩,
    ⟨stateW pendingStore id id, crewX pendingStore id, splitW pendingStore, issues_of (by decide), rfl⟩⟩

/-- A FENCE after one that is over, and one whose earlier store has not translated. -/
theorem test_meets_fence : ∃ (s : State) (c : Crew) (p : Split) (f : PFence), Issues s c p ∧ s.drainedFor c p = true ∧ p.fence = some f ∧
    FenceOver s c p ∧ p.recipe = false :=
  ⟨stateW (fencing .sys) id id, crewX (fencing .sys) id, splitW (fencing .sys), _, issues_of (by decide), by decide, rfl,
    fenceOver_done rfl rfl rfl (by decide), by decide⟩

theorem test_meets_fence_waits : (∃ (s : State) (c : Crew) (p : Split), Issues s c p ∧ s.drainedFor c p = false) ∧
    ∃ (s : State) (c : Crew) (p : Split), Issues s c p ∧ ¬ FenceOver s c p :=
  ⟨⟨stateW pendingStore id id, crewX pendingStore id, splitW pendingStore, issues_of (by decide), by decide⟩,
    ⟨stateW (fencing .dev) id fun s => { s with acks := [(0, 1)] }, crewX (fencing .dev) id, splitW (fencing .dev), issues_of (by decide),
      fun h => by have := h.2.2 _ rfl; revert this; decide⟩⟩

/-- EXIT where a lane is inactive, where other lanes of the crew live, where its lanes are the last, and in a field. -/
theorem test_meets_exit_part : ∃ (s : State) (c : Crew) (p : Split), Issues s c p ∧ p.drained = true ∧ s.inField c = false ∧
    ¬ ∀ l, l < 32 → p.mask.getLsbD l = true → c.ncOf l = 0 :=
  ⟨stateW id (·.setNc 31 1) id, crewX id (·.setNc 31 1), splitW id, issues_of (by decide), rfl, by decide, by decide⟩

theorem test_meets_exit_split : ∃ (s : State) (c : Crew) (p : Split), Issues s c p ∧ p.drained = true ∧ s.inField c = false ∧
    (∀ l, l < 32 → p.mask.getLsbD l = true → c.ncOf l = 0) ∧ ¬ ∀ l, l < 32 → l ∈ activeLanes c p ∨ c.exited.getLsbD l = true :=
  ⟨stateW (fun p => { p with mask := 0x7FFFFFFF }) id id, crewX (fun p => { p with mask := 0x7FFFFFFF }) id, splitW fun p => { p with mask := 0x7FFFFFFF },
    issues_of (by decide), rfl, by decide, by decide, by decide⟩

theorem test_meets_exit_last : ∃ (s : State) (c : Crew) (p : Split), Issues s c p ∧ p.drained = true ∧ s.inField c = false ∧
    (∀ l, l < 32 → p.mask.getLsbD l = true → c.ncOf l = 0) ∧ (∀ l, l < 32 → l ∈ activeLanes c p ∨ c.exited.getLsbD l = true) ∧ c.splits = [p] :=
  ⟨stateW (fun p => { p with mask := 0x7FFFFFFF }) (fun c => { c with exited := 0x80000000 }) id,
    crewX (fun p => { p with mask := 0x7FFFFFFF }) fun c => { c with exited := 0x80000000 }, splitW fun p => { p with mask := 0x7FFFFFFF },
    issues_of (by decide), rfl, by decide, by decide, by decide, rfl⟩

theorem test_meets_exit_field : ∃ (s : State) (c : Crew) (p : Split) (x : Seat), Issues s c p ∧ p.drained = true ∧ s.inField c = true ∧
    3 ∈ activeLanes c p ∧ c.absent.getLsbD 3 = false ∧ s.seat? c.lid (8 * c.team + 3 / 4) = some x :=
  ⟨stateW id id fieldOf, crewX id id, splitW id, _, issues_of (by decide), rfl, by decide, by decide, by decide, rfl⟩

theorem test_meets_trap : ∃ (s : State) (c : Crew) (p : Split), Issues s c p ∧ p.drained = true ∧ p.inHandler = false ∧ s.trapEnt c.asid ≠ 0 :=
  ⟨stateW id id id, crewX id id, splitW id, issues_of (by decide), by decide⟩

theorem test_meets_rett : ∃ (s : State) (c : Crew) (p : Split) (h : Handler), Issues s c p ∧ p.handler = some h ∧ p.drained = true ∧
    c.depth = h.depth ∧ p.trappc &&& 3 = 0 :=
  ⟨stateW handling id id, crewX handling id, splitW handling, _, issues_of (by decide), rfl, by decide, by decide, by decide⟩

theorem test_meets_rett_misused : ∃ (s : State) (c : Crew) (p : Split) (h : Handler), Issues s c p ∧ p.handler = some h ∧ p.drained = true ∧
    (c.depth ≠ h.depth ∨ p.trappc &&& 3 ≠ 0) ∧ s.inField c = false :=
  ⟨stateW (fun p => { handling p with trappc := 2 }) id id, crewX (fun p => { handling p with trappc := 2 }) id, splitW fun p => { handling p with trappc := 2 },
    _, issues_of (by decide), rfl, by decide, by decide, by decide⟩

/-- LDG.Q of the last quad that the first GiB holds. -/
theorem test_meets_load : ∃ (s : State) (c : Crew) (p : Split) (s1 : State) (ls : List LaneLoad), LoadRow (.ldgQ 124 0x80 63 0) .global 16 124 0x80 63 0 ∧ Issues s c p ∧
    (124 : BitVec 8).toNat % widthRegs 16 = 0 ∧
    Clear s (reads s c p) p { rd := lmIndex 0x80, wr := group 124 (widthRegs 16), us := [63] } false ∧
    checkLoad ((begun s c p).fenced c p) (reads s c p) p .global 16 ((activeLanes c p).map fun l => (l, lmAddr (reads s c p) l 0x80 63 0)) = .ok (s1, ls) ∧
    loadPoison s1 (reads s c p) p .global 16 ((activeLanes c p).map fun l => (l, lmAddr (reads s c p) l 0x80 63 0)) ls = none ∧ ls ≠ [] :=
  ⟨stateW id (fun c => oneLane (c.setU 63 0x3FFFFFF0)) id, crewX id fun c => oneLane (c.setU 63 0x3FFFFFF0), splitW id, _, _, .ldgQ _ _ _ _, issues_of (by decide),
    by decide, clear_of (by decide), rfl, by decide, by decide⟩

/-- A load whose split's fence is over, with an acquire part that reaches beyond the cluster; and one whose fence is not. -/
theorem test_meets_load_fence : (∃ (s : State) (c : Crew) (p : Split) (f : PFence), Issues s c p ∧ FenceOver s c p ∧ p.fence = some f ∧ f.sem = .ar) ∧
    ∃ (s : State) (c : Crew) (p : Split) (s1 : State) (ls : List LaneLoad), Issues s c p ∧ ¬ FenceOver s c p ∧
      Clear s (reads s c p) p { rd := lmIndex 0x80, wr := group 124 (widthRegs 16), us := [63] } false ∧
      checkLoad ((begun s c p).fenced c p) (reads s c p) p .global 16 ((activeLanes c p).map fun l => (l, lmAddr (reads s c p) l 0x80 63 0)) = .ok (s1, ls) ∧
      loadPoison s1 (reads s c p) p .global 16 ((activeLanes c p).map fun l => (l, lmAddr (reads s c p) l 0x80 63 0)) ls = none :=
  ⟨⟨stateW (fencing .dev) id id, crewX (fencing .dev) id, splitW (fencing .dev), _, issues_of (by decide), fenceOver_done rfl rfl rfl (by decide), rfl, rfl⟩,
    ⟨stateW (fencing .dev) oneLane fun s => { s with acks := [(0, 1)] }, crewX (fencing .dev) oneLane, splitW (fencing .dev), _, _, issues_of (by decide),
      fun h => by have := h.2.2 _ rfl; revert this; decide, clear_of (by decide), rfl, by decide⟩⟩

/-- LDS of the last word of the scratchpad. -/
theorem test_meets_load_scratch : ∃ (s : State) (c : Crew) (p : Split) (s1 : State) (ls : List LaneLoad), LoadRow (.ldsW 127 0x80 63 0) .scratch 4 127 0x80 63 0 ∧ Issues s c p ∧
    Clear s (reads s c p) p { rd := lmIndex 0x80, wr := group 127 (widthRegs 4), us := [63] } false ∧
    checkLoad ((begun s c p).fenced c p) (reads s c p) p .scratch 4 ((activeLanes c p).map fun l => (l, lmAddr (reads s c p) l 0x80 63 0)) = .ok (s1, ls) ∧
    loadPoison s1 (reads s c p) p .scratch 4 ((activeLanes c p).map fun l => (l, lmAddr (reads s c p) l 0x80 63 0)) ls = none ∧ ls ≠ [] :=
  ⟨stateW id (fun c => oneLane (c.setU 63 524284)) id, crewX id fun c => oneLane (c.setU 63 524284), splitW id, _, _, .ldsW _ _ _ _, issues_of (by decide),
    clear_of (by decide), rfl, by decide, by decide⟩

theorem test_meets_sld : ∃ (s : State) (c : Crew) (p : Split) (s1 : State) (ls : List LaneLoad), Issues s c p ∧ FenceOver s c p ∧ SldRow (.sldD 63 62 0xFF8) 8 63 62 0xFF8 ∧
    Clear s (reads s c p) p { us := [62], ud := [63] } false ∧
    checkLoad ((begun s c p).fenced c p) (reads s c p) p .global 8 [(0, (reads s c p).u 62 + (0xFF8 : BitVec 12).signExtend 64)] = .ok (s1, ls) ∧
    loadPoison s1 (reads s c p) p .global 8 [(0, (reads s c p).u 62 + (0xFF8 : BitVec 12).signExtend 64)] ls = none :=
  ⟨stateW id (·.setU 62 8) id, crewX id (·.setU 62 8), splitW id, _, _, issues_of (by decide), fenceOver_none rfl rfl rfl, .sldD _ _ _, clear_of (by decide), rfl, by decide⟩

/-- LDA and LDR of one lane. -/
theorem test_meets_lda : ∃ (s : State) (c : Crew) (p : Split) (s1 : State) (ls : List LaneLoad), Issues s c p ∧ (126 : BitVec 8).toNat % 2 = 0 ∧
    (126 : BitVec 8).msb = false ∧ Clear s (reads s c p) p { rd := [126, 127], wr := [127] } false ∧
    checkLoad ((begun s c p).fenced c p) (reads s c p) p .global 4 ((activeLanes c p).map fun l => (l, c.vPair l 126)) = .ok (s1, ls) ∧
    loadPoison s1 (reads s c p) p .global 4 ((activeLanes c p).map fun l => (l, c.vPair l 126)) ls = none ∧ activeLanes c p ≠ [] :=
  ⟨stateW id (fun c => oneLane (c.setAbs 0 126 0x3FFFFFFC)) id, crewX id fun c => oneLane (c.setAbs 0 126 0x3FFFFFFC), splitW id, _, _, issues_of (by decide),
    by decide, by decide, clear_of (by decide), rfl, by decide, by decide⟩

/-- LDA without an active lane. -/
theorem test_meets_lda_idle : ∃ (s : State) (c : Crew) (p : Split) (s1 : State) (ls : List LaneLoad), Issues s c p ∧
    Clear s (reads s c p) p { rd := [126, 127], wr := [127] } false ∧
    checkLoad ((begun s c p).fenced c p) (reads s c p) p .global 4 ((activeLanes c p).map fun l => (l, c.vPair l 126)) = .ok (s1, ls) ∧
    loadPoison s1 (reads s c p) p .global 4 ((activeLanes c p).map fun l => (l, c.vPair l 126)) ls = none ∧ activeLanes c p = [] :=
  ⟨stateW id (fun c => oneLane (c.setNc 0 1)) id, crewX id fun c => oneLane (c.setNc 0 1), splitW id, _, _, issues_of (by decide), clear_of (by decide), rfl, by decide,
    by decide⟩

/-- STG.Q with the store path one short of full. -/
theorem test_meets_store : ∃ (s : State) (c : Crew) (p : Split), StoreRow (.stgQ 124 0x80 63 0) .global 16 124 0x80 63 0 ∧ Issues s c p ∧
    (124 : BitVec 8).toNat % widthRegs 16 = 0 ∧
    Clear s (reads s c p) p { rd := lmIndex 0x80 ++ group 124 (widthRegs 16), us := [63] } false ∧
    (∀ l ∈ activeLanes c p, (lmAddr (reads s c p) l 0x80 63 0).toNat % 16 = 0) ∧ p.storeRoom = true ∧ p.stores.length = 15 :=
  ⟨stateW (fun p => { p with stores := List.replicate 15 ((pendingStore p).stores.headD (storeW .global 0 none)) }) (·.setU 63 0x10) id,
    crewX (fun p => { p with stores := List.replicate 15 ((pendingStore p).stores.headD (storeW .global 0 none)) }) (·.setU 63 0x10),
    splitW fun p => { p with stores := List.replicate 15 ((pendingStore p).stores.headD (storeW .global 0 none)) }, .stgQ _ _ _ _, issues_of (by decide),
    by decide, clear_of (by decide), by decide, by decide, by decide⟩

/-- STQ to a team that the squad does not have. -/
theorem test_meets_store_squad : ∃ (s : State) (c : Crew) (p : Split) (k : Trap), StoreRow (.stqW 127 0x80 63 0) .squad 4 127 0x80 63 0 ∧ Issues s c p ∧
    Clear s (reads s c p) p { rd := lmIndex 0x80 ++ group 127 (widthRegs 4), us := [63] } false ∧
    (∀ l ∈ activeLanes c p, (lmAddr (reads s c p) l 0x80 63 0).toNat % 4 = 0) ∧ p.storeRoom = true ∧ FenceOver s c p ∧
    checkSquad (begun s c p) (reads s c p) p.pc ((activeLanes c p).map fun l => (l, lmAddr (reads s c p) l 0x80 63 0)) = .error (.trap k) :=
  ⟨stateW id (·.setU 63 0xF00000) id, crewX id (·.setU 63 0xF00000), splitW id, _, .stqW _ _ _ _, issues_of (by decide), clear_of (by decide), by decide,
    by decide, fenceOver_none rfl rfl rfl, rfl⟩

/-- STS to the last word of the scratchpad. -/
theorem test_meets_store_scratch : ∃ (s : State) (c : Crew) (p : Split), StoreRow (.stsW 127 0x80 63 0) .scratch 4 127 0x80 63 0 ∧ Issues s c p ∧
    Clear s (reads s c p) p { rd := lmIndex 0x80 ++ group 127 (widthRegs 4), us := [63] } false ∧
    (∀ l ∈ activeLanes c p, (lmAddr (reads s c p) l 0x80 63 0).toNat % 4 = 0) ∧
    ∀ l ∈ activeLanes c p, (lmAddr (reads s c p) l 0x80 63 0).toNat + 4 ≤ s.scratchSize c.lid c.team :=
  ⟨stateW id (·.setU 63 524284) id, crewX id (·.setU 63 524284), splitW id, .stsW _ _ _ _, issues_of (by decide), clear_of (by decide), by decide, by decide⟩

theorem test_meets_sst : ∃ (s : State) (c : Crew) (p : Split), Issues s c p ∧ SstRow (.sstD 63 62 0x7F8) 8 63 62 0x7F8 ∧ p.storeRoom = true ∧
    Clear s (reads s c p) p { us := [62, 63] } false ∧ ((reads s c p).u 62 + (0x7F8 : BitVec 12).signExtend 64).toNat % 8 = 0 :=
  ⟨stateW id id id, crewX id id, splitW id, issues_of (by decide), .sstD _ _ _, by decide, clear_of (by decide), by decide⟩

theorem test_meets_stl : ∃ (s : State) (c : Crew) (p : Split), Issues s c p ∧ (126 : BitVec 8).toNat % 2 = 0 ∧ (126 : BitVec 8).msb = false ∧
    s.drainedFor c p = true ∧ p.storeRoom = true ∧ Clear s (reads s c p) p { rd := [126, 127, 125] } true ∧
    (∀ l ∈ activeLanes c p, (c.vPair l 126).toNat % 4 = 0) ∧ activeLanes c p ≠ [] :=
  ⟨stateW id id id, crewX id id, splitW id, issues_of (by decide), by decide, by decide, by decide, by decide, clear_of (by decide), by decide, by decide⟩

theorem test_meets_red : ∃ (s : State) (c : Crew) (p : Split) (o : AOp), RedRow (.redAddD 124 126 .sys .rel) o 124 126 .sys .rel ∧ Issues s c p ∧
    s.drainedFor c p = true ∧ p.storeRoom = true ∧ o.wide = true ∧
    Clear s { reads s c p with vpoison := (reads s c p).vpoison.filter fun x => (group 124 2).all fun n => decide (x / 32 ≠ c.wb + n) } p
      { rd := [126, 127] ++ group 124 2 } true ∧
    ({ rd := [126, 127] } : Uses).poison s (reads s c p) p = none ∧
    (∀ l ∈ activeLanes c p, (c.vPair l 126).toNat % 8 = 0) ∧ activeLanes c p ≠ [] ∧ 32 * (c.wb + 125) + 31 ∈ c.vpoison :=
  ⟨stateW id (fun c => { c with vpoison := [4031] }) id, crewX id fun c => { c with vpoison := [4031] }, splitW id, _, .redAddD _ _ _ _, issues_of (by decide),
    by decide, by decide, by decide, clear_of (by decide), by decide, by decide, by decide, by decide⟩

/-- ATOM.CAS.SEQ of doublewords: a group of eight. -/
theorem test_meets_atom : ∃ (s : State) (c : Crew) (p : Split) (o : AOp) (s1 : State) (ps : List (Nat × Nat)),
    AtomRow (.atomSeqCasD 120 126 .sys .ar) o true 120 126 .sys .ar ∧ Issues s c p ∧ (120 : BitVec 8).toNat % (2 * o.group) = 0 ∧
    Clear s (reads s c p) p { rd := [126, 127] ++ group 120 o.group, wr := group 120 (2 * o.group) } true ∧
    (∀ l ∈ activeLanes c p, (c.vPair l 126).toNat % 8 = 0) ∧
    translateLanes ((begun s c p).fenced c p) (reads s c p) p .write ((activeLanes c p).map fun l => (l, c.vPair l 126)) = .ok (s1, ps) ∧
    loadPoison s1 (reads s c p) p .global 8 ((activeLanes c p).map fun l => (l, c.vPair l 126)) (ps.map fun q => ⟨q.1, 0, q.2, 0, none⟩) = none ∧
    s.drainedFor c p = true ∧ activeLanes c p ≠ [] :=
  ⟨stateW id (fun c => oneLane (c.setAbs 0 126 0x3FFFFFF8)) id, crewX id fun c => oneLane (c.setAbs 0 126 0x3FFFFFF8), splitW id, _, _, _, .atomSeqCasD _ _ _ _,
    issues_of (by decide), by decide, clear_of (by decide), by decide, rfl, by decide, by decide, by decide⟩

/-- STC of a lane that holds a reservation and of one that does not. -/
theorem test_meets_stc : ∃ (s : State) (c : Crew) (p : Split) (s1 : State) (ps : List (Nat × Nat)), Issues s c p ∧
    Clear s (reads s c p) p { rd := [126, 127, 124], wr := [125] } true ∧ (∀ l ∈ activeLanes c p, (c.vPair l 126).toNat % 4 = 0) ∧
    translateLanes ((begun s c p).fenced c p) (reads s c p) p .write ((activeLanes c p).map fun l => (l, c.vPair l 126)) = .ok (s1, ps) ∧
    loadPoison s1 (reads s c p) p .global 4 ((activeLanes c p).map fun l => (l, c.vPair l 126)) (ps.map fun q => ⟨q.1, 0, q.2, 0, none⟩) = none ∧
    FenceOver s c p ∧ 0 ∈ activeLanes c p ∧ (∃ r ∈ c.resv, r.lane = 0 ∧ r.va = c.vPair 0 126) ∧ 1 ∈ activeLanes c p ∧ ¬ ∃ r ∈ c.resv, r.lane = 1 :=
  ⟨stateW id (fun c => { c.setAbs 0 126 0x3000 with resv := [⟨0, 0x3000, 0xC00⟩] }) id, crewX id fun c => { c.setAbs 0 126 0x3000 with resv := [⟨0, 0x3000, 0xC00⟩] },
    splitW id, _, _, issues_of (by decide), clear_of (by decide), by decide, rfl, by decide, fenceOver_none rfl rfl rfl, by decide, by decide, by decide, by decide⟩

/-- R67, R257: in a field, too, a split whose last lane exits ceases; its sibling runs on. -/
theorem test_exit_ceases_in_field :
    (match exec .exit (stateW (fun p => { p with mask := 3 }) (fun c => { c with
        absent := 0xFFFFFFF0, host := some { slot := 0, seats := [0], stepAt := none, issued := true, leaving := none, out := false }
        splits := c.splits ++ [{ splitW id with sid := 3, mask := 0xC }] }) fieldOf) with
      | .next t => (t.crew? 0).map fun c => c.splits.map fun p => (p.sid, p.mask)
      | _ => none) = some [(3, 0xC)] := by decide

/-- BAR.ALLOC of the second slot and the second entry. -/
theorem test_meets_bar_alloc : ∃ (s : State) (c : Crew) (p : Split) (x : Team), Issues s c p ∧ s.team? c.lid c.team = some x ∧
    Clear s (reads s c p) p { ud := [63] } false ∧
    (∀ b ∈ s.bars, b.lid = c.lid → b.team = c.team → b.offset + 16 * (1 + 1) ≠ x.size) ∧
    (∀ j, j < 1 → ∃ b ∈ s.bars, b.lid = c.lid ∧ b.team = c.team ∧ b.offset + 16 * (j + 1) = x.size) ∧
    s.bar? c.core 1 = none ∧ (∀ j, j < 1 → s.bar? c.core j ≠ none) ∧ 16 * (1 + 1) ≤ x.size ∧ FenceOver s c p :=
  ⟨stateW id id fun s => { s with bars := [barW false] }, crewX id id, splitW id, _, issues_of (by decide), rfl, clear_of (by decide), by decide, by decide, by decide,
    by decide, by decide, fenceOver_none rfl rfl rfl⟩

theorem test_meets_bar_alloc_full : ∃ (s : State) (c : Crew) (p : Split) (x : Team), Issues s c p ∧ s.team? c.lid c.team = some x ∧
    Clear s (reads s c p) p { ud := [63] } false ∧ s.bars = [] ∧ x.size < 16 * (0 + 1) :=
  ⟨stateW id id fun s => { s with teams := [{ fetchTeam 0 with size := 0 }] }, crewX id id, splitW id, _, issues_of (by decide), rfl, clear_of (by decide), rfl, by decide⟩

/-- BAR.FREE, BAR.TEST, BAR.INIT, BAR.EXPECT, BAR.ARRIVE and BAR.ARRIVE.Q of a live object of squad scope. -/
theorem test_meets_bar_ops : ∃ (s : State) (c : Crew) (p : Split) (o : BarObj) (x : Team), Issues s c p ∧ s.team? o.lid o.team = some x ∧
    Clear s (reads s c p) p { us := [1] } true ∧ Clear s (reads s c p) p { us := [1], ud := [63] } false ∧ ((reads s c p).u 1).toNat < 2 ^ 17 ∧
    s.handleObj c.core c.lid c.team ((reads s c p).u 1) = some o ∧ s.outstanding o = false ∧ s.released c p o.scope = true ∧
    s.barValid c.cid p o = true ∧ s.barSettled c p o = true ∧ FenceOver s c p ∧ s.released c p .squad = true ∧
    Clear s (reads s c p) p { us := [1, 2, 3] } false ∧ ((reads s c p).u 2).toNat % 2 ^ 16 ≠ 0 ∧ ((reads s c p).u 2).toNat / 2 ^ 16 % 2 ^ 16 = 0 ∧
    ((reads s c p).u 2).toNat < 2 ^ 33 ∧ ((reads s c p).u 3).toNat < 2 ^ 32 ∧
    Clear s (reads s c p) p { us := [1, 3] } true ∧ s.barField o 4 4 + ((reads s c p).u 3).toNat < 2 ^ 32 ∧
    Clear s (reads s c p) p { us := [1, 0] } true ∧ ((reads s c p).u 0).toNat % 2 ^ 20 = 0 ∧ s.squadBad c ((reads s c p).u 0) = false ∧
    s.team? c.lid (s.squadTeam c ((reads s c p).u 0)) = some x ∧ s.squadOut c ((reads s c p).u 0) = false ∧ o.squad = true ∧
    s.handleObj x.core c.lid (s.squadTeam c ((reads s c p).u 0)) ((reads s c p).u 1) = some o :=
  ⟨stateW id (fun c => ((c.setU 1 0x10100).setU 2 0x10000FFFF).setU 3 0xFFFFFFFF) fun s => { s with bars := [barW true] },
    crewX id fun c => ((c.setU 1 0x10100).setU 2 0x10000FFFF).setU 3 0xFFFFFFFF, splitW id, barW true, _, issues_of (by decide), rfl, clear_of (by decide),
    clear_of (by decide), by decide, by decide, by decide, by decide, by decide, by decide, fenceOver_none rfl rfl rfl, by decide, clear_of (by decide), by decide,
    by decide, by decide, by decide, clear_of (by decide), by decide, clear_of (by decide), by decide, by decide, rfl, by decide, rfl, by decide⟩

theorem test_meets_bad_handle : ∃ (s : State) (c : Crew) (p : Split), Issues s c p ∧ Clear s (reads s c p) p { us := [1] } true ∧
    ((reads s c p).u 1).toNat < 2 ^ 17 ∧ s.handleObj c.core c.lid c.team ((reads s c p).u 1) = none ∧ s.bars ≠ [] :=
  ⟨stateW id (·.setU 1 0x200) fun s => { s with bars := [barW true] }, crewX id (·.setU 1 0x200), splitW id, issues_of (by decide), clear_of (by decide), by decide,
    by decide, by decide⟩

/-- The object's BAR.ALLOC is not yet performed for the split. -/
theorem test_meets_bar_early : ∃ (s : State) (c : Crew) (p : Split) (b : BarObj), Issues s c p ∧ Clear s (reads s c p) p { us := [1] } true ∧
    ((reads s c p).u 1).toNat < 2 ^ 17 ∧ s.handleObj c.core c.lid c.team ((reads s c p).u 1) = some b ∧ s.barValid c.cid p b = false :=
  ⟨stateW id (·.setU 1 0x100) fun s => { s with
      bars := [barW true]
      held := [{ id := 9, lid := 0, team := 0, bytes := [(524272, 0)], bar := some (.alloc 0 0), core := 0, asid := 1, cid := 3, sid := 0, seq := 9, anc := [] }] },
    crewX id (·.setU 1 0x100), splitW id, barW true, issues_of (by decide), clear_of (by decide), by decide, by decide, by decide⟩

/-- BAR.WAIT on a phase that differs from the parity, on one that is the parity, and by an arm whose other arm is not finished. -/
theorem test_meets_bar_wait_passes : ∃ (s : State) (c : Crew) (p : Split) (o : BarObj), Issues s c p ∧ Clear s (reads s c p) p { us := [1] } false ∧
    ((reads s c p).u 1).toNat < 2 ^ 17 ∧ s.handleObj c.core c.lid c.team ((reads s c p).u 1) = some o ∧ s.phaseOf o ≠ ((reads s c p).u 1).getLsbD 16 ∧
    p.status = .ready ∧ s.barValid c.cid p o = true ∧ s.barSettled c p o = true ∧ FenceOver s c p :=
  ⟨stateW id (·.setU 1 0x10100) fun s => { s with bars := [barW true] }, crewX id (·.setU 1 0x10100), splitW id, barW true, issues_of (by decide), clear_of (by decide),
    by decide, by decide, by decide, rfl, by decide, by decide, fenceOver_none rfl rfl rfl⟩

theorem test_meets_bar_wait_woken (w : Wake) (hw : w ≠ .parked) : ∃ (s : State) (c : Crew) (p : Split), Issues s c p ∧
    ∃ k scope, p.status = .barWait k scope w :=
  ⟨stateW (fun p => { p with status := .barWait 0x100 .sys w }) id id, crewX (fun p => { p with status := .barWait 0x100 .sys w }) id,
    splitW fun p => { p with status := .barWait 0x100 .sys w }, issues_of (by cases w <;> first | decide | exact absurd rfl hw), _, _, rfl⟩

theorem test_meets_bar_wait_parks : ∃ (s : State) (c : Crew) (p : Split) (o : BarObj), Issues s c p ∧ Clear s (reads s c p) p { us := [1] } false ∧
    ((reads s c p).u 1).toNat < 2 ^ 17 ∧ s.handleObj c.core c.lid c.team ((reads s c p).u 1) = some o ∧ s.phaseOf o = ((reads s c p).u 1).getLsbD 16 ∧
    p.status = .ready ∧ s.barValid c.cid p o = true ∧ s.barSettled c p o = true ∧ FenceOver s c p ∧ ∀ f, p.fb = some f → f.finished = true :=
  ⟨stateW id (·.setU 1 0x100) fun s => { s with bars := [barW true] }, crewX id (·.setU 1 0x100), splitW id, barW true, issues_of (by decide), clear_of (by decide),
    by decide, by decide, by decide, rfl, by decide, by decide, fenceOver_none rfl rfl rfl, fun f h => nomatch h⟩

theorem test_meets_bar_wait_swaps : ∃ (s : State) (c : Crew) (p : Split) (o : BarObj) (f : Fallback) (v : State × Split) (u : State), Issues s c p ∧ Clear s (reads s c p) p { us := [1] } false ∧
    s.handleObj c.core c.lid c.team ((reads s c p).u 1) = some o ∧ s.phaseOf o = ((reads s c p).u 1).getLsbD 16 ∧ p.status = .ready ∧ p.fb = some f ∧
    f.finished = false ∧ s.barValid c.cid p o = true ∧ s.barSettled c p o = true ∧ FenceOver s c p ∧
    fenceGate (begun s c p) (reads s c p) p = .ok v ∧ swapArms v.1 c.cid p.sid false p.muted = .ok u :=
  ⟨stateW (inside (constructW .fallback 0) (some (fallbackW false))) (·.setU 1 0x100) fun s => { s with bars := [barW true] },
    crewX (inside (constructW .fallback 0) (some (fallbackW false))) (·.setU 1 0x100), splitW (inside (constructW .fallback 0) (some (fallbackW false))), barW true,
    fallbackW false, _, _, issues_of (by decide), clear_of (by decide), by decide, by decide, rfl, rfl, rfl, by decide, by decide, fenceOver_none rfl rfl rfl, rfl, rfl⟩

/-- CP.BULK of two words from global memory to the end of the scratchpad, without a completion object. -/
theorem test_meets_copy : ∃ (s : State) (c : Crew) (p : Split) (plan : CopyPlan) (s1 s2 : State) (src dst : List (Nat × Nat)),
    CopyRow (.cpBulk 1 2 3 4) 0x51 1 2 3 4 ∧ Issues s c p ∧ Clear s (reads s c p) p { us := [1, 2, 3, 4] } true ∧
    planOf (begun s c p) (reads s c p) p 0x51 ((reads s c p).u 1) ((reads s c p).u 2) ((reads s c p).u 3) = .ok plan ∧ plan.bad = none ∧ HandleOk s c p ((reads s c p).u 4) ∧ FenceOver s c p ∧
    plan.dst = .scratch ∧ plan.src = .global ∧
    engPlaces (begun s c p) (reads s c p) p 2 .read plan.src (plan.rows.flatMap fun x => rowWords x.1 x.2.2) = .ok (s1, src) ∧
    engPlaces s1 (reads s c p) p 1 .write plan.dst (plan.rows.flatMap fun x => rowWords x.2.1 x.2.2) = .ok (s2, dst) ∧
    s.splitQuiet c p = true ∧ s.copyRoom c.core c.asid = true :=
  ⟨stateW id (fun c => ((c.setU 1 0x400000008).setU 2 524280).setU 3 0x3FFFFFF8) id, crewX id fun c => ((c.setU 1 0x400000008).setU 2 524280).setU 3 0x3FFFFFF8, splitW id,
    _, _, _, _, _, .cpBulk _ _ _ _, issues_of (by decide), clear_of (by decide), rfl, rfl, ⟨by decide, .inl (by decide)⟩, fenceOver_none rfl rfl rfl, rfl, rfl, rfl, rfl, by decide,
    by decide⟩

/-- A copy command with a completion object. -/
theorem test_meets_copy_handle : ∃ (s : State) (c : Crew) (p : Split), Issues s c p ∧ HandleOk s c p ((reads s c p).u 4) ∧ (reads s c p).u 4 ≠ 0 :=
  ⟨stateW id (·.setU 4 0x100) fun s => { s with bars := [barW true] }, crewX id (·.setU 4 0x100), splitW id, issues_of (by decide),
    ⟨by decide, .inr ⟨barW true, by decide, by decide⟩⟩, by decide⟩

/-- CP.TILE of two rows within the squad window. -/
theorem test_meets_copy_tile : ∃ (s : State) (c : Crew) (p : Split) (plan : CopyPlan) (s1 s2 : State) (src dst : List (Nat × Nat)),
    CopyRow (.cpTile 1 2 3 4) 0x50 1 2 3 4 ∧ Issues s c p ∧ Clear s (reads s c p) p { us := [1, 2, 3, 4] } true ∧
    planOf (begun s c p) (reads s c p) p 0x50 ((reads s c p).u 1) ((reads s c p).u 2) ((reads s c p).u 3) = .ok plan ∧ plan.bad = none ∧ HandleOk s c p ((reads s c p).u 4) ∧ FenceOver s c p ∧
    plan.dst = .squad ∧ plan.src = .squad ∧ plan.rows.length = 2 ∧
    checkSquad s (reads s c p) p.pc ((plan.rows.flatMap fun x => rowWords x.2.1 x.2.2).map fun x => (0, x)) = .ok () ∧
    checkSquad s (reads s c p) p.pc ((plan.rows.flatMap fun x => rowWords x.1 x.2.2).map fun x => (0, x)) = .ok () ∧
    engPlaces (begun s c p) (reads s c p) p 2 .read plan.src (plan.rows.flatMap fun x => rowWords x.1 x.2.2) = .ok (s1, src) ∧
    engPlaces s1 (reads s c p) p 1 .write plan.dst (plan.rows.flatMap fun x => rowWords x.2.1 x.2.2) = .ok (s2, dst) ∧
    s.splitQuiet c p = true ∧ s.copyRoom c.core c.asid = true :=
  ⟨stateW id (fun c => ((c.setU 1 0x000100010010010A).setU 2 0x100).setU 3 0) id, crewX id fun c => ((c.setU 1 0x000100010010010A).setU 2 0x100).setU 3 0, splitW id,
    _, _, _, _, _, .cpTile _ _ _ _, issues_of (by decide), clear_of (by decide), rfl, rfl, ⟨by decide, .inl (by decide)⟩, fenceOver_none rfl rfl rfl, rfl, rfl, rfl, rfl, rfl, rfl, rfl,
    by decide, by decide⟩

/-- CP.AT of a record at the end of the scratchpad that holds a CP.BULK. -/
theorem test_meets_timed_copy : ∃ (s : State) (c : Crew) (p : Split) (plan : CopyPlan) (s1 s2 : State) (src dst : List (Nat × Nat)), Issues s c p ∧
    Clear s (reads s c p) p { us := [1, 2, 3] } true ∧ ((reads s c p).u 1).toNat % 32 = 0 ∧ ((reads s c p).u 1).toNat + 32 ≤ s.scratchSize c.lid c.team ∧
    s.scratchPending c.lid c.team ((reads s c p).u 1).toNat 32 = false ∧ s.splitQuiet c p = true ∧
    leNat (s.scratchRead c.lid c.team ((reads s c p).u 1).toNat 8) = 0x51 ∧
    s.scratchPoisoned c.lid c.team ((reads s c p).u 1).toNat 32 = false ∧
    planOf (begun s c p) (reads s c p) p 0x51 (BitVec.ofNat 64 (leNat (s.scratchRead c.lid c.team (((reads s c p).u 1).toNat + 8) 8)))
      (BitVec.ofNat 64 (leNat (s.scratchRead c.lid c.team (((reads s c p).u 1).toNat + 16) 8)))
      (BitVec.ofNat 64 (leNat (s.scratchRead c.lid c.team (((reads s c p).u 1).toNat + 24) 8))) = .ok plan ∧ plan.bad = none ∧ FenceOver s c p ∧ HandleOk s c p ((reads s c p).u 3) ∧
    plan.dst = .global ∧ plan.src = .global ∧
    engPlaces (begun s c p) (reads s c p) p 2 .read plan.src (plan.rows.flatMap fun y => rowWords y.1 y.2.2) = .ok (s1, src) ∧
    engPlaces s1 (reads s c p) p 1 .write plan.dst (plan.rows.flatMap fun y => rowWords y.2.1 y.2.2) = .ok (s2, dst) ∧
    (s.copies.filter fun k => k.core == c.core && (match k.phase with | .timed _ => true | _ => false)).length < 4 :=
  ⟨stateW id (·.setU 1 524256) fun s => { s with teams := [{ fetchTeam 0 with
      scratch := ssetList 0 [] 524256 (leBytes 8 0x51 ++ leBytes 8 4 ++ leBytes 8 0x3FFFFFFC ++ leBytes 8 0x3000) }] },
    crewX id (·.setU 1 524256), splitW id, _, _, _, _, _, issues_of (by decide), clear_of (by decide), by decide, by decide, by decide, by decide, by decide,
    by decide, rfl, rfl, fenceOver_none rfl rfl rfl, ⟨by decide, .inl (by decide)⟩, rfl, rfl, rfl, rfl, by decide⟩

/-- ACC.ZERO of a free tile, ACC.LD of an owned one from the last image that the scratchpad holds. -/
theorem test_meets_acc_zero_and_ld : ∃ (s : State) (c : Crew) (p : Split), Issues s c p ∧ s.matRoom c.core c.asid = true ∧
    Clear s (reads s c p) p { us := [1] } true ∧ ((reads s c p).u 1).toNat < 16 ∧
    s.tile? c.core c.asid ((reads s c p).u 1).toNat = none ∧ s.claimRoom c = true ∧
    Clear s (reads s c p) p { us := [2, 3] } true ∧ ((reads s c p).u 2).toNat < 16 ∧ ((reads s c p).u 3).toNat % 16 = 0 ∧
    ((reads s c p).u 3).toNat + 16384 ≤ s.scratchSize c.lid c.team ∧ s.ownsTile c ((reads s c p).u 2).toNat = true ∧ s.splitQuiet c p = true ∧
    FenceOver s c p :=
  ⟨stateW id (fun c => ((c.setU 1 0).setU 2 15).setU 3 507904) fun s => { s with tiles := [tileW] }, crewX id fun c => ((c.setU 1 0).setU 2 15).setU 3 507904, splitW id,
    issues_of (by decide), by decide, clear_of (by decide), by decide, by decide, by decide, clear_of (by decide), by decide, by decide, by decide, by decide, by decide, fenceOver_none rfl rfl rfl⟩

/-- MMA of two E2M1 operands with the format block at the scratchpad's end. -/
theorem test_meets_mma : ∃ (s : State) (c : Crew) (p : Split), Issues s c p ∧ s.matRoom c.core c.asid = true ∧
    Clear s (reads s c p) p { us := [1, 2, 3, 4] } true ∧
    let fb := s.scratchRead c.lid c.team ((reads s c p).u 4).toNat 32
    ((reads s c p).u 1).toNat < 16 ∧ ((reads s c p).u 2).toNat % 16 = 0 ∧ ((reads s c p).u 2).toNat + 3072 ≤ s.scratchSize c.lid c.team ∧
    ((reads s c p).u 3).toNat % 16 = 0 ∧ ((reads s c p).u 3).toNat + 3072 ≤ s.scratchSize c.lid c.team ∧
    ((reads s c p).u 4).toNat % 32 = 0 ∧ ((reads s c p).u 4).toNat + 32 ≤ s.scratchSize c.lid c.team ∧ oddHeader fb = false ∧ badBlock s c fb = false ∧
    fmtOf (fbAt fb 0 1) = (0, false) ∧ fmtOf (fbAt fb 1 1) = (0, false) ∧
    s.ownsTile c ((reads s c p).u 1).toNat = true ∧ s.splitQuiet c p = true ∧ s.scratchPoisoned c.lid c.team ((reads s c p).u 4).toNat 32 = false ∧
    s.scratchPending c.lid c.team ((reads s c p).u 4).toNat 32 = false ∧ FenceOver s c p :=
  ⟨stateW id (fun c => (((c.setU 1 15).setU 2 521216).setU 3 521216).setU 4 524256) fun s => { s with tiles := [tileW] },
    crewX id fun c => (((c.setU 1 15).setU 2 521216).setU 3 521216).setU 4 524256, splitW id,
    issues_of (by decide), by decide, clear_of (by decide), by decide, by decide, by decide, by decide, by decide, by decide, by decide, by decide, by decide +kernel,
    by decide, by decide, by decide, by decide, by decide, by decide, fenceOver_none rfl rfl rfl⟩

/-- ACC.ST of E5M2 blocks with their headers at the scratchpad's end. -/
theorem test_meets_acc_st : ∃ (s : State) (c : Crew) (p : Split), Issues s c p ∧ s.matRoom c.core c.asid = true ∧
    Clear s (reads s c p) p { us := [1, 2, 3, 4] } true ∧
    let x := ((reads s c p).u 1).toNat
    let hdr : DWord := (reads s c p).u 3 >>> 32
    x < 2 ^ 12 ∧ x.testBit 11 = false ∧ x.testBit 7 = false ∧ x / 16 % 8 = 4 ∧ x / 256 % 8 = 4 ∧ ((reads s c p).u 2).toNat % 16 = 0 ∧
    ((reads s c p).u 2).toNat + stBytes 4 4 ≤ s.scratchSize c.lid c.team ∧ hdr.toNat % 2 = 0 ∧ hdr.toNat + 512 ≤ s.scratchSize c.lid c.team ∧
    HandleOk s c p ((reads s c p).u 4) ∧ FenceOver s c p ∧ s.ownsTile c (x % 16) = true ∧ s.splitQuiet c p = true :=
  ⟨stateW id (fun c => ((c.setU 1 0x44F).setU 2 0).setU 3 0x7FE0000000000) fun s => { s with tiles := [tileW] },
    crewX id fun c => ((c.setU 1 0x44F).setU 2 0).setU 3 0x7FE0000000000, splitW id,
    issues_of (by decide), by decide, clear_of (by decide), by decide, by decide, by decide, by decide, by decide, by decide, by decide, by decide, by decide,
    ⟨by decide, .inl (by decide)⟩, fenceOver_none rfl rfl rfl, by decide, by decide⟩

/-- ACC.RED of 64 rows at one address, the last 256 bytes of the first GiB. -/
theorem test_meets_acc_red : ∃ (s : State) (c : Crew) (p : Split) (s1 : State) (pas : List Nat), Issues s c p ∧ s.matRoom c.core c.asid = true ∧
    Clear s (reads s c p) p { us := [1, 2, 3, 4] } true ∧
    let x := ((reads s c p).u 1).toNat
    let rows := (List.range 64).map fun k => (reads s c p).u 2 + (reads s c p).u 3 * BitVec.ofNat 64 k
    x < 2 ^ 7 ∧ x / 16 % 8 < 2 ∧ ((reads s c p).u 2).toNat % 256 = 0 ∧ ((reads s c p).u 3).toNat % 256 = 0 ∧
    (∀ v ∈ rows, ∀ pa, s.translate c.core c.asid v .write = .ok pa → inDevice pa = true) ∧
    HandleOk s c p ((reads s c p).u 4) ∧ FenceOver s c p ∧ s.ownsTile c (x % 16) = true ∧ s.splitQuiet c p = true ∧ engTranslate (begun s c p) (reads s c p) p 1 .write rows = .ok (s1, pas) := by
  refine ⟨stateW id (fun c => (c.setU 1 0x1F).setU 2 0x3FFFFF00) fun s => { s with tiles := [tileW] }, crewX id fun c => (c.setU 1 0x1F).setU 2 0x3FFFFF00, splitW id, _, _, issues_of (by decide), by decide,
    clear_of (by decide), by decide, by decide, by decide, by decide, ?_, ⟨by decide, .inl (by decide)⟩, fenceOver_none rfl rfl rfl, by decide, by decide, rfl⟩
  intro v hv pa e
  obtain ⟨k, -, rfl⟩ := List.mem_map.mp hv
  have h : (match (stateW id (fun c => (c.setU 1 0x1F).setU 2 0x3FFFFF00) fun s => { s with tiles := [tileW] }).translate 0 1 0x3FFFFF00 .write with
      | .ok pa => inDevice pa
      | .error _ => true) = true := by decide
  rw [show (reads (stateW id (fun c => (c.setU 1 0x1F).setU 2 0x3FFFFF00) fun s => { s with tiles := [tileW] }) (crewX id fun c => (c.setU 1 0x1F).setU 2 0x3FFFFF00) (splitW id)).u 3 = 0#64 by decide, BitVec.zero_mul, BitVec.add_zero] at e
  change (stateW id (fun c => (c.setU 1 0x1F).setU 2 0x3FFFFF00) fun s => { s with tiles := [tileW] }).translate 0 1 0x3FFFFF00 .write = _ at e
  rw [e] at h
  exact h

/-- Word 15 of shell 575, which the split does not hold, by GET.W and by CAS with release. -/
theorem test_meets_shell_op : ∃ (s : State) (c : Crew) (p : Split) (x : Context), Issues s c p ∧ s.context? c.asid = some x ∧
    Clear s (reads s c p) p { us := [1], ud := [63] } true ∧ Clear s (reads s c p) p { us := [1, 62, 63], ud := [63] } true ∧
    selectorBad ((reads s c p).u 1) false false = false ∧ ((reads s c p).u 1).toNat / 16 % 1024 < x.shcount ∧
    s.stationRoom c.core c.asid (x.shbase + ((reads s c p).u 1).toNat / 16 % 1024) (((reads s c p).u 1).toNat % 16) = true ∧ s.drainedFor c p = true ∧
    (∀ x ∈ s.arrived, x.2.2 ≤ s.nextId) ∧ s.heldBy c p (x.shbase + ((reads s c p).u 1).toNat / 16 % 1024) = none :=
  ⟨stateW id (·.setU 1 9215) id, crewX id (·.setU 1 9215), splitW id, fetchContext, issues_of (by decide), rfl, clear_of (by decide), clear_of (by decide), by decide⟩

theorem test_meets_shell_op_held : ∃ (s : State) (c : Crew) (p : Split) (x : Context) (h : Landing), Issues s c p ∧ s.context? c.asid = some x ∧
    Clear s (reads s c p) p { us := [1], ud := [63] } true ∧ Clear s (reads s c p) p { us := [1, 62, 63], ud := [63] } true ∧
    selectorBad ((reads s c p).u 1) false false = false ∧ ((reads s c p).u 1).toNat / 16 % 1024 < x.shcount ∧
    s.stationRoom c.core c.asid (x.shbase + ((reads s c p).u 1).toNat / 16 % 1024) (((reads s c p).u 1).toNat % 16) = true ∧ s.drainedFor c p = true ∧
    (∀ x ∈ s.arrived, x.2.2 ≤ s.nextId) ∧ s.heldBy c p (x.shbase + ((reads s c p).u 1).toNat / 16 % 1024) = some h ∧ s.heldReleased c p = true :=
  ⟨stateW id (·.setU 1 9215) fun s => { s with landings := [landedW] }, crewX id (·.setU 1 9215), splitW id, fetchContext, landedW, issues_of (by decide), rfl,
    clear_of (by decide), clear_of (by decide), by decide⟩

/-- The first selector beyond the context's range. -/
theorem test_meets_shell_range : ∃ (s : State) (c : Crew) (p : Split) (x : Context), Issues s c p ∧ s.context? c.asid = some x ∧
    Clear s (reads s c p) p { us := [1, 2], ud := [63] } true ∧ selectorBad ((reads s c p).u 1) false false = false ∧
    x.shcount ≤ ((reads s c p).u 1).toNat / 16 % 1024 :=
  ⟨stateW id (·.setU 1 9216) id, crewX id (·.setU 1 9216), splitW id, fetchContext, issues_of (by decide), rfl, clear_of (by decide), by decide⟩

/-- SH.GET.P, SH.LAND and the misuses of SH.FLOAT and SH.PUT: shell 575 is not held, its payload goes to the scratchpad's end. -/
theorem test_meets_shell_transfer : ∃ (s : State) (c : Crew) (p : Split) (x : Context), Issues s c p ∧ s.context? c.asid = some x ∧
    let sel := (reads s c p).u 1
    let shell := x.shbase + sel.toNat / 16 % 1024
    let off := ((reads s c p).u 2).toNat
    Clear s (reads s c p) p { us := [1, 2] } true ∧ Clear s (reads s c p) p { us := [1, 2] } false ∧ Clear s (reads s c p) p { us := [1] } true ∧
    selectorBad sel false true = false ∧ selectorBad sel true true = false ∧ sel.toNat / 16 % 1024 < x.shcount ∧ off % 64 = 0 ∧ off + 64 ≤ s.scratchSize c.lid c.team ∧
    s.scratchPending c.lid c.team off 64 = false ∧ s.heldOn c.lid c.team off 64 = false ∧
    (∀ o ∈ c.splits, ∀ q ∈ o.stores, q.space ≠ .global → p.follows o.sid q.seq = false) ∧
    (∀ q ∈ c.loads, q.space ≠ .global → p.follows q.sid q.seq = false) ∧ (∀ k ∈ s.mats, k.lid = c.lid → k.team = c.team → ∀ q ∈ k.reads, overlaps q.1 q.2 off 64 = false) ∧
    s.stationRoom c.core c.asid shell 0 = true ∧ s.heldBy c p shell = none ∧ FenceOver s c p :=
  ⟨stateW id (fun c => (c.setU 1 9200).setU 2 524224) id, crewX id fun c => (c.setU 1 9200).setU 2 524224, splitW id, fetchContext, issues_of (by decide), rfl,
    clear_of (by decide), clear_of (by decide), clear_of (by decide), by decide, by decide, by decide, by decide, by decide, by decide, by decide, by decide,
    by decide, by decide, by decide, by decide, fenceOver_none rfl rfl rfl⟩

/-- The same operations of a held shell, and SH.FLOAT with release. -/
theorem test_meets_shell_transfer_held : ∃ (s : State) (c : Crew) (p : Split) (x : Context) (h : Landing), Issues s c p ∧ s.context? c.asid = some x ∧
    let sel := (reads s c p).u 1
    let shell := x.shbase + sel.toNat / 16 % 1024
    let off := ((reads s c p).u 2).toNat
    Clear s (reads s c p) p { us := [1, 2] } true ∧ Clear s (reads s c p) p { us := [1] } true ∧
    selectorBad sel false true = false ∧ sel.toNat / 16 % 1024 < x.shcount ∧ off % 64 = 0 ∧ off + 64 ≤ s.scratchSize c.lid c.team ∧
    s.scratchPending c.lid c.team off 64 = false ∧ s.heldOn c.lid c.team off 64 = false ∧ s.stationRoom c.core c.asid shell 0 = true ∧
    s.heldBy c p shell = some h ∧ h.badWork = [] ∧ (s.team? c.lid c.team).isSome = true ∧ h.working.length = 16 ∧ s.drainedFor c p = true :=
  ⟨stateW id (fun c => (c.setU 1 9200).setU 2 524224) fun s => { s with landings := [landedW] }, crewX id fun c => (c.setU 1 9200).setU 2 524224, splitW id, fetchContext,
    landedW, issues_of (by decide), rfl, clear_of (by decide), clear_of (by decide), by decide⟩

/-- SH.PUT of a whole payload and of word 15 of a held shell. -/
theorem test_meets_shell_put : ∃ (s : State) (c : Crew) (p : Split) (x : Context) (h : Landing), Issues s c p ∧ s.context? c.asid = some x ∧
    let sel := (reads s c p).u 1
    let shell := x.shbase + sel.toNat / 16 % 1024
    Clear s (reads s c p) p { us := [1, 2] } false ∧ FenceOver s c p ∧ sel.getLsbD 16 = true ∧ selectorBad sel true true = false ∧ sel.toNat / 16 % 1024 < x.shcount ∧
    s.heldBy c p shell = some h ∧ s.stationRoom c.core c.asid shell 0 = true ∧ s.scratchPoisoned c.lid c.team ((reads s c p).u 2).toNat 64 = false ∧
    Clear s (reads s c p) p { us := [3, 2] } false ∧ ((reads s c p).u 3).getLsbD 16 = false ∧ selectorBad ((reads s c p).u 3) true false = false ∧
    s.stationRoom c.core c.asid shell 15 = true ∧ ((reads s c p).u 3).toNat % 16 = 15 :=
  ⟨stateW id (fun c => ((c.setU 1 0x123F0).setU 2 524224).setU 3 0x23FF) fun s => { s with landings := [landedW] },
    crewX id fun c => ((c.setU 1 0x123F0).setU 2 524224).setU 3 0x23FF, splitW id, fetchContext,
    landedW, issues_of (by decide), rfl, clear_of (by decide), fenceOver_none rfl rfl rfl, by decide, by decide, by decide, by decide, by decide, by decide, clear_of (by decide),
    by decide⟩

/-- LAUNCH of a record that passes the checks, and of one that does not. -/
theorem test_meets_launch : ∃ (s : State) (c : Crew) (p : Split) (y : Context) (pa : Nat) (s1 s2 : State) (ws : List (Nat × Nat)), Issues s c p ∧
    s.context? c.asid = some y ∧ Clear s (reads s c p) p { us := [1] } true ∧ ((reads s c p).u 1).toNat % 128 = 0 ∧
    translateLanes (begun s c p) (reads s c p) p .read [(0, (reads s c p).u 1)] = .ok (s1, [(0, pa)]) ∧
    translateLanes s1 (reads s c p) p .write [(0, (reads s c p).u 1 + 0x7C)] = .ok (s2, ws) ∧ s.released c p .dev = true ∧ FenceOver s c p ∧
    let clean := (s.fenced c p).cleanHit c.core (accessWords pa 128)
    (∀ n ∈ accessWords pa 128, s.wordPending c.core n = false) ∧
    let hit := (s.fenced c p).l1Hit c.core (accessWords pa 128)
    let slice := s.loadSlice c.core pa
    (hit = true ∨ s.mayReach slice c.core c.asid pa false false = true) ∧
    (if hit then s.fenced c p else (s.fenced c p).reach slice c.core c.asid pa false false 0).statusOk c.core c.asid (pa + 0x7C) = true ∧
    (s.fenced c p).loadPoison c.core pa 124 clean = false ∧ c.splits.length = 1 ∧
    checkRecord s2 (reads s c p) 1 ((s.fenced c p).loadBytes c.core pa 128 clean) (parseRecord ((s.fenced c p).loadBytes c.core pa 128 clean)) = 0 ∧
    (match s.launch? c.lid with | some k => k.nest | none => 0) = 1 :=
  ⟨stateW id (·.setU 1 0x3080) fun s => { s with mem := ssetList 0 s.mem 0x3080 (recordBytes 1) }, crewX id (·.setU 1 0x3080), splitW id, fetchContext, 0x3080, _, _, _,
    issues_of (by decide), rfl, clear_of (by decide), by decide, rfl, rfl, by decide, fenceOver_none rfl rfl rfl, by decide, .inr (by decide), by decide, by decide, by decide, by decide, rfl⟩

theorem test_meets_launch_refused : ∃ (s : State) (c : Crew) (p : Split) (y : Context) (pa : Nat) (s1 s2 : State) (ws : List (Nat × Nat)), Issues s c p ∧
    s.context? c.asid = some y ∧ Clear s (reads s c p) p { us := [1, 63] } true ∧ ((reads s c p).u 1).toNat % 128 = 0 ∧
    translateLanes (begun s c p) (reads s c p) p .read [(0, (reads s c p).u 1)] = .ok (s1, [(0, pa)]) ∧
    translateLanes s1 (reads s c p) p .write [(0, (reads s c p).u 1 + 0x7C)] = .ok (s2, ws) ∧ s.released c p .dev = true ∧ FenceOver s c p ∧
    let clean := (s.fenced c p).cleanHit c.core (accessWords pa 128)
    (∀ n ∈ accessWords pa 128, s.wordPending c.core n = false) ∧
    let hit := (s.fenced c p).l1Hit c.core (accessWords pa 128)
    let slice := s.loadSlice c.core pa
    (hit = true ∨ s.mayReach slice c.core c.asid pa false false = true) ∧
    (if hit then s.fenced c p else (s.fenced c p).reach slice c.core c.asid pa false false 0).statusOk c.core c.asid (pa + 0x7C) = true ∧
    (s.fenced c p).loadPoison c.core pa 124 clean = false ∧ c.splits.length = 1 ∧
    checkRecord s2 (reads s c p) 1 ((s.fenced c p).loadBytes c.core pa 128 clean) (parseRecord ((s.fenced c p).loadBytes c.core pa 128 clean)) ≠ 0 ∧
    checkRecord s2 (reads s c p) 1 ((s.fenced c p).loadBytes c.core pa 128 clean) (parseRecord ((s.fenced c p).loadBytes c.core pa 128 clean)) < 2 ^ 32 ∧
    (parseRecord ((s.fenced c p).loadBytes c.core pa 128 clean)).done = none :=
  ⟨stateW id (·.setU 1 0x3080) fun s => { s with mem := ssetList 0 s.mem 0x3080 (recordBytes 0) }, crewX id (·.setU 1 0x3080), splitW id, fetchContext, 0x3080, _, _, _,
    issues_of (by decide), rfl, clear_of (by decide), by decide, rfl, rfl, by decide, fenceOver_none rfl rfl rfl, by decide, .inr (by decide), by decide, by decide, by decide, by decide, by decide, by decide⟩

/-- A refused launch whose DONE names a live object and whose NOTIFY is set. -/
theorem test_meets_launch_done : ∃ (s : State) (c : Crew) (y : Context) (l : LRec) (h : Nat) (o : BarObj) (x : Team), s.context? c.asid = some y ∧
    l = parseRecord (s.readBytes 0x3080 128) ∧ l.done = some h ∧ s.handleObj c.core c.lid c.team (BitVec.ofNat 64 h) = some o ∧ s.team? o.lid o.team = some x ∧
    l.notify = true ∧ y.irqaddr ≠ 0 ∧ checkRecord s c 1 (s.readBytes 0x3080 128) l ≠ 0 :=
  ⟨stateW id id fun s => { s with
      contexts := [{ fetchContext with irqaddr := 0x8000000000000 }], bars := [barW false]
      mem := ssetList 0 s.mem 0x3080 (leBytes 4 0x80 ++ (recordBytes 0).drop 4 ++ leBytes 4 0 ++ leBytes 4 0x10100) },
    crewX id id, _, _, 0x100, barW false, _, rfl, rfl, by decide, by decide, rfl, by decide, by decide, by decide⟩

theorem test_meets_fqpop : ∃ (s : State) (c : Crew) (p : Split) (q : FaultRec), Issues s c p ∧ Clear s (reads s c p) p { ud := [0, 1, 2, 3].map (60 + ·) } false ∧
    (s.faultq.filter fun q => q.cid = c.cid).find? (fun q => !q.held) = some q ∧ q.reason < 16 ∧ q.lane < 32 :=
  ⟨stateW (fun p => { p with handler := some ⟨⟨[], 0, [], 0, [], none⟩, 0, 9⟩ }) id fun s => { s with faultq := [faultW false, faultW true] },
    crewX (fun p => { p with handler := some ⟨⟨[], 0, [], 0, [], none⟩, 0, 9⟩ }) id, splitW fun p => { p with handler := some ⟨⟨[], 0, [], 0, [], none⟩, 0, 9⟩ },
    faultW false, issues_of (by decide), clear_of (by decide), by decide⟩

theorem test_meets_fqpop_empty : ∃ (s : State) (c : Crew) (p : Split), Issues s c p ∧ Clear s (reads s c p) p { ud := [0, 1, 2, 3].map (60 + ·) } false ∧
    (∀ q ∈ s.faultq.filter (fun q => q.cid = c.cid), q.held = true) ∧ 60 < (61 : BitVec 6).toNat :=
  ⟨stateW id id fun s => { s with faultq := [faultW true] }, crewX id id, splitW id, issues_of (by decide), clear_of (by decide), by decide, by decide⟩

/-- A host at its STEP whose neighbours have reached its step, and one whose neighbours have not. -/
theorem test_meets_step : ∃ (s : State) (c : Crew) (p : Split) (l : Launch), Issues s c p ∧ s.launch? c.lid = some l ∧ s.inField c = true ∧
    p.inHandler = false ∧ c.splits = [p] ∧ c.depth = 0 ∧ p.stack = [] ∧ s.stepReady c p.mask = true ∧ p.mask.getLsbD 3 = true ∧
    (∀ j, j < 8 → l.record.pub.getLsbD j = true → s.laneBusy (reads s c p) j = false ∧
      ∀ n, n < 32 → p.mask.getLsbD n = true → 32 * j + n ∉ c.vpoison) ∧
    (∀ n, n < 64 → s.uniOwed (reads s c p) p n = false) ∧
    (s.seat? c.lid (8 * c.team + 3 / 4)).isSome = true ∧ l.record.pub.getLsbD 0 = true :=
  ⟨stateW (fun p => { p with mask := 0xF }) id fieldOf, crewX (fun p => { p with mask := 0xF }) id, splitW fun p => { p with mask := 0xF }, _, issues_of (by decide), rfl,
    by decide, by decide, by decide, by decide, by decide, by decide, by decide,
    fun j hj _ => ⟨by revert j; decide, fun _ _ _ => List.not_mem_nil⟩, by decide, by decide, by decide⟩

theorem test_meets_step_parks : ∃ (s : State) (c : Crew) (p : Split) (l : Launch), Issues s c p ∧ s.launch? c.lid = some l ∧ s.inField c = true ∧
    p.inHandler = false ∧ c.splits = [p] ∧ c.depth = 0 ∧ p.stack = [] ∧ s.stepReady c p.mask = false ∧
    (∀ j, j < 8 → l.record.pub.getLsbD j = true → s.laneBusy (reads s c p) j = false ∧
      ∀ n, n < 32 → p.mask.getLsbD n = true → 32 * j + n ∉ c.vpoison) ∧ (∀ n, n < 64 → s.uniOwed (reads s c p) p n = false) :=
  ⟨stateW (fun p => { p with mask := 8 }) id fun s => let t := fieldOf s; { t with seats := t.seats.map fun x => { x with sigma := [(3, 1)] } },
    crewX (fun p => { p with mask := 8 }) id, splitW fun p => { p with mask := 8 }, _, issues_of (by decide), rfl, by decide, by decide, by decide, by decide, by decide, by decide,
    fun j hj _ => ⟨by revert j; decide, fun _ _ _ => List.not_mem_nil⟩, by decide⟩

/-- FB.MARK with lane pins 0 and 127, uniform pins 0 and 62, and a recipe. -/
theorem test_meets_fb_mark : ∃ (s : State) (c : Crew) (p : Split), Issues s c p ∧ Clear s (reads s c p) p { us := [1, 2, 3] } true ∧ p.inHandler = false ∧
    c.splits = [p] ∧
    (∀ n, n < 8 → ((reads s c p).u 1).toNat / 256 ^ n % 256 = 0xFF ∨ (((reads s c p).u 1).toNat / 256 ^ n % 256 < 128 ∧ ((reads s c p).u 1).toNat / 256 ^ n % 256 < c.ws)) ∧
    (∀ n, n < 8 → ((reads s c p).u 2).toNat / 256 ^ n % 256 = 0xFF ∨ ((reads s c p).u 2).toNat / 256 ^ n % 256 < 63) ∧ (reads s c p).u 3 &&& 3 = 0 :=
  ⟨stateW id (fun c => ((c.setU 1 0xFFFFFFFFFFFF007F).setU 2 0x3E00FFFFFFFFFFFF).setU 3 0x2000) id,
    crewX id fun c => ((c.setU 1 0xFFFFFFFFFFFF007F).setU 2 0x3E00FFFFFFFFFFFF).setU 3 0x2000, splitW id, issues_of (by decide), clear_of (by decide), by decide, by decide,
    by decide, by decide, by decide⟩

/-- A crew's only split in recipe mode, and one with a sibling whose recipe is still to run. -/
theorem test_meets_recipe : ∃ (s : State) (c : Crew) (p : Split), Issues s c p ∧ p.recipe = true ∧ c.splits = [p] ∧
    Clear s (reads s c p) p { us := [1] } false ∧ (reads s c p).u 1 &&& 3 = 0 ∧ escapes (reads s c p) p ((reads s c p).u 1) = false :=
  ⟨stateW (fun p => { p with recipe := true }) (·.setU 1 0x2000) id, crewX (fun p => { p with recipe := true }) (·.setU 1 0x2000),
    splitW fun p => { p with recipe := true }, issues_of (by decide), by decide, by decide, clear_of (by decide), by decide, by decide⟩

theorem test_meets_recipe_next : ∃ (s : State) (c : Crew) (p q : Split), Issues s c p ∧ p.recipe = true ∧ q ∈ c.splits ∧ q.sid ≠ p.sid ∧ q.recipe = true ∧
    q.status = .recipeWait ∧ (∀ k ∈ c.splits, k.sid ≠ p.sid → k.sid = q.sid) ∧ (c.splits.map (·.sid)).Nodup :=
  ⟨stateW (fun p => { p with recipe := true }) (fun c => { c with splits := c.splits ++ [{ splitW id with sid := 3, recipe := true, status := .recipeWait }] }) id,
    crewX (fun p => { p with recipe := true }) fun c => { c with splits := c.splits ++ [{ splitW id with sid := 3, recipe := true, status := .recipeWait }] },
    splitW fun p => { p with recipe := true }, { splitW id with sid := 3, recipe := true, status := .recipeWait }, issues_of (by decide), by decide⟩

/-- TEAM_RETIRE of a grid's last team, without and with a child that has DV = 1. -/
theorem test_meets_team_retire : ∃ (s : State) (lid tid : Nat) (l : Launch) (x : Team), s.launch? lid = some l ∧ s.team? lid tid = some x ∧ x.phase = .resident ∧
    x.crewsLeft = 0 ∧ (∀ c ∈ s.crews, ¬ (c.lid = lid ∧ c.team = tid)) ∧ (∀ q ∈ s.copies, ¬ (q.lid = lid ∧ q.team = tid)) ∧
    (∀ q ∈ s.mats, ¬ (q.lid = lid ∧ q.team = tid)) ∧ s.orphans (fun core asid => core == x.core && asid == l.asid) = false ∧ l.record.hold = false ∧
    (∀ k ∈ s.launches, ¬ (k.parent = some lid ∧ k.ptid = tid ∧ k.record.done ≠ none)) ∧
    (∀ c ∈ s.crews, c.lid = lid → ∀ q ∈ c.loads, q.space ≠ .squad) ∧ ∀ h ∈ s.held, ¬ (h.lid = lid ∧ h.team = tid) :=
  ⟨restW fun s => { s with crews := [], teams := [{ fetchTeam 0 with crewsLeft := 0 }] }, 0, 0, _, _, rfl, rfl, by decide⟩

theorem test_meets_team_retire_kept : ∃ (s : State) (lid tid : Nat) (l : Launch) (x : Team), s.launch? lid = some l ∧ s.team? lid tid = some x ∧ x.phase = .resident ∧
    x.crewsLeft = 0 ∧ (∀ c ∈ s.crews, ¬ (c.lid = lid ∧ c.team = tid)) ∧ (∀ q ∈ s.copies, ¬ (q.lid = lid ∧ q.team = tid)) ∧
    (∀ q ∈ s.mats, ¬ (q.lid = lid ∧ q.team = tid)) ∧ s.orphans (fun core asid => core == x.core && asid == l.asid) = false ∧
    ∃ k ∈ s.launches, k.parent = some lid ∧ k.ptid = tid ∧ k.record.done ≠ none :=
  ⟨restW fun s => { s with crews := [], teams := [{ fetchTeam 0 with crewsLeft := 0 }]
                           launches := [fetchLaunch 0, launchW (fun r => { r with done := some 0x100 }) fun l => { l with lid := 7, parent := some 0 }] },
    0, 0, _, _, rfl, rfl, by decide⟩

/-- GRID_RETIRE of a cut grid with NOTIFY, and of one without. -/
theorem test_meets_grid_retire : ∀ n : Bool, ∃ (s : State) (lid : Nat) (l : Launch) (pa : DWord) (y : Context), s.launch? lid = some l ∧ l.isField = false ∧ l.status = some pa ∧
    (l.phase = .placed ∨ l.phase = .draining) ∧ l.record.teams ≤ l.retired ∧ l.record.teams ≤ l.nextTeam ∧ (∀ k ∈ s.launches, k.parent ≠ some lid) ∧
    (∀ c ∈ s.crews, c.lid ≠ lid) ∧ (∀ q ∈ s.copies, q.lid ≠ lid) ∧ (∀ q ∈ s.mats, q.lid ≠ lid) ∧ s.doneReady l = true ∧
    l.mute = false ∧ s.statusOk (s.deviceCore l.asid) l.asid pa.toNat = true ∧ s.context? l.asid = some y ∧ l.record.notify = n ∧ y.irqaddr ≠ 0 :=
  fun n => ⟨restW fun s => { s with crews := [], teams := [], contexts := [{ fetchContext with irqaddr := 0x8000000000000 }]
                                    launches := [launchW (fun r => { r with notify := n }) fun l => { l with retired := 1, cut := n, phase := .draining }] },
    0, _, _, { fetchContext with irqaddr := 0x8000000000000 }, rfl, by cases n <;> rfl, rfl, by cases n <;> decide⟩

/-- LAUNCH_AT_DUE at the very time. -/
theorem test_meets_launch_at_due : ∃ (s : State) (lid : Nat) (l : Launch) (w : DWord), s.launch? lid = some l ∧ l.phase = .held w ∧ w.toNat ≤ s.ftime.toNat :=
  ⟨restW fun s => { s with ftime := 5, launches := [launchW id fun l => { l with phase := .held 5 }] }, 0, _, 5, rfl, rfl, by decide⟩

/-- DISTRIBUTOR_PASS of a pending grid's last team, with a whole scratchpad. -/
theorem test_meets_distributor : ∃ (s : State) (part : Nat) (l : Launch) (n core : Nat) (rest cores : List Nat) (base row : Nat), s.pendingIn part = [l] ∧
    s.launch? l.lid = some l ∧ l.isField = false ∧ l.record.cores = false ∧ l.record.squad = 1 ∧ l.record.crews = 1 ∧ l.nextTeam = n ∧
    n < l.record.teams ∧ s.dieOrder (s.part part) = [cores] ∧ s.coreOrder cores = core :: rest ∧ s.firstFit core l.record.scratch = some base ∧
    s.admits core l.asid = true ∧ s.modeFits core l.record.fuseL1 = true ∧ (s.bars.filter (·.core == core)).length < 256 ∧
    s.pickRow core l.record.frame = some row ∧ s.team? l.lid n = none ∧ s.crew? s.nextId = none :=
  ⟨restW fun s => { s with crews := [], teams := [], launches := [launchW (fun r => { r with teams := 3 }) fun l => { l with nextTeam := 2, phase := .pending }] },
    0, _, 2, _, _, _, _, _, rfl, rfl, rfl, rfl, rfl, rfl, rfl, by decide, rfl, rfl, rfl, by decide, by decide, by decide, rfl, by decide, by decide⟩

theorem test_meets_switch : ∀ b : Bool, ∃ (s : State) (asid : Nat) (x : Context), s.context? asid = some x ∧ x.resident = true ∧ x.stopping = false ∧
    x.switching = b ∧ (s.runnable asid = false ∨ x.since + 1000 < s.micros) ∧ (∀ c ∈ s.crews, c.asid ≠ asid) ∧
    ∀ u ∈ s.teams, u.holds = true → ∀ l, s.launch? u.lid = some l → l.asid ≠ asid :=
  fun b => ⟨restW fun s => { s with crews := [], teams := [], launches := [], contexts := [{ fetchContext with switching := b }] }, 1, { fetchContext with switching := b }, rfl,
    rfl, rfl, rfl, .inl (by cases b <;> decide), (fun _ h => nomatch h), fun _ h => nomatch h⟩

/-- A runnable context whose residence has lasted 1 ms. -/
theorem test_meets_switch_runnable : ∃ (s : State) (x : Context), s.context? 1 = some x ∧ x.resident = true ∧ x.stopping = false ∧ x.switching = false ∧
    s.runnable 1 = true ∧ x.since + 1000 < s.micros :=
  ⟨restW fun s => { s with cycle := 3003000 }, fetchContext, by decide⟩

theorem test_meets_switch_in : ∃ (s : State) (asid : Nat) (x : Context), s.context? asid = some x ∧ x.resident = false ∧ s.runnable asid = true ∧
    s.residents x.part < (s.part x.part).resn :=
  ⟨restW fun s => { s with crews := [], launches := [launchW id fun l => { l with phase := .pending, nextTeam := 0 }], contexts := [{ fetchContext with resident := false }] },
    1, _, rfl, by decide⟩

/-- PREEMPT of a team whose crew's mark pins v127 and s62. -/
theorem test_meets_preempt : ∃ (s : State) (lid tid : Nat) (x : Team), s.team? lid tid = some x ∧ x.phase = .resident ∧ (∃ c ∈ s.crews, c.lid = lid ∧ c.team = tid) ∧
    (s.crews.map (·.cid)).Nodup ∧ s.teamBusy lid tid = false ∧ (∀ c ∈ s.crews, c.lid = lid → c.team = tid → s.crewQuiet c = true) ∧
    ∃ c ∈ s.crews, c.lid = lid ∧ c.team = tid ∧ ∃ p ∈ c.splits, 127 ∈ p.mark.lpin ∧ 62 ∈ p.mark.upin ∧ p.mask.getLsbD 31 = true :=
  ⟨restW fun s => { s with crews := [crewX (fun p => { p with mark := { p.mark with lpin := [127], upin := [62] } }) id], bars := [barW true], tiles := [tileW] }, 0, 0, fetchTeam 0,
    rfl, rfl, by decide, by decide, by decide, by decide, by decide⟩

/-- PREEMPT of a team that no crew is left of. -/
theorem test_meets_preempt_kept : ∃ (s : State) (lid tid : Nat) (x : Team), s.team? lid tid = some x ∧ x.phase = .retiredKept ∧
    (s.crews.map (·.cid)).Nodup ∧ s.teamBusy lid tid = false ∧ ∀ c ∈ s.crews, ¬ (c.lid = lid ∧ c.team = tid) :=
  ⟨restW fun s => { s with crews := [], teams := [{ fetchTeam 0 with phase := .retiredKept }] }, 0, 0, { fetchTeam 0 with phase := .retiredKept }, rfl, rfl, by decide,
    by decide, by decide⟩

/-- A split of a saved crew: its mark with a mask, a place in the order and a recipe. -/
def savedSplit (n : Nat) (mask : BitVec 32) (recipe : DWord) : Split :=
  splitW fun p => { p with sid := n, mark := { p.mark with mask := mask, seq := n, recipe := recipe, lpin := [1], upin := [1] } }

/-- A saved crew of two splits whose marks pin v1 and s1. -/
def savedCrew (a b : DWord) : SavedCrew :=
  ⟨crewX id fun c => { c with splits := [savedSplit 3 0xFFFF a, savedSplit 5 0xFFFF0000 b] }, [(32, 7)], [(1, 9)]⟩

def savedTeam (a b : DWord) : Team := { fetchTeam 0 with phase := .saved [savedCrew a b] [barW true] [] }

def savedDevice (a b : DWord) : State := restW fun s => { s with crews := [], teams := [savedTeam a b] }

set_option maxRecDepth 2000 in
/-- TEAM_RESUME of such a team. -/
theorem test_meets_resume : ∃ (s : State) (l : Launch) (x : Team) (y : Context) (v : SavedCrew) (bars : List BarObj)
    (faults : List FaultRec) (cores : List Nat) (core : Nat) (rest : List Nat) (base row : Nat), s = savedDevice 0x2000 0x2000 ∧ s.launch? 0 = some l ∧
    s.team? 0 0 = some x ∧ x.phase = .saved [v] bars faults ∧ l.record.squad = 1 ∧ s.context? l.asid = some y ∧ y.resident = true ∧ y.switching = false ∧
    s.teams.filter (fun u => u.lid == 0 && u.tid == 0) = [x] ∧ s.dieOrder (s.part (s.partOf l.asid)) = [cores] ∧
    s.coreOrder cores = core :: rest ∧ s.firstFit core x.size = some base ∧ s.admits core l.asid = true ∧ s.modeFits core l.record.fuseL1 = true ∧
    (s.bars.filter (·.core == core)).length < 256 ∧ (∀ b ∈ bars, ∀ k ∈ s.bars, k.core = core → k.idx ≠ b.idx) ∧
    s.pickRow core v.crew.frame = some row ∧ s.extraSplits core row + v.crew.splits.length ≤ 25 ∧ s.crew? v.crew.cid = none ∧
    v.crew.splits = [savedSplit 3 0xFFFF 0x2000, savedSplit 5 0xFFFF0000 0x2000] :=
  ⟨_, fetchLaunch 0, savedTeam _ _, fetchContext, savedCrew _ _, [barW true], [], _, _, _, _, _, rfl, rfl, rfl, rfl, rfl, rfl, rfl, rfl, rfl,
    rfl, rfl, rfl, by decide, by decide, by decide, by decide, rfl, by decide, rfl, rfl⟩

/-- Such a crew's splits have disjoint masks; the mark of the second was taken last, and the first has the oldest recipe. -/
theorem test_meets_resume_marks : let v := savedCrew 0x2000 0x2000
    (v.crew.splits.map (·.sid)).Nodup ∧ v.crew.splits.Pairwise (fun p q => p.mark.mask &&& q.mark.mask = 0) ∧
    (∀ q ∈ v.crew.splits, q.sid ≠ 5 → q.mark.seq < 5) ∧ (∀ q ∈ v.crew.splits, q.sid ≠ 3 → q.mark.recipe ≠ 0 → 3 < q.mark.seq) ∧
    ∀ p ∈ (savedCrew 0 0).crew.splits, p.mark.recipe = 0 := by decide

/-- The oldest command of a core on a bound tile, whatever its operation. -/
theorem test_meets_mat_head : ∀ op : MatOp, ∃ (s : State) (core : Nat) (q : MatCmd) (x : Tile), s.matHead core = some q ∧
    s.tile? q.core q.asid q.tile = some x ∧ q.op = op :=
  fun op => ⟨restW fun s => { s with tiles := [tileW], mats := [matW op] }, 0, matW op, tileW, by cases op <;> rfl, rfl, rfl⟩

/-- An ACC.ST of words to the scratchpad's end. -/
theorem test_meets_mat_st : ∃ (s : State) (core : Nat) (q : MatCmd) (x : Tile) (ctl dst : Nat) (sc : Word) (hdr : Nat) (team : Team), s.matHead core = some q ∧
    s.tile? q.core q.asid q.tile = some x ∧ q.op = .st ctl dst sc hdr ∧ s.team? q.lid q.team = some team ∧
    hdr + (storeBytes (ctl / 16 % 8) (ctl / 256 % 8) x sc).2.length ≤ dst ∧ dst + 16384 = 524288 ∧
    let early : State := { s with
      copies := s.copies.filter fun k => decide (k.seq < q.seq), mats := s.mats.filter fun k => decide (k.seq < q.seq) }
    ∀ r ∈ q.spans, early.scratchPending q.lid q.team r.1 r.2 = false ∧ early.scratchUnread q.lid q.team r.1 r.2 = false :=
  ⟨restW fun s => { s with tiles := [tileW], mats := [{ matW (.st 0x1F 507904 1 0) with spans := [(507904, 16384)] }] }, 0,
    { matW (.st 0x1F 507904 1 0) with spans := [(507904, 16384)] }, tileW, 0x1F, 507904, 1, 0, fetchTeam 0, rfl, rfl, rfl, rfl, by decide, rfl, by decide⟩

/-- A command that has yet to read bytes that an earlier copy is still to write. -/
theorem test_meets_mat_waits : ∃ (s : State) (core : Nat) (q : MatCmd), s.mats.find? (fun k => k.core == core && !k.ran) = some q ∧ s.readsPending q = true :=
  ⟨restW fun s => { s with
      tiles := [tileW]
      mats := [{ matW (.ld [] []) with reads := [(507904, 16384)] }]
      copies := [{ copyW .scratch none .queued with seq := 4 }] },
    0, { matW (.ld [] []) with reads := [(507904, 16384)] }, rfl, by decide⟩

theorem test_meets_mat_red : ∃ (s : State) (core : Nat) (q : MatCmd) (x : Tile) (op : AOp) (rows : List Nat), s.matHead core = some q ∧
    s.tile? q.core q.asid q.tile = some x ∧ q.op = .red op rows ∧ rows.length = 64 :=
  ⟨restW fun s => { s with tiles := [tileW], mats := [matW (.red .addF (List.replicate 64 0x3FFFFF00))] }, 0, matW (.red .addF (List.replicate 64 0x3FFFFF00)), tileW,
    .addF, List.replicate 64 0x3FFFFF00, rfl, rfl, rfl, rfl⟩

/-- The ends of an ACC.ST of blocks with headers and of an ACC.RED. -/
theorem test_meets_mat_ends : ∃ (s : State) (core : Nat) (q r : MatCmd) (ctl dst : Nat) (sc : Word) (hdr : Nat),
    s.mats.find? (fun k => k.core == core && k.ran && (match k.op with | .st _ _ _ _ => true | _ => false)) = some q ∧ q.op = .st ctl dst sc hdr ∧
    s.mats.find? (fun k => k.core == core && k.ran && (match k.op with | .red _ _ => true | _ => false) && s.adds.all fun a => a.job != some k.seq) = some r :=
  ⟨restW fun s => { s with mats := [{ matW (.red .addF []) with ran := true }, { matW (.st 0x44F 0 0 507904) with ran := true }] }, 0,
    { matW (.st 0x44F 0 0 507904) with ran := true }, { matW (.red .addF []) with ran := true }, 0x44F, 0, 0, 507904, rfl, rfl, rfl⟩

/-- The registration of a copy behind one of another core. -/
theorem test_meets_copy_registration : ∃ (s : State) (q : CopyCmd) (x : CopyPiece), s.copies.find? (·.seq == q.seq) = some q ∧ q.registered = false ∧
    (∀ k ∈ s.copies, k.registered = true ∨ k.core ≠ q.core ∨ q.seq ≤ k.seq) ∧ x ∈ q.pieces ∧ x.space = .global ∧ s.ownerOf (x.addr / 64) < 288 :=
  ⟨restW fun s => { s with copies := [{ copyW .global none .queued with seq := 4, core := 3 }, copyW .global none .queued], owner := [(0xFFFFFF, 287)] },
    copyW .global none .queued, _, rfl, rfl, by decide, .head _, by decide⟩

/-- COPY_DISPATCH and CP_AT_DISPATCH to engine 23, the only one of the partition. -/
theorem test_meets_copy_dispatch : ∃ (s : State) (core : Nat) (q : CopyCmd) (e : Nat), s.copies.find? (fun k => k.core == core && k.phase == .queued) = some q ∧ q.registered = true ∧ q.red ≠ none ∧
    (∀ x ∈ q.pieces, s.sourceReady q x = true) ∧ e < 24 ∧
    (sget 0 (s.part (s.partOf q.asid)).eng (q.core / 72)).getLsbD e = true ∧ (∀ k ∈ s.copies, k.phase ≠ .running (q.core / 72) e) ∧
    ∀ d, d < e → (sget 0 (s.part (s.partOf q.asid)).eng (q.core / 72)).getLsbD d = true → ∃ k ∈ s.copies, k.phase = .running (q.core / 72) d :=
  ⟨restW fun s => { s with copies := [{ copyW .global (some .addF) .queued with registered := true }], parts := [{ fetchPart with eng := [(0, 0x800000)] }] }, 0, _, 23, rfl, by decide⟩

theorem test_meets_timed_dispatch : ∃ (s : State) (core : Nat) (q : CopyCmd) (e : Nat) (w : DWord),
    s.copies.find? (fun k => k.core == core && k.seq == q.seq) = some q ∧ q.phase = .timed w ∧ w.toNat ≤ s.ftime.toNat ∧ q.registered = true ∧ q.red = none ∧ e < 24 ∧
    (sget 0 (s.part (s.partOf q.asid)).eng (q.core / 72)).getLsbD e = true ∧ (∀ k ∈ s.copies, k.phase ≠ .running (q.core / 72) e) ∧
    ∀ d, d < e → (sget 0 (s.part (s.partOf q.asid)).eng (q.core / 72)).getLsbD d = true → ∃ k ∈ s.copies, k.phase = .running (q.core / 72) d :=
  ⟨restW fun s => { s with copies := [{ copyW .scratch none (.timed 9) with registered := true }, { copyW .global none (.running 0 0) with seq := 4 }], ftime := 9
                           parts := [{ fetchPart with eng := [(0, 0x800001)] }] },
    0, { copyW .scratch none (.timed 9) with registered := true }, 23, 9, rfl, rfl, by decide⟩

/-- The last word of the first GiB lands, as the first of its line or not, and the last word of the scratchpad. -/
theorem test_meets_land : ∀ b : Bool, ∃ (s : State) (q : CopyCmd) (line d e : Nat) (x : CopyPiece),
    s.copies.find? (fun k => k.seq == q.seq && (match k.phase with | .running _ _ => true | _ => false)) = some q ∧ q.phase = .running d e ∧
    q.pieces.find? (fun y => y.space != .global || lineOf y.addr == line) = some x ∧ (∀ l ∈ x.srcLine, l ∈ q.read) ∧ x.space = .global ∧
    decide (lineOf x.addr ∉ q.wrote) = b ∧ s.mayReach (sliceOf q.core x.addr) q.core q.asid x.addr true true = true ∧
    (∀ y ∈ q.pieces.filter x.together, s.sooner q.lid q.seq y = false ∧ s.sourceReady q y = true) ∧
    s.mayRevoke (sliceOf q.core x.addr) noOwner ((q.pieces.filter x.together).map (·.addr / 4)) = true ∧
    (q.pieces.filter x.together).Pairwise (fun y z => y.addr + y.data.length ≤ z.addr ∨ z.addr + z.data.length ≤ y.addr) :=
  fun b => ⟨restW fun s => { s with copies := [{ copyW .global none (.running 0 23) with wrote := if b then [] else [0x3FFFFF] }] },
    { copyW .global none (.running 0 23) with wrote := if b then [] else [0x3FFFFF] }, 0x3FFFFF, 0, 23, _, by cases b <;> rfl, rfl, rfl, by cases b <;> decide, rfl,
    by cases b <;> decide, by cases b <;> decide, by cases b <;> decide, by cases b <;> decide, by cases b <;> decide⟩

theorem test_meets_land_scratch : ∃ (s : State) (q : CopyCmd) (line d e : Nat) (x : CopyPiece),
    s.copies.find? (fun k => k.seq == q.seq && (match k.phase with | .running _ _ => true | _ => false)) = some q ∧ q.phase = .running d e ∧
    q.pieces.find? (fun y => y.space != .global || lineOf y.addr == line) = some x ∧ (∀ l ∈ x.srcLine, l ∈ q.read) ∧ x.space ≠ .global ∧
    (∀ y ∈ q.pieces.filter x.together, s.sooner q.lid q.seq y = false ∧ s.sourceReady q y = true) ∧ (∀ y ∈ q.pieces.filter x.together, (s.team? q.lid y.team).isSome = true) ∧
    (q.pieces.filter x.together).Pairwise (fun y z => y.team ≠ z.team ∨ y.addr + y.data.length ≤ z.addr ∨ z.addr + z.data.length ≤ y.addr) :=
  ⟨restW fun s => { s with copies := [copyW .scratch none (.running 0 23)] }, copyW .scratch none (.running 0 23), 0, 0, 23, _, rfl, rfl, rfl, by decide, by decide,
    by decide, by decide, by decide⟩

/-- A running command whose source line is still to be read. -/
theorem test_meets_land_reads : ∃ (s : State) (q : CopyCmd) (line l : Nat) (x : CopyPiece),
    s.copies.find? (fun k => k.seq == q.seq && (match k.phase with | .running _ _ => true | _ => false)) = some q ∧
    q.pieces.find? (fun y => y.space != .global || lineOf y.addr == line) = some x ∧ x.srcLine = some l ∧ l ∉ q.read ∧
    s.mayReach (sliceOf q.core (256 * l)) q.core q.asid (256 * l) false false = true ∧ ∀ y ∈ q.pieces, y.srcLine = some l → s.sourceReady q y = true :=
  ⟨restW fun s => { s with copies := [{ copyW .scratch none (.running 0 23) with
      pieces := (copyW .scratch none .queued).pieces.map fun x => { x with saddr := 0x3FFFFF00, late := true } }] },
    { copyW .scratch none (.running 0 23) with pieces := (copyW .scratch none .queued).pieces.map fun x => { x with saddr := 0x3FFFFF00, late := true } }, 0, 0x3FFFFF, _,
    rfl, rfl, rfl, by decide, by decide, by decide⟩

/-- COPY_COMPLETE of a command whose words have landed, and of one with a last word to land in memory and in the scratchpad. -/
theorem test_meets_copy_complete : ∃ (s : State) (die e : Nat) (q : CopyCmd), s.copies.find? (·.phase == .running die e) = some q ∧
    (∀ k ∈ s.copies, k.seq = q.seq → k.pieces = []) ∧ ∀ a ∈ s.adds, a.job ≠ some q.seq :=
  ⟨restW fun s => { s with copies := [{ copyW .global none (.running 0 23) with pieces := [] }] }, 0, 23, { copyW .global none (.running 0 23) with pieces := [] },
    rfl, by decide, by decide⟩

theorem test_meets_copy_last (sp : Space) (h : sp ≠ .squad) : ∃ (s : State) (die e : Nat) (q : CopyCmd) (x : CopyPiece),
    s.copies.find? (·.phase == .running die e) = some q ∧ s.copies.filter (·.seq == q.seq) = [q] ∧ q.pieces = [x] ∧ (∀ l ∈ x.srcLine, l ∈ q.read) ∧ x.late = false ∧ x.space = sp ∧
    (x.space = .global ∧ lineOf x.addr ∉ q.wrote → s.mayReach (sliceOf q.core x.addr) q.core q.asid x.addr true true = true) ∧
    s.sooner q.lid q.seq x = false ∧ (x.space = .global → s.mayRevoke (sliceOf q.core x.addr) noOwner [x.addr / 4] = true) ∧ (∀ a ∈ s.adds, a.job ≠ some q.seq) ∧
    (s.team? q.lid x.team).isSome = true ∧ s.handleObj q.core q.lid q.team (BitVec.ofNat 64 q.handle) = none :=
  ⟨restW fun s => { s with copies := [copyW sp none (.running 0 23)] }, 0, 23, copyW sp none (.running 0 23), _, by cases sp <;> rfl, by cases sp <;> rfl, rfl,
    by cases sp <;> decide, rfl, rfl, by cases sp <;> first | decide | exact absurd rfl h, by cases sp <;> decide, by cases sp <;> decide, by cases sp <;> decide,
    by cases sp <;> decide,
    by cases sp <;> decide⟩

/-- STORE_TRANSLATE of a global store and of a RED of lane 31 to the end of the first GiB. -/
theorem test_meets_store_translate : ∀ o : Option AOp, ∃ (s : State) (cid sid : Nat) (c : Crew) (p : Split) (q : PStore) (rest : List PStore) (pa : LaneStore → Nat),
    s.crew? cid = some c ∧ c.split? sid = some p ∧ p.stores = q :: rest ∧ q.space = .global ∧ q.red = o ∧
    (∀ a ∈ q.lanes, s.translate c.core c.asid a.addr .write = .ok (pa a)) ∧
    q.lanes.Pairwise (fun a b => pa a + a.data.length ≤ pa b ∨ pa b + b.data.length ≤ pa a) :=
  fun o => ⟨storing (storeW .global 0x3FFFFFFC o) id, 0, 0, _, _, storeW .global 0x3FFFFFFC o, [], fun _ => 0x3FFFFFFC, rfl, rfl, rfl, rfl, rfl,
    fun _ h => by obtain rfl := List.mem_singleton.mp h; rfl, .cons (fun _ h => nomatch h) .nil⟩

/-- A store of lane 31 just beyond the translated GiB, while the fault queue is full. -/
theorem test_meets_translate_fault : ∃ (s : State) (cid sid : Nat) (c : Crew) (p : Split) (q : PStore) (rest : List PStore) (a : LaneStore) (r : Reason), s.crew? cid = some c ∧
    c.split? sid = some p ∧ p.stores = q :: rest ∧ q.space = .global ∧ q.lanes = [a] ∧ s.translate c.core c.asid a.addr .write = .error r ∧
    64 ≤ (s.faultq.filter fun g => g.core == c.core && !g.held).length :=
  ⟨storing (storeW .global 0x40000000 none) fun s => { s with faultq := List.replicate 64 (faultW false) }, 0, 0, _, _, storeW .global 0x40000000 none, [], _, _, rfl, rfl,
    rfl, rfl, rfl, rfl, by decide⟩

/-- A scratchpad store to the last word, and a squad-window store to the same word by rank 0. -/
theorem test_meets_translate_scratch : ∀ sp : Space, sp ≠ .global → ∃ (s : State) (cid sid : Nat) (c : Crew) (p : Split) (q : PStore) (rest : List PStore),
    s.crew? cid = some c ∧ c.split? sid = some p ∧ p.stores = q :: rest ∧ q.space = sp ∧
    (q.space = .squad → checkSquad s c p.pc (q.lanes.map fun a => (a.lane, a.addr)) = .ok ()) :=
  fun sp h => ⟨storing (storeW sp 524284 none) id, 0, 0, _, _, storeW sp 524284 none, [], rfl, rfl, rfl, rfl,
    by cases sp <;> first | exact absurd rfl h | decide | exact fun _ => rfl⟩

theorem test_meets_store_squad_trap : ∃ (s : State) (cid sid : Nat) (c : Crew) (p : Split) (q : PStore) (rest : List PStore) (k : Trap), s.crew? cid = some c ∧
    c.split? sid = some p ∧ p.stores = q :: rest ∧ q.space = .squad ∧ checkSquad s c p.pc (q.lanes.map fun a => (a.lane, a.addr)) = .error (.trap k) :=
  ⟨storing (storeW .squad 524288 none) id, 0, 0, _, _, storeW .squad 524288 none, [], _, rfl, rfl, rfl, rfl, rfl⟩

/-- A piece on a sector that an engine owns. -/
theorem test_meets_registration_engine : ∃ (s : State) (q : RegReq), s.regs.find? (·.id == 3) = some q ∧ (∀ b ∈ q.bytes, lineOf b.1 = q.line) ∧ q.inL1 = false ∧
    s.pieceReady q = true ∧ ({ s with regs := s.regs.erase q ++ [q] } : State).pieceBehind q = false ∧ s.ownsAll q.core q.bytes = false ∧
    s.mayReach (sliceOf q.core (256 * q.line)) q.core q.asid (256 * q.line) true false = true ∧
    s.mayRevoke (sliceOf q.core (256 * q.line)) (s.l1Core q.core (256 * q.line)) (wordsOf q.bytes) = true ∧ ∃ b ∈ q.bytes, s.engineOwned (b.1 / 64) = true :=
  ⟨restW fun s => { s with regs := [regW], owner := [(0xFFFFFF, 0x3FE)] }, regW, by decide⟩

theorem test_meets_fault_admit : ∃ (s : State) (core : Nat) (f : FaultRec), s.faultq.find? (fun f => f.core == core && f.held) = some f ∧
    (s.faultq.filter fun g => g.core == core && !g.held).length < 64 :=
  ⟨restW fun s => { s with faultq := [faultW false, faultW true] }, 0, faultW true, rfl, by decide⟩

/-- A store piece at the end of the first GiB that waits for nothing: it registers, or is performed in the L1 first. -/
theorem test_meets_registration : ∃ (s : State) (id : Nat) (q : RegReq), s.regs.find? (·.id == id) = some q ∧ (∀ b ∈ q.bytes, lineOf b.1 = q.line) ∧ q.inL1 = false ∧
    s.pieceReady q = true ∧ ({ s with regs := s.regs.erase q ++ [q] } : State).pieceBehind q = false ∧ s.ownsAll q.core q.bytes = false ∧
    s.mayReach (sliceOf q.core (256 * q.line)) q.core q.asid (256 * q.line) true false = true ∧
    s.mayRevoke (sliceOf q.core (256 * q.line)) (s.l1Core q.core (256 * q.line)) (wordsOf q.bytes) = true ∧ (q.bytes.map (·.1)).Nodup ∧ (1, 2) ∈ s.acks :=
  ⟨restW fun s => { s with regs := [regW], acks := [(0, 1), (1, 2)] }, 3, regW, rfl, by decide, by decide, by decide, by decide, by decide, by decide, by decide,
    by decide, by decide⟩

/-- A piece that its L1 has performed, and one whose core owns its sector. -/
theorem test_meets_registration_l1 : ∃ (s : State) (id : Nat) (q : RegReq), s.regs.find? (·.id == id) = some q ∧ (∀ b ∈ q.bytes, lineOf b.1 = q.line) ∧ q.inL1 = true ∧
    s.pieceBehind q = false ∧ s.ownsAll q.core q.bytes = false ∧
    s.mayReach (sliceOf q.core (256 * q.line)) q.core q.asid (256 * q.line) true false = true ∧
    s.mayRevoke (sliceOf q.core (256 * q.line)) (s.l1Core q.core (256 * q.line)) (wordsOf q.bytes) = true :=
  ⟨restW fun s => { s with regs := [{ regW with inL1 := true }] }, 3, { regW with inL1 := true }, rfl, by decide, rfl, by decide, by decide, by decide, by decide⟩

theorem test_meets_registration_owned : ∃ (s : State) (id : Nat) (q : RegReq), s.regs.find? (·.id == id) = some q ∧ (∀ b ∈ q.bytes, lineOf b.1 = q.line) ∧ q.inL1 = false ∧
    s.pieceReady q = true ∧ ({ s with regs := s.regs.erase q ++ [q] } : State).pieceBehind q = false ∧ s.ownsAll q.core q.bytes = true :=
  ⟨restW fun s => { s with regs := [regW], owner := [(0xFFFFFF, 0)] }, 3, regW, rfl, by decide, by decide, by decide, by decide, by decide⟩

/-- A write to the scratchpad's last word beside another split's on the same bytes, and the write of a BAR.INIT. -/
theorem test_meets_held_write : ∃ (s : State) (id : Nat) (h : HeldWrite), s.held.find? (·.id == id) = some h ∧ s.heldReady h = true ∧ h.bar = none ∧
    (s.team? h.lid h.team).isSome = true ∧ (h.bytes.map (·.1)).Nodup :=
  ⟨restW fun s => { s with held := [⟨9, 0, 0, [(524286, 1), (524287, 2)], none, 0, 1, 0, 0, 9, []⟩, ⟨8, 0, 0, [(524287, 3)], none, 0, 1, 0, 1, 8, []⟩] }, 9, _, rfl,
    by decide, by decide, by decide, by decide⟩

theorem test_meets_held_init : ∃ (s : State) (id : Nat) (h : HeldWrite) (core idx gen : Nat) (sq : Bool) (a b : Nat) (o : BarObj), s.held.find? (·.id == id) = some h ∧
    s.heldReady h = true ∧ h.bar = some (.init core idx gen sq a b) ∧ s.bar? core idx = some o ∧ o.gen = gen ∧ (s.team? o.lid o.team).isSome = true :=
  ⟨restW fun s => { s with bars := [barW false], held := [⟨9, 0, 0, [(524272, 0)], some (.init 0 0 1 true 0xFFFF 0), 0, 1, 0, 0, 9, []⟩] }, 9, _, 0, 0, 1, true, 0xFFFF, 0,
    barW false, rfl, by decide, rfl, by decide, by decide, by decide⟩

/-- SLICE_ADDER_OP of an atomic of lane 31 that writes two registers up to v127, and of a RED, on a sound word and on a poisoned one. -/
theorem test_meets_adder (ret : Option AddRet) (bad : Bool) (h : ret = none ∨ ret = some ⟨31, 126, 2, true⟩) : ∃ (s : State) (n : Nat) (q : AddReq) (c : Crew),
    s.adds.find? (·.id == n) = some q ∧ s.addBlocked q = false ∧ s.mayAdd q = true ∧
    s.mayRevoke (sliceOf q.core q.addr) noOwner q.words = true ∧ s.poisoned q.addr 4 = bad ∧ q.wide = false ∧ q.ret = ret ∧ s.crew? q.cid = some c ∧
    c.spilled = [] :=
  ⟨restW fun s => { s with adds := [addW .add ret], mpoison := if bad then [0xFFFFFFF] else [] }, 3, addW .add ret, crewX id id,
    by rcases h with rfl | rfl <;> cases bad <;> decide, by rcases h with rfl | rfl <;> cases bad <;> decide, by rcases h with rfl | rfl <;> cases bad <;> decide,
    by rcases h with rfl | rfl <;> cases bad <;> decide, by rcases h with rfl | rfl <;> cases bad <;> decide, rfl, rfl,
    by rcases h with rfl | rfl <;> cases bad <;> decide, rfl⟩

/-- Another lane's addition has paid for the line already. -/
theorem test_meets_adder_paid : ∃ (s : State) (n : Nat) (q : AddReq), s.adds.find? (·.id == n) = some q ∧ s.addBlocked q = false ∧ q.paid = true ∧
    s.mayRevoke (sliceOf q.core q.addr) noOwner q.words = true :=
  ⟨restW fun s => { s with adds := [{ addW .addF none with paid := true }] }, 3, { addW .addF none with paid := true }, by decide, by decide, rfl, by decide⟩

/-- An atomic whose result goes to a granule that stands in the spill area only. -/
theorem test_meets_adder_spilled : ∃ (s : State) (q : AddReq) (r : AddRet) (c : Crew), s.adds.find? (·.id == 3) = some q ∧ s.addBlocked q = false ∧ s.mayAdd q = true ∧
    s.mayRevoke (sliceOf q.core q.addr) noOwner q.words = true ∧ s.poisoned q.addr 4 = false ∧ q.wide = false ∧ q.ret = some r ∧ s.crew? q.cid = some c ∧
    r.group = 1 ∧ r.wseq = false ∧ r.lane < 32 ∧ ¬ (r.dst / 32 ∉ c.spilled ∨ r.dst / 32 ∈ c.resident) ∧ c.spillBase.toNat % 4096 = 0 ∧
    (s.writePairs (placed q.addr (leBytes 4 ((q.op.apply (BitVec.ofNat 64 (s.readNat q.addr 4)) q.x q.cmp).toNat % 2 ^ 32)))).devicePa c.asid
      (c.spillBase + BitVec.ofNat 64 (128 * r.dst)) .write = some 0x40008F80 ∧
    q.op.results (BitVec.ofNat 64 (s.readNat q.addr 4)) q.cmp none = [(q.op.results (BitVec.ofNat 64 (s.readNat q.addr 4)) q.cmp none).getD 0 0] :=
  ⟨restW fun s => { s with
      mem := [(8, 0x10001), (0x10000, 0x11001), (0x11000, 0x12001), (0x12008, 0x40000007)].foldl (fun m e => ssetList 0 m e.1 (leBytes 8 e.2)) s.mem
      adds := [addW .add (some ⟨31, 127, 1, false⟩)], crews := [crewX id fun c => { c with resident := [0, 1, 2], spilled := [3], spillBase := 0x40005000 }] },
    addW .add (some ⟨31, 127, 1, false⟩), ⟨31, 127, 1, false⟩, crewX id fun c => { c with resident := [0, 1, 2], spilled := [3], spillBase := 0x40005000 },
    by decide, by decide, by decide, by decide, by decide, rfl, rfl, rfl, rfl, rfl, by decide, by decide, by decide, by decide, by decide⟩

/-- Two lanes of an STC on one line: one holds a reservation of its word, the other none. -/
theorem test_meets_stc_pieces : ∃ (s : State) (q : AddReq) (c : Crew), s.adds.find? (·.id == 3) = some q ∧ q.op = .stc ∧ s.crew? q.cid = some c ∧
    let mine := s.adds.filter fun a => a.oneRequest q
    mine.length = 2 ∧ (∀ r ∈ c.loads, r.reserve = true → precedes q.anc q.sid q.seq r.sid r.seq = false) ∧
    (∀ a ∈ mine, State.addBlocked { s with adds := s.adds.filter fun a => !a.oneRequest q } a = false) ∧ s.mayAdd q = true ∧
    s.mayRevoke (sliceOf q.core q.addr) noOwner (mine.flatMap (·.words)) = true ∧
    (∀ a ∈ mine, a.wide = false ∧ a.addr % 4 = 0 ∧ ∃ r ∈ a.ret, r.lane < 32 ∧ (r.dst / 32 ∉ c.spilled ∨ r.dst / 32 ∈ c.resident) ∧
      ∀ e ∈ c.resv, e.lane = r.lane → e.word = a.addr / 4) ∧
    (mine.map (·.addr)).Nodup ∧ (mine.map fun a => a.ret.map (·.lane)).Nodup ∧ ⟨31, 0, 0xFFFFFFF⟩ ∈ c.resv :=
  ⟨restW fun s => { s with
      adds := [addW .stc (some ⟨31, 127, 1, false⟩), { addW .stc (some ⟨0, 127, 1, false⟩) with id := 4, addr := 0x3FFFFFF8, cmp := 4 }]
      crews := [crewX id fun c => { c with resv := [⟨31, 0, 0xFFFFFFF⟩] }] },
    addW .stc (some ⟨31, 127, 1, false⟩), crewX id fun c => { c with resv := [⟨31, 0, 0xFFFFFFF⟩] }, by decide⟩

/-- LOAD_DATA_ARRIVAL of the first piece of an LDR over two lines, of a whole load, and of an SLD to s62. -/
theorem test_meets_arrival_piece : ∃ (s : State) (cid sid : Nat) (c : Crew) (q : PLoad), s.crew? cid = some c ∧
    (c.loads.filter (·.sid == sid)).find? (fun q => !(s.nextPiece c q).isEmpty) = some q ∧ (q.lanes.map (·.lane)).Nodup ∧ (∀ a ∈ q.lanes, a.lane < 32) ∧
    q.reserve = true ∧ ∃ a ∈ q.lanes, a.got = none ∧ a ∉ s.nextPiece c q :=
  ⟨restW fun s => { s with crews := [crewX id fun c => { c with loads := [loadW false true [(0, 0x3FFFFEFC), (31, 0x3FFFFFFC)]] }] }, 0, 0, _, _, rfl, rfl, by decide⟩

theorem test_meets_arrival_whole : ∀ u : Bool, ∃ (s : State) (cid sid : Nat) (c : Crew) (q : PLoad), s.crew? cid = some c ∧
    (c.loads.filter (·.sid == sid)).find? (fun q => !(s.nextPiece c q).isEmpty) = some q ∧ (q.lanes.map (·.lane)).Nodup ∧ (∀ a ∈ q.lanes, a.lane < 32) ∧
    q.reserve = false ∧ (∀ a ∈ q.lanes, a ∈ s.nextPiece c q) ∧ q.uniform = u :=
  fun u => ⟨restW fun s => { s with crews := [crewX id fun c => { c with loads := [loadW u false [(31, 0x3FFFFFFC)]] }] }, 0, 0, _, loadW u false [(31, 0x3FFFFFFC)], rfl,
    by cases u <;> decide⟩

/-- The data of a load that is its split's last instruction are poisoned; a load to a granule that stands in the spill area only. -/
theorem test_meets_arrival_traps : ∃ (s : State) (c : Crew) (q : PLoad) (p : Split), s.crew? 0 = some c ∧
    (c.loads.filter (·.sid == 0)).find? (fun q => !(s.nextPiece c q).isEmpty) = some q ∧ (∀ a ∈ q.lanes, a ∈ s.nextPiece c q) ∧ q.fresh = true ∧
    p ∈ c.splits ∧ p.sid = 0 ∧ p.pc = q.pc + 4 ∧ p.status = .ready ∧ ∃ a ∈ q.lanes, (s.readLane c q (s.cleanHit c.core (pieceWords q (s.nextPiece c q))) a).2 = true :=
  ⟨restW fun s => { s with
      mpoison := [0xFFFFFFF]
      crews := [crewX (fun p => { p with pc := 0x1004 }) fun c => { c with loads := [{ loadW false false [(31, 0x3FFFFFFC)] with fresh := true }] }] },
    _, { loadW false false [(31, 0x3FFFFFFC)] with fresh := true }, splitW fun p => { p with pc := 0x1004 }, rfl, by decide⟩

theorem test_meets_arrival_spilled : ∃ (s : State) (c : Crew) (q : PLoad), s.crew? 0 = some c ∧
    (c.loads.filter (·.sid == 0)).find? (fun q => !(s.nextPiece c q).isEmpty) = some q ∧ (∀ a ∈ q.lanes, a ∈ s.nextPiece c q) ∧ q.fresh = false ∧ q.regs = 1 ∧
    ¬ (q.dst / 32 ∉ c.spilled ∨ q.dst / 32 ∈ c.resident) ∧ c.spillBase.toNat % 4096 = 0 ∧
    s.devicePa c.asid (c.spillBase + BitVec.ofNat 64 (128 * q.dst)) .write = some 0x40006F00 :=
  ⟨restW fun s => { s with mem := [(8, 0x10001), (0x10000, 0x11001), (0x11000, 0x12001), (0x12008, 0x40000007)].foldl (fun m e => ssetList 0 m e.1 (leBytes 8 e.2)) s.mem, crews := [crewX id fun c => { c with
      resident := [0, 2, 3], spilled := [1], spillBase := 0x40005000, loads := [loadW false false [(31, 0x3FFFFFFC)]] }] },
    _, loadW false false [(31, 0x3FFFFFFC)], rfl, by decide⟩

/-- LINE_FILL of a line that another miss has brought in, into a set with room, and into a full one. -/
theorem test_meets_line_fill_held : ∃ (s : State) (slice line : Nat) (m : Miss), s.misses.find? (fun m => m.slice == slice && m.cls == .general && m.line == line) = some m ∧
    s.holdsLine slice line = true :=
  ⟨restW fun s => { s with misses := [⟨0, .general, 4608, 2⟩], l2 := [⟨0, 4608, 1, 15, 0, 0, 1⟩] }, 0, 4608, _, rfl, by decide⟩

theorem test_meets_line_fill : ∃ (s : State) (slice line : Nat) (m : Miss), s.misses.find? (fun m => m.slice == slice && m.cls == .general && m.line == line) = some m ∧
    s.holdsLine slice line = false ∧ (s.setLines slice line).length + (s.setMirrors slice line).length = 15 :=
  ⟨restW fun s => { s with misses := [⟨0, .general, 73728, 2⟩], l2 := (List.range 11).map (fun k => ⟨0, 4608 * k, 1, 15, 0, 0, k⟩)
                           mirrors := (List.range 4).map fun k => ⟨0, 4608 * (20 + k), 0⟩ }, 0, 73728, _, rfl, by decide, by decide⟩

theorem test_meets_line_fill_full : ∃ (s : State) (slice line : Nat) (m : Miss) (v : L2Line),
    s.misses.find? (fun m => m.slice == slice && m.cls == .general && m.line == line) = some m ∧ s.holdsLine slice line = false ∧
    16 ≤ (s.setLines slice line).length + (s.setMirrors slice line).length ∧
    pickVictim ((s.setLines slice line).filter fun e => !s.linePending e.line && s.misses.all fun m => !(m.slice == slice && m.line == e.line && m.cls == .general)) = some v ∧
    (∀ i, i < 4 → s.recalling (4 * v.line + i) = false) ∧ v.d ≠ 0 ∧ s.backOk slice v.line = true ∧
    s.busyEntries slice .recall + (s.foreign noOwner [4 * v.line, 4 * v.line + 1, 4 * v.line + 2, 4 * v.line + 3]).length ≤ 8 :=
  ⟨restW fun s => { s with misses := [⟨0, .general, 73728, 2⟩], l2 := (List.range 16).map (fun k => ⟨0, 4608 * k, 1, 15, 8, 1, k⟩), owner := [(2, 5)] }, 0, 73728, _,
    ⟨0, 0, 1, 15, 8, 1, 0⟩, rfl, by decide, by decide, by decide +kernel, by decide, by decide, by decide, by decide⟩

/-- LINE_FILL of the last mirror of a line in the last slice of its partition. -/
theorem test_meets_mirror_fill : ∃ (s : State) (slice line k : Nat), (∀ m ∈ s.misses, ¬ (m.slice = slice ∧ m.line = line)) ∧ slice < 288 ∧
    slice / 24 ≠ sliceOf 0 (256 * line) / 24 ∧ s.onePart (slice / 12) (sliceOf 0 (256 * line) / 12) = true ∧ inDevice (256 * line) = true ∧
    (s.setMirrors slice line).length < 4 ∧ (s.setLines slice line).length + (s.setMirrors slice line).length < 16 ∧
    (∀ m ∈ s.mirrors, ¬ (m.slice = slice ∧ m.line = line)) ∧ k < 4 ∧ (∀ m ∈ s.mirrors, m.line = line → m.slot ≠ k) ∧
    ∀ j, j < k → ∃ m ∈ s.mirrors, m.line = line ∧ m.slot = j :=
  ⟨restW fun s => { s with mirrors := [⟨100, 0, 0⟩, ⟨200, 0, 1⟩, ⟨250, 0, 2⟩], parts := [{ fetchPart with size := 4, base := 0 }] }, 287, 0, 3, by decide, by decide, by decide,
    by decide, by decide, by decide, by decide, by decide, by decide, by decide, by decide⟩

theorem test_meets_spill_refill : ∃ (s : State) (slice : Nat) (m : Miss), s.spillq.find? (·.slice == slice) = some m ∧ s.busyEntries slice .general = 103 :=
  ⟨restW fun s => { s with spillq := [⟨287, .general, 5, 0⟩], misses := List.replicate 103 ⟨287, .general, 6, 0⟩ }, 287, _, rfl, by decide⟩

theorem test_meets_walk : ∃ (s : State) (core asid va : Nat) (l : Leaf), canonical (BitVec.ofNat 64 va) = true ∧ va < 2 ^ 64 ∧ s.tlbHit core asid va = none ∧
    walk s asid va = .ok l ∧ l.bits = 30 :=
  ⟨restW fun s => { s with mem := [(8, 0x10001), (0x10000, 0x11001), (0x11000, 0x12001), (0x12008, 0x40000007)].foldl (fun m e => ssetList 0 m e.1 (leBytes 8 e.2)) s.mem },
    0, 1, 0x7FFFFFFF, ⟨0x40000000, 30, true, false⟩, by decide⟩

/-- SECTOR_REVOKE through the last recall entry, OWNER_WRITE_BACK of a sector that is being revoked and of one that is not. -/
theorem test_meets_revoke : ∃ (s : State) (sector : Nat), s.ownerOf sector < 288 ∧ s.recalling sector = false ∧
    s.busyEntries (sliceOf (s.ownerOf sector) (64 * sector)) .recall = 7 :=
  ⟨restW fun s => { s with owner := [(3, 287)], misses := List.replicate 7 ⟨0, .recall, 9, 0⟩ }, 3, by decide⟩

theorem test_meets_write_back (b : Bool) : ∃ (s : State) (sector : Nat), s.ownerOf sector < 288 ∧ s.recalling sector = b ∧
    ∃ w ∈ s.l1, w.core = s.ownerOf sector ∧ w.addr / 16 = sector ∧ w.st = .ownedDirty :=
  ⟨restW fun s => { s with owner := [(3, 287)], l1 := [⟨287, 63, .ownedDirty, [1, 2, 3, 4], false⟩], misses := if b then [⟨0, .recall, 0, 3⟩] else [] }, 3,
    by cases b <;> decide⟩

/-- READ_FORWARD to core 0 of a word that core 287 owns, and PEER_L1_PROBE of core 1 in a cluster that is not fused, for a load that waits. -/
theorem test_meets_forward : ∃ (s : State) (core word : Nat), s.missing core word false = true ∧ s.ownerOf (word / 16) = 287 :=
  ⟨restW fun s => { s with crews := [crewX id fun c => { c with loads := [loadW false false [(31, 0x3C)]] }]
                           owner := [(0, 287)], l1 := [⟨287, 15, .ownedDirty, [1, 2, 3, 4], false⟩] }, 0, 15, by decide⟩

theorem test_meets_probe : ∃ (s : State) (core line : Nat) (w : L1Word), s.fused.contains (clusterOf core) = false ∧ w ∈ s.l1 ∧ w.core ≠ core ∧
    clusterOf w.core = clusterOf core ∧ w.addr / 64 = line ∧ w.data = s.readBytes (4 * w.addr) 4 ∧ s.missing core w.addr true = true :=
  ⟨restW fun s => { s with crews := [crewX id fun c => { c with loads := [loadW false false [(31, 0xFC)]] }]
                           l1 := [⟨1, 63, .clean, [0, 0, 0, 0], false⟩] }, 0, 0, ⟨1, 63, .clean, [0, 0, 0, 0], false⟩, by decide⟩

/-- R53, R160: data that an SLD of the split is still to bring hold up its next write of the register, those of another split do
not. -/
theorem test_uniform_write_order :
    (let c : Crew := crewX id fun c => { c with loads := [loadW true false [(0, 0x40)]] }
     let u : Uses := { ud := [(loadW true false [(0, 0x40)]).dst] }
     (u.busy (restW id) c (splitW id), u.busy (restW id) c (splitW fun p => { p with sid := 3 }))) = (true, false) := by decide

/-- SHELL_OP_EFFECT of GET.W, GET.P and an operation on word 15 of shell 575. -/
theorem test_meets_shell_effect : ∀ op ∈ [ShOp.getW, .getP 524224, .rmw 0 1 2], ∃ (s : State) (core shell : Nat) (q : ShReq) (c : Crew) (x : Team),
    s.passes core shell = true ∧ s.landing? shell = none ∧ s.queuedFor core shell = [q] ∧ q.op ≠ .land ∧ q.op ≠ .float ∧ s.shellEligible q = true ∧ q.word < 16 ∧
    q.shell = shell ∧ q.word ∉ s.passedWords core shell ∧ q.op = op ∧ s.crew? q.cid = some c ∧ s.team? q.lid q.team = some x := by
  intro op h
  refine ⟨passing 0 fun s => { s with shreqs := [shellW op] }, 0, 575, shellW op, crewX id id, fetchTeam 0, passing_passes _ 0 rfl, ?_⟩
  fin_cases h <;>
    exact ⟨by rfl, by rfl, by decide, by decide, passing_eligible _ 0 _ rfl rfl rfl rfl (by decide), by decide, rfl, by decide, rfl, rfl, rfl⟩

/-- SHELL_LAND_EFFECT with one berth in use, and SHELL_FLOAT_EFFECT. -/
theorem test_meets_land_effect : ∃ (s : State) (core shell : Nat) (q : ShReq) (rest : List ShReq), s.queuedFor core shell = q :: rest ∧ q.op = .land ∧
    s.passes core shell = true ∧ s.landing? shell = none ∧ s.isCooling shell = false ∧ (s.landings.filter (·.core == core)).length < 2 ∧
    s.shellEligible q = true ∧ (s.split? q.cid q.sid).isSome = true :=
  ⟨passing 0 fun s => { s with shreqs := [shellW .land], landings := [{ landedW with shell := 0 }] }, 0, 575, shellW .land, [], rfl, rfl,
    passing_passes _ 0 rfl, by rfl, by rfl, by decide, passing_eligible _ 0 _ rfl rfl rfl rfl (by decide), by rfl⟩

theorem test_meets_float_effect : ∃ (s : State) (shell : Nat) (h : Landing) (q : ShReq), s.landing? shell = some h ∧ s.floatReady h = some q ∧
    s.passes h.core shell = true ∧ h.lost = false ∧ h.working.length = 16 ∧ s.cycle = h.since + 14 * 576 :=
  ⟨passing 14 fun s => { s with shreqs := [shellW .float], landings := [{ landedW with since := 575 * Config.stationAt 0 + 575 }] }, 575,
    { landedW with since := 575 * Config.stationAt 0 + 575 }, shellW .float, by rfl,
    by simp only [State.floatReady]; exact List.find?_cons_of_pos (by simp [shellW, landedW]; exact passing_eligible _ 14 _ rfl rfl rfl rfl (by decide)), passing_passes _ 14 rfl, rfl, rfl,
    by show 575 * Config.stationAt 0 + 576 * 14 + 575 = 575 * Config.stationAt 0 + 575 + 14 * 576; omega⟩

/-- SHELL_OVERSTAY at the fourteenth pass. -/
theorem test_meets_overstay : ∃ (s : State) (shell : Nat) (h : Landing) (c : Crew) (p : Split) (x : Context), s.landing? shell = some h ∧ s.floatReady h = none ∧
    s.passes h.core shell = true ∧ h.lost = false ∧ h.original.length = 16 ∧ h.since + 14 * 576 = s.cycle ∧ s.crew? h.cid = some c ∧ c.split? h.sid = some p ∧
    s.context? h.asid = some x :=
  ⟨passing 14 fun s => { s with landings := [{ landedW with since := 575 * Config.stationAt 0 + 575 }] }, 575, { landedW with since := 575 * Config.stationAt 0 + 575 },
    crewX id id, splitW id, fetchContext, by rfl, by rfl, passing_passes _ 14 rfl, rfl, rfl, by show 575 * Config.stationAt 0 + 575 + 14 * 576 = 575 * Config.stationAt 0 + 576 * 14 + 575; omega,
    rfl, rfl, rfl⟩

theorem test_meets_landing_loss : ∃ (s : State) (shell : Nat) (h : Landing), s.landing? shell = some h ∧ h.lost = true ∧ s.passes h.core shell = true ∧
    h.original.length = 16 :=
  ⟨passing 0 fun s => { s with landings := [{ landedW with lost := true }] }, 575, { landedW with lost := true }, by rfl, rfl, passing_passes _ 0 rfl, rfl⟩

theorem test_meets_cooldown_end : ∃ (s : State) (shell n : Nat), (shell, n) ∈ s.cooling ∧ n ≤ s.cycle :=
  ⟨restW fun s => { s with cooling := [(575, 576)], cycle := 576 }, 575, 576, by decide⟩

/-- SPLIT_WAKE of a released BAR.WAIT and of a merged split. -/
theorem test_meets_wake : ∀ st ∈ [SStatus.barWait 255 .dev .flipped, .barWait 255 .team .freed, .waking], ∃ (s : State) (c : Crew) (p : Split),
    s.crew? c.cid = some c ∧ c.split? p.sid = some p ∧ (c.cid, p.sid) ∉ s.age ∧ (c.cid, p.sid) ∉ s.woke ∧ p.status = st := by
  intro st h
  refine ⟨restW fun s => { s with crews := [crewX (fun p => { p with status := st }) id], age := [] }, crewX (fun p => { p with status := st }) id,
    splitW fun p => { p with status := st }, ?_⟩
  fin_cases h <;> decide

theorem test_meets_swap : ∃ (s : State) (c : Crew) (p : Split) (f : Fallback), s.crew? c.cid = some c ∧ c.split? p.sid = some p ∧ p.fb = some f ∧ f.finished = false ∧
    f.count = 4096 ∧ p.status = .ready ∧ (c.touched f.pwb).all (c.resident.contains ·) = true ∧ c.resident.length ≤ c.frame / 32 :=
  ⟨restW fun s => { s with crews := [crewX (inside (constructW .fallback 0) (some { fallbackW false with count := 4096 })) id] },
    crewX (inside (constructW .fallback 0) (some { fallbackW false with count := 4096 })) id,
    splitW (inside (constructW .fallback 0) (some { fallbackW false with count := 4096 })), { fallbackW false with count := 4096 }, by decide⟩

theorem test_meets_shadow_end : ∃ (s : State) (c : Crew) (p : Split), s.crew? c.cid = some c ∧ c.split? p.sid = some p ∧ p.shadow ≠ 0 ∧ p.shadow ≤ s.cycle :=
  ⟨restW fun s => { s with crews := [crewX (fun p => { p with shadow := 4095 }) id], cycle := 4095 }, crewX (fun p => { p with shadow := 4095 }) id,
    splitW fun p => { p with shadow := 4095 }, by decide⟩

/-- A swap that must wait for a page of the spill area, of fabric memory, which no route reaches. -/
theorem test_meets_swap_held : ∃ (s : State) (c : Crew) (p : Split) (f : Fallback) (pa : Nat) (w : Bool), s.crew? c.cid = some c ∧ c.split? p.sid = some p ∧ p.fb = some f ∧
    f.finished = false ∧ 4096 ≤ f.count ∧ p.status = .ready ∧ swapArms s c.cid p.sid false p.muted = .error (.held pa w) ∧ p.waits ≠ some (pa, w) :=
  ⟨restW fun s => { s with
      crews := [crewX (inside (constructW .fallback 0) (some { fallbackW false with count := 4096, pwb := 32 })) fun c =>
        { c with frame := 64, resident := [0, 3], spillBase := 0x40000000, spillSize := 0x10000, spilled := [1] }]
      tlb := [⟨0, 1, 0, 30, 0, true, true⟩, ⟨0, 1, 0x40000000, 30, 0x800C000000000, true, true⟩] },
    crewX (inside (constructW .fallback 0) (some { fallbackW false with count := 4096, pwb := 32 })) fun c =>
      { c with frame := 64, resident := [0, 3], spillBase := 0x40000000, spillSize := 0x10000, spilled := [1] },
    splitW (inside (constructW .fallback 0) (some { fallbackW false with count := 4096, pwb := 32 })), { fallbackW false with count := 4096, pwb := 32 }, _, _,
    by decide, by decide, rfl, rfl, by decide, rfl, rfl, by decide⟩

/-- TRAP_ENTRY of a due SHOVERSTAY. -/
theorem test_meets_trap_taken : ∃ (s : State) (c : Crew) (p : Split) (k : Trap) (e : Nat × Trap), s.crew? c.cid = some c ∧ c.split? p.sid = some p ∧
    s.dueTrap c.cid p = some (k, e) ∧ s.mayIssue c p = true ∧ p.drained = true ∧ p.inHandler = false ∧ s.trapEnt c.asid ≠ 0 :=
  ⟨restW fun s => { s with crews := [crewX (fun p => { p with due := [(3, ⟨.shoverstay, 0, 0, 0⟩)] }) id] }, crewX (fun p => { p with due := [(3, ⟨.shoverstay, 0, 0, 0⟩)] }) id,
    splitW fun p => { p with due := [(3, ⟨.shoverstay, 0, 0, 0⟩)] }, ⟨.shoverstay, 0x1000, 0, 0⟩, (3, ⟨.shoverstay, 0, 0, 0⟩), by decide, by decide, by decide, by decide⟩

theorem test_meets_neighbour_read : ∃ (s : State) (c : Crew) (p : Split) (ops : List (Nat × Nat)), s.crew? c.cid = some c ∧ c.split? p.sid = some p ∧
    p.status = .nbrWait ops ∧ ∀ o ∈ ops, ∀ l ∈ activeLanes c p, (s.nbrVal c l o.1 o.2).isSome = true :=
  ⟨hosted (fun p => { p with status := .nbrWait [(0, 3), (3, 0)] }) { slot := 0, seats := [0], stepAt := none, issued := true, leaving := none, out := false } id,
    hostC (fun p => { p with status := .nbrWait [(0, 3), (3, 0)] }) { slot := 0, seats := [0], stepAt := none, issued := true, leaving := none, out := false },
    splitW fun p => { p with mask := 0xF, status := .nbrWait [(0, 3), (3, 0)] }, [(0, 3), (3, 0)], by decide⟩

theorem test_meets_step_complete : ∃ (s : State) (c : Crew) (p : Split) (l : Launch) (h : HostInfo) (x : Seat), s.crew? c.cid = some c ∧ c.split? p.sid = some p ∧
    s.launch? c.lid = some l ∧ c.splits = [p] ∧ c.host = some h ∧ h.leaving = none ∧ p.status = .stepWait ∧ s.switching c.asid = false ∧
    s.stepReady c p.mask = true ∧ p.mask.getLsbD 3 = true ∧ s.seat? c.lid (8 * c.team + 3 / 4) = some x :=
  ⟨hosted (fun p => { p with status := .stepWait }) { slot := 0, seats := [0], stepAt := none, issued := true, leaving := none, out := false } id,
    hostC (fun p => { p with status := .stepWait }) { slot := 0, seats := [0], stepAt := none, issued := true, leaving := none, out := false },
    splitW fun p => { p with mask := 0xF, status := .stepWait }, _, _, _, rfl, rfl, rfl, rfl, rfl, by decide, by decide, by decide, by decide, by decide, rfl⟩

/-- PAGE_OUT of the seat that leaves, and of one on a core that retires. -/
theorem test_meets_page_out : ∀ b : Bool, ∃ (s : State) (c : Crew) (p : Split) (l : Launch) (h : HostInfo) (seat : Nat) (x : Seat), s.crew? c.cid = some c ∧
    c.split? p.sid = some p ∧ s.launch? c.lid = some l ∧ s.hostOf c.lid seat = some c ∧ c.host = some h ∧ s.seat? c.lid seat = some x ∧ s.pageOutReady c = true ∧
    (h.leaving = some (seat % 8) ∨ h.out = true ∨ ((s.switching l.asid = true ∨ s.svc.retiring.contains c.core = true) ∧ s.evictable c = true)) ∧ c.splits = [p] ∧ l.lid = c.lid ∧ c.team = seat / 8 ∧ h.leaving = (if b then some 0 else none) :=
  fun b => ⟨hosted (fun p => { p with status := .stepWait }) { slot := 0, seats := [0], stepAt := none, issued := true, leaving := if b then some 0 else none, out := false } fun s =>
      { s with svc := { s.svc with retiring := if b then [] else [0] } },
    hostC (fun p => { p with status := .stepWait }) { slot := 0, seats := [0], stepAt := none, issued := true, leaving := if b then some 0 else none, out := false },
    splitW fun p => { p with mask := 0xF, status := .stepWait }, (fieldOf State.reset).launches.headD (fetchLaunch 0), { slot := 0, seats := [0], stepAt := none, issued := true, leaving := if b then some 0 else none, out := false }, 0,
    (fieldOf State.reset).seats.headD seatW, by cases b <;> decide⟩

theorem test_meets_host_cut : ∃ (s : State) (c : Crew) (p : Split) (h : HostInfo), s.crew? c.cid = some c ∧ c.split? p.sid = some p ∧ c.host = some h ∧
    s.inField c = true ∧ s.switching c.asid = true ∧ s.evictable c = false ∧ h.leaving = none ∧ h.out = false ∧ 1000 < s.sinceSwitch c.asid :=
  ⟨hosted id { slot := 0, seats := [0], stepAt := none, issued := true, leaving := none, out := false } fun s => { s with
      contexts := [{ fetchContext with switching := true, since := 5 }], ftime := s.ftime, cycle := 3018000 },
    hostC id { slot := 0, seats := [0], stepAt := none, issued := true, leaving := none, out := false }, splitW fun p => { p with mask := 0xF }, _, by decide, by decide, rfl, by decide⟩

/-- PCTL writes of partition 23: before BOOTOK, enabling the whole package, of a reserved bit, clearing EN while a context is live and afterwards. -/
theorem test_meets_pctl_enable : ∃ (s : State) (n size base : Nat) (v : Word), s.parts.length = 24 ∧ s.bays.length = 24 ∧ n < 24 ∧ s.svc.bootok = true ∧
    (s.part n).busy = false ∧ size < 5 ∧ base < 32 ∧ base % shapeBays size = 0 ∧ base + shapeBays size ≤ 24 ∧ v.toNat = 2 ^ 31 + 256 * size + base ∧
    (s.part n).en = false ∧ (∀ k, k < 24 → k ≠ n → (s.part k).en = true → ∀ b ∈ baysOf size base, b ∉ (s.part k).bays) ∧
    (∀ b ∈ baysOf size base, (s.bay b).retired = false) ∧ s.engBad n (s.part n).eng (baysOf size base) = false ∧ size = 4 :=
  ⟨partW 23 (fun p => { p with eng := [(0, 1), (1, 1), (2, 1), (3, 0x800000)] }) fun s => { s with parts := s.parts.set 0 Partition.reset, contexts := [] }, 23, 4, 0,
    0x80000400, by decide⟩

theorem test_meets_pctl_clear : ∀ b : Bool, ∃ (s : State) (n : Nat) (v : Word), s.parts.length = 24 ∧ s.bays.length = 24 ∧ n < 24 ∧ s.svc.bootok = true ∧
    (s.part n).busy = false ∧ v.toNat = 256 * (s.part n).size + (s.part n).base ∧ (s.part n).size < 5 ∧ (s.part n).base % shapeBays (s.part n).size = 0 ∧
    (s.part n).base + shapeBays (s.part n).size ≤ 24 ∧ (s.part n).en = true ∧ (∀ x ∈ (s.part n).bays, (s.bay x).scrub = false) ∧
    if b then ∃ x ∈ s.contexts, x.part = n else ∀ x ∈ s.contexts, x.part ≠ n :=
  fun b => ⟨partW 23 (fun p => { p with en := true, base := 23 }) fun s => { s with contexts := if b then [{ fetchContext with part := 23 }] else [fetchContext] }, 23, 23,
    by cases b <;> decide⟩

theorem test_meets_pctl_other : ∃ (s : State) (n d : Nat) (v w : Word), s.parts.length = 24 ∧ s.bays.length = 24 ∧ n < 24 ∧ s.svc.bootok = true ∧
    (s.part n).busy = false ∧ v.toNat / 32 % 8 ≠ 0 ∧ d < 4 ∧ w.toNat < 2 ^ 24 ∧ (s.part n).en = false :=
  ⟨bootW id, 23, 3, 32, 0xFFFFFF, by decide⟩

theorem test_meets_pctl_unbooted : ∃ (s : State) (n : Nat), s.parts.length = 24 ∧ s.bays.length = 24 ∧ n < 24 ∧ s.svc.bootok = false := ⟨State.reset, 23, by decide⟩

/-- BAY_RETIRE of a bay that an enabled partition holds, and of one that none does; CTX_START of no ASID. -/
theorem test_meets_bay_retire : ∃ (s : State) (n b d asid : Nat), s.parts.length = 24 ∧ s.bays.length = 24 ∧ n < 24 ∧ b < 24 ∧ d < 24 ∧
    (∃ x ∈ s.parts, x.en = true ∧ x.hasBay b = true) ∧ (∀ x ∈ s.parts, x.en = true → x.hasBay d = false) ∧ s.svc.bootok = true ∧ (s.part n).busy = false ∧
    65536 ≤ asid :=
  ⟨partW 0 (fun p => { p with en := false }) fun s => partW 23 (fun p => { p with en := true, base := 23 }) fun t => { s with parts := s.parts.set 23 (t.part 23) }, 23, 23,
    0, 65536, by decide⟩

/-- SCRUB_COMPLETE of bay 23, while no partition and while partition 23 waits to be cleared. -/
theorem test_meets_scrub : ∀ w : Bool, ∃ (s : State) (n b : Nat), s.parts.length = 24 ∧ s.bays.length = 24 ∧ n < 24 ∧ (s.bay b).scrub = true ∧
    (s.part n).pendOff = w ∧ (∀ k, k < 24 → k ≠ n → (s.part k).pendOff = false) ∧ ∀ k ∈ (s.part n).bays, k ≠ b → (s.bay k).scrub = false :=
  fun w => ⟨partW 23 (fun p => { p with en := true, base := 23, pendOff := w, busy := w }) fun s => { s with bays := s.bays.set 23 { Bay.reset with scrub := true } }, 23, 23,
    by cases w <;> decide⟩

/-- START of ASID 65,535 with all shells, and of a live one. -/
theorem test_meets_start : ∃ (s : State) (n asid : Nat), s.parts.length = 24 ∧ n < 24 ∧ s.svc.bootok = true ∧ (s.part n).busy = false ∧ s.startCode n asid = 0 ∧
    asid = 65535 ∧ (s.ctxEntry n asid).shcount = 576 :=
  ⟨partW 0 id fun s => { s with contexts := [], mem := ssetList 0 s.mem 0x3FFFC8 (leBytes 4 0x2400000) }, 0, 65535, by decide⟩

theorem test_meets_start_live : ∃ (s : State) (n asid : Nat), s.parts.length = 24 ∧ n < 24 ∧ s.svc.bootok = true ∧ (s.part n).busy = false ∧
    (s.context? asid).isSome = true := ⟨bootW id, 0, 1, by decide⟩

/-- Both phases of STOP. -/
theorem test_meets_stop : ∃ (s : State) (n asid : Nat) (x : Context), s.parts.length = 24 ∧ n < 24 ∧ s.svc.bootok = true ∧ s.context? asid = some x ∧ x.part = n ∧
    x.stopping = false ∧ (s.part n).busy = false ∧ (∀ c ∈ s.crews, c.asid = asid → s.inField c = false) ∧ (s.crews.map (·.cid)).Nodup ∧ s.crews ≠ [] :=
  ⟨bootW id, 0, 1, fetchContext, by decide⟩

theorem test_meets_stop_end : ∃ (s : State) (n asid : Nat) (x : Context), s.parts.length = 24 ∧ n < 24 ∧ s.svc.bootok = true ∧ s.context? asid = some x ∧ x.part = n ∧
    x.stopping = true ∧ s.stopReady asid = true :=
  ⟨bootW fun s => { s with crews := [], launches := [], teams := [], contexts := [{ fetchContext with switching := true, stopping := true }], tiles := [tileW] }, 0, 1,
    { fetchContext with switching := true, stopping := true }, by decide⟩

/-- Shootdowns of a context and of one that is not of the partition, and the end of one. -/
theorem test_meets_shootdown : ∃ (s : State) (n asid other : Nat), s.parts.length = 24 ∧ n < 24 ∧ s.svc.bootok = true ∧ (s.part n).sdbusy = false ∧ asid < 65536 ∧
    s.partOf asid = n ∧ other < 65536 ∧ s.partOf other ≠ n ∧ other = 65535 :=
  ⟨bootW fun s => { s with contexts := s.contexts ++ [{ fetchContext with asid := 65535, part := 1 }] }, 0, 1, 65535, by decide⟩

theorem test_meets_shootdown_end : ∃ (s : State) (n : Nat), s.parts.length = 24 ∧ n < 24 ∧ s.svc.bootok = true ∧ (s.part n).sdbusy = true ∧
    s.translatedDone ((s.part n).sdcmd.toNat % 65536) (s.part n).sdseq = true ∧ s.regs ≠ [] :=
  ⟨partW 23 (fun p => { p with sdbusy := true, sdcmd := 1, sdseq := 3 }) fun s => { s with regs := [regW] }, 23, by decide⟩

theorem test_meets_bucket_tick : ∃ (s : State) (slice : Nat), s.parts.length = 24 ∧ slice < 288 ∧ (s.contexts.map (·.asid)).Nodup ∧ (∀ x ∈ s.contexts, x.asid < 65536) ∧
    (∀ x ∈ s.contexts, s.waitsAt slice x.asid = false) ∧ s.ticked slice = false ∧ s.contexts ≠ [] := ⟨bootW fun s => { s with cycle := 3000 }, 11, by decide⟩

/-- A flit without a key entry, and one for which a reserved slot, the pool or neither has room. -/
theorem test_meets_flit : ∃ (s : State) (port : Nat), port < 72 ∧ s.fab.portLive.getLsbD port = true ∧ s.keyEntry 0xFFFE = none ∧ s.keyEntry 0xFFFF = some 63 ∧
    ((s.fab.slots.filter fun r => r.port == port && r.entry == 63).filter fun r => !r.pool).length < 16 ∧ (sget 0 s.fab.kdrop port).toNat = 65535 :=
  ⟨fabW (fun f => { f with slots := List.replicate 15 (flitW false), kdrop := [(71, 65535)] }) id, 71, by decide⟩

theorem test_meets_flit_pool : ∀ b : Bool, ∃ (s : State) (port : Nat), port < 72 ∧ s.fab.portLive.getLsbD port = true ∧ s.keyEntry 0xFFFF = some 63 ∧
    16 ≤ ((s.fab.slots.filter fun r => r.port == port && r.entry == 63).filter fun r => !r.pool).length ∧
    (s.fab.slots.filter fun r => r.port == port && r.pool).length < 256 ∧
    if b then ((s.fab.slots.filter fun r => r.port == port && r.entry == 63).filter (·.pool)).length < (sget 0 s.fab.kbkt 63).toNat / 2 ^ 32 % 512
    else (sget 0 s.fab.kbkt 63).toNat / 2 ^ 32 % 512 ≤ ((s.fab.slots.filter fun r => r.port == port && r.entry == 63).filter (·.pool)).length :=
  fun b => ⟨fabW (fun f => { f with slots := List.replicate 16 (flitW false), kbkt := if b then [(63, 0x100000000)] else [] }) id, 71, by cases b <;> decide⟩

/-- A request that holds a slot: a write and a read of the last 8 bytes of the export window, and one that hits nothing. -/
theorem test_meets_export : ∀ w : Bool, ∃ (s : State) (src key offset pa : Nat) (data : DWord) (q : Ingress), s.slotOf src key offset w data = some q ∧
    isArrival offset = false ∧ q.entry ≠ 64 ∧ q.place = some pa ∧ s.mayWriteHome pa 8 = true ∧ s.mayRecallLine (lineOf pa) = true ∧
    ∀ x ∈ accessWords pa 8, s.homePending x = false :=
  fun w => ⟨fabW (fun f => { f with slots := [{ flitW false with write := w }] }) fun s => { s with owner := [(0xFFFF / 64, 9)] }, 16383, 0xFFFF, 0xFFF8, 0xFFF8, 0,
    { flitW false with write := w }, by cases w <;> decide, by decide, by cases w <;> decide, rfl, by cases w <;> decide, by cases w <;> decide, by cases w <;> decide⟩

theorem test_meets_export_miss : ∀ w : Bool, ∃ (s : State) (src key offset : Nat) (data : DWord) (q : Ingress), s.slotOf src key offset w data = some q ∧
    isArrival offset = false ∧ q.entry ≠ 64 ∧ q.place = none :=
  fun w => ⟨fabW (fun f => { f with slots := [{ flitW false with write := w, offset := 0x10000, place := none }] }) id, 16383, 0xFFFF, 0x10000, 0,
    { flitW false with write := w, offset := 0x10000, place := none }, by cases w <;> decide, by decide, by cases w <;> decide, rfl⟩

/-- A request of the management endpoint to PWRCAP, which a write changes, and to IDENT, which it does not. -/
theorem test_meets_export_mgmt : ∃ (s : State) (src key : Nat) (q r : Ingress) (u : State), s.slotOf src key (mgmtBase + 0x18) true 5 = some q ∧
    s.slotOf src key mgmtBase true 5 = some r ∧ s.mgmtOk src key = true ∧ inMgmt (mgmtBase + 0x18) = true ∧ inMgmt mgmtBase = true ∧ q.entry = 64 ∧ r.entry = 64 ∧
    (s.leaveSlot q).mgmtWrite 0x18 8 5 = some u ∧ (s.leaveSlot r).mgmtWrite 0 8 5 = none :=
  ⟨fabW (fun f => { f with slots := [{ flitW false with src := 0, key := 0, offset := mgmtBase + 0x18, data := 5, entry := 64, place := none },
      { flitW false with src := 0, key := 0, offset := mgmtBase, data := 5, entry := 64, place := none }] }) id, 0, 0, _, _, _, rfl, rfl, by decide, by decide,
    by decide, rfl, rfl, rfl, rfl⟩

/-- A read of 4 bytes of the management endpoint. -/
theorem test_meets_export_half : ∃ (s : State) (q : Ingress), s.fab.slots.find? (fun r => r.src == 0 && r.key == 0 && r.offset == mgmtBase + 0x100004 && r.ask.isSome) = some q ∧
    q.ask = some (.half false) ∧ q.entry = 64 ∧ (mgmtBase + 0x100004) % 4 = 0 :=
  ⟨fabW (fun f => { f with slots := [{ flitW false with
      src := 0, key := 0, offset := mgmtBase + 0x100004, write := false, ask := some (.half false), entry := 64, place := none }] }) id, _, rfl, rfl, rfl, by decide⟩

/-- A remote arrival for a context of the key's partition and for another. -/
theorem test_meets_arrive : ∃ (s : State) (asid other src key : Nat) (q r : Ingress), s.slotOf src key (arrivalOffset asid) true 0x100 = some q ∧
    s.slotOf src key (arrivalOffset other) true 0x100 = some r ∧ s.partOf asid = q.part ∧
    s.partOf other ≠ r.part :=
  ⟨fabW (fun f => { f with slots := [{ flitW false with offset := arrivalOffset 1, data := 0x100, place := none },
        { flitW false with offset := arrivalOffset 65535, data := 0x100, place := none }] }) fun s =>
      { s with contexts := s.contexts ++ [{ fetchContext with asid := 65535, part := 23 }] }, 1, 65535, 16383, 0xFFFF,
    { flitW false with offset := arrivalOffset 1, data := 0x100, place := none }, { flitW false with offset := arrivalOffset 65535, data := 0x100, place := none },
    by decide, by decide, by decide, by decide⟩

theorem test_meets_arrival_performed : ∃ (s : State) (n : Nat) (a : HeldArrival) (o : BarObj) (x : Team), s.fab.arrivals[n]? = some a ∧
    (sget 0 s.fab.performed (65536 * a.src + a.key) - BitVec.ofNat 32 a.count).msb = false ∧ s.steeringOut a.asid = false ∧
    s.arrivalObj a.asid a.value = some o ∧ s.team? o.lid o.team = some x ∧ a.count = 0xFFFFFFFF :=
  ⟨fabW (fun f => { f with arrivals := [⟨1, 0x100, 5, 0xFFFF, 0xFFFFFFFF⟩], performed := [(65536 * 5 + 0xFFFF, 0x7FFFFFFE)] }) fun s =>
      { s with launches := [launchW id fun l => { l with gid := 0, status := none }], bars := [barW true] },
    0, ⟨1, 0x100, 5, 0xFFFF, 0xFFFFFFFF⟩, barW true, fetchTeam 0, by decide⟩

theorem test_meets_arrival_discarded : ∃ (s : State) (n : Nat) (a : HeldArrival) (y : Context), s.fab.arrivals[n]? = some a ∧
    (sget 0 s.fab.performed (65536 * a.src + a.key) - BitVec.ofNat 32 a.count).msb = false ∧ s.steeringOut a.asid = false ∧
    s.arrivalObj a.asid a.value = none ∧ s.context? a.asid = some y ∧ y.irqaddr ≠ 0 :=
  ⟨fabW (fun f => { f with arrivals := [⟨1, 0x100, 5, 0xFFFF, 0⟩] }) fun s => { s with contexts := [{ fetchContext with irqaddr := 0x8000000000000 }] }, 0,
    ⟨1, 0x100, 5, 0xFFFF, 0⟩, { fetchContext with irqaddr := 0x8000000000000 }, by decide⟩

/-- The time of an unusable route ends with a store piece and a load held for endpoint 6, while UECNT is at its last value. -/
theorem test_meets_route_timeout : ∃ (s : State) (ep : Nat) (c : Crew) (q : PLoad) (a : LaneLoad) (p : Split), (∃ r ∈ s.regs, s.heldFor ep r.core r.asid (256 * r.line) true = true) ∧
    (∀ c ∈ s.crews, c.spilled = []) ∧ s.heldFetch ep c p = false ∧ s.routeOk ep = false ∧
    s.svc.uecnt.toNat = 0xFFFFFFFF ∧ s.crew? c.cid = some c ∧ c.loads = [q] ∧ q.lanes = [a] ∧ s.heldLanes ep c q = [a] ∧ c.split? q.sid = some p ∧ c.splits = [p] ∧ q.fresh = true ∧ p.pc = q.pc + 4 ∧ p.status = .ready :=
  ⟨fabW id fun s => { s with
      regs := [{ regW with line := 0x800C000000000 / 256, bytes := [(0x800C000000000, 1)] }], svc := { s.svc with uecnt := 0xFFFFFFFF }
      crews := [crewX (fun p => { p with pc := 0x1004 }) fun c => { c with loads := [{ loadW false false [(31, 0x800C000000000)] with fresh := true }] }] },
    6, crewX (fun p => { p with pc := 0x1004 }) fun c => { c with loads := [{ loadW false false [(31, 0x800C000000000)] with fresh := true }] },
    { loadW false false [(31, 0x800C000000000)] with fresh := true }, ⟨31, 0, 0x800C000000000, 0x800C000000000, none⟩, splitW fun p => { p with pc := 0x1004 }, by decide⟩

theorem test_meets_retransmit : ∃ (s : State) (dst key port : Nat), s.strictPort dst key = some port ∧
    ∃ m ∈ s.fab.strict, m.dst = dst ∧ m.key = key ∧ (m.lost = true ∨ m.port = none) :=
  ⟨fabW (fun f => { f with strict := [messageW (some 70) true, messageW none false] }) id, 5, 0xFFFF, 71, by decide +kernel, by decide⟩

/-- A message that has left and is not yet acknowledged. -/
theorem test_meets_strict_ack : ∃ (s : State) (dst key : Nat) (m : StrictMsg), s.fab.strict.find? (fun m => m.dst == dst && m.key == key) = some m ∧ m.sent = true ∧
    m.lost = false :=
  ⟨fabW (fun f => { f with strict := [{ messageW (some 71) false with sent := true }] }) id, 5, 0xFFFF, { messageW (some 71) false with sent := true }, rfl, rfl, rfl⟩

theorem test_meets_kbkt : ∃ (s : State) (e : Nat) (v : DWord), s.svc.bootok = true ∧ e < 64 ∧
    (((List.range 64).filter (· != e)).map fun k => bucketRate (s.fab.nextBucket k)).sum + bucketRate v = 390 :=
  ⟨fabW (fun f => { f with kbkt := [(0, 100)], kbktNext := [(1, 200)] }) id, 63, 90, by decide⟩

/-- The tick of port 71, without and with a message that then has a token. -/
theorem test_meets_port_tick : ∃ (s t : State) (port e : Nat) (m : StrictMsg), port < 72 ∧ s.ticked (288 + port) = false ∧ t.ticked (288 + port) = false ∧ (s.fab.kbktNext.map (·.1)).Nodup ∧ (∀ m ∈ s.fab.strict, m.port ≠ some port) ∧
    (∀ x ∈ s.portWaits, x.1 ≠ port) ∧ m.sent = false ∧ s.fab.kbktNext ≠ [] ∧ (t.fab.kbktNext.map (·.1)).Nodup ∧ t.fab.strict = [m] ∧ m.port = some port ∧ m.lost = false ∧ t.fab.bucketOf m.key = some e ∧ e < 64 ∧
    0 < bucketCeil (t.fab.nextBucket e) ∧ 0 < t.fab.level port e + bucketRate (t.fab.nextBucket e) :=
  ⟨fabW (fun f => { f with kbktNext := [(63, 0x10001)] }) fun s => { s with cycle := 3000 },
    fabW (fun f => { f with kbktNext := [(63, 0x10001)], strict := [messageW (some 71) false] }) fun s => { s with cycle := 3000 }, 71, 63,
    messageW (some 71) false, by decide⟩

/-- Before a swap, during one, a live port and an enabled port that is not live, before and after the first exchange with the time master. -/
theorem test_meets_ports : ∃ (s t : State) (port other : Nat), s.svc.bootok = true ∧ s.fab.busy = false ∧ t.fab.busy = true ∧ port < 72 ∧ other < 72 ∧
    s.fab.portLive.getLsbD port = true ∧ s.fab.portEn.getLsbD port = true ∧ s.fab.portEn.getLsbD other = true ∧ s.fab.portLive.getLsbD other = false ∧
    s.fab.lock = false ∧ t.fab.lock = true ∧ s.routeOk (s.fab.ftsrc.toNat % 2 ^ 14) = true ∧ t.fab.syncAt + 1000 = t.micros ∧ messageW (some port) false ∈ s.fab.strict :=
  ⟨fabW (fun f => { f with strict := [messageW (some 71) false], ftsrc := 5 }) id,
    fabW (fun f => { f with busy := true, swapKey := true, lock := true, syncAt := 7 }) fun s => { s with cycle := 3000 * 1007 }, 71, 0, by decide +kernel⟩

/-- The places that an error can strike, an ATTNONCE that may be written and a quote in the making. -/
theorem test_meets_service : ∃ (s t : State) (lid tid core asid num cid w off : Nat) (x : Team) (y : Tile) (c : Crew), s.svc.bootok = true ∧ s.svc.attBusy = false ∧
    t.svc.attBusy = true ∧ off % 8 = 0 ∧ off < 64 ∧ s.team? lid tid = some x ∧ s.tile? core asid num = some y ∧ s.crew? cid = some c ∧ w < 16 ∧ w = 15 ∧ off = 56 ∧ (s.seat? lid tid).isSome = true ∧ s.l1Word? core 15 = some ⟨0, 15, .ownedDirty, [1, 2, 3, 4], false⟩ ∧
    s.l1Word? core 16 = some ⟨0, 16, .clean, [1, 2, 3, 4], false⟩ :=
  ⟨bootW fun s => { s with tiles := [tileW], seats := [seatW], l1 := [⟨0, 15, .ownedDirty, [1, 2, 3, 4], false⟩, ⟨0, 16, .clean, [1, 2, 3, 4], false⟩] }, bootW fun s => { s with svc := { s.svc with attBusy := true } }, 0, 0, 0, 1, 15, 0, 15, 56, fetchTeam 0, tileW, crewX id id,
    by decide⟩

/-- The retirement of an idle core with and without a spare, of a busy core, and of no core. -/
theorem test_meets_retirement : ∃ (s : State) (idle busy : Nat) (v w z : DWord), idle < 288 ∧ idle ∉ s.svc.fenced ∧ s.coreIdle idle = true ∧ busy < 288 ∧
    busy ∉ s.svc.fenced ∧ s.coreIdle busy = false ∧ busy ∉ s.svc.retiring ∧ v.toNat % 512 = idle ∧ w.toNat % 512 = busy ∧ 288 ≤ z.toNat % 512 ∧
    s.svc.bootok = true ∧ s.svc.retBusy = false ∧ 0 < sget 0 s.svc.spares (idle / 72) ∧ sget 0 s.svc.spares (71 / 72) = 0 ∧ s.coreIdle 71 = true ∧
    ∀ l ∈ s.launches, s.coxRuns l = false ∧ l.slots = [] :=
  ⟨bootW fun s => { s with svc := { s.svc with spares := [(3, 1)] } }, 287, 0, 287, 0, 288, by decide⟩

/-- PSCHED and CTXTAB while a command of their partition is being carried out. -/
theorem test_meets_window_busy : ∃ (s : State) (n : Nat), s.svc.bootok = true ∧ s.parts.length = 24 ∧ n < 24 ∧ (s.part n).busy = true :=
  ⟨partW 23 (fun p => { p with busy := true }) id, 23, by decide⟩

/-- The management window after BOOTOK, with either copy of the key table active. -/
theorem test_meets_window : ∀ b : Bool, ∃ (s : State) (n e asid : Nat) (v : DWord), s.svc.bootok = true ∧ s.parts.length = 24 ∧ n < 24 ∧ e < 64 ∧ s.fab.kact = b ∧
    (s.part n).busy = false ∧ asid < 65536 ∧ v = BitVec.ofNat 64 (0x10000 + asid) :=
  fun b => ⟨fabW (fun f => { f with kact := b }) id, 23, 63, 65535, 0x1FFFF, by cases b <;> decide⟩

theorem test_meets_tables : ∃ s : State, s.TablesWf ∧ s.owner ≠ [] ∧ s.bars ≠ [] ∧ s.teams ≠ [] :=
  ⟨restW fun s => { s with owner := [(3, 5)], wseq := [(9, 1)], shells := [(17, 2)], bars := [barW true] }, ⟨by decide, by decide, by decide, by decide, by decide, by decide, by rintro _ (_ | ⟨_, ⟨⟩⟩) _ _ _ ⟨⟩⟩,
    by decide, by decide, by decide⟩

/-- The formats of the statement on rounding, with a magnitude of more bits than the fraction. -/
theorem test_meets_rounding : ∀ p ∈ [(Fmt.f32, 32), (.f16, 16), (.bf16, 16)], ∃ m : Nat, p.1.frac < Nat.log2 m ∧
    ((p.1 = Fmt.f32 ∧ p.2 = 32) ∨ ((p.1 = Fmt.f16 ∨ p.1 = Fmt.bf16) ∧ p.2 = 16)) := by
  intro p h
  fin_cases h
  · exact ⟨2 ^ 24, by decide, by decide⟩
  · exact ⟨2 ^ 24, by decide, by decide⟩
  · exact ⟨2 ^ 24, by decide, by decide⟩

/-- R77 to R79: the greatest finite FP32 value, half a unit beyond it in two modes, and half the least subnormal. -/
theorem test_rounding :
    Fmt.f32.deliver 32 .rn (.fin false 0xFFFFFF 104) = (0x7F7FFFFF, Flags.none) ∧
    Fmt.f32.deliver 32 .rn (.fin true 0x1FFFFFF 103) = (0xFF800000, Flags.ofRound true false true) ∧
    Fmt.f32.deliver 32 .rz (.fin true 0x1FFFFFF 103) = (0xFF7FFFFF, Flags.ofRound false false true) ∧
    Fmt.f32.deliver 32 .rn (.fin false 1 (-150)) = (0, Flags.ofRound false true true) := by decide

/-- NC 255 in the highest lane, and AD 255, of a split inside a fallback construct. -/
theorem test_meets_ncovf : ∃ (s : State) (c : Crew) (p : Split), Issues s c p ∧ p.mask.getLsbD 31 = true ∧ c.ncOf 31 = 255 ∧
    (∀ l, l < 31 → p.mask.getLsbD l = true → c.ncOf l ≠ 255) ∧ Clear s (reads s c p) p { srcs := [.v 1] } false ∧ p.inHandler = false ∧ p.stack.length < 16 ∧ p.fb ≠ none :=
  ⟨stateW (inside (constructW .fallback 0) (some (fallbackW false))) (·.setNc 31 255) id, crewX (inside (constructW .fallback 0) (some (fallbackW false))) (·.setNc 31 255),
    splitW (inside (constructW .fallback 0) (some (fallbackW false))), issues_of (by decide), by decide, by decide, by decide, clear_of (by decide), by decide, by decide, by decide⟩

theorem test_meets_adovf : ∃ (s : State) (c : Crew) (p : Split), Issues s c p ∧ p.ad = 255 ∧ ∀ l, l < 32 → p.mask.getLsbD l = true → c.ncOf l ≠ 255 :=
  ⟨stateW (fun p => { p with ad := 255 }) id id, crewX (fun p => { p with ad := 255 }) id, splitW fun p => { p with ad := 255 }, issues_of (by decide), rfl, by decide⟩

/-- A crew of two splits, of a grid and of a field. -/
theorem test_meets_siblings : ∀ f : Bool, ∃ (s : State) (c : Crew) (p : Split), Issues s c p ∧ c.splits.length = 2 ∧ s.inField c = f ∧ p.inHandler = false ∧
    Clear s (reads s c p) p { us := [1, 2, 3] } true :=
  fun f => ⟨stateW (fun p => { p with mask := 0xFFFF }) (fun c => { c with splits := c.splits ++ [{ splitW id with sid := 3, mask := 0xFFFF0000 }] }) fun s =>
      if f then fieldOf s else s,
    crewX (fun p => { p with mask := 0xFFFF }) fun c => { c with splits := c.splits ++ [{ splitW id with sid := 3, mask := 0xFFFF0000 }] },
    splitW fun p => { p with mask := 0xFFFF }, issues_of (by cases f <;> decide), rfl, by cases f <;> decide, by decide, clear_of (by cases f <;> decide)⟩

theorem test_meets_full_stack : ∃ (s : State) (c : Crew) (p : Split), Issues s c p ∧ p.inHandler = false ∧ Clear s (reads s c p) p { srcs := [.v 1] } false ∧
    p.stack.length = 16 :=
  ⟨stateW (fun p => { p with stack := List.replicate 16 (constructW .inline 0) }) id id, crewX (fun p => { p with stack := List.replicate 16 (constructW .inline 0) }) id,
    splitW fun p => { p with stack := List.replicate 16 (constructW .inline 0) }, issues_of (by decide), by decide, clear_of (by decide), by decide⟩

/-- STEP of a host in a frame, and in a construct; RET outside a frame. -/
theorem test_meets_step_misused : ∀ d : Bool, ∃ (s : State) (c : Crew) (p : Split), Issues s c p ∧ s.inField c = true ∧ p.inHandler = false ∧ c.splits.length = 1 ∧
    if d then c.depth ≠ 0 else c.depth = 0 ∧ p.stack ≠ [] :=
  fun d => ⟨stateW (inside (constructW .inline 0) none) (fun c => { c with depth := if d then 1 else 0 }) fieldOf,
    crewX (inside (constructW .inline 0) none) (fun c => { c with depth := if d then 1 else 0 }), splitW (inside (constructW .inline 0) none),
    issues_of (by cases d <;> decide), by cases d <;> decide, by cases d <;> rfl, by cases d <;> rfl, by cases d <;> decide⟩

/-- CALL #120 at the deepest frame, and where the spill area holds the first granule of the new window alone. -/
theorem test_meets_spillovf : ∀ d : Bool, ∃ (s : State) (c : Crew) (p : Split), Issues s c p ∧ c.splits.length = 1 ∧
    let low := (c.wb + 8 * (15 : BitVec 6).toNat) / 32
    let high := (c.wb + 8 * (15 : BitVec 6).toNat + c.ws - 1) / 32
    if d then 65535 ≤ c.depth else c.depth < 65535 ∧ 0 < c.ws ∧ low ≤ 4 ∧ 4 ≤ high ∧ c.spillSize < 4096 * (4 + 1) ∧ ∀ h, h < 4 → low ≤ h → 4096 * (h + 1) ≤ c.spillSize :=
  fun d => ⟨stateW id (fun c => { c with spillSize := 16384, depth := if d then 65535 else 65534 }) id,
    crewX id (fun c => { c with spillSize := 16384, depth := if d then 65535 else 65534 }), splitW id, issues_of (by cases d <;> decide), by cases d <;> rfl,
    by cases d <;> decide⟩

/-- A pin on the last register of the window, and on a uniform register by a sibling; the same pin on CALL's link. -/
theorem test_meets_pinwrite : ∃ (s : State) (c : Crew) (p : Split), Issues s c p ∧ p.inHandler = false ∧ p.recipe = false ∧ c.wb + 127 ∈ p.mark.lpin ∧ 127 < c.ws ∧
    (∃ q ∈ c.splits, 62 ∈ q.mark.upin) ∧ IntRow (.sel 127 (.v 127) (.s 63)) 127 [.v 127, .s 63] true (fun v old => if old = 0 then v (.s 63) else v (.v 127)) :=
  ⟨stateW (fun p => { p with mark := { p.mark with lpin := [127], upin := [62] } }) id id, crewX (fun p => { p with mark := { p.mark with lpin := [127], upin := [62] } }) id,
    splitW (fun p => { p with mark := { p.mark with lpin := [127], upin := [62] } }), issues_of (by decide), by decide, rfl, by decide, by decide, by decide,
    .sel 127 (.v 127) (.s 63)⟩

theorem test_meets_call_pinwrite : ∃ (s : State) (c : Crew) (p : Split), Issues s c p ∧ c.splits.length = 1 ∧ c.depth < 65535 ∧ 0 < c.ws ∧
    (∀ g, g ≤ (c.wb + 8 * 15 + c.ws - 1) / 32 → (c.wb + 8 * 15) / 32 ≤ g → 4096 * (g + 1) ≤ c.spillSize) ∧ c.wb + 8 * 15 - 2 ∈ p.mark.lpin :=
  ⟨stateW (fun p => { p with mark := { p.mark with lpin := [118] } }) (fun c => { c with spillSize := 32768 }) id,
    crewX (fun p => { p with mark := { p.mark with lpin := [118] } }) (fun c => { c with spillSize := 32768 }), splitW (fun p => { p with mark := { p.mark with lpin := [118] } }),
    issues_of (by decide), by decide, by decide, by decide, by decide, by decide⟩

/-- A lane access that is misaligned in lane 31 alone, one that leaves the scratchpad by one word, one of the squad window beyond the squad, and one that does not
translate. -/
theorem test_meets_lane_traps : ∃ (s : State) (c : Crew) (p : Split), Issues s c p ∧ FenceOver s c p ∧ Clear s (reads s c p) p { rd := [1], wr := [3], us := [2] } false ∧
    (∀ l ∈ activeLanes c p, (lmAddr (reads s c p) l 1 2 0).toNat % 4 ≠ 0 ↔ l = 31) ∧
    Clear s (reads s c p) p { rd := [], wr := [3], us := [63] } false ∧ s.scratchSize c.lid c.team < (lmAddr (reads s c p) 0 0x80 63 0).toNat + 4 ∧
    s.squadBad c (lmAddr (reads s c p) 0 0x80 62 0) = true ∧ (s.translate c.core c.asid (lmAddr (reads s c p) 0 0x80 61 0) .read).toOption = none :=
  ⟨stateW id (fun c => (((c.setAbs 31 1 1).setU 63 524288).setU 62 0x100000).setU 61 0x40000000) id,
    crewX id (fun c => (((c.setAbs 31 1 1).setU 63 524288).setU 62 0x100000).setU 61 0x40000000), splitW id, issues_of (by decide), fenceOver_none rfl rfl rfl,
    clear_of (by decide), by decide, clear_of (by decide), by decide, by decide, by decide⟩

/-- A squad whose second team has retired and is gone. -/
theorem test_meets_squad_gone : ∃ (s : State) (c : Crew) (p : Split), Issues s c p ∧ s.squadBad c 0x100000 = false ∧ s.squadGone c 0x100000 = true :=
  ⟨stateW id id fun s => { s with launches := [launchW (fun r => { r with squad := 2 }) id] }, crewX id id, splitW id, issues_of (by decide), by decide, by decide⟩

/-- An ATOM whose address is misaligned, and one whose address does not translate. -/
theorem test_meets_atom_traps : ∀ m : Bool, ∃ (s : State) (c : Crew) (p : Split), Issues s c p ∧ Clear s (reads s c p) p { rd := [126, 127] ++ group 124 1, wr := group 124 1 } true ∧
    FenceOver s c p ∧ activeLanes c p = [0] ∧ (if m then (c.vPair 0 126).toNat % 4 ≠ 0 else (c.vPair 0 126).toNat % 4 = 0 ∧
      (s.translate c.core c.asid (c.vPair 0 126) .write).toOption = none) :=
  fun m => ⟨stateW id (fun c => oneLane (c.setAbs 0 126 (if m then 2 else 0x40000000))) id, crewX id (fun c => oneLane (c.setAbs 0 126 (if m then 2 else 0x40000000))), splitW id,
    issues_of (by cases m <;> decide), clear_of (by cases m <;> decide), fenceOver_none rfl rfl rfl, by cases m <;> decide, by cases m <;> decide⟩

/-- The operands of CP.BULK that break each of its rules: of its first operand, a reserved bit, no bytes and a reserved space; of its addresses, a byte that is not
aligned and the scratchpad's end; of its handle, a reserved bit. -/
theorem test_meets_bulk_traps : ∀ x ∈ [((0x1000000000, 0, 0, 0) : Nat × Nat × Nat × Nat), (0x800000000, 0, 0, 0), (0xC00000004, 0, 0, 0), (4, 2, 0, 0),
      (0x400000004, 524288, 0, 0), (0x400000004, 524284, 1, 0), (0x500000004, 524284, 524288, 0), (0x500000004, 524284, 524284, 0x20000)],
    ∃ (s : State) (c : Crew) (p : Split), Issues s c p ∧ FenceOver s c p ∧ Clear s (reads s c p) p { us := [1, 2, 3, 4] } true ∧
      ((reads s c p).u 1).toNat = x.1 ∧ ((reads s c p).u 2).toNat = x.2.1 ∧ ((reads s c p).u 3).toNat = x.2.2.1 ∧ ((reads s c p).u 4).toNat = x.2.2.2 := by
  intro x h
  refine ⟨stateW id (fun c => (((c.setU 1 (.ofNat 64 x.1)).setU 2 (.ofNat 64 x.2.1)).setU 3 (.ofNat 64 x.2.2.1)).setU 4 (.ofNat 64 x.2.2.2)) id,
    crewX id (fun c => (((c.setU 1 (.ofNat 64 x.1)).setU 2 (.ofNat 64 x.2.1)).setU 3 (.ofNat 64 x.2.2.1)).setU 4 (.ofNat 64 x.2.2.2)), splitW id, ?_⟩
  fin_cases h <;>
    exact ⟨issues_of (by decide), fenceOver_none rfl rfl rfl, clear_of (by decide), by decide, by decide, by decide, by decide⟩

/-- A tile number beyond 15, a tile of another team, and an operand of MMA that is misaligned or leaves the scratchpad. -/
theorem test_meets_tile_traps : ∃ (s : State) (c : Crew) (p : Split) (x : Tile), Issues s c p ∧ Clear s (reads s c p) p { us := [1] } true ∧ ((reads s c p).u 1).toNat = 16 ∧
    Clear s (reads s c p) p { us := [2] } true ∧ ((reads s c p).u 2).toNat = 15 ∧ s.tile? c.core c.asid 15 = some x ∧ x.team ≠ c.team ∧
    Clear s (reads s c p) p { us := [2, 3, 3, 3] } true ∧ ((reads s c p).u 3).toNat % 16 ≠ 0 ∧ ((reads s c p).u 4).toNat % 16 = 0 ∧
    s.scratchSize c.lid c.team < ((reads s c p).u 4).toNat + 3072 :=
  ⟨stateW id (fun c => (((c.setU 1 16).setU 2 15).setU 3 8).setU 4 521232) fun s => { s with tiles := [{ tileW with team := 1 }] },
    crewX id fun c => (((c.setU 1 16).setU 2 15).setU 3 8).setU 4 521232, splitW id, { tileW with team := 1 }, issues_of (by decide), clear_of (by decide), by decide,
    clear_of (by decide), by decide, by decide, by decide, clear_of (by decide), by decide, by decide, by decide⟩

/-- BAR.ARRIVE.Q on an object of team scope. -/
theorem test_meets_arrive_team : ∃ (s : State) (c : Crew) (p : Split) (o : BarObj), Issues s c p ∧ Clear s (reads s c p) p { us := [1, 2] } true ∧
    ((reads s c p).u 2).toNat % 0x100000 = 0 ∧ checkRanks (begun s c p) (reads s c p) p.pc [(0, (reads s c p).u 2)] = .ok () ∧ ((reads s c p).u 1).toNat < 2 ^ 17 ∧
    s.handleObj 0 c.lid (s.squadTeam c ((reads s c p).u 2)) ((reads s c p).u 1) = some o ∧ s.barValid c.cid p o = true ∧ s.barSettled c p o = true ∧ o.squad = false :=
  ⟨stateW id (·.setU 1 0x100) fun s => { s with bars := [barW false] }, crewX id (·.setU 1 0x100), splitW id, barW false, issues_of (by decide), clear_of (by decide), by decide, rfl,
    by decide, by decide, by decide, by decide, rfl⟩


end Sys2Proof.Machine
end

section
/-! The encoder and the decoder agree: one lemma per format of the words, then the walk over the instructions. -/

namespace Sys2Proof

/-- The decoder by the opcode byte of the word, bit 31 included (R37, Tables 3.5 and 3.9). -/
noncomputable def decodeOp (op x : Nat) : Except Reject Instr :=
  match op / 16 with
  | 0 => decodeRow0 (op % 16) x
  | 1 => decodeRow1 (op % 16) x
  | 2 => decodeRow2 (op % 16) x
  | 3 => decodeRow3 (op % 16) x
  | 4 => decodeRow4 (op % 16) x
  | 5 => decodeRow5 (op % 16) x
  | 6 => decodeRow6 (op % 16) x
  | 7 => decodeRow7 (op % 16) x
  | 8 => decodeRow8 (op % 16) x
  | 10 => decodeRowA (op % 16) x
  | 11 => decodeRowB (op % 16) x
  | 12 => decodeRowC (op % 16) x
  | 13 => decodeRowD (op % 16) x
  | 14 => decodeRowE (op % 16) x
  | 15 => decodeRowF (op % 16) x
  | _ => .error .reservedOpcode

/-- A word decodes by its opcode byte. -/
theorem decode_eq_decodeOp (w : Word) : decode w = decodeOp (fld w.toNat 24 8).toNat w.toNat := by
  have hw := w.isLt
  have hhi : (fld w.toNat 28 4).toNat = (fld w.toNat 24 8).toNat / 16 := by
    simp only [fld, BitVec.toNat_ofNat, Nat.shiftRight_eq_div_pow]; omega
  have hlo : (fld w.toNat 24 4).toNat = (fld w.toNat 24 8).toNat % 16 := by
    simp only [fld, BitVec.toNat_ofNat, Nat.shiftRight_eq_div_pow]; omega
  simp only [decode, hhi, hlo]
  rfl

/-- A packed number decodes by the opcode that stands from bit 24 up. -/
theorem decode_ofNat {x op : Nat} (hop : op < 256) (h : fld x 24 8 = fld op 0 8) :
    decode (.ofNat 32 x) = decodeOp op (BitVec.ofNat 32 x).toNat := by
  rw [decode_eq_decodeOp, fld_word x 24 8 (by decide), h]
  simp [fld, Nat.mod_eq_of_lt hop]

/-- A field of a field is a field of the number. -/
theorem fld_fld (x lo n a b : Nat) (h : a + b ≤ n) : fld (fld x lo n).toNat a b = fld x (lo + a) b := by
  obtain ⟨j, rfl⟩ := Nat.exists_eq_add_of_le h
  apply BitVec.eq_of_toNat_eq
  simp only [fld, Nat.shiftRight_eq_div_pow, BitVec.toNat_ofNat]
  rw [Nat.pow_add, Nat.pow_add, Nat.pow_add, Nat.mul_assoc, Nat.mod_mul_right_div_self, Nat.div_div_eq_div_mul,
    Nat.mod_mod_of_dvd _ (Nat.dvd_mul_right _ _)]

/-- A number with a field that is not zero is not zero in a wider field around it. -/
theorem fld_ne_zero {x lo n a b : Nat} (h : a + b ≤ n) (hne : fld x (lo + a) b ≠ 0#b) : fld x lo n ≠ 0#n := by
  intro h0
  rw [← fld_fld x lo n a b h, h0] at hne
  exact hne (by simp [fld])

section Formats
/-! One lemma per format of Tables 3.1 and 3.4: an opcode whose decoder takes the fields at their places, where the reserved fields and the
function code are `k`, reads back what was packed in that format. -/

variable {op : Nat} (hop : op < 256)
include hop

/-- No operand. -/
theorem decode_bare {k : BitVec 24} {i : Instr} (h : ∀ x, fld x 0 24 = k → decodeOp op x = .ok i) :
    decode (.ofNat 32 (cat op k)) = .ok i := by
  rw [decode_ofNat hop, h] <;> simp [fld_word, fld_cat_hi, fld_cat_lo, fld_all, -BitVec.toNat_ofNat]

/-- LR. -/
theorem decode_lr {mk : BitVec 8 → Src → Src → Instr} {d a b}
    (h : ∀ x, decodeOp op x = .ok (mk (fld x 16 8) (Src.ofField (fld x 8 8)) (Src.ofField (fld x 0 8)))) :
    decode (.ofNat 32 (cat (cat (cat op d) a.toField) b.toField)) = .ok (mk d a b) := by
  rw [decode_ofNat hop, h] <;> simp [fld_word, fld_cat_hi, fld_cat_lo, fld_all, Src.ofField_toField, -BitVec.toNat_ofNat]

/-- LR whose field B is `k`. -/
theorem decode_lrUnary {k : BitVec 8} {mk : BitVec 8 → Src → Instr} {d a}
    (h : ∀ x, fld x 0 8 = k → decodeOp op x = .ok (mk (fld x 16 8) (Src.ofField (fld x 8 8)))) :
    decode (.ofNat 32 (cat (cat (cat op d) a.toField) k)) = .ok (mk d a) := by
  rw [decode_ofNat hop, h] <;> simp [fld_word, fld_cat_hi, fld_cat_lo, fld_all, Src.ofField_toField, -BitVec.toNat_ofNat]

/-- LI. -/
theorem decode_li {mk : BitVec 8 → Src → BitVec 8 → Instr} {d a i}
    (h : ∀ x, decodeOp op x = .ok (mk (fld x 16 8) (Src.ofField (fld x 8 8)) (fld x 0 8))) :
    decode (.ofNat 32 (cat (cat (cat op d) a.toField) i)) = .ok (mk d a i) := by
  rw [decode_ofNat hop, h] <;> simp [fld_word, fld_cat_hi, fld_cat_lo, fld_all, Src.ofField_toField, -BitVec.toNat_ofNat]

/-- LI of a shift, whose bits 7:5 are `k`. -/
theorem decode_liShift {k : BitVec 3} {mk : BitVec 8 → Src → BitVec 5 → Instr} {d a i}
    (h : ∀ x, fld x 5 3 = k → decodeOp op x = .ok (mk (fld x 16 8) (Src.ofField (fld x 8 8)) (fld x 0 5))) :
    decode (.ofNat 32 (cat (cat (cat (cat op d) a.toField) k) i)) = .ok (mk d a i) := by
  rw [decode_ofNat hop, h] <;> simp [fld_word, fld_cat_hi, fld_cat_lo, fld_all, Src.ofField_toField, -BitVec.toNat_ofNat]

/-- LC with an operand. -/
theorem decode_lc {mk : Src → BitVec 16 → Instr} {a r}
    (h : ∀ x, decodeOp op x = .ok (mk (Src.ofField (fld x 16 8)) (fld x 0 16))) :
    decode (.ofNat 32 (cat (cat op a.toField) r)) = .ok (mk a r) := by
  rw [decode_ofNat hop, h] <;> simp [fld_word, fld_cat_hi, fld_cat_lo, fld_all, Src.ofField_toField, -BitVec.toNat_ofNat]

/-- LA with an operation `k`. -/
theorem decode_la {k : BitVec 4} {mk : BitVec 8 → BitVec 8 → Scope → Sem → Instr} {t a c e}
    (h : ∀ x, fld x 4 4 = k → decodeOp op x = .ok (mk (fld x 16 8) (fld x 8 8) (Scope.ofField (fld x 2 2)) (Sem.ofField (fld x 0 2)))) :
    decode (.ofNat 32 (cat (cat (cat (cat (cat op t) a) k) c.toField) e.toField)) = .ok (mk t a c e) := by
  rw [decode_ofNat hop, h] <;> simp [fld_word, fld_cat_hi, fld_cat_lo, fld_all, Scope.ofField_toField, Sem.ofField_toField, -BitVec.toNat_ofNat]

/-- LA with a scope alone. -/
theorem decode_laScope {k : BitVec 4} {l : BitVec 2} {mk : BitVec 8 → BitVec 8 → Scope → Instr} {t a c}
    (h : ∀ x, fld x 4 4 = k → fld x 0 2 = l → decodeOp op x = .ok (mk (fld x 16 8) (fld x 8 8) (Scope.ofField (fld x 2 2)))) :
    decode (.ofNat 32 (cat (cat (cat (cat (cat op t) a) k) c.toField) l)) = .ok (mk t a c) := by
  rw [decode_ofNat hop, h] <;> simp [fld_word, fld_cat_hi, fld_cat_lo, fld_all, Scope.ofField_toField, -BitVec.toNat_ofNat]

/-- LM. -/
theorem decode_lm {mk : BitVec 8 → BitVec 8 → BitVec 6 → BitVec 2 → Instr} {t y b s}
    (h : ∀ x, decodeOp op x = .ok (mk (fld x 16 8) (fld x 8 8) (fld x 2 6) (fld x 0 2))) :
    decode (.ofNat 32 (cat (cat (cat (cat op t) y) b) s)) = .ok (mk t y b s) := by
  rw [decode_ofNat hop, h] <;> simp [fld_word, fld_cat_hi, fld_cat_lo, fld_all, -BitVec.toNat_ofNat]

/-- UE. -/
theorem decode_ue {mk : BitVec 6 → BitVec 6 → BitVec 6 → BitVec 6 → Instr} {a b c e}
    (h : ∀ x, decodeOp op x = .ok (mk (fld x 18 6) (fld x 12 6) (fld x 6 6) (fld x 0 6))) :
    decode (.ofNat 32 (cat (cat (cat (cat op a) b) c) e)) = .ok (mk a b c e) := by
  rw [decode_ofNat hop, h] <;> simp [fld_word, fld_cat_hi, fld_cat_lo, fld_all, -BitVec.toNat_ofNat]

/-- UR, and UE of three operands, whose bits 5:0 are `k`. -/
theorem decode_urBinary {k : BitVec 6} {mk : BitVec 6 → BitVec 6 → BitVec 6 → Instr} {d a b}
    (h : ∀ x, fld x 0 6 = k → decodeOp op x = .ok (mk (fld x 18 6) (fld x 12 6) (fld x 6 6))) :
    decode (.ofNat 32 (cat (cat (cat (cat op d) a) b) k)) = .ok (mk d a b) := by
  rw [decode_ofNat hop, h] <;> simp [fld_word, fld_cat_hi, fld_cat_lo, fld_all, -BitVec.toNat_ofNat]

/-- UI. -/
theorem decode_ui {mk : BitVec 6 → BitVec 6 → BitVec 12 → Instr} {d a i}
    (h : ∀ x, decodeOp op x = .ok (mk (fld x 18 6) (fld x 12 6) (fld x 0 12))) :
    decode (.ofNat 32 (cat (cat (cat op d) a) i)) = .ok (mk d a i) := by
  rw [decode_ofNat hop, h] <;> simp [fld_word, fld_cat_hi, fld_cat_lo, fld_all, -BitVec.toNat_ofNat]

/-- UI of a shift, and UE without its third operand: bits 11:6 are `k`. -/
theorem decode_uiShort {k : BitVec 6} {mk : BitVec 6 → BitVec 6 → BitVec 6 → Instr} {d a i}
    (h : ∀ x, fld x 6 6 = k → decodeOp op x = .ok (mk (fld x 18 6) (fld x 12 6) (fld x 0 6))) :
    decode (.ofNat 32 (cat (cat (cat (cat op d) a) k) i)) = .ok (mk d a i) := by
  rw [decode_ofNat hop, h] <;> simp [fld_word, fld_cat_hi, fld_cat_lo, fld_all, -BitVec.toNat_ofNat]

/-- UR of a shell operation: the function code `k` stands above a semantic. -/
theorem decode_shellOp {k : BitVec 4} {mk : BitVec 6 → BitVec 6 → BitVec 6 → Sem → Instr} {d a b e}
    (h : ∀ x, fld x 2 4 = k → decodeOp op x = .ok (mk (fld x 18 6) (fld x 12 6) (fld x 6 6) (Sem.ofField (fld x 0 2)))) :
    decode (.ofNat 32 (cat (cat (cat (cat (cat op d) a) b) k) e.toField)) = .ok (mk d a b e) := by
  rw [decode_ofNat hop, h] <;> simp [fld_word, fld_cat_hi, fld_cat_lo, fld_all, Sem.ofField_toField, -BitVec.toNat_ofNat]

/-- UR of a vote, whose last field is an operand of the lanes. -/
theorem decode_vote {k : BitVec 10} {mk : BitVec 6 → Src → Instr} {d f}
    (h : ∀ x, fld x 8 10 = k → decodeOp op x = .ok (mk (fld x 18 6) (Src.ofField (fld x 0 8)))) :
    decode (.ofNat 32 (cat (cat (cat op d) k) f.toField)) = .ok (mk d f) := by
  rw [decode_ofNat hop, h] <;> simp [fld_word, fld_cat_hi, fld_cat_lo, fld_all, Src.ofField_toField, -BitVec.toNat_ofNat]

/-- One operand between two reserved fields. -/
theorem decode_middle {k : BitVec 6} {l : BitVec 12} {mk : BitVec 6 → Instr} {a}
    (h : ∀ x, fld x 18 6 = k → fld x 0 12 = l → decodeOp op x = .ok (mk (fld x 12 6))) :
    decode (.ofNat 32 (cat (cat (cat op k) a) l)) = .ok (mk a) := by
  rw [decode_ofNat hop, h] <;> simp [fld_word, fld_cat_hi, fld_cat_lo, fld_all, -BitVec.toNat_ofNat]

/-- Two operands of 24 bits together: LW, UW, UB, and LC with a depth. -/
theorem decode_two {n m : ℕ} (hw : n + m = 24) {mk : BitVec n → BitVec m → Instr} {a b}
    (h : ∀ x, decodeOp op x = .ok (mk (fld x m n) (fld x 0 m))) :
    decode (.ofNat 32 (cat (cat op a) b)) = .ok (mk a b) := by
  rw [decode_ofNat hop, h] <;> simp (disch := omega) only [fld_word, fld_cat_hi, fld_cat_lo, fld_all, Nat.sub_self, show 24 - m - n = 0 by omega]

/-- One operand below a reserved field. -/
theorem decode_low {n m : ℕ} (hw : n + m = 24) {k : BitVec n} {mk : BitVec m → Instr} {b}
    (h : ∀ x, fld x m n = k → decodeOp op x = .ok (mk (fld x 0 m))) :
    decode (.ofNat 32 (cat (cat op k) b)) = .ok (mk b) := by
  rw [decode_ofNat hop, h] <;> simp (disch := omega) only [fld_word, fld_cat_hi, fld_cat_lo, fld_all, Nat.sub_self, show 24 - m - n = 0 by omega]

/-- One operand above a reserved field. -/
theorem decode_high {n m : ℕ} (hw : n + m = 24) {k : BitVec m} {mk : BitVec n → Instr} {a}
    (h : ∀ x, fld x 0 m = k → decodeOp op x = .ok (mk (fld x m n))) :
    decode (.ofNat 32 (cat (cat op a) k)) = .ok (mk a) := by
  rw [decode_ofNat hop, h] <;> simp (disch := omega) only [fld_word, fld_cat_hi, fld_cat_lo, fld_all, Nat.sub_self, show 24 - m - n = 0 by omega]

/-- Two operands above a function code or reserved field. -/
theorem decode_twoHigh {n m l : ℕ} (hw : n + m + l = 24) {k : BitVec l} {mk : BitVec n → BitVec m → Instr} {a b}
    (h : ∀ x, fld x 0 l = k → decodeOp op x = .ok (mk (fld x (m + l) n) (fld x l m))) :
    decode (.ofNat 32 (cat (cat (cat op a) b) k)) = .ok (mk a b) := by
  rw [decode_ofNat hop, h] <;> simp (disch := omega) only [fld_word, fld_cat_hi, fld_cat_lo, fld_all, Nat.sub_self,
    show 24 - l - m - n = 0 by omega, show m + l - l - m = 0 by omega]

/-- SRD of a lane register: two reserved fields around the half that it reads. -/
theorem decode_special {k : BitVec 1} {l : BitVec 8} {mk : BitVec 6 → BitVec 8 → BitVec 1 → Instr} {d p q}
    (h : ∀ x, fld x 9 1 = k → fld x 0 8 = l → decodeOp op x = .ok (mk (fld x 18 6) (fld x 10 8) (fld x 8 1))) :
    decode (.ofNat 32 (cat (cat (cat (cat (cat op d) p) k) q) l)) = .ok (mk d p q) := by
  rw [decode_ofNat hop, h] <;> simp [fld_word, fld_cat_hi, fld_cat_lo, fld_all, -BitVec.toNat_ofNat]

/-- UR of a shell operation without its first operand. -/
theorem decode_shellPair {k : BitVec 6} {l : BitVec 4} {mk : BitVec 6 → BitVec 6 → Sem → Instr} {a b e}
    (h : ∀ x, fld x 18 6 = k → fld x 2 4 = l → decodeOp op x = .ok (mk (fld x 12 6) (fld x 6 6) (Sem.ofField (fld x 0 2)))) :
    decode (.ofNat 32 (cat (cat (cat (cat (cat op k) a) b) l) e.toField)) = .ok (mk a b e) := by
  rw [decode_ofNat hop, h] <;> simp [fld_word, fld_cat_hi, fld_cat_lo, fld_all, Sem.ofField_toField, -BitVec.toNat_ofNat]

/-- UR of a shell operation on one operand, its function code the ten bits above the semantic. -/
theorem decode_shellOne {k : BitVec 10} {mk : BitVec 6 → BitVec 6 → Sem → Instr} {d a e}
    (h : ∀ x, fld x 2 10 = k → decodeOp op x = .ok (mk (fld x 18 6) (fld x 12 6) (Sem.ofField (fld x 0 2)))) :
    decode (.ofNat 32 (cat (cat (cat (cat op d) a) k) e.toField)) = .ok (mk d a e) := by
  rw [decode_ofNat hop, h] <;> simp [fld_word, fld_cat_hi, fld_cat_lo, fld_all, Sem.ofField_toField, -BitVec.toNat_ofNat]

/-- The same without its destination. -/
theorem decode_shellFloat {k : BitVec 6} {l : BitVec 10} {mk : BitVec 6 → Sem → Instr} {a e}
    (h : ∀ x, fld x 18 6 = k → fld x 2 10 = l → decodeOp op x = .ok (mk (fld x 12 6) (Sem.ofField (fld x 0 2)))) :
    decode (.ofNat 32 (cat (cat (cat (cat op k) a) l) e.toField)) = .ok (mk a e) := by
  rw [decode_ofNat hop, h] <;> simp [fld_word, fld_cat_hi, fld_cat_lo, fld_all, Sem.ofField_toField, -BitVec.toNat_ofNat]

/-- UR of two operands between reserved fields. -/
theorem decode_shellPut {k l : BitVec 6} {mk : BitVec 6 → BitVec 6 → Instr} {a b}
    (h : ∀ x, fld x 18 6 = k → fld x 0 6 = l → decodeOp op x = .ok (mk (fld x 12 6) (fld x 6 6))) :
    decode (.ofNat 32 (cat (cat (cat (cat op k) a) b) l)) = .ok (mk a b) := by
  rw [decode_ofNat hop, h] <;> simp [fld_word, fld_cat_hi, fld_cat_lo, fld_all, -BitVec.toNat_ofNat]

/-- FENCE: a scope and a semantic below a reserved field. -/
theorem decode_fence {k : BitVec 20} {mk : Scope → Sem → Instr} {c e}
    (h : ∀ x, fld x 4 20 = k → decodeOp op x = .ok (mk (Scope.ofField (fld x 2 2)) (Sem.ofField (fld x 0 2)))) :
    decode (.ofNat 32 (cat (cat (cat op k) c.toField) e.toField)) = .ok (mk c e) := by
  rw [decode_ofNat hop, h] <;> simp [fld_word, fld_cat_hi, fld_cat_lo, fld_all, Scope.ofField_toField, Sem.ofField_toField, -BitVec.toNat_ofNat]

/-- CVT: LR whose field B is a rounding mode and two type codes. -/
theorem decode_cvt {mk : BitVec 8 → Src → Rnd → BitVec 3 → BitVec 3 → Instr} {d a m t u}
    (h : ∀ x, decodeOp op x = .ok (mk (fld x 16 8) (Src.ofField (fld x 8 8)) (Rnd.ofField (fld x 6 2)) (fld x 3 3) (fld x 0 3))) :
    decode (.ofNat 32 (cat (cat (cat (cat (cat op d) a.toField) m.toField) t) u)) = .ok (mk d a m t u) := by
  rw [decode_ofNat hop, h] <;> simp [fld_word, fld_cat_hi, fld_cat_lo, fld_all, Src.ofField_toField, Rnd.ofField_toField, -BitVec.toNat_ofNat]

/-- QSCALE: LR whose field B is a format, LEN and a reserved field. -/
theorem decode_qscale {k : BitVec 4} {mk : BitVec 8 → Src → BitVec 3 → BitVec 1 → Instr} {d a f l}
    (h : ∀ x, fld x 0 4 = k → decodeOp op x = .ok (mk (fld x 16 8) (Src.ofField (fld x 8 8)) (fld x 5 3) (fld x 4 1))) :
    decode (.ofNat 32 (cat (cat (cat (cat (cat op d) a.toField) f) l) k)) = .ok (mk d a f l) := by
  rw [decode_ofNat hop, h] <;> simp [fld_word, fld_cat_hi, fld_cat_lo, fld_all, Src.ofField_toField, -BitVec.toNat_ofNat]

end Formats

/-- Every instruction that has a word is the decoding of its word. -/
theorem decode_encode (i : Instr) (h : i.isWord = true) : decode (encode i) = .ok i := by
  cases i
  case addLr | subLr | addSatS | addSatU | subSatS | subSatU | mulLr | mulhiULr | minSLr | minULr | maxSLr | maxULr | andLr | orLr | xorLr
      | shlLr | shrULr | shrSLr | cmpeqLr | cmpltSLr | cmpltULr | cmpleSLr | cmpleULr | fadd | fsub | fmul | ffma | ffnma | fmin | fmax |
      fcmpeq | fcmplt | fcmple | fcmpun | hadd2F16 | hadd2Bf16 | hsub2F16 | hsub2Bf16 | hmul2F16 | hmul2Bf16 | hfma2F16 | hfma2Bf16 |
      hmin2F16 | hmin2Bf16 | hmax2F16 | hmax2Bf16 | hdot2F16 | hdot2Bf16 | cvt2F16 | cvt2Bf16 | qpack | qunpk | sel | shfl | perm =>
    exact decode_lr (by decide) fun _ => rfl
  case notL | negL | absL | popcL | clzL | brevL | sextBL | sextHL | frcp | fsqrt | frsq | fexp2 | flog2 | movL =>
    exact decode_lrUnary (by decide) fun x h => by simp [decodeOp, decodeRow1, decodeRow2, decodeRow4, h]
  case addLi | andLi | orLi | xorLi => exact decode_li (by decide) fun _ => rfl
  case shlLi | shrULi | shrSLi => exact decode_liShift (by decide) fun x h => by simp [decodeOp, decodeRow1, h]
  case ifLc | split => exact decode_lc (by decide) fun _ => rfl
  case moviL | movh | brk | cont | moviU | movx | bz | bnz | call => exact decode_two (by decide) rfl fun _ => rfl
  case elseLc | endif | loop | lend | meet | join => exact decode_low (by decide) rfl fun x h => by simp [decodeOp, decodeRow5, h]
  case bra | trap => exact decode_low (by decide) rfl fun x h => by simp [decodeOp, decodeRowA, h]
  case ldgB | ldgH | ldgW | ldgD | ldgQ | stgB | stgH | stgW | stgD | stgQ | ldsB | ldsH | ldsW | ldsD | ldsQ | stsB | stsH | stsW | stsD
      | stsQ | ldqW | stqW =>
    exact decode_lm (by decide) fun _ => rfl
  case atomAdd | atomSeqAdd | redAdd | atomAnd | atomOr | atomXor | atomMinS | atomMinU | atomMaxS | atomMaxU | atomXchg | atomCas |
      atomAddF | atomAddD | atomXchgD | atomCasD | atomSeqAnd | atomSeqOr | atomSeqXor | atomSeqMinS | atomSeqMinU | atomSeqMaxS |
      atomSeqMaxU | atomSeqXchg | atomSeqCas | atomSeqAddF | atomSeqAddD | atomSeqXchgD | atomSeqCasD | redAnd | redOr | redXor | redMinS
      | redMinU | redMaxS | redMaxU | redAddF | redAddD =>
    exact decode_la (by decide) fun x h => by simp [decodeOp, decodeRow7, h]
  case ldaW | stlW => exact decode_laScope (by decide) fun x h h' => by simp [decodeOp, decodeRow7, h, h']
  case ldrW | stcW => exact decode_twoHigh (by decide) rfl fun x h => by simp [decodeOp, decodeRow7, h]
  case addU | fbMark | barInit | subU | mulU | mulhiSU | mulhiUU | andU | orU | xorU | andnU | shlU | shrUU | shrSU | minSU | minUU |
      maxSU | maxUU | cmpeqU | cmpneU | cmpltSU | cmpltUU | cmpleSU | cmpleUU =>
    exact decode_urBinary (by decide) fun x h => by simp [decodeOp, decodeRow8, decodeRowB, decodeRowC, h]
  case movU | launchAt | barExpect | barArriveQ | barTest | accLd | notU | negU | absU | popcU | clzU | brevU | sextBU | sextHU | sextWU |
      srdS | swr =>
    exact decode_twoHigh (by decide) rfl fun x h => by simp [decodeOp, decodeRow8, decodeRowB, decodeRowC, decodeRowE, h]
  case addUi | andUi | orUi | xorUi | cmpeqUi | cmpltSUi | cmpltUUi | sldB | sldH | sldW | sldD | sstB | sstH | sstW | sstD =>
    exact decode_ui (by decide) fun _ => rfl
  case shlUi | shrUUi | shrSUi | cpAt => exact decode_uiShort (by decide) fun x h => by simp [decodeOp, decodeRow8, decodeRowD, h]
  case cpTile | cpBulk | cpGather | cpRed | mma | accSt | accRed => exact decode_ue (by decide) fun _ => rfl
  case jmp | shLand => exact decode_middle (by decide) fun x h h' => by simp [decodeOp, decodeRowA, decodeRowF, h, h']
  case ret | exit | yield | nop | rett | term | stdrain | step | fbGo =>
    exact decode_bare (by decide) fun x h => by simp [decodeOp, decodeRowA, decodeRowB, h]
  case any | all | ballot => exact decode_vote (by decide) fun x h => by simp [decodeOp, decodeRowA, h]
  case fqpop | launch | barAlloc | barArrive | barWait | barFree | accZero =>
    exact decode_high (by decide) rfl fun x h => by simp [decodeOp, decodeRowB, decodeRowC, decodeRowE, h]
  case shOpAdd | shOpAddF | shOpMin | shOpMax | shOpMinS | shOpMinU | shOpMaxS | shOpMaxU | shOpAnd | shOpOr | shOpXor | shOpSwap |
      shOpCas =>
    exact decode_shellOp (by decide) fun x h => by simp [decodeOp, decodeRowF, h]
  case cvt => exact decode_cvt (by decide) fun _ => rfl
  case qscale => exact decode_qscale (by decide) fun x h => by simp [decodeOp, decodeRow4, h]
  case fence => exact decode_fence (by decide) fun x h => by simp [decodeOp, decodeRowB, h]
  case shGetW => exact decode_shellOne (by decide) fun x h => by simp [decodeOp, decodeRowF, h]
  case shFloat => exact decode_shellFloat (by decide) fun x h h' => by simp [decodeOp, decodeRowF, h, h']
  case shPut => exact decode_shellPut (by decide) fun x h h' => by simp [decodeOp, decodeRowF, h, h']
  case shGetP =>
    refine decode_shellPair (by decide) fun x h h' => ?_
    have hget : fld x 2 10 ≠ 0#10 := fld_ne_zero (a := 0) (b := 4) (by decide) (by rw [h']; decide)
    simp [decodeOp, decodeRowF, h, h', hget]
  case srdV =>
    refine decode_special (by decide) fun x h h' => ?_
    have hscalar : fld x 0 10 ≠ 0#10 := fld_ne_zero (a := 9) (b := 1) (by decide) (by rw [h]; decide)
    simp [decodeOp, decodeRowB, h, h', hscalar]
  -- The events of the device are left; they have no word.
  all_goals cases h

/-- Settles O5: the fields that a word packs are those that the decoder of its opcode takes out. -/
theorem decodeOfEncode : Obligations.DecodeOfEncode := fun i h _ => decode_encode i h

end Sys2Proof
end

section
/-! The uniform scalars and the branches. -/

namespace Sys2Proof.Machine

/-- Settles O10: every row is the shared operation on its uniform registers with the value of the table. -/
theorem uniformResults : Obligations.UniformResults := by
  intro s c p i d us f hrow hissues hclear
  rw [hrow.exec_eq]
  exact uniOp_goes hissues hclear

/-! ## Branches (R248) -/

section
variable {s : State} {c : Crew} {p : Split}

/-- An instruction that only moves its split leaves its crew but for the splits, the host, the flags raised and the age of its loads. -/
theorem issue_moves {body : Crew → Split → State → Res} (h : Issues s c p) (pc : DWord)
    (hb : body (reads s c p) p (begun s c p) = .ok ((begun s c p).setPc c.cid p.sid pc)) :
    ∃ (t : State) (c' : Crew), issue s body = .next t ∧ Goes s t c c' p (p.issued pc) ∧
      c' = { c with splits := c'.splits, raised := c'.raised, host := c'.host, loads := agedLoads c p } := by
  obtain ⟨t, ht, hgoes⟩ := issue_go h pc hb
  exact ⟨t, _, ht, hgoes, rfl⟩

/-- A branch that is taken and leaves the innermost construct raises SPLITESC; any other goes on. -/
theorem branchTo_eq (s : State) (c : Crew) (p : Split) (taken : Bool) (target : DWord) :
    branchTo s c p taken target =
      if taken && escapes c p target then .error (.trap (splitEsc p target))
      else .ok (s.setPc c.cid p.sid (if taken then target else p.pc + 4)) := by
  cases h : taken && escapes c p target
  · simp only [branchTo, h, need_true (b := !false) rfl]; rfl
  · simp only [branchTo, h, need_false (b := !true) rfl]; rfl

/-- What an instruction does whose body comes down to a branch. -/
theorem branch_cases {i : Instr} {body : Crew → Split → State → Res} {b : Bool} {taken : Prop} {target : DWord} (h : Issues s c p)
    (he : exec i s = issue s body) (hb : body (reads s c p) p (begun s c p) = branchTo (begun s c p) (reads s c p) p b target)
    (htaken : b = true ↔ taken) :
    (taken → escapes (reads s c p) p target = false →
      ∃ (t : State) (c' : Crew), exec i s = .next t ∧ Goes s t c c' p (p.issued target) ∧
        c' = { c with splits := c'.splits, raised := c'.raised, host := c'.host, loads := agedLoads c p }) ∧
    (¬ taken → ∃ (t : State) (c' : Crew), exec i s = .next t ∧ Goes s t c c' p (p.issued (p.pc + 4)) ∧
      c' = { c with splits := c'.splits, raised := c'.raised, host := c'.host, loads := agedLoads c p }) ∧
    (taken → escapes (reads s c p) p target = true →
      exec i s = .next (s.raise c.cid p.sid ⟨.splitesc, p.pc, target, 0⟩)) := by
  rw [he, ← htaken]
  rw [branchTo_eq, State.seen_cid] at hb
  refine ⟨fun ht hesc => ?_, fun ht => ?_, fun ht hesc => ?_⟩
  · exact issue_moves h target (by simpa [ht, hesc] using hb)
  · exact issue_moves h (p.pc + 4) (by simpa [ht] using hb)
  · exact issue_trap h (by simpa [ht, hesc, splitEsc] using hb)

/-- BZ and BNZ, on a register in reach, come down to a branch: what SPLITESC guards is checked twice. -/
theorem branchOn_eq {w : Word} {a : BitVec 6} (r : BitVec 18) (f : DWord → Bool) (hclear : Clear s (reads s c p) p { us := [a.toNat] } false) :
    ∃ body, branchOn w a r f s = issue s body ∧
      body (reads s c p) p (begun s c p) = branchTo (begun s c p) (reads s c p) p (f ((reads s c p).u a.toNat)) (relTarget p.pc r) := by
  refine ⟨_, by rw [branchOn], ?_⟩
  simp only [checkUses_ok hclear, checkPoison_ok (s := begun s c p) hclear.clean, branchTo_eq]
  cases f ((reads s c p).u a.toNat) && escapes (reads s c p) p (relTarget p.pc r) <;> rfl

/-- JMP outside recipe mode, to an aligned target in a register in reach, comes down to a branch. -/
theorem execJmp_eq {a : BitVec 6} (hclear : Clear s (reads s c p) p { us := [a.toNat] } false) (hrec : p.recipe = false)
    (haligned : (reads s c p).u a.toNat &&& 3 = 0) :
    ∃ body, execJmp a s = issue s body ∧
      body (reads s c p) p (begun s c p) = branchTo (begun s c p) (reads s c p) p true ((reads s c p).u a.toNat) := by
  refine ⟨_, by rw [execJmp], ?_⟩
  simp only [checkUses_ok hclear, checkPoison_ok (s := begun s c p) hclear.clean, branchTo_eq, hrec,
    need_true (b := (reads s c p).u a.toNat &&& 3 == 0) (by simpa using haligned)]
  cases escapes (reads s c p) p ((reads s c p).u a.toNat) <;> rfl

end

/-- Settles O18: each branch comes down to `branchTo`; an unaligned target of JMP is refused first. -/
theorem branches : Obligations.Branches := by
  intro s c p h goes
  refine ⟨fun r _ => ?_, fun a r hc => ?_, fun a r hc => ?_, fun a hrec haligned hc => ?_, fun a hc hne => ?_⟩
  · exact branch_cases h (exec_bra s r) rfl (by simp)
  · obtain ⟨body, he, hb⟩ := branchOn_eq (w := encode (.bz a r)) r (· == 0) hc
    exact branch_cases h ((exec_bz s a r).trans he) hb (by simp)
  · obtain ⟨body, he, hb⟩ := branchOn_eq (w := encode (.bnz a r)) r (· != 0) hc
    exact branch_cases h ((exec_bnz s a r).trans he) hb (by simp)
  · obtain ⟨body, he, hb⟩ := execJmp_eq hc hrec haligned
    exact branch_cases h ((exec_jmp s a).trans he) hb (by simp)
  · rw [exec_jmp]
    refine issue_trap h ?_
    simp only [checkUses_ok hc, need_false (b := (reads s c p).u a.toNat &&& 3 == 0) (by simpa using hne)]
    rfl

end Sys2Proof.Machine
end

section
/-! A step runs what the split that it picks fetches. -/

namespace Sys2Proof.Machine

/-! ## What a fetch gives (R54, R57, R340, R346) -/

section
variable {s : State} {c : Crew} {p : Split} {pa : Nat}

/-- The copy of a code word that the instruction fetch of the crew's core reads for its launch (log entry 50). -/
def State.keptWord (s : State) (c : Crew) (pa : Nat) : Option CodeWord :=
  s.icache.find? fun w => w.lid == c.lid && w.core == c.core && w.addr == pa && !w.off

theorem fetchedOf_ok {bytes : List Byte} {i : Instr} (h : decodeBytes bytes = .ok i) : fetchedOf p bytes = .instr i := by
  simp [fetchedOf, h]

theorem fetchedOf_error {bytes : List Byte} {e : Reject} (h : decodeBytes bytes = .error e) :
    fetchedOf p bytes = .trap (illop p (wordOfBytes bytes)) := by
  simp [fetchedOf, h]

theorem fetch_newest (ht : s.translate c.core c.asid p.pc .exec = .ok pa) (hk : s.keptWord c pa = none)
    (hr : s.mayReach (s.loadSlice c.core pa) c.core c.asid pa false false = true) (hp : s.poisoned pa 4 = false) :
    s.fetch c p = fetchedOf p (s.readBytes pa 4) := by
  unfold State.keptWord at hk
  simp [State.fetch, ht, hk, hr, hp]

theorem fetch_poisoned (ht : s.translate c.core c.asid p.pc .exec = .ok pa) (hk : s.keptWord c pa = none)
    (hr : s.mayReach (s.loadSlice c.core pa) c.core c.asid pa false false = true) (hp : s.poisoned pa 4 = true) :
    s.fetch c p = .trap ⟨.poison, p.pc, p.pc, 6⟩ := by
  unfold State.keptWord at hk
  simp [State.fetch, ht, hk, hr, hp]

theorem fetch_kept {w : CodeWord} (ht : s.translate c.core c.asid p.pc .exec = .ok pa) (hk : s.keptWord c pa = some w) :
    s.fetch c p = fetchedOf p w.data := by
  unfold State.keptWord at hk
  simp [State.fetch, ht, hk]

theorem fetch_untranslated {r : Reason} (ht : s.translate c.core c.asid p.pc .exec = .error r) (hr : s.releasing c p = false) :
    s.fetch c p = .trap ⟨.fetchfault, p.pc, p.pc, .ofNat 64 r.code⟩ := by
  simp [State.fetch, ht, hr]

end

/-! ## The pick of a step (R271, R272) -/

/-- The turn of the tape picks the split `p` of `c` in the state `s0`: in the present cycle, or in the next where nothing more can be
picked in it. -/
def Picks (s s0 : State) (rest : List Turn) (c : Crew) (p : Split) (n : Needs) : Prop :=
  (s.tape = .issue :: rest ∧
    ((s0 = { s with tape := rest } ∧ s0.nextPick = some (c, p, n)) ∨
     (({ s with tape := rest } : State).nextPick = none ∧ s.picks ≠ [] ∧ s0 = State.tick { s with tape := rest } ∧
      s0.nextPick = some (c, p, n)))) ∨
  (∃ core row, s.tape = .issueRow core row :: rest ∧
    ((s0 = { s with tape := rest } ∧ s0.corePick core row = some (c, p, n)) ∨
     (({ s with tape := rest } : State).corePick core row = none ∧ s0 = State.tick { s with tape := rest } ∧
      s0.corePick core row = some (c, p, n))))

/-- Where the device is not too hot, the step is the issue of the pick. -/
theorem step_eq_issuePick {s s0 : State} {rest : List Turn} {c : Crew} {p : Split} {n : Needs} (hot : s.svc.hot = false)
    (h : Picks s s0 rest c p n) : step s = s0.issuePick (c, p, n) := by
  rcases h with ⟨htape, ⟨rfl, hpick⟩ | ⟨hnone, hpicks, rfl, hpick⟩⟩ | ⟨core, row, htape, ⟨rfl, hpick⟩ | ⟨hnone, rfl, hpick⟩⟩
  · simp [step, htape, State.turn, State.issueNext, hot, hpick]
  · simp [step, htape, State.turn, State.issueNext, hot, hnone, hpicks, hpick]
  · simp [step, htape, State.turn, State.issueRow, hot, hpick]
  · simp [step, htape, State.turn, State.issueRow, hot, hnone, hpick]

/-- Without a boundary trap that is due, the issue of a pick runs what the split fetches. -/
theorem issuePick_eq {s : State} {c : Crew} {p : Split} {n : Needs} (hdue : s.dueTrap c.cid p = none) :
    s.issuePick (c, p, n) = onNext (fun u => (State.unpick s.picks s.sfu c.cid p.sid u).finish)
      (runFetched (s.fetch c p) ((s.notePick c p n).select c p)) := by
  simp [State.issuePick, hdue]

/-- Settles O1: the step runs what the picked split fetches, and each clause is one answer of the fetch. -/
theorem stepRunsTheDecodedInstruction : Obligations.StepRunsTheDecodedInstruction := by
  refine ⟨?_, fun s rest i htape hword => by simp [step, htape, State.turn, hword]⟩
  intro s s0 rest c p n hot hpick hdue go begins kept reached
  have hstep : step s = onNext go (runFetched (s0.fetch c p) begins) := (step_eq_issuePick hot hpick).trans (issuePick_eq hdue)
  refine ⟨fun pa i ht hk hr hp hd => ?_, fun pa e ht hk hr hp hd => ?_, fun pa ht hk hr hp => ?_, fun pa w i ht hk hd => ?_,
    fun pa w e ht hk hd => ?_, fun r ht hr => ?_⟩
  · rw [hstep, fetch_newest ht hk hr hp, fetchedOf_ok hd]; rfl
  · rw [hstep, fetch_newest ht hk hr hp, fetchedOf_error hd]; rfl
  · rw [hstep, fetch_poisoned ht hk hr hp]; rfl
  · rw [hstep, fetch_kept ht hk, fetchedOf_ok hd]; rfl
  · rw [hstep, fetch_kept ht hk, fetchedOf_error hd]; rfl
  · rw [hstep, fetch_untranslated ht hr]; rfl

end Sys2Proof.Machine
end

section
/-! What the memory instructions of the lanes and of a split share: the fence that an access waits for, the checks of its addresses, and
what its issue leaves. -/

namespace Sys2Proof.Machine

/-! ## The acquire part of a fence (R167, Table 10.1) -/

/-- An acquire changes the L1s alone. -/
theorem State.acquire_eq (s : State) (core : Nat) (sc : Scope) : s.acquire core sc = { s with l1 := (s.acquire core sc).l1 } := by
  cases sc <;> rfl

/-- What an acquire leaves of the L1s. -/
theorem State.mem_acquire (s : State) (core : Nat) (sc : Scope) (w : L1Word) :
    w ∈ (s.acquire core sc).l1 ↔ w ∈ s.l1 ∧ ¬ AcquireDrops s core sc w := by
  cases sc <;> simp [State.acquire, State.l1Drop, AcquireDrops] <;> grind

/-- An acquire goes by the L1s, not by the splits. -/
theorem State.acquire_modSplit (s : State) (cid sid core : Nat) (sc : Scope) (f : Split → Split) :
    (s.modSplit cid sid f).acquire core sc = { s.modSplit cid sid f with l1 := (s.acquire core sc).l1 } := by
  cases sc <;> rfl

/-- Two changes of one split are one. -/
theorem Crew.modSplit_modSplit (c : Crew) (sid : Nat) (f g : Split → Split) (hf : ∀ q, (f q).sid = q.sid) :
    (c.modSplit sid f).modSplit sid g = c.modSplit sid fun q => g (f q) := by
  simp only [Crew.modSplit, List.map_map]
  congr 1
  apply List.map_congr_left
  intro q _
  simp only [Function.comp_apply]
  by_cases h : q.sid == sid
  · simp [h, hf]
  · simp [h]

/-- Two changes of one split are one. -/
theorem State.modSplit_modSplit (s : State) (cid sid : Nat) (f g : Split → Split) (hf : ∀ q, (f q).sid = q.sid) :
    (s.modSplit cid sid f).modSplit cid sid g = s.modSplit cid sid fun q => g (f q) := by
  refine (State.modCrew_modCrew s cid (·.modSplit sid f) (·.modSplit sid g) (fun _ => rfl)).trans ?_
  simp only [Crew.modSplit_modSplit _ _ _ _ hf]
  rfl

/-- The acquire part of a fence changes the L1s alone. -/
theorem State.fenced_eq (s : State) (c : Crew) (p : Split) : s.fenced c p = { s with l1 := (s.fenced c p).l1 } := by
  unfold State.fenced
  split
  · split
    · exact s.acquire_eq _ _
    · rfl
  · rfl

/-- What the acquire part of a fence leaves of the L1s. -/
theorem State.mem_fenced (s : State) (c : Crew) (p : Split) (w : L1Word) :
    w ∈ (s.fenced c p).l1 ↔
      w ∈ s.l1 ∧ ¬ ∃ f, p.fence = some f ∧ (f.sem = .acq ∨ f.sem = .ar) ∧ AcquireDrops s c.core f.scope w := by
  unfold State.fenced
  split
  · rename_i f hf
    split
    · rename_i hsem
      rw [State.mem_acquire]
      simp [hf, hsem]
    · rename_i hsem
      simp [hf, hsem]
  · rename_i hf
    simp [hf]

theorem semAcq_iff (e : Sem) : semAcq e = true ↔ e = .acq ∨ e = .ar := by cases e <;> simp [semAcq]

theorem wideScope_iff (sc : Scope) : wideScope sc = true ↔ sc = .dev ∨ sc = .sys := by cases sc <;> simp [wideScope]

/-- A fence that is over: its split has none, and its acquire part is taken. -/
theorem endFence_eq (s : State) (cid sid core : Nat) (f : PFence) :
    (if semAcq f.sem = true then (s.modSplit cid sid fun q => { q with fence := none }).acquireBy cid sid core f.scope
      else s.modSplit cid sid fun q => { q with fence := none }) =
    { s.modSplit cid sid fun q => { q with
        fence := none, acqAt := if semAcq f.sem = true ∧ wideScope f.scope = true then s.nextId else q.acqAt } with
      l1 := (if semAcq f.sem = true then s.acquire core f.scope else s).l1 } := by
  cases hs : semAcq f.sem with
  | false => simp only [Bool.false_eq_true, if_false, false_and]; rfl
  | true =>
    have hfun : (fun q : Split => if wideScope f.scope = true then { q with fence := none, acqAt := s.nextId } else { q with fence := none }) =
        fun q => { q with fence := none, acqAt := if wideScope f.scope = true then s.nextId else q.acqAt } := by
      funext q; split <;> rfl
    simp only [if_true, true_and, ← hfun]
    rw [State.acquireBy, State.modSplit_modSplit, State.acquire_modSplit]
    · rfl
    · intro _; rfl

/-! ## The fence gate (R166, R167) -/

/-- What becomes of the splits named as `p` once the fence of `p` is over, `n` being the next identifier. -/
def gateSplit (p : Split) (n : Nat) (q : Split) : Split :=
  match p.fence with
  | none => q
  | some f => { q with
      fence := none
      acqAt := if (f.sem = .acq ∨ f.sem = .ar) ∧ (f.scope = .dev ∨ f.scope = .sys) then n else q.acqAt }

@[simp] theorem gateSplit_sid (p : Split) (n : Nat) (q : Split) : (gateSplit p n q).sid = q.sid := by
  unfold gateSplit; split <;> rfl

/-- The state that a memory access leaves whose crew becomes that of `g`, once the acquire part of the fence of the split is taken. -/
def accessed (s : State) (c : Crew) (p : Split) (g : Crew → Crew) (n : Nat) (x : List TlbEntry) : State :=
  { (begun s c p).modCrew c.cid g with nextId := n, tlb := x, l1 := ((begun s c p).fenced c p).l1 }

/-- What the end of its fence makes of the crew of `p`. -/
def gateCrew (p : Split) (n : Nat) (k : Crew) : Crew := k.modSplit p.sid (gateSplit p n)

/-- The state in which a memory access makes its checks once the fence of its split is over. -/
abbrev gated (s : State) (c : Crew) (p : Split) : State := accessed s c p (gateCrew p s.nextId) s.nextId s.tlb

@[simp] theorem State.seen_core (s : State) (c : Crew) (sid : Nat) : (s.seen c sid).core = c.core := by rw [State.seen_eq]

section
variable {s : State} {c : Crew} {p : Split}

/-- The counting of an issue leaves what a release waits for. -/
theorem doneBefore_begun (h : Issues s c p) (core asid : Nat) (f : Nat → Nat → Bool) (seq : Nat) (sc : Scope) :
    (begun s c p).doneBefore core asid c.cid f seq sc = s.doneBefore core asid c.cid f seq sc := by
  have hcrew : (begun s c p).crew? c.cid = some (c.counted p.sid) := by
    rw [begun, State.countIssue_eq]
    exact State.crew?_modCrew_self (fun k => k.counted p.sid) (fun _ => rfl) h.crew
  have hstores : ((c.counted p.sid).splits.all fun r => r.stores.all fun q => !f q.sid q.seq) =
      c.splits.all fun r => r.stores.all fun q => !f q.sid q.seq := by
    simp only [Crew.counted, Crew.modSplit, List.all_map]
    congr 1; funext r
    simp only [Function.comp_apply]
    split <;> rfl
  have hloads : ((c.counted p.sid).loads.all fun q => !f q.sid q.seq) = c.loads.all fun q => !f q.sid q.seq := by
    simp only [Crew.counted_loads, agedLoads, List.all_map]
    congr 1; funext q
    simp only [Function.comp_apply]
    split <;> rfl
  simp only [State.doneBefore, hcrew, h.crew, hstores, hloads]
  rfl

theorem fenceDone_begun (h : Issues s c p) (f : PFence) : (begun s c p).fenceDone (reads s c p) p f = s.fenceDone c p f := by
  have hdone := doneBefore_begun h c.core c.asid (precedes p.anc p.sid f.seq) f.seq f.scope
  rw [reads, State.fenceDone, State.fenceDone, ← hdone, State.seen_eq]
  rfl

theorem acquiring_begun : (begun s c p).acquiring (reads s c p) p = s.acquiring c p := by
  rw [reads, State.acquiring, State.acquiring, State.seen_eq]; rfl

theorem acquiring_eq_false : s.acquiring c p = false ↔
    (∀ q ∈ c.loads, p.follows q.sid q.seq = true → q.acq = none) ∧
    ∀ q ∈ s.adds, q.cid = c.cid → p.follows q.sid q.seq = true → q.acq = none := by
  simp only [State.acquiring, Bool.or_eq_false_iff, List.any_eq_false, Bool.and_eq_true, beq_iff_eq, Option.isSome_iff_ne_none]
  grind

/-- A further change of the crew of an access. -/
theorem accessed_modCrew (g : Crew → Crew) (hg : ∀ k, (g k).cid = k.cid) (n : Nat) (x : List TlbEntry) (f : Crew → Crew) :
    (accessed s c p g n x).modCrew c.cid f = accessed s c p (fun k => f (g k)) n x := by
  rw [accessed, accessed, ← State.modCrew_modCrew _ _ g f hg]; rfl

theorem accessed_bumpId (g : Crew → Crew) (n : Nat) (x : List TlbEntry) :
    (accessed s c p g n x).bumpId = accessed s c p g (n + 1) x := rfl

theorem accessed_nextId (g : Crew → Crew) (n : Nat) (x : List TlbEntry) : (accessed s c p g n x).nextId = n := rfl

/-- Past its fence an access makes its checks in the state whose acquire part is taken, but for the crews. -/
theorem gated_eq : gated s c p = { (begun s c p).fenced c p with crews := (gated s c p).crews } := by
  rw [State.fenced_eq]; rfl

/-- Where the fence of the split is over, an access goes on past it. -/
theorem fenceGate_over (h : Issues s c p) (hover : FenceOver s c p) :
    fenceGate (begun s c p) (reads s c p) p = .ok (gated s c p, p.fenced s.nextId) := by
  obtain ⟨hloads, hadds, hfence⟩ := hover
  have hacq : s.acquiring c p = false := acquiring_eq_false.mpr ⟨hloads, hadds⟩
  unfold fenceGate
  rw [acquiring_begun, hacq]
  cases hf : p.fence with
  | none =>
    have hgate : gateCrew p s.nextId = id := by funext k; simp [gateCrew, gateSplit, hf, Crew.modSplit]
    have hid : (begun s c p).modCrew c.cid id = begun s c p := by
      simp only [State.modCrew, id_eq, ite_self, List.map_id']
    simp only [gated, accessed, hgate, hid, State.fenced, Split.fenced, hf]
    rfl
  | some f =>
    have hgate : gateCrew p s.nextId = (·.modSplit p.sid fun q => { q with
        fence := none
        acqAt := if semAcq f.sem = true ∧ wideScope f.scope = true then s.nextId else q.acqAt }) := by
      funext k; unfold gateCrew gateSplit; simp only [hf, semAcq_iff, wideScope_iff]
    simp only [fenceDone_begun h, hfence f hf, State.seen_cid, State.seen_core, gated, accessed, hgate, State.fenced, Split.fenced, hf,
      ← semAcq_iff, ← wideScope_iff, Bool.not_false, Bool.and_self, if_true, Bool.and_eq_true]
    rw [endFence_eq _ _ _ c.core]
    rfl

/-- An access waits for the fence of its split. -/
theorem fenceGate_waits (h : Issues s c p) (hover : ¬ FenceOver s c p) : fenceGate (begun s c p) (reads s c p) p = .error .wait := by
  unfold fenceGate
  rw [acquiring_begun]
  cases hacq : s.acquiring c p with
  | true => cases p.fence <;> simp
  | false =>
    obtain ⟨hloads, hadds⟩ := acquiring_eq_false.mp hacq
    cases hf : p.fence with
    | none => exact absurd ⟨hloads, hadds, by simp [hf]⟩ hover
    | some f =>
      have : s.fenceDone c p f ≠ true := fun hd => hover ⟨hloads, hadds, by simpa [hf] using hd⟩
      simp [fenceDone_begun h, this]

/-! ## What an access leaves as it issues -/

@[simp] theorem Split.fenced_sid (p : Split) (n : Nat) : (p.fenced n).sid = p.sid := by unfold Split.fenced; split <;> rfl
@[simp] theorem Split.fenced_pc (p : Split) (n : Nat) : (p.fenced n).pc = p.pc := by unfold Split.fenced; split <;> rfl
@[simp] theorem Split.fenced_mask (p : Split) (n : Nat) : (p.fenced n).mask = p.mask := by unfold Split.fenced; split <;> rfl
@[simp] theorem Split.fenced_anc (p : Split) (n : Nat) : (p.fenced n).anc = p.anc := by unfold Split.fenced; split <;> rfl

/-- A split whose issue has been counted. -/
def Split.counted (p : Split) : Split := { p with waits := none, muted := false, fb := fbCounted p.fb }

/-- The end of a fence and the counting of an issue concern different fields of a split. -/
theorem gateSplit_counted (p : Split) (n : Nat) : gateSplit p n p.counted = (p.fenced n).counted := by
  cases p
  dsimp only [gateSplit, Split.fenced, Split.counted]
  split <;> rfl

/-- What the acquire part of its fence leaves of the L1s, for an access that has been counted. -/
theorem mem_fenced_begun (w : L1Word) : w ∈ ((begun s c p).fenced c p).l1 ↔
    w ∈ s.l1 ∧ ¬ ∃ f, p.fence = some f ∧ (f.sem = .acq ∨ f.sem = .ar) ∧ AcquireDrops s c.core f.scope w :=
  State.mem_fenced (begun s c p) c p w

/-- What the issue of an access leaves whose crew becomes that of `g`, its split going by `f`. -/
theorem access_moves (h : Issues s c p) {g : Crew → Crew} {f : Split → Split} (hcid : ∀ k, (g k).cid = k.cid)
    (hf : ∀ q, (f q).sid = q.sid) (hspl : (g (c.counted p.sid)).splits = ((c.counted p.sid).modSplit p.sid f).splits)
    (hhost : (g (c.counted p.sid)).host = (c.counted p.sid).host) (n : Nat) (x : List TlbEntry) :
    Moves s ((accessed s c p g n x).afterIssue c.cid p.sid) c (g (c.counted p.sid)).untried p
      (f p.counted).untried := by
  obtain ⟨hothers, hcrew, -⟩ := crew_change h g hcid
  refine ⟨fun k hk => ?_, ?_, splitsGo_of h hf hspl, hhost⟩
  · rw [← hothers k hk, State.crew?_afterIssue, State.crew?_afterIssue]; rfl
  · rw [← hcrew, State.crew?_afterIssue, State.crew?_afterIssue]; rfl

/-- What an access leaves of the L1s as it issues. -/
theorem access_fenceActs (g : Crew → Crew) (n : Nat) (x : List TlbEntry) :
    FenceActs s ((accessed s c p g n x).afterIssue c.cid p.sid) c p := by
  intro w
  rw [State.afterIssue_eq]
  exact mem_fenced_begun w

/-- A state that differs from another in what an access may touch is that other with its own. -/
theorem rest_of_access {t : State} {a : List Crew} {b d e : List (Nat × Nat)} {n : Nat} {x : List TlbEntry} {y : List L1Word}
    (h : t = { s with crews := a, age := b, woke := d, entered := e, nextId := n, tlb := x, l1 := y }) :
    t = { s with crews := t.crews, age := t.age, woke := t.woke, entered := t.entered, nextId := t.nextId, tlb := x, l1 := t.l1 } := by
  subst h; rfl

/-- After an issue that has changed what an access may touch. -/
theorem afterIssue_access {t : State} {a : List Crew} {n : Nat} {x : List TlbEntry} {y : List L1Word}
    (h : t = { s with crews := a, nextId := n, tlb := x, l1 := y }) (cid sid : Nat) :
    t.afterIssue cid sid = { s with
      crews := (t.afterIssue cid sid).crews, age := (t.afterIssue cid sid).age, woke := (t.afterIssue cid sid).woke
      entered := (t.afterIssue cid sid).entered, nextId := (t.afterIssue cid sid).nextId, tlb := x, l1 := (t.afterIssue cid sid).l1 } := by
  subst h
  exact rest_of_access (State.afterIssue_eq _ cid sid)

/-- An access touches, beside its crew, the L1s and the TLB alone, which is then `x`. -/
theorem access_rest (g : Crew → Crew) (n : Nat) (x : List TlbEntry) :
    let t := (accessed s c p g n x).afterIssue c.cid p.sid
    t = { s with crews := t.crews, age := t.age, woke := t.woke, entered := t.entered, nextId := t.nextId, tlb := x, l1 := t.l1 } :=
  afterIssue_access (a := ((begun s c p).modCrew c.cid g).crews) (n := n) (x := x) (y := ((begun s c p).fenced c p).l1) rfl c.cid p.sid

/-- An access touches, beside its crew, the L1s and the TLB alone. -/
theorem access_rest_tlb (g : Crew → Crew) (n : Nat) (x : List TlbEntry) :
    let t := (accessed s c p g n x).afterIssue c.cid p.sid
    t = { s with crews := t.crews, age := t.age, woke := t.woke, entered := t.entered, nextId := t.nextId, tlb := t.tlb, l1 := t.l1 } := by
  have h := access_rest (s := s) (c := c) (p := p) g n x
  have htlb : ((accessed s c p g n x).afterIssue c.cid p.sid).tlb = x := congrArg State.tlb h
  dsimp only
  rw [htlb]
  exact h

end

/-! ## The checks of a load (R158, R343) -/

theorem walkFrom_crews (s : State) (y : List Crew) (p : Partition) (va : Nat) (ls : List (Nat × Nat × Bool × Bool)) (table : Nat) :
    walkFrom { s with crews := y } p va ls table = walkFrom s p va ls table := by
  induction ls generalizing table with
  | nil => rfl
  | cons x rest ih =>
    simp only [walkFrom, ih]
    rfl

theorem walk_crews (s : State) (y : List Crew) (asid va : Nat) : walk { s with crews := y } asid va = walk s asid va := by
  simp only [walk, walkFrom_crews]
  rfl

theorem translate_crews (s : State) (y : List Crew) (core asid : Nat) (va : DWord) (nd : Need) :
    ({ s with crews := y } : State).translate core asid va nd = s.translate core asid va nd := by
  simp only [State.translate, State.leafOf, walk_crews]
  rfl

theorem tlbFill_crews (s : State) (y : List Crew) (core asid : Nat) (va : DWord) :
    ({ s with crews := y } : State).tlbFill core asid va = { s.tlbFill core asid va with crews := y } := by
  have hhit : ({ s with crews := y } : State).tlbHit core asid va.toNat = s.tlbHit core asid va.toNat := rfl
  unfold State.tlbFill
  rw [walk_crews, hhit]
  cases s.tlbHit core asid va.toNat with
  | some e => rfl
  | none =>
    cases canonical va with
    | false => rfl
    | true => cases walk s asid va.toNat <;> rfl

/-- An access may change the TLBs alone. -/
theorem tlbFill_eq (s : State) (core asid : Nat) (va : DWord) :
    s.tlbFill core asid va = { s with tlb := (s.tlbFill core asid va).tlb } := by
  unfold State.tlbFill
  cases s.tlbHit core asid va.toNat with
  | some e => rfl
  | none =>
    cases canonical va with
    | false => rfl
    | true => cases walk s asid va.toNat <;> rfl

/-- The translation of addresses that pass it goes by neither the crews nor the split, and changes the TLBs alone. -/
theorem translateLanes_ok {c : Crew} {p : Split} {nd : Need} {as : List (Nat × DWord)} {s t : State} {ps : List (Nat × Nat)}
    (h : translateLanes s c p nd as = .ok (t, ps)) :
    (∀ (y : List Crew) (p' : Split), translateLanes { s with crews := y } c p' nd as = .ok ({ t with crews := y }, ps)) ∧
    t = { s with tlb := t.tlb } ∧ ps.map Prod.fst = as.map Prod.fst := by
  induction as generalizing s ps with
  | nil =>
    cases h
    exact ⟨fun _ _ => rfl, rfl, rfl⟩
  | cons a rest ih =>
    obtain ⟨l, va⟩ := a
    rw [translateLanes] at h
    cases htr : s.translate c.core c.asid va nd with
    | error r => simp [htr] at h
    | ok pa =>
      cases hrest : translateLanes (s.tlbFill c.core c.asid va) c p nd rest with
      | error e => simp [htr, hrest] at h
      | ok r =>
        obtain ⟨u, qs⟩ := r
        simp only [htr, hrest, Except.ok.injEq, Prod.mk.injEq] at h
        obtain ⟨rfl, rfl⟩ := h
        obtain ⟨hy, hu, hfst⟩ := ih hrest
        refine ⟨fun y p' => ?_, ?_, by simp [hfst]⟩
        · rw [translateLanes, translate_crews, htr, tlbFill_crews]
          simp only [hy y p']
        · rw [hu, tlbFill_eq]

/-- Addresses are aligned where the check lets them pass. -/
theorem checkAlign_ok_iff {p : Split} {size : Nat} {as : List (Nat × DWord)} :
    checkAlign p size as = .ok () ↔ ∀ a ∈ as, a.2.toNat % size = 0 := by
  unfold checkAlign
  cases hf : as.find? fun a => a.2.toNat % size != 0 with
  | none => simpa using hf
  | some a =>
    have hmem := List.mem_of_find?_eq_some hf
    have hne := List.find?_some hf
    simp only [reduceCtorEq, false_iff]
    intro hall
    simp [hall a hmem] at hne

/-- Addresses lie in the team's allocation where the check lets them pass. -/
theorem checkScratch_ok_iff {s : State} {c : Crew} {p : Split} {size : Nat} {as : List (Nat × DWord)} :
    checkScratch s c p size as = .ok () ↔ ∀ a ∈ as, a.2.toNat + size ≤ s.scratchSize c.lid c.team := by
  unfold checkScratch
  cases hf : as.find? fun a => decide (s.scratchSize c.lid c.team < a.2.toNat + size) with
  | none => simpa using hf
  | some a =>
    have hmem := List.mem_of_find?_eq_some hf
    have hlt := List.find?_some hf
    simp only [reduceCtorEq, false_iff]
    intro hall
    exact absurd (hall a hmem) (by simpa using hlt)

/-- The places of the reads of a load that passes its checks. -/
structure LoadPlaces (s : State) (c : Crew) (sp : Space) (size : Nat) (as : List (Nat × DWord)) (ls : List LaneLoad) : Prop where
  aligned : ∀ a ∈ as, a.2.toNat % size = 0
  lanes   : ls.map (fun q => (q.lane, q.va, q.got)) = as.map fun a => (a.1, a.2, none)
  scratch : sp = .scratch → ∀ q ∈ ls, q.team = c.team ∧ q.addr = q.va.toNat ∧ q.addr + size ≤ s.scratchSize c.lid c.team
  squad   : sp = .squad → ∀ q ∈ ls, q.team = s.squadTeam c q.va ∧ q.addr = q.va.toNat % 2 ^ 20

/-- The checks of a load that pass go by neither the crews nor the split but for its program counter, and change the TLBs alone. -/
structure LoadChecked (s : State) (c : Crew) (p : Split) (sp : Space) (size : Nat) (as : List (Nat × DWord)) (t : State)
    (ls : List LaneLoad) : Prop where
  rest : t = { s with tlb := t.tlb }
  any  : ∀ (y : List Crew) (p' : Split), p'.pc = p.pc → checkLoad { s with crews := y } c p' sp size as = .ok ({ t with crews := y }, ls)

/-- The bodies of two lists that have the same lanes agree where they are put together. -/
theorem map_zip_lanes {as : List (Nat × DWord)} {ps : List (Nat × Nat)} (h : ps.map Prod.fst = as.map Prod.fst) :
    (List.zip as ps).map (fun a => (a.2.1, a.1.2, (none : Option (List Byte × Bool)))) = as.map fun a => (a.1, a.2, none) := by
  induction as generalizing ps with
  | nil => simp
  | cons a rest ih =>
    cases ps with
    | nil => simp at h
    | cons b qs =>
      simp only [List.map_cons, List.cons.injEq] at h
      simp [h.1, ih h.2]

/-- A computation that goes on in another succeeds where both do. -/
theorem bind_eq_ok {α β ε : Type} {x : Except ε α} {f : α → Except ε β} {r : β} (h : (x >>= f) = .ok r) :
    ∃ a, x = .ok a ∧ f a = .ok r := by
  cases x with
  | error e => cases h
  | ok a => exact ⟨a, rfl, h⟩

/-- A computation that has succeeded goes on. -/
theorem ok_bind {α β ε : Type} (a : α) (f : α → Except ε β) : (Except.ok a >>= f) = f a := rfl

/-- What the checks of a load have found that pass. -/
theorem checkLoad_ok {s : State} {c : Crew} {p : Split} {sp : Space} {size : Nat} {as : List (Nat × DWord)} {t : State}
    {ls : List LaneLoad} (h : checkLoad s c p sp size as = .ok (t, ls)) :
    LoadPlaces s c sp size as ls ∧ LoadChecked s c p sp size as t ls := by
  obtain ⟨⟨⟩, halign, h⟩ := bind_eq_ok h
  have hal := checkAlign_ok_iff.mp halign
  have hal' : ∀ q : Split, checkAlign q size as = .ok () := fun _ => checkAlign_ok_iff.mpr hal
  cases sp with
  | scratch =>
    obtain ⟨⟨⟩, hscratch, h⟩ := bind_eq_ok h
    have hsc := checkScratch_ok_iff.mp hscratch
    obtain ⟨rfl, rfl⟩ : s = t ∧ (as.map fun a => (⟨a.1, c.team, a.2.toNat, a.2, none⟩ : LaneLoad)) = ls := by
      simpa [pure, Except.pure] using h
    refine ⟨⟨hal, by simp, fun _ q hq => ?_, nofun⟩, ⟨rfl, fun y q _ => ?_⟩⟩
    · obtain ⟨a, ha, rfl⟩ := List.mem_map.mp hq
      exact ⟨rfl, rfl, hsc a ha⟩
    · have hsc' : checkScratch { s with crews := y } c q size as = .ok () := checkScratch_ok_iff.mpr hsc
      simp only [checkLoad, hal', hsc']
      rfl
  | squad =>
    obtain ⟨⟨⟩, hsq, h⟩ := bind_eq_ok h
    obtain ⟨rfl, rfl⟩ : s = t ∧ (as.map fun a => (⟨a.1, s.squadTeam c a.2, a.2.toNat % 0x100000, a.2, none⟩ : LaneLoad)) = ls := by
      simpa [pure, Except.pure] using h
    refine ⟨⟨hal, by simp, nofun, fun _ q hq => ?_⟩, ⟨rfl, fun y q hq => ?_⟩⟩
    · obtain ⟨a, -, rfl⟩ := List.mem_map.mp hq
      exact ⟨rfl, rfl⟩
    · have hsq' : checkSquad { s with crews := y } c q.pc as = .ok () := by rw [hq, ← hsq]; rfl
      simp only [checkLoad, hal', hsq']
      rfl
  | global =>
    obtain ⟨⟨u, ps⟩, htr, h⟩ := bind_eq_ok h
    obtain ⟨rfl, rfl⟩ : u = t ∧ ((List.zip as ps).map fun a => (⟨a.2.1, 0, a.2.2, a.1.2, none⟩ : LaneLoad)) = ls := by
      simpa [pure, Except.pure] using h
    obtain ⟨hany, hrest, hfst⟩ := translateLanes_ok htr
    refine ⟨⟨hal, ?_, nofun, nofun⟩, ⟨hrest, fun y q _ => ?_⟩⟩
    · rw [List.map_map]
      exact map_zip_lanes hfst
    · simp only [checkLoad, hal', hany]
      rfl

end Sys2Proof.Machine
end

section
/-! The plain loads of the lanes. -/

namespace Sys2Proof.Machine

section
variable {s : State} {c : Crew} {p : Split}

/-- The crew of the split `p` once a load `q` of it has issued at `n`. -/
def loadCrew (p : Split) (n : Nat) (q : PLoad) (k : Crew) : Crew :=
  { gateCrew p n k with loads := k.loads ++ if q.lanes.isEmpty then [] else [{ q with seq := n, fresh := true }] }.modSplit p.sid
    fun r => { r with pc := p.pc + 4 }

theorem advance_accessed (g : Crew → Crew) (hg : ∀ k, (g k).cid = k.cid) (n m : Nat) (x : List TlbEntry) :
    (accessed s c p g n x).advance (reads s c p) (p.fenced m) =
      accessed s c p (fun k => (g k).modSplit p.sid fun r => { r with pc := p.pc + 4 }) n x := by
  rw [State.advance, State.seen_cid, Split.fenced_sid, Split.fenced_pc]
  exact accessed_modCrew g hg n x _

/-- A load is registered with its crew, if any lane is active. -/
theorem pushLoad_accessed (x : List TlbEntry) (q : PLoad) :
    pushLoad (accessed s c p (gateCrew p s.nextId) s.nextId x) (reads s c p) (p.fenced s.nextId) q =
      accessed s c p (loadCrew p s.nextId q) (if q.lanes.isEmpty then s.nextId else s.nextId + 1) x := by
  unfold pushLoad loadCrew
  cases q.lanes.isEmpty with
  | true =>
    simp only [if_true, List.append_nil]
    exact advance_accessed (gateCrew p s.nextId) (fun _ => rfl) _ _ _
  | false =>
    simp only [Bool.false_eq_true, if_false, State.seen_cid]
    rw [accessed_modCrew (gateCrew p s.nextId) (fun _ => rfl), accessed_bumpId, accessed_nextId]
    exact advance_accessed (fun k => { gateCrew p s.nextId k with loads := k.loads ++ [{ q with seq := s.nextId, fresh := true }] })
      (fun _ => rfl) _ _ _

theorem loadCrew_splits (p : Split) (n : Nat) (q : PLoad) (k : Crew) :
    (loadCrew p n q k).splits = (k.modSplit p.sid fun r => { gateSplit p n r with pc := p.pc + 4 }).splits := by
  have h := Crew.modSplit_modSplit k p.sid (gateSplit p n) (fun r => { r with pc := p.pc + 4 }) (gateSplit_sid p n)
  have hs := congrArg Crew.splits h
  exact hs

theorem loadCrew_loads (c : Crew) (p : Split) (n : Nat) (q : PLoad) : (loadCrew p n q (c.counted p.sid)).loads =
    if q.lanes = [] then agedLoads c p else agedLoads c p ++ [{ q with seq := n, fresh := true }] := by
  cases hl : q.lanes <;> simp [loadCrew, Crew.modSplit, hl]

/-- What a load leaves that has passed the fence of its split, its checks and its operands' poison. -/
theorem issue_load {body : Crew → Split → State → Res} (h : Issues s c p) {x : List TlbEntry} {q : PLoad}
    (hb : body (reads s c p) p (begun s c p) =
      .ok (pushLoad (accessed s c p (gateCrew p s.nextId) s.nextId x) (reads s c p) (p.fenced s.nextId) q)) :
    ∃ (t : State) (c' : Crew), issue s body = .next t ∧ Moves s t c c' p ((p.fenced s.nextId).issued (p.pc + 4)) ∧ FenceActs s t c p ∧
      c' = { c with
        loads := if q.lanes = [] then agedLoads c p else agedLoads c p ++ [{ q with seq := s.nextId, fresh := true }]
        raised := c'.raised, splits := c'.splits, host := c'.host } ∧
      t = { s with crews := t.crews, age := t.age, woke := t.woke, entered := t.entered, nextId := t.nextId, tlb := t.tlb, l1 := t.l1 } := by
  rw [pushLoad_accessed] at hb
  have hmoves := access_moves h (g := loadCrew p s.nextId q) (f := fun r => { gateSplit p s.nextId r with pc := p.pc + 4 })
    (fun _ => rfl) (gateSplit_sid p s.nextId) (loadCrew_splits p s.nextId q _) rfl (if q.lanes.isEmpty then s.nextId else s.nextId + 1) x
  rw [gateSplit_counted] at hmoves
  refine ⟨_, _, issue_ok h hb, hmoves, access_fenceActs _ _ _, ?_, access_rest_tlb _ _ _⟩
  rw [← loadCrew_loads]
  rfl

@[simp] theorem State.seen_lid (s : State) (c : Crew) (sid : Nat) : (s.seen c sid).lid = c.lid := by rw [State.seen_eq]
@[simp] theorem State.seen_team (s : State) (c : Crew) (sid : Nat) : (s.seen c sid).team = c.team := by rw [State.seen_eq]

/-- The scratchpads are as before past a fence. -/
theorem fenced_scratchSize (lid tid : Nat) : ((begun s c p).fenced c p).scratchSize lid tid = s.scratchSize lid tid := by
  rw [State.fenced_eq]; rfl

/-- The squad of a crew is as before past a fence. -/
theorem fenced_squadTeam (a : DWord) : ((begun s c p).fenced c p).squadTeam (reads s c p) a = s.squadTeam c a := by
  rw [State.fenced_eq, reads, State.seen_eq]; rfl

/-- An LM word with a scale of its own and an aligned group of registers passes its decode traps. -/
theorem lmDecode_ok {w : Word} {t x : BitVec 8} {sc : BitVec 2} {n : Nat} (hx : x.msb = true → sc = 0) (ht : t.toNat % n = 0) :
    lmDecode w p t x sc n = .ok () := by
  have h1 : (!(x.msb && sc != 0)) = true := by
    cases hm : x.msb
    · rfl
    · simp [hx hm]
  simp only [lmDecode, need_true h1, need_true (b := t.toNat % n == 0) (by simpa using ht)]
  rfl

/-- The poison of a load's data goes by neither the crews nor the split but for its program counter. -/
theorem loadPoison_crews {c : Crew} {p q : Split} (t : State) (y : List Crew) (sp : Space) (size : Nat) (as : List (Nat × DWord))
    (ls : List LaneLoad) (hpc : q.pc = p.pc) :
    loadPoison { t with crews := y } c q sp size as ls = loadPoison t c p sp size as ls := by
  unfold loadPoison
  rw [hpc]
  rfl

/-- The active lanes of a split are those of its mask, whether its fence is over or under way. -/
@[simp] theorem activeLanes_fenced (r : Crew) (n : Nat) : activeLanes r (p.fenced n) = activeLanes r p := by
  rw [activeLanes, Split.fenced_mask]; rfl

/-- The poison of operands that are a crew's own registers is seen past a fence as before it. -/
theorem poison_fenced {u : Uses} (hsrcs : u.srcs = []) (s t : State) (r : Crew) (n : Nat) :
    u.poison t r (p.fenced n) = u.poison s r p := by
  simp only [Uses.poison, hsrcs, activeLanes_fenced, ownTrap, Split.fenced_pc, List.filterMap_nil]

section
variable {w : Word} {sp : Space} {size : Nat} {t x : BitVec 8} {b : BitVec 6} {sc : BitVec 2}

/-- A lane load goes by its fence once its registers are in reach. -/
theorem lmLoad_waits (h : Issues s c p) (hx : x.msb = true → sc = 0) (ht : t.toNat % widthRegs size = 0)
    (hu : Clear s (reads s c p) p { rd := lmIndex x, wr := group t (widthRegs size), us := [b.toNat] } false)
    (hover : ¬ FenceOver s c p) : lmLoad w sp size t x b sc s = .next (s.stall c.cid p.sid) := by
  rw [lmLoad]
  refine issue_wait h ?_
  simp only [lmDecode_ok hx ht, checkUses_ok hu, fenceGate_waits h hover]
  rfl

/-- What a lane load leaves whose fence is over and whose checks pass. -/
theorem lmLoad_over (h : Issues s c p) (hx : x.msb = true → sc = 0) (ht : t.toNat % widthRegs size = 0)
    (hu : Clear s (reads s c p) p { rd := lmIndex x, wr := group t (widthRegs size), us := [b.toNat] } false)
    (hover : FenceOver s c p) {s1 : State} {ls : List LaneLoad}
    (hck : LoadChecked ((begun s c p).fenced c p) (reads s c p) p sp size
      ((activeLanes c p).map fun l => (l, lmAddr (reads s c p) l x b sc)) s1 ls)
    (hp : loadPoison s1 (reads s c p) p sp size ((activeLanes c p).map fun l => (l, lmAddr (reads s c p) l x b sc)) ls = none) :
    ∃ body, lmLoad w sp size t x b sc s = issue s body ∧ body (reads s c p) p (begun s c p) =
      .ok (pushLoad (accessed s c p (gateCrew p s.nextId) s.nextId s1.tlb) (reads s c p) (p.fenced s.nextId) {
        sid := p.sid, space := sp, lanes := ls, size := size, uniform := false, dst := c.wb + t.toNat
        regs := widthRegs size, pc := p.pc, seq := 0, cpol := (reads s c p).cpol, acq := none, reserve := false
        anc := p.anc, after := (p.fenced s.nextId).acqAt, fresh := true }) := by
  have hs1 : ({ s1 with crews := (gated s c p).crews } : State) = accessed s c p (gateCrew p s.nextId) s.nextId s1.tlb := by
    rw [hck.rest, State.fenced_eq]; rfl
  have hcheck := hck.any (gated s c p).crews (p.fenced s.nextId) (p.fenced_pc s.nextId)
  rw [← gated_eq, hs1] at hcheck
  have hload := loadPoison_crews (c := reads s c p) s1 (gated s c p).crews sp size
    ((activeLanes c p).map fun l => (l, lmAddr (reads s c p) l x b sc)) ls (p.fenced_pc s.nextId)
  rw [hs1, hp] at hload
  have hpoison : ({ rd := lmIndex x, wr := group t (widthRegs size), us := [b.toNat] } : Uses).poison
      (accessed s c p (gateCrew p s.nextId) s.nextId s1.tlb) (reads s c p) (p.fenced s.nextId) = none := by
    rw [poison_fenced rfl s]; exact hu.clean
  refine ⟨_, by rw [lmLoad], ?_⟩
  simp only [lmDecode_ok hx ht, checkUses_ok hu, fenceGate_over h hover, ok_bind, activeLanes_fenced, State.seen_active, hcheck,
    checkPoison_ok hpoison, hload, Split.fenced_sid, Split.fenced_pc, Split.fenced_anc, State.seen_wb]
  rfl

end

end

theorem LoadRow.exec_eq {i : Instr} {sp : Space} {size : Nat} {t x : BitVec 8} {b : BitVec 6} {sc : BitVec 2}
    (h : LoadRow i sp size t x b sc) (s : State) : exec i s = lmLoad (encode i) sp size t x b sc s := by
  cases h <;> rfl

/-- Settles O25: the checks give the places of the reads; past the fence of its split the load is registered, and before it waits. -/
theorem loads : Obligations.Loads := by
  intro s c p i sp size t x b sc s1 ls hrow h hx ht hu as hcheck hp
  obtain ⟨⟨haligned, hlanes, hscratch, hsquad⟩, hck⟩ := checkLoad_ok hcheck
  rw [hrow.exec_eq]
  refine ⟨haligned, hlanes, ?_, ?_, fun hover => ?_, fun hover => lmLoad_waits h hx ht hu hover⟩
  · simpa only [fenced_scratchSize, State.seen_lid, State.seen_team] using hscratch
  · simpa only [fenced_squadTeam] using hsquad
  · obtain ⟨body, he, hb⟩ := lmLoad_over (w := encode i) h hx ht hu hover hck hp
    rw [he]
    exact issue_load h hb

end Sys2Proof.Machine
end

section
/-! What the stores of a split leave as they issue. -/

namespace Sys2Proof.Machine

/-! ## The bytes of a store (R161) -/

/-- The bytes of a number that is put together from two. -/
theorem leBytes_add (a b x y : Nat) (hx : x < 256 ^ a) : leBytes (a + b) (x + 256 ^ a * y) = leBytes a x ++ leBytes b y := by
  induction a generalizing x with
  | zero => simp [leBytes] at hx ⊢; simp [hx]
  | succ a ih =>
    have hsum : x + 256 ^ (a + 1) * y = x + 256 * (256 ^ a * y) := by rw [Nat.pow_succ]; ring
    have hlow : BitVec.ofNat 8 (x + 256 * (256 ^ a * y)) = BitVec.ofNat 8 x := by
      apply BitVec.eq_of_toNat_eq
      simp [Nat.add_mul_mod_self_left]
    have hhigh : (x + 256 * (256 ^ a * y)) / 256 = x / 256 + 256 ^ a * y := by omega
    rw [hsum, Nat.succ_add, leBytes, leBytes, hlow, hhigh, ih (x / 256) (by omega)]
    rfl

/-- The bytes of four registers, one after the other. -/
theorem leBytes_four (x0 x1 x2 x3 : Word) :
    leBytes 16 (x0.toNat + 2 ^ 32 * x1.toNat + 2 ^ 64 * x2.toNat + 2 ^ 96 * x3.toNat) =
      leBytes 4 x0.toNat ++ (leBytes 4 x1.toNat ++ (leBytes 4 x2.toNat ++ leBytes 4 x3.toNat)) := by
  rw [← leBytes_add 4 4 x2.toNat _ x2.isLt, ← leBytes_add 4 8 x1.toNat _ x1.isLt, ← leBytes_add 4 12 x0.toNat _ x0.isLt]
  congr 1
  ring

/-- The widths of an access (Table 9.1). -/
def IsWidth (size : Nat) : Prop := size = 1 ∨ size = 2 ∨ size = 4 ∨ size = 8 ∨ size = 16

/-- The bytes of a lane store are the first of its registers' bytes. -/
theorem regBytes_eq (c : Crew) (l t : Nat) {size : Nat} (hsize : IsWidth size) :
    regBytes c l t (widthRegs size) size =
      (leBytes 16 ((c.v l t).toNat + 2 ^ 32 * (c.v l (t + 1)).toNat + 2 ^ 64 * (c.v l (t + 2)).toNat +
        2 ^ 96 * (c.v l (t + 3)).toNat)).take size := by
  rw [leBytes_four]
  rcases hsize with rfl | rfl | rfl | rfl | rfl <;> rfl

@[simp] theorem State.seen_regBytes (s : State) (c : Crew) (sid l t n size : Nat) :
    regBytes (s.seen c sid) l t n size = regBytes c l t n size := by
  simp only [regBytes, State.seen_v]

/-- The bytes of one register. -/
theorem regBytes_one (c : Crew) (l t : Nat) : regBytes c l t 1 4 = leBytes 4 (c.v l t).toNat := rfl

/-- The bytes of a pair of registers. -/
theorem regBytes_two (c : Crew) (l t : Nat) : regBytes c l t 2 8 = leBytes 8 (c.vPair l t).toNat := by
  have hpair : (c.vPair l t).toNat = (c.v l t).toNat + 256 ^ 4 * (c.v l (t + 1)).toNat := by
    rw [Crew.vPair, BitVec.toNat_append, ← Nat.shiftLeft_add_eq_or_of_lt (c.v l t).isLt, Nat.shiftLeft_eq]
    ring
  rw [hpair, leBytes_add 4 4 _ _ (c.v l t).isLt]
  rfl

section
variable {s : State} {c : Crew} {p : Split}

/-- What an access leaves that changes its split alone, by `f`, once it is past its fence. -/
theorem issue_access {body : Crew → Split → State → Res} (h : Issues s c p) {g : Crew → Crew} {f : Split → Split} {n : Nat}
    (hb : body (reads s c p) p (begun s c p) = .ok (accessed s c p g n s.tlb))
    (hg : ∀ k, g k = { k with splits := (g k).splits }) (hf : ∀ q, (f q).sid = q.sid)
    (hspl : (g (c.counted p.sid)).splits = ((c.counted p.sid).modSplit p.sid f).splits) :
    ∃ (t : State) (c' : Crew), issue s body = .next t ∧ Moves s t c c' p (f p.counted).untried ∧ FenceActs s t c p ∧
      c' = { c with raised := c'.raised, splits := c'.splits, host := c'.host, loads := agedLoads c p } ∧
      t = { s with crews := t.crews, age := t.age, woke := t.woke, entered := t.entered, nextId := t.nextId, l1 := t.l1 } := by
  refine ⟨_, (g (c.counted p.sid)).untried, issue_ok h hb,
    access_moves h (fun k => by rw [hg]) hf hspl (by rw [hg]) n s.tlb, access_fenceActs _ _ _, ?_, access_rest _ _ _⟩
  rw [hg]; rfl

/-- A further change of the split of an access. -/
theorem accessed_modSplit {f : Split → Split} (hf : ∀ q, (f q).sid = q.sid) (n : Nat) (x : List TlbEntry) (g : Split → Split) :
    (accessed s c p (·.modSplit p.sid f) n x).modSplit c.cid p.sid g = accessed s c p (·.modSplit p.sid fun q => g (f q)) n x := by
  rw [State.modSplit, accessed_modCrew (·.modSplit p.sid f) (fun _ => rfl)]
  simp only [Crew.modSplit_modSplit _ _ _ _ hf]

theorem advance_modSplit {f : Split → Split} (hf : ∀ q, (f q).sid = q.sid) (n m : Nat) (x : List TlbEntry) :
    (accessed s c p (·.modSplit p.sid f) n x).advance (reads s c p) (p.fenced m) =
      accessed s c p (·.modSplit p.sid fun r => { f r with pc := p.pc + 4 }) n x := by
  rw [State.advance, State.setPc, State.seen_cid, Split.fenced_sid, Split.fenced_pc, accessed_modSplit hf]

/-- The split `p` once a store `q` of it has issued at `n`. -/
def storeSplit (p : Split) (n : Nat) (q : PStore) (r : Split) : Split :=
  { gateSplit p n r with
    stores := (gateSplit p n r).stores ++ if q.lanes.isEmpty then [] else [{ q with seq := n, sid := p.sid, anc := p.anc }]
    pc := p.pc + 4 }

@[simp] theorem Split.fenced_stores (p : Split) (n : Nat) : (p.fenced n).stores = p.stores := by unfold Split.fenced; split <;> rfl
@[simp] theorem Split.fenced_due (p : Split) (n : Nat) : (p.fenced n).due = p.due := by unfold Split.fenced; split <;> rfl
@[simp] theorem Split.fenced_recipe (p : Split) (n : Nat) : (p.fenced n).recipe = p.recipe := by unfold Split.fenced; split <;> rfl
@[simp] theorem Split.fenced_mark (p : Split) (n : Nat) : (p.fenced n).mark = p.mark := by unfold Split.fenced; split <;> rfl

/-- What a store makes of its split as it issues. -/
theorem storeSplit_counted (p : Split) (n : Nat) (q : PStore) : (storeSplit p n q p.counted).untried =
    { (p.fenced n).issued (p.pc + 4) with
      stores := p.stores ++ if q.lanes.isEmpty then [] else [{ q with seq := n, sid := p.sid, anc := p.anc }] } := by
  unfold storeSplit
  rw [gateSplit_counted, ← p.fenced_stores n]
  rfl

theorem storeSplit_sid (p : Split) (n : Nat) (q : PStore) (r : Split) : (storeSplit p n q r).sid = r.sid := gateSplit_sid p n r

/-- A store enters its split's store path, if any lane is active. -/
theorem pushStore_accessed (x : List TlbEntry) (q : PStore) :
    pushStore (accessed s c p (gateCrew p s.nextId) s.nextId x) (reads s c p) (p.fenced s.nextId) q =
      accessed s c p (·.modSplit p.sid (storeSplit p s.nextId q)) (if q.lanes.isEmpty then s.nextId else s.nextId + 1) x := by
  have hgate : gateCrew p s.nextId = (·.modSplit p.sid (gateSplit p s.nextId)) := rfl
  unfold pushStore storeSplit
  rw [hgate]
  cases q.lanes.isEmpty with
  | true =>
    simp only [if_true, List.append_nil]
    exact advance_modSplit (gateSplit_sid p s.nextId) _ _ _
  | false =>
    simp only [Bool.false_eq_true, if_false, State.seen_cid, Split.fenced_sid, Split.fenced_anc]
    rw [accessed_modSplit (gateSplit_sid p s.nextId), accessed_bumpId, accessed_nextId]
    exact advance_modSplit (f := fun r => { gateSplit p s.nextId r with
      stores := (gateSplit p s.nextId r).stores ++ [{ q with seq := s.nextId, sid := p.sid, anc := p.anc }] })
      (gateSplit_sid p s.nextId) _ _ _

/-- What a store leaves as it issues. -/
theorem issue_store {body : Crew → Split → State → Res} (h : Issues s c p) {q : PStore}
    (hb : body (reads s c p) p (begun s c p) = .ok (pushStore (gated s c p) (reads s c p) (p.fenced s.nextId) q)) :
    ∃ (t : State) (c' : Crew), issue s body = .next t ∧
      Moves s t c c' p { (p.fenced s.nextId).issued (p.pc + 4) with
        stores := p.stores ++ if q.lanes.isEmpty then [] else [{ q with seq := s.nextId, sid := p.sid, anc := p.anc }] } ∧
      FenceActs s t c p ∧
      c' = { c with raised := c'.raised, splits := c'.splits, host := c'.host, loads := agedLoads c p } ∧
      t = { s with crews := t.crews, age := t.age, woke := t.woke, entered := t.entered, nextId := t.nextId, l1 := t.l1 } := by
  rw [pushStore_accessed] at hb
  rw [← storeSplit_counted]
  exact issue_access h hb (fun _ => rfl) (storeSplit_sid p s.nextId q) rfl

/-! ## Marks (R351) -/

/-- The split `r` of the crew `k` once a mark at `n` is taken in it, outside recipe mode. -/
def markSplit (k : Crew) (n : Nat) (r : Split) : Split := if r.recipe then r else { r with mark := markNow k r n }

/-- The crew of a marked access, whose split goes by `f`. -/
def markCrew (p : Split) (f : Split → Split) (n : Nat) (k : Crew) : Crew :=
  (k.modSplit p.sid f).modSplit p.sid (markSplit (k.modSplit p.sid f) n)

theorem markSplit_sid (k : Crew) (n : Nat) (r : Split) : (markSplit k n r).sid = r.sid := by
  unfold markSplit; split <;> rfl

theorem takeMark_accessed (f : Split → Split) (n : Nat) (x : List TlbEntry) :
    (accessed s c p (·.modSplit p.sid f) n x).takeMark c.cid p.sid id = accessed s c p (markCrew p f n) (n + 1) x := by
  rw [State.takeMark, accessed_modCrew (·.modSplit p.sid f) (fun _ => rfl), accessed_bumpId]
  rfl

/-- A mark is taken at a split that may be tried again as at another. -/
theorem markSplit_untried (k : Crew) (n : Nat) (r : Split) : (markSplit k n r).untried = markSplit k n r.untried := by
  simp only [markSplit, show r.untried.recipe = r.recipe from rfl]
  split <;> rfl

/-- A mark changes the mark of its split alone. -/
theorem markSplit_eq (k : Crew) (n : Nat) (r : Split) : markSplit k n r = { r with mark := (markSplit k n r).mark } := by
  unfold markSplit; split <;> rfl

/-- The mark that is taken outside recipe mode is of its split as it stands. -/
theorem markSplit_values (k : Crew) (n : Nat) {r : Split} {pc : DWord} {mask : BitVec 32} {m : MarkRec} (hr : r.recipe = false)
    (hpc : r.pc = pc) (hmask : r.mask = mask) (hm : r.mark = m) :
    (markSplit k n r).mark.pc = pc ∧ (markSplit k n r).mark.mask = mask ∧ (markSplit k n r).mark.lpin = m.lpin := by
  subst hpc hmask hm
  simp [markSplit, hr, markNow]

/-- What a marked access leaves. -/
theorem issue_marked {body : Crew → Split → State → Res} (h : Issues s c p) {f : Split → Split} {n m : Nat}
    (hb : body (reads s c p) p (begun s c p) = .ok (accessed s c p (markCrew p f m) n s.tlb)) (hf : ∀ q, (f q).sid = q.sid) :
    ∃ (t : State) (c' : Crew), issue s body = .next t ∧
      Moves s t c c' p (markSplit ((c.counted p.sid).modSplit p.sid f) m (f p.counted)).untried ∧ FenceActs s t c p ∧
      c' = { c with raised := c'.raised, splits := c'.splits, host := c'.host, loads := agedLoads c p } ∧
      t = { s with crews := t.crews, age := t.age, woke := t.woke, entered := t.entered, nextId := t.nextId, l1 := t.l1 } :=
  issue_access h (f := fun q => markSplit ((c.counted p.sid).modSplit p.sid f) m (f q)) hb (fun _ => rfl)
    (fun q => (markSplit_sid _ _ _).trans (hf q)) (congrArg Crew.splits (Crew.modSplit_modSplit _ _ _ _ hf))

/-- What a marked store with an active lane leaves. -/
theorem issue_markedStore {body : Crew → Split → State → Res} (h : Issues s c p) {q : PStore} (hq : q.lanes ≠ [])
    (hb : body (reads s c p) p (begun s c p) =
      .ok ((pushStore (gated s c p) (reads s c p) (p.fenced s.nextId) q).takeMark c.cid p.sid id)) :
    ∃ (t : State) (c' : Crew) (m : MarkRec), issue s body = .next t ∧
      (FenceActs s t c p ∧ c' = { c with raised := c'.raised, splits := c'.splits, host := c'.host, loads := agedLoads c p } ∧
        t = { s with crews := t.crews, age := t.age, woke := t.woke, entered := t.entered, nextId := t.nextId, l1 := t.l1 }) ∧
      Moves s t c c' p { (p.fenced s.nextId).issued (p.pc + 4) with
        stores := p.stores ++ [{ q with seq := s.nextId, sid := p.sid, anc := p.anc }], mark := m } ∧
      (p.recipe = false → m.pc = p.pc + 4 ∧ m.mask = p.mask ∧ m.lpin = p.mark.lpin) := by
  have hempty : q.lanes.isEmpty = false := by simpa using hq
  rw [pushStore_accessed, takeMark_accessed, hempty] at hb
  obtain ⟨t, c', ht, hmoves, hfence, hc', hrest⟩ := issue_marked h hb (storeSplit_sid p s.nextId q)
  rw [markSplit_untried, storeSplit_counted, hempty, markSplit_eq] at hmoves
  refine ⟨t, c', _, ht, ⟨hfence, hc', hrest⟩, hmoves, fun hrec => ?_⟩
  exact markSplit_values _ _ ((p.fenced_recipe s.nextId).trans hrec) rfl (p.fenced_mask s.nextId) (p.fenced_mark s.nextId)

end

end Sys2Proof.Machine
end

section
/-! The stores: of the lanes, of a split, STL and RED. -/

namespace Sys2Proof.Machine

section
variable {s : State} {c : Crew} {p : Split}

/-! ## Lane stores (R161, R162, R138) -/

/-- The split `p` once a store of it at `n` has been discarded, whose trap `k` is due at the next boundary. -/
def dueSplit (p : Split) (n : Nat) (k : Trap) (r : Split) : Split :=
  { gateSplit p n r with due := (gateSplit p n r).due ++ [(n, k)], pc := p.pc + 4 }

/-- What a discarded store makes of its split. -/
theorem dueSplit_counted (p : Split) (n : Nat) (k : Trap) : (dueSplit p n k p.counted).untried =
    { (p.fenced n).issued (p.pc + 4) with due := p.due ++ [(n, k)] } := by
  unfold dueSplit
  rw [gateSplit_counted, ← p.fenced_due n]
  rfl

/-- A store that is discarded leaves its trap due. -/
theorem due_accessed (n : Nat) (k : Trap) :
    (((gated s c p).modSplit c.cid p.sid fun r => { r with due := r.due ++ [(s.nextId, k)] }).bumpId).advance (reads s c p) (p.fenced n) =
      accessed s c p (·.modSplit p.sid (dueSplit p s.nextId k)) (s.nextId + 1) s.tlb := by
  have hgate : gateCrew p s.nextId = (·.modSplit p.sid (gateSplit p s.nextId)) := rfl
  rw [gated, hgate, accessed_modSplit (gateSplit_sid p s.nextId), accessed_bumpId]
  exact advance_modSplit (f := fun r => { gateSplit p s.nextId r with due := (gateSplit p s.nextId r).due ++ [(s.nextId, k)] })
    (gateSplit_sid p s.nextId) _ _ _

section
variable {w : Word} {sp : Space} {size : Nat} {t x : BitVec 8} {b : BitVec 6} {sc : BitVec 2}

/-- The store of a lane store: the bytes of each active lane's registers at its address. -/
def laneStore (s : State) (c : Crew) (p : Split) (w : Word) (sp : Space) (size : Nat) (t x : BitVec 8) (b : BitVec 6) (sc : BitVec 2) :
    PStore := {
  space := sp
  lanes := (activeLanes c p).map fun l => ⟨l, lmAddr (reads s c p) l x b sc, regBytes c l t.toNat (widthRegs size) size⟩
  size := size, red := none, word := w, uniform := false, pc := p.pc, sid := p.sid, seq := 0, anc := p.anc
  hint := (reads s c p).shint, rel := none, bad := [] }

/-- What the body of a lane store does once its registers are in reach, its addresses pass and its fence is over. -/
theorem lmStore_over (h : Issues s c p) (hx : x.msb = true → sc = 0) (ht : t.toNat % widthRegs size = 0)
    (hu : Clear s (reads s c p) p { rd := lmIndex x ++ group t (widthRegs size), us := [b.toNat] } false)
    (hal : ∀ l ∈ activeLanes c p, (lmAddr (reads s c p) l x b sc).toNat % size = 0)
    (hscratch : sp = .scratch → ∀ l ∈ activeLanes c p, (lmAddr (reads s c p) l x b sc).toNat + size ≤ s.scratchSize c.lid c.team)
    (hroom : sp ≠ .scratch → p.storeRoom = true) (hover : FenceOver s c p) :
    let check := checkSquad (begun s c p) (reads s c p) p.pc ((activeLanes c p).map fun l => (l, lmAddr (reads s c p) l x b sc))
    let q := laneStore s c p w sp size t x b sc
    ∃ body, lmStore w sp size t x b sc s = issue s body ∧
      (∀ k, sp = .squad → check = .error (.trap k) → body (reads s c p) p (begun s c p) =
        .ok (accessed s c p (·.modSplit p.sid (dueSplit p s.nextId k)) (s.nextId + 1) s.tlb)) ∧
      ((∀ k, sp = .squad → check ≠ .error (.trap k)) → body (reads s c p) p (begun s c p) =
        .ok (pushStore (gated s c p) (reads s c p) (p.fenced s.nextId) q)) := by
  intro check q
  have hal' : checkAlign p size ((activeLanes c p).map fun l => (l, lmAddr (reads s c p) l x b sc)) = .ok () :=
    checkAlign_ok_iff.mpr (by simpa using hal)
  have hcheck : checkSquad (gated s c p) (reads s c p) p.pc ((activeLanes c p).map fun l => (l, lmAddr (reads s c p) l x b sc)) = check := rfl
  have hawait : (sp == .scratch || p.storeRoom) = true := by
    cases sp <;> simp_all
  have hsc : sp = .scratch → checkScratch (begun s c p) (reads s c p) p size
      ((activeLanes c p).map fun l => (l, lmAddr (reads s c p) l x b sc)) = .ok () := by
    intro hsp
    rw [checkScratch_ok_iff, State.seen_lid, State.seen_team]
    intro a ha
    obtain ⟨l, hl, rfl⟩ := List.mem_map.mp ha
    exact hscratch hsp l hl
  refine ⟨_, by rw [lmStore], fun k hsq hk => ?_, fun hk => ?_⟩
  · subst hsq
    simp only [lmDecode_ok hx ht, checkUses_ok hu, State.seen_active, hal', checkPoison_ok (s := begun s c p) hu.clean,
      await_true hawait, fenceGate_over h hover, ok_bind, Split.fenced_pc, hcheck, hk, State.seen_cid, Split.fenced_sid, beq_self_eq_true,
      if_true]
    exact congrArg Except.ok (due_accessed s.nextId k)
  · simp only [lmDecode_ok hx ht, checkUses_ok hu, State.seen_active, hal', checkPoison_ok (s := begun s c p) hu.clean,
      await_true hawait, fenceGate_over h hover, ok_bind, Split.fenced_pc, hcheck, Split.fenced_sid, Split.fenced_anc,
      List.map_map, State.seen_regBytes]
    cases sp with
    | scratch =>
      simp only [beq_self_eq_true, if_true, hsc rfl, ok_bind]
      rfl
    | global => rfl
    | squad =>
      cases hc : check with
      | ok u => rfl
      | error e =>
        cases e with
        | trap k => exact absurd hc (hk k rfl)
        | _ => rfl

/-- What a lane store leaves that is discarded. -/
theorem issue_due {body : Crew → Split → State → Res} (h : Issues s c p) {k : Trap}
    (hb : body (reads s c p) p (begun s c p) =
      .ok (accessed s c p (·.modSplit p.sid (dueSplit p s.nextId k)) (s.nextId + 1) s.tlb)) :
    ∃ (t : State) (c' : Crew), issue s body = .next t ∧
      Moves s t c c' p { (p.fenced s.nextId).issued (p.pc + 4) with due := p.due ++ [(s.nextId, k)] } ∧ FenceActs s t c p ∧
      c' = { c with raised := c'.raised, splits := c'.splits, host := c'.host, loads := agedLoads c p } ∧
      t = { s with crews := t.crews, age := t.age, woke := t.woke, entered := t.entered, nextId := t.nextId, l1 := t.l1 } := by
  rw [← dueSplit_counted]
  exact issue_access h hb (fun _ => rfl) (fun q => gateSplit_sid p s.nextId q) rfl

/-- The part of a store path that a lane store adds, with the bytes of its registers. -/
theorem laneStore_pushed (hsize : IsWidth size) :
    p.stores ++ (if (laneStore s c p w sp size t x b sc).lanes.isEmpty then []
      else [{ laneStore s c p w sp size t x b sc with seq := s.nextId, sid := p.sid, anc := p.anc }]) =
    if activeLanes c p = [] then p.stores else p.stores ++ [{
      space := sp
      lanes := (activeLanes c p).map fun l => ⟨l, lmAddr (reads s c p) l x b sc,
        (leBytes 16 ((c.v l t.toNat).toNat + 2 ^ 32 * (c.v l (t.toNat + 1)).toNat + 2 ^ 64 * (c.v l (t.toNat + 2)).toNat +
          2 ^ 96 * (c.v l (t.toNat + 3)).toNat)).take size⟩
      size := size, red := none, word := w, uniform := false, pc := p.pc, sid := p.sid, seq := s.nextId, anc := p.anc
      hint := (reads s c p).shint, rel := none, bad := [] }] := by
  by_cases hnil : activeLanes c p = []
  · simp [laneStore, hnil]
  · have hlanes : (laneStore s c p w sp size t x b sc).lanes.isEmpty = false := by simp [laneStore, hnil]
    rw [hlanes, if_neg hnil, if_neg Bool.false_ne_true]
    simp only [laneStore, regBytes_eq c _ t.toNat hsize]

end
end

theorem StoreRow.exec_eq {i : Instr} {sp : Space} {size : Nat} {t x : BitVec 8} {b : BitVec 6} {sc : BitVec 2}
    (h : StoreRow i sp size t x b sc) (s : State) : exec i s = lmStore (encode i) sp size t x b sc s := by
  cases h <;> rfl

theorem StoreRow.isWidth {i : Instr} {sp : Space} {size : Nat} {t x : BitVec 8} {b : BitVec 6} {sc : BitVec 2}
    (h : StoreRow i sp size t x b sc) : IsWidth size := by
  cases h <;> simp [IsWidth]

end Sys2Proof.Machine
end

section
/-! SST, STL and RED, and what every store leaves as it issues. -/

namespace Sys2Proof.Machine

section
variable {s : State} {c : Crew} {p : Split} {w : Word}

/-! ## SST (R165) -/

/-- What the body of an SST does once its registers are in reach, its address is aligned and its fence is over. -/
theorem uniStore_over {size : Nat} {t a : BitVec 6} {imm : BitVec 12} (hroom : p.storeRoom = true)
    (hu : Clear s (reads s c p) p { us := [a.toNat, t.toNat] } false)
    (hal : (uiAddr (reads s c p) a imm).toNat % size = 0) (h : Issues s c p) (hover : FenceOver s c p) :
    ∃ body, uniStore w size t a imm s = issue s body ∧ body (reads s c p) p (begun s c p) =
      .ok (pushStore (gated s c p) (reads s c p) (p.fenced s.nextId) {
        space := .global
        lanes := [⟨0, uiAddr (reads s c p) a imm, leBytes size ((reads s c p).u t.toNat).toNat⟩]
        size := size, red := none, word := w, uniform := true, pc := p.pc, sid := p.sid, seq := 0, anc := p.anc
        hint := (reads s c p).shint, rel := none, bad := [] }) := by
  have hal' : checkAlign p size [(0, uiAddr (reads s c p) a imm)] = .ok () := checkAlign_ok_iff.mpr (by simpa using hal)
  refine ⟨_, by rw [uniStore], ?_⟩
  simp only [checkUses_ok hu, hal', checkPoison_ok (s := begun s c p) hu.clean, await_true hroom, fenceGate_over h hover, ok_bind,
    Split.fenced_pc, Split.fenced_sid, Split.fenced_anc]
  rfl

theorem SstRow.exec_eq {i : Instr} {size : Nat} {t a : BitVec 6} {imm : BitVec 12} (h : SstRow i size t a imm) (s : State) :
    exec i s = uniStore (encode i) size t a imm s := by
  cases h <;> rfl

/-! ## STL (R166, R336) -/

@[simp] theorem State.seen_vPair (s : State) (c : Crew) (sid l n : Nat) : (s.seen c sid).vPair l n = c.vPair l n := by
  simp only [Crew.vPair, State.seen_v]

/-- The addresses of an LA word (R41). -/
theorem laAddrs_reads (a : BitVec 8) : laAddrs (reads s c p) p a = (activeLanes c p).map fun l => (l, c.vPair l a.toNat) := by
  simp only [laAddrs, State.seen_active, State.seen_vPair]

theorem drainedFor_reads : (begun s c p).drainedFor (reads s c p) p = s.drainedFor c p := by
  simp only [State.drainedFor, State.seen_splits]

/-- An LA word with an even address pair and an aligned group of registers passes its decode traps. -/
theorem laDecode_ok {t a : BitVec 8} {g : Nat} (ha : a.toNat % 2 = 0) (hmsb : a.msb = false) (ht : t.toNat % g = 0) :
    laDecode w p t a g = .ok () := by
  simp [laDecode, need, ha, hmsb, ht]

/-- What the body of an STL does once the earlier stores have translated, its operands are in order and its fence is over. -/
theorem execStlW_over {t a : BitVec 8} {sc : Scope} (h : Issues s c p) (hover : FenceOver s c p) (ha : a.toNat % 2 = 0)
    (hmsb : a.msb = false) (hdrained : s.drainedFor c p = true) (hroom : p.storeRoom = true)
    (hu : Clear s (reads s c p) p { rd := [a.toNat, a.toNat + 1, t.toNat] } true)
    (hal : ∀ l ∈ activeLanes c p, (c.vPair l a.toNat).toNat % 4 = 0) :
    ∃ body, execStlW t a sc s = issue s body ∧ body (reads s c p) p (begun s c p) =
      .ok ((pushStore (gated s c p) (reads s c p) (p.fenced s.nextId) {
        space := .global, lanes := (activeLanes c p).map fun l => ⟨l, c.vPair l a.toNat, leBytes 4 (c.v l t.toNat).toNat⟩
        size := 4, red := none, word := encode (.stlW t a sc), uniform := false, pc := p.pc, sid := p.sid, seq := 0, anc := p.anc
        hint := (reads s c p).shint, rel := some sc, bad := [] }).takeMark c.cid p.sid id) := by
  have hal' : checkAlign p 4 ((activeLanes c p).map fun l => (l, c.vPair l a.toNat)) = .ok () :=
    checkAlign_ok_iff.mpr (by simpa using hal)
  refine ⟨_, by rw [execStlW], ?_⟩
  simp only [laDecode_ok ha hmsb (Nat.mod_one _), checkUses_ok hu, laAddrs_reads, hal', checkPoison_ok (s := begun s c p) hu.clean,
    drainedFor_reads, await_true hdrained, await_true hroom, fenceGate_over h hover, ok_bind, Split.fenced_pc, Split.fenced_sid,
    Split.fenced_anc, List.map_map, State.seen_regBytes, State.seen_cid]
  rfl

/-! ## RED (R172) -/

/-- Whether its registers are in reach does not turn on their poison. -/
theorem checkUses_unpoisoned {u : Uses} {r : Crew} {v : List Nat} {marks : Bool} (h : Clear s { r with vpoison := v } p u marks)
    (x y : Nat) : checkUses w u marks (s.countIssue x y) r p = .ok () :=
  checkUses_ok h x y

@[simp] theorem State.seen_vpoison (s : State) (c : Crew) (sid : Nat) : (s.seen c sid).vpoison = c.vpoison := by rw [State.seen_eq]

/-- The active lanes whose operand of a RED is poisoned. -/
def redBad (c : Crew) (p : Split) (t : BitVec 8) (g : Nat) : List Nat :=
  (activeLanes c p).filter fun l => (group t g).any fun n => c.vpoison.contains (32 * (c.wb + n) + l)

theorem mem_redBad {t : BitVec 8} {g l : Nat} :
    l ∈ redBad c p t g ↔ l ∈ activeLanes c p ∧ ∃ n ∈ group t g, 32 * (c.wb + n) + l ∈ c.vpoison := by
  simp [redBad]

/-- The bytes of a lane's operand of a RED. -/
theorem regBytes_red (o : AOp) (l t : Nat) : regBytes c l t (if o.wide then 2 else 1) (4 * if o.wide then 2 else 1) =
    if o.wide then leBytes 8 (c.vPair l t).toNat else leBytes 4 (c.v l t).toNat := by
  cases o.wide
  · exact regBytes_one c l t
  · exact regBytes_two c l t

/-- What the body of a RED does, relaxed or with .REL, once its operands are in order and its fence is over. -/
theorem red_over {o : AOp} {t a : BitVec 8} {sc : Scope} {e : Sem} (h : Issues s c p) (hover : FenceOver s c p)
    (he : e = .relaxed ∨ (e = .rel ∧ s.drainedFor c p = true)) (ha : a.toNat % 2 = 0) (hmsb : a.msb = false)
    {g : Nat} (hg : g = if o.wide then 2 else 1) (ht : t.toNat % g = 0) (hroom : p.storeRoom = true) {v : List Nat}
    (hu : Clear s { reads s c p with vpoison := v } p { rd := [a.toNat, a.toNat + 1] ++ group t g } true)
    (hp : ({ rd := [a.toNat, a.toNat + 1] } : Uses).poison s (reads s c p) p = none)
    (hal : ∀ l ∈ activeLanes c p, (c.vPair l a.toNat).toNat % (4 * g) = 0) :
    ∃ body, red w o t a sc e s = issue s body ∧ body (reads s c p) p (begun s c p) =
      .ok ((pushStore (gated s c p) (reads s c p) (p.fenced s.nextId) {
        space := .global
        lanes := (activeLanes c p).map fun l => ⟨l, c.vPair l a.toNat,
          if o.wide then leBytes 8 (c.vPair l t.toNat).toNat else leBytes 4 (c.v l t.toNat).toNat⟩
        size := 4 * g, red := some o, word := w, uniform := false, pc := p.pc, sid := p.sid, seq := 0, anc := p.anc
        hint := (reads s c p).bothHint, rel := if e = .rel then some sc else none, bad := redBad c p t g }).takeMark c.cid p.sid id) := by
  subst hg
  have hal' : checkAlign p (4 * if o.wide then 2 else 1) ((activeLanes c p).map fun l => (l, c.vPair l a.toNat)) = .ok () :=
    checkAlign_ok_iff.mpr (by simpa using hal)
  have hacq : (!semAcq e) = true := by rcases he with rfl | ⟨rfl, -⟩ <;> rfl
  refine ⟨_, by rw [red], ?_⟩
  simp only [need_true (b := !semAcq e) hacq, laDecode_ok ha hmsb ht, checkUses_unpoisoned hu, laAddrs_reads, hal',
    checkPoison_ok (s := begun s c p) hp, drainedFor_reads, await_true hroom, fenceGate_over h hover, ok_bind, Split.fenced_pc,
    Split.fenced_sid, Split.fenced_anc, List.map_map, Function.comp_def, List.map_id', regBytes_red, State.seen_v, State.seen_vPair,
    State.seen_cid, State.seen_vpoison, State.seen_wb]
  obtain rfl | ⟨rfl, hdrained⟩ := he
  · rfl
  · rw [await_true hdrained]
    rfl

/-- RED takes no semantic with an acquire part (R41, R172). -/
theorem red_acquire {o : AOp} {t a : BitVec 8} {sc : Scope} {e : Sem} (h : Issues s c p) (he : e = .acq ∨ e = .ar) :
    red w o t a sc e s = .next (s.raise c.cid p.sid ⟨.illop, p.pc, 0, w.zeroExtend 64⟩) := by
  have hacq : (!semAcq e) = false := by rcases he with rfl | rfl <;> rfl
  rw [red]
  refine issue_trap h ?_
  simp only [need_false hacq]
  rfl

end

theorem RedRow.exec_eq {i : Instr} {o : AOp} {t a : BitVec 8} {sc : Scope} {e : Sem} (h : RedRow i o t a sc e) (s : State) :
    exec i s = red (encode i) o t a sc e s := by
  cases h <;> rfl

/-- Settles O27: each store comes down to `pushStore` past the fence of its split; an STQ out of its squad is discarded, and an acquiring
RED is none. -/
theorem storeInstructions : Obligations.StoreInstructions := by
  refine ⟨?_, ?_⟩
  · intro s c p i sp size t x b sc hrow h hx ht hu addr hal hscratch hroom hover check
    rw [hrow.exec_eq]
    obtain ⟨body, he, hdue, hpush⟩ := lmStore_over (w := encode i) h hx ht hu hal hscratch hroom hover
    rw [he]
    refine ⟨fun k hsq hk => issue_due h (hdue k hsq hk), fun hk => ?_⟩
    obtain ⟨t', c', hnext, hmoves, hfence, hc', hrest⟩ := issue_store h (hpush hk)
    exact ⟨t', c', _, hnext, hmoves, hfence, laneStore_pushed hrow.isWidth, hc', hrest⟩
  · intro s c p h hover ends
    refine ⟨?_, ?_, ?_, ?_⟩
    · intro i size t a imm hrow hroom hu va hal
      obtain ⟨body, he, hb⟩ := uniStore_over (w := encode i) hroom hu hal h hover
      obtain ⟨t', c', hnext, hmoves, hfence, hc', hrest⟩ := issue_store h hb
      rw [hrow.exec_eq, he]
      exact ⟨t', c', _, hnext, ⟨hfence, hc', hrest⟩, hmoves, rfl, rfl, rfl, rfl, rfl, rfl, rfl, rfl, rfl, rfl, rfl, rfl⟩
    · intro t a sc ha hmsb hdrained hroom hu hal hlanes
      obtain ⟨body, he, hb⟩ := execStlW_over (sc := sc) h hover ha hmsb hdrained hroom hu hal
      obtain ⟨t', c', m, hnext, hends, hmoves, hmark⟩ := issue_markedStore h (by simpa using hlanes) hb
      refine ⟨t', c', _, m, he.trans hnext, hends, hmoves, rfl, rfl, rfl, rfl, rfl, rfl, rfl, rfl, rfl, rfl, hmark⟩
    · intro i o t a sc e hrow hsem g ha hmsb ht hroom clean hu hp hal hlanes
      obtain ⟨body, he, hb⟩ := red_over (w := encode i) h hover hsem ha hmsb rfl ht hroom hu hp hal
      obtain ⟨t', c', m, hnext, hends, hmoves, hmark⟩ := issue_markedStore h (by simpa using hlanes) hb
      rw [hrow.exec_eq, he]
      exact ⟨t', c', _, m, hnext, hends, hmoves, rfl, rfl, fun l => mem_redBad, rfl, rfl, rfl, rfl, rfl, rfl, rfl, rfl, hmark⟩
    · intro i o t a sc e hrow hsem
      rw [hrow.exec_eq]
      exact red_acquire h hsem

end Sys2Proof.Machine
end

section
/-! A launch whose STATUS is lost: the state that refutes the statement of LAUNCH. The launcher's bay holds the line of the record as its last
writer, so that STATUS needs no fabric message (R315). The field's seat record stands in the same line, and the device writes it through the
bay of another core, which takes the line from the launcher's bay. STATUS then needs a token that the port does not have, and where R310 lets
it wait the model drops it. -/

namespace Sys2Proof.Machine

/-- The physical address of the record: the last line of the first page of endpoint 0 (R315). -/
def lostRecordAt : Nat := 0x800000000FF00

/-- The record of a field of one seat, whose BACKING names the line of the record itself (Table 4.1). -/
def lostRecord : List Byte :=
  leBytes 4 1 ++ List.replicate 36 0 ++ leBytes 4 0x400101 ++ List.replicate 20 0 ++ leBytes 4 4 ++ leBytes 4 1 ++ leBytes 4 0 ++
    leBytes 4 1 ++ leBytes 8 0xFF00 ++ List.replicate 8 0 ++ [1, 1] ++ List.replicate 30 0

/-- A usable route to endpoint 0 by port 0, under the key of partition 0, whose bucket at the port is empty (R310, R320, R322). -/
def tokenlessFabric : Fabric :=
  { Fabric.reset with fctl := 0x80000005, keytab0 := [(0, 0xC0000001)], route0 := [(0, 1#128 <<< 81 ||| 1)], portLive := 1 }

/-- The launcher, on core 4, in the second bay of its partition. -/
def lostLauncher : Crew := { newCrew (fetchLaunch 0) 0 0 0 4 0 0 with sregs := [(1, 0xFF00)] }

/-- Its split, at the LAUNCH. -/
def lostSplit : Split := newSplit 0 (BitVec.allOnes 32) 0x1000 (launchMark 0x1000 (BitVec.allOnes 32) 0)

/-- The state in which the LAUNCH issues: the line of the record is dirty in the slice of the launcher's bay. -/
def lostState : State :=
  { State.reset with
    cur := some (0, 0), nextId := 1, crews := [lostLauncher], age := [(0, 0)], contexts := [fetchContext]
    parts := State.reset.parts.set 0 { Partition.reset with en := true, size := 1 }
    mem := ssetList 0 [] lostRecordAt lostRecord
    tlb := [⟨4, 1, 0, 16, 0x8000000000000, true, true⟩, ⟨999, 1, 0, 16, 0x8000000000000, true, true⟩]
    levels := [(65536 * 23 + 1, 1)], l2 := [⟨23, lineOf lostRecordAt, 0, 1, 1, 0, 0⟩], fab := tokenlessFabric }

/-- The bytes of the record as the launcher reads them. -/
def lostBytes : List Byte :=
  (lostState.fenced lostLauncher lostSplit).loadBytes lostLauncher.core lostRecordAt 128
    ((lostState.fenced lostLauncher lostSplit).cleanHit lostLauncher.core (accessWords lostRecordAt 128))

/-- STATUS of that record as memory shows it in the next state of an outcome. -/
def lostStatusIn : Host.Outcome State Fault Refusal → Option Nat
  | .next t => some (t.readNat (lostRecordAt + 0x7C) 4)
  | _ => none

/-! ## The LAUNCH issues and passes its checks -/

theorem lostState_issues : Issues lostState lostLauncher lostSplit :=
  ⟨by decide, by decide, by decide, by decide, by decide⟩

theorem lostState_clear : Clear lostState (reads lostState lostLauncher lostSplit) lostSplit { us := [1] } true :=
  ⟨by decide, by decide, .inl rfl, by decide, by decide, by decide⟩

theorem lostState_translates : translateLanes (begun lostState lostLauncher lostSplit) (reads lostState lostLauncher lostSplit) lostSplit .read
    [(0, (reads lostState lostLauncher lostSplit).u (1 : BitVec 6).toNat)] =
    .ok (begun lostState lostLauncher lostSplit, [(0, lostRecordAt)]) := rfl

theorem lostState_translates_status : translateLanes (begun lostState lostLauncher lostSplit) (reads lostState lostLauncher lostSplit) lostSplit
    .write [(0, (reads lostState lostLauncher lostSplit).u (1 : BitVec 6).toNat + 0x7C)] =
    .ok (begun lostState lostLauncher lostSplit, [(0, lostRecordAt + 0x7C)]) := rfl

theorem lostState_fenceOver : FenceOver lostState lostLauncher lostSplit := by
  have hloads : lostLauncher.loads = [] := rfl
  have hadds : lostState.adds = [] := rfl
  have hfence : lostSplit.fence = none := rfl
  exact ⟨by simp [hloads], by simp [hadds], by simp [hfence]⟩

theorem lostState_reaches : lostState.mayReach (lostState.loadSlice lostLauncher.core lostRecordAt) lostLauncher.core lostLauncher.asid
    lostRecordAt false false = true := by decide +kernel

theorem lostState_statusOk :
    (if (lostState.fenced lostLauncher lostSplit).l1Hit lostLauncher.core (accessWords lostRecordAt 128) = true then
        lostState.fenced lostLauncher lostSplit
      else (lostState.fenced lostLauncher lostSplit).reach (lostState.loadSlice lostLauncher.core lostRecordAt) lostLauncher.core
        lostLauncher.asid lostRecordAt false false 0).statusOk lostLauncher.core lostLauncher.asid (lostRecordAt + 0x7C) = true := by
  decide +kernel

theorem lostState_accepts : checkRecord (begun lostState lostLauncher lostSplit) (reads lostState lostLauncher lostSplit)
    (match lostState.launch? lostLauncher.lid with | some k => k.nest | none => 0) lostBytes (parseRecord lostBytes) = 0 := by
  decide +kernel

/-! ## Its STATUS is not written -/

theorem lostStatusIn_exec : lostStatusIn (exec (.launch 1) lostState) = some 0 := by decide +kernel

/-- Refutes O35: LAUNCH of a field whose seat record stands in the line of its launch record. The launch is created, and STATUS still reads
as 0: the device's write of the seat record has taken the line from the launcher's bay (R315), and the write of STATUS, which a token of the
port would let out later (R310), is dropped. -/
theorem not_launches : ¬ Obligations.Launches := by
  intro h
  obtain ⟨hcreated, -⟩ := h lostState lostLauncher lostSplit 1 0 false fetchContext lostRecordAt (begun lostState lostLauncher lostSplit)
    (begun lostState lostLauncher lostSplit) [(0, lostRecordAt + 0x7C)] lostState_issues rfl lostState_clear (by decide +kernel)
    lostState_translates lostState_translates_status (by decide +kernel) lostState_fenceOver (by decide +kernel) (.inr lostState_reaches)
    lostState_statusOk (by decide +kernel) (by decide +kernel)
  obtain ⟨t, -, -, -, hexec, -, -, -, -, -, -, -, -, -, -, -, -, -, -, -, -, hstatus, -⟩ := hcreated lostState_accepts
  obtain ⟨hone, -⟩ := hstatus (.inl rfl)
  have hread : lostStatusIn (exec (.launch 1) lostState) = some (t.readNat (lostRecordAt + 0x7C) 4) := congrArg lostStatusIn hexec
  rw [lostStatusIn_exec, hone] at hread
  exact absurd hread (by decide)

end Sys2Proof.Machine
end

section
/-! What a write that the device itself performs at the home slices can change, for launches, contexts and the fabric alike (R144, R320). -/

namespace Sys2Proof.Machine

/-- A state that differs from another in memory and its poison, in the caches' tables, in the reservations of the crews and in the holders of
exported lines (Tables 8.1, 8.2). -/
def Written (s t : State) : Prop :=
  t = { s with
    mem := t.mem, mpoison := t.mpoison, owner := t.owner, l1 := t.l1, l2 := t.l2, misses := t.misses, wfill := t.wfill
    mirrors := t.mirrors, crews := t.crews, fab := { s.fab with holders := t.fab.holders } }

theorem Written.refl (s : State) : Written s s := rfl

theorem Written.trans {s t u : State} (h : Written s t) (g : Written t u) : Written s u := by
  unfold Written at *
  rw [g, h]

/-- A list of such changes is one. -/
theorem Written.foldl {α : Type} (f : State → α → State) (hf : ∀ s x, Written s (f s x)) (xs : List α) (s : State) :
    Written s (xs.foldl f s) := by
  induction xs generalizing s with
  | nil => exact .refl s
  | cons x t ih => exact (hf s x).trans (ih _)

theorem State.revoke_written (s : State) (sector : Nat) : Written s (s.revoke sector) := by
  unfold Written
  rw [State.revoke_eq]

theorem State.dropMirrors_written (s : State) (line : Nat) : Written s (s.dropMirrors line) := rfl

theorem State.performWrite_written (s : State) (ps : List (Nat × Byte)) : Written s (s.performWrite ps) := rfl

theorem State.homeWrite_written (s : State) (core : Nat) (ps : List (Nat × Byte)) : Written s (s.homeWrite core ps) :=
  (Written.foldl State.revoke State.revoke_written _ s).trans <|
    (Written.foldl State.dropMirrors State.dropMirrors_written _ _).trans <| (State.performWrite_written _ ps).trans rfl

/-- What every step of a walk keeps, the walk keeps. -/
theorem State.foldl_keeps {α β : Type} (g : State → β) (f : State → α → State) (hf : ∀ s x, g (f s x) = g s) (xs : List α) (s : State) :
    g (xs.foldl f s) = g s := by
  induction xs generalizing s with
  | nil => rfl
  | cons x t ih => rw [List.foldl_cons, ih, hf]

/-- A write at the home slices clears reservations of the crews, and is nothing else to them (R169). -/
theorem State.homeWrite_crews (s : State) (core : Nat) (ps : List (Nat × Byte)) :
    (s.homeWrite core ps).crews = (s.clearResv (wordsOf ps)).crews := by
  have h (xs ys : List Nat) : (ys.foldl (fun s l => s.dropMirrors l) (xs.foldl (fun s c => s.revoke c) s)).crews = s.crews := by
    exact (State.foldl_keeps State.crews State.dropMirrors (fun _ _ => rfl) ys _).trans
      (State.foldl_keeps State.crews State.revoke (fun s x => by rw [State.revoke_eq]) xs s)
  exact congrArg (List.map fun c : Crew => { c with resv := c.resv.filter fun r => !(wordsOf ps).contains r.word }) (h _ _)

/-- The device's own writes can also count what an unusable route has ended (R320). -/
theorem State.deviceWrite_written (s : State) (asid : Nat) (va : DWord) (bs : List Byte) :
    Written { s with svc := (s.deviceWrite asid va bs).svc } (s.deviceWrite asid va bs) := by
  have hw := s.homeWrite_written (s.deviceCore asid) ((s.devicePairs asid va bs).filter fun x => !s.deviceStuck asid x.1 true)
  have hd (t : State) (ps : List (Nat × Byte)) :
      t.dropWrites ps = { t with mpoison := (t.dropWrites ps).mpoison, svc := (t.dropWrites ps).svc } := by
    have hp : ∀ (ws : List Nat) (t : State), ws.foldl (fun s w => s.poison (4 * w) 4) t =
        { t with mpoison := (ws.foldl (fun s w => s.poison (4 * w) 4) t).mpoison } := by
      intro ws
      induction ws with
      | nil => intro t; rfl
      | cons w ws ih => intro t; rw [List.foldl_cons, ih]; rfl
    unfold State.dropWrites
    rw [hp]
    rfl
  unfold Written at *
  unfold State.deviceWrite
  dsimp only
  split
  · rw [hw]
  · rw [hd, hw]

end Sys2Proof.Machine
end

section
/-! What becomes of a crew whose lanes end: a split that sheds lanes, a split that ceases, a crew that retires, and the cells of a field
(R67, R68, R257, R286, R299). -/

namespace Sys2Proof.Machine

/-! ## Masks of lanes -/

theorem getLsbD_laneMask (ls : List Nat) {l : Nat} (hl : l < 32) : (laneMask ls).getLsbD l = true ↔ l ∈ ls := by
  have go (m : BitVec 32) : (ls.foldl (fun m l => m ||| (1#32 <<< l)) m).getLsbD l = true ↔ m.getLsbD l = true ∨ l ∈ ls := by
    induction ls generalizing m with
    | nil => simp
    | cons k ks ih =>
      have hk : (1#32 <<< k).getLsbD l = true ↔ l = k := by
        simp only [BitVec.getLsbD_shiftLeft, BitVec.getLsbD_one]
        grind
      rw [List.foldl_cons, ih, BitVec.getLsbD_or, Bool.or_eq_true, hk, List.mem_cons, or_assoc]
  simpa [laneMask] using go 0

theorem mem_maskLanes {m : BitVec 32} {l : Nat} : l ∈ maskLanes m ↔ l < 32 ∧ m.getLsbD l = true := by
  rw [maskLanes, List.mem_filter, mem_lanes]

theorem mem_activeLanes {c : Crew} {p : Split} {l : Nat} :
    l ∈ activeLanes c p ↔ l < 32 ∧ p.mask.getLsbD l = true ∧ c.ncOf l = 0 := by
  rw [activeLanes, List.mem_filter, mem_maskLanes, beq_iff_eq, and_assoc]

/-! ## Finding after an update -/

/-- An update of a crew by what agrees with it on that crew. -/
theorem State.modCrew_congr (s : State) (cid : Nat) {f g : Crew → Crew} (h : ∀ k, k.cid = cid → f k = g k) :
    s.modCrew cid f = s.modCrew cid g := by
  unfold State.modCrew
  congr 1
  refine List.map_congr_left fun k _ => ?_
  by_cases hk : k.cid = cid
  · rw [h k hk]
  · simp [hk]

theorem Crew.split?_eq_none {c : Crew} {n : Nat} : c.split? n = none ↔ n ∉ c.splits.map (·.sid) := by
  simp only [Crew.split?, List.find?_eq_none, List.mem_map, not_exists, not_and, beq_iff_eq]

/-- A seat found after an update of a seat. -/
theorem State.seat?_modSeat (s : State) (lid k lid' k' : Nat) (f : Seat → Seat) (hf : ∀ t, (f t).lid = t.lid ∧ (f t).index = t.index) :
    (s.modSeat lid k f).seat? lid' k' = (s.seat? lid' k').map fun t => if t.lid == lid && t.index == k then f t else t := by
  have hkey : ((fun t : Seat => t.lid == lid' && t.index == k') ∘ fun t => if t.lid == lid && t.index == k then f t else t) =
      fun t => t.lid == lid' && t.index == k' := by
    funext t
    rw [Function.comp_apply]
    split <;> simp only [hf]
  rw [State.seat?, State.modSeat_seats, List.find?_map, hkey]
  rfl

theorem State.seat?_key {s : State} {lid k : Nat} {x : Seat} (h : s.seat? lid k = some x) : x.lid = lid ∧ x.index = k := by
  simpa using List.find?_some h

/-! ## A split that sheds lanes -/

/-- A split without the lanes of a mask. -/
def Split.shed (m : BitVec 32) (p : Split) : Split := { p with mask := p.mask &&& ~~~m }

/-- A crew of which lanes have exited, that a split sheds (R67). -/
def Crew.shed (sid : Nat) (m : BitVec 32) (c : Crew) : Crew := ({ c with exited := c.exited ||| m }).modSplit sid (Split.shed m)

@[simp] theorem Crew.shed_cid (c : Crew) (sid : Nat) (m : BitVec 32) : (c.shed sid m).cid = c.cid := rfl
@[simp] theorem Crew.shed_lid (c : Crew) (sid : Nat) (m : BitVec 32) : (c.shed sid m).lid = c.lid := rfl
@[simp] theorem Crew.shed_team (c : Crew) (sid : Nat) (m : BitVec 32) : (c.shed sid m).team = c.team := rfl
@[simp] theorem Crew.shed_vregs (c : Crew) (sid : Nat) (m : BitVec 32) : (c.shed sid m).vregs = c.vregs := rfl
@[simp] theorem Crew.shed_sregs (c : Crew) (sid : Nat) (m : BitVec 32) : (c.shed sid m).sregs = c.sregs := rfl
@[simp] theorem Crew.shed_exited (c : Crew) (sid : Nat) (m : BitVec 32) : (c.shed sid m).exited = c.exited ||| m := rfl

theorem Crew.split?_shed (c : Crew) (sid n : Nat) (m : BitVec 32) :
    (c.shed sid m).split? n = (c.split? n).map fun p => if p.sid = sid then p.shed m else p :=
  Crew.split?_modSplit { c with exited := c.exited ||| m } sid n _ fun _ => rfl

/-- A split without lanes ceases (R67). -/
def State.ceaseIfEmpty (s : State) (cid sid : Nat) : State :=
  match s.split? cid sid with
  | some p => if p.mask == 0 then s.cease cid sid else s
  | none => s

/-- The end of a crew of a grid whose lanes have all exited (R67). -/
def State.retireIfDone (s : State) (cid : Nat) : State :=
  match s.crew? cid with
  | some c => if c.exited == BitVec.allOnes 32 && c.splits.isEmpty then s.retireCrew c else s
  | none => s

section
variable {s : State} {c : Crew} {p : Split}

/-- Lanes of a crew of a grid retire: the split ceases when it is left without lanes, then the crew if it is left without splits. -/
theorem State.retireLanes_grid (hc : s.crew? c.cid = some c) (hp : c.split? p.sid = some p) (hg : s.inField c = false)
    (m : BitVec 32) (pc : DWord) :
    s.retireLanes c.cid p.sid m pc =
      (if p.mask &&& ~~~m = 0 then (s.modCrew c.cid (Crew.shed p.sid m)).cease c.cid p.sid
        else s.modCrew c.cid (Crew.shed p.sid m)).retireIfDone c.cid := by
  have hc' : (s.modCrew c.cid (Crew.shed p.sid m)).crew? c.cid = some (c.shed p.sid m) :=
    State.crew?_modCrew_self _ (fun _ => rfl) hc
  have hp' : (s.modCrew c.cid (Crew.shed p.sid m)).split? c.cid p.sid = some (p.shed m) := by
    rw [State.split?, hc']
    simp [Crew.split?_shed, hp]
  have hg' : (s.modCrew c.cid (Crew.shed p.sid m)).inField c = false := hg
  unfold State.retireLanes
  simp only [hc]
  refine (if_neg (show ¬ s.inField c = true by rw [hg]; exact Bool.false_ne_true)).trans ?_
  change ((s.modCrew c.cid (Crew.shed p.sid m)).ceaseIfEmpty c.cid p.sid).retireIfDone c.cid = _
  rw [State.ceaseIfEmpty, hp']
  simp only [Split.shed, beq_iff_eq]

end

/-! ## Merges and splits that cease, for what they leave -/

/-- What the end of a split leaves: memory, the seats, the other crews, and of its own crew the registers and the lanes that have exited. No
split comes up. -/
structure Ceased (s t : State) (cid : Nat) : Prop where
  mem    : t.mem = s.mem
  seats  : t.seats = s.seats
  others : ∀ k, k ≠ cid → t.crew? k = s.crew? k
  crew   : ∀ c, s.crew? cid = some c → ∃ d, t.crew? cid = some d ∧ d.vregs = c.vregs ∧ d.sregs = c.sregs ∧ d.exited = c.exited ∧
    ∀ n, c.split? n = none → d.split? n = none

theorem Ceased.refl (s : State) (cid : Nat) : Ceased s s cid :=
  ⟨rfl, rfl, fun _ _ => rfl, fun c h => ⟨c, h, rfl, rfl, rfl, fun _ h => h⟩⟩

theorem Ceased.trans {s t u : State} {cid : Nat} (h : Ceased s t cid) (g : Ceased t u cid) : Ceased s u cid := by
  refine ⟨g.mem.trans h.mem, g.seats.trans h.seats, fun k hk => (g.others k hk).trans (h.others k hk), fun c hc => ?_⟩
  obtain ⟨d, hd, hv, hs, hx, hn⟩ := h.crew c hc
  obtain ⟨e, he, hv', hs', hx', hn'⟩ := g.crew d hd
  exact ⟨e, he, hv'.trans hv, hs'.trans hs, hx'.trans hx, fun n h => hn' n (hn n h)⟩

theorem Ceased.foldl {α : Type} {cid : Nat} (f : State → α → State) (hf : ∀ s x, Ceased s (f s x) cid) (xs : List α) (s : State) :
    Ceased s (xs.foldl f s) cid := by
  induction xs generalizing s with
  | nil => exact .refl s cid
  | cons x t ih => exact (hf s x).trans (ih _)

/-- A change of a crew that keeps its registers and the lanes that have exited, and brings up no split. -/
structure Crew.Fewer (c d : Crew) : Prop where
  cid    : d.cid = c.cid
  vregs  : d.vregs = c.vregs
  sregs  : d.sregs = c.sregs
  exited : d.exited = c.exited
  splits : d.splits.map (·.sid) ⊆ c.splits.map (·.sid)

theorem Crew.Fewer.of_splits {c d : Crew} (h1 : d.cid = c.cid) (h2 : d.vregs = c.vregs) (h3 : d.sregs = c.sregs)
    (h4 : d.exited = c.exited) (h5 : d.splits = c.splits) : c.Fewer d :=
  ⟨h1, h2, h3, h4, h5 ▸ List.Subset.refl _⟩

theorem Crew.Fewer.trans {c d e : Crew} (h : c.Fewer d) (g : d.Fewer e) : c.Fewer e :=
  ⟨g.cid.trans h.cid, g.vregs.trans h.vregs, g.sregs.trans h.sregs, g.exited.trans h.exited, List.Subset.trans g.splits h.splits⟩

theorem Crew.Fewer.foldl (f : Crew → Nat → Crew) (hf : ∀ (c : Crew) l, c.Fewer (f c l)) (ls : List Nat) (c : Crew) :
    c.Fewer (ls.foldl f c) := by
  induction ls generalizing c with
  | nil => exact .of_splits rfl rfl rfl rfl rfl
  | cons l t ih => exact (hf c l).trans (ih _)

/-- An update of its splits one by one. -/
theorem Crew.Fewer.modSplit (c : Crew) (sid : Nat) (f : Split → Split) (hf : ∀ p, (f p).sid = p.sid) : c.Fewer (c.modSplit sid f) := by
  refine ⟨rfl, rfl, rfl, rfl, ?_⟩
  have h : (c.modSplit sid f).splits.map (·.sid) = c.splits.map (·.sid) := by
    simp only [Crew.modSplit, List.map_map]
    refine List.map_congr_left fun p _ => ?_
    simp only [Function.comp_apply]
    split <;> simp only [hf]
  exact h ▸ List.Subset.refl _

theorem Ceased.modCrew {s : State} {cid : Nat} {f : Crew → Crew} (hf : ∀ c : Crew, c.Fewer (f c)) : Ceased s (s.modCrew cid f) cid := by
  have hid c := (hf c).cid
  refine ⟨rfl, rfl, fun k hk => State.crew?_modCrew_ne f hid hk, fun c hc => ?_⟩
  obtain rfl := State.crew?_cid hc
  exact ⟨f c, State.crew?_modCrew_self f hid hc, (hf c).vregs, (hf c).sregs, (hf c).exited, fun n h =>
    Crew.split?_eq_none.mpr fun hn => Crew.split?_eq_none.mp h ((hf c).splits hn)⟩

/-- A crew that is put in the place of another. -/
theorem Ceased.putCrew {s : State} {cid : Nat} {c d : Crew} (hc : s.crew? cid = some c) (h : c.Fewer d) :
    Ceased s (s.modCrew cid fun _ => d) cid := by
  have hcid : d.cid = cid := h.cid.trans (State.crew?_cid hc)
  rw [State.modCrew_congr s cid (g := fun k => if k.cid = cid then d else k) fun k hk => by rw [if_pos hk]]
  have hid (k : Crew) : (if k.cid = cid then d else k).cid = k.cid := by
    split
    · rw [hcid]; exact Eq.symm ‹_›
    · rfl
  refine ⟨rfl, rfl, fun k hk => State.crew?_modCrew_ne _ hid hk, fun k hk => ?_⟩
  obtain rfl := Option.some.inj (hc.symm.trans hk)
  obtain rfl := State.crew?_cid hc
  refine ⟨d, (State.crew?_modCrew_self _ hid hc).trans (by simp), h.vregs, h.sregs, h.exited, fun n hn =>
    Crew.split?_eq_none.mpr fun hd => Crew.split?_eq_none.mp hn (h.splits hd)⟩

theorem Crew.break_fewer (c : Crew) (stack : List Construct) (ad l d : Nat) : c.Fewer (c.break stack ad l d) := by
  unfold Crew.break
  split <;> exact .of_splits rfl rfl rfl rfl rfl

theorem keptSplit_mem {qs : List Split} {n : Nat} {q : Split} (h : keptSplit qs n = some q) : q ∈ qs := by
  unfold keptSplit at h
  split at h
  · rename_i r hr
    cases h
    exact List.mem_of_find?_eq_some hr
  · have go (xs : List Split) (b : Option Split) (hb : ∀ r, b = some r → r ∈ qs) (hx : xs ⊆ qs) :
        ∀ r, xs.foldl (fun b q => match b with
          | none => some q
          | some r => if q.entry < r.entry then some q else b) b = some r → r ∈ qs := by
      induction xs generalizing b with
      | nil => exact hb
      | cons x t ih =>
        rw [List.foldl_cons]
        refine ih _ ?_ (List.subset_of_cons_subset hx)
        have hxm : x ∈ qs := hx List.mem_cons_self
        intro r hr
        split at hr
        · cases hr; exact hxm
        · split at hr
          · cases hr; exact hxm
          · exact hb _ hr
    exact go qs none (by simp) (List.Subset.refl qs) q h

theorem Ceased.of_crews {s t : State} (cid : Nat) (hm : t.mem = s.mem) (hs : t.seats = s.seats) (hc : t.crews = s.crews) : Ceased s t cid := by
  have hk (k : Nat) : t.crew? k = s.crew? k := by rw [State.crew?, hc]; rfl
  exact ⟨hm, hs, fun k _ => hk k, fun c h => ⟨c, (hk cid).trans h, rfl, rfl, rfl, fun _ h => h⟩⟩

theorem State.unage_ceased (s : State) (cid sid k : Nat) : Ceased s (s.unage cid sid) k := .of_crews k rfl rfl rfl

theorem State.takeMark_ceased (s : State) (cid sid : Nat) (f : MarkRec → MarkRec) : Ceased s (s.takeMark cid sid f) cid :=
  (Ceased.modCrew (f := fun c => c.modSplit sid fun p => if p.recipe then p else { p with mark := f (markNow c p s.nextId) })
    fun c => Crew.Fewer.modSplit c sid _ fun p => by split <;> rfl).trans (.of_crews cid rfl rfl rfl)

/-- The splits of a merge leave one behind. -/
theorem Crew.Fewer.merged (c : Crew) (f : Split → Bool) {q m : Split} (hm : m.sid = q.sid) (js : List JoinRec) :
    c.Fewer { c with splits := (c.splits.filter f).map fun r => if r.sid == q.sid then m else r, joins := js } := by
  refine ⟨rfl, rfl, rfl, rfl, fun n hn => ?_⟩
  simp only [List.mem_map, List.mem_filter] at hn ⊢
  obtain ⟨_, ⟨r, ⟨hr, -⟩, rfl⟩, rfl⟩ := hn
  refine ⟨r, hr, ?_⟩
  split
  · rename_i h; rw [hm]; exact beq_iff_eq.mp h
  · rfl

/-- The members of a merge but the one that stays are renamed, which moves no crew. -/
theorem State.renamed_crews (cid n : Nat) (others : List Split) (s : State) :
    let t := others.foldl (fun s r => (s.renameSplit cid r.sid n).unage cid r.sid) s
    t.crews = s.crews ∧ Ceased s t cid := by
  let f (s : State) (r : Split) : State := (s.renameSplit cid r.sid n).unage cid r.sid
  have hc := State.foldl_keeps State.crews f (fun _ _ => rfl) others s
  exact ⟨hc, .of_crews cid (State.foldl_keeps State.mem f (fun _ _ => rfl) others s)
    (State.foldl_keeps State.seats f (fun _ _ => rfl) others s) hc⟩

theorem State.merge_ceased (s : State) (cid : Nat) (j : JoinRec) : Ceased s (s.merge cid j) cid := by
  unfold State.merge
  split
  · exact .refl s cid
  rename_i c hc
  extract_lets qs
  split
  · exact .refl s cid
  rename_i q hq
  extract_lets others rel stack c1 pc merged c2 s2
  obtain ⟨hcrews, hs2⟩ := State.renamed_crews cid q.sid others s
  have h1 : c.Fewer c1 := Crew.Fewer.foldl (fun c l => (c.setMark l 0).break stack j.parentAd l (c.markOf l - 1)) (fun c l =>
    (Crew.Fewer.of_splits (c := c) (d := c.setMark l 0) rfl rfl rfl rfl rfl).trans (Crew.break_fewer _ stack j.parentAd l (c.markOf l - 1))) _ c
  have h2 : c.Fewer c2 := h1.trans (Crew.Fewer.merged c1 (fun r => others.all fun x => x.sid != r.sid) (q := q) (m := merged) rfl (c1.joins.filter (·.id != j.id)))
  have hc2 : s2.crew? cid = some c := by rw [State.crew?, hcrews]; exact hc
  exact hs2.trans <| (Ceased.putCrew hc2 h2).trans <| (State.unage_ceased _ _ _ _).trans <| State.takeMark_ceased _ _ _ _

theorem State.tryMerge_ceased (s : State) (cid j : Nat) : Ceased s (s.tryMerge cid j) cid := by
  unfold State.tryMerge
  split
  · exact .refl s cid
  split
  · exact .refl s cid
  extract_lets qs
  split
  · exact .modCrew fun c => .of_splits rfl rfl rfl rfl rfl
  split
  · exact s.merge_ceased cid _
  · exact .refl s cid

/-- The crew of which a split is gone. -/
def Crew.without (c : Crew) (sid : Nat) : Crew := { c with splits := c.splits.filter (·.sid != sid) }

theorem Crew.Fewer.without (c : Crew) (sid : Nat) : c.Fewer (c.without sid) :=
  ⟨rfl, rfl, rfl, rfl, List.map_subset _ List.filter_sublist.subset⟩

theorem Crew.split?_without (c : Crew) (sid : Nat) : (c.without sid).split? sid = none := by
  simp [Crew.split?_eq_none, Crew.without]

/-- How a split ceases: its landings are lost, it leaves its crew, and its constructs merge or end. -/
theorem State.cease_eq {s : State} {cid sid : Nat} {p : Split} (hp : s.split? cid sid = some p) :
    s.cease cid sid = p.joinIds.foldl (fun s j => s.tryMerge cid j)
      (((s.loseLandings cid (some sid)).modCrew cid (·.without sid)).unage cid sid) := by
  unfold State.cease
  rw [hp]
  rfl

theorem State.cease_ceased (s : State) (cid sid : Nat) : Ceased s (s.cease cid sid) cid := by
  cases hp : s.split? cid sid with
  | none => unfold State.cease; rw [hp]; exact .refl s cid
  | some p =>
    rw [State.cease_eq hp]
    exact (Ceased.of_crews (s := s) (t := s.loseLandings cid (some sid)) cid rfl rfl rfl).trans <|
      (Ceased.modCrew fun c => Crew.Fewer.without c sid).trans <|
      (State.unage_ceased _ cid sid cid).trans <| Ceased.foldl (·.tryMerge cid ·) (fun s j => s.tryMerge_ceased cid j) p.joinIds _

/-- The split is gone for good. -/
theorem State.cease_gone {s : State} {cid sid : Nat} {c : Crew} {p : Split} (hc : s.crew? cid = some c) (hp : c.split? sid = some p) :
    ∃ d, (s.cease cid sid).crew? cid = some d ∧ d.vregs = c.vregs ∧ d.sregs = c.sregs ∧ d.exited = c.exited ∧ d.split? sid = none := by
  have hp' : s.split? cid sid = some p := by rw [State.split?, hc]; exact hp
  obtain rfl := State.crew?_cid hc
  have hw : ((((s.loseLandings c.cid (some sid)).modCrew c.cid (·.without sid)).unage c.cid sid)).crew? c.cid = some (c.without sid) :=
    State.crew?_modCrew_self (s := s.loseLandings c.cid (some sid)) (·.without sid) (fun _ => rfl) hc
  rw [State.cease_eq hp']
  obtain ⟨d, hd, hv, hs, hx, hn⟩ := (Ceased.foldl _ (fun s j => State.tryMerge_ceased s c.cid j) p.joinIds _).crew _ hw
  exact ⟨d, hd, hv, hs, hx, hn sid (c.split?_without sid)⟩

/-! ## The end of a crew of a grid -/

/-- A crew without splits has only join records to give up. -/
theorem State.tryMerge_of_empty {s : State} {cid : Nat} {c : Crew} (hc : s.crew? cid = some c) (he : c.splits = []) (j : Nat) :
    ∃ d, (s.tryMerge cid j).crew? cid = some { c with joins := d } ∧ (∀ k, k ≠ cid → (s.tryMerge cid j).crew? k = s.crew? k) ∧
      s.tryMerge cid j = { s with crews := (s.tryMerge cid j).crews } := by
  unfold State.tryMerge
  simp only [hc]
  cases c.joins.find? (·.id == j) with
  | none => exact ⟨c.joins, hc, fun _ _ => rfl, rfl⟩
  | some r =>
    obtain rfl := State.crew?_cid hc
    have hq : (c.splits.filter (·.holds j)).isEmpty = true := by rw [he]; rfl
    simp only [hq, if_true]
    exact ⟨_, State.crew?_modCrew_self (fun c => { c with joins := c.joins.filter (·.id != j) }) (fun _ => rfl) hc,
      fun k hk => State.crew?_modCrew_ne _ (fun _ => rfl) hk, rfl⟩

theorem State.foldl_tryMerge_of_empty {s : State} {cid : Nat} {c : Crew} (hc : s.crew? cid = some c) (he : c.splits = []) (js : List Nat) :
    let t := js.foldl (fun s j => s.tryMerge cid j) s
    ∃ d, t.crew? cid = some { c with joins := d } ∧ (∀ k, k ≠ cid → t.crew? k = s.crew? k) ∧ t = { s with crews := t.crews } := by
  induction js generalizing s c with
  | nil => exact ⟨c.joins, hc, fun _ _ => rfl, rfl⟩
  | cons j js ih =>
    obtain ⟨d, hd, hk, hr⟩ := State.tryMerge_of_empty hc he j
    obtain ⟨e, he', hk', hr'⟩ := ih hd he
    refine ⟨e, he', fun k h => (hk' k h).trans (hk k h), ?_⟩
    rw [List.foldl_cons, hr', hr]

/-- The only split of a crew ceases: the crew is left without splits. -/
theorem State.cease_last {s : State} {cid sid : Nat} {c : Crew} {p : Split} (hc : s.crew? cid = some c) (hone : c.splits = [p])
    (hsid : p.sid = sid) :
    ∃ js, (s.cease cid sid).crew? cid = some { c with splits := [], joins := js } ∧
      (∀ k, k ≠ cid → (s.cease cid sid).crew? k = s.crew? k) ∧
      s.cease cid sid = { s with
        crews := (s.cease cid sid).crews, age := (s.cease cid sid).age, woke := (s.cease cid sid).woke
        landings := (s.cease cid sid).landings } := by
  obtain rfl := State.crew?_cid hc
  have hp : s.split? c.cid sid = some p := by
    rw [State.split?, hc]
    simp [Crew.split?, hone, hsid]
  have he : (c.without sid).splits = [] := by simp [Crew.without, hone, hsid]
  have hw := State.crew?_modCrew_self (s := s.loseLandings c.cid (some sid)) (·.without sid) (fun _ => rfl) hc
  rw [State.cease_eq hp]
  obtain ⟨js, hjs, hk, hr⟩ := State.foldl_tryMerge_of_empty (cid := c.cid)
    (s := (((s.loseLandings c.cid (some sid)).modCrew c.cid (·.without sid)).unage c.cid sid)) hw he p.joinIds
  refine ⟨js, ?_, fun k hne => ?_, ?_⟩
  · rw [hjs, ← he]
    rfl
  · rw [hk k hne]
    exact State.crew?_modCrew_ne (·.without sid) (fun _ => rfl) hne
  · rw [hr]
    rfl

/-- The crew `c` of `s` has retired as its instruction has been issued, and nothing else has come of it (R68). -/
structure CrewEnds (s t : State) (c : Crew) : Prop where
  gone   : t.crew? c.cid = none
  others : ∀ k, k ≠ c.cid → t.crew? k = (s.crew? k).map Crew.untried
  teams  : t.teams = s.teams.map (fun x => if x.lid = c.lid ∧ x.tid = c.team then { x with crewsLeft := x.crewsLeft - 1 } else x)
  rest   : t = { s with crews := t.crews, age := t.age, woke := t.woke, entered := t.entered, teams := t.teams, faultq := t.faultq, landings := t.landings }

/-- A crew retires from a state in which only crews and landings have changed since its instruction began. -/
theorem State.retireCrew_ends {s u : State} {c d : Crew} (hcid : d.cid = c.cid) (hlid : d.lid = c.lid) (hteam : d.team = c.team)
    (others : ∀ k, k ≠ c.cid → u.crew? k = s.crew? k)
    (rest : u = { s with crews := u.crews, age := u.age, woke := u.woke, landings := u.landings }) (sid : Nat) :
    CrewEnds s ((u.retireCrew d).afterIssue c.cid sid) c := by
  have hcrews : (u.retireCrew d).crews = u.crews.filter (·.cid != c.cid) := by rw [← hcid]; rfl
  have hteams : (u.retireCrew d).teams =
      s.teams.map (fun x => if x.lid = c.lid ∧ x.tid = c.team then { x with crewsLeft := x.crewsLeft - 1 } else x) := by
    rw [← hlid, ← hteam]
    unfold State.retireCrew
    simp only [State.modTeam_teams, State.loseLandings_teams, Bool.and_eq_true, beq_iff_eq]
    rw [rest]
  refine ⟨?_, fun k hk => ?_, ?_, ?_⟩
  · rw [State.crew?_afterIssue, State.crew?, hcrews]
    simp
  · rw [State.crew?_afterIssue, ← others k hk, State.crew?, State.crew?, hcrews, List.find?_filter]
    congr 2
    funext x
    by_cases h : x.cid = k
    · simp [h, hk]
    · simp [h]
  · rw [State.afterIssue_eq]
    exact hteams
  · rw [State.afterIssue_eq, State.retry_eq]
    unfold State.retireCrew State.loseLandings State.modTeam
    rw [rest]

/-! ## Cells that exit -/

/-- No cell that has exited comes back, and no seat goes away. -/
def ExitsStay (s t : State) : Prop :=
  ∀ lid k x, s.seat? lid k = some x → ∃ y, t.seat? lid k = some y ∧ ∀ i, x.exited.getLsbD i = true → y.exited.getLsbD i = true

theorem ExitsStay.of_seats {s t : State} (h : t.seats = s.seats) : ExitsStay s t := by
  intro lid k x hx
  exact ⟨x, by rw [State.seat?, h]; exact hx, fun _ h => h⟩

theorem ExitsStay.trans {s t u : State} (h : ExitsStay s t) (g : ExitsStay t u) : ExitsStay s u := by
  intro lid k x hx
  obtain ⟨y, hy, hxy⟩ := h lid k x hx
  obtain ⟨z, hz, hyz⟩ := g lid k y hy
  exact ⟨z, hz, fun i hi => hyz i (hxy i hi)⟩

theorem ExitsStay.foldl {α : Type} (f : State → α → State) (hf : ∀ s x, ExitsStay s (f s x)) (xs : List α) (s : State) :
    ExitsStay s (xs.foldl f s) := by
  induction xs generalizing s with
  | nil => exact .of_seats rfl
  | cons x t ih => exact (hf s x).trans (ih _)

theorem ExitsStay.modSeat (s : State) (lid k : Nat) (f : Seat → Seat) (hf : ∀ t, (f t).lid = t.lid ∧ (f t).index = t.index)
    (hx : ∀ t i, t.exited.getLsbD i = true → (f t).exited.getLsbD i = true) : ExitsStay s (s.modSeat lid k f) := by
  intro lid' k' x h
  refine ⟨_, by rw [State.seat?_modSeat s lid k lid' k' f hf, h]; rfl, fun i hi => ?_⟩
  dsimp only
  split
  · exact hx x i hi
  · exact hi

theorem State.devicePoisonAll_seats (s : State) (asid : Nat) (vas : List DWord) : (s.devicePoisonAll asid vas).seats = s.seats :=
  State.foldl_keeps State.seats _ (fun s va => by split <;> rfl) vas s

theorem State.writeSeat_seats (s : State) (l : Launch) (k : Nat) : (s.writeSeat l k).seats = s.seats := by
  unfold State.writeSeat
  split
  · rw [State.devicePoisonAll_seats, State.deviceWrite_written]
  · rfl

theorem State.coxEvent_seats (s : State) (c : Crew) : (s.coxEvent c).seats = s.seats := by
  unfold State.coxEvent
  split <;> rfl

theorem State.freeHostTiles_seats (s : State) (core lid team : Nat) : (s.freeHostTiles core lid team).seats = s.seats := by
  unfold State.freeHostTiles
  extract_lets field
  split <;> rfl

theorem State.dropSeat_seats (s : State) (c : Crew) (k : Nat) : (s.dropSeat c k).seats = s.seats := by
  unfold State.dropSeat
  extract_lets m t
  have ht : t.seats = s.seats := rfl
  split
  · rename_i d _
    split
    · split
      · rw [State.freeHostTiles_seats]
        exact (State.coxEvent_seats _ d).trans ht
      · exact ht
    · exact ht
  · exact ht

theorem State.drainField_seats (s : State) (lid : Nat) : (s.drainField lid).seats = s.seats := by
  unfold State.drainField
  split
  · split <;> rfl
  · rfl

/-- A seat whose last cell exits at `pc` leaves its host. -/
def Seat.leave (pc : DWord) (flags : BitVec 5) (t : Seat) : Seat :=
  { t with done := false, rpc := pc, ad := 0, cb := 0, flags := flags, resident := false }

/-- A seat that leaves its host keeps the exits of its cells. -/
theorem State.seatExit_stays (s : State) (l : Launch) (cid k : Nat) (pc : DWord) : ExitsStay s (s.seatExit l cid k pc) := by
  unfold State.seatExit
  split
  · exact .of_seats rfl
  · rename_i c _
    exact (ExitsStay.modSeat s l.lid (8 * c.team + k) (Seat.leave pc c.fpflags) (fun _ => ⟨rfl, rfl⟩) (fun _ _ h => h)).trans
      (.of_seats ((State.dropSeat_seats _ _ _).trans (State.writeSeat_seats _ _ _)))

/-- The cell of a lane has exited, with its NC. -/
def Seat.exit (c : Crew) (n : Nat) (t : Seat) : Seat :=
  { t with exited := t.exited ||| (1#4 <<< (n % 4)), nc := sset 0 t.nc (n % 4) (sget 0 c.nc n) }

/-- The cell of a lane exits. -/
def State.exitCell (s : State) (c : Crew) (n : Nat) : State := s.modSeat c.lid (8 * c.team + n / 4) (Seat.exit c n)

theorem State.exitCell_stays (s : State) (c : Crew) (n : Nat) : ExitsStay s (s.exitCell c n) :=
  ExitsStay.modSeat s _ _ _ (fun _ => ⟨rfl, rfl⟩) fun t i h => by rw [Seat.exit, BitVec.getLsbD_or, h, Bool.true_or]

/-- The cell of a lane of a crew has exited, where it has a seat. -/
def CellExits (s t : State) (c : Crew) (l : Nat) : Prop :=
  ∀ x, s.seat? c.lid (8 * c.team + l / 4) = some x →
    ∃ y, t.seat? c.lid (8 * c.team + l / 4) = some y ∧ y.exited.getLsbD (l % 4) = true

theorem CellExits.stays {s t u : State} {c : Crew} {l : Nat} (h : CellExits s t c l) (g : ExitsStay t u) : CellExits s u c l := by
  intro x hx
  obtain ⟨y, hy, he⟩ := h x hx
  obtain ⟨z, hz, hyz⟩ := g _ _ y hy
  exact ⟨z, hz, hyz _ he⟩

theorem State.exitCell_exits (s : State) (c : Crew) (n : Nat) : CellExits s (s.exitCell c n) c n := by
  intro x hx
  have hk := State.seat?_key hx
  refine ⟨Seat.exit c n x, ?_, ?_⟩
  · rw [State.exitCell, State.seat?_modSeat s _ _ _ _ (Seat.exit c n) (fun _ => ⟨rfl, rfl⟩), hx]
    simp [hk]
  simp only [Seat.exit, BitVec.getLsbD_or, BitVec.getLsbD_shiftLeft, BitVec.getLsbD_one]
  simp [Nat.mod_lt n (show 0 < 4 by decide)]

theorem State.foldl_exitCell (c : Crew) (ls : List Nat) (s : State) {l : Nat} (hl : l ∈ ls) : CellExits s (ls.foldl (·.exitCell c ·) s) c l := by
  induction ls generalizing s with
  | nil => cases hl
  | cons n ns ih =>
    rw [List.foldl_cons]
    rcases List.mem_cons.mp hl with rfl | hl
    · exact (s.exitCell_exits c l).stays (ExitsStay.foldl _ (fun s n => s.exitCell_stays c n) ns _)
    · intro x hx
      obtain ⟨y, hy, -⟩ := s.exitCell_stays c n _ _ x hx
      exact ih _ hl y hy

/-- The cells of the lanes of a mask exit (R286). -/
theorem State.exitCells_exits {s : State} {c : Crew} (hf : s.inField c = true) {m : BitVec 32} {l : Nat} (hl : l ∈ maskLanes m) (pc : DWord) :
    CellExits s (s.exitCells c m pc) c l := by
  unfold State.exitCells
  unfold State.inField at hf
  cases hl' : s.launch? c.lid with
  | none => rw [hl'] at hf; cases hf
  | some x =>
    rw [hl'] at hf
    have hf : x.isField = true := hf
    simp only [hf, Bool.not_true, Bool.false_eq_true, if_false]
    refine (State.foldl_exitCell c _ s hl).stays ?_
    exact (ExitsStay.foldl _ (fun s k => s.seatExit_stays x c.cid k pc) _ _).trans
      (.of_seats ((State.drainField_seats _ _).trans (State.coxEvent_seats _ _)))

/-- Lanes of a host retire: their cells exit, whatever becomes of the split (R67, R286). -/
theorem State.retireLanes_field {s : State} {c : Crew} (hc : s.crew? c.cid = some c) (hf : s.inField c = true) {m : BitVec 32} {l : Nat}
    (hl : l ∈ maskLanes m) (sid : Nat) (pc : DWord) : CellExits s (s.retireLanes c.cid sid m pc) c l := by
  unfold State.retireLanes
  simp only [hc]
  split
  · have h := State.exitCells_exits (s := s.modCrew c.cid (Crew.shed sid m)) hf hl pc
    refine CellExits.stays (t := (s.modCrew c.cid (Crew.shed sid m)).exitCells c m pc) h ?_
    split
    · split
      · exact .of_seats (State.cease_ceased _ _ _).seats
      · exact .of_seats rfl
    · exact .of_seats rfl
  · exact absurd hf ‹_›

end Sys2Proof.Machine
end

section
/-! EXIT and TERM (R67, R68, R257). -/

namespace Sys2Proof.Machine

@[simp] theorem State.afterIssue_mem (s : State) (cid sid : Nat) : (s.afterIssue cid sid).mem = s.mem := by
  rw [State.afterIssue_eq]
  rfl

@[simp] theorem State.seat?_afterIssue (s : State) (cid sid lid k : Nat) : (s.afterIssue cid sid).seat? lid k = s.seat? lid k := by
  rw [State.afterIssue_eq]
  rfl

section
variable {s : State} {c : Crew} {p : Split}

/-- A split that goes to `pc`. -/
def Split.goTo (pc : DWord) (q : Split) : Split := { q with pc := pc }

/-- The crew of an EXIT, whose split stands at the next word. -/
def Crew.exiting (p : Split) (c : Crew) : Crew := (c.counted p.sid).modSplit p.sid (Split.goTo (p.pc + 4))

@[simp] theorem Crew.exiting_cid (c : Crew) (p : Split) : (c.exiting p).cid = c.cid := rfl
@[simp] theorem Crew.exiting_lid (c : Crew) (p : Split) : (c.exiting p).lid = c.lid := rfl
@[simp] theorem Crew.exiting_team (c : Crew) (p : Split) : (c.exiting p).team = c.team := rfl
@[simp] theorem Crew.exiting_vregs (c : Crew) (p : Split) : (c.exiting p).vregs = c.vregs := rfl
@[simp] theorem Crew.exiting_sregs (c : Crew) (p : Split) : (c.exiting p).sregs = c.sregs := rfl
@[simp] theorem Crew.exiting_exited (c : Crew) (p : Split) : (c.exiting p).exited = c.exited := rfl

/-- Its split. -/
def Split.exiting (p : Split) : Split := { p with waits := none, muted := false, fb := fbCounted p.fb, pc := p.pc + 4 }

/-- The lanes that an EXIT retires. -/
def exitMask (c : Crew) (p : Split) : BitVec 32 := laneMask (activeLanes c p)

/-- The state in which an EXIT retires them. -/
def State.exiting (s : State) (c : Crew) (p : Split) : State := (begun s c p).setPc c.cid p.sid (p.pc + 4)

theorem exec_exit_eq (h : Issues s c p) (hd : p.drained = true) :
    exec .exit s = .next (((s.exiting c p).retireLanes c.cid p.sid (exitMask c p) p.pc).afterIssue c.cid p.sid) := by
  rw [exec_exit]
  refine issue_ok h ?_
  simp only [await_true hd, State.advance_eq, State.seen_cid, State.seen_active]
  rfl

theorem exiting_eq (s : State) (c : Crew) (p : Split) :
    s.exiting c p = s.modCrew c.cid (Crew.exiting p) :=
  State.modCrew_modCrew s c.cid (·.counted p.sid) (·.modSplit p.sid (Split.goTo (p.pc + 4))) fun _ => rfl

theorem exiting_crew (h : Issues s c p) : (s.exiting c p).crew? c.cid = some (c.exiting p) := by
  rw [exiting_eq]
  exact State.crew?_modCrew_self (Crew.exiting p) (fun _ => rfl) h.crew

theorem exiting_others (s : State) (c : Crew) (p : Split) {k : Nat} (hk : k ≠ c.cid) : (s.exiting c p).crew? k = s.crew? k := by
  rw [exiting_eq]
  exact State.crew?_modCrew_ne (Crew.exiting p) (fun _ => rfl) hk

theorem exiting_split (h : Issues s c p) : (c.exiting p).split? p.sid = some p.exiting := by
  rw [Crew.exiting, Crew.split?_modSplit _ _ _ (Split.goTo (p.pc + 4)) fun _ => rfl, Crew.counted_split?, h.split]
  simp [Split.exiting, Split.goTo]

/-- The lanes that an EXIT leaves to its split. -/
theorem getLsbD_left {l : Nat} (hl : l < 32) :
    (p.mask &&& ~~~ exitMask c p).getLsbD l = true ↔ p.mask.getLsbD l = true ∧ c.ncOf l ≠ 0 := by
  rw [BitVec.getLsbD_and, BitVec.getLsbD_not, Bool.and_eq_true, Bool.and_eq_true, Bool.not_eq_true', Bool.eq_false_iff, ne_eq, exitMask,
    getLsbD_laneMask _ hl, mem_activeLanes]
  simp only [hl, decide_true, true_and]
  grind

theorem left_eq_zero : p.mask &&& ~~~ exitMask c p = 0 ↔ ∀ l, l < 32 → p.mask.getLsbD l = true → c.ncOf l = 0 := by
  constructor
  · intro h l hl hm
    by_contra hn
    have := (getLsbD_left hl).mpr ⟨hm, hn⟩
    simp [h] at this
  · intro h
    refine BitVec.eq_of_getLsbD_eq fun l hl => ?_
    rw [Bool.eq_iff_iff, getLsbD_left hl]
    simp only [BitVec.ofNat_eq_ofNat, BitVec.getLsbD_zero, Bool.false_eq_true, iff_false, not_and, not_not]
    exact h l hl

theorem getLsbD_exited {l : Nat} (hl : l < 32) :
    (c.exited ||| exitMask c p).getLsbD l = true ↔ c.exited.getLsbD l = true ∨ l ∈ activeLanes c p := by
  rw [BitVec.getLsbD_or, Bool.or_eq_true, exitMask, getLsbD_laneMask _ hl]

theorem exited_eq_allOnes :
    c.exited ||| exitMask c p = BitVec.allOnes 32 ↔ ∀ l, l < 32 → l ∈ activeLanes c p ∨ c.exited.getLsbD l = true := by
  constructor
  · intro h l hl
    refine (getLsbD_exited hl).mp ?_ |>.symm
    rw [h, BitVec.getLsbD_allOnes, decide_eq_true hl]
  · intro h
    refine BitVec.eq_of_getLsbD_eq fun l hl => ?_
    rw [(getLsbD_exited hl).mpr (h l hl).symm, BitVec.getLsbD_allOnes, decide_eq_true hl]

/-- An EXIT of a crew of a grid. -/
theorem exit_grid (h : Issues s c p) (hd : p.drained = true) (hg : s.inField c = false) :
    let u := (s.exiting c p).modCrew c.cid (Crew.shed p.sid (exitMask c p))
    u.crew? c.cid = some ((c.exiting p).shed p.sid (exitMask c p)) ∧ (∀ k, k ≠ c.cid → u.crew? k = s.crew? k) ∧
    exec .exit s = .next (((if p.mask &&& ~~~ exitMask c p = 0 then u.cease c.cid p.sid else u).retireIfDone c.cid).afterIssue
      c.cid p.sid) := by
  refine ⟨State.crew?_modCrew_self (c := c.exiting p) (Crew.shed p.sid (exitMask c p)) (fun _ => rfl) (exiting_crew h), fun k hk => ?_, ?_⟩
  · exact (State.crew?_modCrew_ne (Crew.shed p.sid (exitMask c p)) (fun _ => rfl) hk).trans (exiting_others s c p hk)
  · rw [exec_exit_eq h hd]
    congr 2
    exact State.retireLanes_grid (c := c.exiting p) (p := p.exiting) (exiting_crew h) (exiting_split h) hg _ _

/-- What an EXIT makes of its crew, besides counting the issue. -/
def Crew.exitBy (p : Split) (m : BitVec 32) (k : Crew) : Crew := (k.modSplit p.sid (Split.goTo (p.pc + 4))).shed p.sid m

/-- What an EXIT makes of its split, besides counting the issue. -/
def Split.exitBy (pc : DWord) (m : BitVec 32) (q : Split) : Split := { q with pc := pc + 4, mask := q.mask &&& ~~~m }

theorem exiting_shed (s : State) (c : Crew) (p : Split) (m : BitVec 32) :
    (s.exiting c p).modCrew c.cid (Crew.shed p.sid m) = (begun s c p).modCrew c.cid (Crew.exitBy p m) :=
  State.modCrew_modCrew _ _ (·.modSplit p.sid (Split.goTo (p.pc + 4))) (Crew.shed p.sid m) fun _ => rfl

theorem Crew.exitBy_splits (k : Crew) (p : Split) (m : BitVec 32) :
    (k.exitBy p m).splits = (k.modSplit p.sid (Split.exitBy p.pc m)).splits :=
  have h := congrArg Crew.splits (Crew.modSplit_modSplit k p.sid (Split.goTo (p.pc + 4)) (Split.shed m) fun _ => rfl)
  h

theorem Crew.exitBy_eq (k : Crew) (p : Split) (m : BitVec 32) :
    k.exitBy p m = { k with exited := k.exited ||| m, splits := (k.exitBy p m).splits } := rfl

theorem Crew.exitBy_counted (c : Crew) (p : Split) (m : BitVec 32) :
    ((c.counted p.sid).exitBy p m).untried = { c with
      exited := c.exited ||| m, splits := ((c.counted p.sid).exitBy p m).untried.splits, raised := 0, host := hostIssued c.host
      loads := agedLoads c p } := by
  have h := Crew.exitBy_eq (c.counted p.sid) p m
  generalize (c.counted p.sid).exitBy p m = d at h ⊢
  rw [Crew.untried, h]
  rfl

/-- A split that keeps lanes goes on. -/
theorem exit_goesOn (h : Issues s c p) (hd : p.drained = true) (hg : s.inField c = false)
    (hall : ¬ ∀ l, l < 32 → p.mask.getLsbD l = true → c.ncOf l = 0) :
    ∃ (t : State) (c' : Crew) (q : Split), exec .exit s = .next t ∧ Goes s t c c' p q ∧
      q = { p.issued (p.pc + 4) with mask := p.mask &&& ~~~ exitMask c p } ∧
      c' = { c with exited := c.exited ||| exitMask c p, splits := c'.splits, raised := c'.raised, host := c'.host, loads := agedLoads c p } := by
  obtain ⟨hcrew, -, he⟩ := exit_grid h hd hg
  have hlive : ((c.exiting p).shed p.sid (exitMask c p)).splits.isEmpty = false := by
    have := Crew.split?_shed (c.exiting p) p.sid p.sid (exitMask c p)
    rw [exiting_split h] at this
    rw [List.isEmpty_eq_false_iff]
    intro hn
    simp [Crew.split?, hn] at this
  rw [if_neg (mt left_eq_zero.mp hall), State.retireIfDone, hcrew] at he
  simp only [hlive, Bool.and_false, Bool.false_eq_true, if_false] at he
  rw [exiting_shed] at he
  obtain ⟨hothers, hc', hrest⟩ := crew_change h (Crew.exitBy p (exitMask c p)) fun _ => rfl
  have hsplits := splitsGo_of h (f := Split.exitBy p.pc (exitMask c p)) (fun _ => rfl) (Crew.exitBy_splits (c.counted p.sid) p (exitMask c p))
  exact ⟨_, _, _, he, ⟨⟨hothers, hc', hsplits, rfl⟩, hrest⟩, rfl, Crew.exitBy_counted c p _⟩

/-- A split without lanes ceases, and its crew goes on with lanes that have not exited. -/
theorem exit_ceases (h : Issues s c p) (hd : p.drained = true) (hg : s.inField c = false)
    (hall : ∀ l, l < 32 → p.mask.getLsbD l = true → c.ncOf l = 0)
    (hlast : ¬ ∀ l, l < 32 → l ∈ activeLanes c p ∨ c.exited.getLsbD l = true) :
    ∃ (t : State) (c' : Crew), exec .exit s = .next t ∧ t.crew? c.cid = some c' ∧ c'.split? p.sid = none ∧
      c'.exited = c.exited ||| exitMask c p ∧ c'.vregs = c.vregs ∧ c'.sregs = c.sregs ∧ t.mem = s.mem ∧
      ∀ k, k ≠ c.cid → t.crew? k = (s.crew? k).map Crew.untried := by
  obtain ⟨hcrew, hothers, he⟩ := exit_grid h hd hg
  have hsplit : ((c.exiting p).shed p.sid (exitMask c p)).split? p.sid = some (p.exiting.shed (exitMask c p)) := by
    rw [Crew.split?_shed, exiting_split h]
    exact congrArg some (if_pos rfl)
  obtain ⟨d, hd', hv, hs, hx, hgone⟩ := State.cease_gone hcrew hsplit
  rw [Crew.shed_exited, Crew.exiting_exited] at hx
  rw [Crew.shed_vregs, Crew.exiting_vregs] at hv
  rw [Crew.shed_sregs, Crew.exiting_sregs] at hs
  have hkeep := State.cease_ceased ((s.exiting c p).modCrew c.cid (Crew.shed p.sid (exitMask c p))) c.cid p.sid
  rw [if_pos (left_eq_zero.mpr hall), State.retireIfDone, hd'] at he
  have hmore : (d.exited == BitVec.allOnes 32 && d.splits.isEmpty) = false := by
    rw [hx, beq_false_of_ne (mt exited_eq_allOnes.mp hlast), Bool.false_and]
  simp only [hmore, Bool.false_eq_true, if_false] at he
  refine ⟨_, d.untried, he, ?_, ?_, hx, hv, hs, ?_, fun k hk => ?_⟩
  · rw [State.crew?_afterIssue, hd']
    rfl
  · rw [Crew.split?_untried, hgone]
    rfl
  · rw [State.afterIssue_mem]
    exact hkeep.mem
  · rw [State.crew?_afterIssue, hkeep.others k hk, hothers k hk]

/-- The last lane of a crew of one split retires the crew. -/
theorem exit_ends (h : Issues s c p) (hd : p.drained = true) (hg : s.inField c = false)
    (hall : ∀ l, l < 32 → p.mask.getLsbD l = true → c.ncOf l = 0)
    (hlast : ∀ l, l < 32 → l ∈ activeLanes c p ∨ c.exited.getLsbD l = true) (hone : c.splits = [p]) :
    ∃ t, exec .exit s = .next t ∧ CrewEnds s t c := by
  obtain ⟨hcrew, hothers, he⟩ := exit_grid h hd hg
  have hone' : ((c.exiting p).shed p.sid (exitMask c p)).splits = [p.exiting.shed (exitMask c p)] := by
    simp [Crew.shed, Crew.exiting, Crew.counted, Crew.modSplit, hone, Split.exiting, Split.shed, Split.goTo]
  obtain ⟨js, hjs, hk, hr⟩ := State.cease_last hcrew hone' (sid := p.sid) rfl
  have hdone : (((c.exiting p).shed p.sid (exitMask c p)).exited == BitVec.allOnes 32 && ([] : List Split).isEmpty) = true :=
    by rw [Crew.shed_exited, Crew.exiting_exited, exited_eq_allOnes.mpr hlast]; rfl
  rw [if_pos (left_eq_zero.mpr hall), State.retireIfDone, hjs] at he
  simp only [hdone, if_true] at he
  refine ⟨_, he, State.retireCrew_ends (by simp) (by simp) (by simp) (fun k hne => (hk k hne).trans (hothers k hne)) ?_ p.sid⟩
  rw [hr]
  rfl

end

/-- TERM retires the crew of a grid, and makes every cell of a host exit that had not. -/
theorem exec_term_eq {s : State} {c : Crew} {p : Split} (h : Issues s c p) :
    exec .term s = .next ((if s.inField c then (begun s c p).exitCells (c.counted p.sid) (~~~(c.absent ||| c.exited)) p.pc
      else (begun s c p).retireCrew (c.counted p.sid)).afterIssue c.cid p.sid) := by
  have hc : (begun s c p).crew? c.cid = some (c.counted p.sid) := State.crew?_modCrew_self (·.counted p.sid) (fun _ => rfl) h.crew
  rw [exec_term]
  refine issue_ok h (congrArg Except.ok ?_)
  rw [State.seen_cid, State.termAt, hc]
  rfl

/-- Settles O23: EXIT comes down to a split that sheds its active lanes, TERM to the end of the crew; in a field both come down to cells that
exit. -/
theorem exitAndTerm : Obligations.ExitAndTerm := by
  refine ⟨fun s c p h hd => ⟨fun hg hall => ?_, fun hg hall hlast => ?_, fun hg hall hlast hone => ?_, fun hf => ?_⟩, fun s c p h => ⟨fun hg => ?_, fun hf => ?_⟩⟩
  · obtain ⟨t, c', q, he, hgoes, rfl, hc'⟩ := exit_goesOn h hd hg hall
    have hx := congrArg Crew.exited hc'
    refine ⟨t, c', _, he, hgoes, rfl, fun l hl => getLsbD_left hl, fun l hl => ?_, ?_⟩
    · rw [hx]
      exact getLsbD_exited hl
    · rw [hx]
      exact hc'
  · obtain ⟨t, c', he, hc', hs, hx, hv, hu, hm, hk⟩ := exit_ceases h hd hg hall hlast
    refine ⟨t, c', he, hc', hs, fun l hl => ?_, hv, hu, hm, hk⟩
    rw [hx]
    exact getLsbD_exited hl
  · obtain ⟨t, he, hends⟩ := exit_ends h hd hg hall hlast hone
    exact ⟨t, he, hends.gone, hends.others, hends.teams, hends.rest⟩
  · refine ⟨_, exec_exit_eq h hd, fun l x hl hx => ?_⟩
    have hl' : l ∈ maskLanes (exitMask c p) :=
      mem_maskLanes.mpr ⟨activeLanes_lt l hl, (getLsbD_laneMask _ (activeLanes_lt l hl)).mpr hl⟩
    have hcell := State.retireLanes_field (s := s.exiting c p) (c := c.exiting p) (exiting_crew h) hf hl' p.sid p.pc
    rw [State.seat?_afterIssue]
    exact hcell x hx
  · refine ⟨_, exec_term_eq h, ?_⟩
    rw [hg, if_neg Bool.false_ne_true]
    have hends := State.retireCrew_ends (s := s) (c := c) (u := begun s c p) (d := c.counted p.sid) rfl rfl rfl
      (fun k hne => State.crew?_modCrew_ne (·.counted p.sid) (fun _ => rfl) hne) rfl p.sid
    exact ⟨hends.gone, hends.others, hends.teams, hends.rest⟩
  · refine ⟨_, exec_term_eq h, fun l x hl ha hx hseat => ?_⟩
    rw [hf, if_pos rfl]
    have hl' : l ∈ maskLanes (~~~(c.absent ||| c.exited)) := by
      rw [mem_maskLanes, BitVec.getLsbD_not, BitVec.getLsbD_or, ha, hx]
      simp [hl]
    have hcell := State.exitCells_exits (s := begun s c p) (c := c.counted p.sid) hf hl' p.pc
    rw [State.seat?_afterIssue]
    exact hcell x hseat

end Sys2Proof.Machine
end

section
/-! Contexts start and stop, translations are shot down, and the buckets of a slice tick (R307 to R309, R344). -/

namespace Sys2Proof.Machine

/-! ## Events -/

/-- An event that only the crews' tries follow. -/
theorem crewsStand_retry {s t : State} (h : t.crews = s.crews) : CrewsStand s t.retry := by
  intro k
  rw [State.crew?_retry, State.crew?, h]
  rfl

/-- A register of the management window, once the device has booted. -/
theorem fire_managed {s t : State} {o : Option State} (hb : s.svc.bootok = true) (ho : o = some t) :
    fire s (s.managed o) = .next t.retry := by
  rw [State.managed, if_pos hb, ho]
  rfl

theorem State.part_modPart {s : State} {n : Nat} (f : Partition → Partition) (hn : n < s.parts.length) :
    (s.modPart n f).part n = f (s.part n) := by
  simp [State.part, State.modPart, hn]

/-- A register pair that has been written reads its outcome (R304). -/
theorem State.part_setResult {s : State} {n : Nat} (hn : n < s.parts.length) (code : Nat) :
    (s.setResult n code).part n = { s.part n with busy := false, result := .ofNat 8 code } := State.part_modPart _ hn

/-! ## START -/

/-- The context that START makes live (Tables 4.5 and 19.5). -/
def State.started (s : State) (n asid : Nat) : Context :=
  let e := s.ctxEntry n asid
  { asid := asid, part := n, trapent := .ofNat 64 (s.readNat (e.desc + 8) 8), irqaddr := .ofNat 64 (s.readNat (e.desc + 0x30) 8)
    irqkey := .ofNat 16 (s.readNat (e.desc + 0x38) 2), rarrive := .ofNat 64 (s.readNat (e.desc + 0x40) 8), shbase := e.shbase
    shcount := e.shcount, seats := e.seats, l2rate := e.rate, l2ceil := e.ceil, nextGid := 1
    resident := decide (s.residents n < (s.part n).resn), switching := false, stopping := false, since := s.micros }

/-- Grid 0 of a context that START makes live (R70). -/
def State.steering (s : State) (n asid : Nat) : Launch :=
  { lid := s.nextId, asid := asid, gid := 0, nest := 0, record := s.steerRecord (s.ctxEntry n asid).desc, status := none, parent := none
    ptid := 0, phase := .pending, nextTeam := 0, retired := 0, dx := 0, dy := 0, peers := [], cut := false, slots := [], events := []
    mute := false, told := [] }

theorem State.tokens_setTokens (s : State) (k j a n : Nat) : (s.setTokens k a n).tokens j a = if j = k then n else s.tokens j a := by
  simp only [State.tokens, State.setTokens, sget_sset, Nat.add_right_cancel_iff, Nat.mul_left_cancel_iff (show 0 < 65536 by decide)]

/-- The buckets of a list of slices are filled; the first context of a partition begins its ticks. -/
def State.fill (s : State) (fresh : Bool) (asid ceil : Nat) (ks : List Nat) : State :=
  ks.foldl (fun s k => State.setTokens (if fresh then { s with ticks := sset 0 s.ticks k s.micros } else s) k asid ceil) s

theorem State.fill_rest (fresh : Bool) (asid ceil : Nat) (ks : List Nat) (s : State) :
    s.fill fresh asid ceil ks = { s with levels := (s.fill fresh asid ceil ks).levels, ticks := (s.fill fresh asid ceil ks).ticks } := by
  induction ks generalizing s with
  | nil => rfl
  | cons k ks ih =>
    rw [State.fill, List.foldl_cons, ← State.fill, ih]
    cases fresh <;> rfl

theorem State.fill_tokens (fresh : Bool) (asid ceil : Nat) (ks : List Nat) (s : State) {k : Nat}
    (h : k ∈ ks ∨ s.tokens k asid = ceil) : (s.fill fresh asid ceil ks).tokens k asid = ceil := by
  induction ks generalizing s with
  | nil => exact h.resolve_left List.not_mem_nil
  | cons j ks ih =>
    rw [State.fill, List.foldl_cons, ← State.fill]
    refine ih _ ?_
    rw [State.tokens_setTokens]
    by_cases hj : k = j
    · exact .inr (if_pos hj)
    · rw [if_neg hj]
      rcases h with h | h
      · exact .inl ((List.mem_cons.mp h).resolve_left hj)
      · refine .inr ?_
        cases fresh <;> exact h

/-- The state with the context and grid 0 made, before the buckets of the partition's slices are filled. -/
def State.opened (s : State) (n asid : Nat) : State :=
  { s.clearShells (s.ctxEntry n asid).shbase (s.ctxEntry n asid).shcount with
    contexts := s.contexts ++ [s.started n asid], launches := s.launches ++ [s.steering n asid], nextId := s.nextId + 1 }

theorem State.startContext_eq (s : State) (n asid : Nat) :
    ∃ fresh, s.startContext n asid = (s.opened n asid).fill fresh asid (s.ctxEntry n asid).ceil (s.part n).slices := ⟨_, rfl⟩

theorem Partition.mem_slices {p : Partition} {b k : Nat} (hb : b ∈ p.bays) (hk : k < 12) : 12 * b + k ∈ p.slices :=
  List.mem_flatMap.mpr ⟨b, hb, List.mem_map.mpr ⟨k, List.mem_range.mpr hk, rfl⟩⟩

theorem sgetList_replicate {α : Type} (d : α) (m : SMap α) (n : Nat) :
    ∀ a, (∀ k, a ≤ k → k < a + n → sget d m k = d) → sgetList d m a n = List.replicate n d := by
  induction n with
  | zero => intro a _; rfl
  | succ n ih =>
    intro a h
    rw [sgetList, h a (by omega) (by omega), ih (a + 1) fun k h1 h2 => h k (by omega) (by omega)]
    rfl

/-- A shell of a cleared run reads as zero, and nothing holds it (R227). -/
theorem State.clearShells_payload (s : State) {base count k : Nat} (h1 : base ≤ k) (h2 : k < base + count) :
    (s.clearShells base count).payload k = List.replicate 16 0 ∧ (s.clearShells base count).landing? k = none := by
  constructor
  · refine sgetList_replicate 0 _ 16 _ fun i hi hj => ?_
    have hk : i / 16 = k := by omega
    change sget 0 (sdrop (fun i => decide (base ≤ i / 16) && decide (i / 16 < base + count)) s.shells) i = 0
    rw [sget_sdrop, hk, if_pos (by simp [h1, h2])]
  · simp only [State.landing?, State.clearShells, List.find?_eq_none, List.mem_filter]
    rintro x ⟨-, hx⟩ hk
    rw [beq_iff_eq.mp hk] at hx
    simp [h1, h2] at hx

section
variable {s : State} {n asid : Nat}

/-- START that passes its checks (R308). -/
theorem ctxStart_starts (hlen : s.parts.length = 24) (hn : n < 24) (hb : s.svc.bootok = true) (hbusy : (s.part n).busy = false)
    (ha : asid < 65536) (hcode : s.startCode n asid = 0) :
    ∃ t, Happens s (.ctxStart n asid) t ∧ CrewsStand s t ∧ t.mem = s.mem ∧ t.contexts = s.contexts ++ [s.started n asid] ∧
      t.launches = s.launches ++ [s.steering n asid] ∧
      (∀ k, (s.ctxEntry n asid).shbase ≤ k → k < (s.ctxEntry n asid).shbase + (s.ctxEntry n asid).shcount →
        t.payload k = List.replicate 16 0 ∧ t.landing? k = none) ∧
      (t.part n).result = 0 ∧ (t.part n).busy = false ∧
      ∀ b ∈ (s.part n).bays, ∀ k, k < 12 → t.tokens (12 * b + k) asid = (s.ctxEntry n asid).ceil := by
  obtain ⟨fresh, hu⟩ := s.startContext_eq n asid
  have hstart : s.ctxStart n asid = some ((s.startContext n asid).setResult n 0) := by
    unfold State.ctxStart
    rw [if_neg (by simp [hbusy]; omega), if_neg (by omega), hcode]
    rfl
  rw [hu, State.fill_rest] at hstart
  have hp := State.part_setResult (s := { s.opened n asid with
    levels := ((s.opened n asid).fill fresh asid (s.ctxEntry n asid).ceil (s.part n).slices).levels
    ticks := ((s.opened n asid).fill fresh asid (s.ctxEntry n asid).ceil (s.part n).slices).ticks }) (hlen ▸ hn) 0
  refine ⟨_, fire_managed hb hstart, crewsStand_retry rfl, rfl, rfl, rfl, fun k h1 h2 => s.clearShells_payload h1 h2, ?_, ?_, fun b hb' k hk => ?_⟩
  · exact congrArg Partition.result hp
  · exact congrArg Partition.busy hp
  · exact State.fill_tokens fresh asid (s.ctxEntry n asid).ceil (s.part n).slices _ (.inl (Partition.mem_slices hb' hk))

/-- START that is refused, with its RESULT (Table 19.4). -/
theorem ctxStart_refuses (hlen : s.parts.length = 24) (hn : n < 24) (hb : s.svc.bootok = true) {code : Nat}
    (h : s.ctxStart n asid = some (s.setResult n code)) :
    ∃ t, Happens s (.ctxStart n asid) t ∧ CrewsStand s t ∧ t = { s with crews := t.crews, parts := t.parts } ∧
      (t.part n).result = BitVec.ofNat 8 code := by
  refine ⟨_, fire_managed hb h, crewsStand_retry rfl, rfl, ?_⟩
  exact congrArg Partition.result (State.part_setResult (hlen ▸ hn) code)

end

/-! ## STOP -/

/-- What the end of a context's teams and launches does to the rest: memory, contexts and partitions stand, crews only go, and no launch that
stays is one that STOP would discard unless it was one before (R308). -/
structure WindsDown (s t : State) : Prop where
  mem      : t.mem = s.mem
  contexts : t.contexts = s.contexts
  parts    : t.parts = s.parts
  crews    : ∀ d ∈ t.crews, ∃ c ∈ s.crews, d.asid = c.asid
  launches : ∀ l ∈ t.launches, ∃ k ∈ s.launches, l.lid = k.lid ∧ l.asid = k.asid ∧ (l.discarded = true → k.discarded = true)

theorem WindsDown.of_eq {s t : State} (hm : t.mem = s.mem) (hx : t.contexts = s.contexts) (hp : t.parts = s.parts)
    (hc : t.crews = s.crews) (hl : t.launches = s.launches) : WindsDown s t :=
  ⟨hm, hx, hp, fun d hd => ⟨d, hc ▸ hd, rfl⟩, fun l h => ⟨l, hl ▸ h, rfl, rfl, id⟩⟩

theorem WindsDown.trans {s t u : State} (h : WindsDown s t) (g : WindsDown t u) : WindsDown s u := by
  refine ⟨g.mem.trans h.mem, g.contexts.trans h.contexts, g.parts.trans h.parts, fun e he => ?_, fun l hl => ?_⟩
  · obtain ⟨d, hd, hed⟩ := g.crews e he
    obtain ⟨c, hc, hdc⟩ := h.crews d hd
    exact ⟨c, hc, hed.trans hdc⟩
  · obtain ⟨k, hk, h1, h2, h3⟩ := g.launches l hl
    obtain ⟨j, hj, g1, g2, g3⟩ := h.launches k hk
    exact ⟨j, hj, h1.trans g1, h2.trans g2, g3 ∘ h3⟩

theorem WindsDown.foldl {α : Type} (f : State → α → State) (hf : ∀ s x, WindsDown s (f s x)) (xs : List α) (s : State) :
    WindsDown s (xs.foldl f s) := by
  induction xs generalizing s with
  | nil => exact .of_eq rfl rfl rfl rfl rfl
  | cons x t ih => exact (hf s x).trans (ih _)

theorem WindsDown.modLaunch (s : State) (lid : Nat) (f : Launch → Launch)
    (hf : ∀ l, (f l).lid = l.lid ∧ (f l).asid = l.asid ∧ ((f l).discarded = true → l.discarded = true)) : WindsDown s (s.modLaunch lid f) := by
  refine ⟨rfl, rfl, rfl, fun d hd => ⟨d, hd, rfl⟩, fun l hl => ?_⟩
  obtain ⟨k, hk, rfl⟩ := List.mem_map.mp hl
  refine ⟨k, hk, ?_⟩
  split
  · exact hf k
  · exact ⟨rfl, rfl, id⟩

theorem State.freeBar_windsDown (s : State) (b : BarObj) : WindsDown s (s.freeBar b) := by
  refine ⟨rfl, rfl, rfl, fun d hd => ?_, fun l hl => ⟨l, hl, rfl, rfl, id⟩⟩
  obtain ⟨c, hc, rfl⟩ := List.mem_map.mp hd
  refine ⟨c, hc, ?_⟩
  split <;> rfl

theorem State.freeTeamBars_windsDown (s : State) (lid tid : Nat) : WindsDown s (s.freeTeamBars lid tid) :=
  WindsDown.foldl _ State.freeBar_windsDown _ s

theorem State.freeKept_windsDown (s : State) (l : Launch) : WindsDown s (s.freeKept l) :=
  (WindsDown.foldl _ (fun s (t : Team) => s.freeTeamBars_windsDown t.lid t.tid) _ s).trans (.of_eq rfl rfl rfl rfl rfl)

/-- A launch that is draining is none that STOP discards. -/
theorem Launch.discarded_of_draining {l : Launch} (h : l.phase = .draining) : l.discarded = false := by
  rw [Launch.discarded, h]

theorem State.modTeam_windsDown (s : State) (lid tid : Nat) (f : Team → Team) : WindsDown s (s.modTeam lid tid f) :=
  .of_eq rfl rfl rfl rfl rfl

theorem State.retireSaved_windsDown (s : State) (t : Team) : WindsDown s (s.retireSaved t) := by
  unfold State.retireSaved
  split
  · exact (State.modTeam_windsDown s t.lid t.tid _).trans (State.freeKept_windsDown _ _)
  · extract_lets u v
    have hv : WindsDown u v := by
      refine WindsDown.modLaunch u t.lid _ fun l => ⟨rfl, rfl, fun h => ?_⟩
      by_cases hl : l.record.teams ≤ l.retired + 1
      · rw [Launch.discarded_of_draining (if_pos hl)] at h
        cases h
      · simpa only [Launch.discarded, Launch.begun, Launch.isField, if_neg hl] using h
    exact ((State.modTeam_windsDown s t.lid t.tid _).trans hv).trans (State.freeKept_windsDown _ _)
  · exact .of_eq rfl rfl rfl rfl rfl

/-- The cells of a field that has begun exit. -/
theorem State.endField_windsDown (s : State) (l : Launch) : WindsDown s (s.endField l) := by
  unfold State.endField
  split
  · refine WindsDown.trans (t := { s with seats := s.seats.map fun t => if t.lid == l.lid then { t with exited := 0xF } else t })
      (.of_eq rfl rfl rfl rfl rfl) (WindsDown.modLaunch _ l.lid _ fun k => ⟨rfl, rfl, fun h => ?_⟩)
    cases h
  · exact .of_eq rfl rfl rfl rfl rfl

/-- A crew of a list without repeated numbers is the one found. -/
theorem State.crew?_of_mem {s : State} (hn : (s.crews.map (·.cid)).Nodup) {c : Crew} (h : c ∈ s.crews) : s.crew? c.cid = some c := by
  rw [State.crew?]
  cases hf : s.crews.find? (·.cid == c.cid) with
  | none => exact absurd (List.find?_eq_none.mp hf c h) (by simp)
  | some d =>
    have hd := List.mem_of_find?_eq_some hf
    have hk : d.cid = c.cid := by simpa using List.find?_some hf
    exact congrArg some (List.inj_on_of_nodup_map hn hd h hk)

theorem State.termCrew_grid {s : State} {c : Crew} (hc : s.crew? c.cid = some c) (hg : s.inField c = false) :
    s.termCrew c.cid = s.retireCrew c := by
  simp only [State.termCrew, State.termAt, hc, hg, Bool.false_eq_true, if_false]

/-- Crews of grids are ended one after another. -/
theorem State.foldl_termCrew (cs : List Crew) (s : State) (hn : (cs.map (·.cid)).Nodup) (hc : ∀ c ∈ cs, s.crew? c.cid = some c)
    (hg : ∀ c ∈ cs, s.inField c = false) :
    let t := cs.foldl (fun s c => s.termCrew c.cid) s
    WindsDown s t ∧ ∀ d ∈ t.crews, d ∈ s.crews ∧ d.cid ∉ cs.map (·.cid) := by
  induction cs generalizing s with
  | nil => exact ⟨.of_eq rfl rfl rfl rfl rfl, fun d hd => ⟨hd, List.not_mem_nil⟩⟩
  | cons c cs ih =>
    rw [List.map_cons, List.nodup_cons] at hn
    have hstep : s.termCrew c.cid = s.retireCrew c :=
      State.termCrew_grid (hc c List.mem_cons_self) (hg c List.mem_cons_self)
    have hfind (d : Crew) (hd : d ∈ cs) : (s.retireCrew c).crew? d.cid = some d := by
      have hne : d.cid ≠ c.cid := fun e => hn.1 (e ▸ List.mem_map_of_mem hd)
      rw [← hc d (List.mem_cons_of_mem _ hd)]
      change (s.crews.filter (·.cid != c.cid)).find? _ = _
      rw [List.find?_filter, State.crew?]
      congr 1
      funext x
      by_cases hx : x.cid = d.cid
      · simp [hx, hne]
      · simp [hx]
    obtain ⟨hw, hk⟩ := ih (s.retireCrew c) hn.2 hfind fun d hd => hg d (List.mem_cons_of_mem _ hd)
    rw [List.foldl_cons, hstep]
    have hgo : WindsDown s (s.retireCrew c) :=
      ⟨rfl, rfl, rfl, fun d hd => ⟨d, (List.mem_filter.mp hd).1, rfl⟩, fun l hl => ⟨l, hl, rfl, rfl, id⟩⟩
    refine ⟨hgo.trans hw, fun d hd => ?_⟩
    obtain ⟨h1, h2⟩ := hk d hd
    have h1 : d ∈ s.crews.filter (·.cid != c.cid) := h1
    obtain ⟨h3, h4⟩ := List.mem_filter.mp h1
    refine ⟨h3, ?_⟩
    rw [List.map_cons, List.mem_cons, not_or]
    exact ⟨by simpa using h4, h2⟩

theorem State.context?_modContext {s : State} {asid : Nat} {x : Context} (h : s.context? asid = some x) (f : Context → Context)
    (hf : ∀ y, (f y).asid = y.asid) : (s.modContext asid f).context? asid = some (f x) := by
  have hx : x.asid = asid := by simpa using List.find?_some h
  have := find?_map_key Context.asid (fun y => if y.asid == asid then f y else y) (by intro y; split <;> simp [hf]) asid s.contexts
  simpa [State.context?, State.modContext, show s.contexts.find? _ = some x from h, hx] using this

section
variable {s : State} {asid : Nat}

/-- The context is on its way out. -/
def Context.stop (x : Context) : Context := { x with switching := true, stopping := true }

/-- STOP begins: no crew of the context is left, and no launch of it that waits (R308). -/
theorem State.stopBegin_stops (hg : ∀ c ∈ s.crews, c.asid = asid → s.inField c = false) (hn : (s.crews.map (·.cid)).Nodup) :
    let t := s.stopBegin asid
    t.mem = s.mem ∧ t.contexts = (s.modContext asid Context.stop).contexts ∧ t.parts = s.parts ∧ (∀ c ∈ t.crews, c.asid ≠ asid) ∧
      ∀ l ∈ t.launches, l.asid = asid → l.discarded = false := by
  let s0 := s.modContext asid Context.stop
  obtain ⟨hw, hcrews⟩ := State.foldl_termCrew (s0.crews.filter (·.asid == asid)) s0
    (hn.sublist (List.filter_sublist.map _)) (fun c hc => State.crew?_of_mem (s := s0) hn (List.mem_filter.mp hc).1)
    (fun c hc => hg c (List.mem_filter.mp hc).1 (by simpa using (List.mem_filter.mp hc).2))
  unfold State.stopBegin
  extract_lets u1 u2 gone mine u3 u4
  have h2 : WindsDown s0 u2 := hw
  have h3 : WindsDown u2 u3 := WindsDown.foldl _ State.retireSaved_windsDown _ _
  have h4 : WindsDown u2 u4 := h3.trans (WindsDown.foldl _ State.endField_windsDown _ _)
  have hgone : ∀ c ∈ u2.crews, c.asid ≠ asid := by
    intro c hc ha
    obtain ⟨hin, hout⟩ := hcrews c hc
    exact hout (List.mem_map_of_mem (List.mem_filter.mpr ⟨hin, by simp [ha]⟩))
  refine ⟨h4.mem.trans h2.mem, h4.contexts.trans h2.contexts, h4.parts.trans h2.parts, fun c hc => ?_, fun l hl ha => ?_⟩
  · obtain ⟨d, hd, hcd⟩ := h4.crews c hc
    exact hcd ▸ hgone d hd
  · obtain ⟨hl, hkeep⟩ := List.mem_filter.mp hl
    obtain ⟨k, hk, hlid, hasid, hdis⟩ := h4.launches l hl
    by_contra hd
    have hkd : k.discarded = true := hdis (by simpa using hd)
    have : k.lid ∈ gone := List.mem_map_of_mem (List.mem_filter.mpr ⟨hk, by simp [← hasid, ha, hkd]⟩)
    simp [hlid, this] at hkeep

end

section
variable {s : State} {n asid : Nat} {x : Context}

theorem ctxStop_begins (hlen : s.parts.length = 24) (hn : n < 24) (hb : s.svc.bootok = true) (hx : s.context? asid = some x)
    (hpart : x.part = n) (hstop : x.stopping = false) (hbusy : (s.part n).busy = false)
    (hg : ∀ c ∈ s.crews, c.asid = asid → s.inField c = false) (hnd : (s.crews.map (·.cid)).Nodup) :
    ∃ t, Happens s (.ctxStop n asid) t ∧ (∀ c ∈ t.crews, c.asid ≠ asid) ∧ t.context? asid = some x.stop ∧ (t.part n).busy = true ∧
      t.mem = s.mem ∧ ∀ l ∈ t.launches, l.asid = asid → l.discarded = false := by
  obtain ⟨hm, hctx, hparts, hcrews, hlaunches⟩ := State.stopBegin_stops hg hnd
  have hev : s.ctxStop n asid = some ((s.stopBegin asid).modPart n fun p => { p with busy := true }) := by
    simp [State.ctxStop, hx, hpart, hstop, hbusy, hb, Nat.not_le.mpr hn]
  refine ⟨_, congrArg (fire s) hev, fun c hc => ?_, ?_, ?_, hm, hlaunches⟩
  · obtain ⟨d, hd, rfl⟩ := List.mem_map.mp hc
    exact hcrews d hd
  · change List.find? _ (s.stopBegin asid).contexts = _
    rw [hctx]
    exact State.context?_modContext hx Context.stop fun _ => rfl
  · exact congrArg Partition.busy (State.part_modPart (s := s.stopBegin asid) _ (by rw [hparts, hlen]; exact hn))

/-- STOP ends once nothing of the context is left (R308). -/
theorem ctxStop_ends (hlen : s.parts.length = 24) (hn : n < 24) (hx : s.context? asid = some x) (hpart : x.part = n)
    (hstop : x.stopping = true) (hready : s.stopReady asid = true) :
    ∃ t, Happens s (.ctxStop n asid) t ∧ t.context? asid = none ∧ (∀ e ∈ t.tlb, e.asid ≠ asid) ∧ (∀ y ∈ t.tiles, y.asid ≠ asid) ∧
      (t.part n).busy = false ∧ (t.part n).result = 0 ∧ t.mem = s.mem := by
  have hev : s.ctxStop n asid = some (s.stopEnd n asid) := by
    simp [State.ctxStop, hx, hpart, hstop, hready, guarded, Nat.not_le.mpr hn]
  refine ⟨_, congrArg (fire s) hev, ?_⟩
  unfold State.stopEnd
  extract_lets live dead u
  have hu : WindsDown s u := WindsDown.foldl _ (fun s (t : Team) => s.freeTeamBars_windsDown t.lid t.tid) _ _
  have hp := State.part_setResult (s := { u with
    contexts := u.contexts.filter (·.asid != asid), teams := u.teams.filter fun t => live t.lid, tiles := u.tiles.filter (·.asid != asid)
    tlb := u.tlb.filter (·.asid != asid), levels := sdrop (fun k => k % 65536 == asid) u.levels }) (n := n)
    (by rw [hu.parts, hlen]; exact hn) 0
  refine ⟨?_, fun e he => ?_, fun y hy => ?_, congrArg Partition.busy hp, congrArg Partition.result hp, hu.mem⟩
  · change (u.contexts.filter (·.asid != asid)).find? (·.asid == asid) = none
    simp
  · have he : e ∈ u.tlb.filter (·.asid != asid) := he
    simpa using (List.mem_filter.mp he).2
  · have hy : y ∈ u.tiles.filter (·.asid != asid) := hy
    simpa using (List.mem_filter.mp hy).2

end

/-! ## Shootdowns -/

section
variable {s : State} {n asid : Nat}

/-- A shootdown that starts removes the translations that it hits (R344). -/
theorem shootdown_removes (hlen : s.parts.length = 24) (hn : n < 24) (hb : s.svc.bootok = true) (hbusy : (s.part n).sdbusy = false)
    (ha : asid < 65536) (hpart : s.partOf asid = n) (all : Bool) {size : Nat} (hsize : size < 3) :
    let bits := if size = 0 then 16 else if size = 1 then 21 else 30
    let page := (s.part n).sdaddr.toNat / 2 ^ bits * 2 ^ bits
    ∃ t, fire s (s.managed (s.shootdown n asid all size)) = .next t ∧ CrewsStand s t ∧ (t.part n).sdbusy = true ∧ t.mem = s.mem ∧
      ∀ e, e ∈ t.tlb ↔ e ∈ s.tlb ∧ ¬ (e.asid = asid ∧ e.core ∈ (s.part n).cores ∧
        (all = true ∨ e.page < page + 2 ^ bits ∧ page < e.page + 2 ^ e.bits)) := by
  intro bits page
  have hev : ∃ u, s.shootdown n asid all size = some u ∧ u.crews = s.crews ∧ (u.part n).sdbusy = true ∧ u.mem = s.mem ∧
      u.tlb = s.tlb.filter fun e => !(e.asid == asid && (s.part n).cores.contains e.core &&
        (all || overlaps e.page (2 ^ e.bits) page (2 ^ bits))) := by
    unfold State.shootdown
    rw [if_neg (by simp [hbusy]; omega), if_neg (by simp; omega), if_neg (by simp [hpart])]
    exact ⟨_, rfl, rfl, congrArg Partition.sdbusy (State.part_modPart _ (hlen ▸ hn)), rfl, rfl⟩
  obtain ⟨u, hu, hcrews, hsd, hmem, htlb⟩ := hev
  refine ⟨_, fire_managed hb hu, crewsStand_retry hcrews, hsd, hmem, fun e => ?_⟩
  change e ∈ u.tlb ↔ _
  rw [htlb, List.mem_filter]
  simp only [overlaps, Bool.not_eq_true', ← Bool.not_eq_true, Bool.and_eq_true, Bool.or_eq_true, decide_eq_true_eq, beq_iff_eq,
    List.contains_iff_mem, and_assoc]

/-- A shootdown of an ASID that is not live in the partition does not start (R344). -/
theorem shootdown_refuses (hlen : s.parts.length = 24) (hn : n < 24) (hb : s.svc.bootok = true) (hbusy : (s.part n).sdbusy = false)
    (ha : asid < 65536) (hpart : s.partOf asid ≠ n) :
    ∃ t, Happens s (.shootdownAll n asid) t ∧ CrewsStand s t ∧ t = { s with crews := t.crews, parts := t.parts } ∧
      (t.part n).sdbusy = false ∧ (t.part n).sdres = 2 := by
  have hev : s.shootdown n asid true 0 = some (s.setSdResult n 2) := by
    unfold State.shootdown
    rw [if_neg (by simp [hbusy]; omega), if_neg (by simp; omega), if_pos (by simp [hpart])]
  have hp := State.part_modPart (s := s) (fun p => { p with sdbusy := false, sdres := 2 }) (hlen ▸ hn)
  exact ⟨_, fire_managed hb hev, crewsStand_retry rfl, rfl, congrArg Partition.sdbusy hp, congrArg Partition.sdres hp⟩

theorem shootdown_completes (hlen : s.parts.length = 24) (hn : n < 24) (hbusy : (s.part n).sdbusy = true)
    (hdone : s.translatedDone ((s.part n).sdcmd.toNat % 65536) (s.part n).sdseq = true) :
    ∃ t, Happens s (.shootdownComplete n) t ∧ CrewsStand s t ∧ t = { s with crews := t.crews, parts := t.parts } ∧
      (t.part n).sdbusy = false ∧ (t.part n).sdres = 0 := by
  have hev : s.shootdownDone n = some (s.setSdResult n 0) := by
    simp [State.shootdownDone, guarded, hbusy, hdone]
  have hp := State.part_modPart (s := s) (fun p => { p with sdbusy := false, sdres := 0 }) (hlen ▸ hn)
  exact ⟨_, congrArg (fire s) hev, crewsStand_retry rfl, rfl, congrArg Partition.sdbusy hp, congrArg Partition.sdres hp⟩

end

/-! ## The tick of a slice -/

theorem insertBy_perm {α : Type} (before : α → α → Bool) (x : α) (xs : List α) : (insertBy before x xs).Perm (x :: xs) := by
  induction xs with
  | nil => exact .refl _
  | cons y ys ih =>
    rw [insertBy]
    split
    · exact (ih.cons y).trans (.swap x y ys)
    · exact .refl _

theorem sortBy_perm {α : Type} (before : α → α → Bool) (xs : List α) : (sortBy before xs).Perm xs := by
  induction xs with
  | nil => exact .refl _
  | cons x xs ih => exact (insertBy_perm before x _).trans (ih.cons x)

theorem State.tokens_setTokens_asid (s : State) (k a b n : Nat) :
    (s.setTokens k a n).tokens k b = if b = a then n else s.tokens k b := by
  simp only [State.tokens, State.setTokens, sget_sset, Nat.add_left_cancel_iff]

/-- A context's bucket at a slice takes its RATE up to its CEIL. -/
def State.tickOne (slice : Nat) (s : State) (x : Context) : State :=
  s.setTokens slice x.asid (min x.l2ceil (s.tokens slice x.asid + x.l2rate))

theorem State.foldl_tickOne_rest (slice : Nat) (xs : List Context) (s : State) :
    xs.foldl (State.tickOne slice) s = { s with levels := (xs.foldl (State.tickOne slice) s).levels } := by
  induction xs generalizing s with
  | nil => rfl
  | cons x xs ih =>
    rw [List.foldl_cons, ih]
    rfl

theorem State.foldl_tickOne_of_notMem (slice : Nat) (xs : List Context) (s : State) {a : Nat} (h : a ∉ xs.map (·.asid)) :
    (xs.foldl (State.tickOne slice) s).tokens slice a = s.tokens slice a := by
  induction xs generalizing s with
  | nil => rfl
  | cons x xs ih =>
    rw [List.map_cons, List.mem_cons, not_or] at h
    rw [List.foldl_cons, ih _ h.2, State.tickOne, State.tokens_setTokens_asid, if_neg h.1]

theorem State.foldl_tickOne_of_mem (slice : Nat) (xs : List Context) (s : State) (hn : (xs.map (·.asid)).Nodup) {x : Context} (h : x ∈ xs) :
    (xs.foldl (State.tickOne slice) s).tokens slice x.asid = min x.l2ceil (s.tokens slice x.asid + x.l2rate) := by
  induction xs generalizing s with
  | nil => cases h
  | cons y ys ih =>
    rw [List.map_cons, List.nodup_cons] at hn
    rw [List.foldl_cons]
    rcases List.mem_cons.mp h with rfl | h
    · rw [State.foldl_tickOne_of_notMem slice ys _ hn.1, State.tickOne, State.tokens_setTokens_asid, if_pos rfl]
    · have hne : x.asid ≠ y.asid := fun e => hn.1 (e ▸ List.mem_map_of_mem h)
      rw [ih _ hn.2 h, State.tickOne, State.tokens_setTokens_asid, if_neg hne]

/-- With nobody waiting, what overflows the buckets goes to nobody (R309). -/
theorem sharePool_nil (s : State) (slice fuel pool : Nat) : sharePool s slice [] fuel pool = s := by
  cases fuel with
  | zero => rfl
  | succ n =>
    rw [sharePool]
    split <;> rfl

/-- The contexts whose buckets tick at a slice, in ascending order of their ASIDs. -/
def State.tickers (s : State) (slice : Nat) : List Context :=
  sortBy (fun a b => decide (a.asid < b.asid)) (s.contexts.filter fun x => (s.part x.part).hasBay (slice / 12))

theorem State.l2Tick_eq {s : State} {slice : Nat} (hw : ∀ x ∈ s.contexts, s.waitsAt slice x.asid = false) :
    s.l2Tick slice = (s.tickers slice).foldl (State.tickOne slice) s := by
  have hnone : ((s.tickers slice).filter fun x => s.waitsAt slice x.asid) = [] := by
    rw [List.filter_eq_nil_iff]
    intro x hx
    have hx := (sortBy_perm _ _).mem_iff.mp hx
    rw [hw x (List.mem_filter.mp hx).1]
    exact Bool.false_ne_true
  change sharePool _ slice ((s.tickers slice).filter fun x => s.waitsAt slice x.asid) _ _ = _
  rw [hnone, sharePool_nil]
  rfl

theorem l2BucketTick_ticks {s : State} {slice : Nat} (hs : slice < 288) (ht : s.ticked slice = false) (hn : (s.contexts.map (·.asid)).Nodup)
    (hw : ∀ x ∈ s.contexts, s.waitsAt slice x.asid = false) :
    ∃ t, Happens s (.l2BucketTick slice) t ∧ CrewsStand s t ∧ t = { s with crews := t.crews, levels := t.levels, ticks := t.ticks } ∧
      ∀ x ∈ s.contexts, t.tokens slice x.asid = if (s.part x.part).hasBay (slice / 12) = true then
        min x.l2ceil (s.tokens slice x.asid + x.l2rate) else s.tokens slice x.asid := by
  have hev : guarded (decide (slice < 288) && !s.ticked slice) ((s.l2Tick slice).noteTick slice) =
      some (((s.tickers slice).foldl (State.tickOne slice) s).noteTick slice) := by
    rw [State.l2Tick_eq hw]
    simp [guarded, hs, ht]
  have hrest := State.foldl_tickOne_rest slice (s.tickers slice) s
  refine ⟨_, congrArg (fire s) hev, crewsStand_retry ?_, ?_, fun x hx => ?_⟩
  · rw [hrest]
    rfl
  · rw [hrest]
    rfl
  · change ((s.tickers slice).foldl (State.tickOne slice) s).tokens slice x.asid = _
    have hperm := sortBy_perm (fun (a b : Context) => decide (a.asid < b.asid)) (s.contexts.filter fun x => (s.part x.part).hasBay (slice / 12))
    have hnd : ((s.tickers slice).map (·.asid)).Nodup := (hperm.map _).nodup_iff.mpr (hn.sublist (List.filter_sublist.map _))
    by_cases hbay : (s.part x.part).hasBay (slice / 12) = true
    · rw [if_pos hbay]
      exact State.foldl_tickOne_of_mem slice _ s hnd (hperm.mem_iff.mpr (List.mem_filter.mpr ⟨hx, hbay⟩))
    · rw [if_neg hbay]
      refine State.foldl_tickOne_of_notMem slice _ s fun hm => hbay ?_
      obtain ⟨y, hy, he⟩ := List.mem_map.mp hm
      obtain ⟨hy, hyb⟩ := List.mem_filter.mp (hperm.mem_iff.mp hy)
      rw [← List.inj_on_of_nodup_map hn hy hx he]
      exact hyb

/-- Settles O51: each clause is one answer of the event, START's and STOP's over the walks of what they make and end. -/
theorem contextsAndShootdowns : Obligations.ContextsAndShootdowns := by
  intro s n asid hlen hn hb p
  refine ⟨fun hbusy ha hcode => ?_, fun hbusy ha hlive => ?_, fun hbusy ha => ?_, fun x hx hpart => ⟨fun hstop hbusy hg hnd => ?_, fun hstop hready => ?_⟩,
    fun hbusy => ⟨fun ha hpart => ⟨fun size hsize => ?_, ?_⟩, fun ha hpart => ?_⟩, fun hbusy hdone => ?_, fun slice hs ht hnd hlt hw => ?_⟩
  · obtain ⟨t, h, hcs, hm, hctx, hl, hsh, hr, hbz, htk⟩ := ctxStart_starts hlen hn hb hbusy ha hcode
    exact ⟨t, _, _, h, hcs, hm, hctx, rfl, rfl, rfl, rfl, rfl, rfl, rfl, rfl, rfl, rfl, hl, rfl, rfl, rfl, rfl, rfl, rfl, rfl, rfl, rfl, rfl, rfl,
      hsh, hr, hbz, htk⟩
  · refine ctxStart_refuses hlen hn hb (code := 6) ?_
    have hcode : s.startCode n asid = 6 := by rw [State.startCode, if_pos hlive]
    unfold State.ctxStart
    rw [if_neg (by simp [show (s.part n).busy = false from hbusy]; omega), if_neg (by omega), hcode]
    rfl
  · refine ctxStart_refuses hlen hn hb (code := 1) ?_
    unfold State.ctxStart
    rw [if_neg (by simp [show (s.part n).busy = false from hbusy]; omega), if_pos ha]
  · exact ctxStop_begins hlen hn hb hx hpart hstop hbusy hg hnd
  · exact ctxStop_ends hlen hn hx hpart hstop hready
  · obtain ⟨t, h, hcs, hsd, hm, htlb⟩ := shootdown_removes hlen hn hb hbusy ha hpart false hsize
    refine ⟨t, h, hcs, hsd, hm, fun e => ?_⟩
    simpa using htlb e
  · obtain ⟨t, h, hcs, hsd, hm, htlb⟩ := shootdown_removes hlen hn hb hbusy ha hpart true (size := 0) (by decide)
    refine ⟨t, h, hcs, hsd, hm, fun e => ?_⟩
    simpa using htlb e
  · exact shootdown_refuses hlen hn hb hbusy ha hpart
  · exact shootdown_completes hlen hn hbusy hdone
  · exact l2BucketTick_ticks hs ht hnd hw

end Sys2Proof.Machine
end

section
/-! Numbers as bytes, in memory and in the scratchpads (R89). -/

namespace Sys2Proof.Machine

/-! ## Bytes of a number -/

@[simp] theorem length_leBytes (n x : Nat) : (leBytes n x).length = n := by
  induction n generalizing x with
  | zero => rfl
  | succ n ih => rw [leBytes, List.length_cons, ih]

theorem leNat_leBytes (n x : Nat) : leNat (leBytes n x) = x % 256 ^ n := by
  induction n generalizing x with
  | zero => rw [leBytes, leNat, Nat.pow_zero, Nat.mod_one]
  | succ n ih =>
    rw [leBytes, leNat, ih, BitVec.toNat_ofNat, Nat.pow_succ' (n := n), Nat.mod_mul]

theorem drop_leBytes (n k x : Nat) : (leBytes n x).drop k = leBytes (n - k) (x / 256 ^ k) := by
  induction k generalizing n x with
  | zero => rw [List.drop_zero, Nat.pow_zero, Nat.div_one, Nat.sub_zero]
  | succ k ih =>
    cases n with
    | zero => rw [Nat.zero_sub, leBytes, List.drop_nil, leBytes]
    | succ n => rw [leBytes, List.drop_succ_cons, ih, Nat.succ_sub_succ, Nat.div_div_eq_div_mul, ← Nat.pow_succ']

theorem take_leBytes (n k x : Nat) : (leBytes n x).take k = leBytes (min k n) x := by
  induction k generalizing n x with
  | zero => rw [List.take_zero, Nat.zero_min, leBytes]
  | succ k ih =>
    cases n with
    | zero => rw [Nat.min_zero, leBytes, List.take_nil]
    | succ n => rw [leBytes, List.take_succ_cons, ih, Nat.succ_min_succ, leBytes]

/-- The bit of a number is that of its lowest byte. -/
theorem leNat_cons_mod_two (b : Byte) (bs : List Byte) : leNat (b :: bs) % 2 = b.toNat % 2 := by
  rw [leNat]
  omega

/-! ## Reading a run of values -/

theorem sgetList_ssetList_same {α : Type} [DecidableEq α] (d : α) (m : SMap α) (a : Nat) (xs : List α) :
    sgetList d (ssetList d m a xs) a xs.length = xs := by
  induction xs generalizing m a with
  | nil => rfl
  | cons x xs ih =>
    rw [List.length_cons, sgetList, ssetList, ih]
    rw [sget_ssetList, if_neg (by omega), sget_sset, if_pos rfl]

theorem take_sgetList {n k : Nat} (m : SMap Byte) (a : Nat) (hk : k ≤ n) : (sgetList 0 m a n).take k = sgetList 0 m a k := by
  induction k generalizing a n with
  | zero => rfl
  | succ k ih =>
    obtain ⟨n, rfl⟩ := Nat.exists_eq_add_one_of_ne_zero (show n ≠ 0 by omega)
    rw [sgetList, List.take_succ_cons, ih (a + 1) (by omega), sgetList]

theorem sgetList_ssetList_ne (m : SMap Byte) (a b n : Nat) (xs : List Byte) (h : b + n ≤ a ∨ a + xs.length ≤ b) :
    sgetList 0 (ssetList 0 m a xs) b n = sgetList 0 m b n :=
  sgetList_congr 0 m _ n b fun k h1 h2 => by rw [sget_ssetList, if_neg (by omega)]

/-! ## Memory -/

theorem placed_cons (a : Nat) (b : Byte) (bs : List Byte) : placed a (b :: bs) = (a, b) :: placed (a + 1) bs := by
  simp only [placed, List.length_cons, List.range_succ_eq_map, List.map_cons, List.map_map, List.zip_cons_cons, Nat.add_zero]
  congr 3
  funext k
  simp only [Function.comp_apply]
  omega

/-- Bytes written in a row. -/
theorem State.writePairs_placed (s : State) (a : Nat) (bs : List Byte) : (s.writePairs (placed a bs)).mem = (s.writeBytes a bs).mem := by
  induction bs generalizing s a with
  | nil => rfl
  | cons b bs ih =>
    rw [placed_cons]
    exact ih (s.writeByte a b) (a + 1)

theorem State.readNat_writeBytes (s : State) (a n x : Nat) : (s.writeBytes a (leBytes n x)).readNat a n = x % 256 ^ n := by
  have h := sgetList_ssetList_same 0 s.mem a (leBytes n x)
  rw [length_leBytes] at h
  rw [← leNat_leBytes]
  exact congrArg leNat h

/-! ## Scratchpads and barrier objects -/

/-- A team found after an update of a team. -/
theorem State.team?_modTeam (s : State) (lid tid lid' tid' : Nat) (f : Team → Team) (hf : ∀ t, (f t).lid = t.lid ∧ (f t).tid = t.tid) :
    (s.modTeam lid tid f).team? lid' tid' = (s.team? lid' tid').map fun t => if t.lid == lid && t.tid == tid then f t else t := by
  have hkey : ((fun t : Team => t.lid == lid' && t.tid == tid') ∘ fun t => if t.lid == lid && t.tid == tid then f t else t) =
      fun t => t.lid == lid' && t.tid == tid' := by
    funext t
    rw [Function.comp_apply]
    split <;> simp only [hf]
  rw [State.team?, State.modTeam_teams, List.find?_map, hkey]
  rfl

theorem State.team?_key {s : State} {lid tid : Nat} {x : Team} (h : s.team? lid tid = some x) : x.lid = lid ∧ x.tid = tid := by
  simpa using List.find?_some h

/-- A team of whose scratchpad bytes have been written. -/
def Team.written (a : Nat) (bs : List Byte) (t : Team) : Team :=
  { t with
    scratch := ssetList 0 t.scratch a bs
    spoison := t.spoison.filter fun w => !(decide (a ≤ 4 * w) && decide (4 * w + 4 ≤ a + bs.length)) }

theorem State.setBarField_eq (s : State) (b : BarObj) (off n v : Nat) :
    s.setBarField b off n v = s.modTeam b.lid b.team (Team.written (b.offset + off) (leBytes n v)) := rfl

section
variable {s : State} {b : BarObj} {x : Team}

/-- A write of a field of an object's word leaves a team there. -/
theorem State.team?_setBarField (hx : s.team? b.lid b.team = some x) (off n v : Nat) :
    ∃ y, (s.setBarField b off n v).team? b.lid b.team = some y ∧ y.scratch = ssetList 0 x.scratch (b.offset + off) (leBytes n v) := by
  refine ⟨x.written (b.offset + off) (leBytes n v), ?_, rfl⟩
  rw [State.setBarField_eq, State.team?_modTeam s _ _ _ _ (Team.written _ _) fun _ => ⟨rfl, rfl⟩, hx]
  simp [State.team?_key hx]

@[simp] theorem State.isSome_team?_setBarField (s : State) (b : BarObj) (off n v : Nat) :
    ((s.setBarField b off n v).team? b.lid b.team).isSome = (s.team? b.lid b.team).isSome := by
  rw [State.setBarField_eq, State.team?_modTeam s _ _ _ _ (Team.written _ _) fun _ => ⟨rfl, rfl⟩, Option.isSome_map]

theorem State.barField_eq (hx : s.team? b.lid b.team = some x) (off n : Nat) :
    s.barField b off n = leNat (sgetList 0 x.scratch (b.offset + off) n) := by
  rw [State.barField, State.scratchRead, hx]

/-- The low bytes of a field that has been written. -/
theorem State.barField_setBarField_same (hx : (s.team? b.lid b.team).isSome) {off n k : Nat} (v : Nat) (hk : k ≤ n) :
    (s.setBarField b off n v).barField b off k = v % 256 ^ k := by
  obtain ⟨x, hx⟩ := Option.isSome_iff_exists.mp hx
  obtain ⟨y, hy, hs⟩ := State.team?_setBarField hx off n v
  have h := sgetList_ssetList_same 0 x.scratch (b.offset + off) (leBytes n v)
  rw [length_leBytes] at h
  rw [State.barField_eq hy, hs, ← take_sgetList _ _ hk, h, take_leBytes, Nat.min_eq_left hk, leNat_leBytes]

/-- A field beside one that is written. -/
theorem State.barField_setBarField_ne (hx : (s.team? b.lid b.team).isSome) {off n off' n' : Nat} (v : Nat)
    (h : off' + n' ≤ off ∨ off + n ≤ off') : (s.setBarField b off n v).barField b off' n' = s.barField b off' n' := by
  obtain ⟨x, hx⟩ := Option.isSome_iff_exists.mp hx
  obtain ⟨y, hy, hs⟩ := State.team?_setBarField hx off n v
  rw [State.barField_eq hy, State.barField_eq hx, hs, sgetList_ssetList_ne _ _ _ _ _ (by rw [length_leBytes]; omega)]

/-- The first byte of a field and the field have one lowest bit. -/
theorem State.barField_mod_two (hx : (s.team? b.lid b.team).isSome) (off n : Nat) :
    s.barField b off (n + 1) % 2 = s.barField b off 1 % 2 := by
  obtain ⟨x, hx⟩ := Option.isSome_iff_exists.mp hx
  rw [State.barField_eq hx, State.barField_eq hx, sgetList, sgetList, leNat_cons_mod_two, leNat_cons_mod_two]

/-- A byte outside of a field stands when the field is written. -/
theorem State.scratchRead_setBarField (s : State) (b : BarObj) (off n v : Nat) {lid tid a : Nat}
    (h : ¬ (lid = b.lid ∧ tid = b.team ∧ b.offset + off ≤ a ∧ a < b.offset + off + n)) :
    (s.setBarField b off n v).scratchRead lid tid a 1 = s.scratchRead lid tid a 1 := by
  rw [State.scratchRead, State.scratchRead, State.setBarField_eq, State.team?_modTeam s _ _ _ _ (Team.written _ _) fun _ => ⟨rfl, rfl⟩]
  cases hy : s.team? lid tid with
  | none => rfl
  | some y =>
    obtain ⟨h1, h2⟩ := State.team?_key hy
    simp only [Option.map_some]
    split
    · rename_i hk
      have hk : lid = b.lid ∧ tid = b.team := by simpa [h1, h2] using hk
      exact sgetList_ssetList_ne _ _ _ _ _ (by rw [length_leBytes]; omega)
    · rfl

/-- PHASE is the lowest bit of STATE (Table 9.5). -/
theorem State.phaseOf_eq (hx : (s.team? b.lid b.team).isSome) : s.phaseOf b = decide (s.barField b 12 4 % 2 = 1) := by
  rw [State.phaseOf, Nat.testBit_zero, State.barField_mod_two hx 12 3]

/-- An evaluation told of the state before a write of a field of the word. -/
theorem Evaluated.of_setBarField {t : State} {off n v e a f r : Nat} (h : Evaluated (s.setBarField b off n v) t b e a f r)
    (hx : (s.team? b.lid b.team).isSome) (hoff : off + n ≤ 12) : Evaluated s t b e a f r := by
  refine { h with phase := ?_, bytes := fun lid tid k hk => ?_ }
  · have hp : (s.setBarField b off n v).phaseOf b = s.phaseOf b := by
      rw [State.phaseOf, State.barField_setBarField_ne hx v (.inr hoff), State.phaseOf]
    rw [h.phase, hp]
  · rw [h.bytes lid tid k hk, State.scratchRead_setBarField s b off n v (by omega)]

theorem State.scratchRead_congr {s t : State} (h : t.teams = s.teams) (lid tid a n : Nat) :
    t.scratchRead lid tid a n = s.scratchRead lid tid a n := by
  unfold State.scratchRead State.team?
  rw [h]

/-- The word of an object stands in the scratchpad of its team. -/
theorem Evaluated.of_teams {s s' t t' : State} {e a f r : Nat} (h : Evaluated s t b e a f r) (hs : s'.teams = s.teams) (ht : t'.teams = t.teams) :
    Evaluated s' t' b e a f r := by
  have hread := State.scratchRead_congr ht
  have hfield (off n : Nat) : t'.barField b off n = t.barField b off n := congrArg leNat (hread _ _ _ _)
  have hfield' (off n : Nat) : s'.barField b off n = s.barField b off n := congrArg leNat (State.scratchRead_congr hs _ _ _ _)
  refine ⟨?_, ?_, ?_, ?_, ?_, fun lid tid k hk => ?_⟩
  · rw [hfield, h.expAAfter]
  · rw [hfield, h.arrAfter]
  · rw [hfield, h.expBAfter]
  · rw [hfield, h.rcvBAfter]
  · rw [State.phaseOf, hfield, State.phaseOf, hfield']
    exact h.phase
  · rw [hread, State.scratchRead_congr hs, h.bytes lid tid k hk]

/-- The word of an object after its phase has flipped. -/
def State.flipBar (s : State) (b : BarObj) : State :=
  let st := s.barField b 12 4
  ((((s.setBarField b 12 4 (if st % 2 = 0 then st + 1 else st - 1)).setBarField b 2 2 0).setBarField b 8 4 0).setBarField b 0 2
    b.baseA).setBarField b 4 4 b.baseB

theorem State.scratchRead_flipBar (s : State) (b : BarObj) {lid tid a : Nat}
    (h : ¬ (lid = b.lid ∧ tid = b.team ∧ b.offset ≤ a ∧ a < b.offset + 16)) : (s.flipBar b).scratchRead lid tid a 1 = s.scratchRead lid tid a 1 := by
  unfold State.flipBar
  rw [State.scratchRead_setBarField _ b 4 4 _ (by omega), State.scratchRead_setBarField _ b 0 2 _ (by omega),
    State.scratchRead_setBarField _ b 8 4 _ (by omega), State.scratchRead_setBarField _ b 2 2 _ (by omega),
    State.scratchRead_setBarField _ b 12 4 _ (by omega)]

@[simp] theorem State.flipBar_mem (s : State) (b : BarObj) : (s.flipBar b).mem = s.mem := by
  unfold State.flipBar
  simp only [State.setBarField_eq, State.modTeam_mem]

@[simp] theorem State.flipBar_fab (s : State) (b : BarObj) : (s.flipBar b).fab = s.fab := by
  unfold State.flipBar
  simp only [State.setBarField_eq, State.modTeam_fab]

/-- An evaluation flips the phase and wakes the waiters, or does nothing. -/
theorem State.evaluate_eq (s : State) (b : BarObj) :
    s.evaluate b = if s.barField b 0 2 ≤ s.barField b 2 2 ∧ s.barField b 4 4 ≤ s.barField b 8 4 then
      ((s.flipBar b).putBar { b with far := false, farFlip := b.far }).wakeAll b.core b.idx (b.flipScope b.far) .flipped else s := by
  simp only [State.evaluate, Bool.and_eq_true, decide_eq_true_eq]
  rfl

/-- Evaluate does to the word of an object what R176 says. -/
theorem State.evaluate_evaluated (hx : (s.team? b.lid b.team).isSome) :
    Evaluated s (s.evaluate b) b (s.barField b 0 2) (s.barField b 2 2) (s.barField b 4 4) (s.barField b 8 4) := by
  by_cases h : s.barField b 0 2 ≤ s.barField b 2 2 ∧ s.barField b 4 4 ≤ s.barField b 8 4
  · have he : s.evaluate b = ((s.flipBar b).putBar { b with far := false, farFlip := b.far }).wakeAll b.core b.idx (b.flipScope b.far) .flipped := by
      rw [State.evaluate_eq, if_pos h]
    have hfield (off n : Nat) : (s.evaluate b).barField b off n = (s.flipBar b).barField b off n := by rw [he]; rfl
    have hread (lid tid a n : Nat) : (s.evaluate b).scratchRead lid tid a n = (s.flipBar b).scratchRead lid tid a n := by rw [he]; rfl
    refine ⟨?_, ?_, ?_, ?_, ?_, fun lid tid a ha => ?_⟩
    · rw [hfield, if_pos h, State.flipBar, State.barField_setBarField_ne (by simp [hx]) _ (by decide),
        State.barField_setBarField_same (by simp [hx]) _ (by decide)]
      rfl
    · rw [hfield, if_pos h, State.flipBar, State.barField_setBarField_ne (by simp [hx]) _ (by decide),
        State.barField_setBarField_ne (by simp [hx]) _ (by decide), State.barField_setBarField_ne (by simp [hx]) _ (by decide),
        State.barField_setBarField_same (by simp [hx]) _ (by decide)]
      rfl
    · rw [hfield, if_pos h, State.flipBar, State.barField_setBarField_same (by simp [hx]) _ (by decide)]
      rfl
    · rw [hfield, if_pos h, State.flipBar, State.barField_setBarField_ne (by simp [hx]) _ (by decide),
        State.barField_setBarField_ne (by simp [hx]) _ (by decide), State.barField_setBarField_same (by simp [hx]) _ (by decide)]
      rfl
    · rw [if_pos h, State.phaseOf_eq hx, State.phaseOf, hfield, State.flipBar, State.barField_setBarField_ne (by simp [hx]) _ (by decide),
        State.barField_setBarField_ne (by simp [hx]) _ (by decide), State.barField_setBarField_ne (by simp [hx]) _ (by decide),
        State.barField_setBarField_ne (by simp [hx]) _ (by decide), State.barField_setBarField_same hx _ (by decide), Nat.testBit_zero]
      generalize s.barField b 12 4 = st
      rw [← decide_not, decide_eq_decide]
      split <;> omega
    · rw [hread, State.scratchRead_flipBar s b ha]
  · have he : s.evaluate b = s := by rw [State.evaluate_eq, if_neg h]
    rw [he]
    exact ⟨by rw [if_neg h], by rw [if_neg h], by rw [if_neg h], by rw [if_neg h], by rw [if_neg h], fun _ _ _ _ => rfl⟩

theorem State.evaluate_mem (s : State) (b : BarObj) : (s.evaluate b).mem = s.mem := by
  rw [State.evaluate_eq]
  split
  · rw [State.wakeAll_mem, State.putBar_mem, State.flipBar_mem]
  · rfl

theorem State.evaluate_fab (s : State) (b : BarObj) : (s.evaluate b).fab = s.fab := by
  rw [State.evaluate_eq]
  split
  · rw [State.wakeAll_fab, State.putBar_fab, State.flipBar_fab]
  · rfl

/-- An arrival (R176, R180). -/
theorem State.arrive_evaluated (hx : (s.team? b.lid b.team).isSome) :
    Evaluated s (s.arrive b) b (s.barField b 0 2) ((s.barField b 2 2 + 1) % 2 ^ 16) (s.barField b 4 4) (s.barField b 8 4) := by
  have h := State.evaluate_evaluated (s := s.setBarField b 2 2 (s.barField b 2 2 + 1)) (b := b) (by simp [hx])
  rw [State.barField_setBarField_ne hx _ (by decide), State.barField_setBarField_same hx _ (by decide),
    State.barField_setBarField_ne hx _ (by decide), State.barField_setBarField_ne hx _ (by decide)] at h
  exact h.of_setBarField hx (by decide)

end

end Sys2Proof.Machine
end

section
/-! What comes in from the fabric: flits, the export windows, the management window and remote arrivals (R70, R310, R316, R319, R322, R369). -/

namespace Sys2Proof.Machine

/-! ## The slots of a port -/

/-- A flit that finds a slot changes the slots alone. -/
theorem Fabric.takeIn_eq {f g : Fabric} {q : Ingress} (h : f.takeIn q = some g) : g = { f with slots := g.slots } := by
  unfold Fabric.takeIn at h
  dsimp only at h
  split at h
  · cases h; rfl
  · split at h
    · cases h; rfl
    · cases h

/-- Those that wait upstream change the slots and their own queue alone. -/
theorem Fabric.admitAll_eq (xs : List Ingress) (f : Fabric) :
    f.admitAll xs = { f with slots := (f.admitAll xs).slots, waiting := (f.admitAll xs).waiting } := by
  induction xs generalizing f with
  | nil => rfl
  | cons q rest ih =>
    rw [Fabric.admitAll]
    split
    · rename_i g hg
      rw [ih, Fabric.takeIn_eq hg]
    · exact ih f

/-- A flit that leaves its slot changes the slots and the queue upstream alone. -/
theorem State.leaveSlot_eq (s : State) (q : Ingress) :
    s.leaveSlot q = { s with fab := { s.fab with slots := (s.leaveSlot q).fab.slots, waiting := (s.leaveSlot q).fab.waiting } } := by
  have h := Fabric.admitAll_eq s.fab.waiting { s.fab with slots := s.fab.slots.erase q }
  unfold State.leaveSlot State.modFab
  dsimp only
  rw [h]

/-- With nothing upstream the slot is free. -/
theorem State.leaveSlot_of_empty {s : State} (q : Ingress) (h : s.fab.waiting = []) :
    (s.leaveSlot q).fab.slots = s.fab.slots.erase q ∧ (s.leaveSlot q).fab.waiting = [] := by
  unfold State.leaveSlot State.modFab
  simp only [h]
  exact ⟨rfl, rfl⟩

/-- The flit has left its slot in the state `t`: the slots and the queue upstream hold what they hold without it. -/
def SlotLeft (s t : State) (q : Ingress) : Prop :=
  t.fab.slots ++ t.fab.waiting = (s.leaveSlot q).fab.slots ++ (s.leaveSlot q).fab.waiting ∧
    (s.fab.waiting = [] → t.fab.slots = s.fab.slots.erase q ∧ t.fab.waiting = [])

theorem slotLeft_of {s t : State} {q : Ingress} (h1 : t.fab.slots = (s.leaveSlot q).fab.slots)
    (h2 : t.fab.waiting = (s.leaveSlot q).fab.waiting) : SlotLeft s t q :=
  ⟨by rw [h1, h2], fun h => by rw [h1, h2]; exact State.leaveSlot_of_empty q h⟩

/-! ## Flits -/

/-- The key entry of a plain flit, 64 for management traffic (R322, R369). -/
def State.entryOfFlit (s : State) (src key offset : Nat) : Option Nat :=
  if inMgmt offset = true ∧ offset % 8 = 0 ∧ s.mgmtOk src key = true then some 64 else s.keyEntry key

theorem State.entryOfFlit_eq (s : State) (src key offset : Nat) :
    (if s.mgmtFlit src key offset none then some 64 else s.keyEntry key) = s.entryOfFlit src key offset := by
  have h : s.mgmtFlit src key offset none = true ↔ inMgmt offset = true ∧ offset % 8 = 0 ∧ s.mgmtOk src key = true := by
    simp only [State.mgmtFlit, plainSize, Bool.and_eq_true, bne_iff_ne, beq_iff_eq]
    tauto
  simp only [State.entryOfFlit, h]

/-- A plain flit as it arrives. -/
def State.flit (s : State) (port src key offset : Nat) (w : Bool) (data : DWord) (e : Nat) (pool : Bool) : Ingress :=
  { port := port, src := src, key := key, entry := e, copy := s.fab.kact, part := keyPart (sget 0 s.fab.keys e), offset := offset
    write := w, data := data, ask := none, place := s.exportPa (keyPart (sget 0 s.fab.keys e)) offset, pool := pool }

section
variable {s : State} {port src key offset : Nat} {w : Bool} {data : DWord}

/-- A flit of a live port, by its key entry. -/
theorem ingressFlit_eq (hp : port < 72) (hl : s.fab.portLive.getLsbD port = true) (hs : src < 16384) (hk : key < 65536) :
    exec (.ingressFlit port src key offset w data) s = .next (State.retry (match s.entryOfFlit src key offset with
      | none =>
        let t := s.modFab fun f => { f with kdrop := sset 0 f.kdrop port (.ofNat 16 (sat16 (sget 0 f.kdrop port).toNat)) }
        if w then t else t.answer src key offset 0 true
      | some e => s.modFab fun f =>
        match f.takeIn (s.flit port src key offset w data e false) with
        | some g => g
        | none => { f with waiting := f.waiting ++ [s.flit port src key offset w data e false] })) := by
  rw [exec_ingressFlit]
  unfold execIngressFlit State.flitIn
  simp only [State.entryOfFlit_eq, hp, hl, hs, hk, decide_true, Bool.and_true, guarded, if_true]
  rfl

/-- A flit whose key matches no valid entry is discarded and counted (R316, R322). -/
theorem ingressFlit_drops (hp : port < 72) (hl : s.fab.portLive.getLsbD port = true) (hs : src < 16384) (hk : key < 65536)
    (he : s.entryOfFlit src key offset = none) : ∃ t, Happens s (.ingressFlit port src key offset w data) t ∧ CrewsStand s t ∧
      t = { s with crews := t.crews, fab := { s.fab with
        kdrop := t.fab.kdrop, answers := s.fab.answers ++ (if w then [] else [⟨src, key, offset, 0, true⟩]) } } ∧
      (sget 0 t.fab.kdrop port).toNat = min ((sget 0 s.fab.kdrop port).toNat + 1) 65535 := by
  have hev := ingressFlit_eq (offset := offset) (w := w) (data := data) hp hl hs hk
  simp only [he] at hev
  have hsat : sat16 (sget 0 s.fab.kdrop port).toNat < 2 ^ 16 := by unfold sat16; omega
  have hcount : (sget 0 (sset 0 s.fab.kdrop port (BitVec.ofNat 16 (sat16 (sget 0 s.fab.kdrop port).toNat))) port).toNat =
      min ((sget 0 s.fab.kdrop port).toNat + 1) 65535 := by
    rw [sget_sset, if_pos rfl, BitVec.toNat_ofNat, Nat.mod_eq_of_lt hsat]
    rfl
  cases w
  · simp only [State.answer, State.modFab, Bool.false_eq_true, if_false] at hev
    exact ⟨_, hev, crewsStand_retry rfl, rfl, hcount⟩
  · simp only [State.modFab, if_true] at hev
    refine ⟨_, hev, crewsStand_retry rfl, ?_, hcount⟩
    rw [if_pos rfl, List.append_nil]
    rfl

/-- A flit takes a slot. -/
theorem ingressFlit_takes (hp : port < 72) (hl : s.fab.portLive.getLsbD port = true) (hs : src < 16384) (hk : key < 65536) {e : Nat}
    (he : s.entryOfFlit src key offset = some e) {g : Fabric} (hg : s.fab.takeIn (s.flit port src key offset w data e false) = some g) :
    ∃ t, Happens s (.ingressFlit port src key offset w data) t ∧ CrewsStand s t ∧ t = { s with crews := t.crews, fab := g } := by
  have hev := ingressFlit_eq (offset := offset) (w := w) (data := data) hp hl hs hk
  simp only [he, State.modFab, hg] at hev
  exact ⟨_, hev, crewsStand_retry rfl, rfl⟩

/-- A flit waits upstream. -/
theorem ingressFlit_waits (hp : port < 72) (hl : s.fab.portLive.getLsbD port = true) (hs : src < 16384) (hk : key < 65536) {e : Nat}
    (he : s.entryOfFlit src key offset = some e) (hg : s.fab.takeIn (s.flit port src key offset w data e false) = none) :
    ∃ t, Happens s (.ingressFlit port src key offset w data) t ∧ CrewsStand s t ∧
      t = { s with crews := t.crews, fab := { s.fab with waiting := s.fab.waiting ++ [s.flit port src key offset w data e false] } } := by
  have hev := ingressFlit_eq (offset := offset) (w := w) (data := data) hp hl hs hk
  simp only [he, State.modFab, hg] at hev
  exact ⟨_, hev, crewsStand_retry rfl, rfl⟩

end

/-- Which slot a flit takes, or none (R310). -/
theorem Fabric.takeIn_cases (f : Fabric) (q : Ingress) :
    let mine := f.slots.filter fun r => r.port == q.port && r.entry == q.entry
    ((mine.filter fun r => !r.pool).length < 16 → f.takeIn q = some { f with slots := f.slots ++ [{ q with pool := false }] }) ∧
    (16 ≤ (mine.filter fun r => !r.pool).length → (f.slots.filter fun r => r.port == q.port && r.pool).length < 256 →
      (mine.filter (·.pool)).length < (sget 0 f.kbkt q.entry).toNat / 2 ^ 32 % 512 →
      f.takeIn q = some { f with slots := f.slots ++ [{ q with pool := true }] }) ∧
    (16 ≤ (mine.filter fun r => !r.pool).length → (sget 0 f.kbkt q.entry).toNat / 2 ^ 32 % 512 ≤ (mine.filter (·.pool)).length →
      f.takeIn q = none) := by
  intro mine
  unfold Fabric.takeIn
  refine ⟨fun h => if_pos h, fun h1 h2 h3 => ?_, fun h1 h2 => ?_⟩
  · rw [if_neg (Nat.not_lt.mpr h1)]
    exact if_pos (by simp only [Bool.and_eq_true, decide_eq_true_eq]; exact ⟨h2, h3⟩)
  · rw [if_neg (Nat.not_lt.mpr h1)]
    exact if_neg (by simp only [Bool.and_eq_true, decide_eq_true_eq, not_and]; exact fun _ => Nat.not_le.mpr (Nat.lt_succ_of_le h2))

/-! ## What a served flit leaves -/

/-- No register of the management window shows the slots of the ports. -/
theorem Fabric.readRegister_slots (f : Fabric) (xs ys : List Ingress) (o : Nat) :
    ({ f with slots := xs, waiting := ys } : Fabric).readRegister o = f.readRegister o := by
  simp only [Fabric.readRegister, Fabric.ringSlot, Fabric.portWord]

/-- The crews may be tried again after a change of each that keeps its registers. -/
theorem registersStand_retry {s t : State} (g : Crew → Crew)
    (hg : ∀ c, (g c).cid = c.cid ∧ (g c).vregs = c.vregs ∧ (g c).sregs = c.sregs ∧ (g c).fpflags = c.fpflags ∧ (g c).wb = c.wb ∧
      (g c).depth = c.depth) (h : t.crews = s.crews.map g) : RegistersStand s t.retry := by
  intro k c hc
  have hk : t.crew? k = some (g c) := by
    rw [State.crew?, h, find?_map_key Crew.cid g (fun c => (hg c).1) k, show s.crews.find? _ = some c from hc]
    rfl
  obtain ⟨-, h1, h2, h3, h4, h5⟩ := hg c
  exact ⟨(g c).untried, by rw [State.crew?_retry, hk]; rfl, h1, h2, h3, h4, h5⟩

section
variable (s : State) (q : Ingress)

@[simp] theorem State.leaveSlot_mem : (s.leaveSlot q).mem = s.mem := rfl
@[simp] theorem State.leaveSlot_crews : (s.leaveSlot q).crews = s.crews := rfl
@[simp] theorem State.leaveSlot_teams : (s.leaveSlot q).teams = s.teams := rfl
@[simp] theorem State.leaveSlot_wseq : (s.leaveSlot q).wseq = s.wseq := rfl
@[simp] theorem State.leaveSlot_ownerOf (k : Nat) : (s.leaveSlot q).ownerOf k = s.ownerOf k := rfl
@[simp] theorem State.leaveSlot_answers : (s.leaveSlot q).fab.answers = s.fab.answers := by rw [State.leaveSlot_eq]
@[simp] theorem State.leaveSlot_performed : (s.leaveSlot q).fab.performed = s.fab.performed := by rw [State.leaveSlot_eq]
@[simp] theorem State.leaveSlot_arrivals : (s.leaveSlot q).fab.arrivals = s.fab.arrivals := by rw [State.leaveSlot_eq]

theorem State.leaveSlot_mgmtRead (o : Nat) : (s.leaveSlot q).mgmtRead o = s.mgmtRead o := by
  rw [State.leaveSlot_eq]
  generalize (s.leaveSlot q).fab.slots = xs
  generalize (s.leaveSlot q).fab.waiting = ys
  simp only [State.mgmtRead, State.bay, State.part, Fabric.readRegister_slots]

@[simp] theorem State.countWrite_performed (src key : Nat) :
    sget 0 (s.countWrite src key).fab.performed (65536 * src + key) = sget 0 s.fab.performed (65536 * src + key) + 1 := by
  rw [State.countWrite, State.modFab]
  exact (sget_sset 0 _ _ _ _).trans (if_pos rfl)

/-- The counts of the key tables move nothing else (R324). -/
theorem State.countDrop_eq (miss : Bool) :
    s.countDrop q miss = { s with fab := { s.fab with keytab0 := (s.countDrop q miss).fab.keytab0, keytab1 := (s.countDrop q miss).fab.keytab1 } } := by
  unfold State.countDrop State.modFab
  extract_lets e x m y
  clear_value y
  by_cases he : 64 ≤ e
  · simp only [if_pos he]
    rfl
  · cases hc : q.copy
    · simp only [if_neg he, Bool.false_eq_true, if_false]
      rfl
    · simp only [if_neg he, if_true]
      rfl

end

/-! ## Exported memory -/

theorem State.ownerOf_revoke (s : State) (sec k : Nat) :
    (s.revoke sec).ownerOf k = if k = sec ∧ s.ownerOf k < 288 then noOwner else s.ownerOf k := by
  unfold State.revoke
  dsimp only
  split
  · rename_i h
    rw [State.ownerOf, State.giveBack_owner, sget_sset]
    by_cases hk : k = sec
    · rw [if_pos hk, if_pos ⟨hk, hk ▸ h⟩]
    · rw [if_neg hk, if_neg (fun e => hk e.1)]
      rfl
  · rename_i h
    rw [if_neg]
    rintro ⟨rfl, hk⟩
    exact h hk

theorem State.ownerOf_foldl_revoke (xs : List Nat) (s : State) (k : Nat) :
    (xs.foldl State.revoke s).ownerOf k = if k ∈ xs ∧ s.ownerOf k < 288 then noOwner else s.ownerOf k := by
  induction xs generalizing s with
  | nil => simp
  | cons x xs ih =>
    rw [List.foldl_cons, ih, State.ownerOf_revoke]
    have hno : ¬ noOwner < 288 := by decide
    by_cases hx : k = x
    · subst hx
      by_cases h : s.ownerOf k < 288
      · simp [h, hno]
      · simp [h]
    · simp [hx]

theorem mem_lineSectors {line k : Nat} : k ∈ lineSectors line ↔ k / 4 = line := by
  simp only [lineSectors, List.map_cons, List.map_nil, List.mem_cons, List.not_mem_nil, or_false]
  omega

/-- A line that is lent is held by its borrower and owned by no core; nothing else that the fabric or memory shows has moved (R316). -/
theorem State.lendLine_eq (s : State) (line src : Nat) :
    let t := s.lendLine line src
    t.mem = s.mem ∧ t.crews = s.crews ∧ t.fab = { s.fab with holders := (line, src) :: s.fab.holders.erase (line, src) } ∧
      ∀ k, t.ownerOf k = if k / 4 = line ∧ s.ownerOf k < 288 then noOwner else s.ownerOf k := by
  have hm := State.foldl_keeps State.mem State.revoke State.revoke_mem (lineSectors line) s
  have hc := State.foldl_keeps State.crews State.revoke (fun s x => by rw [State.revoke_eq]) (lineSectors line) s
  have hf := State.foldl_keeps State.fab State.revoke (fun s x => by rw [State.revoke_eq]) (lineSectors line) s
  have ho := State.ownerOf_foldl_revoke (lineSectors line) s
  have ht : s.lendLine line src = ((lineSectors line).foldl State.revoke s).modFab fun f =>
    { f with holders := (line, src) :: f.holders.erase (line, src) } := rfl
  intro t
  simp only [t, ht]
  generalize (lineSectors line).foldl State.revoke s = u at hm hc hf ho
  refine ⟨hm, hc, ?_, fun k => ?_⟩
  · rw [State.modFab_fab, hf]
  · exact (ho k).trans (by simp only [mem_lineSectors])

/-- A write event of another device (R316, Table 8.2). -/
theorem State.remoteWrite_eq (s : State) (pa : Nat) (v : DWord) :
    let t := s.remoteWrite pa 8 v
    t.mem = (s.writeBytes pa (leBytes 8 v.toNat)).mem ∧ t.crews = (s.clearResv (wordsOf (placed pa (leBytes 8 v.toNat)))).crews ∧
      t.fab = { s.fab with holders := t.fab.holders } ∧ t.wseq = (s.bumpWseq (lineOf pa)).wseq := by
  have ht : s.remoteWrite pa 8 v = (s.homeWrite 0 (placed pa (leBytes 8 v.toNat))).bumpWseq (lineOf pa) := rfl
  have hw := s.homeWrite_written 0 (placed pa (leBytes 8 v.toNat))
  have hm := s.homeWrite_mem 0 (placed pa (leBytes 8 v.toNat))
  have hc := s.homeWrite_crews 0 (placed pa (leBytes 8 v.toNat))
  intro t
  simp only [t, ht]
  generalize s.homeWrite 0 (placed pa (leBytes 8 v.toNat)) = u at hw hm hc
  have hf : u.fab = { s.fab with holders := u.fab.holders } := by rw [hw]
  have hq : u.wseq = s.wseq := by rw [hw]
  refine ⟨hm.trans (s.writePairs_placed _ _), hc, hf, ?_⟩
  rw [State.bumpWseq_wseq, State.bumpWseq_wseq, hq]

end Sys2Proof.Machine
end

section
/-! The requests of the fabric that hold a slot, and the arrivals on barrier objects (R70, R316, R319, R369). -/

namespace Sys2Proof.Machine

/-! ## Plain requests -/

/-- A flit is found by what it asks (R316). -/
theorem State.slotOf_fields {s : State} {src key offset : Nat} {w : Bool} {data : DWord} {q : Ingress}
    (h : s.slotOf src key offset w data = some q) : q.src = src ∧ q.key = key ∧ q.offset = offset ∧ q.data = data := by
  have := List.find?_some h
  simp only [Bool.and_eq_true, beq_iff_eq] at this
  obtain ⟨⟨⟨⟨⟨h1, h2⟩, h3⟩, -⟩, h4⟩, -⟩ := this
  exact ⟨h1, h2, h3, h4⟩

/-- One more write of a source under a key has been performed, or none (R319). -/
def CountsWrites (s t : State) (src key : Nat) (n : Word) : Prop :=
  sget 0 t.fab.performed (65536 * src + key) = sget 0 s.fab.performed (65536 * src + key) + n

section
variable {s : State} {src key offset : Nat} {w : Bool} {data : DWord} {q : Ingress}

/-- A request that is no arrival is served by the flit that holds the slot. -/
theorem exportRequest_eq (hq : s.slotOf src key offset w data = some q) (hw : ¬ (w = true ∧ isArrival offset = true)) :
    exec (.exportRequest src key offset w data) s = fire s (s.servePlain q 8 w) := by
  rw [exec_exportRequest, execExportRequest, State.exportReq, if_neg (by simpa using hw), hq]

/-- A read of the management window (R369). -/
theorem mgmt_read (hq : s.slotOf src key offset false data = some q) (he : q.entry = 64) :
    ∃ t, Happens s (.exportRequest src key offset false data) t ∧ CrewsStand s t ∧ SlotLeft s t q ∧ t.mem = s.mem ∧
      t.fab.answers = s.fab.answers ++ [⟨src, key, offset, s.mgmtRead (offset - mgmtBase), false⟩] := by
  obtain ⟨hsrc, hkey, hoff, -⟩ := State.slotOf_fields hq
  have hev := exportRequest_eq hq (by simp)
  rw [State.servePlain, if_pos (by rw [he]; rfl), if_neg Bool.false_ne_true, State.mgmtReadN, if_pos rfl, State.leaveSlot_mgmtRead,
    hsrc, hkey, hoff] at hev
  refine ⟨_, hev, crewsStand_retry rfl, slotLeft_of rfl rfl, rfl, ?_⟩
  exact congrArg (· ++ [_]) (State.leaveSlot_answers s q)

/-- A write of the management window: of a register, or of none (R369). -/
theorem mgmt_write (hq : s.slotOf src key offset true data = some q) (ha : isArrival offset = false) (he : q.entry = 64) :
    exec (.exportRequest src key offset true data) s =
      .next ((((s.leaveSlot q).mgmtWrite (offset - mgmtBase) 8 data).getD (s.leaveSlot q)).countWrite src key).retry := by
  obtain ⟨hsrc, hkey, hoff, hdata⟩ := State.slotOf_fields hq
  rw [exportRequest_eq hq (by simp [ha]), State.servePlain, if_pos (by rw [he]; rfl), if_pos rfl, hsrc, hkey, hoff, hdata]
  rfl

/-- A write of exported memory (R316). -/
theorem export_write (hq : s.slotOf src key offset true data = some q) (ha : isArrival offset = false) (he : q.entry ≠ 64) {pa : Nat}
    (hpa : q.place = some pa) (hmay : s.mayWriteHome pa 8 = true) :
    ∃ t, Happens s (.exportRequest src key offset true data) t ∧ CountsWrites s t src key 1 ∧ RegistersStand s t ∧ SlotLeft s t q ∧
      t.readNat pa 8 = data.toNat ∧ sget 0 t.wseq (lineOf pa) = sget 0 s.wseq (lineOf pa) + 1 ∧
      MemoryStandsBut s t (fun a => pa ≤ a ∧ a < pa + 8) ∧ t.fab.answers = s.fab.answers := by
  obtain ⟨hsrc, hkey, -, hdata⟩ := State.slotOf_fields hq
  have hev := exportRequest_eq hq (by simp [ha])
  rw [State.servePlain, if_neg (by simpa using he), hpa, hsrc, hkey, hdata] at hev
  simp only [if_true, hmay, guarded] at hev
  obtain ⟨hm, hc, hf, hs⟩ := (s.leaveSlot q).remoteWrite_eq pa data
  generalize (s.leaveSlot q).remoteWrite pa 8 data = u at hev hm hc hf hs
  have hslots : u.fab.slots = (s.leaveSlot q).fab.slots := by rw [hf]
  have hwaiting : u.fab.waiting = (s.leaveSlot q).fab.waiting := by rw [hf]
  have hanswers : u.fab.answers = s.fab.answers := by rw [hf, State.leaveSlot_answers]
  have hperf : u.fab.performed = s.fab.performed := by rw [hf, State.leaveSlot_performed]
  have hmem : (u.countWrite src key).retry.mem = (s.writeBytes pa (leBytes 8 data.toNat)).mem := hm
  refine ⟨_, hev, ?_, ?_, slotLeft_of hslots hwaiting, ?_, ?_, fun a ha => ?_, hanswers⟩
  · exact (State.countWrite_performed u src key).trans (by rw [hperf])
  · exact registersStand_retry (fun c => { c with resv := c.resv.filter fun r => !(wordsOf (placed pa (leBytes 8 data.toNat))).contains r.word })
      (fun c => ⟨rfl, rfl, rfl, rfl, rfl, rfl⟩) hc
  · have h := s.readNat_writeBytes pa 8 data.toNat
    rw [Nat.mod_eq_of_lt (show data.toNat < 256 ^ 8 from data.isLt)] at h
    rw [← h]
    exact congrArg (fun m => leNat (sgetList 0 m pa 8)) hmem
  · have hw : (u.countWrite src key).retry.wseq = (s.bumpWseq (lineOf pa)).wseq := hs
    rw [hw]
    exact (sget_sset 0 _ _ _ _).trans (if_pos rfl)
  · have h := s.readByte_writeBytes pa a (leBytes 8 data.toNat)
    rw [length_leBytes, if_neg ha] at h
    rw [← h]
    exact congrArg (fun m => sget 0 m a) hmem

/-- A read of exported memory (R316). -/
theorem export_read (hq : s.slotOf src key offset false data = some q) (he : q.entry ≠ 64) {pa : Nat} (hpa : q.place = some pa)
    (hmay : s.mayRecallLine (lineOf pa) = true) (hpend : ∀ x ∈ accessWords pa 8, s.homePending x = false) :
    ∃ t, Happens s (.exportRequest src key offset false data) t ∧ RegistersStand s t ∧ SlotLeft s t q ∧ t.mem = s.mem ∧
      (lineOf pa, src) ∈ t.fab.holders ∧
      (∀ k, t.ownerOf k = if k / 4 = lineOf pa ∧ s.ownerOf k < 288 then noOwner else s.ownerOf k) ∧
      t.fab.answers = s.fab.answers ++ [⟨src, key, offset, BitVec.ofNat 64 (s.readNat pa 8), s.poisoned pa 8⟩] := by
  obtain ⟨hsrc, hkey, hoff, -⟩ := State.slotOf_fields hq
  have hev := exportRequest_eq hq (by simp)
  have hall : ((accessWords pa 8).all fun x => !s.homePending x) = true :=
    List.all_eq_true.mpr fun x hx => by rw [hpend x hx]; rfl
  rw [State.servePlain, if_neg (by simpa using he), hpa, hsrc, hkey, hoff] at hev
  simp only [Bool.false_eq_true, if_false, hmay, hall, Bool.and_self, guarded, if_true] at hev
  obtain ⟨hm, hc, hf, ho⟩ := (s.leaveSlot q).lendLine_eq (lineOf pa) src
  generalize (s.leaveSlot q).lendLine (lineOf pa) src = u at hev hm hc hf ho
  have hslots : u.fab.slots = (s.leaveSlot q).fab.slots := by rw [hf]
  have hwaiting : u.fab.waiting = (s.leaveSlot q).fab.waiting := by rw [hf]
  have hanswers : u.fab.answers = s.fab.answers := by rw [hf, State.leaveSlot_answers]
  refine ⟨_, hev, registersStand_retry id (fun c => ⟨rfl, rfl, rfl, rfl, rfl, rfl⟩) ?_, slotLeft_of hslots hwaiting, hm, ?_, ho, ?_⟩
  · rw [List.map_id]
    exact hc
  · have h : u.fab.holders = (lineOf pa, src) :: (s.leaveSlot q).fab.holders.erase (lineOf pa, src) := by rw [hf]
    exact h ▸ List.mem_cons_self
  · exact congrArg (· ++ [_]) hanswers

/-- A request that hits nothing is dropped, or answered with poison (R316). -/
theorem export_miss (hq : s.slotOf src key offset w data = some q) (hw : ¬ (w = true ∧ isArrival offset = true)) (he : q.entry ≠ 64)
    (hpa : q.place = none) :
    ∃ t, Happens s (.exportRequest src key offset w data) t ∧ CountsWrites s t src key (if w then 1 else 0) ∧ CrewsStand s t ∧ SlotLeft s t q ∧
      t.mem = s.mem ∧ t.fab.answers = s.fab.answers ++ (if w then [] else [⟨src, key, offset, 0, true⟩]) := by
  obtain ⟨hsrc, hkey, hoff, -⟩ := State.slotOf_fields hq
  have hev := exportRequest_eq hq hw
  rw [State.servePlain, if_neg (by simpa using he), hpa, hsrc, hkey, hoff] at hev
  cases w
  · simp only [Bool.false_eq_true, if_false] at hev ⊢
    have hd := ((s.leaveSlot q).answer src key offset 0 true).countDrop_eq q true
    generalize ((s.leaveSlot q).answer src key offset 0 true).countDrop q true = u at hev hd
    rw [hd] at hev
    refine ⟨_, hev, ?_, crewsStand_retry rfl, slotLeft_of rfl rfl, rfl, ?_⟩
    · exact (congrArg (sget 0 · (65536 * src + key)) (State.leaveSlot_performed s q)).trans (BitVec.add_zero _).symm
    · exact congrArg (· ++ [_]) (State.leaveSlot_answers s q)
  · simp only [if_true] at hev ⊢
    have hd := ((s.leaveSlot q).countWrite src key).countDrop_eq q true
    generalize ((s.leaveSlot q).countWrite src key).countDrop q true = u at hev hd
    rw [hd] at hev
    refine ⟨_, hev, ?_, crewsStand_retry rfl, slotLeft_of rfl rfl, rfl, ?_⟩
    · exact (State.countWrite_performed _ src key).trans (by rw [State.leaveSlot_performed])
    · exact (State.leaveSlot_answers s q).trans (List.append_nil _).symm

/-- A read of 4 bytes of the management window (R369). -/
theorem serveAsk_half (hq : s.fab.slots.find? (fun r => r.src == src && r.key == key && r.offset == offset && r.ask.isSome) = some q)
    (hask : q.ask = some (.half false)) (he : q.entry = 64) (h4 : offset % 4 = 0) (hbase : mgmtBase ≤ offset) :
    ∃ t, s.serveAsk src key offset = some t ∧ t.mem = s.mem ∧ t.crews = s.crews ∧
      t.fab.answers = s.fab.answers ++ [⟨src, key, offset, BitVec.ofNat 64
        ((s.mgmtRead ((offset - mgmtBase) / 8 * 8)).toNat / 2 ^ (8 * ((offset - mgmtBase) % 8)) % 2 ^ 32), false⟩] := by
  have hfields := List.find?_some hq
  simp only [Bool.and_eq_true, beq_iff_eq] at hfields
  obtain ⟨⟨⟨hsrc, hkey⟩, hoff⟩, -⟩ := hfields
  have hserve : s.serveAsk src key offset = s.servePlain q 4 false := by
    unfold State.serveAsk
    simp only [hq, hask]
  have hlt : (offset - mgmtBase) % 8 ≤ 4 := by
    have hb : mgmtBase % 4 = 0 := by decide
    omega
  have hread : (s.leaveSlot q).mgmtReadN (offset - mgmtBase) 4 = BitVec.ofNat 64
      ((s.mgmtRead ((offset - mgmtBase) / 8 * 8)).toNat / 2 ^ (8 * ((offset - mgmtBase) % 8)) % 2 ^ 32) := by
    rw [State.mgmtReadN, if_neg (by decide), State.leaveSlot_mgmtRead, drop_leBytes, take_leBytes, leNat_leBytes,
      Nat.min_eq_left (by omega), Nat.pow_mul]
    rfl
  rw [State.servePlain, if_pos (by rw [he]; rfl), if_neg Bool.false_ne_true, hsrc, hkey, hoff, hread] at hserve
  exact ⟨_, hserve, rfl, rfl, congrArg (· ++ [_]) (State.leaveSlot_answers s q)⟩

end

/-! ## Arrivals -/

section
variable {s : State} {asid src key count : Nat} {value : DWord} {q : Ingress}

theorem remoteArrive_eq (hq : s.slotOf src key (arrivalOffset asid) true value = some q) :
    exec (.remoteArrive asid src key count value) s = .next (State.retry (if s.partOf asid = q.part then
        (s.leaveSlot q).modFab fun f => { f with arrivals := f.arrivals ++ [⟨asid, value, src, key, count⟩] }
      else ((s.leaveSlot q).countDrop q false).countWrite src key)) := by
  rw [exec_remoteArrive, execRemoteArrive, State.remoteArrive, hq]
  simp only [beq_iff_eq]
  rfl

/-- An arrival under a key of the context's partition is held (R70, R319). -/
theorem remoteArrive_holds (hq : s.slotOf src key (arrivalOffset asid) true value = some q) (hpart : s.partOf asid = q.part) :
    ∃ t, Happens s (.remoteArrive asid src key count value) t ∧ CrewsStand s t ∧ SlotLeft s t q ∧ t.teams = s.teams ∧
      t.fab.arrivals = s.fab.arrivals ++ [⟨asid, value, src, key, count⟩] ∧ t.fab.performed = s.fab.performed := by
  have hev := remoteArrive_eq (count := count) hq
  rw [if_pos hpart] at hev
  exact ⟨_, hev, crewsStand_retry rfl, slotLeft_of rfl rfl, rfl, congrArg (· ++ [_]) (State.leaveSlot_arrivals s q),
    State.leaveSlot_performed s q⟩

/-- Another is discarded, and counts as a write (R322, R324). -/
theorem remoteArrive_discards (hq : s.slotOf src key (arrivalOffset asid) true value = some q) (hpart : s.partOf asid ≠ q.part) :
    ∃ t, Happens s (.remoteArrive asid src key count value) t ∧ CrewsStand s t ∧ SlotLeft s t q ∧ t.teams = s.teams ∧
      t.fab.arrivals = s.fab.arrivals ∧ CountsWrites s t src key 1 := by
  have hev := remoteArrive_eq (count := count) hq
  rw [if_neg hpart] at hev
  have hd := (s.leaveSlot q).countDrop_eq q false
  generalize (s.leaveSlot q).countDrop q false = u at hev hd
  rw [hd] at hev
  refine ⟨_, hev, crewsStand_retry rfl, slotLeft_of rfl rfl, rfl, State.leaveSlot_arrivals s q, ?_⟩
  exact (State.countWrite_performed _ src key).trans (by rw [State.leaveSlot_performed])

end

section
variable {s : State} {n : Nat} {a : HeldArrival}

/-- The state in which a held arrival is performed: it is held no more, and counts as a write (R319). -/
def State.performing (s : State) (n : Nat) (a : HeldArrival) : State :=
  (s.modFab fun f => { f with arrivals := f.arrivals.eraseIdx n }).countWrite a.src a.key

theorem arrivalPerform_eq (ha : s.fab.arrivals[n]? = some a)
    (hdue : (sget 0 s.fab.performed (65536 * a.src + a.key) - BitVec.ofNat 32 a.count).msb = false) (hin : s.steeringOut a.asid = false) :
    exec (.arrivalPerform n) s = .next (State.retry (match s.arrivalObj a.asid a.value with
      | some b => (s.performing n a).arriveFar b
      | none => (s.performing n a).interrupt a.asid 5 (a.value.toNat % 65536))) := by
  have hd : s.arrivalDue a = true := by
    rw [State.arrivalDue]
    simp only [hdue, Bool.not_false]
  have hobj : (s.performing n a).arrivalObj a.asid a.value = s.arrivalObj a.asid a.value := rfl
  rw [exec_arrivalPerform, execArrivalPerform, State.arrivalPerform, ha]
  simp only [hd, hin, Bool.not_false, Bool.and_self, guarded, if_true]
  rw [← hobj]
  rfl

theorem State.arriveFar_fab (s : State) (b : BarObj) : (s.arriveFar b).fab = s.fab := by
  rw [State.arriveFar, State.arrive, State.evaluate_fab]
  rfl

theorem State.arriveFar_mem (s : State) (b : BarObj) : (s.arriveFar b).mem = s.mem := by
  rw [State.arriveFar, State.arrive, State.evaluate_mem]
  rfl

/-- An arrival from the fabric is an arrival (R70). -/
theorem State.arriveFar_evaluated {b : BarObj} (hx : (s.team? b.lid b.team).isSome) :
    Evaluated s (s.arriveFar b) b (s.barField b 0 2) ((s.barField b 2 2 + 1) % 2 ^ 16) (s.barField b 4 4) (s.barField b 8 4) := by
  have h := State.arrive_evaluated (s := s.putBar { b with far := true }) (b := { b with far := true }) hx
  exact ⟨h.expAAfter, h.arrAfter, h.expBAfter, h.rcvBAfter, h.phase, h.bytes⟩

/-- A held arrival falls on its object. -/
theorem arrivalPerform_arrives {o : BarObj} (hev : exec (.arrivalPerform n) s = .next ((s.performing n a).arriveFar o).retry) :
    ∃ t, Happens s (.arrivalPerform n) t ∧ t.fab.arrivals = s.fab.arrivals.eraseIdx n ∧ t.mem = s.mem ∧
      ∀ x, s.team? o.lid o.team = some x →
        Evaluated s t o (s.barField o 0 2) ((s.barField o 2 2 + 1) % 2 ^ 16) (s.barField o 4 4) (s.barField o 8 4) := by
  have hf := State.arriveFar_fab (s.performing n a) o
  have hm := State.arriveFar_mem (s.performing n a) o
  have he (x : Team) (hx : s.team? o.lid o.team = some x) := State.arriveFar_evaluated (s := s.performing n a) (b := o)
    (Option.isSome_iff_exists.mpr ⟨x, hx⟩)
  generalize (s.performing n a).arriveFar o = u at hev hf hm he
  exact ⟨u.retry, hev, congrArg Fabric.arrivals hf, hm, fun x hx => (he x hx).of_teams rfl rfl⟩

/-- A message that is posted waits in its flow; nothing but its place has moved (R317). -/
theorem State.post_eq (s : State) (addr : DWord) (key : Half) (bs : List Byte) :
    let t := s.post addr key bs []
    t.mem = s.mem ∧ t.teams = s.teams ∧ t.fab.arrivals = s.fab.arrivals ∧
      ∃ q, t.fab.strict = s.fab.strict ++ [q] ∧ q.msg = ⟨addr, key, bs, []⟩ := ⟨rfl, rfl, rfl, _, rfl, rfl⟩

/-- One without an object posts an interrupt, where the context has an address for it (R70, R71). -/
theorem arrivalPerform_interrupts (hev : exec (.arrivalPerform n) s =
      .next ((s.performing n a).interrupt a.asid 5 (a.value.toNat % 65536)).retry) :
    ∃ t, Happens s (.arrivalPerform n) t ∧ t.fab.arrivals = s.fab.arrivals.eraseIdx n ∧ t.mem = s.mem ∧
      ∀ y, s.context? a.asid = some y → y.irqaddr ≠ 0 → t.teams = s.teams ∧
        ∃ q, t.fab.strict = s.fab.strict ++ [q] ∧ q.msg = ⟨y.irqaddr, y.irqkey, leBytes 4 (5 * 2 ^ 28 + a.value.toNat % 2 ^ 16), []⟩ := by
  have hctx : (s.performing n a).context? a.asid = s.context? a.asid := rfl
  have hlow : a.value.toNat % 65536 % 2 ^ 28 = a.value.toNat % 2 ^ 16 := by omega
  rw [State.interrupt, hctx, hlow] at hev
  cases hy : s.context? a.asid with
  | none =>
    rw [hy] at hev
    exact ⟨_, hev, rfl, rfl, nofun⟩
  | some x =>
    rw [hy] at hev
    by_cases h0 : x.irqaddr = 0
    · simp only [h0, if_true] at hev
      exact ⟨_, hev, rfl, rfl, fun y h hne => absurd h0 (Option.some.inj h ▸ hne)⟩
    · simp only [h0, if_false] at hev
      obtain ⟨hm, ht, ha, q, hq, hmsg⟩ := (s.performing n a).post_eq x.irqaddr x.irqkey (leBytes 4 (5 * 2 ^ 28 + a.value.toNat % 2 ^ 16))
      generalize (s.performing n a).post x.irqaddr x.irqkey (leBytes 4 (5 * 2 ^ 28 + a.value.toNat % 2 ^ 16)) [] = u at hev hm ht ha hq
      exact ⟨u.retry, hev, ha, hm, fun y h _ => ⟨ht, q, hq, Option.some.inj h ▸ hmsg⟩⟩

end

/-- Settles O52: each clause is one answer of the ingress, from a flit that finds its slot to an arrival that falls on its object. -/
theorem fabricRequests : Obligations.FabricRequests := by
  intro s entry left
  refine ⟨fun port src key offset w data hp hl hs hk => ⟨ingressFlit_drops hp hl hs hk, fun e he => ?_⟩, fun src key offset w data q hq hw => ?_,
    fun src key offset q hq hask he h4 hb => serveAsk_half hq hask he h4 hb,
    fun asid src key count value q hq => ⟨remoteArrive_holds hq, remoteArrive_discards hq⟩, fun n a ha hdue hin => ?_⟩
  · obtain ⟨h1, h2, h3⟩ := s.fab.takeIn_cases (s.flit port src key offset w data e false)
    exact ⟨fun h => ingressFlit_takes hp hl hs hk he (h1 h), fun g1 g2 g3 => ingressFlit_takes hp hl hs hk he (h2 g1 g2 g3),
      fun g1 g2 => ingressFlit_waits hp hl hs hk he (h3 g1 g2)⟩
  · refine ⟨fun he => ⟨fun hr => ?_, fun hr hnone => ?_, fun u hr hu => ?_⟩, fun he => ⟨fun pa hpa hr hmay => ?_, fun pa hpa hr hmay hpend => ?_, fun hpa => ?_⟩⟩
    · subst hr
      exact mgmt_read hq he
    · subst hr
      have hev := mgmt_write hq (by simpa using hw) he
      rw [hnone] at hev
      exact ⟨_, hev, crewsStand_retry rfl, slotLeft_of rfl rfl, rfl, (State.countWrite_performed _ src key).trans (by rw [Option.getD_none, State.leaveSlot_performed]; rfl)⟩
    · subst hr
      have hev := mgmt_write hq (by simpa using hw) he
      rw [hu] at hev
      exact ⟨_, hev, rfl⟩
    · subst hr
      exact export_write hq (by simpa using hw) he hpa hmay
    · subst hr
      exact export_read hq he hpa hmay hpend
    · exact export_miss hq hw he hpa
  · have hev := arrivalPerform_eq ha hdue hin
    cases ho : s.arrivalObj a.asid a.value with
    | none =>
      rw [ho] at hev
      obtain ⟨t, h, h1, h2, h3⟩ := arrivalPerform_interrupts hev
      exact ⟨t, h, h1, h2, (fun o x hno => by cases hno), fun y _ => h3 y⟩
    | some o =>
      rw [ho] at hev
      obtain ⟨t, h, h1, h2, h3⟩ := arrivalPerform_arrives hev
      exact ⟨t, h, h1, h2, (fun o' x heq hx => by cases heq; exact h3 x hx), fun y hno => by cases hno⟩

end Sys2Proof.Machine
end

section
/-! How teams and launches end, and when a held launch is due (R68, R184, R262). -/

namespace Sys2Proof.Machine

/-! ## Barrier entries that go free -/

/-- Barrier entries have gone free, and nothing else has moved but the splits that waited for them (R184). -/
structure BarsFreed (s t : State) : Prop where
  rest : t = { s with bars := t.bars, barGen := t.barGen, crews := t.crews }
  bars : ∀ b ∈ t.bars, b ∈ s.bars

theorem BarsFreed.refl (s : State) : BarsFreed s s := ⟨rfl, fun _ h => h⟩

theorem BarsFreed.trans {s t u : State} (h : BarsFreed s t) (g : BarsFreed t u) : BarsFreed s u :=
  ⟨by rw [g.rest, h.rest], fun b hb => h.bars b (g.bars b hb)⟩

theorem State.freeBar_freed (s : State) (x : BarObj) : BarsFreed s (s.freeBar x) ∧ x ∉ (s.freeBar x).bars := by
  have h : (s.freeBar x).bars = s.bars.filter fun y => !(y.core == x.core && y.idx == x.idx) := rfl
  refine ⟨⟨rfl, fun b hb => (List.mem_filter.mp (h ▸ hb)).1⟩, fun hx => ?_⟩
  rw [h] at hx
  have := (List.mem_filter.mp hx).2
  simp at this

theorem State.foldl_freeBar (xs : List BarObj) (s : State) :
    BarsFreed s (xs.foldl (fun s b => s.freeBar b) s) ∧ ∀ x ∈ xs, x ∉ (xs.foldl (fun s b => s.freeBar b) s).bars := by
  induction xs generalizing s with
  | nil => exact ⟨.refl s, nofun⟩
  | cons x xs ih =>
    obtain ⟨h1, h2⟩ := s.freeBar_freed x
    obtain ⟨g1, g2⟩ := ih (s.freeBar x)
    refine ⟨h1.trans g1, fun y hy => ?_⟩
    rcases List.mem_cons.mp hy with rfl | hy
    · exact fun hm => h2 (g1.bars y hm)
    · exact g2 y hy

/-- No entry of a team is left once they go free. -/
theorem State.freeTeamBars_freed (s : State) (lid tid : Nat) :
    BarsFreed s (s.freeTeamBars lid tid) ∧ ∀ b ∈ (s.freeTeamBars lid tid).bars, ¬ (b.lid = lid ∧ b.team = tid) := by
  obtain ⟨h1, h2⟩ := s.foldl_freeBar (s.bars.filter fun b => b.lid == lid && b.team == tid)
  refine ⟨h1, fun b hb hk => ?_⟩
  exact h2 b (List.mem_filter.mpr ⟨h1.bars b hb, by simpa using hk⟩) hb

theorem State.foldl_freeTeamBars (xs : List Team) (s : State) :
    let t := xs.foldl (fun s t => s.freeTeamBars t.lid t.tid) s
    BarsFreed s t ∧ ∀ x ∈ xs, ∀ b ∈ t.bars, ¬ (b.lid = x.lid ∧ b.team = x.tid) := by
  induction xs generalizing s with
  | nil => exact ⟨.refl s, nofun⟩
  | cons x xs ih =>
    obtain ⟨h1, h2⟩ := s.freeTeamBars_freed x.lid x.tid
    obtain ⟨g1, g2⟩ := ih (s.freeTeamBars x.lid x.tid)
    refine ⟨h1.trans g1, fun y hy b hb => ?_⟩
    rcases List.mem_cons.mp hy with rfl | hy
    · exact h2 b (g1.bars b hb)
    · exact g2 y hy b hb

/-! ## Allocations that are kept no longer -/

/-- The teams of a launch whose allocation is kept no longer (R68). -/
def State.letGo (s : State) (l : Launch) : List Team := s.teams.filter fun t => t.lid == l.lid && t.kept && !s.mustKeep l t.tid

theorem State.freeKept_eq (s : State) (l : Launch) :
    let t := s.freeKept l
    t = { s with bars := t.bars, barGen := t.barGen, crews := t.crews, teams := s.teams.filter fun t => !(s.letGo l).contains t } ∧
      ∀ x ∈ s.letGo l, ∀ b ∈ t.bars, ¬ (b.lid = x.lid ∧ b.team = x.tid) := by
  obtain ⟨h1, h2⟩ := State.foldl_freeTeamBars (s.letGo l) s
  have ht : s.freeKept l = { (s.letGo l).foldl (fun s t => s.freeTeamBars t.lid t.tid) s with
      teams := ((s.letGo l).foldl (fun s t => s.freeTeamBars t.lid t.tid) s).teams.filter fun t => !(s.letGo l).contains t } := rfl
  generalize (s.letGo l).foldl (fun s t => s.freeTeamBars t.lid t.tid) s = u at h1 h2 ht
  intro t
  simp only [t, ht]
  refine ⟨?_, h2⟩
  rw [h1.rest]

/-! ## A team retires -/

section
variable {s : State} {lid tid : Nat} {l : Launch} {x : Team}

/-- A team that has retired. -/
def Team.retire (t : Team) : Team := { t with phase := .retiredKept }

/-- A launch of which one more team has retired. -/
def Launch.count (l : Launch) : Launch :=
  { l with retired := l.retired + 1, phase := if l.record.teams ≤ l.retired + 1 then .draining else l.phase }

/-- The team has retired, and its allocation is not yet judged. -/
def State.retired (s : State) (lid tid : Nat) : State :=
  (State.modTeam { s with tiles := s.tiles.filter fun x => !(x.lid == lid && x.team == tid) } lid tid Team.retire).modLaunch lid Launch.count

theorem State.launch?_modLaunch (h : s.launch? lid = some l) (f : Launch → Launch) (hf : ∀ l, (f l).lid = l.lid) :
    (s.modLaunch lid f).launch? lid = some (f l) := by
  have hl : l.lid = lid := by simpa using List.find?_some h
  have := find?_map_key Launch.lid (fun y => if y.lid == lid then f y else y) (by intro y; split <;> simp [hf]) lid s.launches
  simpa [State.launch?, State.modLaunch, show s.launches.find? _ = some l from h, hl] using this

theorem State.retired_team? (hx : s.team? lid tid = some x) : (s.retired lid tid).team? lid tid = some x.retire := by
  have h := State.team?_modTeam { s with tiles := s.tiles.filter fun x => !(x.lid == lid && x.team == tid) } lid tid lid tid Team.retire
    fun _ => ⟨rfl, rfl⟩
  refine h.trans ?_
  rw [show State.team? { s with tiles := s.tiles.filter fun x => !(x.lid == lid && x.team == tid) } lid tid = some x from hx]
  simp [State.team?_key hx]

/-- The retirement of a team (R68). -/
theorem teamRetire_eq (hl : s.launch? lid = some l) (hx : s.team? lid tid = some x) (hphase : x.phase = .resident) (hleft : x.crewsLeft = 0)
    (hcrews : ∀ c ∈ s.crews, ¬ (c.lid = lid ∧ c.team = tid)) (hcopies : ∀ q ∈ s.copies, ¬ (q.lid = lid ∧ q.team = tid))
    (hmats : ∀ q ∈ s.mats, ¬ (q.lid = lid ∧ q.team = tid)) (horph : s.orphans (fun core asid => core == x.core && asid == l.asid) = false) :
    exec (.teamRetire lid tid) s = .next ((s.retired lid tid).freeKept l).retry := by
  have hkept : x.kept = false := by rw [Team.kept, hphase]
  have hbusy : s.teamBusy lid tid = false := by
    simp only [State.teamBusy, Bool.or_eq_false_iff, List.any_eq_false, Bool.and_eq_true, beq_iff_eq]
    exact ⟨hcopies, hmats⟩
  have hgone : (s.crews.all fun c => !(c.lid == lid && c.team == tid)) = true := by
    simpa only [List.all_eq_true, Bool.not_eq_true', ← Bool.not_eq_true, Bool.and_eq_true, beq_iff_eq] using hcrews
  rw [exec_teamRetire, execTeamRetire, State.teamRetire, hl, hx]
  simp only [hkept, hphase, hleft, hbusy, hgone, horph, beq_self_eq_true, Bool.not_false, Bool.and_self, guarded, if_true,
    Bool.false_eq_true, if_false]
  rfl

/-- A child that was launched with DV = 1 keeps the allocation of its launcher's team (R68). -/
theorem State.retired_mustKeep (hl : s.launch? lid = some l) (h : ∃ k ∈ s.launches, k.parent = some lid ∧ k.ptid = tid ∧ k.record.done ≠ none) :
    (s.retired lid tid).mustKeep l tid = true := by
  obtain ⟨k, hk, h1, h2, h3⟩ := h
  have hlid : l.lid = lid := by simpa using List.find?_some hl
  have hchild : ((s.retired lid tid).launches.any fun y => y.parent == some l.lid && y.ptid == tid && y.record.done.isSome) = true := by
    rw [List.any_eq_true]
    refine ⟨if k.lid == lid then k.count else k, List.mem_map.mpr ⟨k, hk, rfl⟩, ?_⟩
    have hd : k.record.done.isSome = true := Option.isSome_iff_ne_none.mpr h3
    split <;> simp [Launch.count, h1, h2, hd, hlid]
  simp only [State.mustKeep, State.keeps, hchild, Bool.or_true, Bool.true_or]

/-- Nothing keeps the allocation of a team without HOLD, such a child and squad-window accesses (R68, R139). -/
theorem State.retired_mayGo (hl : s.launch? lid = some l) (hhold : l.record.hold = false)
    (hchild : ∀ k ∈ s.launches, ¬ (k.parent = some lid ∧ k.ptid = tid ∧ k.record.done ≠ none))
    (hloads : ∀ c ∈ s.crews, c.lid = lid → ∀ q ∈ c.loads, q.space ≠ .squad) (hheld : ∀ h ∈ s.held, ¬ (h.lid = lid ∧ h.team = tid)) :
    (s.retired lid tid).mustKeep l tid = false := by
  have hlid : l.lid = lid := by simpa using List.find?_some hl
  have h1 : ((s.retired lid tid).launches.any fun y => y.parent == some l.lid && y.ptid == tid && y.record.done.isSome) = false := by
    rw [List.any_eq_false]
    intro y hy
    obtain ⟨k, hk, rfl⟩ := List.mem_map.mp hy
    have := hchild k hk
    rw [← Option.isSome_iff_ne_none] at this
    split <;> simpa [Launch.count, hlid, and_assoc] using this
  have h2 : ((s.retired lid tid).held.any fun h => h.lid == l.lid && h.team == tid) = false := by
    rw [List.any_eq_false]
    intro h hh
    simpa [hlid] using hheld h hh
  have h3 : ((s.retired lid tid).crews.any fun c => c.lid == l.lid && c.loads.any fun q =>
      q.space == .squad && q.lanes.any fun a => a.team == tid && a.got.isNone) = false := by
    rw [List.any_eq_false]
    intro c hc
    simp only [Bool.and_eq_true, beq_iff_eq, List.any_eq_true, not_and, not_exists, hlid]
    exact fun hcl q hq hs => absurd hs (hloads c hc hcl q hq)
  rw [State.mustKeep, h2, h3, State.keeps, hhold, h1]
  rfl

/-- A retired team whose allocation is not kept is let go. -/
theorem State.retired_letGo (hl : s.launch? lid = some l) (hgo : (s.retired lid tid).mustKeep l tid = false) {y : Team}
    (hy : y ∈ (s.retired lid tid).teams) (h1 : y.lid = lid) (h2 : y.tid = tid) : y ∈ (s.retired lid tid).letGo l := by
  have hlid : l.lid = lid := by simpa using List.find?_some hl
  obtain ⟨z, hz, rfl⟩ := List.mem_map.mp hy
  refine List.mem_filter.mpr ⟨hy, ?_⟩
  have hkey : (z.lid == lid && z.tid == tid) = true := by
    by_contra hne
    rw [if_neg hne] at h1 h2
    simp [h1, h2] at hne
  rw [if_pos hkey] at h1 h2 ⊢
  simp [Team.retire, Team.kept] at h1 h2 ⊢
  simp [h1, h2, hlid, hgo]

/-- TEAM_RETIRE (R68). -/
theorem teamRetire_retires (hl : s.launch? lid = some l) (hx : s.team? lid tid = some x)
    (hev : exec (.teamRetire lid tid) s = .next ((s.retired lid tid).freeKept l).retry) :
    ∃ (t : State) (m : Launch), Happens s (.teamRetire lid tid) t ∧ t.launch? lid = some m ∧ m.retired = l.retired + 1 ∧ m.record = l.record ∧
      m.phase = (if l.record.teams ≤ l.retired + 1 then .draining else l.phase) ∧
      t.tiles = s.tiles.filter (fun y => !(y.lid == lid && y.team == tid)) ∧ t.mem = s.mem ∧
      (l.record.hold = false → (∀ k ∈ s.launches, ¬ (k.parent = some lid ∧ k.ptid = tid ∧ k.record.done ≠ none)) →
        (∀ c ∈ s.crews, c.lid = lid → ∀ q ∈ c.loads, q.space ≠ .squad) → (∀ h ∈ s.held, ¬ (h.lid = lid ∧ h.team = tid)) →
        t.team? lid tid = none ∧ ∀ b ∈ t.bars, ¬ (b.lid = lid ∧ b.team = tid)) ∧
      ((∃ k ∈ s.launches, k.parent = some lid ∧ k.ptid = tid ∧ k.record.done ≠ none) →
        t.team? lid tid = some { x with phase := .retiredKept }) := by
  obtain ⟨hrest, hbars⟩ := (s.retired lid tid).freeKept_eq l
  have hteam := State.retired_team? hx
  have hlaunch : (s.retired lid tid).launch? lid = some l.count := State.launch?_modLaunch hl Launch.count fun _ => rfl
  have hkeep := State.retired_mustKeep (tid := tid) hl
  have hgo := State.retired_mayGo (tid := tid) hl
  have hletgo (h : (s.retired lid tid).mustKeep l tid = false) (y : Team) (hy : y ∈ (s.retired lid tid).teams) (h1 : y.lid = lid)
      (h2 : y.tid = tid) : y ∈ (s.retired lid tid).letGo l := State.retired_letGo hl h hy h1 h2
  have htiles : (s.retired lid tid).tiles = s.tiles.filter (fun y => !(y.lid == lid && y.team == tid)) := rfl
  have hmem : (s.retired lid tid).mem = s.mem := rfl
  generalize s.retired lid tid = r at *
  generalize r.freeKept l = u at *
  have hl' : u.launches = r.launches := by rw [hrest]
  have ht' : u.teams = r.teams.filter fun t => !(r.letGo l).contains t := by rw [hrest]
  refine ⟨u.retry, l.count, hev, ?_, rfl, rfl, rfl, ?_, ?_, fun h1 h2 h3 h4 => ⟨?_, ?_⟩, fun hc => ?_⟩
  · exact (congrArg (List.find? _) hl').trans hlaunch
  · exact (show u.tiles = r.tiles by rw [hrest]).trans htiles
  · exact (show u.mem = r.mem by rw [hrest]).trans hmem
  · change u.teams.find? _ = none
    rw [ht', List.find?_eq_none]
    intro y hy hk
    obtain ⟨hy, hout⟩ := List.mem_filter.mp hy
    simp only [Bool.and_eq_true, beq_iff_eq] at hk
    have := hletgo (hgo h1 h2 h3 h4) y hy hk.1 hk.2
    simp [this] at hout
  · have hkey := State.team?_key hteam
    have hmem := List.mem_of_find?_eq_some (show r.teams.find? _ = some x.retire from hteam)
    have := hbars x.retire (hletgo (hgo h1 h2 h3 h4) x.retire hmem hkey.1 hkey.2)
    rw [hkey.1, hkey.2] at this
    exact this
  · change u.teams.find? _ = some x.retire
    have hfilter : (u.teams.find? fun t => t.lid == lid && t.tid == tid) = r.teams.find? fun t => t.lid == lid && t.tid == tid := by
      rw [ht', List.find?_filter]
      congr 1
      funext y
      by_cases hy : (y.lid == lid && y.tid == tid) = true
      · have hout : y ∉ r.letGo l := fun hm => by
          have := (List.mem_filter.mp hm).2
          simp only [Bool.and_eq_true, beq_iff_eq] at hy
          simp [hy.2, hkeep hc] at this
        simp [hy, hout]
      · simp [hy]
    exact hfilter.trans hteam

end

/-! ## A held launch is due -/

/-- LAUNCH_AT_DUE (R262). -/
theorem launchAtDue_due {s : State} {lid : Nat} {l : Launch} {w : DWord} (hl : s.launch? lid = some l) (hphase : l.phase = .held w)
    (hw : w.toNat ≤ s.ftime.toNat) :
    ∃ t, Happens s (.launchAtDue lid) t ∧ t.launch? lid = some { l with phase := .pending } ∧ CrewsStand s t ∧
      t = { s with crews := t.crews, launches := t.launches } := by
  have hev : s.launchDue lid = some (s.modLaunch lid fun l => { l with phase := .pending }) := by
    rw [State.launchDue, hl]
    simp only [hphase, guarded]
    exact if_pos (by simpa [BitVec.ule] using hw)
  refine ⟨_, congrArg (fire s) hev, ?_, crewsStand_retry rfl, rfl⟩
  exact State.launch?_modLaunch hl (fun l => { l with phase := .pending }) fun _ => rfl

end Sys2Proof.Machine
end

section
/-! How a grid retires: STATUS, the arrival on DONE and the interrupt, in that order (R68, R71). -/

namespace Sys2Proof.Machine

/-- A write of STATUS (R62, R68). -/
theorem State.putStatus_eq (s : State) (core asid pa code : Nat) :
    let t := s.putStatus core asid pa code
    t.mem = (s.writeBytes pa (leBytes 4 code)).mem ∧ t.fab.strict = s.fab.strict ∧ t.contexts = s.contexts := by
  have hsend : (s.fabricSend core asid pa true false).mem = s.mem ∧ (s.fabricSend core asid pa true false).contexts = s.contexts ∧
      (s.fabricSend core asid pa true false).fab.strict = s.fab.strict := by
    rw [State.fabricSend]
    split
    · exact ⟨rfl, rfl, rfl⟩
    · split <;> exact ⟨rfl, rfl, rfl⟩
  have ht : s.putStatus core asid pa code = (s.fabricSend core asid pa true false).homeWrite core (placed pa (leBytes 4 code)) := rfl
  obtain ⟨hm, hc, hf⟩ := hsend
  generalize s.fabricSend core asid pa true false = r at hm hc hf ht
  have hw := r.homeWrite_written core (placed pa (leBytes 4 code))
  have hmem := (r.homeWrite_mem core (placed pa (leBytes 4 code))).trans (r.writePairs_placed pa (leBytes 4 code))
  intro t
  simp only [t, ht]
  generalize r.homeWrite core (placed pa (leBytes 4 code)) = u at hw hmem
  have hfab : u.fab = { r.fab with holders := u.fab.holders } := by rw [hw]
  have hctx : u.contexts = r.contexts := by rw [hw]
  refine ⟨hmem.trans ?_, (congrArg Fabric.strict hfab).trans hf, hctx.trans hc⟩
  exact congrArg (fun m => ssetList 0 m pa (leBytes 4 code)) hm

theorem State.flipBar_contexts (s : State) (b : BarObj) : (s.flipBar b).contexts = s.contexts := by
  unfold State.flipBar
  simp only [State.setBarField_eq, State.modTeam_contexts]

theorem State.evaluate_contexts (s : State) (b : BarObj) : (s.evaluate b).contexts = s.contexts := by
  rw [State.evaluate_eq]
  split
  · rw [State.wakeAll_contexts, State.putBar_contexts, State.flipBar_contexts]
  · rfl

theorem State.arriveFar_contexts (s : State) (b : BarObj) : (s.arriveFar b).contexts = s.contexts := by
  rw [State.arriveFar, State.arrive, State.evaluate_contexts]
  rfl

/-- The arrival on DONE moves nothing in memory, in the fabric or in the table of contexts. -/
theorem State.arriveDone_keeps (s : State) (l : Launch) :
    (s.arriveDone l).mem = s.mem ∧ (s.arriveDone l).fab = s.fab ∧ (s.arriveDone l).contexts = s.contexts := by
  unfold State.arriveDone
  split
  · split
    · split
      · exact ⟨State.arriveFar_mem s _, State.arriveFar_fab s _, State.arriveFar_contexts s _⟩
      · exact ⟨rfl, rfl, rfl⟩
    · exact ⟨rfl, rfl, rfl⟩
  · exact ⟨rfl, rfl, rfl⟩

/-- An interrupt of a context that has an address for it waits in its flow (R71, R317). -/
theorem State.interrupt_posts {s : State} {asid : Nat} {y : Context} (hy : s.context? asid = some y) (h0 : y.irqaddr ≠ 0) (kind low : Nat) :
    ∃ q, (s.interrupt asid kind low).fab.strict = s.fab.strict ++ [q] ∧
      q.msg = ⟨y.irqaddr, y.irqkey, leBytes 4 (kind * 2 ^ 28 + low % 2 ^ 28), []⟩ := by
  rw [State.interrupt, hy]
  simp only [h0, if_false]
  obtain ⟨-, -, -, h⟩ := s.post_eq y.irqaddr y.irqkey (leBytes 4 (kind * 2 ^ 28 + low % 2 ^ 28))
  exact h

theorem State.interrupt_mem (s : State) (asid kind low : Nat) : (s.interrupt asid kind low).mem = s.mem := by
  unfold State.interrupt
  split
  · split <;> rfl
  · rfl

/-- Nothing of a launch is left (R68). -/
def State.forget (s : State) (lid : Nat) : State := { s with
  launches := s.launches.filter (·.lid != lid)
  teams := s.teams.filter (·.lid != lid)
  tiles := s.tiles.filter (·.lid != lid)
  seats := s.seats.filter (·.lid != lid)
  faultq := s.faultq.filter (·.lid != lid)
  icache := s.icache.filter (·.lid != lid)
  remote := s.remote.filter (·.lid != lid) }

/-- The launcher's allocations are judged again (R68). -/
def State.freeParent (s : State) (l : Launch) : State := match l.parent.bind s.launch? with | some q => s.freeKept q | none => s

theorem State.freeParent_keeps (s : State) (l : Launch) :
    (s.freeParent l).launches = s.launches ∧ (∀ x ∈ (s.freeParent l).teams, x ∈ s.teams) ∧ (s.freeParent l).mem = s.mem ∧
      (s.freeParent l).fab = s.fab := by
  unfold State.freeParent
  split
  · rename_i q _
    obtain ⟨h, -⟩ := s.freeKept_eq q
    generalize s.freeKept q = u at h
    have ht : u.teams = s.teams.filter fun t => !(s.letGo q).contains t := by rw [h]
    exact ⟨by rw [h], fun x hx => (List.mem_filter.mp (ht ▸ hx)).1, by rw [h], by rw [h]⟩
  · exact ⟨rfl, fun _ h => h, rfl, rfl⟩

/-- What the last steps of a retirement leave, whatever came before. -/
theorem State.forget_freeParent (s : State) (lid : Nat) (l : Launch) :
    let t := (s.forget lid).freeParent l
    t.launch? lid = none ∧ (∀ tid, t.team? lid tid = none) ∧ t.mem = s.mem ∧ t.fab = s.fab := by
  obtain ⟨hl, ht, hm, hf⟩ := (s.forget lid).freeParent_keeps l
  refine ⟨?_, fun tid => ?_, hm, hf⟩
  · rw [State.launch?, hl, List.find?_eq_none]
    intro y hy
    simpa using (List.mem_filter.mp hy).2
  · rw [State.team?, List.find?_eq_none]
    intro y hy hk
    have hne := (List.mem_filter.mp (ht y hy)).2
    simp only [Bool.and_eq_true, beq_iff_eq] at hk
    simp [hk.1] at hne

section
variable {s : State} {lid : Nat} {l : Launch} {pa : Nat}

/-- The state in which STATUS is written and DONE has its arrival. -/
def State.told (s : State) (l : Launch) (pa : Nat) : State :=
  (s.putStatus (s.deviceCore l.asid) l.asid pa (if l.cut then 4 else 2)).arriveDone l

/-- The interrupt that NOTIFY asks for. -/
def State.notified (s : State) (l : Launch) : State :=
  if l.record.notify then s.interrupt l.asid (if l.cut then 4 else 1) l.gid.toNat else s

/-- The retirement of a grid (R68). -/
theorem gridRetire_eq {pa : DWord} (hl : s.launch? lid = some l) (hgrid : l.isField = false) (hpa : l.status = some pa)
    (hphase : l.phase = .placed ∨ l.phase = .draining) (hretired : l.record.teams ≤ l.retired) (hnext : l.record.teams ≤ l.nextTeam)
    (hchild : ∀ k ∈ s.launches, k.parent ≠ some lid) (hcrews : ∀ c ∈ s.crews, c.lid ≠ lid) (hcopies : ∀ q ∈ s.copies, q.lid ≠ lid)
    (hmats : ∀ q ∈ s.mats, q.lid ≠ lid) (hdone : s.doneReady l = true) (hmute : l.mute = false)
    (hok : s.statusOk (s.deviceCore l.asid) l.asid pa.toNat = true) :
    exec (.gridRetire lid) s = .next ((((s.told l pa.toNat).notified l).forget lid).freeParent l).retry := by
  have hover : s.launchOver l = true := by simp [State.launchOver, hgrid, hretired, hnext]
  have hready : s.statusReady l = true := by simp [State.statusReady, hpa, hmute, hok]
  have h1 : (s.launches.all fun x => x.parent != some lid) = true := by simpa using hchild
  have h2 : (s.crews.all fun c => c.lid != lid) = true := by simpa using hcrews
  have h3 : (s.copies.all fun q => q.lid != lid) = true := by simpa using hcopies
  have h4 : (s.mats.all fun q => q.lid != lid) = true := by simpa using hmats
  rw [exec_gridRetire, execGridRetire, State.gridRetire, hl]
  rcases hphase with hph | hph
  all_goals
    simp only [hph, hover, h1, h2, h3, h4, hdone, hready, hgrid, hpa, hmute, Bool.not_false, Bool.true_or, Bool.and_self,
      guarded, if_true, Bool.false_eq_true, if_false, Option.isNone_some]
    rfl

/-- GRID_RETIRE (R68). -/
theorem gridRetire_retires
    (hev : exec (.gridRetire lid) s = .next ((((s.told l pa).notified l).forget lid).freeParent l).retry) :
    ∃ t, Happens s (.gridRetire lid) t ∧ t.launch? lid = none ∧ (∀ tid, t.team? lid tid = none) ∧
      t.readNat pa 4 = (if l.cut then 4 else 2) ∧ MemoryStandsBut s t (fun a => pa ≤ a ∧ a < pa + 4) ∧
      (∀ y, s.context? l.asid = some y → l.record.notify = true → y.irqaddr ≠ 0 → ∃ q, t.fab.strict = s.fab.strict ++ [q] ∧
        q.msg = ⟨y.irqaddr, y.irqkey, leBytes 4 ((if l.cut then 4 else 1) * 2 ^ 28 + l.gid.toNat % 2 ^ 28), []⟩) ∧
      (l.record.notify = false → t.fab.strict = s.fab.strict) := by
  have hmem : (s.told l pa).mem = (s.writeBytes pa (leBytes 4 (if l.cut then 4 else 2))).mem := by
    exact (State.arriveDone_keeps _ l).1.trans (s.putStatus_eq _ l.asid pa _).1
  have hstrict : (s.told l pa).fab.strict = s.fab.strict :=
    (congrArg Fabric.strict (State.arriveDone_keeps _ l).2.1).trans (s.putStatus_eq _ l.asid pa _).2.1
  have hctx : (s.told l pa).contexts = s.contexts := (State.arriveDone_keeps _ l).2.2.trans (s.putStatus_eq _ l.asid pa _).2.2
  generalize s.told l pa = u at hev hmem hstrict hctx
  have hm : (u.notified l).mem = u.mem := by
    unfold State.notified
    split
    · exact State.interrupt_mem u _ _ _
    · rfl
  have hposts (y : Context) (hy : s.context? l.asid = some y) (hn : l.record.notify = true) (h0 : y.irqaddr ≠ 0) :
      ∃ q, (u.notified l).fab.strict = u.fab.strict ++ [q] ∧
        q.msg = ⟨y.irqaddr, y.irqkey, leBytes 4 ((if l.cut then 4 else 1) * 2 ^ 28 + l.gid.toNat % 2 ^ 28), []⟩ := by
    have hy' : u.context? l.asid = some y := by rw [← hy, State.context?, hctx]; rfl
    rw [State.notified, if_pos hn]
    exact State.interrupt_posts hy' h0 _ _
  have hquiet (hn : l.record.notify = false) : (u.notified l).fab.strict = u.fab.strict := by
    rw [State.notified, hn]
    rfl
  generalize u.notified l = v at hev hm hposts hquiet
  obtain ⟨hnone, hteams, hv, hf⟩ := v.forget_freeParent lid l
  generalize (v.forget lid).freeParent l = w at hev hnone hteams hv hf
  have hall : w.mem = (s.writeBytes pa (leBytes 4 (if l.cut then 4 else 2))).mem := hv.trans (hm.trans hmem)
  refine ⟨w.retry, hev, hnone, hteams, ?_, fun a ha => ?_, fun y hy hn h0 => ?_, fun hn => ?_⟩
  · have h := s.readNat_writeBytes pa 4 (if l.cut then 4 else 2)
    rw [Nat.mod_eq_of_lt (by split <;> decide)] at h
    rw [← h]
    exact congrArg (fun m => leNat (sgetList 0 m pa 4)) hall
  · have h := s.readByte_writeBytes pa a (leBytes 4 (if l.cut then 4 else 2))
    rw [length_leBytes, if_neg ha] at h
    rw [← h]
    exact congrArg (fun m => sget 0 m a) hall
  · obtain ⟨q, hq, hmsg⟩ := hposts y hy hn h0
    exact ⟨q, (congrArg Fabric.strict hf).trans (hq.trans (by rw [hstrict])), hmsg⟩
  · exact (congrArg Fabric.strict hf).trans ((hquiet hn).trans hstrict)

end

end Sys2Proof.Machine
end

section
/-! Where a pass of the distributor places a team, and what it cannot take back (R265 to R267). -/

namespace Sys2Proof.Machine

/-! ## Placements add, and take nothing away -/

/-- Teams, crews and entries of the age order have been added; none has gone. -/
structure Grows (s t : State) : Prop where
  teams : s.teams <+: t.teams
  crews : s.crews <+: t.crews
  age : ∀ e ∈ s.age, e ∈ t.age

theorem Grows.refl (s : State) : Grows s s := ⟨List.prefix_refl _, List.prefix_refl _, fun _ h => h⟩

theorem Grows.trans {s t u : State} (h : Grows s t) (g : Grows t u) : Grows s u :=
  ⟨h.teams.trans g.teams, h.crews.trans g.crews, fun e he => g.age e (h.age e he)⟩

theorem Grows.team? {s t : State} (h : Grows s t) {lid tid : Nat} {x : Team} (hx : s.team? lid tid = some x) : t.team? lid tid = some x :=
  h.teams.find?_eq_some hx

theorem Grows.crew? {s t : State} (h : Grows s t) {cid : Nat} {c : Crew} (hc : s.crew? cid = some c) : t.crew? cid = some c :=
  h.crews.find?_eq_some hc

/-- An entry stays in the age order when others enter it. -/
theorem State.mem_enter_age {s : State} {e : Nat × Nat} (he : e ∈ s.age) (xs : List (Nat × Nat)) : e ∈ (s.enter xs).age := by
  simp only [State.enter, List.mem_append, List.mem_filter, Bool.and_eq_true, Bool.not_eq_true', List.contains_eq_mem, decide_eq_false_iff_not]
  tauto

theorem State.setMode_eq (s : State) (core : Nat) (fuse : Bool) : s.setMode core fuse = { s with
    owner := (s.setMode core fuse).owner, l1 := (s.setMode core fuse).l1, fused := (s.setMode core fuse).fused
    misses := (s.setMode core fuse).misses, l2 := (s.setMode core fuse).l2, wfill := (s.setMode core fuse).wfill } := by
  unfold State.setMode
  dsimp only
  split
  · rfl
  · rw [State.giveBack_eq]

/-- A crew as it stands on its core: its splits have their entries (R253). -/
def State.seated (s : State) (c : Crew) : Crew := { c with splits := giveEntries (s.entriesOf c.core c.row) c.splits }

/-- The splits of a crew that enter the age order as it begins (R269). -/
def Crew.readyEntries (c : Crew) : List (Nat × Nat) := (c.splits.filter fun p => p.status == .ready).map fun p => (c.cid, p.sid)

theorem State.addCrew_eq (s : State) (c : Crew) :
    let t := s.addCrew c
    t.crews = s.crews ++ [s.seated c] ∧ t.teams = s.teams ∧ t.launches = s.launches ∧
      t.age = (s.enter (s.seated c).readyEntries).age := by
  have ht : s.addCrew c = State.acquire (State.enter { s with crews := s.crews ++ [s.seated c] } (s.seated c).readyEntries) c.core .dev := rfl
  intro t
  simp only [t, ht]
  rw [State.acquire_eq]
  exact ⟨rfl, rfl, rfl, rfl⟩

theorem State.addCrew_grows (s : State) (c : Crew) : Grows s (s.addCrew c) ∧ (s.addCrew c).launches = s.launches := by
  obtain ⟨hc, ht, hl, ha⟩ := s.addCrew_eq c
  exact ⟨⟨ht ▸ List.prefix_refl _, hc ▸ List.prefix_append _ _, fun e he => ha ▸ State.mem_enter_age he _⟩, hl⟩

theorem State.seatCrews_grows {core : Nat} (makes : List (Nat → Crew)) {s t : State} (h : State.seatCrews core makes s = some t) :
    Grows s t ∧ t.launches = s.launches := by
  induction makes generalizing s with
  | nil =>
    cases h
    exact ⟨.refl _, rfl⟩
  | cons make rest ih =>
    rw [State.seatCrews] at h
    cases hr : s.pickRow core (make 0).frame with
    | none => simp [hr] at h
    | some r =>
      simp only [hr] at h
      obtain ⟨h1, h2⟩ := ih h
      obtain ⟨g1, g2⟩ := s.bumpId.addCrew_grows { make r with cid := s.nextId }
      exact ⟨Grows.trans ⟨g1.teams, g1.crews, g1.age⟩ h1, h2.trans g2⟩

/-- The team that a launch places on a core. -/
def Launch.newTeam (l : Launch) (tid core base : Nat) : Team :=
  { lid := l.lid, tid := tid, core := core, base := base, size := l.record.scratch, scratch := [], spoison := []
    crewsLeft := l.record.crews, phase := .resident }

/-- The state in which the crews of a new team are seated. -/
def State.roomFor (s : State) (l : Launch) (tid core base : Nat) : State :=
  { s.setMode core l.record.fuseL1 with teams := (s.setMode core l.record.fuseL1).teams ++ [l.newTeam tid core base] }

/-- The crews of a new team. -/
def Launch.newCrews (l : Launch) (tid core : Nat) : List (Nat → Crew) :=
  (List.range l.record.crews).map fun k row => newCrew l 0 tid k core row (tid * l.record.crews + k)

theorem State.roomFor_eq (s : State) (l : Launch) (tid core base : Nat) :
    let t := s.roomFor l tid core base
    t.teams = s.teams ++ [l.newTeam tid core base] ∧ t.crews = s.crews ∧ t.launches = s.launches ∧ t.age = s.age ∧ t.nextId = s.nextId := by
  have h := s.setMode_eq core l.record.fuseL1
  have ht : s.roomFor l tid core base =
      { s.setMode core l.record.fuseL1 with teams := (s.setMode core l.record.fuseL1).teams ++ [l.newTeam tid core base] } := rfl
  intro t
  simp only [t, ht]
  generalize s.setMode core l.record.fuseL1 = u at h
  rw [h]
  exact ⟨rfl, rfl, rfl, rfl, rfl⟩

theorem State.placeTeam_eq (s : State) (l : Launch) (tid core : Nat) :
    s.placeTeam l tid core = match s.firstFit core l.record.scratch with
      | none => none
      | some base => if s.admits core l.asid && s.modeFits core l.record.fuseL1 && decide ((s.bars.filter (·.core == core)).length < 256) then
          State.seatCrews core (l.newCrews tid core) (s.roomFor l tid core base) else none := rfl

theorem State.placeTeam_grows {s t : State} {l : Launch} {tid core : Nat} (h : s.placeTeam l tid core = some t) :
    Grows s t ∧ t.launches = s.launches := by
  rw [State.placeTeam_eq] at h
  split at h
  · cases h
  · rename_i base _
    split at h
    · obtain ⟨h1, h2⟩ := State.seatCrews_grows _ h
      obtain ⟨ht, hc, hl, ha, -⟩ := s.roomFor_eq l tid core base
      exact ⟨Grows.trans ⟨ht ▸ List.prefix_append _ _, hc ▸ List.prefix_refl _, fun e he => ha ▸ he⟩ h1, h2.trans hl⟩
    · cases h

theorem placeEach_grows {l : Launch} {cores : List Nat} (xs : List Nat) {s t : State}
    (h : placeEach (fun s tid core => s.placeTeam l tid core) cores xs s = some t) : Grows s t ∧ t.launches = s.launches := by
  induction xs generalizing s with
  | nil =>
    cases h
    exact ⟨.refl _, rfl⟩
  | cons x rest ih =>
    rw [placeEach] at h
    split at h
    · cases h
    · rename_i u hu
      obtain ⟨core, -, hcore⟩ := List.exists_of_findSome?_eq_some hu
      obtain ⟨g1, g2⟩ := State.placeTeam_grows hcore
      obtain ⟨h1, h2⟩ := ih h
      exact ⟨g1.trans h1, h2.trans g2⟩

theorem placeSquad_grows {l : Launch} {p : Partition} {lone : Bool} {xs : List Nat} {s t : State}
    (h : placeSquad (fun s tid core => s.placeTeam l tid core) p lone xs s = some t) : Grows s t ∧ t.launches = s.launches := by
  obtain ⟨cores, -, hc⟩ := List.exists_of_findSome?_eq_some h
  split at hc
  · exact placeEach_grows xs hc
  · obtain ⟨cl, -, hcl⟩ := List.exists_of_findSome?_eq_some hc
    exact placeEach_grows xs hcl

/-- A launch of which `q` more teams are placed. -/
def Launch.advance (q : Nat) (l : Launch) : Launch := { l with
  nextTeam := l.nextTeam + q
  phase := if l.record.teams ≤ l.nextTeam + q then .placed else l.phase }

/-- One turn of the placement of a launch (R267). -/
theorem placeSquads_succ (lid : Nat) (p : Partition) (k : Nat) {s : State} {l : Launch} (hl : s.launch? lid = some l) :
    placeSquads lid p (k + 1) s = if l.record.teams ≤ l.nextTeam then s else
      match placeSquad (fun s tid core => s.placeTeam l tid core) p (decide (max 1 l.record.squad ≤ 1))
          ((List.range (max 1 l.record.squad)).map (l.nextTeam + ·)) s with
      | none => s
      | some t => placeSquads lid p k (t.modLaunch lid (Launch.advance (max 1 l.record.squad))) := by
  rw [placeSquads, hl]
  rfl

/-- A placement of squads only adds, and its launch goes on. -/
theorem placeSquads_grows (lid : Nat) (p : Partition) (k : Nat) {s : State} {l : Launch} (hl : s.launch? lid = some l) :
    Grows s (placeSquads lid p k s) ∧ ∃ m, (placeSquads lid p k s).launch? lid = some m ∧ l.nextTeam ≤ m.nextTeam := by
  induction k generalizing s l with
  | zero => exact ⟨.refl s, l, hl, Nat.le_refl _⟩
  | succ k ih =>
    rw [placeSquads_succ lid p k hl]
    split
    · exact ⟨.refl s, l, hl, Nat.le_refl _⟩
    · split
      · exact ⟨.refl s, l, hl, Nat.le_refl _⟩
      · rename_i t ht
        obtain ⟨h1, h2⟩ := placeSquad_grows ht
        have hlt : t.launch? lid = some l := (congrArg (List.find? _) h2).trans hl
        obtain ⟨g, m, hm, hle⟩ := ih (State.launch?_modLaunch hlt (Launch.advance (max 1 l.record.squad)) fun _ => rfl)
        exact ⟨h1.trans ⟨g.teams, g.crews, g.age⟩, m, hm, le_trans (Nat.le_add_right _ _) hle⟩

/-! ## The first team of a pass -/

theorem State.pickRow_congr {s t : State} (hc : t.crews = s.crews) (hl : t.launches = s.launches) (core frame : Nat) :
    t.pickRow core frame = s.pickRow core frame := by
  have hrow (row : Nat) : t.rowUse core row = s.rowUse core row := by rw [State.rowUse, State.rowUse, hc, hl]
  simp only [State.pickRow, hrow]

section
variable {s : State} {l : Launch} {n core base row : Nat}

/-- The crew of a team of one, as it begins. -/
def State.firstCrew (s : State) (l : Launch) (n core row : Nat) : Crew :=
  { newCrew l 0 n 0 core row (n * 1 + 0) with cid := s.nextId }

/-- The state in which a team of one crew has been placed. -/
def State.seatFirst (s : State) (l : Launch) (n core base row : Nat) : State :=
  (s.roomFor l n core base).bumpId.addCrew (s.firstCrew l n core row)

/-- A team of one crew is placed at the first free address, its crew in the row that R265 picks. -/
theorem State.placeTeam_first (hcrews : l.record.crews = 1) (hfit : s.firstFit core l.record.scratch = some base)
    (hadmits : s.admits core l.asid = true) (hmode : s.modeFits core l.record.fuseL1 = true)
    (hbars : (s.bars.filter (·.core == core)).length < 256) (hrow : s.pickRow core l.record.frame = some row) :
    s.placeTeam l n core = some (s.seatFirst l n core base row) := by
  obtain ⟨-, hc, hl, -, hid⟩ := s.roomFor_eq l n core base
  have hpick : (s.roomFor l n core base).pickRow core l.record.frame = some row := (State.pickRow_congr hc hl core _).trans hrow
  have hmakes : l.newCrews n core = [fun row => newCrew l 0 n 0 core row (n * 1 + 0)] := by rw [Launch.newCrews, hcrews]; rfl
  rw [State.placeTeam_eq, hfit]
  simp only [hadmits, hmode, hbars, decide_true, Bool.and_self, if_true, hmakes]
  have hframe : (newCrew l 0 n 0 core 0 (n * 1 + 0)).frame = l.record.frame := rfl
  rw [State.seatCrews, hframe, hpick]
  simp only [State.seatCrews, hid]
  rfl

/-- What stands once the first team of a launch has been placed. -/
theorem State.seatFirst_eq (hteam : s.team? l.lid n = none) (hcrew : s.crew? s.nextId = none) :
    let t := s.seatFirst l n core base row
    t.launches = s.launches ∧ t.team? l.lid n = some (l.newTeam n core base) ∧
      t.crew? s.nextId = some ((s.roomFor l n core base).bumpId.seated (s.firstCrew l n core row)) ∧ (s.nextId, 0) ∈ t.age := by
  obtain ⟨ht, hc, hl, ha, -⟩ := s.roomFor_eq l n core base
  obtain ⟨gc, gt, gl, ga⟩ := (s.roomFor l n core base).bumpId.addCrew_eq (s.firstCrew l n core row)
  intro t
  refine ⟨gl.trans hl, ?_, ?_, ?_⟩
  · rw [State.team?, show t.teams = s.teams ++ [l.newTeam n core base] from gt.trans ht, List.find?_append,
      show s.teams.find? _ = none from hteam]
    simp [Launch.newTeam]
  · rw [State.crew?, show t.crews = s.crews ++ [_] from gc.trans (congrArg (· ++ _) hc), List.find?_append,
      show s.crews.find? _ = none from hcrew]
    simp [State.seated, State.firstCrew]
  · rw [show t.age = _ from ga, State.enter]
    refine List.mem_append_left _ (List.mem_append_right _ ?_)
    exact List.mem_singleton.mpr rfl

/-- A pass in which one grid waits: its squads are placed, as many as fit (R267). -/
theorem distributorPass_eq {part : Nat} (hpend : s.pendingIn part = [l]) (hgrid : l.isField = false) (hcores : l.record.cores = false) :
    exec (.distributorPass part) s =
      fire s (guarded (placeSquads l.lid (s.part part) (l.record.teams / max 1 l.record.squad + 1) s != s)
        (placeSquads l.lid (s.part part) (l.record.teams / max 1 l.record.squad + 1) s)) := by
  have hplace : s.placeLaunch (s.part part) l = placeSquads l.lid (s.part part) (l.record.teams / max 1 l.record.squad + 1) s := by
    simp [State.placeLaunch, hgrid, hcores]
  rw [exec_distributorPass, execDistributorPass, State.distribute, hpend]
  simp only [passOver, hplace, hgrid, hcores, Bool.or_self, Bool.and_false, Bool.false_and, Bool.false_eq_true, if_false]

/-- DISTRIBUTOR_PASS (R265 to R267). -/
theorem distributorPass_places {part : Nat} {cores rest : List Nat} (hpend : s.pendingIn part = [l]) (hl : s.launch? l.lid = some l)
    (hgrid : l.isField = false) (hcores : l.record.cores = false) (hsquad : l.record.squad = 1) (hnext : l.nextTeam < l.record.teams)
    (hdies : s.dieOrder (s.part part) = [cores]) (horder : s.coreOrder cores = core :: rest)
    (hput : s.placeTeam l l.nextTeam core = some (s.seatFirst l l.nextTeam core base row))
    (hteam : s.team? l.lid l.nextTeam = none) (hcrew : s.crew? s.nextId = none) :
    ∃ (t : State) (m : Launch), Happens s (.distributorPass part) t ∧ t.launch? l.lid = some m ∧ l.nextTeam < m.nextTeam ∧
      t.team? l.lid l.nextTeam = some (l.newTeam l.nextTeam core base) ∧
      t.crew? s.nextId = some ((s.roomFor l l.nextTeam core base).bumpId.seated (s.firstCrew l l.nextTeam core row)).untried ∧
      (s.nextId, 0) ∈ t.age := by
  have hev := distributorPass_eq hpend hgrid hcores
  have hmax : max 1 l.record.squad = 1 := by rw [hsquad]; rfl
  have hsquad' : placeSquad (fun s tid core => s.placeTeam l tid core) (s.part part) true [l.nextTeam] s =
      some (s.seatFirst l l.nextTeam core base row) := by
    simp only [placeSquad, hdies, placeEach, horder, List.findSome?_cons, hput, if_true]
  obtain ⟨hlaunches, ht, hc, ha⟩ := s.seatFirst_eq (core := core) (base := base) (row := row) hteam hcrew
  have hfirst := placeSquads_succ l.lid (s.part part) (l.record.teams / max 1 l.record.squad) hl
  simp only [hmax, le_refl, decide_true, List.range_one, List.map_cons, List.map_nil, Nat.add_zero, hsquad',
    if_neg (Nat.not_le.mpr hnext)] at hfirst hev
  generalize s.seatFirst l l.nextTeam core base row = u at hlaunches ht hc ha hfirst
  have hlu : u.launch? l.lid = some l := (congrArg (List.find? _) hlaunches).trans hl
  obtain ⟨g, m, hm, hle⟩ := placeSquads_grows l.lid (s.part part) (l.record.teams / 1)
    (State.launch?_modLaunch hlu (Launch.advance 1) fun _ => rfl)
  rw [← hfirst] at g hm
  generalize placeSquads l.lid (s.part part) (l.record.teams / 1 + 1) s = v at hev g hm
  have hvteam := g.team? ht
  have hvcrew := g.crew? hc
  have hne : (v != s) = true := by
    rw [bne_iff_ne]
    rintro rfl
    rw [hteam] at hvteam
    cases hvteam
  rw [hne] at hev
  refine ⟨v.retry, m, hev, hm, hle, hvteam, ?_, g.age _ ha⟩
  exact (v.crew?_retry s.nextId).trans (congrArg (Option.map Crew.untried) hvcrew)

end

/-- Settles O40: a team's retirement, a grid's retirement, a held launch that is due, and the first team of a pass, which the rest of the
pass cannot take back. -/
theorem teamsAndLaunches : Obligations.TeamsAndLaunches := by
  intro s
  refine ⟨fun lid tid l x hl hx h1 h2 h3 h4 h5 h6 => teamRetire_retires hl hx (teamRetire_eq hl hx h1 h2 h3 h4 h5 h6),
    fun lid l pa hl hgrid hpa h1 h2 h3 h4 h5 h6 h7 h8 h9 h10 =>
      gridRetire_retires (gridRetire_eq hl hgrid hpa h1 h2 h3 h4 h5 h6 h7 h8 h9 h10),
    fun lid l w hl hphase hw => launchAtDue_due hl hphase hw, ?_⟩
  intro part l n core rest cores base row hpend hl hgrid hcores hsquad hcrews hn hnext hdies horder hfit hadmits hmode hbars hrow hteam hcrew
  subst hn
  obtain ⟨t, m, hev, hm, hlt, hx, hc, ha⟩ := distributorPass_places hpend hl hgrid hcores hsquad hnext hdies horder
    (State.placeTeam_first hcrews hfit hadmits hmode hbars hrow) hteam hcrew
  exact ⟨t, m, _, _, _, hev, hm, hlt, hx, rfl, rfl, rfl, rfl, hcrews, hc, rfl, rfl, rfl, rfl, rfl, rfl, fun k => sget_sset 0 [] 0 k _,
    fun i k => rfl, rfl, rfl, rfl, rfl, rfl, rfl, rfl, rfl, rfl, rfl, rfl, rfl, ha⟩

end Sys2Proof.Machine
end

section
/-! Rounding an exact magnitude (R77 to R79): the machine takes a quotient to a whole number of steps. -/

namespace Sys2Proof

/-! ## Rounding a quotient -/

/-- Whether mode `r` takes the quotient `y / u` of a magnitude to the whole number above it. -/
def quotUp (r : Rnd) (neg : Bool) (y u : Nat) : Bool :=
  match r with
  | .rn => decide (u < 2 * (y % u)) || (2 * (y % u) == u && y / u % 2 == 1)
  | .rz => false
  | .ru => y % u != 0 && !neg
  | .rd => y % u != 0 && neg

/-- The whole number that mode `r` takes the quotient `y / u` of a magnitude to. -/
def quotRound (r : Rnd) (neg : Bool) (y u : Nat) : Nat := if quotUp r neg y u then y / u + 1 else y / u

theorem le_quotRound (r : Rnd) (neg : Bool) (y u : Nat) : y / u ≤ quotRound r neg y u := by
  unfold quotRound; split <;> omega

theorem quotRound_le (r : Rnd) (neg : Bool) (y u : Nat) : quotRound r neg y u ≤ y / u + 1 := by
  unfold quotRound; split <;> omega

/-- A whole quotient is not changed. -/
theorem quotRound_one (r : Rnd) (neg : Bool) (y : Nat) : quotRound r neg y 1 = y := by
  cases r <;> simp [quotRound, quotUp, Nat.mod_one]

/-- A common factor does not change the rounded quotient. -/
theorem quotRound_mul_right (r : Rnd) (neg : Bool) (y u : Nat) {c : Nat} (hc : 0 < c) :
    quotRound r neg (y * c) (u * c) = quotRound r neg y u := by
  have hlt : u * c < 2 * (y % u * c) ↔ u < 2 * (y % u) := by rw [← Nat.mul_assoc, Nat.mul_lt_mul_right hc]
  have heq : 2 * (y % u * c) = u * c ↔ 2 * (y % u) = u := by rw [← Nat.mul_assoc, Nat.mul_left_inj hc.ne']
  have hne : y % u * c = 0 ↔ y % u = 0 := by simp [hc.ne']
  simp only [quotRound, quotUp, Nat.mul_mod_mul_right, Nat.mul_div_mul_right _ _ hc, hlt, beq_eq_decide, bne, heq, hne]

/-- Equal quotients round to the same number. -/
theorem quotRound_congr (r : Rnd) (neg : Bool) {y u y' u' : Nat} (hu : 0 < u) (hu' : 0 < u') (h : y * u' = y' * u) :
    quotRound r neg y u = quotRound r neg y' u' := by
  rw [← quotRound_mul_right r neg y u hu', h, Nat.mul_comm u, quotRound_mul_right r neg y' u' hu]

/-- Equal quotients are whole together. -/
theorem mod_bne_zero_congr {y u y' u' : Nat} (hu : 0 < u) (hu' : 0 < u') (h : y * u' = y' * u) : (y % u != 0) = (y' % u' != 0) := by
  have hcross : y % u * u' = y' % u' * u := by rw [← Nat.mul_mod_mul_right, ← Nat.mul_mod_mul_right, h, Nat.mul_comm u]
  have hzero : y % u = 0 ↔ y' % u' = 0 := by
    rw [← mul_eq_zero_iff_right hu'.ne', hcross, mul_eq_zero_iff_right hu.ne']
  simp only [bne, beq_eq_decide, hzero]

/-- The machine's rounding of an exact magnitude to units of `2 ^ q` is the rounding of any quotient that equals it in these units. -/
theorem roundAt_exact (r : Rnd) (neg : Bool) {m : Nat} {e q : Int} {y u : Nat} (hu : 0 < u)
    (h : y * 2 ^ (q - e).toNat = m * 2 ^ (e - q).toNat * u) :
    roundAt r neg m e false q = (quotRound r neg y u, y % u != 0) := by
  have hp : 0 < 2 ^ (q - e).toNat := Nat.two_pow_pos _
  rw [quotRound_congr r neg hu hp h, mod_bne_zero_congr hu hp h]
  unfold roundAt
  split_ifs with hq
  · rw [show (q - e).toNat = 0 by omega, Nat.pow_zero, quotRound_one]
    simp [Nat.mod_one]
  · rw [show (e - q).toNat = 0 by omega, Nat.pow_zero, Nat.mul_one]
    cases r <;> simp [quotRound, quotUp, bne, beq_eq_decide]

/-- Some value left below the last bit rounds, to units above that bit, as one half of it does. -/
theorem roundAt_sticky (r : Rnd) (neg : Bool) (m : Nat) {e q : Int} (hq : e < q) :
    roundAt r neg m e true q = roundAt r neg (2 * m + 1) (e - 1) false q := by
  obtain ⟨n, hn⟩ : ∃ n, (q - e).toNat = n + 1 := Nat.exists_eq_succ_of_ne_zero (by omega)
  have hdiv : (2 * m + 1) / (2 * 2 ^ (n + 1)) = m / 2 ^ (n + 1) := by
    rw [← Nat.div_div_eq_div_mul]; congr 1; omega
  have hmod : (2 * m + 1) % (2 * 2 ^ (n + 1)) = 2 * (m % 2 ^ (n + 1)) + 1 := by
    rw [Nat.mod_mul, show (2 * m + 1) / 2 = m by omega]; omega
  unfold roundAt
  rw [if_neg (by omega), if_neg (by omega), show (q - (e - 1)).toNat = n + 1 + 1 by omega, hn, Nat.pow_succ 2 (n + 1),
    Nat.mul_comm _ 2]
  dsimp only
  rw [hdiv, hmod]
  generalize m / 2 ^ (n + 1) = c
  generalize m % 2 ^ (n + 1) = ρ
  rw [Nat.pow_succ]
  cases r with
  | rn =>
    have h : (2 ^ n * 2 < 2 * ρ ∨ 2 * ρ = 2 ^ n * 2) ↔ 2 * (2 ^ n * 2) < 2 * (2 * ρ + 1) := by omega
    have h' : 2 * (2 * ρ + 1) ≠ 2 * (2 ^ n * 2) := by omega
    simp [h, h']
  | rz => simp
  | ru => simp
  | rd => simp

/-- A rounded quotient stands for the magnitude itself exactly when the quotient is whole. -/
theorem quotRound_mul_ne_iff (r : Rnd) (neg : Bool) (y : Nat) {u : Nat} (hu : 0 < u) : quotRound r neg y u * u ≠ y ↔ y % u ≠ 0 := by
  refine not_congr ⟨fun h => ?_, fun h => ?_⟩
  · rw [← h, Nat.mul_mod_left]
  · have hkeep : quotUp r neg y u = false := by cases r <;> simp [quotUp, h, hu.ne]
    rw [quotRound, hkeep]
    exact Nat.div_mul_cancel (Nat.dvd_of_mod_eq_zero h)

/-! ## The machine's rounding, part by part -/

/-- The exponent of the least subnormal of a format (Table 5.1). -/
def Fmt.low (f : Fmt) : Int := 1 - f.bias - f.frac

/-- The exponent of the last bit kept of the magnitude `m · 2 ^ e`, its exponent unbounded below too. -/
def Fmt.normalUnit (f : Fmt) (m : Nat) (e : Int) : Int := e + (Nat.log2 m : Int) - f.frac

/-- The exponent of the last bit that the format keeps of the magnitude `m · 2 ^ e` (R77). -/
def Fmt.unit (f : Fmt) (m : Nat) (e : Int) : Int := if f.low ≤ f.normalUnit m e then f.normalUnit m e else f.low

/-- The machine's test for a tiny result (R79). -/
def Fmt.tiny (f : Fmt) (r : Rnd) (neg : Bool) (m : Nat) (e : Int) (sticky : Bool) : Bool :=
  decide (e + (Nat.log2 m : Int) < 1 - f.bias) && (decide (e + (Nat.log2 m : Int) < 1 - f.bias - 1) ||
    decide ((roundAt r neg m e sticky (f.normalUnit m e)).1 < 2 ^ (f.frac + 1)))

theorem Fmt.round_eq (f : Fmt) (r : Rnd) (neg : Bool) (m : Nat) (e : Int) (sticky : Bool) :
    f.round r neg m e sticky =
      let p := roundAt r neg m e sticky (f.unit m e)
      let mag := p.1 + (f.unit m e - f.low).toNat * 2 ^ f.frac
      ⟨mag, decide (f.maxMag < mag), f.tiny r neg m e sticky && p.2, p.2⟩ := rfl

/-- Where more bits are known than are kept, both units stand above a known bit. -/
theorem Fmt.lt_unit {f : Fmt} {m : Nat} (e : Int) (h : f.frac < Nat.log2 m) : e < f.normalUnit m e ∧ e < f.unit m e := by
  unfold Fmt.unit Fmt.normalUnit
  split <;> omega

/-- Some value left below the known bits rounds as one half of the last of them does. -/
theorem Fmt.round_sticky {f : Fmt} (r : Rnd) (neg : Bool) {m : Nat} (e : Int) (h : f.frac < Nat.log2 m) :
    f.round r neg m e true = f.round r neg (2 * m + 1) (e - 1) false := by
  have hm : m ≠ 0 := by rintro rfl; simp at h
  have hlog : Nat.log2 (2 * m + 1) = Nat.log2 m + 1 := by
    rw [Nat.log2_def, if_pos (by omega), show (2 * m + 1) / 2 = m by omega]
  have hlead : e - 1 + (Nat.log2 (2 * m + 1) : Int) = e + (Nat.log2 m : Int) := by omega
  have hnormal : f.normalUnit (2 * m + 1) (e - 1) = f.normalUnit m e := by rw [Fmt.normalUnit, hlead, Fmt.normalUnit]
  have hunit : f.unit (2 * m + 1) (e - 1) = f.unit m e := by rw [Fmt.unit, hnormal, Fmt.unit]
  obtain ⟨hlt, hlt'⟩ := Fmt.lt_unit e h
  simp only [Fmt.round_eq, Fmt.tiny, hnormal, hunit, hlead, roundAt_sticky r neg m hlt, roundAt_sticky r neg m hlt']

theorem Fmt.roundFinite_sticky {f : Fmt} (total : Nat) (r : Rnd) (neg : Bool) {m : Nat} (e : Int) (h : f.frac < Nat.log2 m) :
    f.roundFinite total r neg m e true = f.deliver total r (.fin neg (2 * m + 1) (e - 1)) := by
  rw [Fmt.deliver, if_neg (by omega)]
  simp only [Fmt.roundFinite, Fmt.round_sticky r neg e h]

theorem Fmt.deliver_zero (f : Fmt) (total : Nat) (r : Rnd) (neg : Bool) (e : Int) :
    f.deliver total r (.fin neg 0 e) = (withSign total neg 0, Flags.none) := rfl

/-- A code up to the largest finite one is delivered. -/
theorem Fmt.deliver_of_le {f : Fmt} {r : Rnd} {neg : Bool} {m : Nat} {e : Int} (total : Nat) (hm : m ≠ 0)
    (h : (f.round r neg m e false).mag ≤ f.maxMag) :
    f.deliver total r (.fin neg m e) = (withSign total neg (f.round r neg m e false).mag,
      Flags.ofRound false (f.round r neg m e false).under (f.round r neg m e false).inexact) := by
  have hovf : ¬ (f.round r neg m e false).ovf = true := by
    rw [Fmt.round_eq] at h ⊢
    simpa using h
  rw [Fmt.deliver, if_neg hm]
  simp only [Fmt.roundFinite, if_neg hovf]

/-- A code above the largest finite one overflows (Table 5.2). -/
theorem Fmt.deliver_of_lt {f : Fmt} {r : Rnd} {neg : Bool} {m : Nat} {e : Int} (total : Nat) (hm : m ≠ 0)
    (h : f.maxMag < (f.round r neg m e false).mag) :
    f.deliver total r (.fin neg m e) = (withSign total neg (match r with
      | .rn => f.maxMag + 1
      | .rz => f.maxMag
      | .ru => if neg then f.maxMag else f.maxMag + 1
      | .rd => if neg then f.maxMag + 1 else f.maxMag), Flags.ofRound true false true) := by
  have hovf : (f.round r neg m e false).ovf = true := by
    rw [Fmt.round_eq] at h ⊢
    simpa using h
  rw [Fmt.deliver, if_neg hm]
  simp only [Fmt.roundFinite, if_pos hovf]
  cases r <;> cases neg <;> rfl

/-! ## The magnitude as a quotient of whole numbers of least subnormals -/

/-- The numerator of the magnitude `m · 2 ^ e` in least subnormals. -/
def Fmt.numer (f : Fmt) (m : Nat) (e : Int) : Nat := m * 2 ^ (e - f.low).toNat

/-- The denominator of a magnitude `m · 2 ^ e` in least subnormals. -/
def Fmt.denom (f : Fmt) (e : Int) : Nat := 2 ^ (f.low - e).toNat

theorem Fmt.denom_pos (f : Fmt) (e : Int) : 0 < f.denom e := Nat.two_pow_pos _

/-- The quotient by `2 ^ s`, the magnitude scaled by `2 ^ j`, is the magnitude in units of `2 ^ q`. -/
theorem Fmt.numer_mul (f : Fmt) (m : Nat) {e q : Int} {s j : Nat} (h : (s : Int) = j + q - f.low) :
    f.numer m e * 2 ^ j * 2 ^ (q - e).toNat = m * 2 ^ (e - q).toNat * (2 ^ s * f.denom e) := by
  have hexp : (e - f.low).toNat + j + (q - e).toNat = (e - q).toNat + (s + (f.low - e).toNat) := by omega
  simp only [Fmt.numer, Fmt.denom, Nat.mul_assoc, ← Nat.pow_add, ← Nat.add_assoc] at hexp ⊢
  rw [hexp]

section
variable {f : Fmt} {m : Nat} {e q : Int} {y u : Nat} (hu : 0 < u) (h : y * 2 ^ (q - e).toNat = m * 2 ^ (e - q).toNat * u)
include hu h

/-- At the unit of a normal or a greater one, at most the bits of a significand are left. -/
theorem Fmt.quot_lt (hq : f.normalUnit m e ≤ q) : y / u < 2 ^ (f.frac + 1) := by
  rw [Fmt.normalUnit] at hq
  refine Nat.div_lt_of_lt_mul (Nat.lt_of_mul_lt_mul_right (a := 2 ^ (q - e).toNat) ?_)
  calc y * 2 ^ (q - e).toNat = m * 2 ^ (e - q).toNat * u := h
    _ < 2 ^ (Nat.log2 m + 1) * 2 ^ (e - q).toNat * u := by
      have := Nat.lt_log2_self (n := m)
      gcongr
    _ = 2 ^ (Nat.log2 m + 1 + (e - q).toNat) * u := by rw [← Nat.pow_add]
    _ ≤ 2 ^ (f.frac + 1 + (q - e).toNat) * u := Nat.mul_le_mul_right u (Nat.pow_le_pow_right (by decide) (by omega))
    _ = u * 2 ^ (f.frac + 1) * 2 ^ (q - e).toNat := by rw [Nat.pow_add]; ring

/-- At the unit of a normal the significand is full. -/
theorem Fmt.le_quot (hm : m ≠ 0) (hq : f.normalUnit m e = q) : 2 ^ f.frac ≤ y / u := by
  rw [Fmt.normalUnit] at hq
  refine (Nat.le_div_iff_mul_le hu).2 (Nat.le_of_mul_le_mul_right (c := 2 ^ (q - e).toNat) ?_ (Nat.two_pow_pos _))
  calc 2 ^ f.frac * u * 2 ^ (q - e).toNat = 2 ^ (f.frac + (q - e).toNat) * u := by rw [Nat.pow_add]; ring
    _ = 2 ^ (Nat.log2 m + (e - q).toNat) * u := by congr 2; omega
    _ = 2 ^ Nat.log2 m * 2 ^ (e - q).toNat * u := by rw [Nat.pow_add]
    _ ≤ m * 2 ^ (e - q).toNat * u := by
      have := Nat.log2_self_le hm
      gcongr
    _ = y * 2 ^ (q - e).toNat := h.symm

end

/-- The rounded number of units has at most the bits of a significand, a carry out of it included. -/
theorem Fmt.roundAt_le {f : Fmt} (r : Rnd) (neg : Bool) {m : Nat} {e q : Int} (hq : f.normalUnit m e ≤ q) :
    (roundAt r neg m e false q).1 ≤ 2 ^ (f.frac + 1) := by
  rw [roundAt_exact r neg (Nat.two_pow_pos (q - e).toNat) rfl]
  exact (quotRound_le ..).trans (Fmt.quot_lt (Nat.two_pow_pos _) rfl hq)

/-- At the unit of a normal the rounded significand is full. -/
theorem Fmt.le_roundAt {f : Fmt} (r : Rnd) (neg : Bool) {m : Nat} {e q : Int} (hm : m ≠ 0) (hq : f.normalUnit m e = q) :
    2 ^ f.frac ≤ (roundAt r neg m e false q).1 := by
  rw [roundAt_exact r neg (Nat.two_pow_pos (q - e).toNat) rfl]
  exact (Fmt.le_quot (Nat.two_pow_pos _) rfl hm hq).trans (le_quotRound ..)

end Sys2Proof
end

section
/-! The machine's rounding is that of R77 to R79: the codes of a binade are evenly spaced, so the rounded quotient with the code of the
binade added is the code that R77 names; scaled into the normal range, the same quotient decides tininess. -/

namespace Sys2Proof.Machine

/-! ## The code space of a format -/

/-- The code `c + s · 2 ^ frac` is `c` steps of `2 ^ s`, where `c` is a full significand, or any below one with the subnormals' step 1. -/
theorem units_binade {f : Fmt} {c s : Nat} (hc : c ≤ 2 ^ (f.frac + 1)) (hs : s = 0 ∨ 2 ^ f.frac ≤ c) :
    units f (c + s * 2 ^ f.frac) = c * 2 ^ s := by
  have hp : 0 < 2 ^ f.frac := Nat.two_pow_pos _
  rw [Nat.pow_succ] at hc
  by_cases hlow : c < 2 ^ f.frac
  · obtain rfl : s = 0 := by omega
    simp [units, hlow]
  · have hnot : ¬ c + s * 2 ^ f.frac < 2 ^ f.frac := by omega
    rw [units, if_neg hnot, Nat.add_mul_mod_self_right, Nat.add_mul_div_right _ _ hp]
    rcases hc.lt_or_eq with h | rfl
    · have hdiv : c / 2 ^ f.frac = 1 := Nat.div_eq_of_lt_le (by omega) (by omega)
      have hmod := Nat.div_add_mod c (2 ^ f.frac)
      rw [hdiv, Nat.mul_one] at hmod
      rw [hdiv, hmod, Nat.add_sub_cancel_left]
    · rw [Nat.mul_mod_right, Nat.mul_div_cancel_left _ hp, Nat.add_zero, show 2 + s - 1 = s + 1 by omega, Nat.pow_succ, Nat.mul_assoc,
        Nat.mul_comm 2]

/-- Every code stands in a binade, below its end. -/
theorem exists_binade (f : Fmt) (k : Nat) : ∃ c s, k = c + s * 2 ^ f.frac ∧ c < 2 ^ (f.frac + 1) ∧ (s = 0 ∨ 2 ^ f.frac ≤ c) := by
  have hp : 0 < 2 ^ f.frac := Nat.two_pow_pos _
  by_cases hk : k < 2 ^ f.frac
  · exact ⟨k, 0, by simp, by rw [Nat.pow_succ]; omega, .inl rfl⟩
  · have hmod := Nat.mod_lt k hp
    obtain ⟨t, ht⟩ : ∃ t, k / 2 ^ f.frac = t + 1 := Nat.exists_eq_succ_of_ne_zero (Nat.div_pos (by omega) hp).ne'
    have hdm := Nat.div_add_mod k (2 ^ f.frac)
    rw [ht, Nat.mul_comm, Nat.add_mul, Nat.one_mul] at hdm
    exact ⟨2 ^ f.frac + k % 2 ^ f.frac, t, by omega, by rw [Nat.pow_succ]; omega, .inr (by omega)⟩

/-- A higher code is a higher value. -/
theorem units_strictMono (f : Fmt) : StrictMono (units f) := by
  refine strictMono_nat_of_lt_succ fun k => ?_
  obtain ⟨c, s, rfl, hc, hs⟩ := exists_binade f k
  rw [units_binade (by omega) hs, Nat.add_right_comm, units_binade hc (by omega)]
  exact Nat.mul_lt_mul_of_pos_right (by omega) (Nat.two_pow_pos s)

/-! ## R77 determines the code -/

/-- Rounding names at most one code. -/
theorem RoundsTo.unique {f : Fmt} {r : Rnd} {neg : Bool} {x d k k' : Nat} (hd : 0 < d) (h : RoundsTo f r neg x d k)
    (h' : RoundsTo f r neg x d k') : k = k' := by
  have hmono : ∀ {i j}, i < j → units f i * d < units f j * d := fun hij => Nat.mul_lt_mul_of_pos_right (units_strictMono f hij) hd
  have hle : ∀ {i j}, i < j → units f (i + 1) * d ≤ units f j * d := fun hij =>
    Nat.mul_le_mul_right d ((units_strictMono f).monotone hij)
  -- By symmetry the first code is the lower one.
  wlog hlt : k < k' generalizing k k'
  · rcases Nat.lt_trichotomy k k' with hk | hk | hk
    · exact absurd hk hlt
    · exact hk
    · exact (this h' h hk).symm
  have hdown : ¬ (x < units f (k + 1) * d ∧ units f k' * d ≤ x) := fun ⟨hx, hx'⟩ => by have := hle hlt; omega
  have hup : ¬ (x ≤ units f k * d ∧ ∀ j, j < k' → units f j * d < x) := fun ⟨hx, hx'⟩ => by have := hx' k hlt; omega
  cases r with
  | rn =>
    -- Two nearest codes are equally far off and even, and the odd one next to the lower is nearer.
    have hkk' := h k' (by omega)
    have hk'k := h' k (by omega)
    have hodd := h (k + 1) (by omega)
    have hbelow : units f k * d < units f (k + 1) * d := hmono (by omega)
    have habove : k + 1 ≠ k' → units f (k + 1) * d < units f k' * d := fun hne => hmono (by omega)
    dsimp only at hkk' hk'k hodd
    omega
  | rz => exact absurd ⟨h.2, h'.1⟩ hdown
  | ru => cases neg with
    | true => exact absurd ⟨h.2, h'.1⟩ hdown
    | false => exact absurd ⟨h.1, h'.2⟩ hup
  | rd => cases neg with
    | true => exact absurd ⟨h.1, h'.2⟩ hup
    | false => exact absurd ⟨h.2, h'.1⟩ hdown

/-! ## The rounded quotient is the code of R77 -/

/-- In a binade whose step is `u`, the rounded quotient by `u` leads to the code of R77. -/
theorem roundsTo_quotRound {f : Fmt} (hF : f.frac ≠ 0) (r : Rnd) (neg : Bool) {x d s : Nat} (hd : 0 < d)
    (hc : x / (2 ^ s * d) < 2 ^ (f.frac + 1)) (hs : s = 0 ∨ 2 ^ f.frac ≤ x / (2 ^ s * d)) :
    RoundsTo f r neg x d (quotRound r neg x (2 ^ s * d) + s * 2 ^ f.frac) := by
  have hsum := Nat.div_add_mod x (2 ^ s * d)
  have hρ := Nat.mod_lt x (Nat.mul_pos (Nat.two_pow_pos s) hd)
  have hlow : units f (x / (2 ^ s * d) + s * 2 ^ f.frac) * d = 2 ^ s * d * (x / (2 ^ s * d)) := by
    rw [units_binade hc.le hs]; ring
  have hhigh : units f (x / (2 ^ s * d) + 1 + s * 2 ^ f.frac) * d = 2 ^ s * d * (x / (2 ^ s * d)) + 2 ^ s * d := by
    rw [units_binade (Nat.succ_le_of_lt hc) (by omega), Nat.succ_eq_add_one]; ring
  have heven : s * 2 ^ f.frac % 2 = 0 := by
    obtain ⟨n, hn⟩ := Nat.exists_eq_succ_of_ne_zero hF
    rw [hn, Nat.pow_succ, ← Nat.mul_assoc, Nat.mul_mod_left]
  have hmono : ∀ {i j}, i < j → units f i * d < units f j * d := fun hij => Nat.mul_lt_mul_of_pos_right (units_strictMono f hij) hd
  unfold quotRound quotUp
  generalize 2 ^ s * d * (x / (2 ^ s * d)) = lo at *
  generalize x % (2 ^ s * d) = ρ at *
  generalize x / (2 ^ s * d) = c at *
  generalize 2 ^ s * d = u at *
  generalize s * 2 ^ f.frac = b at *
  have hdown : units f (c + b) * d ≤ x ∧ x < units f (c + b + 1) * d := by
    rw [Nat.add_right_comm]; omega
  have hup : x ≤ units f ((if ρ ≠ 0 then c + 1 else c) + b) * d ∧
      ∀ j, j < (if ρ ≠ 0 then c + 1 else c) + b → units f j * d < x := by
    split_ifs with hzero
    · refine ⟨by omega, fun j hj => ?_⟩
      have hle : units f j * d ≤ units f (c + b) * d := Nat.mul_le_mul_right d ((units_strictMono f).monotone (by omega))
      omega
    · refine ⟨by omega, fun j hj => ?_⟩
      have hlt := hmono hj
      omega
  cases r with
  | rn =>
    intro j hj
    have hbelow : j < c + b → units f j * d < units f (c + b) * d := hmono
    have habove : c + 1 + b < j → units f (c + 1 + b) * d < units f j * d := hmono
    have hcases : j < c + b ∨ j = c + b ∨ j = c + 1 + b ∨ c + 1 + b < j := by omega
    simp only [Bool.or_eq_true, Bool.and_eq_true, decide_eq_true_eq, beq_iff_eq] at hj ⊢
    split_ifs at hj ⊢ with htake
    · rcases hcases with h | rfl | rfl | h <;> omega
    · rcases hcases with h | rfl | rfl | h <;> omega
  | rz => simpa [RoundsTo] using hdown
  | ru => cases neg with
    | true => simpa [RoundsTo] using hdown
    | false => simpa [RoundsTo] using hup
  | rd => cases neg with
    | true => simpa [RoundsTo] using hup
    | false => simpa [RoundsTo] using hdown

/-- R77: the machine's number of units of `2 ^ q`, with the code of the binade added, is the code of the magnitude scaled by `2 ^ j`, where
the unit is that of a normal or the subnormals' own. The machine's inexact says that this code has another value. -/
theorem roundAt_roundsTo {f : Fmt} (hF : f.frac ≠ 0) (r : Rnd) (neg : Bool) {m : Nat} {e q : Int} (hm : m ≠ 0) {s j : Nat}
    (hs : (s : Int) = j + q - f.low) (hq : f.normalUnit m e = q ∨ f.normalUnit m e ≤ q ∧ s = 0) :
    let p := roundAt r neg m e false q
    let k := p.1 + s * 2 ^ f.frac
    RoundsTo f r neg (f.numer m e * 2 ^ j) (f.denom e) k ∧ units f k = p.1 * 2 ^ s ∧
      (p.2 = true ↔ units f k * f.denom e ≠ f.numer m e * 2 ^ j) := by
  have hratio := f.numer_mul m (e := e) hs
  have hu : 0 < 2 ^ s * f.denom e := Nat.mul_pos (Nat.two_pow_pos s) (f.denom_pos e)
  have hle : f.normalUnit m e ≤ q := hq.elim (·.le) (·.1)
  have hunits := units_binade (Fmt.roundAt_le r neg hle) (hq.symm.imp (·.2) (Fmt.le_roundAt r neg hm))
  refine ⟨?_, hunits, ?_⟩
  · rw [roundAt_exact r neg hu hratio]
    exact roundsTo_quotRound hF r neg (f.denom_pos e) (Fmt.quot_lt hu hratio hle) (hq.symm.imp (·.2) (Fmt.le_quot hu hratio hm))
  · rw [hunits, Nat.mul_assoc, roundAt_exact r neg hu hratio, quotRound_mul_ne_iff r neg _ hu, bne_iff_ne]

/-- R79: scaled by `2 ^ j` into the normal range, the magnitude rounds below the scaled smallest normal exactly where the machine finds it
tiny. -/
theorem roundsTo_scaled_lt_iff_tiny {f : Fmt} (hF : f.frac ≠ 0) (r : Rnd) (neg : Bool) {m : Nat} {e : Int} (hm : m ≠ 0) {j : Nat}
    (hj : 2 ^ f.frac * f.denom e ≤ f.numer m e * 2 ^ j) :
    ∃ k, RoundsTo f r neg (f.numer m e * 2 ^ j) (f.denom e) k ∧ (units f k < 2 ^ f.frac * 2 ^ j ↔ f.tiny r neg m e false = true) := by
  -- In the normal range the step of the scaled magnitude is that of its significand.
  have hnorm : 0 ≤ j + f.normalUnit m e - f.low := by
    have hlt : f.frac + (f.low - e).toNat < Nat.log2 m + 1 + (e - f.low).toNat + j := by
      rw [← Nat.pow_lt_pow_iff_right (a := 2) (by decide), Nat.pow_add, Nat.pow_add, Nat.pow_add _ (_ + 1)]
      refine hj.trans_lt (Nat.mul_lt_mul_of_pos_right (Nat.mul_lt_mul_of_pos_right Nat.lt_log2_self ?_) ?_) <;>
        exact Nat.two_pow_pos _
    rw [Fmt.normalUnit]
    omega
  obtain ⟨s, hs⟩ := Int.eq_ofNat_of_zero_le hnorm
  obtain ⟨hround, hunits, -⟩ := roundAt_roundsTo hF r neg (e := e) hm hs.symm (.inl rfl)
  refine ⟨_, hround, ?_⟩
  rw [hunits, Fmt.tiny, Bool.and_eq_true, Bool.or_eq_true, decide_eq_true_eq, decide_eq_true_eq, decide_eq_true_eq]
  have hlow := Fmt.le_roundAt r neg hm (rfl : f.normalUnit m e = _)
  have hhigh := Fmt.roundAt_le r neg (f.normalUnit m e).le_refl
  generalize (roundAt r neg m e false (f.normalUnit m e)).1 = c at *
  rw [Fmt.normalUnit, Fmt.low] at hs
  rcases lt_trichotomy j (s + 1) with hjs | rfl | hjs
  · -- The significand's place is that of a normal.
    have hge : 2 ^ f.frac * 2 ^ j ≤ c * 2 ^ s := Nat.mul_le_mul hlow (Nat.pow_le_pow_right (by decide) (by omega))
    omega
  · -- It is one place below, where only a carry makes a normal.
    have hcarry : c * 2 ^ s < 2 ^ f.frac * 2 ^ (s + 1) ↔ c < 2 ^ (f.frac + 1) := by
      rw [Nat.pow_succ, Nat.pow_succ, Nat.mul_comm (2 ^ s), ← Nat.mul_assoc, Nat.mul_lt_mul_right (Nat.two_pow_pos s)]
    omega
  · -- It is two or more places below.
    have hlt : c * 2 ^ s < 2 ^ f.frac * 2 ^ j := by
      calc c * 2 ^ s ≤ 2 ^ (f.frac + 1) * 2 ^ s := Nat.mul_le_mul_right _ hhigh
        _ = 2 ^ (f.frac + 1 + s) := (Nat.pow_add ..).symm
        _ < 2 ^ (f.frac + j) := Nat.pow_lt_pow_right (by decide) (by omega)
        _ = 2 ^ f.frac * 2 ^ j := Nat.pow_add ..
    omega

/-- R77: the machine's code is the one that the mode names, and its inexact flag says that the value changed. -/
theorem round_roundsTo {f : Fmt} (hF : f.frac ≠ 0) (r : Rnd) (neg : Bool) {m : Nat} (e : Int) (hm : m ≠ 0) :
    RoundsTo f r neg (f.numer m e) (f.denom e) (f.round r neg m e false).mag ∧
    ((f.round r neg m e false).inexact = true ↔ units f (f.round r neg m e false).mag * f.denom e ≠ f.numer m e) := by
  have hunit : f.normalUnit m e ≤ f.unit m e ∧ f.low ≤ f.unit m e ∧ (f.normalUnit m e = f.unit m e ∨ f.unit m e = f.low) := by
    unfold Fmt.unit; split <;> omega
  obtain ⟨hround, -, hinexact⟩ := roundAt_roundsTo hF r neg (e := e) (q := f.unit m e) (s := (f.unit m e - f.low).toNat) (j := 0) hm
    (by omega) (by omega)
  rw [Nat.pow_zero, Nat.mul_one] at hround hinexact
  exact ⟨hround, hinexact⟩

/-- R79: the machine's test finds the results whose value, rounded in the normal range of any scale, is below the smallest normal. -/
theorem tiny_iff {f : Fmt} (hF : f.frac ≠ 0) (r : Rnd) (neg : Bool) {m : Nat} (e : Int) (hm : m ≠ 0) :
    f.tiny r neg m e false = true ↔ ∀ j k, 2 ^ f.frac * f.denom e ≤ f.numer m e * 2 ^ j →
      RoundsTo f r neg (f.numer m e * 2 ^ j) (f.denom e) k → units f k < 2 ^ f.frac * 2 ^ j := by
  constructor
  · intro h j k hj hk
    obtain ⟨k', hk', hiff⟩ := roundsTo_scaled_lt_iff_tiny hF r neg hm hj
    rw [hk.unique (f.denom_pos e) hk']
    exact hiff.2 h
  · intro h
    have hj : 2 ^ f.frac * f.denom e ≤ f.numer m e * 2 ^ (f.frac + (f.low - e).toNat) := by
      rw [Nat.pow_add]
      exact Nat.le_mul_of_pos_left _ (Nat.mul_pos (Nat.pos_of_ne_zero hm) (Nat.two_pow_pos _))
    obtain ⟨k, hk, hiff⟩ := roundsTo_scaled_lt_iff_tiny hF r neg hm hj
    exact hiff.1 (h _ k hj hk)

/-- Settles O58: the machine's code is the one of R77, its tininess that of R79, and what lies above the largest finite code overflows. -/
theorem roundingAndItsFlags : Obligations.RoundingAndItsFlags := by
  intro f total r neg m e hf
  have hF : f.frac ≠ 0 := by
    rcases hf with ⟨rfl, -⟩ | ⟨rfl | rfl, -⟩ <;> decide
  refine ⟨f.deliver_zero total r neg e, Fmt.roundFinite_sticky total r neg e, fun hm => ?_⟩
  obtain ⟨hround, hinexact⟩ := round_roundsTo hF r neg e hm
  refine ⟨_, hround, fun hle => ⟨_, _, hinexact, ?_, Fmt.deliver_of_le total hm hle⟩, fun hlt => ?_⟩
  · rw [Fmt.round_eq, Bool.and_eq_true, tiny_iff hF r neg e hm]
    rfl
  · refine (Fmt.deliver_of_lt total hm hlt).trans ?_
    cases r <;> rfl

end Sys2Proof.Machine
end

section
/-! The pick of a row: the first split of the age order that is a candidate and whose needs the cycle still has. -/

namespace Sys2Proof.Machine

section
variable {s : State} {c : Crew} {p : Split} {n : Needs} {core row : Nat}

/-- What `canPick` asks of a split that can be picked. -/
theorem canPick_eq_some (h : s.canPick c p = some n) :
    s.candidate c p = true ∧ s.needs c p = some n ∧ s.pickable c.core c.row n = true := by
  unfold State.canPick at h
  split at h
  · rename_i hcandidate
    split at h
    · rename_i m hneeds
      obtain ⟨hpickable, hm⟩ := Option.ite_none_right_eq_some.1 h
      obtain rfl := Option.some.inj hm
      exact ⟨hcandidate, hneeds, hpickable⟩
    · cases h
  · cases h

/-- A candidate may issue, is not yet picked in the cycle, and entered the age order before it (R269, R270). -/
theorem candidate_iff : s.candidate c p = true ↔
    p.tried = false ∧ s.mayIssue c p = true ∧ (∀ q ∈ s.picks, ¬ (q.cid = c.cid ∧ q.sid = p.sid)) ∧
    (c.cid, p.sid) ∉ s.entered ∧ (c.cid, p.sid) ∉ s.woke := by
  simp [State.candidate, and_assoc, imp_iff_not_or]

/-- A row may pick that has made fewer than two picks, while no later row of its core has made one (R271, R272). -/
theorem rowOpen_iff : s.rowOpen core row = true ↔
    (s.picks.filter fun q => q.core == core && q.row == row).length < 2 ∧
    ∀ q ∈ s.picks, q.core = core → (q.row + 4 - s.cycle % 4) % 4 ≤ (row + 4 - s.cycle % 4) % 4 := by
  simp only [State.rowOpen, Bool.and_eq_true, decide_eq_true_eq, List.all_eq_true, Bool.not_eq_true', Bool.and_eq_false_iff,
    beq_eq_false_iff_ne, decide_eq_false_iff_not, Nat.not_lt, imp_iff_not_or, ne_eq]
  rfl

theorem fewReads_iff {banks : List Nat} : fewReads banks = true ↔ ∀ b, b < 4 → banks.count b ≤ 2 := by
  have hbanks : ∀ b, b ∈ [0, 1, 2, 3] ↔ b < 4 := by
    intro b
    simp only [List.mem_cons, List.not_mem_nil, or_false]
    omega
  simp only [fewReads, List.all_eq_true, hbanks, decide_eq_true_eq]

/-- A second pick overlaps no lane of the first where both are of the lane ISA, and both together read no bank thrice (Table 15.1). -/
theorem fits_iff {m : Needs} : m.fits n = true ↔
    (m.lane = true → n.lane = true → m.mask &&& n.mask = 0) ∧ ∀ b, b < 4 → (m.banks ++ n.banks).count b ≤ 2 := by
  rw [Needs.fits, Bool.and_eq_true, fewReads_iff]
  cases m.lane <;> cases n.lane <;> simp

/-- What an instruction finds that may be the next pick of its row (R270 to R272). -/
theorem pickable_needsOf {i : Instr} (h : s.pickable core row (needsOf i p) = true) :
    (i.sfu = true → sget 0 s.sfu (4 * core + row) ≤ s.cycle) ∧
    (∀ x, i.port = some x → ∀ q ∈ s.picks, q.core = core → q.needs.port ≠ some x) ∧
    ∀ q ∈ s.picks, q.core = core → q.row = row →
      (q.needs.lane = true → (encode i).msb = false → q.needs.mask &&& p.mask = 0) ∧
      ∀ b, b < 4 → ((q.needs.banks ++ i.reads.map (· % 4)).count b) ≤ 2 := by
  simp only [State.pickable, Bool.and_eq_true, Bool.or_eq_true, Bool.not_eq_true', decide_eq_true_eq, List.all_eq_true] at h
  obtain ⟨⟨hport, hsfu⟩, hfits⟩ := h
  refine ⟨fun hi => hsfu.resolve_left (by simp [needsOf, hi]), fun x hx q hq hcore hclaim => ?_, fun q hq hcore hrow => ?_⟩
  · simp only [State.portTaken, needsOf, hx, Option.isSome_some, Bool.true_and, List.any_eq_false] at hport
    exact hport q hq (by simp [hcore, hclaim])
  · obtain ⟨-, hfit⟩ := hfits q (List.mem_filter.2 ⟨hq, by simp [hcore, hrow]⟩)
    simpa [needsOf] using fits_iff.1 hfit

/-- What `rowPick` takes from one entry of the age order. -/
noncomputable def State.entryPick (s : State) (core row : Nat) (e : Nat × Nat) : Option (Crew × Split × Needs) :=
  match s.crew? e.1 with
  | some c =>
    if c.core == core && c.row == row then
      (match c.split? e.2 with
       | some p => (s.canPick c p).map fun n => (c, p, n)
       | none => none)
    else none
  | none => none

theorem rowPick_eq (s : State) (core row : Nat) :
    s.rowPick core row = if s.rowOpen core row then s.age.findSome? (s.entryPick core row) else none := rfl

theorem entryPick_eq {e : Nat × Nat} (hc : s.crew? e.1 = some c) (hcore : c.core = core) (hrow : c.row = row)
    (hp : c.split? e.2 = some p) : s.entryPick core row e = (s.canPick c p).map fun n => (c, p, n) := by
  simp [State.entryPick, hc, hcore, hrow, hp]

theorem entryPick_eq_some {e : Nat × Nat} (h : s.entryPick core row e = some (c, p, n)) :
    s.crew? e.1 = some c ∧ c.core = core ∧ c.row = row ∧ c.split? e.2 = some p ∧ s.canPick c p = some n := by
  unfold State.entryPick at h
  split at h
  · rename_i d hd
    obtain ⟨hplace, h⟩ := Option.ite_none_right_eq_some.1 h
    split at h
    · rename_i q hq
      obtain ⟨m, hm, heq⟩ := Option.map_eq_some_iff.1 h
      obtain ⟨rfl, rfl, rfl⟩ : d = c ∧ q = p ∧ m = n := by simpa using heq
      obtain ⟨hcore, hrow⟩ : d.core = core ∧ d.row = row := by simpa using hplace
      exact ⟨hd, hcore, hrow, hq, hm⟩
    · cases h
  · cases h

/-- The pick of a row is the first entry of the age order with a split of the row that can be picked (R271). -/
theorem rowPick_eq_some (h : s.rowPick core row = some (c, p, n)) :
    s.rowOpen core row = true ∧ c.core = core ∧ c.row = row ∧ s.crew? c.cid = some c ∧ c.split? p.sid = some p ∧
    s.canPick c p = some n ∧
    ∃ before after, s.age = before ++ (c.cid, p.sid) :: after ∧ ∀ e ∈ before, ∀ d q, s.crew? e.1 = some d → d.core = core →
      d.row = row → d.split? e.2 = some q → s.canPick d q = none := by
  rw [rowPick_eq] at h
  obtain ⟨hopen, h⟩ := Option.ite_none_right_eq_some.1 h
  obtain ⟨before, ⟨cid, sid⟩, after, hage, hentry, hbefore⟩ := List.findSome?_eq_some_iff.1 h
  obtain ⟨hcrew, hcore, hrow, hsplit, hcan⟩ := entryPick_eq_some hentry
  obtain rfl := State.crew?_cid hcrew
  obtain rfl := Crew.split?_sid hsplit
  refine ⟨hopen, hcore, hrow, hcrew, hsplit, hcan, before, after, hage, fun e he d q hd hdcore hdrow hq => ?_⟩
  exact Option.map_eq_none_iff.1 ((entryPick_eq hd hdcore hdrow hq).symm.trans (hbefore e he))

/-- The rows of a core in the order in which they pick, up to the one that picks (R272). -/
theorem rowOrder_findSome? {k : Crew × Split × Needs} {f : Nat → Option (Crew × Split × Needs)}
    (h : s.rowOrder.findSome? f = some k) :
    ∃ j, j < 4 ∧ f ((s.cycle + j) % 4) = some k ∧ ∀ m, m < j → f ((s.cycle + m) % 4) = none := by
  rw [State.rowOrder, List.findSome?_map, List.range_eq_range'] at h
  obtain ⟨before, j, after, hrange, hpick, hnone⟩ := List.findSome?_eq_some_iff.1 h
  obtain ⟨i, hi, rfl, hafter⟩ := List.range'_eq_append_iff.1 hrange
  obtain ⟨rfl, hlen, -⟩ := List.range'_eq_cons_iff.1 hafter.symm
  rw [Nat.zero_add, Nat.mul_one] at hpick
  exact ⟨i, by omega, hpick, fun m hm => hnone m (by simpa using hm)⟩

end

/-- Settles O6: the guards of `rowPick` and `canPick` one by one, and the first row of a core with a pick. -/
theorem theOldestCandidateIssues : Obligations.TheOldestCandidateIssues := by
  refine ⟨fun s core row c p n h => ?_, fun s k h => ?_⟩
  · obtain ⟨hopen, rfl, rfl, hcrew, hsplit, hcan, hage⟩ := rowPick_eq_some h
    obtain ⟨hcandidate, hneeds, hpickable⟩ := canPick_eq_some hcan
    obtain ⟨hfew, hlater⟩ := rowOpen_iff.1 hopen
    obtain ⟨-, hmay, hfresh, hentered, hwoke⟩ := candidate_iff.1 hcandidate
    refine ⟨hfew, hlater, rfl, rfl, hcrew, hsplit, hmay, hentered, hwoke, hfresh, hage, fun i hdue hfetch => ?_⟩
    obtain rfl : needsOf i p = n := by simpa [State.needs, hdue, hfetch] using hneeds
    exact pickable_needsOf hpickable
  · obtain ⟨core, -, hcore⟩ := List.exists_of_findSome?_eq_some h
    obtain ⟨j, hj, hpick, hnone⟩ := rowOrder_findSome? hcore
    obtain ⟨-, rfl, -⟩ := rowPick_eq_some hpick
    exact ⟨j, hj, hpick, hnone⟩

end Sys2Proof.Machine
end

section
/-! Lane arithmetic: the rows of the integer and floating-point tables, the exchange of lanes, and quantisation. -/

namespace Sys2Proof.Machine

/-- Settles O8: every row is the shared operation on its operands with the value of the table. -/
theorem laneIntegerResults : Obligations.LaneIntegerResults := by
  intro s c p i d srcs rd f hrow hissues hclear
  rw [hrow.exec_eq]
  exact laneInt_goes hissues hclear

/-- Settles O9: every row is the shared operation on its operands, in the crew's rounding mode, with the value and flags of the table. -/
theorem laneFloatResults : Obligations.LaneFloatResults := by
  intro s c p i d srcs rd f hrow hissues hclear
  rw [hrow.exec_eq]
  exact laneOp_goes hissues hclear

/-! ## Instructions whose value turns on the lane -/

theorem Crew.raiseFlags_zero (c : Crew) : c.raiseFlags 0 = c := by
  simp [Crew.raiseFlags]

section
variable {s : State} {c : Crew} {p : Split}

/-- An instruction that writes `val l` to each active lane `l`, raises the flags `fl` and goes on. -/
theorem issue_lanes {body : Crew → Split → State → Res} (h : Issues s c p) (d : Nat) (val : Nat → Word) (fl : Flags)
    (hb : body (reads s c p) p (begun s c p) = .ok (((begun s c p).modCrew c.cid fun k =>
      (k.setLanes d ((activeLanes c p).map fun l => (l, val l))).raiseFlags fl).setPc c.cid p.sid (p.pc + 4))) :
    ∃ (t : State) (c' : Crew), issue s body = .next t ∧ Goes s t c c' p (p.issued (p.pc + 4)) ∧ OnlyLanes c c' p ∧
      LanesHold c c' p d val ∧ c'.fpflags = c.fpflags ||| fl := by
  obtain ⟨t, ht, hgoes⟩ := issue_crew h _ hb (fun k => by simp) (by simp) (by simp)
  refine ⟨t, _, ht, hgoes, ?_, ⟨fun l n hl => ?_, fun k => ?_⟩, ?_⟩
  · apply onlyLanes_of
    rw [Crew.gone, Crew.raiseFlags, Crew.setLanes_keep]
    rfl
  · rw [Crew.gone_vAbs, Crew.raiseFlags_vAbs, Crew.vAbs_setLanes _ d val _ activeLanes_lt l n hl, Crew.counted_vAbs, Crew.counted_wb]
  · rw [Crew.gone_vpoison, Crew.raiseFlags_vpoison, Crew.vpoison_setLanes, Crew.counted_vpoison, Crew.counted_wb]
    simp
  · rw [Crew.gone_fpflags, Crew.raiseFlags, Crew.setLanes_fpflags, Crew.counted_fpflags]

/-- An instruction that writes `val l` to each active lane `l`, raises no flag and goes on. -/
theorem issue_lanes_noFlags {body : Crew → Split → State → Res} (h : Issues s c p) (d : Nat) (val : Nat → Word)
    (hb : body (reads s c p) p (begun s c p) = .ok (((begun s c p).modCrew c.cid fun k =>
      k.setLanes d ((activeLanes c p).map fun l => (l, val l))).setPc c.cid p.sid (p.pc + 4))) :
    ∃ (t : State) (c' : Crew), issue s body = .next t ∧ Goes s t c c' p (p.issued (p.pc + 4)) ∧ OnlyLanes c c' p ∧
      LanesHold c c' p d val ∧ c'.fpflags = c.fpflags := by
  simpa using issue_lanes h d val 0 (by simpa only [Crew.raiseFlags_zero] using hb)

@[simp] theorem State.seen_absent (s : State) (c : Crew) (sid : Nat) : (s.seen c sid).absent = c.absent := by rw [State.seen_eq]

/-! ## SHFL (R113) -/

/-- Operands of which none is poisoned are not poisoned without the first. -/
theorem Uses.poison_tail {x : Src} {xs : List Src} {wr : List Nat} {r : Crew}
    (h : ({ srcs := x :: xs, wr := wr } : Uses).poison s r p = none) : ({ srcs := xs, wr := wr } : Uses).poison s r p = none := by
  simp only [Uses.poison, List.filterMap_nil, List.append_nil, Option.map_eq_none_iff, List.head?_eq_none_iff,
    List.filterMap_eq_nil_iff] at h ⊢
  exact fun y hy => h y (List.mem_cons_of_mem _ hy)

theorem shfl_goes {d : BitVec 8} {n : BitVec 7} {b : Src} (h : Issues s c p)
    (hclear : Clear s (reads s c p) p { srcs := [.v n, b], wr := [d.toNat] } false)
    (hclean : ∀ l ∈ activeLanes c p, 32 * (c.wb + n.toNat) + (s.op (reads s c p) l b).toNat % 32 ∉ c.vpoison) :
    ∃ (t : State) (c' : Crew), exec (.shfl d (.v n) b) s = .next t ∧ Goes s t c c' p (p.issued (p.pc + 4)) ∧ OnlyLanes c c' p ∧
      LanesHold c c' p d.toNat (fun l =>
        if c.absent.getLsbD ((s.op (reads s c p) l b).toNat % 32) then 0
        else c.v ((s.op (reads s c p) l b).toNat % 32) n.toNat) ∧ c'.fpflags = c.fpflags := by
  have hpoison : ({ srcs := [b], wr := [d.toNat] } : Uses).poison (begun s c p) (reads s c p) p = none := Uses.poison_tail hclear.clean
  have hsource : ((activeLanes c p).find? fun l =>
      c.vpoison.contains (32 * (c.wb + n.toNat) + (s.op (reads s c p) l b).toNat % 32)) = none := by
    simpa using hclean
  rw [exec_shfl, execShfl]
  refine issue_lanes_noFlags h d.toNat _ ?_
  simp only [checkUses_ok hclear, checkPoison_ok hpoison, State.countIssue_op, State.seen_active, State.seen_v, State.seen_vpoison,
    State.seen_wb, State.seen_absent, State.seen_cid, hsource, State.advance_eq]
  rfl

/-- SHFL of an operand that is no lane register raises ILLOPND. -/
theorem shfl_illopnd {d : BitVec 8} {a b : Src} (h : Issues s c p) (ha : ∀ n, a ≠ .v n) :
    exec (.shfl d a b) s = .next (s.raise c.cid p.sid (illopnd p (encode (.shfl d a b)))) := by
  have htrap (w : Word) : issue s (fun _ p _ => .error (.trap (illopnd p w))) = .next (s.raise c.cid p.sid (illopnd p w)) :=
    issue_trap h rfl
  rw [exec_shfl]
  cases a with
  | v n => exact absurd rfl (ha n)
  | s n => exact htrap _
  | nbr e j => exact htrap _

end

/-- Settles O11: the source lanes are read before any lane is written. -/
theorem shfl : Obligations.Shfl :=
  ⟨fun _ _ _ _ _ _ h hclear hclean => shfl_goes h hclear hclean, fun _ _ _ _ _ _ ha h => shfl_illopnd h ha⟩

/-! ## The groups and seats of quantisation (R108, R109) -/

/-- The active lanes of a group of 16 lanes (R108). -/
def laneGroup (c : Crew) (p : Split) (g : Nat) : List Nat := (activeLanes c p).filter fun l => decide (l / 16 = g)

/-- The active lanes are those of the first group and then those of the second. -/
theorem laneGroup_append (c : Crew) (p : Split) : laneGroup c p 0 ++ laneGroup c p 1 = activeLanes c p := by
  have hlanes : (lanes.filter fun l => decide (l / 16 = 0)) ++ (lanes.filter fun l => decide (l / 16 = 1)) = lanes := by decide
  simp only [laneGroup, activeLanes, maskLanes]
  simp only [List.filter_comm (fun l => decide (l / 16 = _)), ← List.filter_append, hlanes]

@[simp] theorem laneGroup_seen (s : State) (c : Crew) (sid : Nat) (p : Split) (g : Nat) :
    laneGroup (s.seen c sid) p g = laneGroup c p g := by
  rw [laneGroup, State.seen_active, laneGroup]

/-- In a group, the group is that of the lane. -/
theorem map_laneGroup {α : Type} (c : Crew) (p : Split) (f : Nat → Nat → α) (g : Nat) :
    (laneGroup c p g).map (f g) = (laneGroup c p g).map fun l => f (l / 16) l := by
  refine List.map_congr_left fun l hl => ?_
  obtain ⟨-, hg⟩ := List.mem_filter.1 hl
  rw [of_decide_eq_true hg]

/-- A function of the lane and its group, over the lanes of each group, is the same function over the active lanes. -/
theorem flatMap_laneGroup {α : Type} (c : Crew) (p : Split) (f : Nat → Nat → α) :
    ([0, 1].flatMap fun g => (laneGroup c p g).map (f g)) = (activeLanes c p).map fun l => f (l / 16) l := by
  simp only [List.flatMap_cons, List.flatMap_nil, List.append_nil, map_laneGroup c p f, ← List.map_append, laneGroup_append]

theorem orFlags_cons (x : Flags) (xs : List Flags) : orFlags (x :: xs) = x ||| orFlags xs := by
  have hfold : ∀ (ys : List Flags) (a b : Flags), ys.foldl (· ||| ·) (a ||| b) = a ||| ys.foldl (· ||| ·) b := by
    intro ys
    induction ys with
    | nil => intro a b; rfl
    | cons y ys ih => intro a b; rw [List.foldl_cons, List.foldl_cons, BitVec.or_assoc, ih]
  have hstart := hfold xs x 0
  rw [orFlags, List.foldl_cons, BitVec.or_comm 0 x, hstart]
  rfl

theorem orFlags_append (xs ys : List Flags) : orFlags (xs ++ ys) = orFlags xs ||| orFlags ys := by
  induction xs with
  | nil => simp [orFlags]
  | cons x xs ih => rw [List.cons_append, orFlags_cons, orFlags_cons, ih, BitVec.or_assoc]

/-- The flags of lanes that all raise the same. -/
theorem orFlags_map_const (ls : List Nat) (x : Flags) : orFlags (ls.map fun _ => x) = if ls.isEmpty then 0 else x := by
  induction ls with
  | nil => rfl
  | cons l ls ih =>
    rw [List.map_cons, orFlags_cons, ih]
    cases ls <;> simp

/-- The flags of each group that has an active lane are those of the active lanes, each with the flags of its group. -/
theorem orFlags_laneGroup (c : Crew) (p : Split) (fl : Nat → Flags) :
    orFlags ([0, 1].map fun g => if (laneGroup c p g).isEmpty then 0 else fl g) =
      orFlags ((activeLanes c p).map fun l => fl (l / 16)) := by
  rw [← laneGroup_append, List.map_append, orFlags_append, ← map_laneGroup c p (fun g _ => fl g) 0,
    ← map_laneGroup c p (fun g _ => fl g) 1, orFlags_map_const, orFlags_map_const]
  simp [orFlags]

/-- The field that QPACK gives to lane `l`, whose descriptor has format `fmt`: the codes of its seat's active lanes (R109). -/
def qpackField (act : List Nat) (code : Nat → Nat) (fmt l : Nat) : Nat :=
  [0, 1, 2, 3].foldl (fun x j => if act.contains (4 * (l / 4) + j) then x ||| code (4 * (l / 4) + j) <<< (narrowWidth fmt * j) else x) 0

/-- A bit of a field of shifted codes stands in one of them. -/
theorem testBit_foldl_or_shift (take : Nat → Bool) (code : Nat → Nat) (w k : Nat) (js : List Nat) (x : Nat) :
    (js.foldl (fun x j => if take j then x ||| code j <<< (w * j) else x) x).testBit k = true ↔
      x.testBit k = true ∨ ∃ j ∈ js, take j = true ∧ w * j ≤ k ∧ (code j).testBit (k - w * j) = true := by
  induction js generalizing x with
  | nil => simp
  | cons j js ih =>
    rw [List.foldl_cons, ih, List.exists_mem_cons_iff]
    cases take j <;> simp [Nat.testBit_shiftLeft, or_assoc]

theorem testBit_qpackField (act : List Nat) (code : Nat → Nat) (fmt l k : Nat) :
    (qpackField act code fmt l).testBit k = true ↔ ∃ j, j < 4 ∧ 4 * (l / 4) + j ∈ act ∧ narrowWidth fmt * j ≤ k ∧
      (code (4 * (l / 4) + j)).testBit (k - narrowWidth fmt * j) = true := by
  have hseat : ∀ j, j ∈ [0, 1, 2, 3] ↔ j < 4 := by
    intro j
    simp only [List.mem_cons, List.not_mem_nil, or_false]
    omega
  rw [qpackField, testBit_foldl_or_shift (fun j => act.contains (4 * (l / 4) + j)) (fun j => code (4 * (l / 4) + j))]
  simp [hseat, -List.mem_cons]

/-! ## QSCALE, QPACK and QUNPK -/

section
variable {s : State} {c : Crew} {p : Split}

theorem qpack_goes {d : BitVec 8} {a b : Src} (h : Issues s c p)
    (hclear : Clear s (reads s c p) p { srcs := [a, b], wr := [d.toNat] } false) :
    ∃ (t : State) (c' : Crew), exec (.qpack d a b) s = .next t ∧ Goes s t c c' p (p.issued (p.pc + 4)) ∧ OnlyLanes c c' p ∧
      LanesHold c c' p d.toNat (fun l =>
        if 4 < (s.op (reads s c p) l b).toNat / 65536 % 8 then 0
        else BitVec.ofNat 32 (qpackField (activeLanes c p) (fun l => (qcode (s.op (reads s c p) l a) (s.op (reads s c p) l b)).1)
          ((s.op (reads s c p) l b).toNat / 65536 % 8) l)) ∧
      c'.fpflags = c.fpflags ||| orFlags ((activeLanes c p).map fun l => (qcode (s.op (reads s c p) l a) (s.op (reads s c p) l b)).2) := by
  rw [exec_qpack, execQpack]
  refine issue_lanes h d.toNat _ _ ?_
  simp only [checkAll_ok hclear, State.countIssue_op, State.seen_active, State.seen_cid, State.advance_eq]
  rfl

theorem qunpk_goes {d : BitVec 8} {a b : Src} (h : Issues s c p)
    (hclear : Clear s (reads s c p) p { srcs := [a, b], wr := [d.toNat] } false) :
    ∃ (t : State) (c' : Crew), exec (.qunpk d a b) s = .next t ∧ Goes s t c c' p (p.issued (p.pc + 4)) ∧ OnlyLanes c c' p ∧
      LanesHold c c' p d.toNat (fun l => (qunpkOf l (s.op (reads s c p) l a) (s.op (reads s c p) l b)).1) ∧
      c'.fpflags = c.fpflags ||| orFlags ((activeLanes c p).map fun l =>
        (qunpkOf l (s.op (reads s c p) l a) (s.op (reads s c p) l b)).2) := by
  rw [exec_qunpk, execQunpk]
  refine issue_lanes h d.toNat _ _ ?_
  simp only [checkAll_ok hclear, State.countIssue_op, State.seen_active, State.seen_cid, State.advance_eq, List.map_map]
  rfl

/-- The registers that a QSCALE reads after its operand (R108). -/
def qscaleMore (a : Src) (len : BitVec 1) : List Nat :=
  match a with
  | .v n => if len == 1#1 then [n.toNat + 1, n.toNat + 2] else []
  | _ => []

/-- The words of a group of QSCALE, in element order. -/
def qscaleBits (s : State) (c : Crew) (p : Split) (a : Src) (len : BitVec 1) (g : Nat) : List Word :=
  ((laneGroup c p g).map fun l => s.op c l a) ++
    (qscaleMore a len).flatMap fun n => (laneGroup c p g).map fun l => c.v l n

/-- The descriptor of a group of QSCALE, with its flags. -/
def qscaleResult (s : State) (c : Crew) (p : Split) (a : Src) (f : BitVec 3) (len : BitVec 1) (g : Nat) : Word × Flags :=
  qscaleOf (openScale f.toNat (qscaleBits s c p a len g)) f.toNat (len == 1#1) ((qscaleBits s c p a len g).map readF32)

/-- Whether QSCALE may read an operand: a long group reads lane registers (R108). -/
def qscaleTakes (a : Src) (len : BitVec 1) : Bool :=
  !(len == 1#1) || (match a with | .v _ => true | _ => false)

/-- What QSCALE finds for the two groups: the active lanes of each, with its descriptor and flags. -/
def qscaleGroups (s : State) (c : Crew) (p : Split) (a : Src) (f : BitVec 3) (len : BitVec 1) : List (List Nat × (Word × Flags)) :=
  [0, 1].map fun g => (laneGroup c p g, qscaleResult s c p a f len g)

/-- QSCALE, with the parts of its meaning under names. -/
theorem exec_qscale_groups (s : State) (d : BitVec 8) (a : Src) (f : BitVec 3) (len : BitVec 1) :
    exec (.qscale d a f len) s = issue s fun c p s => (do
      need (decide (f.toNat < 5)) (illop p (encode (.qscale d a f len)))
      need (qscaleTakes a len) (illopnd p (encode (.qscale d a f len)))
      checkAll (encode (.qscale d a f len)) { srcs := [a], rd := qscaleMore a len, wr := [d.toNat] } s c p
      pure ((s.modCrew c.cid fun k =>
        (k.setLanes d.toNat ((qscaleGroups s c p a f len).flatMap fun e => e.1.map fun l => (l, e.2.1))).raiseFlags
          (orFlags ((qscaleGroups s c p a f len).map fun e => if e.1.isEmpty then 0 else e.2.2))).advance c p)) := by
  refine (exec_qscale ..).trans ?_
  unfold execQscale
  refine congrArg (issue s) (funext fun c => funext fun p => funext fun s => ?_)
  cases a <;> rfl

@[simp] theorem countIssue_qscaleResult (a : Src) (f : BitVec 3) (len : BitVec 1) (g x y : Nat) :
    qscaleResult (s.countIssue x y) c p a f len g = qscaleResult s c p a f len g := by
  simp only [qscaleResult, qscaleBits, State.countIssue_op]

theorem qscale_goes {d : BitVec 8} {a : Src} {f : BitVec 3} {len : BitVec 1} (h : Issues s c p) (hf : f.toNat < 5)
    (hlen : len = 0#1 ∨ ∃ n, a = .v n)
    (hclear : Clear s (reads s c p) p { srcs := [a], rd := qscaleMore a len, wr := [d.toNat] } false) :
    ∃ (t : State) (c' : Crew), exec (.qscale d a f len) s = .next t ∧ Goes s t c c' p (p.issued (p.pc + 4)) ∧ OnlyLanes c c' p ∧
      LanesHold c c' p d.toNat (fun l => (qscaleResult s (reads s c p) p a f len (l / 16)).1) ∧
      c'.fpflags = c.fpflags ||| orFlags ((activeLanes c p).map fun l => (qscaleResult s (reads s c p) p a f len (l / 16)).2) := by
  have htakes : qscaleTakes a len = true := by
    rcases hlen with rfl | ⟨n, rfl⟩
    · rfl
    · simp [qscaleTakes]
  rw [exec_qscale_groups]
  refine issue_lanes h d.toNat _ _ ?_
  simp only [need_true (decide_eq_true hf), need_true htakes, checkAll_ok hclear, qscaleGroups, List.flatMap_map, List.map_map,
    Function.comp_def, countIssue_qscaleResult,
    flatMap_laneGroup (reads s c p) p fun g l => (l, (qscaleResult s (reads s c p) p a f len g).1),
    orFlags_laneGroup (reads s c p) p fun g => (qscaleResult s (reads s c p) p a f len g).2, State.seen_active, State.seen_cid,
    State.advance_eq]
  rfl

end

/-- Settles O12: the groups of QSCALE together are the active lanes, and a bit of QPACK's field is one of a code of the seat. -/
theorem quantisingResults : Obligations.QuantisingResults := by
  refine ⟨?_, fun s c p d a b h hclear => ⟨?_, qunpk_goes h hclear⟩⟩
  · intro s c p d a f len h hf hlen more hclear group bits result
    have hmore : qscaleMore a len = more := by cases a <;> simp [qscaleMore, more]
    have hresult : ∀ g, qscaleResult s (reads s c p) p a f len g = result g := by
      intro g
      simp only [qscaleResult, qscaleBits, hmore, laneGroup_seen, State.seen_v]
      rfl
    simpa only [hresult] using qscale_goes h hf hlen (hmore ▸ hclear)
  · obtain ⟨t, c', ht, hgoes, honly, hhold, hflags⟩ := qpack_goes h hclear
    refine ⟨t, c', _, ht, hgoes, honly, hhold, fun l _ hfmt => if_pos hfmt, fun l _ hfmt k hk => ?_, hflags⟩
    simp only [if_neg (Nat.not_lt.2 hfmt), BitVec.getLsbD_ofNat, hk, decide_true, Bool.true_and]
    exact testBit_qpackField ..

end Sys2Proof.Machine
end

section
/-! ATOM and STC as they issue: the operations that they send to the slice adders and the home slices, and the mark that they take. -/

namespace Sys2Proof.Machine

/-! ## Operations on their way (R159, R170) -/

/-- Operations that are sent are numbered in their order. -/
theorem pushAdds_eq (s : State) (qs : List AddReq) : pushAdds s qs = { s with
    adds := s.adds ++ (qs.zipIdx s.nextId).map fun q => { q.1 with id := q.2 }, nextId := s.nextId + qs.length } := by
  induction qs generalizing s with
  | nil => simp [pushAdds]
  | cons q qs ih =>
    have hstep : pushAdds s (q :: qs) = pushAdds { s with adds := s.adds ++ [{ q with id := s.nextId }], nextId := s.nextId + 1 } qs := rfl
    rw [hstep, ih]
    simp only [List.zipIdx_cons, List.map_cons, List.length_cons, List.append_assoc, List.singleton_append]
    congr 1
    omega

/-- The places of lanes are listed with their addresses. -/
theorem zip_places {ls : List Nat} {ps : List (Nat × Nat)} (va : Nat → DWord) (h : ps.map Prod.fst = ls) :
    List.zip (ls.map fun l => (l, va l)) ps = ps.map fun q => ((q.1, va q.1), q) := by
  subst h
  rw [List.map_map]
  nth_rewrite 2 [← List.map_id ps]
  rw [List.zip_map']
  rfl

section
variable {s : State} {c : Crew} {p : Split}

/-- A state with requests on their way to the slice adders and with L1s of its own. -/
def sent (t : State) (A : List AddReq) (L : List L1Word) : State := { t with adds := A, l1 := L }

/-- The crews are as before when operations are sent. -/
theorem crew?_sent_afterIssue (t : State) (A : List AddReq) (L : List L1Word) (cid sid k : Nat) :
    ((sent t A L).afterIssue cid sid).crew? k = (t.afterIssue cid sid).crew? k := by
  rw [State.crew?_afterIssue, State.crew?_afterIssue]
  rfl

theorem Moves.congr_crews {s t t' : State} {c c' : Crew} {p q : Split} (h : Moves s t c c' p q) (ht : ∀ k, t'.crew? k = t.crew? k) :
    Moves s t' c c' p q :=
  ⟨fun k hk => (ht k).trans (h.others k hk), (ht _).trans h.crew, h.splits, h.host⟩

/-- A state that differs from another in what an access may touch that sends operations is that other with its own. -/
theorem rest_of_sent {t : State} {a : List Crew} {b d e : List (Nat × Nat)} {n : Nat} {x : List TlbEntry} {A : List AddReq}
    {L : List L1Word} (h : t = { s with crews := a, age := b, woke := d, entered := e, nextId := n, tlb := x, l1 := L, adds := A }) :
    t.adds = A ∧ t.l1 = L ∧
    t = { s with crews := t.crews, age := t.age, woke := t.woke, entered := t.entered, nextId := t.nextId, tlb := t.tlb, l1 := t.l1
                 adds := t.adds } := by
  subst h; exact ⟨rfl, rfl, rfl⟩

/-- After an issue that has changed what an access may touch that sends operations. -/
theorem afterIssue_sent {t : State} {a : List Crew} {n : Nat} {x : List TlbEntry} {A : List AddReq} {L : List L1Word}
    (h : t = { s with crews := a, nextId := n, tlb := x, l1 := L, adds := A }) (cid sid : Nat) :
    (t.afterIssue cid sid).adds = A ∧ (t.afterIssue cid sid).l1 = L ∧
    t.afterIssue cid sid = { s with
      crews := (t.afterIssue cid sid).crews, age := (t.afterIssue cid sid).age, woke := (t.afterIssue cid sid).woke
      entered := (t.afterIssue cid sid).entered, nextId := (t.afterIssue cid sid).nextId, tlb := (t.afterIssue cid sid).tlb
      l1 := (t.afterIssue cid sid).l1, adds := (t.afterIssue cid sid).adds } := by
  subst h
  exact rest_of_sent (State.afterIssue_eq _ cid sid)

/-- What a marked access leaves that has sent operations and may have taken an acquire of its own. -/
theorem issue_sent {body : Crew → Split → State → Res} (h : Issues s c p) {f : Split → Split} {n m : Nat} {x : List TlbEntry}
    {A : List AddReq} {L : List L1Word}
    (hb : body (reads s c p) p (begun s c p) = .ok (sent (accessed s c p (markCrew p f m) n x) A L))
    (hf : ∀ q, (f q).sid = q.sid) :
    ∃ (t : State) (c' : Crew), issue s body = .next t ∧
      Moves s t c c' p (markSplit ((c.counted p.sid).modSplit p.sid f) m (f p.counted).untried) ∧ t.adds = A ∧ t.l1 = L ∧
      c' = { c with raised := c'.raised, splits := c'.splits, host := c'.host, loads := agedLoads c p } ∧
      t = { s with crews := t.crews, age := t.age, woke := t.woke, entered := t.entered, nextId := t.nextId, tlb := t.tlb, l1 := t.l1
                   adds := t.adds } := by
  have hmoves := access_moves h (g := markCrew p f m) (f := fun q => markSplit ((c.counted p.sid).modSplit p.sid f) m (f q))
    (fun _ => rfl) (fun q => (markSplit_sid _ _ _).trans (hf q)) (congrArg Crew.splits (Crew.modSplit_modSplit _ _ _ _ hf)) rfl n x
  rw [markSplit_untried] at hmoves
  obtain ⟨hadds, hl1, hrest⟩ := afterIssue_sent (s := s) (t := sent (accessed s c p (markCrew p f m) n x) A L) rfl c.cid p.sid
  exact ⟨_, _, issue_ok h hb, hmoves.congr_crews (crew?_sent_afterIssue _ A L c.cid p.sid), hadds, hl1, rfl, hrest⟩

/-- An acquire that a split takes as it issues, where it takes one. -/
theorem takeAcquire_eq {f : Split → Split} (hf : ∀ q, (f q).sid = q.sid) (b : Bool) (n : Nat) (x : List TlbEntry) (sc : Scope) :
    (if b = true then (accessed s c p (·.modSplit p.sid f) n x).acquireBy c.cid p.sid c.core sc
      else accessed s c p (·.modSplit p.sid f) n x) =
    sent (accessed s c p (·.modSplit p.sid fun q => { f q with acqAt := if (b && wideScope sc) = true then n else (f q).acqAt }) n x)
      s.adds (if b = true then ((begun s c p).fenced c p).acquire c.core sc else (begun s c p).fenced c p).l1 := by
  cases b with
  | false => simp only [Bool.false_eq_true, if_false, Bool.false_and]; rfl
  | true =>
    have hfun : (fun q : Split => if wideScope sc = true then { f q with acqAt := n } else f q) =
        fun q => { f q with acqAt := if wideScope sc = true then n else (f q).acqAt } := by
      funext q; split <;> rfl
    have hl1 : ((accessed s c p (·.modSplit p.sid f) n x).acquire c.core sc).l1 = (((begun s c p).fenced c p).acquire c.core sc).l1 := by
      rw [State.fenced_eq]
      cases sc <;> rfl
    simp only [if_true, Bool.true_and, ← hfun]
    rw [State.acquireBy, State.acquire_modSplit, accessed_modSplit hf, hl1]
    rfl

/-- What an access leaves that sends operations, goes on and takes the mark of its instruction. -/
theorem sendMarked_eq {f : Split → Split} (hf : ∀ q, (f q).sid = q.sid) (n m : Nat) (x : List TlbEntry) (L : List L1Word) (qs : List AddReq) :
    ((pushAdds (sent (accessed s c p (·.modSplit p.sid f) n x) s.adds L).bumpId qs).advance (reads s c p) (p.fenced m)).markFor c.cid p.sid n =
    sent (accessed s c p (markCrew p (fun r => { f r with pc := p.pc + 4 }) n) (n + 1 + qs.length + 1) x)
      (s.adds ++ (qs.zipIdx (n + 1)).map fun q => { q.1 with id := q.2 }) L := by
  have hsent : pushAdds (sent (accessed s c p (·.modSplit p.sid f) n x) s.adds L).bumpId qs =
      sent (accessed s c p (·.modSplit p.sid f) (n + 1 + qs.length) x)
        (s.adds ++ (qs.zipIdx (n + 1)).map fun q => { q.1 with id := q.2 }) L := pushAdds_eq _ _
  have hadv (t : State) (A : List AddReq) : (sent t A L).advance (reads s c p) (p.fenced m) =
      sent (t.advance (reads s c p) (p.fenced m)) A L := rfl
  have hmark (t : State) (A : List AddReq) : (sent t A L).markFor c.cid p.sid n = sent (t.markFor c.cid p.sid n) A L := rfl
  have hmarked (f : Split → Split) (k : Nat) : (accessed s c p (·.modSplit p.sid f) k x).markFor c.cid p.sid n =
      accessed s c p (markCrew p f n) (k + 1) x := by
    rw [State.markFor, State.takeMark, accessed_modCrew (·.modSplit p.sid f) (fun _ => rfl), accessed_bumpId]
    rfl
  rw [hsent, hadv, hmark, advance_modSplit hf, hmarked]

/-- The split `p` of an access that sends operations at `n`, where it takes an acquire of its own if `far`. -/
def sendSplit (p : Split) (n : Nat) (far : Bool) (r : Split) : Split :=
  { gateSplit p n r with acqAt := if far = true then n else (gateSplit p n r).acqAt, pc := p.pc + 4 }

theorem sendSplit_sid (p : Split) (n : Nat) (far : Bool) (r : Split) : (sendSplit p n far r).sid = r.sid := gateSplit_sid p n r

/-- What an access that sends operations makes of its split. -/
theorem sendSplit_counted (p : Split) (n : Nat) (far : Bool) : (sendSplit p n far p.counted).untried =
    { (p.fenced n).issued (p.pc + 4) with acqAt := if far = true then n else (p.fenced n).acqAt } := by
  unfold sendSplit
  rw [gateSplit_counted]
  rfl

/-- What an instruction leaves that sends operations and takes a mark. -/
theorem issue_sends {body : Crew → Split → State → Res} (h : Issues s c p) {far : Bool} {n : Nat} {x : List TlbEntry}
    {A : List AddReq} {L : List L1Word}
    (hb : body (reads s c p) p (begun s c p) =
      .ok (sent (accessed s c p (markCrew p (sendSplit p s.nextId far) s.nextId) n x) A L)) :
    ∃ (t : State) (c' : Crew) (m : MarkRec), issue s body = .next t ∧
      Moves s t c c' p { (p.fenced s.nextId).issued (p.pc + 4) with
        mark := m, acqAt := if far = true then s.nextId else (p.fenced s.nextId).acqAt } ∧
      (p.recipe = false → m.pc = p.pc + 4 ∧ m.mask = p.mask ∧ m.lpin = p.mark.lpin ∧ m.seq = s.nextId) ∧
      t.adds = A ∧ t.l1 = L ∧
      c' = { c with raised := c'.raised, splits := c'.splits, host := c'.host, loads := agedLoads c p } ∧
      t = { s with crews := t.crews, age := t.age, woke := t.woke, entered := t.entered, nextId := t.nextId, tlb := t.tlb, l1 := t.l1
                   adds := t.adds } := by
  obtain ⟨t, c', ht, hmoves, hadds, hl1, hc', hrest⟩ := issue_sent h hb (sendSplit_sid p s.nextId far)
  rw [sendSplit_counted, markSplit_eq] at hmoves
  refine ⟨t, c', _, ht, hmoves, fun hrec => ?_, hadds, hl1, hc', hrest⟩
  have hrecipe : ((p.fenced s.nextId).issued (p.pc + 4)).recipe = false := (p.fenced_recipe s.nextId).trans hrec
  obtain ⟨hpc, hmask, hlpin⟩ := markSplit_values ((c.counted p.sid).modSplit p.sid (sendSplit p s.nextId far)) s.nextId
    (r := { (p.fenced s.nextId).issued (p.pc + 4) with acqAt := if far = true then s.nextId else (p.fenced s.nextId).acqAt })
    hrecipe rfl (p.fenced_mask s.nextId) (p.fenced_mark s.nextId)
  refine ⟨hpc, hmask, hlpin, ?_⟩
  simp only [markSplit, hrecipe, Bool.false_eq_true, if_false]
  rfl

end

section
variable {s : State} {c : Crew} {p : Split} {s1 : State} {ps : List (Nat × Nat)}

/-- The places that addresses translate to are those of the active lanes, in lane order. -/
theorem places_lanes {t : State} {va : Nat → DWord}
    (htr : translateLanes t (reads s c p) p .write ((activeLanes c p).map fun l => (l, va l)) = .ok (s1, ps)) :
    ps.map Prod.fst = activeLanes c p := by
  rw [(translateLanes_ok htr).2.2, List.map_map]
  exact List.map_id _

/-- Addresses that translate and hold no poison do so in the state that an access finds past its fence. -/
theorem places_gated {as : List (Nat × DWord)} {size : Nat}
    (htr : translateLanes ((begun s c p).fenced c p) (reads s c p) p .write as = .ok (s1, ps))
    (hp : loadPoison s1 (reads s c p) p .global size as (ps.map fun q => ⟨q.1, 0, q.2, 0, none⟩) = none) :
    translateLanes (gated s c p) (reads s c p) (p.fenced s.nextId) .write as =
      .ok (accessed s c p (·.modSplit p.sid (gateSplit p s.nextId)) s.nextId s1.tlb, ps) ∧
    loadPoison (accessed s c p (·.modSplit p.sid (gateSplit p s.nextId)) s.nextId s1.tlb) (reads s c p) (p.fenced s.nextId) .global size as
      (ps.map fun q => ⟨q.1, 0, q.2, 0, none⟩) = none := by
  obtain ⟨hany, hrest, -⟩ := translateLanes_ok htr
  have hs1 : ({ s1 with crews := (gated s c p).crews } : State) = accessed s c p (gateCrew p s.nextId) s.nextId s1.tlb := by
    rw [hrest, State.fenced_eq]; rfl
  have hgate := hany (gated s c p).crews (p.fenced s.nextId)
  rw [← gated_eq, hs1] at hgate
  have hload := loadPoison_crews (c := reads s c p) s1 (gated s c p).crews .global size as
    (ps.map fun q => ⟨q.1, 0, q.2, 0, none⟩) (p.fenced_pc s.nextId)
  rw [hs1, hp] at hload
  exact ⟨hgate, hload⟩

theorem sent_nextId (g : Crew → Crew) (n : Nat) (x : List TlbEntry) (A : List AddReq) (L : List L1Word) :
    (sent (accessed s c p g n x) A L).nextId = n := rfl

theorem gateSplit_acqAt_sid (p : Split) (n : Nat) (far : Bool) (r : Split) :
    ({ gateSplit p n r with acqAt := if far = true then n else (gateSplit p n r).acqAt } : Split).sid = r.sid := gateSplit_sid p n r

/-- The request of an atomic for one lane (R170, R171). -/
def atomReq (s : State) (c : Crew) (p : Split) (o : AOp) (sq : Bool) (t : BitVec 8) (sc : Scope) (e : Sem) (n : Nat) (q : Nat × Nat) :
    AddReq :=
  { id := n, core := c.core, cid := c.cid, sid := p.sid, asid := c.asid, addr := q.2, op := o, wide := o.wide
    x := (o.operands c q.1 t.toNat).1, cmp := (o.operands c q.1 t.toNat).2, poison := false
    ret := some { lane := q.1, dst := c.wb + t.toNat, group := o.group, wseq := sq }
    acq := if semAcq e then some sc else none
    job := none, hint := (reads s c p).bothHint, seq := s.nextId, anc := p.anc
    rel := if semRel e then some sc else none, paid := false }

@[simp] theorem State.seen_asid (s : State) (c : Crew) (sid : Nat) : (s.seen c sid).asid = c.asid := by rw [State.seen_eq]
@[simp] theorem State.seen_operands (s : State) (c : Crew) (sid : Nat) (o : AOp) (l t : Nat) :
    o.operands (s.seen c sid) l t = o.operands c l t := by
  cases o <;> simp only [AOp.operands, State.seen_v, State.seen_vPair]

theorem laAddrs_fenced (r : Crew) (n : Nat) (a : BitVec 8) : laAddrs r (p.fenced n) a = laAddrs r p a := by
  rw [laAddrs, activeLanes_fenced]; rfl

theorem drainedFor_fenced (t : State) (r : Crew) (n : Nat) : t.drainedFor r (p.fenced n) = t.drainedFor r p := by
  simp only [State.drainedFor, Split.follows, Split.fenced_sid, Split.fenced_anc]

/-- A releasing access waits for the earlier stores, another for none of them. -/
theorem await_release {e : Sem} {b : Bool} (h : semRel e = true → b = true) : (if semRel e = true then await b else pure ()) = .ok () := by
  split
  · rename_i he; exact await_true (h he)
  · rfl

/-- What the body of an ATOM does once its operands are in order, its places are found and its fence is over. -/
theorem atom_over {w : Word} {o : AOp} {sq : Bool} {t a : BitVec 8} {sc : Scope} {e : Sem} (h : Issues s c p) (hover : FenceOver s c p)
    (ha : a.toNat % 2 = 0) (hmsb : a.msb = false) (ht : t.toNat % (if sq then 2 * o.group else o.group) = 0)
    (hu : Clear s (reads s c p) p
      { rd := [a.toNat, a.toNat + 1] ++ group t o.group, wr := group t (if sq then 2 * o.group else o.group) } true)
    (hal : ∀ x ∈ (activeLanes c p).map fun l => (l, c.vPair l a.toNat), x.2.toNat % (if o.wide then 8 else 4) = 0)
    (htr : translateLanes ((begun s c p).fenced c p) (reads s c p) p .write
      ((activeLanes c p).map fun l => (l, c.vPair l a.toNat)) = .ok (s1, ps))
    (hp : loadPoison s1 (reads s c p) p .global (if o.wide then 8 else 4) ((activeLanes c p).map fun l => (l, c.vPair l a.toNat))
      (ps.map fun q => ⟨q.1, 0, q.2, 0, none⟩) = none)
    (hdrained : semRel e = true → s.drainedFor c p = true) {alone : Bool} (halone : alone = ((activeLanes c p).isEmpty && semAcq e)) :
    ∃ body, atom w o sq t a sc e s = issue s body ∧ body (reads s c p) p (begun s c p) =
      .ok (sent (accessed s c p (markCrew p (sendSplit p s.nextId (alone && wideScope sc)) s.nextId) (s.nextId + 1 + ps.length + 1) s1.tlb)
        (s.adds ++ (ps.zipIdx (s.nextId + 1)).map fun q => atomReq s c p o sq t sc e q.2 q.1)
        (if alone = true then ((begun s c p).fenced c p).acquire c.core sc else (begun s c p).fenced c p).l1) := by
  obtain ⟨hplaces, hload⟩ := places_gated htr hp
  have hal' : ∀ r : Split, checkAlign r (if o.wide then 8 else 4) ((activeLanes c p).map fun l => (l, c.vPair l a.toNat)) = .ok () :=
    fun _ => checkAlign_ok_iff.mpr hal
  have hpoison : ({ rd := [a.toNat, a.toNat + 1] ++ group t o.group, wr := group t (if sq then 2 * o.group else o.group) } : Uses).poison
      (accessed s c p (·.modSplit p.sid (gateSplit p s.nextId)) s.nextId s1.tlb) (reads s c p) (p.fenced s.nextId) = none := by
    rw [poison_fenced rfl s]; exact hu.clean
  refine ⟨_, by rw [atom], ?_⟩
  have hdrain (t : State) : t.drainedFor (reads s c p) p = s.drainedFor c p := by simp only [State.drainedFor, State.seen_splits]
  simp only [laDecode_ok ha hmsb ht, checkUses_ok hu, fenceGate_over h hover, ok_bind, laAddrs_fenced, laAddrs_reads, hal', hplaces,
    checkPoison_ok hpoison, hload, drainedFor_fenced, hdrain, State.seen_cid, State.seen_core, State.seen_wb, State.seen_asid,
    State.seen_operands, Split.fenced_sid, Split.fenced_anc, List.isEmpty_map, ← halone,
    takeAcquire_eq (gateSplit_sid p s.nextId), sent_nextId, sendMarked_eq (gateSplit_acqAt_sid p s.nextId _), List.length_map,
    List.zipIdx_map, List.map_map]
  unfold atomReq
  cases hrel : semRel e with
  | false => rfl
  | true =>
    rw [await_true (hdrained hrel)]
    rfl

/-- The request of an STC for one lane (R168, R169). -/
def stcReq (s : State) (c : Crew) (p : Split) (t a : BitVec 8) (n : Nat) (q : Nat × Nat) : AddReq :=
  { id := n, core := c.core, cid := c.cid, sid := p.sid, asid := c.asid, addr := q.2, op := .stc, wide := false
    x := (c.v q.1 t.toNat).zeroExtend 64, cmp := c.vPair q.1 a.toNat, poison := false
    ret := some { lane := q.1, dst := c.wb + t.toNat + 1, group := 1, wseq := false }
    acq := none, job := none, hint := (reads s c p).shint, seq := s.nextId, anc := p.anc, rel := none, paid := false }

/-- What the body of an STC does once its operands are in order, its places are found and its fence is over. -/
theorem execStcW_over {t a : BitVec 8} (h : Issues s c p) (hover : FenceOver s c p)
    (ha : a.toNat % 2 = 0) (hmsb : a.msb = false) (ht : t.toNat % 2 = 0)
    (hu : Clear s (reads s c p) p { rd := [a.toNat, a.toNat + 1, t.toNat], wr := [t.toNat + 1] } true)
    (hal : ∀ l ∈ activeLanes c p, (c.vPair l a.toNat).toNat % 4 = 0)
    (htr : translateLanes ((begun s c p).fenced c p) (reads s c p) p .write
      ((activeLanes c p).map fun l => (l, c.vPair l a.toNat)) = .ok (s1, ps))
    (hp : loadPoison s1 (reads s c p) p .global 4 ((activeLanes c p).map fun l => (l, c.vPair l a.toNat))
      (ps.map fun q => ⟨q.1, 0, q.2, 0, none⟩) = none) :
    ∃ body, execStcW t a s = issue s body ∧ body (reads s c p) p (begun s c p) =
      .ok (sent (accessed s c p (markCrew p (sendSplit p s.nextId false) s.nextId) (s.nextId + 1 + ps.length + 1) s1.tlb)
        (s.adds ++ (ps.zipIdx (s.nextId + 1)).map fun q => stcReq s c p t a q.2 q.1) ((begun s c p).fenced c p).l1) := by
  obtain ⟨hplaces, hload⟩ := places_gated htr hp
  have hlanes := places_lanes htr
  have hal' : ∀ r : Split, checkAlign r 4 ((activeLanes c p).map fun l => (l, c.vPair l a.toNat)) = .ok () :=
    fun _ => checkAlign_ok_iff.mpr (by simpa using hal)
  have hpoison : ({ rd := [a.toNat, a.toNat + 1, t.toNat], wr := [t.toNat + 1] } : Uses).poison
      (accessed s c p (·.modSplit p.sid (gateSplit p s.nextId)) s.nextId s1.tlb) (reads s c p) (p.fenced s.nextId) = none := by
    rw [poison_fenced rfl s]; exact hu.clean
  have hsend := sendMarked_eq (s := s) (c := c) (p := p) (gateSplit_sid p s.nextId) s.nextId s.nextId s1.tlb ((begun s c p).fenced c p).l1
  have hsent : sent (accessed s c p (·.modSplit p.sid (gateSplit p s.nextId)) s.nextId s1.tlb) s.adds ((begun s c p).fenced c p).l1 =
      accessed s c p (·.modSplit p.sid (gateSplit p s.nextId)) s.nextId s1.tlb := rfl
  rw [hsent] at hsend
  refine ⟨_, by rw [execStcW], ?_⟩
  simp only [laDecode_ok ha hmsb ht, checkUses_ok hu, fenceGate_over h hover, ok_bind, laAddrs_fenced, laAddrs_reads, hal', hplaces,
    checkPoison_ok hpoison, hload, State.seen_cid, State.seen_core, State.seen_wb, State.seen_asid, State.seen_v,
    Split.fenced_sid, Split.fenced_anc, zip_places _ hlanes, accessed_nextId, hsend, List.length_map, List.zipIdx_map, List.map_map]
  rfl

end

/-- Operations numbered from `k` on. -/
theorem map_zipIdx_from {α β : Type} (f : Nat → α → β) (xs : List α) (k : Nat) :
    (xs.zipIdx k).map (fun q => f q.2 q.1) = xs.zipIdx.map fun q => f (k + q.2) q.1 := by
  rw [List.zipIdx_eq_map_add, List.map_map]
  rfl

theorem semRel_iff (e : Sem) : semRel e = true ↔ e = .rel ∨ e = .ar := by cases e <;> simp [semRel]

theorem AtomRow.exec_eq {i : Instr} {o : AOp} {sq : Bool} {t a : BitVec 8} {sc : Scope} {e : Sem} (h : AtomRow i o sq t a sc e) (s : State) :
    exec i s = atom (encode i) o sq t a sc e s := by
  cases h <;> rfl

section
variable {s : State} {c : Crew} {p : Split}

/-- A split of which an acquiring operation is on its way makes no access (R170). -/
theorem not_fenceOver_of_add {t : State} {k : Crew} {r : Split} {q : AddReq} (hq : q ∈ t.adds) (hcid : q.cid = k.cid) (hsid : q.sid = r.sid)
    (hacq : q.acq ≠ none) : ¬ FenceOver t k r := by
  rintro ⟨-, hadds, -⟩
  exact hacq (hadds q hq hcid (by simp [Split.follows, hsid]))

/-- What an acquire of an instruction's own, where it makes one, and that of its fence leave of the L1s. -/
theorem mem_ownAcquire (b : Bool) (sc : Scope) (w : L1Word) :
    w ∈ (if b = true then ((begun s c p).fenced c p).acquire c.core sc else (begun s c p).fenced c p).l1 ↔
      w ∈ s.l1 ∧ ¬ (b = true ∧ AcquireDrops s c.core sc w) ∧
        ¬ ∃ f, p.fence = some f ∧ (f.sem = .acq ∨ f.sem = .ar) ∧ AcquireDrops s c.core f.scope w := by
  have hdrops : AcquireDrops ((begun s c p).fenced c p) c.core sc w ↔ AcquireDrops s c.core sc w := by
    rw [State.fenced_eq]; rfl
  cases b with
  | false => simp only [Bool.false_eq_true, if_false, false_and, not_false_iff, true_and, mem_fenced_begun]
  | true =>
    simp only [if_true, true_and, State.mem_acquire, hdrops, mem_fenced_begun]
    tauto

end

/-- Settles O28: past the fence of its split each lane's operation is sent under a number of its own, and the mark is taken for the
instruction; before it an STC waits. -/
theorem atomicsAndStoreConditional : Obligations.AtomicsAndStoreConditional := by
  refine ⟨?_, ?_⟩
  · intro s c p i o sq t a sc e s1 ps hrow h ha hmsb n size ht hu as hal htr hp hdrained hover
    have hlanes := places_lanes htr
    obtain ⟨body, he, hb⟩ := atom_over (w := encode i) h hover ha hmsb ht hu hal htr hp
      (fun hr => hdrained ((semRel_iff e).mp hr)) rfl
    obtain ⟨t', c', m, hnext, hmoves, hmark, hadds, hl1, hc', hrest⟩ := issue_sends h hb
    rw [map_zipIdx_from] at hadds
    simp only [atomReq, semAcq_iff, semRel_iff] at hadds
    have halone : ((activeLanes c p).isEmpty && semAcq e) = true ↔ activeLanes c p = [] ∧ (e = .acq ∨ e = .ar) := by
      rw [Bool.and_eq_true, List.isEmpty_iff, semAcq_iff]
    refine ⟨t', c', m, _, (hrow.exec_eq s).trans (he.trans hnext), hmoves, ?_, fun w => ?_, hadds, hlanes, hmark, ?_, hc', hrest⟩
    · simp only [Bool.and_eq_true (_ && _), halone, wideScope_iff, and_assoc]
    · rw [hl1, mem_ownAcquire, halone, and_assoc]
    · intro hne hacq r hr
      obtain ⟨x, hx⟩ : ∃ x, x ∈ ps.zipIdx := by
        cases ps with
        | nil => exact absurd hlanes.symm hne
        | cons y ys => exact ⟨_, List.mem_cons_self⟩
      refine not_fenceOver_of_add (hadds ▸ List.mem_append_right _ (List.mem_map_of_mem hx)) ?_ ?_ ?_
      · rw [hc']
      · exact hr.symm
      · simp [hacq]
  · intro s c p t a s1 ps h ha hmsb ht hu va hal htr hp
    have hlanes := places_lanes htr
    refine ⟨fun hover => ?_, fun hover => ?_⟩
    · obtain ⟨body, he, hb⟩ := execStcW_over h hover ha hmsb ht hu hal htr hp
      obtain ⟨t', c', m, hnext, hmoves, hmark, hadds, hl1, hc', hrest⟩ := issue_sends h hb
      rw [map_zipIdx_from] at hadds
      exact ⟨t', c', m, he.trans hnext, hmoves, fun w => hl1 ▸ mem_fenced_begun w, hadds, hlanes, hmark, hc', hrest⟩
    · change execStcW t a s = _
      rw [execStcW]
      refine issue_wait h ?_
      simp only [laDecode_ok ha hmsb ht, checkUses_ok hu, fenceGate_waits h hover]
      rfl

end Sys2Proof.Machine
end

section
/-! What revocations, write-backs and fills leave of the caches' tables: the owners, the L1s, the slices and their miss tables (R140, R144,
R148). -/

namespace Sys2Proof.Machine

/-! ## The tables that move -/

/-- A state that differs from another in the owners, the L1s, the slices' lines and what their miss tables hold. -/
def CachesMove (s t : State) : Prop :=
  t = { s with owner := t.owner, l1 := t.l1, l2 := t.l2, misses := t.misses, wfill := t.wfill }

theorem CachesMove.refl (s : State) : CachesMove s s := rfl

theorem CachesMove.trans {s t u : State} (h : CachesMove s t) (g : CachesMove t u) : CachesMove s u := by
  unfold CachesMove at *
  rw [g, h]

/-- A list of such changes is one. -/
theorem CachesMove.foldl {α : Type} (f : State → α → State) (hf : ∀ s x, CachesMove s (f s x)) (xs : List α) (s : State) :
    CachesMove s (xs.foldl f s) := by
  induction xs generalizing s with
  | nil => exact .refl s
  | cons x t ih => exact (hf s x).trans (ih _)

section
variable {s t : State}

theorem CachesMove.crews (h : CachesMove s t) : t.crews = s.crews := by
  unfold CachesMove at h; rw [h]
theorem CachesMove.mem (h : CachesMove s t) : t.mem = s.mem := by
  unfold CachesMove at h; rw [h]
theorem CachesMove.mpoison (h : CachesMove s t) : t.mpoison = s.mpoison := by
  unfold CachesMove at h; rw [h]
theorem CachesMove.fused (h : CachesMove s t) : t.fused = s.fused := by
  unfold CachesMove at h; rw [h]

end

theorem State.giveBack_moves (s : State) (core : Nat) (ws : List Nat) : CachesMove s (s.giveBack core ws) := by
  unfold CachesMove
  rw [State.giveBack_eq]

theorem State.revoke_moves (s : State) (sector : Nat) : CachesMove s (s.revoke sector) := by
  unfold CachesMove
  rw [State.revoke_eq]

theorem State.l1Put_moves (s : State) (w : L1Word) : CachesMove s (s.l1Put w) := by
  unfold CachesMove
  rw [State.l1Put_eq]

theorem State.l1Drop_moves (s : State) (f : L1Word → Bool) : CachesMove s (s.l1Drop f) := rfl

/-! ## Miss tables -/

/-- The entries of the miss tables that are no write-backs. -/
def State.pendingMisses (s : State) : List Miss := s.misses.filter (·.cls != .writeBack)

/-- An entry that a filter drops can go before it as well. -/
theorem filter_erase_of_neg {α : Type} [BEq α] [LawfulBEq α] {f : α → Bool} {x : α} (xs : List α) (h : f x = false) :
    (xs.erase x).filter f = xs.filter f := by
  rw [← List.erase_filter, List.erase_of_not_mem]
  simp [h]

/-- A write-back moves no other entry of a miss table (R148). -/
@[simp] theorem State.noteWriteBack_pendingMisses (s : State) (slice line : Nat) :
    (s.noteWriteBack slice line).pendingMisses = s.pendingMisses := by
  unfold State.noteWriteBack State.pendingMisses
  simp only [List.filter_append]
  have hlast : List.filter (fun m : Miss => m.cls != .writeBack) [⟨slice, .writeBack, line, 0⟩] = [] := rfl
  rw [hlast, List.append_nil]
  split
  · rename_i m rest hmine
    split
    · rfl
    · have hm : m ∈ s.misses.filter fun m => m.slice == slice && m.cls == .writeBack := hmine ▸ List.mem_cons_self
      refine filter_erase_of_neg _ ?_
      simp at hm
      simp [hm]
  · rfl

@[simp] theorem State.giveBack_pendingMisses (s : State) (core : Nat) (ws : List Nat) :
    (s.giveBack core ws).pendingMisses = s.pendingMisses :=
  State.foldl_keeps State.pendingMisses (fun s l => s.noteWriteBack (sliceOf core (256 * l)) l)
    (fun s l => s.noteWriteBack_pendingMisses _ l) _ s

@[simp] theorem State.revoke_pendingMisses (s : State) (sector : Nat) : (s.revoke sector).pendingMisses = s.pendingMisses := by
  unfold State.revoke
  dsimp only
  split
  · exact State.giveBack_pendingMisses _ _ _
  · rfl

theorem State.recalling_eq (s : State) (sector : Nat) :
    s.recalling sector = s.pendingMisses.any fun m => m.cls == .recall && m.line == sector / 4 && m.hint == sector % 4 := by
  rw [State.pendingMisses, List.any_filter, State.recalling]
  congr 1
  funext m
  cases m.cls <;> rfl

/-! ## The words written at the slices -/

/-- What a line knows of the words written since its fill (Table 8.1). -/
theorem L2Line.getLsbD_written (e : L2Line) (ws : List Nat) {i : Nat} (hi : i < 64) :
    (e.written ws).wm.getLsbD i = true ↔ e.wm.getLsbD i = true ∨ ∃ w ∈ ws, w % 64 = i := by
  have h : ∀ (ws : List Nat) (m : BitVec 64), (ws.foldl (fun m w => m ||| (1#64 <<< (w % 64))) m).getLsbD i = true ↔
      m.getLsbD i = true ∨ ∃ w ∈ ws, w % 64 = i := by
    intro ws
    induction ws with
    | nil => simp
    | cons w ws ih =>
      intro m
      rw [List.foldl_cons, ih]
      have hbit : (1#64 <<< (w % 64)).getLsbD i = true ↔ w % 64 = i := by
        simp [hi]
        omega
      simp only [BitVec.getLsbD_or, Bool.or_eq_true, hbit, List.mem_cons, exists_eq_or_imp, or_assoc]
  exact h ws e.wm

/-- The words that arrive at their home slice stand marked in the line (Table 8.1). -/
theorem State.marked_markWritten {s : State} {core : Nat} {ws : List Nat} {e : L2Line} {w : Nat} (he : e ∈ (s.markWritten core ws).l2)
    (hline : e.line = w / 64) (hw : w ∈ ws) : e.wm.getLsbD (w % 64) = true := by
  obtain ⟨x, -, rfl⟩ := List.mem_map.mp he
  have hline : x.line = w / 64 := hline
  rw [L2Line.getLsbD_written _ _ (Nat.mod_lt _ (by decide))]
  exact .inr ⟨w, List.mem_filter.mpr ⟨hw, by simp [hline]⟩, rfl⟩

theorem State.marked_giveBack {s : State} {core : Nat} {ws : List Nat} {e : L2Line} {w : Nat} (he : e ∈ (s.giveBack core ws).l2)
    (hline : e.line = w / 64) (hw : w ∈ ws) : e.wm.getLsbD (w % 64) = true := State.marked_markWritten he hline hw

/-- What is known of the words written to lines that are being filled changes for the words that arrive alone. -/
theorem State.mem_wfill_giveBack (s : State) (core : Nat) (ws : List Nat) {x : Nat × Nat} (h : x.2 ∉ ws) :
    x ∈ (s.giveBack core ws).wfill ↔ x ∈ s.wfill := by
  have hnotes : ((ws.map (· / 64)).eraseDups.foldl (fun (s : State) l => s.noteWriteBack (sliceOf core (256 * l)) l) s).wfill = s.wfill :=
    State.foldl_keeps State.wfill (fun s l => s.noteWriteBack (sliceOf core (256 * l)) l) (fun _ _ => rfl) _ s
  unfold State.giveBack State.markWritten
  simp only [List.mem_eraseDups, hnotes, List.mem_append, List.mem_map, List.mem_filter]
  constructor
  · rintro (hx | ⟨w, ⟨hw, -⟩, rfl⟩)
    · exact hx
    · exact absurd hw h
  · exact .inl

theorem State.mem_l1Dirty {s : State} {core w : Nat} {f : Nat → Bool} :
    w ∈ s.l1Dirty core f ↔ ∃ x ∈ s.l1, x.core = core ∧ f x.addr = true ∧ x.st = .ownedDirty ∧ x.addr = w := by
  simp [State.l1Dirty, and_assoc]

theorem State.mem_wfill_revoke (s : State) (sector : Nat) {x : Nat × Nat} (h : x.2 / 16 ≠ sector) :
    x ∈ (s.revoke sector).wfill ↔ x ∈ s.wfill := by
  unfold State.revoke
  dsimp only
  split
  · refine State.mem_wfill_giveBack _ _ _ fun hx => ?_
    obtain ⟨y, -, -, hf, -, hy⟩ := State.mem_l1Dirty.mp hx
    exact h (by rw [← hy]; simpa using hf)
  · rfl

/-! ## Words that enter an L1 -/

/-- The lines that an L1 holds. -/
theorem State.mem_l1Lines {s : State} {core l : Nat} : l ∈ s.l1Lines core ↔ ∃ x ∈ s.l1, x.core = core ∧ x.addr / 64 = l := by
  simp [State.l1Lines, and_assoc]

/-- A word that enters an L1 displaces nothing, or, where the L1 holds none of its line, one other line of that L1 (R140). -/
theorem State.l1Put_cases (s : State) (w : L1Word) : ∃ u : State,
    (u = s ∨ ∃ l, l ≠ w.addr / 64 ∧ (∀ x ∈ s.l1, x.core = w.core → x.addr / 64 ≠ w.addr / 64) ∧ u = s.l1Evict w.core l) ∧
    s.l1Put w = { u with l1 := u.l1.filter (fun x => !(x.core == w.core && x.addr == w.addr)) ++ [w] } := by
  unfold State.l1Put
  dsimp only
  split
  · exact ⟨s, .inl rfl, rfl⟩
  · rename_i hnone
    have hnone : ∀ x ∈ s.l1, x.core = w.core → x.addr / 64 ≠ w.addr / 64 := by simpa using hnone
    split
    · rename_i l rest hlines
      split
      · exact ⟨s, .inl rfl, rfl⟩
      · obtain ⟨x, hx, hcore, hl⟩ := State.mem_l1Lines.mp (hlines ▸ List.mem_cons_self : l ∈ s.l1Lines w.core)
        exact ⟨_, .inr ⟨l, fun h => hnone x hx hcore (hl.trans h), hnone, rfl⟩, rfl⟩
    · exact ⟨s, .inl rfl, rfl⟩

theorem State.l1Evict_l1 (s : State) (core line : Nat) :
    (s.l1Evict core line).l1 = s.l1.filter fun w => !(w.core == core && w.addr / 64 == line) := by
  unfold State.l1Evict
  rw [State.giveBack_l1]

/-- A line that leaves an L1 takes no other line's sectors from it. -/
theorem State.ownerOf_l1Evict (s : State) (core line k : Nat) (h : k / 4 ≠ line) : (s.l1Evict core line).ownerOf k = s.ownerOf k := by
  have hfold : ∀ (is : List Nat) (t : SMap Nat), (∀ i ∈ is, i < 4) → sget noOwner (is.foldl (fun t i =>
      if sget noOwner t (4 * line + i) == core then sset noOwner t (4 * line + i) noOwner else t) t) k = sget noOwner t k := by
    intro is
    induction is with
    | nil => intro t _; rfl
    | cons i is ih =>
      intro t hi
      rw [List.foldl_cons, ih _ fun j hj => hi j (List.mem_cons_of_mem _ hj)]
      split
      · have := hi i List.mem_cons_self
        exact sget_sset_of_ne _ _ _ (by omega)
      · rfl
  unfold State.l1Evict
  rw [State.ownerOf, State.giveBack_owner]
  exact hfold _ _ (by decide)

/-- A word that enters an L1 leaves the owners of its line's sectors. -/
theorem State.ownerOf_l1Put (s : State) (w : L1Word) {k : Nat} (h : k / 4 = w.addr / 64) : (s.l1Put w).ownerOf k = s.ownerOf k := by
  obtain ⟨u, rfl | ⟨l, hl, -, rfl⟩, hput⟩ := s.l1Put_cases w
  · rw [hput]; rfl
  · rw [hput]
    exact State.ownerOf_l1Evict s _ _ _ (by rw [h]; exact hl.symm)

theorem State.mem_l1Put (s : State) (w : L1Word) : w ∈ (s.l1Put w).l1 := by
  obtain ⟨u, -, hput⟩ := s.l1Put_cases w
  rw [hput]
  exact List.mem_append_right _ (List.mem_singleton_self w)

/-- Another word of the line stands as a word enters the L1. -/
theorem State.mem_l1Put_of_mem (s : State) {w x : L1Word} (hx : x ∈ s.l1) (hcore : x.core = w.core) (hline : x.addr / 64 = w.addr / 64)
    (hne : x.addr ≠ w.addr) : x ∈ (s.l1Put w).l1 := by
  obtain ⟨u, rfl | ⟨l, -, hnone, rfl⟩, hput⟩ := s.l1Put_cases w
  · rw [hput]
    exact List.mem_append_left _ (List.mem_filter.mpr ⟨hx, by simp [hne]⟩)
  · exact absurd hline (hnone x hx hcore)

end Sys2Proof.Machine
end

section
/-! Fills, refills and mirrors (R147 to R150). -/

namespace Sys2Proof.Machine

/-- An event whose condition holds happens; all that it does to the crews besides is that their splits may be tried again. -/
theorem happens_of_some {s t : State} {i : Instr} {o : Option State} (he : exec i s = fire s o) (ho : o = some t) : Happens s i t.retry := by
  rw [Happens, he, ho]
  rfl

section
variable {s u : State} {slice line : Nat} {m : Miss} {v : L2Line}

/-! ## The miss that a fill answers -/

theorem State.recalling_erase (hm : m.cls ≠ .recall) (sector : Nat) :
    ({ s with misses := s.misses.erase m } : State).recalling sector = s.recalling sector := by
  have hmem (x : Miss) (hx : x.cls = .recall) : x ∈ s.misses.erase m ↔ x ∈ s.misses :=
    List.mem_erase_of_ne fun h => hm (h ▸ hx)
  rw [Bool.eq_iff_iff, State.recalling, State.recalling, List.any_eq_true, List.any_eq_true]
  constructor
  · rintro ⟨x, hx, h⟩
    exact ⟨x, List.mem_of_mem_erase hx, h⟩
  · rintro ⟨x, hx, h⟩
    exact ⟨x, (hmem x (by simp at h; exact h.1.1)).mpr hx, h⟩

theorem State.busyEntries_erase {k : MissClass} (hm : m.cls ≠ k) (n : Nat) :
    ({ s with misses := s.misses.erase m } : State).busyEntries n k = s.busyEntries n k :=
  congrArg List.length (filter_erase_of_neg _ (by simp [hm]))

/-- The line that is filled stands in the way of no victim: its slice does not hold it. -/
theorem State.victim_erase (hline : m.line = line) (hholds : s.holdsLine slice line = false) :
    ({ s with misses := s.misses.erase m } : State).victim slice line = s.victim slice line := by
  have hset : ∀ e ∈ s.setLines slice line, e.line ≠ line := by
    intro e he h
    have hslice : e.slice = slice := by
      have := (List.mem_filter.mp he).2
      simp at this
      exact this.1
    have := List.any_eq_false.mp hholds e (List.mem_filter.mp he).1
    simp [h, hslice] at this
  unfold State.victim
  refine congrArg pickVictim (List.filter_congr fun e he => ?_)
  have hall : ((s.misses.erase m).all fun x => !(x.slice == slice && x.line == e.line && x.cls == .general)) =
      s.misses.all fun x => !(x.slice == slice && x.line == e.line && x.cls == .general) := by
    rw [Bool.eq_iff_iff, List.all_eq_true, List.all_eq_true]
    refine ⟨fun h x hx => ?_, fun h x hx => h x (List.mem_of_mem_erase hx)⟩
    by_cases hxm : x = m
    · have : line ≠ e.line := fun h => hset e he h.symm
      simp [hxm, hline, this]
    · exact h x ((List.mem_erase_of_ne hxm).mpr hx)
  simp only [hall]
  rfl

/-- A spilled request enters a free entry of its slice (R149). -/
theorem State.refill_some (hm : s.spillq.find? (·.slice == slice) = some m) (hbusy : s.busyEntries slice .general < 104) :
    s.refill slice = some { s with spillq := s.spillq.erase m, misses := s.misses ++ [m] } := by
  simp only [State.refill, hm, guarded, decide_eq_true hbusy, if_true]

/-! ## The victim (R150) -/

/-- A victim is one of the lines that it is picked from. -/
theorem mem_of_pickVictim {es : List L2Line} (h : pickVictim es = some v) : v ∈ es := by
  induction es generalizing v with
  | nil => cases h
  | cons e rest ih =>
    rw [pickVictim] at h
    split at h
    · cases h; exact List.mem_cons_self
    · rename_i f hf
      split at h
      · cases h; exact List.mem_cons_of_mem _ (ih hf)
      · cases h; exact List.mem_cons_self

/-- A line has no dirty words where neither its slice nor an L1 has one. -/
theorem State.lineDirty_eq_false {e : L2Line} (h : e.d = 0 ∧ ∀ w ∈ s.l1, w.addr / 64 = e.line → w.st ≠ .ownedDirty) :
    s.lineDirty e = false := by
  simp only [State.lineDirty, Bool.or_eq_false_iff, List.any_eq_false, bne_eq_false_iff_eq, Bool.and_eq_true, beq_iff_eq, not_and]
  exact h

/-- A victim stands in its slice. -/
theorem State.victim_mem (hv : s.victim slice line = some v) : v ∈ s.l2 ∧ v.slice = slice := by
  have h := List.mem_filter.mp (List.mem_filter.mp (mem_of_pickVictim hv)).1
  refine ⟨h.1, ?_⟩
  have := h.2
  simp at this
  exact this.1

/-- A write-back that is sent into the fabric spends a token there, and is nothing else to the device (R310). -/
theorem State.backSend_eq (s : State) (slice line : Nat) : ∃ f : Fabric, s.backSend slice line = { s with fab := f } := by
  unfold State.backSend
  split
  · split
    · exact ⟨_, rfl⟩
    · exact ⟨s.fab, rfl⟩
  · exact ⟨s.fab, rfl⟩

/-- What a slice has done to make room in the place of a victim (R148, R150). -/
structure RoomMade (s u : State) (slice : Nat) (v : L2Line) : Prop where
  crews   : u.crews = s.crews
  mem     : u.mem = s.mem
  pending : u.pendingMisses = s.pendingMisses
  owners  : ∀ k, u.ownerOf k = if k / 4 = v.line ∧ s.ownerOf k < 288 then noOwner else s.ownerOf k
  marks   : ∀ x : Nat × Nat, x.2 / 64 ≠ v.line → (x ∈ u.wfill ↔ x ∈ s.wfill)
  gone    : ∀ x ∈ u.l2, ¬ (x.slice = slice ∧ x.line = v.line)
  back    : v ∈ s.l2 → v.slice = slice → v.d ≠ 0 → (∀ i, i < 4 → 288 ≤ s.ownerOf (4 * v.line + i)) →
    (⟨slice, .writeBack, v.line, 0⟩ : Miss) ∈ u.misses

/-- The sectors of a line (Table 8.1). -/
theorem mem_sectors {n k : Nat} : k ∈ [0, 1, 2, 3].map (4 * n + ·) ↔ k / 4 = n := by
  simp only [List.map_cons, List.map_nil, List.mem_cons, List.not_mem_nil, or_false]
  omega

/-- The revocation of a sector that no core owns is none. -/
theorem State.revoke_unowned {sec : Nat} (h : 288 ≤ s.ownerOf sec) : s.revoke sec = s := by
  unfold State.revoke
  exact if_neg (Nat.not_lt.mpr h)

theorem State.revokes_unowned {secs : List Nat} (h : ∀ sec ∈ secs, 288 ≤ s.ownerOf sec) : secs.foldl (fun s sec => s.revoke sec) s = s := by
  induction secs with
  | nil => rfl
  | cons sec secs ih =>
    rw [List.foldl_cons, State.revoke_unowned (h sec List.mem_cons_self)]
    exact ih fun x hx => h x (List.mem_cons_of_mem _ hx)

/-- Revocations of sectors mark nothing of the words of others. -/
theorem State.mem_wfill_revokes {secs : List Nat} {x : Nat × Nat} (h : x.2 / 16 ∉ secs) (s : State) :
    x ∈ (secs.foldl (fun s sec => s.revoke sec) s).wfill ↔ x ∈ s.wfill := by
  induction secs generalizing s with
  | nil => rfl
  | cons sec secs ih =>
    rw [List.mem_cons, not_or] at h
    rw [List.foldl_cons, ih h.2, State.mem_wfill_revoke s sec h.1]

/-- Where a way of its set is free a line comes in with no more. -/
theorem State.makeRoom_free (h : (s.setLines slice line).length + (s.setMirrors slice line).length < 16) : s.makeRoom slice line = some s := by
  have hfull : s.setFull slice line = false := by simpa [State.setFull] using h
  simp [State.makeRoom, hfull]

/-- A full set gives up its victim, once its owners can be recalled and its dirty words written back. -/
theorem State.makeRoom_full (hfull : s.setFull slice line = true) (hv : s.victim slice line = some v)
    (hrec : ∀ i, i < 4 → s.recalling (4 * v.line + i) = false) (hback : s.lineDirty v = false ∨ s.backOk slice v.line = true)
    (hbusy : s.busyEntries slice .recall +
      (s.foreign noOwner [4 * v.line, 4 * v.line + 1, 4 * v.line + 2, 4 * v.line + 3]).length ≤ 8) :
    ∃ u, s.makeRoom slice line = some u ∧ RoomMade s u slice v := by
  have hsecs : ([0, 1, 2, 3].map (4 * v.line + ·)).all (fun sec => !s.recalling sec) = true := by
    simp only [List.map_cons, List.map_nil, List.all_cons, List.all_nil, hrec 0 (by decide), hrec 1 (by decide), hrec 2 (by decide),
      hrec 3 (by decide), Bool.not_false, Bool.and_self]
  have hclean : (!s.lineDirty v || s.backOk slice v.line) = true := by
    rcases hback with h | h <;> simp [h]
  have hroom : decide (s.busyEntries slice .recall + (s.foreign noOwner ([0, 1, 2, 3].map (4 * v.line + ·))).length ≤ 8) = true :=
    decide_eq_true hbusy
  unfold State.makeRoom
  simp only [hfull, hv, hsecs, hclean, hroom, guarded, Bool.not_true, Bool.false_eq_true, if_false, Bool.and_self, if_true]
  refine ⟨_, rfl, ?_⟩
  generalize hsec : [0, 1, 2, 3].map (4 * v.line + ·) = secs
  have hmem (k : Nat) : k ∈ secs ↔ k / 4 = v.line := hsec ▸ mem_sectors
  have hmoves : CachesMove s (secs.foldl (fun s sec => s.revoke sec) s) := .foldl _ State.revoke_moves secs s
  have hpending : (secs.foldl (fun s sec => s.revoke sec) s).pendingMisses = s.pendingMisses :=
    State.foldl_keeps State.pendingMisses State.revoke (fun s x => s.revoke_pendingMisses x) secs s
  have howners (k : Nat) : (secs.foldl (fun s sec => s.revoke sec) s).ownerOf k =
      if k / 4 = v.line ∧ s.ownerOf k < 288 then noOwner else s.ownerOf k := by
    simp only [← hmem]
    exact State.ownerOf_foldl_revoke secs s k
  have hmarks (x : Nat × Nat) (hx : x.2 / 64 ≠ v.line) : x ∈ (secs.foldl (fun s sec => s.revoke sec) s).wfill ↔ x ∈ s.wfill :=
    State.mem_wfill_revokes (fun h => hx (by have := (hmem _).mp h; omega)) s
  have hsame : (∀ i, i < 4 → 288 ≤ s.ownerOf (4 * v.line + i)) → secs.foldl (fun s sec => s.revoke sec) s = s := fun h =>
    State.revokes_unowned fun sec hs => by
      have hk := (hmem sec).mp hs
      have := h (sec % 4) (Nat.mod_lt _ (by decide))
      rwa [show 4 * v.line + sec % 4 = sec by omega] at this
  generalize secs.foldl (fun s sec => s.revoke sec) s = t1 at *
  have hgone (t : State) : ∀ x ∈ t.l2.filter fun e => !(e.slice == slice && e.line == v.line), ¬ (x.slice = slice ∧ x.line = v.line) := by
    intro x hx h
    have := (List.mem_filter.mp hx).2
    simp [h] at this
  split
  · obtain ⟨f, hf⟩ := State.backSend_eq (t1.noteWriteBack slice v.line) slice v.line
    simp only [hf]
    refine ⟨hmoves.crews, hmoves.mem, (t1.noteWriteBack_pendingMisses slice v.line).trans hpending, howners, hmarks,
      hgone t1, fun _ _ _ _ => List.mem_append_right _ (List.mem_singleton_self _)⟩
  · rename_i hdirty
    refine ⟨hmoves.crews, hmoves.mem, hpending, howners, hmarks, hgone t1, fun hin hslice hd howned => absurd ?_ hdirty⟩
    rw [hsame howned, List.any_eq_true]
    refine ⟨v, hin, ?_⟩
    simp only [hslice, beq_self_eq_true, Bool.true_and, bne_iff_ne]
    exact hd

/-! ## The line that comes in (R144, R150) -/

/-- The line that a miss brings in, with the words that have been written meanwhile marked. -/
def filledLine (u : State) (slice line : Nat) (m : Miss) : L2Line :=
  L2Line.written { slice := slice, line := line, cls := u.admitClass slice line m.hint, v := 0xF, d := 0, wm := 0, stamp := u.nextId }
    ((u.wfill.filter fun e => e.1 == slice && e.2 / 64 == line).map (·.2))

/-- The marks of a line that comes in are the words that were written while it was being filled. -/
theorem filledLine_marked (hmarks : ∀ x : Nat × Nat, x.2 / 64 = line → (x ∈ u.wfill ↔ x ∈ s.wfill)) :
    (filledLine u slice line m).v = 0xF ∧
    ∀ i, i < 64 → ((filledLine u slice line m).wm.getLsbD i = true ↔ (slice, 64 * line + i) ∈ s.wfill) := by
  refine ⟨rfl, fun i hi => ?_⟩
  rw [filledLine, L2Line.getLsbD_written _ _ hi, ← hmarks (slice, 64 * line + i) (by simp; omega)]
  have hzero : (0 : BitVec 64).getLsbD i = false := BitVec.getLsbD_zero
  simp only [hzero, Bool.false_eq_true, false_or, List.mem_map, List.mem_filter, Bool.and_eq_true, beq_iff_eq]
  constructor
  · rintro ⟨w, ⟨x, ⟨hx, hslice, hline⟩, rfl⟩, hw⟩
    have : x = (slice, 64 * line + i) := Prod.ext hslice (by dsimp only; omega)
    exact this ▸ hx
  · intro h
    exact ⟨_, ⟨_, ⟨h, rfl, by dsimp only; omega⟩, rfl⟩, by dsimp only; omega⟩

/-- A missed line that finds room comes in. -/
theorem State.fillLine_room (hm : s.misses.find? (fun m => m.slice == slice && m.cls == .general && m.line == line) = some m)
    (hholds : s.holdsLine slice line = false) (hroom : State.makeRoom { s with misses := s.misses.erase m } slice line = some u) :
    s.fillLine slice line = some (State.bumpId { u with
      l2 := u.l2 ++ [filledLine u slice line m]
      wfill := u.wfill.filter fun e => !(e.1 == slice && e.2 / 64 == line) }) := by
  have hholds' : State.holdsLine { s with misses := s.misses.erase m } slice line = false := hholds
  simp only [State.fillLine, hm, hholds', Bool.false_eq_true, if_false, hroom]
  rfl

/-- A miss of a line that has come in before raises the line's class. -/
theorem State.fillLine_held (hm : s.misses.find? (fun m => m.slice == slice && m.cls == .general && m.line == line) = some m)
    (hholds : s.holdsLine slice line = true) :
    s.fillLine slice line = some (State.raiseClass { s with misses := s.misses.erase m } slice line m.hint) := by
  have hholds' : State.holdsLine { s with misses := s.misses.erase m } slice line = true := hholds
  simp only [State.fillLine, hm, hholds', if_true]

/-- With no miss a slice takes a mirror in the lowest free slot of the line (R147). -/
theorem State.fillLine_mirror {k : Nat} (hno : ∀ m ∈ s.misses, ¬ (m.slice = slice ∧ m.line = line)) (hslice : slice < 288)
    (hsector : slice / 24 ≠ sliceOf 0 (256 * line) / 24) (hpart : s.onePart (slice / 12) (sliceOf 0 (256 * line) / 12) = true)
    (hdev : inDevice (256 * line) = true) (hfour : (s.setMirrors slice line).length < 4)
    (hroom : (s.setLines slice line).length + (s.setMirrors slice line).length < 16)
    (hnone : ∀ m ∈ s.mirrors, ¬ (m.slice = slice ∧ m.line = line)) (hk : k < 4) (hfree : ∀ m ∈ s.mirrors, m.line = line → m.slot ≠ k)
    (htaken : ∀ j, j < k → ∃ m ∈ s.mirrors, m.line = line ∧ m.slot = j) :
    s.fillLine slice line = some { s with mirrors := s.mirrors ++ [⟨slice, line, k⟩] } := by
  have hmiss : s.misses.find? (fun m => m.slice == slice && m.cls == .general && m.line == line) = none := by
    rw [List.find?_eq_none]
    intro x hx h
    simp at h
    exact hno x hx ⟨h.1.1, h.2⟩
  have hmir : (s.setMirrors slice line).all (fun m => m.line != line) = true := by
    rw [List.all_eq_true]
    intro x hx
    obtain ⟨hx, hset⟩ := List.mem_filter.mp hx
    have hxs : x.slice = slice := by simp at hset; exact hset.1
    have : x.line ≠ line := fun h => hnone x hx ⟨hxs, h⟩
    simpa using this
  have hslot : [0, 1, 2, 3].find? (fun j => s.mirrors.all fun m => !(m.line == line && m.slot == j)) = some k := by
    have hat : (s.mirrors.all fun m => !(m.line == line && m.slot == k)) = true := by
      rw [List.all_eq_true]
      intro x hx
      have := hfree x hx
      by_cases h : x.line = line
      · simp [h, this h]
      · simp [h]
    have hbelow (j : Nat) (hj : j < k) : (s.mirrors.all fun m => !(m.line == line && m.slot == j)) = false := by
      obtain ⟨x, hx, hl, hs⟩ := htaken j hj
      rw [List.all_eq_false]
      exact ⟨x, hx, by simp [hl, hs]⟩
    have hrange : [0, 1, 2, 3] = List.range 4 := rfl
    rw [hrange, List.find?_range_eq_some]
    exact ⟨hat, List.mem_range.mpr hk, fun j hj => by rw [hbelow j hj]; rfl⟩
  have hroom' := State.makeRoom_free hroom
  simp only [State.fillLine, hmiss, State.fillMirror, hslice, hdev, hpart, hfour, hmir, decide_true, Bool.and_true, Bool.true_and,
    bne_iff_ne, ne_eq, hsector, not_false_iff, if_true, hslot, hroom']

end

end Sys2Proof.Machine
end

section
/-! Revocations, write-backs, forwarded reads, probes and page walks, and with them the events of the caches (R140, R142, R144, R342). -/

namespace Sys2Proof.Machine

section
variable {s : State}

/-! ## Revocations and write-backs (R140, R144) -/

/-- A revocation is sent where a recall entry is free (R148). -/
theorem State.sendRecall_some {sector : Nat} (howner : s.ownerOf sector < 288) (hrec : s.recalling sector = false)
    (hbusy : s.busyEntries (sliceOf (s.ownerOf sector) (64 * sector)) .recall < 8) : s.sendRecall sector =
      some { s with misses := s.misses ++ [⟨sliceOf (s.ownerOf sector) (64 * sector), .recall, sector / 4, sector % 4⟩] } := by
  simp only [State.sendRecall, guarded, howner, hrec, hbusy, decide_true, Bool.not_false, Bool.and_self, if_true]

/-- The dirty words of an owner are marked at the slice that they are written back to. -/
def BacksOff (s t : State) (sector : Nat) : Prop := ∀ w ∈ s.l1, w.core = s.ownerOf sector → w.addr / 16 = sector → w.st = .ownedDirty →
  ∀ e ∈ t.l2, e.line = w.addr / 64 → e.wm.getLsbD (w.addr % 64) = true

/-- What a revocation leaves of its sector: nobody owns it, its owner keeps clean copies, and the words written back are marked. -/
theorem State.revoke_owned {sector : Nat} (h : s.ownerOf sector < 288) :
    (∀ w ∈ (s.revoke sector).l1, w.core = s.ownerOf sector → w.addr / 16 = sector → w.st = .clean) ∧
    (∀ w ∈ s.l1, w.core = s.ownerOf sector → w.addr / 16 = sector → w.st ≠ .clean →
      { w with st := .clean, bad := s.poisoned (4 * w.addr) 4 } ∈ (s.revoke sector).l1) ∧
    BacksOff s (s.revoke sector) sector := by
  have hdirty (w : L1Word) (hw : w ∈ s.l1) (hcore : w.core = s.ownerOf sector) (haddr : w.addr / 16 = sector) (hst : w.st = .ownedDirty) :
      w.addr ∈ s.l1Dirty (s.ownerOf sector) fun w => w / 16 == sector :=
    State.mem_l1Dirty.mpr ⟨w, hw, hcore, by simp [haddr], hst, rfl⟩
  unfold BacksOff State.revoke
  simp only [h, if_true, State.giveBack_l1]
  refine ⟨fun w hw hcore haddr => ?_, fun w hw hcore haddr hst => ?_, fun w hw hcore haddr hst e he hline => ?_⟩
  · obtain ⟨x, -, rfl⟩ := List.mem_map.mp hw
    by_cases hx : (x.core == s.ownerOf sector && x.addr / 16 == sector) = true
    · rw [if_pos hx]
    · rw [if_neg hx] at hcore haddr
      simp [hcore, haddr] at hx
  · refine List.mem_map.mpr ⟨w, List.mem_filter.mpr ⟨hw, by simp [hst]⟩, ?_⟩
    simp [hcore, haddr]
  · exact State.marked_giveBack he hline (hdirty w hw hcore haddr hst)

/-- An owner that is not being revoked writes its dirty words back and keeps its sector. -/
theorem State.writeBack_kept {sector : Nat} (h : s.recalling sector = false) :
    CachesMove s (s.writeBack sector) ∧ (s.writeBack sector).owner = s.owner ∧ (s.writeBack sector).l1.length = s.l1.length ∧
    (∀ w ∈ (s.writeBack sector).l1, w.addr / 16 = sector → w.st ≠ .ownedDirty) ∧ BacksOff s (s.writeBack sector) sector := by
  have hmoves (L : List L1Word) (core : Nat) (ws : List Nat) : CachesMove s (State.giveBack { s with l1 := L } core ws) :=
    CachesMove.trans (t := { s with l1 := L }) rfl (State.giveBack_moves _ core ws)
  unfold BacksOff State.writeBack
  simp only [h, Bool.false_eq_true, if_false, State.giveBack_l1, State.giveBack_owner, List.length_map, true_and]
  refine ⟨hmoves _ _ _, fun w hw haddr => ?_, fun w hw hcore haddr hst e he hline => ?_⟩
  · obtain ⟨x, -, rfl⟩ := List.mem_map.mp hw
    by_cases hx : (x.addr / 16 == sector && x.st == .ownedDirty) = true
    · rw [if_pos hx]
      simp
    · rw [if_neg hx] at haddr ⊢
      simpa [haddr] using hx
  · exact State.marked_giveBack he hline (State.mem_l1Dirty.mpr ⟨w, hw, hcore, by simp [haddr], hst, rfl⟩)

/-- The state once the revocation of a sector is over (R148). -/
def State.recallEnded (s : State) (sector : Nat) : State :=
  { s with misses := s.misses.filter fun m => !(m.cls == .recall && m.line == sector / 4 && m.hint == sector % 4) }

/-- A revoked owner's write-back frees the recall entry and ends the registration. -/
theorem State.writeBack_recalled {sector : Nat} (h : s.recalling sector = true) :
    s.writeBack sector = (s.recallEnded sector).revoke sector := by
  rw [State.writeBack, if_pos h]
  rfl

/-- The registration of a revoked sector ends. -/
theorem State.ownerOf_recallEnded_revoke (s : State) (sector k : Nat) : ((s.recallEnded sector).revoke sector).ownerOf k =
    if k = sector ∧ s.ownerOf sector < 288 then noOwner else s.ownerOf k := by
  rw [State.ownerOf_revoke]
  by_cases hk : k = sector
  · subst hk; rfl
  · rw [if_neg fun h => hk h.1, if_neg fun h => hk h.1]
    rfl

/-- The caches' tables move alone as a revoked owner writes back. -/
theorem State.writeBack_moves {sector : Nat} (h : s.recalling sector = true) : CachesMove s (s.writeBack sector) := by
  rw [State.writeBack_recalled h]
  exact CachesMove.trans (t := s.recallEnded sector) rfl (State.revoke_moves _ sector)

/-- A revoked owner's write-back ends its revocation. -/
theorem State.writeBack_recalling {sector : Nat} (h : s.recalling sector = true) : (s.writeBack sector).recalling sector = false := by
  rw [State.writeBack_recalled h, State.recalling_eq, State.revoke_pendingMisses, ← State.recalling_eq, State.recalling,
    List.any_eq_false]
  intro m hm hmine
  have := (List.mem_filter.mp hm).2
  rw [hmine] at this
  cases this

/-! ## Words that enter an L1 to be read (R142, R144) -/

/-- The word that an L1 takes as a copy of the latest value. -/
def copyOf (s : State) (k w : Nat) : L1Word :=
  { core := k, addr := w, st := if s.ownerOf (w / 16) == k then .ownedClean else .clean, data := s.readBytes (4 * w) 4
    bad := s.poisoned (4 * w) 4 }

/-- One word of a fill. -/
def State.fillWord (t : State) (core w : Nat) : State :=
  match t.l1Word? (t.l1Core core (4 * w)) w with
  | some _ => t
  | none => t.l1Put (copyOf t (t.l1Core core (4 * w)) w)

theorem State.l1Fill_eq (s : State) (core : Nat) (ws : List Nat) :
    s.l1Fill core ws = ws.foldl (fun t w => t.fillWord core w) (s.l1Forget core ws) := rfl

theorem State.fillWord_moves (t : State) (core w : Nat) : CachesMove t (t.fillWord core w) := by
  unfold State.fillWord
  split
  · exact .refl t
  · exact t.l1Put_moves _

theorem State.l1Fill_moves (s : State) (core : Nat) (ws : List Nat) : CachesMove s (s.l1Fill core ws) :=
  (s.l1Drop_moves _).trans (.foldl (fun t w => t.fillWord core w) (fun t w => t.fillWord_moves core w) ws _)

/-- The word that has entered an L1 stands there. -/
theorem State.l1Word?_l1Put_same (t : State) (x : L1Word) : (t.l1Put x).l1Word? x.core x.addr = some x := by
  obtain ⟨w, -, hput⟩ := t.l1Put_cases x
  have hnone : (w.l1.filter fun y => !(y.core == x.core && y.addr == x.addr)).find? (fun y => y.core == x.core && y.addr == x.addr) = none := by
    rw [List.find?_eq_none]
    intro y hy h
    have := (List.mem_filter.mp hy).2
    simp [h] at this
  rw [hput, State.l1Word?]
  simp only [List.find?_append, hnone, Option.none_or]
  simp

/-- Another word of its line is found in the L1 as before. -/
theorem State.l1Word?_l1Put_ne (t : State) (x : L1Word) {w : Nat} (hline : w / 64 = x.addr / 64) (hne : w ≠ x.addr) :
    (t.l1Put x).l1Word? x.core w = t.l1Word? x.core w := by
  have hfind (L : List L1Word) : (L.filter (fun y => !(y.core == x.core && y.addr == x.addr)) ++ [x]).find?
      (fun y => y.core == x.core && y.addr == w) = L.find? fun y => y.core == x.core && y.addr == w := by
    have hlast : [x].find? (fun y => y.core == x.core && y.addr == w) = none := by simp [hne.symm]
    rw [List.find?_append, hlast, Option.or_none, List.find?_filter]
    congr 1
    funext y
    by_cases hy : y.addr = w
    · have hy' : (y.addr == x.addr) = false := by simpa [hy] using hne
      simp only [hy', Bool.and_false, Bool.not_false, true_and, Bool.decide_eq_true]
    · simp [hy]
  obtain ⟨u, rfl | ⟨l, -, hnone, rfl⟩, hput⟩ := t.l1Put_cases x
  · rw [hput, State.l1Word?, hfind]; rfl
  · have habsent (L : List L1Word) (hL : ∀ y ∈ L, y ∈ t.l1) : L.find? (fun y => y.core == x.core && y.addr == w) = none := by
      rw [List.find?_eq_none]
      intro y hy h
      simp only [Bool.and_eq_true, beq_iff_eq] at h
      exact hnone y (hL y hy) h.1 (by rw [h.2, hline])
    rw [hput, State.l1Word?, hfind, State.l1Word?, habsent t.l1 fun _ h => h, State.l1Evict_l1, habsent]
    exact fun y hy => (List.mem_filter.mp hy).1

/-- On the way of a fill: the copy of the word `w` is in the L1 `k` or still to come, and nothing that it is made of has moved. -/
structure Filling (s t : State) (core k w : Nat) : Prop where
  moves : CachesMove s t
  owner : ∀ sec, sec / 4 = w / 64 → t.ownerOf sec = s.ownerOf sec
  word  : t.l1Word? k w = none ∨ t.l1Word? k w = some (copyOf s k w)

theorem Filling.copyOf_eq {t : State} {core k w : Nat} (h : Filling s t core k w) : copyOf t k w = copyOf s k w := by
  have hown := h.owner (w / 16) (by omega)
  have hmem := h.moves.mem
  have hbad := h.moves.mpoison
  unfold copyOf State.readBytes State.poisoned
  rw [hown, hmem, hbad]

/-- A fill goes on with a word of the line. -/
theorem Filling.step {t : State} {core k w x : Nat} (h : Filling s t core k w) (hk : s.l1Core core (4 * x) = k) (hline : x / 64 = w / 64) :
    Filling s (t.fillWord core x) core k w ∧ 
      (x = w ∨ t.l1Word? k w = some (copyOf s k w) → (t.fillWord core x).l1Word? k w = some (copyOf s k w)) := by
  have hk' : t.l1Core core (4 * x) = k := by rw [← hk, State.l1Core, State.l1Core, h.moves.fused]
  unfold State.fillWord
  rw [hk']
  split
  · rename_i y hy
    refine ⟨h, ?_⟩
    rintro (rfl | hw)
    · exact h.word.resolve_left (by simp [hy])
    · exact hw
  · rename_i hnone
    have howner (sec : Nat) (hsec : sec / 4 = w / 64) : (t.l1Put (copyOf t k x)).ownerOf sec = s.ownerOf sec := by
      rw [State.ownerOf_l1Put t (copyOf t k x) (hsec.trans hline.symm), h.owner sec hsec]
    by_cases hxw : x = w
    · subst hxw
      have hword : (t.l1Put (copyOf t k x)).l1Word? k x = some (copyOf s k x) := by
        rw [← h.copyOf_eq]
        exact State.l1Word?_l1Put_same t (copyOf t k x)
      exact ⟨⟨h.moves.trans (t.l1Put_moves _), howner, .inr hword⟩, fun _ => hword⟩
    · have hword : (t.l1Put (copyOf t k x)).l1Word? k w = t.l1Word? k w :=
        State.l1Word?_l1Put_ne t (copyOf t k x) hline.symm (Ne.symm hxw)
      exact ⟨⟨h.moves.trans (t.l1Put_moves _), howner, hword ▸ h.word⟩, fun e => hword.trans (e.resolve_left hxw)⟩

/-- A fill with the words of one line leaves a copy of each that the L1 did not hold. -/
theorem State.l1Word?_l1Fill {core k w : Nat} {ws : List Nat} (hw : w ∈ ws) (hk : ∀ x ∈ ws, s.l1Core core (4 * x) = k)
    (hline : ∀ x ∈ ws, x / 64 = w / 64) (hnone : s.l1Word? k w = none) : (s.l1Fill core ws).l1Word? k w = some (copyOf s k w) := by
  have hstart : Filling s (s.l1Forget core ws) core k w := by
    refine ⟨s.l1Drop_moves _, fun _ _ => rfl, .inl ?_⟩
    rw [State.l1Word?, List.find?_eq_none] at hnone ⊢
    exact fun y hy => hnone y (List.mem_filter.mp hy).1
  have hgo : ∀ (xs : List Nat) (t : State), (∀ x ∈ xs, s.l1Core core (4 * x) = k ∧ x / 64 = w / 64) → Filling s t core k w →
      (w ∈ xs ∨ t.l1Word? k w = some (copyOf s k w)) →
      (xs.foldl (fun t w => t.fillWord core w) t).l1Word? k w = some (copyOf s k w) := by
    intro xs
    induction xs with
    | nil =>
      intro t _ _ h
      exact h.resolve_left (by simp)
    | cons x xs ih =>
      intro t hxs ht h
      obtain ⟨hx, hl⟩ := hxs x List.mem_cons_self
      obtain ⟨hnext, hdone⟩ := ht.step hx hl
      refine ih _ (fun y hy => hxs y (List.mem_cons_of_mem _ hy)) hnext ?_
      rcases h with h | h
      · exact (List.mem_cons.mp h).elim (fun e => .inr (hdone (.inl e.symm))) .inl
      · exact .inr (hdone (.inr h))
  rw [State.l1Fill_eq]
  exact hgo ws _ (fun x hx => ⟨hk x hx, hline x hx⟩) hstart (.inl hw)

end

/-- The L1 of a core whose load waits for a word does not hold it. -/
theorem State.missing_word {s : State} {core word : Nat} {peer : Bool} (h : s.missing core word peer = true) :
    s.l1Word? (s.l1Core core (4 * word)) word = none := by
  unfold State.missing at h
  simp only [Bool.and_eq_true, Option.isNone_iff_eq_none] at h
  exact h.1.1

/-- A read of a word that a core owns is forwarded to the owner (R144). -/
theorem State.forwardRead_some {s : State} {core word : Nat} (hmiss : s.missing core word false = true) (howner : s.ownerOf (word / 16) < 288) :
    s.forwardRead core word = some (s.l1Fill core [word]) := by
  simp only [State.forwardRead, guarded, hmiss, howner, decide_true, Bool.and_self, if_true]

/-- A core's load takes from its peers the words of the line that they hold at their latest value, this one among them (R142). -/
theorem State.peerProbe_some {s : State} {core line : Nat} {w : L1Word} (hfused : s.fused.contains (clusterOf core) = false) (hw : w ∈ s.l1)
    (hcore : w.core ≠ core) (hcluster : clusterOf w.core = clusterOf core) (hline : w.addr / 64 = line)
    (hdata : w.data = s.readBytes (4 * w.addr) 4) (hmiss : s.missing core w.addr true = true) :
    ∃ ws, s.peerProbe core line = some (s.l1Fill core ws) ∧ w.addr ∈ ws ∧ ∀ x ∈ ws, x / 64 = line := by
  have hholds : (w.core != core && clusterOf w.core == clusterOf core && w.addr / 64 == line && w.data == s.readBytes (4 * w.addr) 4 &&
      s.missing core w.addr true) = true := by
    simp only [bne_iff_ne, Bool.and_eq_true, beq_iff_eq]
    exact ⟨⟨⟨⟨hcore, hcluster⟩, hline⟩, hdata⟩, hmiss⟩
  refine ⟨(s.l1.filter fun w => w.core != core && clusterOf w.core == clusterOf core && w.addr / 64 == line &&
    w.data == s.readBytes (4 * w.addr) 4 && s.missing core w.addr true).map (·.addr), ?_, ?_, ?_⟩
  · have hne : (s.l1.filter fun w => w.core != core && clusterOf w.core == clusterOf core && w.addr / 64 == line &&
        w.data == s.readBytes (4 * w.addr) 4 && s.missing core w.addr true) ≠ [] :=
      List.ne_nil_of_mem (List.mem_filter.mpr ⟨hw, hholds⟩)
    simpa [State.peerProbe, guarded, hne] using hfused
  · exact List.mem_map.mpr ⟨w, List.mem_filter.mpr ⟨hw, hholds⟩, rfl⟩
  · intro x hx
    obtain ⟨y, hy, rfl⟩ := List.mem_map.mp hx
    have := (List.mem_filter.mp hy).2
    simp only [bne_iff_ne, Bool.and_eq_true, beq_iff_eq] at this
    exact this.1.1.2

/-- A page walk that finds a leaf enters it in the core's TLB (R342). -/
theorem State.tlbFill_walked {s : State} {core asid va : Nat} {l : Leaf} (hcan : canonical (BitVec.ofNat 64 va) = true) (hva : va < 2 ^ 64)
    (hhit : s.tlbHit core asid va = none) (hwalk : walk s asid va = .ok l) :
    ∃ e ∈ (s.tlbFill core asid (BitVec.ofNat 64 va)).tlb, e.core = core ∧ e.asid = asid ∧ e.bits = l.bits ∧ e.pa = l.pa ∧ e.w = l.w ∧
      e.x = l.x ∧ e.page ≤ va ∧ va < e.page + 2 ^ l.bits := by
  have hnat : (BitVec.ofNat 64 va).toNat = va := by rw [BitVec.toNat_ofNat, Nat.mod_eq_of_lt hva]
  refine ⟨⟨core, asid, va / 2 ^ l.bits * 2 ^ l.bits, l.bits, l.pa, l.w, l.x⟩, ?_, rfl, rfl, rfl, rfl, rfl, rfl, Nat.div_mul_le_self _ _,
    Nat.lt_div_mul_add (Nat.two_pow_pos _)⟩
  simp only [State.tlbFill, hnat, hhit, hcan, hwalk, Bool.not_true, Bool.false_eq_true, if_false]
  exact List.mem_append_right _ (List.mem_singleton_self _)

/-! ## The events -/

section
variable {s : State}

/-- A clause of `CrewsStand` for an event after which the crews are those of before. -/
theorem CachesMove.crewsStand {t : State} (h : CachesMove s t) : CrewsStand s t.retry := crewsStand_retry h.crews

/-- A change of the caches' tables and the crews' next tries are all that an event leaves. -/
theorem CachesMove.retry {t : State} (h : CachesMove s t) : t.retry = { s with
    crews := t.retry.crews, owner := t.owner, l1 := t.l1, l2 := t.l2, misses := t.misses, wfill := t.wfill } := by
  unfold CachesMove at h
  rw [h]
  rfl

end

/-- Settles O46: each clause is one answer of the event, the victim's by what a slice does to make room, the readers' by what a fill brings
into an L1. -/
theorem cachesAndWalks : Obligations.CachesAndWalks := by
  refine ⟨fun s => ⟨?_, ?_, ?_, ?_, ?_⟩, fun s => ?_⟩
  · intro slice line m hm set marked ways
    have hfound := List.find?_some hm
    simp only [Bool.and_eq_true, beq_iff_eq] at hfound
    obtain ⟨⟨hslice, hcls⟩, hline⟩ := hfound
    refine ⟨fun hholds => ?_, fun hholds hways => ?_, fun v hholds hways hv hrec hdirty hbusy => ?_⟩
    · refine ⟨_, happens_of_some rfl (State.fillLine_held hm hholds), crewsStand_retry rfl, rfl, rfl, ?_⟩
      refine List.map_congr_left fun e _ => ?_
      simp only [Bool.and_eq_true, beq_iff_eq]
      rfl
    · obtain ⟨hv, hwm⟩ := filledLine_marked (s := s) (u := { s with misses := s.misses.erase m }) (slice := slice) (line := line) (m := m)
        fun _ _ => Iff.rfl
      exact ⟨_, filledLine { s with misses := s.misses.erase m } slice line m,
        happens_of_some rfl (State.fillLine_room hm hholds (State.makeRoom_free hways)), crewsStand_retry rfl, rfl, rfl, rfl, rfl, rfl, rfl,
        hv, hwm⟩
    · have hnone : m.cls ≠ .recall := by simp [hcls]
      have hvict := (State.victim_erase hline hholds).trans hv
      have hback : s.lineDirty v = false ∨ s.backOk slice v.line = true := hdirty.imp_left State.lineDirty_eq_false
      obtain ⟨u, hroom, hu⟩ := State.makeRoom_full (s := { s with misses := s.misses.erase m }) (slice := slice) (line := line)
        (decide_eq_true hways) hvict (fun i hi => (State.recalling_erase hnone _).trans (hrec i hi)) hback
        ((State.busyEntries_erase hnone slice).symm ▸ hbusy)
      obtain ⟨hin, hvslice⟩ := State.victim_mem (s := s) hv
      have hvline : v.line ≠ line := fun h => by simpa [hvslice, h] using List.any_eq_false.mp hholds v hin
      obtain ⟨hv, hwm⟩ := filledLine_marked (s := s) (u := u) (slice := slice) (line := line) (m := m)
        fun x hx => hu.marks x (hx ▸ hvline.symm)
      refine ⟨_, filledLine u slice line m, happens_of_some rfl (State.fillLine_room hm hholds hroom), crewsStand_retry hu.crews, hu.mem,
        hu.pending, hu.back hin hvslice, rfl, rfl, ⟨hv, hwm⟩, fun x hx hne => ?_, List.mem_append_right _ (List.mem_singleton_self _),
        hu.owners⟩
      exact hu.gone x ((List.mem_append.mp hx).resolve_right fun h => hne (List.mem_singleton.mp h))
  · intro slice line k hno hslice hsector hpart hdev hfour hroom hnone hk hfree htaken
    exact ⟨_, happens_of_some rfl (State.fillLine_mirror hno hslice hsector hpart hdev hfour hroom hnone hk hfree htaken),
      crewsStand_retry rfl, rfl⟩
  · intro slice m hm hbusy
    exact ⟨_, happens_of_some rfl (State.refill_some hm hbusy), crewsStand_retry rfl, rfl⟩
  · intro line
    exact ⟨_, happens_of_some (t := s.dropMirrors line) rfl rfl, crewsStand_retry rfl, rfl⟩
  · intro core asid va l hcan hva hhit hwalk
    obtain ⟨e, he, hentry⟩ := State.tlbFill_walked hcan hva hhit hwalk
    refine ⟨_, e, happens_of_some (t := s.tlbFill core asid (BitVec.ofNat 64 va)) rfl rfl, crewsStand_retry (State.tlbFill_crews ..), ?_,
      he, hentry⟩
    rw [tlbFill_eq]
    rfl
  · intro copied back
    refine ⟨?_, ?_, ?_, ?_, ?_⟩
    · intro sector howner hrec hbusy
      refine ⟨_, happens_of_some rfl (State.sendRecall_some howner hrec hbusy), crewsStand_retry rfl, ?_, rfl⟩
      exact List.any_eq_true.mpr ⟨_, List.mem_append_right _ (List.mem_singleton_self _), by simp⟩
    · intro sector hrec
      refine ⟨_, happens_of_some (t := s.writeBack sector) rfl rfl, (State.writeBack_moves hrec).crewsStand, State.writeBack_recalling hrec,
        (State.writeBack_moves hrec).retry, ?_⟩
      rw [State.writeBack_recalled hrec]
      refine ⟨fun k => ?_, fun ho => ?_, fun ho => ?_, fun ho w hw hcore haddr hst e he _ => ?_⟩
      · exact State.ownerOf_recallEnded_revoke s sector k
      · exact (State.revoke_owned (s := s.recallEnded sector) ho).1
      · exact (State.revoke_owned (s := s.recallEnded sector) ho).2.1
      · exact (State.revoke_owned (s := s.recallEnded sector) ho).2.2 w hw hcore haddr hst e he
    · intro sector hrec
      obtain ⟨hmoves, howner, hlength, hclean, hback⟩ := State.writeBack_kept hrec
      refine ⟨_, happens_of_some (t := s.writeBack sector) rfl rfl, hmoves.crewsStand, ?_, hlength, hclean,
        fun w hw hcore haddr hst e he _ => hback w hw hcore haddr hst e he⟩
      have h := hmoves.retry
      rw [howner] at h
      exact h
    · intro core word hmiss howner
      refine ⟨_, happens_of_some rfl (State.forwardRead_some hmiss howner), (s.l1Fill_moves core [word]).crewsStand, (s.l1Fill_moves core [word]).retry, ?_⟩
      have h := State.l1Word?_l1Fill (s := s) (core := core) (k := s.l1Core core (4 * word)) (List.mem_singleton_self word) (by simp) (by simp)
        (State.missing_word hmiss)
      exact h.trans (by simp only [copyOf, beq_iff_eq])
    · intro core line w hfused hw hcore hcluster hline hdata hmiss
      obtain ⟨ws, hprobe, hin, hlines⟩ := State.peerProbe_some hfused hw hcore hcluster hline hdata hmiss
      have hl1 (x : Nat) : s.l1Core core (4 * x) = core := by rw [State.l1Core, if_neg (by simpa using hfused)]
      refine ⟨_, happens_of_some rfl hprobe, (s.l1Fill_moves core ws).crewsStand, (s.l1Fill_moves core ws).retry, ?_⟩
      have h := State.l1Word?_l1Fill (s := s) (core := core) (k := core) hin (fun x _ => hl1 x) (fun x hx => (hlines x hx).trans hline.symm)
        (hl1 w.addr ▸ State.missing_word hmiss)
      exact h.trans (by simp only [copyOf, beq_iff_eq])

end Sys2Proof.Machine
end

section
/-! The store path: stores that translate and are sent (R334, R212). -/

namespace Sys2Proof.Machine

/-! ## Pieces on their way -/

/-- Pieces of a store that are sent to their home slices are numbered in their order. -/
theorem pushRegs_eq (s : State) (qs : List RegReq) : pushRegs s qs = { s with
    regs := s.regs ++ (qs.zipIdx s.nextId).map fun q => { q.1 with id := q.2 }, nextId := s.nextId + qs.length } := by
  induction qs generalizing s with
  | nil => simp [pushRegs]
  | cons q qs ih =>
    have hstep : pushRegs s (q :: qs) = pushRegs { s with regs := s.regs ++ [{ q with id := s.nextId }], nextId := s.nextId + 1 } qs := rfl
    rw [hstep, ih]
    simp only [List.zipIdx_cons, List.map_cons, List.length_cons, List.append_assoc, List.singleton_append]
    congr 1
    omega

/-- Scratchpad writes that are sent to their banks are numbered in their order. -/
theorem pushHeld_eq (s : State) (hs : List HeldWrite) : pushHeld s hs = { s with
    held := s.held ++ (hs.zipIdx s.nextId).map fun h => { h.1 with id := h.2 }, nextId := s.nextId + hs.length } := by
  induction hs generalizing s with
  | nil => simp [pushHeld]
  | cons h hs ih =>
    have hstep : pushHeld s (h :: hs) = pushHeld { s with held := s.held ++ [{ h with id := s.nextId }], nextId := s.nextId + 1 } hs := rfl
    rw [hstep, ih]
    simp only [List.zipIdx_cons, List.map_cons, List.length_cons, List.append_assoc, List.singleton_append]
    congr 1
    omega

/-- The list without its repetitions holds nothing twice. -/
theorem nodup_eraseDups {α : Type} [BEq α] [LawfulBEq α] (xs : List α) : xs.eraseDups.Nodup := by
  match xs with
  | [] => simp
  | x :: xs =>
    rw [List.eraseDups_cons, List.nodup_cons]
    refine ⟨?_, nodup_eraseDups _⟩
    simp [List.mem_eraseDups]
termination_by xs.length
decreasing_by exact Nat.lt_succ_of_le (List.length_filter_le _ _)

/-- The bytes of a lane access at a place. -/
theorem mem_placed {a : Nat} {bs : List Byte} {b : Nat × Byte} : b ∈ placed a bs ↔ ∃ i, i < bs.length ∧ b = (a + i, bs.getD i 0) := by
  induction bs generalizing a with
  | nil => simp [placed]
  | cons x bs ih =>
    rw [placed_cons, List.mem_cons, ih]
    constructor
    · rintro (rfl | ⟨i, hi, rfl⟩)
      · exact ⟨0, by simp, rfl⟩
      · exact ⟨i + 1, by simpa using hi, by simp only [List.getD_cons_succ]; congr 1; omega⟩
    · rintro ⟨i, hi, rfl⟩
      cases i with
      | zero => exact .inl rfl
      | succ i => exact .inr ⟨i, by simpa using hi, by simp only [List.getD_cons_succ]; congr 1; omega⟩

/-! ## The split whose store leaves -/

/-- The crew's registers and programs are as before, the store has left its split, and the traps that are due are those of `due`. -/
def Popped (t : State) (cid sid : Nat) (c : Crew) (rest : List PStore) (due : Split → List (Nat × Trap)) : Prop :=
  ∃ c', t.crew? cid = some c' ∧ c'.vregs = c.vregs ∧ c'.sregs = c.sregs ∧
    ∀ n r, c.split? n = some r → ∃ r', c'.split? n = some r' ∧ r'.pc = r.pc ∧ r'.due = due r ∧ r'.stores = if n = sid then rest else r.stores

/-- The store path of a split after its first store has left. -/
def Split.popped (sid : Nat) (rest : List PStore) (p : Split) : Split := if p.sid == sid then { p with stores := rest } else p

@[simp] theorem Split.popped_sid (sid : Nat) (rest : List PStore) (p : Split) : (p.popped sid rest).sid = p.sid := by unfold popped; split <;> rfl
@[simp] theorem Split.popped_pc (sid : Nat) (rest : List PStore) (p : Split) : (p.popped sid rest).pc = p.pc := by unfold popped; split <;> rfl
@[simp] theorem Split.popped_due (sid : Nat) (rest : List PStore) (p : Split) : (p.popped sid rest).due = p.due := by unfold popped; split <;> rfl
@[simp] theorem Split.popped_anc (sid : Nat) (rest : List PStore) (p : Split) : (p.popped sid rest).anc = p.anc := by unfold popped; split <;> rfl
@[simp] theorem Split.popped_stores (sid : Nat) (rest : List PStore) (p : Split) :
    (p.popped sid rest).stores = if p.sid = sid then rest else p.stores := by
  unfold popped; by_cases h : p.sid = sid <;> simp [h]

/-- The state without the first store of a split. -/
def State.popped (s : State) (cid sid : Nat) (rest : List PStore) : State := s.modSplit cid sid fun p => { p with stores := rest }

theorem State.popped_eq (s : State) (cid sid : Nat) (rest : List PStore) :
    s.popped cid sid rest = s.modCrew cid fun c => { c with splits := c.splits.map (Split.popped sid rest) } := rfl

/-- A crew whose splits have each lost the store, or not, and owe what `g` adds. -/
theorem popped_of_crews {s t : State} {cid sid : Nat} {c : Crew} {rest : List PStore} {g : Split → Split}
    (hc : s.crew? cid = some c) (ht : t.crews = (s.modCrew cid fun c => { c with splits := c.splits.map fun p => g (p.popped sid rest) }).crews)
    (hsid : ∀ p, (g p).sid = p.sid) (hpc : ∀ p, (g p).pc = p.pc) (hstores : ∀ p, (g p).stores = p.stores) :
    Popped t.retry cid sid c rest fun p => (g (p.popped sid rest)).due := by
  obtain rfl := State.crew?_cid hc
  have hcrew : t.crew? c.cid = some { c with splits := c.splits.map fun p => g (p.popped sid rest) } := by
    rw [State.crew?, ht]
    exact State.crew?_modCrew_self _ (fun _ => rfl) hc
  refine ⟨_, (State.crew?_retry t c.cid).trans (congrArg (Option.map Crew.untried) hcrew), rfl, rfl, fun n r hr => ?_⟩
  have hfind : Crew.split? { c with splits := c.splits.map fun p => g (p.popped sid rest) } n = (c.split? n).map fun p => g (p.popped sid rest) :=
    find?_map_key Split.sid _ (fun p => (hsid _).trans (p.popped_sid sid rest)) n c.splits
  refine ⟨(g (r.popped sid rest)).untried, by rw [Crew.split?_untried, hfind, hr]; rfl, ?_, rfl, ?_⟩
  · exact (hpc _).trans (r.popped_pc sid rest)
  · exact ((hstores _).trans (r.popped_stores sid rest)).trans (by rw [Crew.split?_sid hr])

/-- A state whose crews are those that the store has left. -/
theorem popped_of_left {s t : State} {cid sid : Nat} {c : Crew} {rest : List PStore} (hc : s.crew? cid = some c)
    (ht : t.crews = (s.popped cid sid rest).crews) : Popped t.retry cid sid c rest Split.due := by
  have h := popped_of_crews (g := id) hc ht (fun _ => rfl) (fun _ => rfl) (fun _ => rfl)
  simpa only [id, Split.popped_due] using h

/-! ## Lanes that translate -/

theorem translateStore_eq (s : State) (c : Crew) (ls : List LaneStore) :
    translateStore s c ls = ls.map fun a => (a, s.translate c.core c.asid a.addr .write) := by
  induction ls with
  | nil => rfl
  | cons a ls ih => rw [translateStore, ih]; rfl

theorem translate_popped (s : State) (cid sid : Nat) (rest : List PStore) (core asid : Nat) (va : DWord) (nd : Need) :
    (s.popped cid sid rest).translate core asid va nd = s.translate core asid va nd := translate_crews s _ core asid va nd

/-- The addition of a lane of a RED at a place. -/
def laneAdd (c : Crew) (q : PStore) (o : AOp) (a : LaneStore) (pa : Nat) : AddReq :=
  { id := 0, core := c.core, cid := c.cid, sid := q.sid, asid := c.asid, addr := pa, op := o, wide := o.wide
    x := .ofNat 64 (leNat a.data), cmp := 0, poison := q.bad.contains a.lane, ret := none, acq := none, job := none
    hint := q.hint, seq := q.seq, anc := q.anc, rel := q.rel, paid := false }

/-- The piece of a store on a line. -/
def linePiece (c : Crew) (q : PStore) (all : List (Nat × Byte)) (l : Nat) : RegReq :=
  { id := 0, core := c.core, cid := c.cid, sid := q.sid, asid := c.asid, line := l
    bytes := all.filter fun b => lineOf b.1 == l
    hint := q.hint, seq := q.seq, anc := q.anc, inL1 := false, rel := q.rel }

/-- The bytes of a store at the places of its lanes. -/
def placedLanes (q : PStore) (pa : LaneStore → Nat) : List (Nat × Byte) := q.lanes.flatMap fun a => placed (pa a) a.data

/-- The state after the translations of a store. -/
def State.walked (s : State) (c : Crew) (ls : List LaneStore) : State := ls.foldl (fun s a => s.tlbFill c.core c.asid a.addr) s

theorem State.walked_eq (s : State) (c : Crew) (ls : List LaneStore) : s.walked c ls = { s with tlb := (s.walked c ls).tlb } := by
  induction ls generalizing s with
  | nil => rfl
  | cons a ls ih =>
    rw [State.walked, List.foldl_cons, ← State.walked, ih, State.tlbFill_eq]

theorem mem_placedLanes {q : PStore} {pa : LaneStore → Nat} {b : Nat × Byte} :
    b ∈ placedLanes q pa ↔ ∃ a ∈ q.lanes, ∃ i, i < a.data.length ∧ b = (pa a + i, a.data.getD i 0) := by
  simp only [placedLanes, List.mem_flatMap, mem_placed]

section
variable {s : State} {c : Crew} {p : Split} {q : PStore} {pa : LaneStore → Nat}

/-- Every lane of a store translates. -/
theorem translateStore_ok (h : ∀ a ∈ q.lanes, s.translate c.core c.asid a.addr .write = .ok (pa a)) :
    translateStore s c q.lanes = q.lanes.map fun a => (a, .ok (pa a)) := by
  rw [translateStore_eq]
  exact List.map_congr_left fun a ha => by rw [h a ha]

/-- The lanes that translate are listed with their places. -/
theorem filterMap_placed (ls : List LaneStore) (pa : LaneStore → Nat) : ls.filterMap (fun a => some (a, pa a)) = ls.map fun a => (a, pa a) :=
  congrFun (List.filterMap_eq_map (f := fun a => (a, pa a))) ls

theorem storeGlobal_ok_none (h : ∀ a ∈ q.lanes, s.translate c.core c.asid a.addr .write = .ok (pa a)) (hred : q.red = none) :
    s.storeGlobal c p q = pushRegs (s.walked c q.lanes)
      (((placedLanes q pa).map fun b => lineOf b.1).eraseDups.map (linePiece c q (placedLanes q pa))) := by
  simp only [State.storeGlobal, translateStore_ok h, hred, List.filterMap_map, Function.comp_def, List.filterMap_none, filterMap_placed,
    List.foldl_nil, List.foldl_map, List.flatMap_map]
  rfl

theorem storeGlobal_ok_some {o : AOp} (h : ∀ a ∈ q.lanes, s.translate c.core c.asid a.addr .write = .ok (pa a)) (hred : q.red = some o) :
    s.storeGlobal c p q = pushAdds (s.walked c q.lanes) (q.lanes.map fun a => laneAdd c q o a (pa a)) := by
  simp only [State.storeGlobal, translateStore_ok h, hred, List.filterMap_map, Function.comp_def, List.filterMap_none,
    List.foldl_nil, List.foldl_map, filterMap_placed, List.map_map]
  rfl

/-- The one lane of a store does not translate. -/
theorem storeGlobal_error {a : LaneStore} {r : Reason} (hl : q.lanes = [a]) (h : s.translate c.core c.asid a.addr .write = .error r) :
    s.storeGlobal c p q = s.addFault c p.sid q (if q.uniform = true then 0 else laneMask [a.lane]) a r := by
  simp only [State.storeGlobal, hl, translateStore, h, List.filterMap_cons, List.filterMap_nil, List.foldl_cons, List.foldl_nil,
    List.map_cons, List.map_nil, List.flatMap_nil, List.eraseDups_nil]
  cases q.red <;> rfl

/-- The store of a split leaves once those that precede it have left (R198, R334). -/
theorem storeTranslate_ready {cid sid : Nat} {rest : List PStore} (hc : s.crew? cid = some c) (hp : c.split? sid = some p)
    (hq : p.stores = q :: rest) (hb : ∀ r ∈ c.splits, ∀ x ∈ r.stores, precedes q.anc q.sid q.seq x.sid x.seq = false) :
    s.storeTranslate cid sid = match q.space with
      | .global => some ((s.popped cid sid rest).storeGlobal c p q)
      | .scratch => some (pushHeld (s.popped cid sid rest)
          (storePieces c q (fun a => a.addr.toNat / 256) (fun _ => c.team) fun a => a.addr.toNat))
      | .squad =>
        match checkSquad s c p.pc (q.lanes.map fun a => (a.lane, a.addr)) with
        | .error (.trap t) => some ((s.popped cid sid rest).modSplit cid sid fun p => { p with due := p.due ++ [(q.seq, t)] })
        | .error _ => none
        | .ok _ => some (pushHeld (s.popped cid sid rest)
            (storePieces c q (fun a => s.squadTeam c a.addr) (fun a => s.squadTeam c a.addr) fun a => a.addr.toNat % 0x100000)) := by
  have hbefore : c.storeBefore (precedes q.anc q.sid q.seq) = false := by
    simp only [Crew.storeBefore, List.any_eq_false]
    exact fun r hr hx => by
      obtain ⟨x, hx, hpre⟩ := List.any_eq_true.mp hx
      simp [hb r hr x hx] at hpre
  simp only [State.storeTranslate, hc, hp, hq, hbefore, Bool.false_eq_true, if_false]
  rfl

end

end Sys2Proof.Machine
end

section
/-! What STORE_TRANSLATE sends (R212, R334). -/

namespace Sys2Proof.Machine

/-! ## Requests that are numbered -/

/-- What is numbered was there to number. -/
theorem mem_of_numbered {α : Type} {f : α → Nat → α} {xs : List α} {n : Nat} {y : α} (h : y ∈ (xs.zipIdx n).map fun x => f x.1 x.2) :
    ∃ x ∈ xs, ∃ k, y = f x k := by
  obtain ⟨⟨x, k⟩, hx, rfl⟩ := List.mem_map.mp h
  exact ⟨x, List.fst_mem_of_mem_zipIdx hx, k, rfl⟩

/-- What is there to number is numbered. -/
theorem numbered_of_mem {α : Type} {f : α → Nat → α} {xs : List α} (n : Nat) {x : α} (h : x ∈ xs) :
    ∃ k, f x k ∈ (xs.zipIdx n).map fun x => f x.1 x.2 := by
  rw [← List.zipIdx_map_fst n xs] at h
  obtain ⟨⟨y, k⟩, hy, rfl⟩ := List.mem_map.mp h
  exact ⟨k, List.mem_map_of_mem hy⟩

/-- Numbering changes nothing else that is asked of the requests. -/
theorem map_numbered {α β : Type} {f : α → Nat → α} {g : α → β} (hf : ∀ x k, g (f x k) = g x) (xs : List α) (n : Nat) :
    ((xs.zipIdx n).map fun x => f x.1 x.2).map g = xs.map g := by
  rw [List.map_map]
  calc (xs.zipIdx n).map (g ∘ fun x => f x.1 x.2) = (xs.zipIdx n).map (g ∘ Prod.fst) := List.map_congr_left fun x _ => hf x.1 x.2
    _ = xs.map g := by rw [← List.map_map, List.zipIdx_map_fst]

section
variable {s : State} {cid sid : Nat} {c : Crew} {p : Split} {q : PStore} {rest : List PStore} {pa : LaneStore → Nat}

/-- A line piece holds the bytes of the store on its line. -/
theorem mem_linePiece {l : Nat} {b : Nat × Byte} : b ∈ (linePiece c q (placedLanes q pa) l).bytes ↔
    lineOf b.1 = l ∧ ∃ a ∈ q.lanes, ∃ i, i < a.data.length ∧ b = (pa a + i, a.data.getD i 0) := by
  simp only [linePiece, List.mem_filter, beq_iff_eq, mem_placedLanes, and_comm]

/-- A piece of a scratchpad store belongs to the crew and the store; its bytes are those of the store's lanes of its team. -/
theorem mem_storePieces {key team off : LaneStore → Nat} (hkey : ∀ a b, key a = key b → team a = team b) {h : HeldWrite}
    (hh : h ∈ storePieces c q key team off) : h.lid = c.lid ∧ h.cid = c.cid ∧ h.sid = q.sid ∧ h.seq = q.seq ∧ h.anc = q.anc ∧ h.bar = none ∧
      ∀ b ∈ h.bytes, ∃ a ∈ q.lanes, h.team = team a ∧ ∃ i, i < a.data.length ∧ b = (off a + i, a.data.getD i 0) := by
  simp only [storePieces, List.mem_map] at hh
  obtain ⟨k, -, rfl⟩ := hh
  refine ⟨rfl, rfl, rfl, rfl, rfl, rfl, fun b hb => ?_⟩
  obtain ⟨a, ha, hab⟩ := List.mem_flatMap.mp hb
  obtain ⟨ha', hak⟩ := List.mem_filter.mp ha
  refine ⟨a, ha', ?_, mem_placed.mp hab⟩
  obtain ⟨y, ys, hys⟩ := List.exists_cons_of_ne_nil (List.ne_nil_of_mem ha)
  have hy : y ∈ q.lanes.filter fun a => key a == k := hys ▸ List.mem_cons_self
  have hyk := (List.mem_filter.mp hy).2
  simp only [hys, List.head?_cons, Option.map_some, Option.getD_some]
  exact hkey y a ((beq_iff_eq.mp hyk).trans (beq_iff_eq.mp hak).symm)

/-- Each lane of a scratchpad store is whole in a piece of its team. -/
theorem storePieces_of_lane {key team off : LaneStore → Nat} (hkey : ∀ a b, key a = key b → team a = team b) {a : LaneStore} (ha : a ∈ q.lanes) :
    ∃ h ∈ storePieces c q key team off, h.team = team a ∧ ∀ i, i < a.data.length → (off a + i, a.data.getD i 0) ∈ h.bytes := by
  have hmine : a ∈ q.lanes.filter fun b => key b == key a := List.mem_filter.mpr ⟨ha, beq_self_eq_true _⟩
  refine ⟨_, List.mem_map_of_mem (List.mem_eraseDups.mpr (List.mem_map_of_mem ha)), ?_, fun i hi => ?_⟩
  · obtain ⟨y, ys, hys⟩ := List.exists_cons_of_ne_nil (List.ne_nil_of_mem hmine)
    have hy : y ∈ q.lanes.filter fun b => key b == key a := hys ▸ List.mem_cons_self
    simp only [hys, List.head?_cons, Option.map_some, Option.getD_some]
    exact hkey y a (beq_iff_eq.mp (List.mem_filter.mp hy).2)
  · exact List.mem_flatMap.mpr ⟨a, hmine, mem_placed.mpr ⟨i, hi, rfl⟩⟩

/-- A scratchpad store that leaves sends its pieces to their banks. -/
theorem storeTranslate_sends {key team off : LaneStore → Nat} (hkey : ∀ a b, key a = key b → team a = team b) (hc : s.crew? cid = some c)
    (hs : s.storeTranslate cid sid = some (pushHeld (s.popped cid sid rest) (storePieces c q key team off))) :
    ∃ (t : State) (new : List HeldWrite), Happens s (.storeTranslate cid sid) t ∧ Popped t cid sid c rest Split.due ∧ t.teams = s.teams ∧
      t.mem = s.mem ∧ t.held = s.held ++ new ∧
      (∀ h ∈ new, h.lid = c.lid ∧ h.cid = cid ∧ h.sid = q.sid ∧ h.seq = q.seq ∧ h.anc = q.anc ∧ h.bar = none ∧
        ∀ b ∈ h.bytes, ∃ a ∈ q.lanes, h.team = team a ∧ ∃ i, i < a.data.length ∧ b = (off a + i, a.data.getD i 0)) ∧
      ∀ a ∈ q.lanes, ∃ h ∈ new, h.team = team a ∧ ∀ i, i < a.data.length → (off a + i, a.data.getD i 0) ∈ h.bytes := by
  obtain rfl := State.crew?_cid hc
  rw [pushHeld_eq] at hs
  refine ⟨_, _, happens_of_some rfl hs, popped_of_left hc rfl, rfl, rfl, rfl, fun h hh => ?_, fun a ha => ?_⟩
  · obtain ⟨x, hx, k, rfl⟩ := mem_of_numbered (f := fun (h : HeldWrite) k => { h with id := k }) hh
    exact (mem_storePieces hkey hx :)
  · obtain ⟨h, hh, hteam, hbytes⟩ := storePieces_of_lane (c := c) hkey (off := off) ha
    obtain ⟨k, hk⟩ := numbered_of_mem (f := fun (h : HeldWrite) k => { h with id := k }) s.nextId hh
    exact ⟨_, hk, hteam, hbytes⟩

/-- A global store whose lanes translate sends a piece for each line that it touches. -/
theorem storeTranslate_pieces (hc : s.crew? cid = some c)
    (hs : s.storeTranslate cid sid = some (pushRegs ((s.popped cid sid rest).walked c q.lanes)
      (((placedLanes q pa).map fun b => lineOf b.1).eraseDups.map (linePiece c q (placedLanes q pa))))) :
    ∃ (t : State) (new : List RegReq), Happens s (.storeTranslate cid sid) t ∧ Popped t cid sid c rest Split.due ∧ t.mem = s.mem ∧
      t.regs = s.regs ++ new ∧
      (∀ r ∈ new, r.cid = cid ∧ r.sid = q.sid ∧ r.core = c.core ∧ r.asid = c.asid ∧ r.seq = q.seq ∧ r.anc = q.anc ∧ r.inL1 = false ∧ r.rel = q.rel ∧
        ∀ b, b ∈ r.bytes ↔ lineOf b.1 = r.line ∧ ∃ a ∈ q.lanes, ∃ i, i < a.data.length ∧ b = (pa a + i, a.data.getD i 0)) ∧
      (new.map (·.line)).Nodup ∧ ∀ a ∈ q.lanes, ∀ i, i < a.data.length → ∃ r ∈ new, r.line = lineOf (pa a + i) := by
  obtain rfl := State.crew?_cid hc
  rw [pushRegs_eq, State.walked_eq] at hs
  refine ⟨_, _, happens_of_some rfl hs, popped_of_left hc rfl, rfl, rfl, fun r hr => ?_, ?_, fun a ha i hi => ?_⟩
  · obtain ⟨x, hx, k, rfl⟩ := mem_of_numbered (f := fun (h : RegReq) k => { h with id := k }) hr
    obtain ⟨l, -, rfl⟩ := List.mem_map.mp hx
    exact ⟨rfl, rfl, rfl, rfl, rfl, rfl, rfl, rfl, fun b => mem_linePiece (c := c)⟩
  · rw [map_numbered (f := fun (h : RegReq) k => { h with id := k }) (fun _ _ => rfl), List.map_map]
    exact (List.map_id _).symm ▸ nodup_eraseDups _
  · have hb : (pa a + i, a.data.getD i 0) ∈ placedLanes q pa := mem_placedLanes.mpr ⟨a, ha, i, hi, rfl⟩
    have hl := List.mem_eraseDups.mpr (List.mem_map_of_mem (f := fun b : Nat × Byte => lineOf b.1) hb)
    obtain ⟨k, hk⟩ := numbered_of_mem (f := fun (h : RegReq) k => { h with id := k }) s.nextId
      (List.mem_map_of_mem (f := linePiece c q (placedLanes q pa)) hl)
    exact ⟨_, hk, rfl⟩

/-- A RED whose lanes translate sends an addition for each. -/
theorem storeTranslate_adds {o : AOp} (hc : s.crew? cid = some c)
    (hs : s.storeTranslate cid sid = some (pushAdds ((s.popped cid sid rest).walked c q.lanes) (q.lanes.map fun a => laneAdd c q o a (pa a)))) :
    ∃ (t : State) (new : List AddReq), Happens s (.storeTranslate cid sid) t ∧ Popped t cid sid c rest Split.due ∧ t.mem = s.mem ∧
      t.adds = s.adds ++ new ∧ new.length = q.lanes.length ∧
      ∀ a ∈ q.lanes, ∃ r ∈ new, r.addr = pa a ∧ r.op = o ∧ r.wide = o.wide ∧ r.ret = none ∧ r.rel = q.rel ∧
        r.x = BitVec.ofNat 64 (leNat a.data) ∧ (r.poison = true ↔ a.lane ∈ q.bad) := by
  rw [pushAdds_eq, State.walked_eq] at hs
  refine ⟨_, _, happens_of_some rfl hs, popped_of_left hc rfl, rfl, rfl, ?_, fun a ha => ?_⟩
  · simp
  · obtain ⟨k, hk⟩ := numbered_of_mem (f := fun (h : AddReq) k => { h with id := k }) s.nextId
      (List.mem_map_of_mem (f := fun a => laneAdd c q o a (pa a)) ha)
    refine ⟨_, hk, ?_⟩
    exact ⟨rfl, rfl, rfl, rfl, rfl, rfl, List.contains_iff_mem⟩

/-! ## A lane that does not translate -/

/-- The traps that a split owes once a lane of an earlier store has not translated (R198, R335). -/
def Split.faulted (q : PStore) (t : Trap) (p : Split) : Split :=
  if !(p.follows q.sid q.seq) || (p.due.any fun d => d.1 == q.seq && d.2.cause == .stfault) then p else { p with due := p.due ++ [(q.seq, t)] }

theorem Split.faulted_due (q : PStore) (t : Trap) (p : Split) : (p.faulted q t).due =
    if p.follows q.sid q.seq = false ∨ p.due.any (fun d => d.1 == q.seq && d.2.cause == .stfault) = true then p.due else p.due ++ [(q.seq, t)] := by
  unfold faulted
  simp only [Bool.or_eq_true, Bool.not_eq_true']
  split <;> rfl

theorem Split.faulted_sid (q : PStore) (t : Trap) (p : Split) : (p.faulted q t).sid = p.sid := by unfold faulted; split <;> rfl
theorem Split.faulted_pc (q : PStore) (t : Trap) (p : Split) : (p.faulted q t).pc = p.pc := by unfold faulted; split <;> rfl
theorem Split.faulted_stores (q : PStore) (t : Trap) (p : Split) : (p.faulted q t).stores = p.stores := by unfold faulted; split <;> rfl

/-- Whether a split follows a store does not turn on its own stores. -/
theorem Split.follows_popped (sid : Nat) (rest : List PStore) (p : Split) (osid oseq : Nat) :
    (p.popped sid rest).follows osid oseq = p.follows osid oseq := by simp only [Split.follows, Split.popped_sid, Split.popped_anc]

/-- A lane that does not translate leaves its record, and the splits that follow the store owe a trap. -/
theorem addFault_popped (hc : s.crew? cid = some c) (m : BitVec 32) (a : LaneStore) (r : Reason) :
    let t := (s.popped cid sid rest).addFault c sid q m a r
    Popped t.retry cid sid c rest (fun r' => if r'.follows q.sid q.seq = false ∨ r'.due.any (fun d => d.1 == q.seq && d.2.cause == .stfault) = true then r'.due
      else r'.due ++ [(q.seq, ⟨.stfault, 0, a.addr, BitVec.ofNat 64 (r.code + 256)⟩)]) := by
  obtain rfl := State.crew?_cid hc
  have hpop := popped_of_crews (t := (s.popped c.cid sid rest).addFault c sid q m a r) (sid := sid) (rest := rest)
    (g := Split.faulted q ⟨.stfault, 0, a.addr, BitVec.ofNat 64 (r.code + 256)⟩) hc ?_ (Split.faulted_sid q _) (Split.faulted_pc q _) (Split.faulted_stores q _)
  · simpa only [Split.faulted_due, Split.follows_popped, Split.popped_due] using hpop
  · have h := State.modCrew_modCrew s c.cid (fun c => { c with splits := c.splits.map (Split.popped sid rest) })
      (fun c => { c with splits := c.splits.map (Split.faulted q ⟨.stfault, 0, a.addr, BitVec.ofNat 64 (r.code + 256)⟩) }) (fun _ => rfl)
    simp only [List.map_map] at h
    exact (congrArg State.crews h :)

end

end Sys2Proof.Machine
end

section
/-! Writes that become visible: in the L1 of the owner, at the home slice, and with the registration of a store (R144, R146, R169). -/

namespace Sys2Proof.Machine

/-! ## What a write changes -/

section
variable {s t : State}

theorem Written.regs (h : Written s t) : t.regs = s.regs := by unfold Written at h; rw [h]
theorem Written.acks (h : Written s t) : t.acks = s.acks := by unfold Written at h; rw [h]
theorem Written.wseq (h : Written s t) : t.wseq = s.wseq := by unfold Written at h; rw [h]
theorem Written.fused (h : Written s t) : t.fused = s.fused := by unfold Written at h; rw [h]
theorem Written.teams (h : Written s t) : t.teams = s.teams := by unfold Written at h; rw [h]
theorem Written.copies (h : Written s t) : t.copies = s.copies := by unfold Written at h; rw [h]
theorem Written.adds (h : Written s t) : t.adds = s.adds := by unfold Written at h; rw [h]

theorem Written.bumpWseq (line : Nat) (h : Written s t) : Written (s.bumpWseq line) (t.bumpWseq line) := by
  unfold Written at *
  rw [h]
  rfl

/-- The caches' tables may move in a write. -/
theorem CachesMove.written (h : CachesMove s t) : Written s t := by
  unfold CachesMove at h
  unfold Written
  rw [h]

end

/-- The word of an L1 that owns its sector, written there. -/
def State.ownedWord (s : State) (core w : Nat) : L1Word :=
  { core := s.l1Core core (4 * w), addr := w, st := .ownedDirty, data := s.readBytes (4 * w) 4, bad := false }

theorem State.ownerWrite_eq (s : State) (core : Nat) (ps : List (Nat × Byte)) :
    s.ownerWrite core ps = (wordsOf ps).foldl (fun t w => t.l1Put (t.ownedWord core w)) (s.performWrite ps) := rfl

theorem State.l1Puts_moves (core : Nat) (ws : List Nat) (s : State) : CachesMove s (ws.foldl (fun t w => t.l1Put (t.ownedWord core w)) s) :=
  .foldl _ (fun t _ => t.l1Put_moves _) ws s

theorem State.ownerWrite_written (s : State) (core : Nat) (ps : List (Nat × Byte)) : Written s (s.ownerWrite core ps) :=
  (s.performWrite_written ps).trans (State.l1Puts_moves core _ _).written

theorem State.ownerWrite_crews (s : State) (core : Nat) (ps : List (Nat × Byte)) :
    (s.ownerWrite core ps).crews = (s.clearResv (wordsOf ps)).crews := (State.l1Puts_moves core _ _).crews

theorem CachesMove.l1Core {s t : State} (h : CachesMove s t) (core a : Nat) : t.l1Core core a = s.l1Core core a := by
  unfold State.l1Core
  rw [h.fused]

theorem CachesMove.ownedWord {s t : State} (h : CachesMove s t) (core w : Nat) : t.ownedWord core w = s.ownedWord core w := by
  unfold State.ownedWord State.readBytes
  rw [h.l1Core, h.mem]

theorem mem_wordsOf {ps : List (Nat × Byte)} {w : Nat} : w ∈ wordsOf ps ↔ ∃ b ∈ ps, b.1 / 4 = w := by
  rw [wordsOf, List.mem_eraseDups, List.mem_map]

/-- The L1s of one line are one. -/
theorem State.l1Core_line (s : State) (core : Nat) {a b : Nat} (h : a / 256 = b / 256) : s.l1Core core a = s.l1Core core b := by
  unfold State.l1Core
  rw [h]

/-! ## Words that enter the owner's L1 together -/

/-- The words of a line that enter the owner's L1 leave the owners of the line's sectors. -/
theorem State.ownerOf_l1Puts {core line k : Nat} (hk : k / 4 = line) {ws : List Nat} (hws : ∀ w ∈ ws, w / 64 = line) (s : State) :
    (ws.foldl (fun t w => t.l1Put (t.ownedWord core w)) s).ownerOf k = s.ownerOf k := by
  induction ws generalizing s with
  | nil => rfl
  | cons w ws ih =>
    rw [List.foldl_cons, ih fun v hv => hws v (List.mem_cons_of_mem _ hv)]
    exact State.ownerOf_l1Put s _ (hk.trans (hws w List.mem_cons_self).symm)

/-- Another word of the line stays in the owner's L1. -/
theorem State.mem_l1Puts_of_mem {core line : Nat} {ws : List Nat} (hws : ∀ w ∈ ws, w / 64 = line) {x : L1Word} {s : State}
    (hcore : x.core = s.l1Core core (256 * line)) (hx : x.addr / 64 = line) (hne : x.addr ∉ ws) (hmem : x ∈ s.l1) :
    x ∈ (ws.foldl (fun t w => t.l1Put (t.ownedWord core w)) s).l1 := by
  induction ws generalizing s with
  | nil => exact hmem
  | cons w ws ih =>
    rw [List.mem_cons, not_or] at hne
    have hw := hws w List.mem_cons_self
    have hmoves := s.l1Put_moves (s.ownedWord core w)
    refine ih (fun v hv => hws v (List.mem_cons_of_mem _ hv)) ?_ hne.2 ?_
    · exact hcore.trans (hmoves.l1Core core _).symm
    · refine State.mem_l1Put_of_mem s hmem (hcore.trans (State.l1Core_line s core ?_)) (hx.trans hw.symm) hne.1
      omega

/-- Each of the words is owned and dirty in the owner's L1. -/
theorem State.mem_l1Puts {core line : Nat} {ws : List Nat} (hnd : ws.Nodup) (hws : ∀ w ∈ ws, w / 64 = line) {w : Nat} (hw : w ∈ ws) (s : State) :
    s.ownedWord core w ∈ (ws.foldl (fun t w => t.l1Put (t.ownedWord core w)) s).l1 := by
  induction ws generalizing s with
  | nil => cases hw
  | cons v ws ih =>
    rw [List.nodup_cons] at hnd
    have hws' : ∀ w ∈ ws, w / 64 = line := fun u hu => hws u (List.mem_cons_of_mem _ hu)
    have hmoves := s.l1Put_moves (s.ownedWord core v)
    obtain rfl | hw := List.mem_cons.mp hw
    · refine State.mem_l1Puts_of_mem hws' ?_ (hws w List.mem_cons_self) hnd.1 (State.mem_l1Put _ _)
      have hline := hws w List.mem_cons_self
      exact (State.l1Core_line s core (by omega)).trans (hmoves.l1Core core (256 * line)).symm
    · rw [← hmoves.ownedWord core w]
      exact ih hnd.2 hws' hw _

/-! ## A store that is performed -/

/-- The bytes of a store are in memory, nothing else of memory has changed, and the reservations on its words have ended (R169). -/
def StorePerformed (s t : State) (ps : List (Nat × Byte)) : Prop :=
  MemoryStandsBut s t (fun a => ∃ b ∈ ps, b.1 = a) ∧ RegistersStand s t ∧ ((ps.map (·.1)).Nodup → ∀ b ∈ ps, t.readByte b.1 = b.2) ∧
    ∀ c ∈ t.crews, ∀ r ∈ c.resv, ∀ b ∈ ps, r.word ≠ b.1 / 4

/-- The core whose L1 is `me` owns the sectors of a store, and its L1 holds the words dirty (R146). -/
def OwnedDirty (t : State) (me : Nat) (ps : List (Nat × Byte)) : Prop :=
  ∀ b ∈ ps, t.ownerOf (b.1 / 64) = me ∧ ∃ x ∈ t.l1, x.core = me ∧ x.addr = b.1 / 4 ∧ x.st = .ownedDirty ∧ x.data = t.readBytes (4 * (b.1 / 4)) 4

theorem RegistersStand.retry {s t : State} (h : RegistersStand s t) : RegistersStand s t.retry := by
  intro k c hk
  obtain ⟨d, hd, hregs⟩ := h k c hk
  exact ⟨d.untried, by rw [State.crew?_retry, hd]; rfl, hregs⟩

/-- Reservations that end are nothing to the registers (R169). -/
theorem registersStand_of_clear {s t : State} {ws : List Nat} (h : t.crews = (s.clearResv ws).crews) : RegistersStand s t := by
  intro k c hk
  have hfind := find?_map_key Crew.cid (fun c : Crew => { c with resv := c.resv.filter fun r => !ws.contains r.word }) (fun _ => rfl) k s.crews
  refine ⟨{ c with resv := c.resv.filter fun r => !ws.contains r.word }, ?_, rfl, rfl, rfl, rfl, rfl⟩
  rw [State.crew?, h]
  exact hfind.trans (congrArg _ hk)

theorem storePerformed_of_clear {s t : State} {ps : List (Nat × Byte)} (hmem : t.mem = (s.writePairs ps).mem)
    (hcrews : t.crews = (s.clearResv (wordsOf ps)).crews) : StorePerformed s t ps := by
  have hread (a : Nat) : t.readByte a = (s.writePairs ps).readByte a := by unfold State.readByte; rw [hmem]
  refine ⟨fun a ha => ?_, registersStand_of_clear hcrews, fun hnd b hb => ?_, fun c hc r hr b hb hw => ?_⟩
  · rw [hread, State.readByte_writePairs_of_notMem]
    exact fun p hp hpa => ha ⟨p, hp, hpa⟩
  · rw [hread]
    exact State.readByte_writePairs_of_mem s ps b.1 b.2 hb hnd
  · rw [hcrews] at hc
    obtain ⟨c, -, rfl⟩ := List.mem_map.mp hc
    have hword : (!(wordsOf ps).contains r.word) = true := (List.mem_filter.mp hr).2
    have hcontains : (wordsOf ps).contains r.word = true := List.contains_iff_mem.mpr (mem_wordsOf.mpr ⟨b, hb, hw.symm⟩)
    rw [hcontains] at hword
    cases hword

theorem StorePerformed.retry {s t : State} {ps : List (Nat × Byte)} (h : StorePerformed s t ps) : StorePerformed s t.retry ps := by
  obtain ⟨hmem, hregs, hread, hresv⟩ := h
  refine ⟨hmem, hregs.retry, hread, fun c hc => ?_⟩
  obtain ⟨d, hd, rfl⟩ := List.mem_map.mp hc
  exact hresv d hd

/-! ## A write in the owner's L1 (R146) -/

section
variable {s : State} {core line : Nat} {ps : List (Nat × Byte)}

theorem lines_of_bytes (hline : ∀ b ∈ ps, lineOf b.1 = line) : ∀ w ∈ wordsOf ps, w / 64 = line := by
  intro w hw
  obtain ⟨b, hb, rfl⟩ := mem_wordsOf.mp hw
  have := hline b hb
  unfold lineOf at this
  omega

theorem ownerWrite_performed (s : State) (core : Nat) (ps : List (Nat × Byte)) : StorePerformed s (s.ownerWrite core ps) ps :=
  storePerformed_of_clear (s.ownerWrite_mem core ps) (s.ownerWrite_crews core ps)

/-- After a write in the L1 that owns the sectors it holds the words dirty. -/
theorem ownerWrite_owned (hline : ∀ b ∈ ps, lineOf b.1 = line) (howns : ∀ b ∈ ps, s.ownerOf (b.1 / 64) = s.l1Core core (256 * line)) :
    OwnedDirty (s.ownerWrite core ps) (s.l1Core core (256 * line)) ps := by
  intro b hb
  have hws := lines_of_bytes hline
  have hw : b.1 / 4 ∈ wordsOf ps := mem_wordsOf.mpr ⟨b, hb, rfl⟩
  have hbline := hws _ hw
  have hword := State.mem_l1Puts (core := core) (nodup_eraseDups _) hws hw (s.performWrite ps)
  have hmem := (State.l1Puts_moves core (wordsOf ps) (s.performWrite ps)).mem
  rw [State.ownerWrite_eq]
  refine ⟨?_, _, hword, ?_, rfl, rfl, ?_⟩
  · rw [State.ownerOf_l1Puts (line := line) (by omega) hws]
    exact howns b hb
  · exact State.l1Core_line s core (by omega)
  · unfold State.readBytes
    rw [hmem]
    rfl

theorem ownerOf_of_ownsAll (hline : ∀ b ∈ ps, lineOf b.1 = line) (h : s.ownsAll core ps = true) :
    ∀ b ∈ ps, s.ownerOf (b.1 / 64) = s.l1Core core (256 * line) := by
  intro b hb
  have hw := List.all_eq_true.mp h _ (mem_wordsOf.mpr ⟨b, hb, rfl⟩)
  have hbline := lines_of_bytes hline _ (mem_wordsOf.mpr ⟨b, hb, rfl⟩)
  simp only [Bool.and_eq_true, beq_iff_eq] at hw
  have hsec : b.1 / 4 / 16 = b.1 / 64 := by omega
  rw [← hsec, hw.1]
  exact State.l1Core_line s core (by omega)

end

/-! ## A registration at the home slice (R144) -/

/-- A sector is granted to a core; another owner loses it first. -/
def State.grant (s : State) (me sec : Nat) : State :=
  if s.ownerOf sec == me then s else { s.revoke sec with owner := sset noOwner (s.revoke sec).owner sec me }

theorem State.grant_moves (s : State) (me sec : Nat) : CachesMove s (s.grant me sec) := by
  unfold State.grant
  split
  · exact .refl s
  · exact (s.revoke_moves sec).trans rfl

theorem State.ownerOf_grant (s : State) (me sec k : Nat) : (s.grant me sec).ownerOf k = if k = sec then me else s.ownerOf k := by
  unfold State.grant
  by_cases h : s.ownerOf sec = me
  · rw [if_pos (beq_iff_eq.mpr h)]
    split
    · rename_i hk; rw [hk, h]
    · rfl
  · rw [if_neg (by simpa using h)]
    rw [State.ownerOf, sget_sset]
    by_cases hk : k = sec
    · simp [hk]
    · have := s.ownerOf_revoke sec k
      simp only [hk, false_and, if_false] at this ⊢
      exact this

theorem State.ownerOf_grants (me : Nat) (secs : List Nat) (s : State) (k : Nat) :
    (secs.foldl (fun s sec => s.grant me sec) s).ownerOf k = if k ∈ secs then me else s.ownerOf k := by
  induction secs generalizing s with
  | nil => simp
  | cons sec secs ih =>
    rw [List.foldl_cons, ih, State.ownerOf_grant]
    by_cases h : k ∈ secs <;> by_cases h' : k = sec <;> simp [h, h']

/-- The sectors of a store. -/
def sectorsOfBytes (ps : List (Nat × Byte)) : List Nat := ((wordsOf ps).map (· / 16)).eraseDups

theorem mem_sectorsOfBytes {ps : List (Nat × Byte)} {k : Nat} : k ∈ sectorsOfBytes ps ↔ ∃ b ∈ ps, b.1 / 64 = k := by
  simp only [sectorsOfBytes, List.mem_eraseDups, List.mem_map, mem_wordsOf]
  constructor
  · rintro ⟨w, ⟨b, hb, rfl⟩, rfl⟩
    exact ⟨b, hb, by omega⟩
  · rintro ⟨b, hb, rfl⟩
    exact ⟨b.1 / 4, ⟨b, hb, rfl⟩, by omega⟩

/-- The home slice of a line grants the sectors of a store to a core. -/
def State.granted (s : State) (core line : Nat) (ps : List (Nat × Byte)) : State :=
  let t := (sectorsOfBytes ps).foldl (fun s sec => s.grant (s.l1Core core (256 * line)) sec) (s.dropMirrors line)
  { t.bumpWseq line with l2 := t.l2.filter fun e => e.line != line || e.slice == sliceOf core (256 * line) }

/-- The L1 that a line is held in does not change as its sectors are granted. -/
theorem State.grants_me (core line : Nat) (secs : List Nat) (s : State) :
    secs.foldl (fun s sec => s.grant (s.l1Core core (256 * line)) sec) s = secs.foldl (fun t sec => t.grant (s.l1Core core (256 * line)) sec) s := by
  have h : ∀ (secs : List Nat) (t : State), t.fused = s.fused → secs.foldl (fun s sec => s.grant (s.l1Core core (256 * line)) sec) t =
      secs.foldl (fun t sec => t.grant (s.l1Core core (256 * line)) sec) t := by
    intro secs
    induction secs with
    | nil => intro t _; rfl
    | cons sec secs ih =>
      intro t ht
      have hme : t.l1Core core (256 * line) = s.l1Core core (256 * line) := by unfold State.l1Core; rw [ht]
      rw [List.foldl_cons, List.foldl_cons, hme, ih _ ((t.grant_moves _ sec).fused.trans ht)]
  exact h secs s rfl

theorem State.registerWrite_engine (s : State) (core line : Nat) (ps : List (Nat × Byte)) (h : (sectorsOfBytes ps).any s.engineOwned = true) :
    s.registerWrite core line ps = ((s.homeWrite core ps).bumpWseq line).l1Drop
      (fun w => w.core == s.l1Core core (256 * line) && (wordsOf ps).contains w.addr) := if_pos h

theorem State.registerWrite_grants (s : State) (core line : Nat) (ps : List (Nat × Byte)) (h : (sectorsOfBytes ps).any s.engineOwned = false) :
    s.registerWrite core line ps = (s.granted core line ps).ownerWrite core ps := by
  unfold State.granted
  rw [State.grants_me]
  exact if_neg (ne_true_of_eq_false h)

end Sys2Proof.Machine
end

section
/-! Store pieces that are performed and registered (R144, R146, R187, R209). -/

namespace Sys2Proof.Machine

/-! ## A request that reaches a slice (R148, R309, R310) -/

/-- A state that differs from another in the tokens, the slices' lines and tables, and the identifiers given out. -/
def Reached (s t : State) : Prop :=
  t = { s with fab := t.fab, levels := t.levels, misses := t.misses, spillq := t.spillq, l2 := t.l2, nextId := t.nextId }

theorem Reached.refl (s : State) : Reached s s := rfl

theorem Reached.trans {s t u : State} (h : Reached s t) (g : Reached t u) : Reached s u := by
  unfold Reached at *
  rw [g, h]

theorem State.fabricSend_reached (s : State) (core asid pa : Nat) (write bulk : Bool) : Reached s (s.fabricSend core asid pa write bulk) := by
  unfold State.fabricSend
  split
  · exact .refl s
  · split
    · rfl
    · exact .refl s

theorem State.touchSlice_reached (s : State) (slice asid line : Nat) (h : BitVec 2) : Reached s (s.touchSlice slice asid line h) := by
  refine Reached.trans (t := s.setTokens slice asid (s.tokens slice asid - 1)) rfl ?_
  unfold State.touchSlice
  dsimp only
  split
  · exact .refl _
  split
  · rfl
  split
  · rfl
  split
  · exact .refl _
  split <;> rfl

theorem State.reach_reached (s : State) (slice core asid pa : Nat) (write bulk : Bool) (h : BitVec 2) :
    Reached s (s.reach slice core asid pa write bulk h) := (s.fabricSend_reached core asid pa write bulk).trans (State.touchSlice_reached _ _ _ _ _)

section
variable {s t : State}

theorem Reached.crews (h : Reached s t) : t.crews = s.crews := by unfold Reached at h; rw [h]
theorem Reached.mem (h : Reached s t) : t.mem = s.mem := by unfold Reached at h; rw [h]
theorem Reached.wseq (h : Reached s t) : t.wseq = s.wseq := by unfold Reached at h; rw [h]
theorem Reached.regs (h : Reached s t) : t.regs = s.regs := by unfold Reached at h; rw [h]
theorem Reached.acks (h : Reached s t) : t.acks = s.acks := by unfold Reached at h; rw [h]
theorem Reached.owner (h : Reached s t) : t.owner = s.owner := by unfold Reached at h; rw [h]
theorem Reached.fused (h : Reached s t) : t.fused = s.fused := by unfold Reached at h; rw [h]
theorem Reached.teams (h : Reached s t) : t.teams = s.teams := by unfold Reached at h; rw [h]
theorem Reached.copies (h : Reached s t) : t.copies = s.copies := by unfold Reached at h; rw [h]

theorem Reached.l1Core (h : Reached s t) (core a : Nat) : t.l1Core core a = s.l1Core core a := by
  unfold State.l1Core
  rw [h.fused]

theorem Reached.ownerOf (h : Reached s t) (k : Nat) : t.ownerOf k = s.ownerOf k := by
  unfold State.ownerOf
  rw [h.owner]

end

/-! ## What a registration leaves -/

theorem sget_bumpWseq (s : State) (line : Nat) : sget 0 (s.bumpWseq line).wseq line = sget 0 s.wseq line + 1 := sget_sset_self _ _ _ _

theorem State.granted_written (s : State) (core line : Nat) (ps : List (Nat × Byte)) : Written (s.bumpWseq line) (s.granted core line ps) := by
  have h : Written s ((sectorsOfBytes ps).foldl (fun s sec => s.grant (s.l1Core core (256 * line)) sec) (s.dropMirrors line)) :=
    (s.dropMirrors_written line).trans (Written.foldl _ (fun t sec => (t.grant_moves _ sec).written) _ _)
  exact (h.bumpWseq line).trans rfl

theorem State.granted_crews (s : State) (core line : Nat) (ps : List (Nat × Byte)) : (s.granted core line ps).crews = s.crews :=
  State.foldl_keeps State.crews _ (fun t _ => (t.grant_moves _ _).crews) _ _

section
variable {s : State} {core line : Nat} {ps : List (Nat × Byte)}

theorem registerWrite_written (s : State) (core line : Nat) (ps : List (Nat × Byte)) : Written (s.bumpWseq line) (s.registerWrite core line ps) := by
  cases h : (sectorsOfBytes ps).any s.engineOwned with
  | true =>
    rw [s.registerWrite_engine core line ps h]
    exact ((s.homeWrite_written core ps).bumpWseq line).trans rfl
  | false =>
    rw [s.registerWrite_grants core line ps h]
    exact (s.granted_written core line ps).trans (State.ownerWrite_written _ core ps)

theorem registerWrite_crews (s : State) (core line : Nat) (ps : List (Nat × Byte)) :
    (s.registerWrite core line ps).crews = (s.clearResv (wordsOf ps)).crews := by
  cases h : (sectorsOfBytes ps).any s.engineOwned with
  | true =>
    rw [s.registerWrite_engine core line ps h]
    exact s.homeWrite_crews core ps
  | false =>
    rw [s.registerWrite_grants core line ps h, State.ownerWrite_crews]
    unfold State.clearResv
    rw [s.granted_crews]

theorem registerWrite_performed (s : State) (core line : Nat) (ps : List (Nat × Byte)) : StorePerformed s (s.registerWrite core line ps) ps :=
  storePerformed_of_clear (s.registerWrite_mem core line ps) (registerWrite_crews s core line ps)

theorem engineOwned_iff (s : State) (sec : Nat) : s.engineOwned sec = true ↔ 288 ≤ s.ownerOf sec ∧ s.ownerOf sec ≠ noOwner := by
  simp [State.engineOwned]

/-- Where no engine and no adder owns a sector of a store, the core owns them all once it is registered. -/
theorem registerWrite_owned (hline : ∀ b ∈ ps, lineOf b.1 = line) (hfree : ∀ b ∈ ps, s.engineOwned (b.1 / 64) = false) :
    OwnedDirty (s.registerWrite core line ps) (s.l1Core core (256 * line)) ps := by
  have hany : (sectorsOfBytes ps).any s.engineOwned = false := by
    rw [List.any_eq_false]
    intro k hk
    obtain ⟨b, hb, rfl⟩ := mem_sectorsOfBytes.mp hk
    simp [hfree b hb]
  have hfused : (s.granted core line ps).l1Core core (256 * line) = s.l1Core core (256 * line) := by
    unfold State.l1Core
    rw [(s.granted_written core line ps).fused]
    rfl
  rw [s.registerWrite_grants core line ps hany, ← hfused]
  refine ownerWrite_owned hline fun b hb => ?_
  rw [hfused]
  have hgrants := State.ownerOf_grants (s.l1Core core (256 * line)) (sectorsOfBytes ps) (s.dropMirrors line) (b.1 / 64)
  rw [if_pos (mem_sectorsOfBytes.mpr ⟨b, hb, rfl⟩)] at hgrants
  refine Eq.trans ?_ hgrants
  unfold State.granted
  rw [State.grants_me]
  rfl

/-- A write at the home slices revokes the owners of its sectors, and that is all that it does to the owners (R144). -/
theorem State.homeWrite_owner (s : State) (core : Nat) (ps : List (Nat × Byte)) :
    (s.homeWrite core ps).owner = ((sectorsOfBytes ps).foldl State.revoke s).owner := by
  have hperform (t : State) : (t.performWrite ps).owner = t.owner := rfl
  unfold State.homeWrite
  rw [State.markWritten_owner, hperform]
  exact State.foldl_keeps State.owner State.dropMirrors (fun _ _ => rfl) _ _

/-- A sector that an engine or an adder owns stays with it as a store is registered. -/
theorem registerWrite_engineOwned {b : Nat × Byte} (hb : b ∈ ps) (h : s.engineOwned (b.1 / 64) = true) :
    (s.registerWrite core line ps).ownerOf (b.1 / 64) = s.ownerOf (b.1 / 64) := by
  have hany : (sectorsOfBytes ps).any s.engineOwned = true := List.any_eq_true.mpr ⟨_, mem_sectorsOfBytes.mpr ⟨b, hb, rfl⟩, h⟩
  have howned := ((engineOwned_iff s _).mp h).1
  have hrevokes := State.ownerOf_foldl_revoke (sectorsOfBytes ps) s (b.1 / 64)
  rw [if_neg (by omega)] at hrevokes
  rw [s.registerWrite_engine core line ps hany]
  rw [← hrevokes, State.ownerOf, State.ownerOf, ← s.homeWrite_owner core]
  rfl

end

/-! ## STORE_REGISTRATION and the L1's own performance -/

section
variable {s : State} {id : Nat} {q : RegReq}

/-- The queue of store pieces in which a piece stands last that its L1 has yet to perform. -/
def State.pieceLast (s : State) (q : RegReq) : State := if q.inL1 = true then s else { s with regs := s.regs.erase q ++ [q] }

/-- A piece that may be registered. -/
theorem register_ready (hq : s.regs.find? (·.id == id) = some q)
    (hready : if q.inL1 = true then s.pieceHeld q = false else s.pieceReady q = true) (hbehind : (s.pieceLast q).pieceBehind q = false) :
    s.register id = if s.ownsAll q.core q.bytes = true then some (State.ownerWrite { s with regs := s.regs.erase q } q.core q.bytes)
      else guarded (s.mayReach (sliceOf q.core (256 * q.line)) q.core q.asid (256 * q.line) true false &&
          s.mayRevoke (sliceOf q.core (256 * q.line)) (s.l1Core q.core (256 * q.line)) (wordsOf q.bytes))
        ((State.reach { s with regs := s.regs.erase q, acks := s.acks ++ [(q.core, q.asid)] } (sliceOf q.core (256 * q.line)) q.core q.asid
          (256 * q.line) true false q.hint).registerWrite q.core q.line q.bytes) := by
  unfold State.pieceLast at hbehind
  have hno : ((if q.inL1 = true then s.pieceHeld q else !s.pieceReady q) ||
      State.pieceBehind (if q.inL1 = true then s else { s with regs := s.regs.erase q ++ [q] }) q) = false := by
    rw [hbehind, Bool.or_false]
    split at hready
    · rename_i hl1; rw [if_pos hl1]; exact hready
    · rename_i hl1; rw [if_neg hl1, hready]; rfl
  unfold State.register
  simp only [hq]
  rw [if_neg (ne_true_of_eq_false hno)]

/-- A piece whose sectors its core owns is performed in the L1 with no event at the home slice (R146). -/
theorem register_owner (hline : ∀ b ∈ q.bytes, lineOf b.1 = q.line)
    (hs : s.register id = some (State.ownerWrite { s with regs := s.regs.erase q } q.core q.bytes)) (howns : s.ownsAll q.core q.bytes = true) :
    ∃ (t : State), Happens s (.storeRegistration id) t ∧ StorePerformed s t q.bytes ∧ OwnedDirty t (s.l1Core q.core (256 * q.line)) q.bytes ∧
      t.regs = s.regs.erase q ∧ t.acks = s.acks ∧ t.wseq = s.wseq := by
  have hwritten := State.ownerWrite_written { s with regs := s.regs.erase q } q.core q.bytes
  have hperformed : StorePerformed s _ q.bytes := ownerWrite_performed { s with regs := s.regs.erase q } q.core q.bytes
  have howned := ownerWrite_owned (s := { s with regs := s.regs.erase q }) (core := q.core) hline (ownerOf_of_ownsAll hline howns)
  exact ⟨_, happens_of_some rfl hs, hperformed.retry, howned, hwritten.regs, hwritten.acks, hwritten.wseq⟩

/-- A piece that the home slice registers: its token is spent, its words are written, and its core will hear of it (R144, R205). -/
theorem register_home (hline : ∀ b ∈ q.bytes, lineOf b.1 = q.line)
    (hs : s.register id = some ((State.reach { s with regs := s.regs.erase q, acks := s.acks ++ [(q.core, q.asid)] } (sliceOf q.core (256 * q.line))
      q.core q.asid (256 * q.line) true false q.hint).registerWrite q.core q.line q.bytes)) :
    ∃ (t : State), Happens s (.storeRegistration id) t ∧ StorePerformed s t q.bytes ∧ t.regs = s.regs.erase q ∧ t.acks = s.acks ++ [(q.core, q.asid)] ∧
      sget 0 t.wseq q.line = sget 0 s.wseq q.line + 1 ∧
      ((∀ b ∈ q.bytes, s.engineOwned (b.1 / 64) = false) → OwnedDirty t (s.l1Core q.core (256 * q.line)) q.bytes) ∧
      ∀ b ∈ q.bytes, s.engineOwned (b.1 / 64) = true → t.ownerOf (b.1 / 64) = s.ownerOf (b.1 / 64) := by
  have hreach := State.reach_reached { s with regs := s.regs.erase q, acks := s.acks ++ [(q.core, q.asid)] } (sliceOf q.core (256 * q.line))
    q.core q.asid (256 * q.line) true false q.hint
  generalize State.reach _ _ _ _ _ _ _ _ = u at hs hreach
  have hwritten := registerWrite_written u q.core q.line q.bytes
  have hmem : (u.registerWrite q.core q.line q.bytes).mem = (s.writePairs q.bytes).mem := by
    rw [State.registerWrite_mem]
    unfold State.writePairs
    rw [hreach.mem]
  have hcrews : (u.registerWrite q.core q.line q.bytes).crews = (s.clearResv (wordsOf q.bytes)).crews := by
    rw [registerWrite_crews]
    unfold State.clearResv
    rw [hreach.crews]
  have howner (k : Nat) : u.ownerOf k = s.ownerOf k := hreach.ownerOf k
  have hengine (k : Nat) : u.engineOwned k = s.engineOwned k := by simp only [State.engineOwned, howner]
  refine ⟨_, happens_of_some rfl hs, (storePerformed_of_clear hmem hcrews).retry, hwritten.regs.trans hreach.regs, hwritten.acks.trans hreach.acks,
    ?_, fun hfree => ?_, fun b hb hown => ?_⟩
  · calc sget 0 (u.registerWrite q.core q.line q.bytes).wseq q.line = sget 0 (u.bumpWseq q.line).wseq q.line := by rw [hwritten.wseq]
      _ = sget 0 s.wseq q.line + 1 := by rw [sget_bumpWseq, hreach.wseq]
  · have hl1 := hreach.l1Core q.core (256 * q.line)
    have howned := registerWrite_owned (s := u) (core := q.core) hline fun b hb => (hengine _).trans (hfree b hb)
    rw [hl1] at howned
    exact howned
  · exact (registerWrite_engineOwned hb ((hengine _).trans hown)).trans (howner _)

/-- A piece that its L1 may perform. -/
theorem performPiece_ready (hq : s.regs.find? (·.id == id) = some q) (hl1 : q.inL1 = false) (hready : s.pieceReady q = true) :
    s.performPiece id = some (if s.ownsAll q.core q.bytes && !State.pieceBehind { s with regs := s.regs.erase q ++ [q] } q then
      State.ownerWrite { s with regs := s.regs.erase q } q.core q.bytes
    else { s with regs := s.regs.erase q ++ [{ q with inL1 := true }] }) := by
  unfold State.performPiece
  simp only [hq, hl1, hready]
  rfl

/-- The L1 that owns the sectors performs a piece for good (R146). -/
theorem performPiece_owner (hline : ∀ b ∈ q.bytes, lineOf b.1 = q.line) (howns : s.ownsAll q.core q.bytes = true)
    (hs : s.performPiece id = some (State.ownerWrite { s with regs := s.regs.erase q } q.core q.bytes)) :
    ∃ (t : State), s.performPiece id = some t ∧ StorePerformed s t q.bytes ∧ OwnedDirty t (s.l1Core q.core (256 * q.line)) q.bytes ∧
      t.regs = s.regs.erase q ∧ t.acks = s.acks ∧ t.wseq = s.wseq := by
  have hwritten := State.ownerWrite_written { s with regs := s.regs.erase q } q.core q.bytes
  have howned := ownerWrite_owned (s := { s with regs := s.regs.erase q }) (core := q.core) hline (ownerOf_of_ownsAll hline howns)
  exact ⟨_, hs, ownerWrite_performed { s with regs := s.regs.erase q } q.core q.bytes, howned, hwritten.regs, hwritten.acks, hwritten.wseq⟩

end

end Sys2Proof.Machine
end

section
/-! Writes that their banks perform (R187, R212), and the store path as a whole. -/

namespace Sys2Proof.Machine

/-! ## Bytes of a scratchpad -/

section
variable {s : State} {lid tid : Nat} {ps : List (Nat × Byte)}

/-- The scratchpad of a team of which a list of bytes has been written. -/
theorem State.team?_scratchPairs (s : State) (lid tid lid' tid' : Nat) (ps : List (Nat × Byte)) :
    ∃ f : Team → Team, (∀ t, (f t).scratch = if t.lid = lid ∧ t.tid = tid then ps.foldl (fun m b => sset 0 m b.1 b.2) t.scratch else t.scratch) ∧
      (s.scratchPairs lid tid ps).team? lid' tid' = (s.team? lid' tid').map f := by
  refine ⟨_, fun t => ?_, State.team?_modTeam s lid tid lid' tid' _ fun _ => ⟨rfl, rfl⟩⟩
  simp only [Bool.and_eq_true, beq_iff_eq]
  split <;> rfl

theorem scratchRead_one {x : Team} (h : s.team? lid tid = some x) (a : Nat) : s.scratchRead lid tid a 1 = [sget 0 x.scratch a] := by
  rw [State.scratchRead, h]
  rfl

/-- A byte that is named once in a list of scratchpad writes holds its value. -/
theorem State.scratchRead_scratchPairs_of_mem (hx : (s.team? lid tid).isSome = true) (hnd : (ps.map (·.1)).Nodup) {b : Nat × Byte} (hb : b ∈ ps) :
    (s.scratchPairs lid tid ps).scratchRead lid tid b.1 1 = [b.2] := by
  obtain ⟨x, hx⟩ := Option.isSome_iff_exists.mp hx
  obtain ⟨f, hf, hteam⟩ := State.team?_scratchPairs s lid tid lid tid ps
  rw [hx] at hteam
  have hval := State.readByte_writePairs_of_mem { s with mem := x.scratch } ps b.1 b.2 hb hnd
  rw [scratchRead_one hteam, hf, if_pos (State.team?_key hx)]
  exact congrArg (fun v => [v]) hval

/-- Another byte of the scratchpads stands. -/
theorem State.scratchRead_scratchPairs_of_notMem {lid' tid' a : Nat} (h : ¬ (lid' = lid ∧ tid' = tid ∧ ∃ b ∈ ps, b.1 = a)) :
    (s.scratchPairs lid tid ps).scratchRead lid' tid' a 1 = s.scratchRead lid' tid' a 1 := by
  obtain ⟨f, hf, hteam⟩ := State.team?_scratchPairs s lid tid lid' tid' ps
  cases hx : s.team? lid' tid' with
  | none =>
    rw [hx] at hteam
    rw [State.scratchRead, State.scratchRead, hteam, hx]
    rfl
  | some x =>
    obtain ⟨rfl, rfl⟩ := State.team?_key hx
    rw [hx] at hteam
    rw [scratchRead_one hteam, scratchRead_one hx, hf]
    split
    · rename_i hsame
      have hval := State.readByte_writePairs_of_notMem { s with mem := x.scratch } ps a fun p hp hpa => h ⟨hsame.1, hsame.2, p, hp, hpa⟩
      exact congrArg (fun v => [v]) hval
    · rfl

end

/-! ## BAR.INIT (R178) -/

section
variable {s : State} {o : BarObj}

/-- An object that takes another's place in its table entry is found there. -/
theorem State.bar?_putBar {core idx : Nat} {b : BarObj} (ho : s.bar? core idx = some o) (hb : b.core = o.core ∧ b.idx = o.idx) :
    (s.putBar b).bar? core idx = some b := by
  have hkey : o.core = core ∧ o.idx = idx := by simpa using List.find?_some ho
  have hfound : ∀ bs : List BarObj, (bs.find? fun x => x.core == core && x.idx == idx) = some o →
      ((bs.map fun x => if x.core == b.core && x.idx == b.idx then b else x).find? fun x => x.core == core && x.idx == idx) = some b := by
    intro bs
    induction bs with
    | nil => intro h; cases h
    | cons y ys ih =>
      intro h
      rw [List.map_cons, List.find?_cons]
      rw [List.find?_cons] at h
      rw [hb.1, hb.2, hkey.1, hkey.2] at ih ⊢
      cases hy : y.core == core && y.idx == idx with
      | true => simp [hb, hkey]
      | false =>
        rw [hy] at h
        simp only [Bool.false_eq_true, if_false, hy]
        exact ih h
  exact hfound s.bars ho

/-- A state that differs from another in the scratchpads alone. -/
def TeamsMove (s t : State) : Prop := t = { s with teams := t.teams }

theorem TeamsMove.trans {s t u : State} (h : TeamsMove s t) (g : TeamsMove t u) : TeamsMove s u := by
  unfold TeamsMove at *
  rw [g, h]

theorem State.setBarField_moves (s : State) (b : BarObj) (off n v : Nat) : TeamsMove s (s.setBarField b off n v) := rfl

/-- A BAR.INIT changes the object and the word that backs it, and nothing else. -/
theorem initBar_moves (s : State) (o : BarObj) (sq : Bool) (a b : Nat) :
    TeamsMove (s.putBar { o with squad := sq, baseA := a, baseB := b, far := false }) (s.initBar o sq a b) :=
  ((((State.setBarField_moves _ _ _ _ _).trans (State.setBarField_moves _ _ _ _ _)).trans (State.setBarField_moves _ _ _ _ _)).trans
    (State.setBarField_moves _ _ _ _ _)).trans (State.setBarField_moves _ _ _ _ _)

/-- What a BAR.INIT makes of the object: the counts of the running phase are set, its phase is kept (R178). -/
theorem initBar_fields (hx : (s.team? o.lid o.team).isSome = true) (sq : Bool) (a b : Nat) :
    (s.initBar o sq a b).phaseOf o = s.phaseOf o ∧ (s.initBar o sq a b).barField o 0 2 = a % 2 ^ 16 ∧ (s.initBar o sq a b).barField o 2 2 = 0 ∧
      (s.initBar o sq a b).barField o 4 4 = b % 2 ^ 32 ∧ (s.initBar o sq a b).barField o 8 4 = 0 := by
  have hx' : ((s.putBar { o with squad := sq, baseA := a, baseB := b, far := false }).team? o.lid o.team).isSome = true := hx
  have hphase : (s.putBar { o with squad := sq, baseA := a, baseB := b, far := false }).phaseOf o = s.phaseOf o := rfl
  unfold State.initBar
  dsimp only
  generalize s.putBar { o with squad := sq, baseA := a, baseB := b, far := false } = u at *
  refine ⟨?_, ?_, ?_, ?_, ?_⟩
  · rw [← hphase]
    simp only [State.phaseOf_eq, State.isSome_team?_setBarField, hx', State.barField_setBarField_same, Nat.le_refl,
      State.barField_setBarField_ne, Nat.reduceAdd, Nat.reduceLeDiff, or_true]
    by_cases hp : u.barField o 12 4 % 2 = 1 <;> cases sq <;> simp [hp]
  all_goals
    simp only [State.isSome_team?_setBarField, hx', State.barField_setBarField_same, Nat.le_refl,
      State.barField_setBarField_ne, Nat.reduceAdd, Nat.reduceLeDiff, or_true, true_or, Nat.zero_mod, Nat.reducePow]

end

/-! ## STORE_TRANSLATE, FAULT_QUEUE_ADMIT and HELD_WRITE_PERFORM -/

section
variable {s : State}

/-- A lane that does not translate leaves the record that Table 21.2 tells. -/
theorem storeTranslate_faults {cid sid : Nat} {c : Crew} {q : PStore} {rest : List PStore} {a : LaneStore} {r : Reason}
    (hc : s.crew? cid = some c)
    (hs : s.storeTranslate cid sid = some ((s.popped cid sid rest).addFault c sid q (if q.uniform = true then 0 else laneMask [a.lane]) a r)) :
    ∃ (t : State) (f : FaultRec), Happens s (.storeTranslate cid sid) t ∧
      Popped t cid sid c rest (fun r' => if r'.follows q.sid q.seq = false ∨ r'.due.any (fun d => d.1 == q.seq && d.2.cause == .stfault) = true then r'.due
        else r'.due ++ [(q.seq, ⟨.stfault, 0, a.addr, BitVec.ofNat 64 (r.code + 256)⟩)]) ∧
      t.mem = s.mem ∧ t.regs = s.regs ∧ t.faultq = s.faultq ++ [f] ∧ f.core = c.core ∧ f.cid = c.cid ∧ f.sid = sid ∧
      f.va = a.addr ∧ f.reason = r.code ∧ f.lane = a.lane ∧ f.size = q.size ∧ f.word = q.word ∧
      f.data0 = BitVec.ofNat 64 (leNat (a.data.take 8)) ∧ f.data1 = BitVec.ofNat 64 (leNat (a.data.drop 8)) ∧
      (∀ n, n < 32 → (f.mask.getLsbD n = true ↔ q.uniform = false ∧ n = a.lane)) ∧
      (f.held = true ↔ 64 ≤ (s.faultq.filter fun g => g.core == c.core && !g.held).length) := by
  refine ⟨_, _, happens_of_some rfl hs, addFault_popped hc _ a r, rfl, rfl, rfl, rfl, rfl, rfl, rfl, rfl, rfl, rfl, rfl, rfl, rfl, fun n hn => ?_, ?_⟩
  · cases q.uniform with
    | true => simp
    | false => simpa using getLsbD_laneMask [a.lane] hn
  · exact decide_eq_true_iff

/-- A squad-window store whose check fails owes its trap and sends nothing. -/
theorem storeTranslate_owes {cid sid : Nat} {c : Crew} {q : PStore} {rest : List PStore} {k : Trap} (hc : s.crew? cid = some c)
    (hs : s.storeTranslate cid sid = some ((s.popped cid sid rest).modSplit cid sid fun p => { p with due := p.due ++ [(q.seq, k)] })) :
    ∃ (t : State), Happens s (.storeTranslate cid sid) t ∧
      Popped t cid sid c rest (fun r => if r.sid = sid then r.due ++ [(q.seq, k)] else r.due) ∧ t.teams = s.teams ∧ t.held = s.held := by
  refine ⟨_, happens_of_some rfl hs, ?_, rfl, rfl⟩
  have hcrews := State.modCrew_modCrew s cid (fun c => { c with splits := c.splits.map (Split.popped sid rest) })
    (fun c => c.modSplit sid fun p => { p with due := p.due ++ [(q.seq, k)] }) (fun _ => rfl)
  have hpop := popped_of_crews (t := (s.popped cid sid rest).modSplit cid sid fun p => { p with due := p.due ++ [(q.seq, k)] }) (sid := sid) (rest := rest)
    (g := fun p => if p.sid == sid then { p with due := p.due ++ [(q.seq, k)] } else p) hc ?_
    (fun p => by split <;> rfl) (fun p => by split <;> rfl) (fun p => by split <;> rfl)
  · convert hpop using 2 with p
    simp only [Split.popped_sid, beq_iff_eq]
    split <;> simp only [Split.popped_due]
  · simp only [Crew.modSplit, List.map_map] at hcrews
    exact (congrArg State.crews hcrews :)

/-- A held fault enters its core's queue (R335). -/
theorem admitFault_happens {core : Nat} {f : FaultRec} (hf : s.faultq.find? (fun f => f.core == core && f.held) = some f)
    (hroom : (s.faultq.filter fun g => g.core == core && !g.held).length < 64) :
    ∃ (t : State), Happens s (.faultQueueAdmit core) t ∧ CrewsStand s t ∧
      t.faultq = s.faultq.map (fun g => if g = f then { g with held := false } else g) := by
  have hs : s.admitFault core = some { s with faultq := s.faultq.map fun g => if g == f then { g with held := false } else g } := by
    simp only [State.admitFault, hf, guarded, hroom, decide_true, if_true]
  refine ⟨_, happens_of_some rfl hs, crewsStand_retry rfl, ?_⟩
  simp only [State.retry, beq_iff_eq]

/-- A write of bytes that its bank performs. -/
theorem heldPerform_bytes {id : Nat} {h : HeldWrite} (hs : s.heldPerform id = some (State.heldEffect { s with held := s.held.erase h } h))
    (hbar : ∀ core idx gen sq a b, h.bar ≠ some (.init core idx gen sq a b)) (hteam : (s.team? h.lid h.team).isSome = true)
    (hnd : (h.bytes.map (·.1)).Nodup) :
    ∃ (t : State), Happens s (.heldWritePerform id) t ∧ t.held = s.held.erase h ∧ t.mem = s.mem ∧ CrewsStand s t ∧
      (∀ b ∈ h.bytes, t.scratchRead h.lid h.team b.1 1 = [b.2]) ∧
      ∀ lid tid a, ¬ (lid = h.lid ∧ tid = h.team ∧ ∃ b ∈ h.bytes, b.1 = a) → t.scratchRead lid tid a 1 = s.scratchRead lid tid a 1 := by
  have heffect : State.heldEffect { s with held := s.held.erase h } h = State.scratchPairs { s with held := s.held.erase h } h.lid h.team h.bytes := by
    unfold State.heldEffect
    split
    · rename_i hinit; exact absurd hinit (hbar _ _ _ _ _ _)
    · rfl
  rw [heffect] at hs
  exact ⟨_, happens_of_some rfl hs, rfl, rfl, crewsStand_retry rfl,
    fun b hb => State.scratchRead_scratchPairs_of_mem (s := { s with held := s.held.erase h }) hteam hnd hb,
    fun lid tid a ha => State.scratchRead_scratchPairs_of_notMem (s := { s with held := s.held.erase h }) ha⟩

/-- A BAR.INIT that its bank performs. -/
theorem heldPerform_init {id core idx gen a b : Nat} {sq : Bool} {h : HeldWrite} {o : BarObj}
    (hs : s.heldPerform id = some (State.heldEffect { s with held := s.held.erase h } h)) (hbar : h.bar = some (.init core idx gen sq a b))
    (ho : s.bar? core idx = some o) (hgen : o.gen = gen) (hteam : (s.team? o.lid o.team).isSome = true) :
    ∃ (t : State), Happens s (.heldWritePerform id) t ∧ t.held = s.held.erase h ∧ t.mem = s.mem ∧ CrewsStand s t ∧
      t.bar? core idx = some { o with squad := sq, baseA := a, baseB := b, far := false } ∧ t.phaseOf o = s.phaseOf o ∧
      t.barField o 0 2 = a % 2 ^ 16 ∧ t.barField o 2 2 = 0 ∧ t.barField o 4 4 = b % 2 ^ 32 ∧ t.barField o 8 4 = 0 := by
  have ho' : State.bar? { s with held := s.held.erase h } core idx = some o := ho
  have heffect : State.heldEffect { s with held := s.held.erase h } h = State.initBar { s with held := s.held.erase h } o sq a b := by
    simp only [State.heldEffect, hbar, ho', hgen, beq_self_eq_true, if_true]
  rw [heffect] at hs
  have hfields := initBar_fields (s := { s with held := s.held.erase h }) hteam sq a b
  have hmoves : TeamsMove _ (State.initBar { s with held := s.held.erase h } o sq a b) := initBar_moves _ o sq a b
  have hbars : (State.initBar { s with held := s.held.erase h } o sq a b).bar? core idx =
      some { o with squad := sq, baseA := a, baseB := b, far := false } := by
    rw [hmoves]
    exact State.bar?_putBar ho' ⟨rfl, rfl⟩
  have hheld : (State.initBar { s with held := s.held.erase h } o sq a b).held = s.held.erase h := by rw [hmoves]; rfl
  have hmem : (State.initBar { s with held := s.held.erase h } o sq a b).mem = s.mem := by rw [hmoves]; rfl
  have hcrews : (State.initBar { s with held := s.held.erase h } o sq a b).crews = s.crews := by rw [hmoves]; rfl
  generalize State.initBar _ o sq a b = t at *
  exact ⟨_, happens_of_some rfl hs, hheld, hmem, crewsStand_retry hcrews, hbars, hfields⟩

end

/-- Settles O44: a store leaves its split once those that precede it have left, its pieces wait for what R187 and R200 name, and a registration
grants the sectors unless an engine or an adder owns one. -/
theorem storePath : Obligations.StorePath := by
  intro s
  refine ⟨?_, fun core f hf hroom => admitFault_happens hf hroom, ?_, ?_, ?_⟩
  · intro cid sid c p q rest hc hp hq hbefore
    have hstore := storeTranslate_ready hc hp hq hbefore
    refine ⟨fun pa hspace htr => ⟨fun hred => ?_, fun o hred => ?_⟩, fun a r hspace hlane htr => ?_, fun hspace hcheck => ?_, fun k hspace hcheck => ?_⟩
    · have htr' : ∀ a ∈ q.lanes, (s.popped cid sid rest).translate c.core c.asid a.addr .write = .ok (pa a) :=
        fun a ha => (translate_popped s cid sid rest _ _ _ _).trans (htr a ha)
      simp only [hspace, storeGlobal_ok_none htr' hred] at hstore
      exact storeTranslate_pieces hc hstore
    · have htr' : ∀ a ∈ q.lanes, (s.popped cid sid rest).translate c.core c.asid a.addr .write = .ok (pa a) :=
        fun a ha => (translate_popped s cid sid rest _ _ _ _).trans (htr a ha)
      simp only [hspace, storeGlobal_ok_some htr' hred] at hstore
      exact storeTranslate_adds hc hstore
    · simp only [hspace, storeGlobal_error hlane ((translate_popped s cid sid rest _ _ _ _).trans htr), Crew.split?_sid hp] at hstore
      exact storeTranslate_faults hc hstore
    · cases hsp : q.space with
      | global => exact absurd hsp hspace
      | scratch =>
        simp only [hsp] at hstore
        simp only [reduceCtorEq, if_false]
        exact storeTranslate_sends (fun _ _ _ => rfl) hc hstore
      | squad =>
        simp only [hsp, hcheck hsp] at hstore
        simp only [if_true]
        exact storeTranslate_sends (fun _ _ h => h) hc hstore
    · simp only [hspace, hcheck] at hstore
      exact storeTranslate_owes hc hstore
  · intro id q hq hline me written owned rest last
    refine ⟨fun hready hbehind => ⟨fun howns => ?_, fun howns hreach hrevoke => ?_⟩, fun hl1 hready => ⟨fun howns hbehind => ?_, fun howns => ?_⟩⟩
    · have hs := register_ready hq hready hbehind
      rw [if_pos howns] at hs
      exact register_owner hline hs howns
    · have hs := register_ready hq hready hbehind
      rw [if_neg (ne_true_of_eq_false howns), hreach, hrevoke] at hs
      exact register_home hline hs
    · have hs := performPiece_ready hq hl1 hready
      rw [howns, hbehind] at hs
      exact performPiece_owner hline howns hs
    · have hs := performPiece_ready hq hl1 hready
      rw [howns] at hs
      exact hs
  · intro core asid hmem
    have hs : guarded (s.acks.contains (core, asid)) { s with acks := s.acks.erase (core, asid) } =
        some { s with acks := s.acks.erase (core, asid) } := if_pos (List.contains_iff_mem.mpr hmem)
    exact ⟨_, happens_of_some rfl hs, crewsStand_retry rfl, rfl⟩
  · intro id h hh hready
    have hs : s.heldPerform id = some (State.heldEffect { s with held := s.held.erase h } h) := by
      simp only [State.heldPerform, hh, guarded, hready, if_true]
    exact ⟨fun hbar hteam hnd => heldPerform_bytes hs hbar hteam hnd,
      fun core idx gen sq a b o hbar ho hgen hteam => heldPerform_init hs hbar ho hgen hteam⟩

end Sys2Proof.Machine
end

section
/-! Copy commands from their registration to their dispatch (R185, R187, R194, R210). -/

namespace Sys2Proof.Machine

/-! ## Registration (R187) -/

section
variable {s : State}

theorem State.ownerOf_setOwner (s : State) (secs : List Nat) (o k : Nat) :
    (s.setOwner secs o).ownerOf k = if k ∈ secs then o else s.ownerOf k := by
  have h : ∀ (secs : List Nat) (m : SMap Nat), sget noOwner (secs.foldl (fun t sec => sset noOwner t sec o) m) k = if k ∈ secs then o else sget noOwner m k := by
    intro secs
    induction secs with
    | nil => simp
    | cons sec secs ih =>
      intro m
      rw [List.foldl_cons, ih, sget_sset]
      by_cases h : k ∈ secs <;> by_cases h' : k = sec <;> simp [h, h']
  exact h secs s.owner

/-- The sectors of a list of words. -/
theorem mem_sectorsOfWords {words : List Nat} {k : Nat} : k ∈ (words.map (· / 16)).eraseDups ↔ ∃ w ∈ words, w / 16 = k := by
  rw [List.mem_eraseDups, List.mem_map]

/-- The words of a command as its registration leaves them: in no L1, and owned by no core (R152, R187). -/
theorem registerWords_words (s : State) (reds : Bool) (words : List Nat) {w : Nat} (hw : w ∈ words) :
    (∀ x ∈ (s.registerWords reds words).l1, x.addr ≠ w) ∧ (s.registerWords reds words).ownerOf (w / 16) =
      if reds = true then 0x3FE else if s.ownerOf (w / 16) < 288 then noOwner else s.ownerOf (w / 16) := by
  have hsec : w / 16 ∈ (words.map (· / 16)).eraseDups := mem_sectorsOfWords.mpr ⟨w, hw, rfl⟩
  have hrevoke := State.ownerOf_foldl_revoke (words.map (· / 16)).eraseDups s (w / 16)
  simp only [hsec, true_and] at hrevoke
  unfold State.registerWords
  dsimp only
  generalize List.foldl _ s _ = u at *
  have hdrop : ∀ x ∈ (u.l1Drop fun x => words.contains x.addr).l1, x.addr ≠ w := by
    rintro x hx rfl
    have hcontains := (List.mem_filter.mp hx).2
    simp [hw] at hcontains
  cases reds with
  | true =>
    refine ⟨hdrop, ?_⟩
    rw [if_pos rfl, if_pos rfl, State.ownerOf_setOwner, if_pos hsec]
  | false => exact ⟨hdrop, hrevoke⟩

theorem registerWords_moves (s : State) (reds : Bool) (words : List Nat) : CachesMove s (s.registerWords reds words) := by
  have h := CachesMove.foldl _ State.revoke_moves (words.map (· / 16)).eraseDups s
  unfold State.registerWords
  cases reds
  · exact h.trans rfl
  · exact h.trans rfl

/-- The home slices acknowledge a command's registration once the earlier ones of its core are registered (R187). -/
theorem registerCopy_happens {q : CopyCmd} (hq : s.copies.find? (·.seq == q.seq) = some q) (hreg : q.registered = false)
    (hturn : ∀ k ∈ s.copies, k.registered = true ∨ k.core ≠ q.core ∨ q.seq ≤ k.seq) :
    ∃ (t : State), s.registerCopy q.seq = some t ∧ t.mem = s.mem ∧ t.crews = s.crews ∧ (∀ k ∈ t.copies, k.seq = q.seq → k.registered = true) ∧
      ∀ x ∈ q.pieces, x.space = .global → (∀ w ∈ t.l1, w.addr ≠ x.addr / 4) ∧ t.ownerOf (x.addr / 64) =
        if q.red ≠ none then 0x3FE else if s.ownerOf (x.addr / 64) < 288 then noOwner else s.ownerOf (x.addr / 64) := by
  have hall : (s.copies.all fun k => k.registered || k.core != q.core || decide (q.seq ≤ k.seq)) = true := by
    rw [List.all_eq_true]
    intro k hk
    simpa [or_assoc] using hturn k hk
  have hs : s.registerCopy q.seq = some (State.registerWords
      { s with copies := s.copies.map fun k => if k.seq == q.seq then { k with registered := true } else k }
      q.red.isSome ((q.pieces.filter (·.space == .global)).map (·.addr / 4))) := by
    unfold State.registerCopy
    simp only [hq, hreg, hall]
    rfl
  have hmoves := registerWords_moves { s with copies := s.copies.map fun k => if k.seq == q.seq then { k with registered := true } else k }
    q.red.isSome ((q.pieces.filter (·.space == .global)).map (·.addr / 4))
  refine ⟨_, hs, hmoves.mem, hmoves.crews, fun k hk hseq => ?_, fun x hx hspace => ?_⟩
  · rw [hmoves] at hk
    obtain ⟨r, hr, rfl⟩ := List.mem_map.mp hk
    by_cases h : r.seq = q.seq
    · simp [h]
    · simp [h] at hseq
  · have hword : x.addr / 4 ∈ (q.pieces.filter (·.space == .global)).map (·.addr / 4) :=
      List.mem_map.mpr ⟨x, List.mem_filter.mpr ⟨hx, by simp [hspace]⟩, rfl⟩
    obtain ⟨hl1, howner⟩ := registerWords_words
      { s with copies := s.copies.map fun k => if k.seq == q.seq then { k with registered := true } else k } q.red.isSome _ hword
    have hsec : x.addr / 4 / 16 = x.addr / 64 := by omega
    rw [hsec] at howner
    refine ⟨hl1, howner.trans ?_⟩
    cases q.red <;> rfl

end

/-! ## The source of a word (R187) -/

/-- What a word of a command holds: what its source holds now where it was still to be read, else what was read at issue. -/
def State.pieceSource (s : State) (q : CopyCmd) (x : CopyPiece) : List Byte × Bool :=
  if x.late = true then s.sourceWord q.core q.lid x.sspace false (x.steam, x.saddr) else (x.data, x.poison)

theorem State.readSource_eq (s : State) (q : CopyCmd) (x : CopyPiece) :
    s.readSource q x = { x with late := false, data := (s.pieceSource q x).1, poison := (s.pieceSource q x).2 } := by
  unfold State.readSource State.pieceSource
  cases h : x.late with
  | true => rfl
  | false =>
    obtain ⟨sspace, steam, saddr, late, space, team, addr, data, poison⟩ := x
    obtain rfl : late = false := h
    rfl

/-- A source is what memory, the pieces that its core has performed and the scratchpads hold. -/
theorem State.pieceSource_congr {s t : State} (hmem : t.mem = s.mem) (hpoison : t.mpoison = s.mpoison) (hregs : t.regs = s.regs)
    (hteams : t.teams = s.teams) (q : CopyCmd) (x : CopyPiece) : t.pieceSource q x = s.pieceSource q x := by
  have hword : t.sourceWord q.core q.lid x.sspace false (x.steam, x.saddr) = s.sourceWord q.core q.lid x.sspace false (x.steam, x.saddr) := by
    unfold State.sourceWord State.loadBytes State.loadPoison State.overlaid State.readByte State.poisoned State.scratchRead State.scratchPoisoned State.team?
    rw [hmem, hpoison, hregs, hteams]
    rfl
  unfold State.pieceSource
  rw [hword]

/-! ## Dispatch (R185, R194) -/

section
variable {s : State} {q : CopyCmd} {e : Nat}

/-- The lowest copy engine that the partition holds and no command runs on. -/
theorem freeEngine_eq {asid die : Nat} (he : e < 24) (hmask : (sget 0 (s.part (s.partOf asid)).eng die).getLsbD e = true)
    (hidle : ∀ k ∈ s.copies, k.phase ≠ .running die e)
    (hbusy : ∀ d, d < e → (sget 0 (s.part (s.partOf asid)).eng die).getLsbD d = true → ∃ k ∈ s.copies, k.phase = .running die d) :
    s.freeEngine asid die = some e := by
  unfold State.freeEngine
  dsimp only
  rw [List.find?_range_eq_some]
  refine ⟨?_, List.mem_range.mpr he, fun d hd => ?_⟩
  · rw [Bool.and_eq_true]
    exact ⟨hmask, by simpa using hidle⟩
  · rw [Bool.not_eq_true', Bool.and_eq_false_iff]
    cases hbit : (sget 0 (s.part (s.partOf asid)).eng die).getLsbD d with
    | false => exact .inl rfl
    | true =>
      obtain ⟨k, hk, hrun⟩ := hbusy d hd hbit
      right
      rw [List.all_eq_false]
      exact ⟨k, hk, by simp [hrun]⟩

/-- The command as it starts on an engine. -/
def CopyCmd.started (q : CopyCmd) (e : Nat) : CopyCmd :=
  { q with phase := .running (q.core / 72) e, pieces := if q.red.isSome then [] else q.pieces }

/-- The commands once one has another form. -/
def State.putCopy (s : State) (q k : CopyCmd) : State := { s with copies := s.copies.map fun r => if r.seq == q.seq then k else r }

theorem mem_putCopy_of_ne {k r : CopyCmd} (hr : r ∈ s.copies) (hne : r.seq ≠ q.seq) : r ∈ (s.putCopy q k).copies :=
  List.mem_map.mpr ⟨r, hr, by simp [hne]⟩

theorem mem_putCopy_self {k : CopyCmd} (hq : q ∈ s.copies) : k ∈ (s.putCopy q k).copies :=
  List.mem_map.mpr ⟨q, hq, by simp⟩

/-- The addition of a word of a CP.RED. -/
def redAdd (q : CopyCmd) (o : AOp) (x : CopyPiece) : AddReq :=
  { id := 0, core := q.core, cid := q.seq, sid := 0, asid := q.asid, addr := x.addr, op := o, wide := false
    x := .ofNat 64 (leNat x.data), cmp := 0, poison := x.poison, ret := none, acq := none
    job := some q.seq, hint := q.hint, seq := q.seq, anc := [], rel := none, paid := false }

/-- A registered command starts on the lowest free engine (R185, R188). -/
theorem startCopy_free (hhot : s.svc.hot = false) (hreg : q.registered = true) (hready : q.red ≠ none → ∀ x ∈ q.pieces, s.sourceReady q x = true)
    (hfree : s.freeEngine q.asid (q.core / 72) = some e) :
    s.startCopy q = some (match q.red with
      | none => (s.putCopy q (q.started e)).setOwner ((sectorsOf q.pieces).filter fun sec => s.ownerOf sec == noOwner) (engineOwner (q.core / 72) e)
      | some o => pushAdds (s.putCopy q (q.started e)) ((q.pieces.map ((s.putCopy q (q.started e)).readSource q)).map (redAdd q o))) := by
  have hall : (q.red.isNone || q.pieces.all (s.sourceReady q)) = true := by
    cases hred : q.red with
    | none => rfl
    | some o => exact List.all_eq_true.mpr (hready (by simp [hred]))
  have hgo : (if (!s.svc.hot && q.registered && (q.red.isNone || q.pieces.all (s.sourceReady q))) = true then s.freeEngine q.asid (q.core / 72)
      else none) = some e := by rw [hhot, hreg, hall]; exact hfree
  have hmatch (r : Option AOp) (a : State) (b : AOp → State) :
      (match r with | none => some a | some o => some (b o)) = some (match r with | none => a | some o => b o) := by cases r <;> rfl
  unfold State.startCopy
  rw [hgo]
  exact hmatch q.red _ _

/-- What a dispatch does: the command runs on the engine, which owns the sectors that nobody owned, or its additions are on their way. -/
def Starts (s t : State) (q : CopyCmd) (e : Nat) : Prop :=
  CrewsStand s t ∧ t.mem = s.mem ∧ t.teams = s.teams ∧
  (∀ k ∈ s.copies, k.seq ≠ q.seq → k ∈ t.copies) ∧
  (∃ k ∈ t.copies, k.seq = q.seq ∧ k.phase = .running (q.core / 72) e ∧ (q.red = none → k.pieces = q.pieces)) ∧
  (q.red = none → t.adds = s.adds ∧ ∀ sec, t.ownerOf sec =
    if sec ∈ sectorsOf q.pieces ∧ s.ownerOf sec = noOwner then engineOwner (q.core / 72) e else s.ownerOf sec) ∧
  (∀ o, q.red = some o → ∃ new, t.adds = s.adds ++ new ∧ new.length = q.pieces.length ∧
    ∀ x ∈ q.pieces, ∃ r ∈ new, r.addr = x.addr ∧ r.op = o ∧ r.job = some q.seq ∧ r.x = BitVec.ofNat 64 (leNat (s.pieceSource q x).1) ∧
      r.poison = (s.pieceSource q x).2)

theorem startCopy_starts (hhot : s.svc.hot = false) (hq : q ∈ s.copies) (hreg : q.registered = true)
    (hready : q.red ≠ none → ∀ x ∈ q.pieces, s.sourceReady q x = true) (hfree : s.freeEngine q.asid (q.core / 72) = some e) :
    ∃ t, s.startCopy q = some t ∧ Starts s t.retry q e := by
  have hs := startCopy_free hhot hreg hready hfree
  have hothers (k : CopyCmd) (hk : k ∈ s.copies) (hne : k.seq ≠ q.seq) : k ∈ (s.putCopy q (q.started e)).copies := mem_putCopy_of_ne hk hne
  have hself : q.started e ∈ (s.putCopy q (q.started e)).copies := mem_putCopy_self hq
  refine ⟨_, hs, ?_⟩
  cases hred : q.red with
  | none =>
    refine ⟨crewsStand_retry rfl, rfl, rfl, hothers, ⟨_, hself, rfl, rfl, fun _ => ?_⟩, fun _ => ⟨rfl, fun sec => ?_⟩, fun o ho => by simp [hred] at ho⟩
    · simp [CopyCmd.started, hred]
    · refine (State.ownerOf_setOwner (s.putCopy q (q.started e)) _ _ sec).trans ?_
      simp only [List.mem_filter, beq_iff_eq]
      rfl
  | some o =>
    dsimp only
    rw [pushAdds_eq]
    refine ⟨crewsStand_retry rfl, rfl, rfl, hothers, ⟨_, hself, rfl, rfl, fun h => by simp [hred] at h⟩, fun h => by simp [hred] at h, fun o' ho => ?_⟩
    obtain rfl : o = o' := Option.some.inj (hred.symm.trans ho)
    refine ⟨_, rfl, by simp, fun x hx => ?_⟩
    obtain ⟨k, hk⟩ := numbered_of_mem (f := fun (a : AddReq) k => { a with id := k }) s.nextId
      (List.mem_map_of_mem (f := redAdd q o) (List.mem_map_of_mem (f := (s.putCopy q (q.started e)).readSource q) hx))
    have hsource : (s.putCopy q (q.started e)).pieceSource q x = s.pieceSource q x := State.pieceSource_congr rfl rfl rfl rfl q x
    refine ⟨_, hk, ?_⟩
    simp only [redAdd, State.readSource_eq, hsource, and_self]

/-- What is found first among more is found among fewer. -/
theorem find?_of_imp {α : Type} {f g : α → Bool} {xs : List α} {a : α} (himp : ∀ x, f x = true → g x = true) (ha : f a = true)
    (h : xs.find? g = some a) : xs.find? f = some a := by
  induction xs with
  | nil => cases h
  | cons x xs ih =>
    rw [List.find?_cons] at h ⊢
    cases hg : g x with
    | true =>
      rw [hg] at h
      obtain rfl : x = a := Option.some.inj h
      rw [ha]
    | false =>
      rw [hg] at h
      have hf : f x = false := Bool.eq_false_iff.mpr fun hf => by rw [himp x hf] at hg; cases hg
      rw [hf]
      exact ih h

/-- The oldest command of a core's queue is dispatched (R185). -/
theorem copyDispatch_starts {core : Nat} (hhot : s.svc.hot = false) (hq : s.copies.find? (fun k => k.core == core && k.phase == .queued) = some q)
    (hreg : q.registered = true) (hready : q.red ≠ none → ∀ x ∈ q.pieces, s.sourceReady q x = true)
    (hfree : s.freeEngine q.asid (q.core / 72) = some e) : ∃ (t : State), Happens s (.copyDispatch core) t ∧ Starts s t q e := by
  obtain ⟨t, hs, hstarts⟩ := startCopy_starts hhot (List.mem_of_find?_eq_some hq) hreg hready hfree
  have hdispatch : s.copyDispatch core = some t := by
    unfold State.copyDispatch
    rw [hq]
    exact hs
  exact ⟨_, happens_of_some rfl hdispatch, hstarts⟩

/-- A timed command whose time has come is dispatched (R194). -/
theorem timedDispatch_starts {core : Nat} {w : DWord} (hhot : s.svc.hot = false)
    (hq : s.copies.find? (fun k => k.core == core && k.seq == q.seq) = some q) (hphase : q.phase = .timed w) (htime : w.toNat ≤ s.ftime.toNat)
    (hreg : q.registered = true) (hready : q.red ≠ none → ∀ x ∈ q.pieces, s.sourceReady q x = true)
    (hfree : s.freeEngine q.asid (q.core / 72) = some e) : ∃ (t : State), Happens s (.cpAtDispatch core q.seq) t ∧ Starts s t q e := by
  obtain ⟨t, hs, hstarts⟩ := startCopy_starts hhot (List.mem_of_find?_eq_some hq) hreg hready hfree
  have hkey := List.find?_some hq
  have hdue : w.ule s.ftime = true := by simpa [BitVec.ule] using htime
  have hdispatch : s.timedDispatch core q.seq = some t := by
    unfold State.timedDispatch
    rw [find?_of_imp (a := q) (fun x hx => (Bool.and_eq_true_iff.mp hx).1) (by simp only [hkey, hphase, Bool.true_and]; exact hdue) hq]
    exact hs
  exact ⟨_, happens_of_some rfl hdispatch, hstarts⟩

end

end Sys2Proof.Machine
end

section
/-! The words that a copy engine writes (R187, R206, R210). -/

namespace Sys2Proof.Machine

/-! ## What the words of a command change -/

/-- A state that differs from another in memory, the caches' tables, the reservations of the crews, the holders of exported lines and the
scratchpads. -/
def WordsWritten (s t : State) : Prop :=
  t = { s with
    teams := t.teams, mem := t.mem, mpoison := t.mpoison, owner := t.owner, l1 := t.l1, l2 := t.l2, misses := t.misses, wfill := t.wfill
    mirrors := t.mirrors, crews := t.crews, fab := { s.fab with holders := t.fab.holders } }

section
variable {s t u : State}

theorem WordsWritten.refl (s : State) : WordsWritten s s := rfl

theorem WordsWritten.trans (h : WordsWritten s t) (g : WordsWritten t u) : WordsWritten s u := by
  unfold WordsWritten at *
  rw [g, h]

theorem Written.words (h : Written s t) : WordsWritten s t := by
  unfold Written at h
  unfold WordsWritten
  rw [h]

theorem TeamsMove.words (h : TeamsMove s t) : WordsWritten s t := by
  unfold TeamsMove at h
  unfold WordsWritten
  rw [h]

theorem WordsWritten.copies (h : WordsWritten s t) : t.copies = s.copies := by unfold WordsWritten at h; rw [h]
theorem WordsWritten.adds (h : WordsWritten s t) : t.adds = s.adds := by unfold WordsWritten at h; rw [h]
theorem WordsWritten.bars (h : WordsWritten s t) : t.bars = s.bars := by unfold WordsWritten at h; rw [h]
theorem WordsWritten.wseq (h : WordsWritten s t) : t.wseq = s.wseq := by unfold WordsWritten at h; rw [h]

theorem TeamsMove.mem (h : TeamsMove s t) : t.mem = s.mem := by unfold TeamsMove at h; rw [h]
theorem TeamsMove.crews (h : TeamsMove s t) : t.crews = s.crews := by unfold TeamsMove at h; rw [h]

theorem RegistersStand.trans (h : RegistersStand s t) (g : RegistersStand t u) : RegistersStand s u := by
  intro k c hk
  obtain ⟨d, hd, hv, hsr, hf, hw, hdep⟩ := h k c hk
  obtain ⟨e, he, hv', hsr', hf', hw', hdep'⟩ := g k d hd
  exact ⟨e, he, hv'.trans hv, hsr'.trans hsr, hf'.trans hf, hw'.trans hw, hdep'.trans hdep⟩

theorem registersStand_of_crews (h : t.crews = s.crews) : RegistersStand s t := by
  intro k c hk
  refine ⟨c, ?_, rfl, rfl, rfl, rfl, rfl⟩
  rw [State.crew?, h]
  exact hk

end

/-! ## A word in memory -/

section
variable {s : State} {x : CopyPiece} {core lid : Nat}

/-- A destination word in memory is written at its home slice; besides, no L1 keeps it, and it may be poisoned. -/
theorem writePiece_global (hx : x.space = .global) (s : State) (core lid : Nat) :
    ∃ L P, s.writePiece core lid x = { s.homeWrite core (placed x.addr x.data) with l1 := L, mpoison := P } := by
  unfold State.writePiece
  rw [if_pos (beq_iff_eq.mpr hx)]
  generalize s.homeWrite core (placed x.addr x.data) = u
  cases x.poison with
  | true => exact ⟨_, _, rfl⟩
  | false => exact ⟨_, _, rfl⟩

theorem writePiece_written (hx : x.space = .global) (s : State) (core lid : Nat) : Written s (s.writePiece core lid x) := by
  obtain ⟨L, P, hw⟩ := writePiece_global hx s core lid
  rw [hw]
  exact (s.homeWrite_written core _).trans rfl

theorem writePiece_crews (hx : x.space = .global) (s : State) (core lid : Nat) :
    (s.writePiece core lid x).crews = (s.clearResv (wordsOf (placed x.addr x.data))).crews := by
  obtain ⟨L, P, hw⟩ := writePiece_global hx s core lid
  rw [hw]
  dsimp only
  exact s.homeWrite_crews core _

theorem writePiece_mem (hx : x.space = .global) (s : State) (core lid : Nat) : (s.writePiece core lid x).mem = (s.writeBytes x.addr x.data).mem := by
  obtain ⟨L, P, hw⟩ := writePiece_global hx s core lid
  rw [hw, ← s.writePairs_placed]
  dsimp only
  exact s.homeWrite_mem core _

theorem readByte_writePiece (hx : x.space = .global) (s : State) (core lid k : Nat) : (s.writePiece core lid x).readByte k =
    if x.addr ≤ k ∧ k < x.addr + x.data.length then x.data.getD (k - x.addr) 0 else s.readByte k := by
  rw [← s.readByte_writeBytes, State.readByte, State.readByte, writePiece_mem hx]

/-! ## A word in a scratchpad -/

theorem writePiece_scratch (hx : x.space ≠ .global) (s : State) (core lid : Nat) : s.writePiece core lid x =
    (if x.poison = true then (s.scratchWrite lid x.team x.addr x.data).scratchPoison lid x.team x.addr x.data.length
      else s.scratchWrite lid x.team x.addr x.data) := if_neg (by simpa using hx)

theorem writePiece_teams (hx : x.space ≠ .global) (s : State) (core lid : Nat) : TeamsMove s (s.writePiece core lid x) := by
  rw [writePiece_scratch hx]
  split <;> rfl

theorem scratchRead_of_team {t : Team} {tid : Nat} (h : s.team? lid tid = some t) (a n : Nat) : s.scratchRead lid tid a n = sgetList 0 t.scratch a n := by
  rw [State.scratchRead, h]

/-- The teams after a word has been written. -/
theorem team?_writePiece (hx : x.space ≠ .global) (s : State) (core lid lid' tid : Nat) : ∃ f : Team → Team,
    (∀ t, (f t).scratch = if t.lid = lid ∧ t.tid = x.team then ssetList 0 t.scratch x.addr x.data else t.scratch) ∧
    (s.writePiece core lid x).team? lid' tid = (s.team? lid' tid).map f := by
  have hwrite := State.team?_modTeam s lid x.team lid' tid (Team.written x.addr x.data) fun _ => ⟨rfl, rfl⟩
  have hscratch : ∀ t : Team, (if t.lid == lid && t.tid == x.team then t.written x.addr x.data else t).scratch =
      if t.lid = lid ∧ t.tid = x.team then ssetList 0 t.scratch x.addr x.data else t.scratch := by
    intro t
    simp only [Bool.and_eq_true, beq_iff_eq]
    split <;> rfl
  rw [writePiece_scratch hx]
  cases x.poison with
  | false => exact ⟨_, hscratch, hwrite⟩
  | true =>
    have hpoison := State.team?_modTeam (s.scratchWrite lid x.team x.addr x.data) lid x.team lid' tid
      (fun t => { t with spoison := (t.spoison ++ (List.range ((x.addr % 4 + x.data.length + 3) / 4)).map (x.addr / 4 + ·)).eraseDups })
      fun _ => ⟨rfl, rfl⟩
    refine ⟨_, fun t => ?_, hpoison.trans ((congrArg _ hwrite).trans (Option.map_map _ _ _))⟩
    have hkeep (b : Bool) (u : Team) (ws : List Nat) : (if b = true then { u with spoison := ws } else u).scratch = u.scratch := by cases b <;> rfl
    rw [← hscratch t]
    exact hkeep _ _ _

theorem isSome_team?_writePiece (hx : x.space ≠ .global) (s : State) (core lid lid' tid : Nat) :
    ((s.writePiece core lid x).team? lid' tid).isSome = (s.team? lid' tid).isSome := by
  obtain ⟨f, -, hf⟩ := team?_writePiece hx s core lid lid' tid
  rw [hf, Option.isSome_map]

theorem scratchRead_writePiece_same (hx : x.space ≠ .global) (hteam : (s.team? lid x.team).isSome = true) :
    (s.writePiece core lid x).scratchRead lid x.team x.addr x.data.length = x.data := by
  obtain ⟨t, ht⟩ := Option.isSome_iff_exists.mp hteam
  obtain ⟨f, hf, hw⟩ := team?_writePiece hx s core lid lid x.team
  rw [ht] at hw
  rw [scratchRead_of_team hw, hf, if_pos (State.team?_key ht)]
  exact sgetList_ssetList_same 0 t.scratch x.addr x.data

theorem scratchRead_writePiece_ne (hx : x.space ≠ .global) {tid a n : Nat} (hteam : (s.team? lid tid).isSome = true)
    (h : x.team ≠ tid ∨ a + n ≤ x.addr ∨ x.addr + x.data.length ≤ a) :
    (s.writePiece core lid x).scratchRead lid tid a n = s.scratchRead lid tid a n := by
  obtain ⟨t, ht⟩ := Option.isSome_iff_exists.mp hteam
  obtain ⟨f, hf, hw⟩ := team?_writePiece hx s core lid lid tid
  rw [ht] at hw
  rw [scratchRead_of_team hw, scratchRead_of_team ht, hf]
  split
  · rename_i hkey
    have htid : x.team = tid := hkey.2.symm.trans (State.team?_key ht).2
    exact sgetList_ssetList_ne _ _ _ _ _ (h.resolve_left (not_not_intro htid))
  · rfl

end

/-! ## Words that are written together -/

/-- The words of a command written one by one. -/
def State.writePieces (s : State) (core lid : Nat) (xs : List CopyPiece) : State := xs.foldl (fun s x => s.writePiece core lid x) s

/-- Two words in memory stand apart. -/
def CopyPiece.apart (x y : CopyPiece) : Prop := x.addr + x.data.length ≤ y.addr ∨ y.addr + y.data.length ≤ x.addr

section
variable {s : State} {xs : List CopyPiece} {core lid : Nat}

theorem writePieces_words (s : State) (core lid : Nat) (xs : List CopyPiece) : WordsWritten s (s.writePieces core lid xs) := by
  induction xs generalizing s with
  | nil => exact .refl s
  | cons x xs ih =>
    refine WordsWritten.trans ?_ (ih (s.writePiece core lid x))
    by_cases hx : x.space = .global
    · exact (writePiece_written hx s core lid).words
    · exact (writePiece_teams hx s core lid).words

/-- The registers stand as words are written. -/
theorem writePieces_registers (s : State) (core lid : Nat) (xs : List CopyPiece) : RegistersStand s (s.writePieces core lid xs) := by
  induction xs generalizing s with
  | nil => exact registersStand_of_crews rfl
  | cons x xs ih =>
    refine RegistersStand.trans ?_ (ih (s.writePiece core lid x))
    by_cases hx : x.space = .global
    · exact registersStand_of_clear (writePiece_crews hx s core lid)
    · exact registersStand_of_crews (writePiece_teams hx s core lid).crews

theorem writePieces_written (hxs : ∀ x ∈ xs, x.space = .global) (s : State) (core lid : Nat) : Written s (s.writePieces core lid xs) := by
  induction xs generalizing s with
  | nil => exact .refl s
  | cons x xs ih =>
    exact (writePiece_written (hxs x List.mem_cons_self) s core lid).trans (ih (fun y hy => hxs y (List.mem_cons_of_mem _ hy)) _)

theorem writePieces_teams (hxs : ∀ x ∈ xs, x.space ≠ .global) (s : State) (core lid : Nat) : TeamsMove s (s.writePieces core lid xs) := by
  induction xs generalizing s with
  | nil => rfl
  | cons x xs ih =>
    exact (writePiece_teams (hxs x List.mem_cons_self) s core lid).trans (ih (fun y hy => hxs y (List.mem_cons_of_mem _ hy)) _)

/-- A byte that no word covers stands. -/
theorem readByte_writePieces_of_notMem (hxs : ∀ x ∈ xs, x.space = .global) {k : Nat}
    (hk : ∀ x ∈ xs, ¬ (x.addr ≤ k ∧ k < x.addr + x.data.length)) (s : State) : (s.writePieces core lid xs).readByte k = s.readByte k := by
  induction xs generalizing s with
  | nil => rfl
  | cons x xs ih =>
    refine (ih (fun y hy => hxs y (List.mem_cons_of_mem _ hy)) (fun y hy => hk y (List.mem_cons_of_mem _ hy)) _).trans ?_
    rw [readByte_writePiece (hxs x List.mem_cons_self), if_neg (hk x List.mem_cons_self)]

/-- Of words that stand apart each is in memory. -/
theorem readByte_writePieces_of_mem (hxs : ∀ x ∈ xs, x.space = .global) (hapart : xs.Pairwise CopyPiece.apart) {x : CopyPiece} (hx : x ∈ xs)
    {i : Nat} (hi : i < x.data.length) (s : State) : (s.writePieces core lid xs).readByte (x.addr + i) = x.data.getD i 0 := by
  induction xs generalizing s with
  | nil => cases hx
  | cons y ys ih =>
    rw [List.pairwise_cons] at hapart
    have hys : ∀ x ∈ ys, x.space = .global := fun z hz => hxs z (List.mem_cons_of_mem _ hz)
    obtain rfl | hx := List.mem_cons.mp hx
    · refine (readByte_writePieces_of_notMem hys (fun z hz hcov => ?_) _).trans ?_
      · have := hapart.1 z hz
        unfold CopyPiece.apart at this
        omega
      · rw [readByte_writePiece (hxs x List.mem_cons_self), if_pos (by omega), Nat.add_sub_cancel_left]
    · exact ih hys hapart.2 hx _

/-- Of words of scratchpads that stand apart each is in its scratchpad. -/
theorem scratchRead_writePieces (hxs : ∀ x ∈ xs, x.space ≠ .global) (hteams : ∀ x ∈ xs, (s.team? lid x.team).isSome = true)
    (hapart : xs.Pairwise fun x y => x.team ≠ y.team ∨ x.apart y) {x : CopyPiece} (hx : x ∈ xs) :
    (s.writePieces core lid xs).scratchRead lid x.team x.addr x.data.length = x.data := by
  have hstands : ∀ (ys : List CopyPiece) (s : State), (∀ y ∈ ys, y.space ≠ .global) → (s.team? lid x.team).isSome = true →
      (∀ y ∈ ys, x.team ≠ y.team ∨ x.apart y) → (s.writePieces core lid ys).scratchRead lid x.team x.addr x.data.length =
        s.scratchRead lid x.team x.addr x.data.length := by
    intro ys
    induction ys with
    | nil => intro s _ _ _; rfl
    | cons y ys ih =>
      intro s hys hteam hy
      have hspace := hys y List.mem_cons_self
      refine (ih _ (fun z hz => hys z (List.mem_cons_of_mem _ hz)) ((isSome_team?_writePiece hspace s core lid lid x.team).trans hteam)
        fun z hz => hy z (List.mem_cons_of_mem _ hz)).trans ?_
      exact scratchRead_writePiece_ne hspace hteam ((hy y List.mem_cons_self).imp Ne.symm id)
  induction xs generalizing s with
  | nil => cases hx
  | cons y ys ih =>
    rw [List.pairwise_cons] at hapart
    have hys : ∀ x ∈ ys, x.space ≠ .global := fun z hz => hxs z (List.mem_cons_of_mem _ hz)
    have hspace := hxs y List.mem_cons_self
    have hteam (z : CopyPiece) (hz : z ∈ y :: ys) : ((s.writePiece core lid y).team? lid z.team).isSome = true :=
      (isSome_team?_writePiece hspace s core lid lid z.team).trans (hteams z hz)
    obtain rfl | hx := List.mem_cons.mp hx
    · refine (hstands ys _ hys (hteam x List.mem_cons_self) hapart.1).trans ?_
      exact scratchRead_writePiece_same hspace (hteams x List.mem_cons_self)
    · exact ih hys (fun z hz => hteam z (List.mem_cons_of_mem _ hz)) hapart.2 hx

end

end Sys2Proof.Machine
end

section
/-! Running copies: the words that land, and the completion (R187, R188, R212). -/

namespace Sys2Proof.Machine

/-! ## The words that land together (R212) -/

/-- The words of a command that are read and written together with one. -/
def CopyCmd.group (q : CopyCmd) (x : CopyPiece) : List CopyPiece := q.pieces.filter x.together

/-- Whether a word is the first of the command on its line of memory (R145). -/
def CopyCmd.first (q : CopyCmd) (x : CopyPiece) : Bool := x.space == .global && !q.wrote.contains (lineOf x.addr)

/-- The command once the words that stand together with one have landed. -/
def CopyCmd.landed (q : CopyCmd) (x : CopyPiece) : CopyCmd :=
  { q with pieces := q.pieces.filter fun y => !x.together y
           wrote := if q.first x then lineOf x.addr :: q.wrote else q.wrote }

theorem together_space {x y : CopyPiece} (h : x.together y = true) : x.space = .global ↔ y.space = .global := by
  simp only [CopyPiece.together, Bool.and_eq_true] at h
  have hspace := eq_of_beq h.1.2
  rw [← beq_iff_eq, ← beq_iff_eq (a := y.space), hspace]

theorem together_self (x : CopyPiece) : x.together x = true := by
  simp [CopyPiece.together]

theorem mem_group {q : CopyCmd} {x y : CopyPiece} : y ∈ q.group x ↔ y ∈ q.pieces ∧ x.together y = true := List.mem_filter

/-- A state that differs from another in the commands, the tokens, the slices' lines and tables, the identifiers given out and WSEQ. -/
def LineMoves (s t : State) : Prop :=
  t = { s with
    copies := t.copies, fab := t.fab, levels := t.levels, misses := t.misses, spillq := t.spillq, l2 := t.l2, nextId := t.nextId, wseq := t.wseq }

section
variable {s t : State}

theorem LineMoves.mem (h : LineMoves s t) : t.mem = s.mem := by unfold LineMoves at h; rw [h]
theorem LineMoves.mpoison (h : LineMoves s t) : t.mpoison = s.mpoison := by unfold LineMoves at h; rw [h]
theorem LineMoves.regs (h : LineMoves s t) : t.regs = s.regs := by unfold LineMoves at h; rw [h]
theorem LineMoves.teams (h : LineMoves s t) : t.teams = s.teams := by unfold LineMoves at h; rw [h]
theorem LineMoves.crews (h : LineMoves s t) : t.crews = s.crews := by unfold LineMoves at h; rw [h]
theorem LineMoves.adds (h : LineMoves s t) : t.adds = s.adds := by unfold LineMoves at h; rw [h]
theorem LineMoves.bars (h : LineMoves s t) : t.bars = s.bars := by unfold LineMoves at h; rw [h]

end

section
variable {s : State} {q : CopyCmd} {x : CopyPiece}

/-- The state once the request for the destination line has reached its slice (R145, R309). -/
def State.lineReached (s : State) (q : CopyCmd) (x : CopyPiece) : State :=
  if q.first x then
    ((s.putCopy q (q.landed x)).reach (sliceOf q.core x.addr) q.core q.asid x.addr true true q.hint).bumpWseq (lineOf x.addr)
  else s.putCopy q (q.landed x)

theorem lineReached_moves (s : State) (q : CopyCmd) (x : CopyPiece) : LineMoves s (s.lineReached q x) := by
  have hreach := State.reach_reached (s.putCopy q (q.landed x)) (sliceOf q.core x.addr) q.core q.asid x.addr true true q.hint
  unfold State.lineReached
  split
  · generalize State.reach _ _ _ _ _ _ _ _ = u at *
    unfold Reached at hreach
    rw [hreach]
    rfl
  · rfl

theorem lineReached_copies (s : State) (q : CopyCmd) (x : CopyPiece) : (s.lineReached q x).copies = (s.putCopy q (q.landed x)).copies := by
  unfold State.lineReached
  split
  · exact (State.reach_reached _ _ _ _ _ _ _ _).copies
  · rfl

theorem lineReached_wseq (s : State) (q : CopyCmd) (x : CopyPiece) : sget 0 (s.lineReached q x).wseq (lineOf x.addr) =
    sget 0 s.wseq (lineOf x.addr) + (if q.first x = true then 1 else 0) := by
  have hreach := State.reach_reached (s.putCopy q (q.landed x)) (sliceOf q.core x.addr) q.core q.asid x.addr true true q.hint
  unfold State.lineReached
  cases q.first x with
  | true =>
    simp only [if_true]
    rw [sget_bumpWseq, hreach.wseq]
    rfl
  | false =>
    simp only [Bool.false_eq_true, if_false]
    exact (add_zero _).symm

/-- The words of the group with their sources read. -/
def State.readGroup (s : State) (q : CopyCmd) (x : CopyPiece) : List CopyPiece := (q.group x).map ((s.lineReached q x).readSource q)

/-- The state once the words that stand together with one have landed. -/
def State.landedOn (s : State) (q : CopyCmd) (x : CopyPiece) : State := (s.lineReached q x).writePieces q.core q.lid (s.readGroup q x)

theorem readGroup_eq (s : State) (q : CopyCmd) (x : CopyPiece) : s.readGroup q x =
    (q.group x).map fun y => { y with late := false, data := (s.pieceSource q y).1, poison := (s.pieceSource q y).2 } := by
  have h := lineReached_moves s q x
  refine List.map_congr_left fun y _ => ?_
  rw [State.readSource_eq, State.pieceSource_congr (s := s) h.mem h.mpoison h.regs h.teams]

/-- A running command's words land once they are ready, and the engine no longer owns their sectors. -/
theorem landCopy_writes {die e : Nat} (hhot : s.svc.hot = false) (hrun : q.phase = .running die e) (hread : ∀ l ∈ x.srcLine, l ∈ q.read)
    (hfirst : x.space = .global ∧ lineOf x.addr ∉ q.wrote → s.mayReach (sliceOf q.core x.addr) q.core q.asid x.addr true true = true)
    (hready : ∀ y ∈ q.group x, s.sooner q.lid q.seq y = false ∧ s.sourceReady q y = true)
    (hglobal : x.space = .global → (∀ r ∈ s.regs, r.ahead q.core = true → ∀ w ∈ wordsOf r.bytes, w ∉ (q.group x).map (·.addr / 4)) ∧
      s.mayRevoke (sliceOf q.core x.addr) noOwner ((q.group x).map (·.addr / 4)) = true) :
    s.landCopy q x = some ((s.landedOn q x).dropOwner (sectorsOf (q.group x)) (engineOwner die e)) := by
  have hsrc : (x.srcLine.filter fun l => !q.read.contains l) = none := by
    cases hl : x.srcLine with
    | none => rfl
    | some l =>
      have hl' := hread l hl
      simp [hl']
  have hmay : (!(x.space == .global && !q.wrote.contains (lineOf x.addr)) || s.mayReach (sliceOf q.core x.addr) q.core q.asid x.addr true true) = true := by
    by_cases h : x.space = .global ∧ lineOf x.addr ∉ q.wrote
    · rw [hfirst h, Bool.or_true]
    · simp only [Bool.or_eq_true, Bool.not_eq_true', Bool.and_eq_false_iff, beq_eq_false_iff_ne, List.contains_eq_mem, Bool.not_eq_false',
        decide_eq_true_eq]
      tauto
  have hgroup : ((q.pieces.filter x.together).all fun y => !s.sooner q.lid q.seq y && s.sourceReady q y) = true := by
    rw [List.all_eq_true]
    intro y hy
    obtain ⟨hsooner, hsource⟩ := hready y hy
    rw [hsooner, hsource]
    rfl
  have hahead : (s.regs.all fun r => !(x.space == .global && r.ahead q.core &&
      (wordsOf r.bytes).any fun w => (q.pieces.filter x.together).any fun y => y.addr / 4 == w)) = true := by
    rw [List.all_eq_true]
    intro r hr
    rw [Bool.not_eq_true', Bool.eq_false_iff]
    intro h
    simp only [Bool.and_eq_true, beq_iff_eq, List.any_eq_true] at h
    obtain ⟨⟨hspace, hr'⟩, w, hw, y, hy, hyw⟩ := h
    exact (hglobal hspace).1 r hr hr' w hw (List.mem_map.mpr ⟨y, hy, hyw⟩)
  have hrevoke : (x.space != .global || s.mayRevoke (sliceOf q.core x.addr) noOwner ((q.pieces.filter x.together).map (·.addr / 4))) = true := by
    by_cases h : x.space = .global
    · rw [Bool.or_eq_true]
      exact .inr (hglobal h).2
    · simp [h]
  have hmatch (ph : CPhase) (f : Nat → Nat → State) (t : State) :
      ph = .running die e → (match ph with | .running d e => f d e | _ => t) = f die e := by rintro rfl; rfl
  unfold State.landCopy
  simp only [hsrc, hhot, hmay, hgroup, hahead, hrevoke, guarded, Bool.not_false, Bool.and_self, if_true]
  exact congrArg some (hmatch q.phase _ _ hrun)

/-- What landing changes besides the line's WSEQ and what the words hold. -/
theorem landedOn_rest (s : State) (q : CopyCmd) (x : CopyPiece) : WordsWritten (s.lineReached q x) (s.landedOn q x) := writePieces_words _ _ _ _

theorem landed_copies (s : State) (q : CopyCmd) (x : CopyPiece) (secs : List Nat) (o : Nat) :
    ((s.landedOn q x).dropOwner secs o).copies = (s.putCopy q (q.landed x)).copies :=
  (landedOn_rest s q x).copies.trans (lineReached_copies s q x)

theorem landed_adds (s : State) (q : CopyCmd) (x : CopyPiece) (secs : List Nat) (o : Nat) : ((s.landedOn q x).dropOwner secs o).adds = s.adds :=
  (landedOn_rest s q x).adds.trans (lineReached_moves s q x).adds

theorem landed_bars (s : State) (q : CopyCmd) (x : CopyPiece) (secs : List Nat) (o : Nat) : ((s.landedOn q x).dropOwner secs o).bars = s.bars :=
  (landedOn_rest s q x).bars.trans (lineReached_moves s q x).bars

theorem landed_registers (s : State) (q : CopyCmd) (x : CopyPiece) (secs : List Nat) (o : Nat) :
    RegistersStand s ((s.landedOn q x).dropOwner secs o) :=
  ((registersStand_of_crews (lineReached_moves s q x).crews).trans (writePieces_registers _ _ _ _)).trans (registersStand_of_crews rfl)

theorem landed_wseq (s : State) (q : CopyCmd) (x : CopyPiece) (secs : List Nat) (o : Nat) :
    ((s.landedOn q x).dropOwner secs o).wseq = (s.lineReached q x).wseq := (landedOn_rest s q x).wseq

/-- Words of memory that land: the other bytes stand, and of words that stand apart each is there. -/
theorem landed_global (hx : x.space = .global) (secs : List Nat) (o : Nat) :
    ((s.landedOn q x).dropOwner secs o).teams = s.teams ∧
    MemoryStandsBut s ((s.landedOn q x).dropOwner secs o) (fun a => ∃ y ∈ q.group x, y.addr ≤ a ∧ a < y.addr + (s.pieceSource q y).1.length) ∧
    ((q.group x).Pairwise (fun y z => y.addr + (s.pieceSource q y).1.length ≤ z.addr ∨ z.addr + (s.pieceSource q z).1.length ≤ y.addr) →
      ∀ y ∈ q.group x, ∀ i, i < (s.pieceSource q y).1.length →
        ((s.landedOn q x).dropOwner secs o).readByte (y.addr + i) = (s.pieceSource q y).1.getD i 0) ∧
    sget 0 ((s.landedOn q x).dropOwner secs o).wseq (lineOf x.addr) =
      sget 0 s.wseq (lineOf x.addr) + (if lineOf x.addr ∈ q.wrote then 0 else 1) := by
  have hline := lineReached_moves s q x
  have hmem (k : Nat) : (s.lineReached q x).readByte k = s.readByte k := by unfold State.readByte; rw [hline.mem]
  have hspace : ∀ y ∈ s.readGroup q x, y.space = .global := by
    rw [readGroup_eq]
    intro y hy
    obtain ⟨z, hz, rfl⟩ := List.mem_map.mp hy
    exact (together_space (mem_group.mp hz).2).mp hx
  refine ⟨?_, fun a ha => ?_, fun hapart y hy i hi => ?_, ?_⟩
  · exact (writePieces_written hspace _ _ _).teams.trans hline.teams
  · refine (readByte_writePieces_of_notMem hspace (fun y hy hcov => ?_) _).trans (hmem a)
    rw [readGroup_eq] at hy
    obtain ⟨z, hz, rfl⟩ := List.mem_map.mp hy
    exact ha ⟨z, hz, hcov⟩
  · have hpair : (s.readGroup q x).Pairwise CopyPiece.apart := by
      rw [readGroup_eq, List.pairwise_map]
      exact hapart
    have hy' : { y with late := false, data := (s.pieceSource q y).1, poison := (s.pieceSource q y).2 } ∈ s.readGroup q x := by
      rw [readGroup_eq]
      exact List.mem_map_of_mem hy
    exact readByte_writePieces_of_mem hspace hpair hy' hi _
  · rw [landed_wseq, lineReached_wseq]
    by_cases h : lineOf x.addr ∈ q.wrote <;> simp [CopyCmd.first, hx, h]

/-- Words of scratchpads that land: memory stands, and of words that stand apart each is there. -/
theorem landed_scratch (hx : x.space ≠ .global) (secs : List Nat) (o : Nat) :
    ((s.landedOn q x).dropOwner secs o).mem = s.mem ∧ ((s.landedOn q x).dropOwner secs o).wseq = s.wseq ∧
    ((∀ y ∈ q.group x, (s.team? q.lid y.team).isSome = true) →
      (q.group x).Pairwise (fun y z => y.team ≠ z.team ∨ y.addr + (s.pieceSource q y).1.length ≤ z.addr ∨ z.addr + (s.pieceSource q z).1.length ≤ y.addr) →
      ∀ y ∈ q.group x, ((s.landedOn q x).dropOwner secs o).scratchRead q.lid y.team y.addr (s.pieceSource q y).1.length = (s.pieceSource q y).1) := by
  have hline := lineReached_moves s q x
  have hspace : ∀ y ∈ s.readGroup q x, y.space ≠ .global := by
    rw [readGroup_eq]
    intro y hy
    obtain ⟨z, hz, rfl⟩ := List.mem_map.mp hy
    exact fun h => hx ((together_space (mem_group.mp hz).2).mpr h)
  have hfirst : q.first x = false := by simp [CopyCmd.first, hx]
  refine ⟨?_, ?_, fun hteams hapart y hy => ?_⟩
  · exact (writePieces_teams hspace _ _ _).mem.trans hline.mem
  · rw [landed_wseq, State.lineReached, hfirst]
    rfl
  · have hteams' : ∀ z ∈ s.readGroup q x, ((s.lineReached q x).team? q.lid z.team).isSome = true := by
      rw [readGroup_eq]
      intro y hy
      obtain ⟨z, hz, rfl⟩ := List.mem_map.mp hy
      have hteam : (s.lineReached q x).team? q.lid z.team = s.team? q.lid z.team := by unfold State.team?; rw [hline.teams]
      exact (congrArg Option.isSome hteam).trans (hteams z hz)
    have hpair : (s.readGroup q x).Pairwise fun y z => y.team ≠ z.team ∨ y.apart z := by
      rw [readGroup_eq, List.pairwise_map]
      exact hapart
    have hy' : { y with late := false, data := (s.pieceSource q y).1, poison := (s.pieceSource q y).2 } ∈ s.readGroup q x := by
      rw [readGroup_eq]
      exact List.mem_map_of_mem hy
    exact scratchRead_writePieces hspace hteams' hpair hy'

/-- The words of a source line are read together, for a token (R212, R309). -/
theorem landCopy_reads {l : Nat} (hhot : s.svc.hot = false) (hl : x.srcLine = some l) (hread : l ∉ q.read)
    (hreach : s.mayReach (sliceOf q.core (256 * l)) q.core q.asid (256 * l) false false = true)
    (hready : ∀ y ∈ q.pieces, y.srcLine = some l → s.sourceReady q y = true) :
    s.landCopy q x = some ((s.reach (sliceOf q.core (256 * l)) q.core q.asid (256 * l) false false q.hint).putCopy q
      { q with read := l :: q.read, pieces := q.pieces.map fun y => if y.srcLine == some l then s.readSource q y else y }) := by
  have hsrc : (x.srcLine.filter fun l => !q.read.contains l) = some l := by simp [hl, hread]
  have hall : (q.pieces.all fun y => !(y.srcLine == some l) || s.sourceReady q y) = true := by
    rw [List.all_eq_true]
    intro y hy
    by_cases h : y.srcLine = some l
    · rw [hready y hy h, Bool.or_true]
    · simp [h]
  unfold State.landCopy
  simp only [hsrc, hhot, hreach, hall, guarded, Bool.not_false, Bool.and_self, if_true]
  rfl

/-- A running command of whose words the first on a line can land. -/
theorem land_of_landCopy {t : State} {line : Nat}
    (hq : s.copies.find? (fun k => k.seq == q.seq && (match k.phase with | .running _ _ => true | _ => false)) = some q)
    (hx : q.pieces.find? (fun y => y.space != .global || lineOf y.addr == line) = some x) (ht : s.landCopy q x = some t) :
    s.land q.seq line = some t := by
  have hhead : (q.pieces.filter fun y => y.space != .global || lineOf y.addr == line).head? = some x := by rw [List.head?_filter]; exact hx
  obtain ⟨rest, hrest⟩ := List.head?_eq_some_iff.mp hhead
  unfold State.land
  split
  · rename_i hnone
    cases hnone.symm.trans hq
  · rename_i k hk
    obtain rfl : k = q := Option.some.inj (hk.symm.trans hq)
    rw [hrest, List.findSome?_cons, ht]

/-- A command that is found running runs. -/
theorem phase_of_running
    (hq : s.copies.find? (fun k => k.seq == q.seq && (match k.phase with | .running _ _ => true | _ => false)) = some q) :
    ∃ die e, q.phase = .running die e := by
  have h := List.find?_some hq
  simp only [Bool.and_eq_true] at h
  cases hp : q.phase with
  | running die e => exact ⟨die, e, rfl⟩
  | queued => simp [hp] at h
  | timed w => simp [hp] at h

end

end Sys2Proof.Machine
end

section
/-! The completion of a copy (R188), and the copy engines as a whole. -/

namespace Sys2Proof.Machine

/-! ## The delivery of a command's bytes (R176, R188) -/

/-- A state that differs from another in the scratchpads, the barrier objects and the crews. -/
def BarsMove (s t : State) : Prop := t = { s with teams := t.teams, bars := t.bars, crews := t.crews }

theorem BarsMove.trans {s t u : State} (h : BarsMove s t) (g : BarsMove t u) : BarsMove s u := by
  unfold BarsMove at *
  rw [g, h]

theorem TeamsMove.bars {s t : State} (h : TeamsMove s t) : BarsMove s t := by
  unfold TeamsMove at h
  unfold BarsMove
  rw [h]

theorem BarsMove.copies {s t : State} (h : BarsMove s t) : t.copies = s.copies := by unfold BarsMove at h; rw [h]
theorem BarsMove.mem {s t : State} (h : BarsMove s t) : t.mem = s.mem := by unfold BarsMove at h; rw [h]

theorem State.flipBar_moves (s : State) (b : BarObj) : TeamsMove s (s.flipBar b) :=
  ((((State.setBarField_moves _ _ _ _ _).trans (State.setBarField_moves _ _ _ _ _)).trans (State.setBarField_moves _ _ _ _ _)).trans
    (State.setBarField_moves _ _ _ _ _)).trans (State.setBarField_moves _ _ _ _ _)

theorem State.evaluate_moves (s : State) (b : BarObj) : BarsMove s (s.evaluate b) := by
  rw [State.evaluate_eq]
  split
  · exact (s.flipBar_moves b).bars.trans (BarsMove.trans (t := (s.flipBar b).putBar { b with far := false, farFlip := b.far }) rfl rfl)
  · rfl

section
variable {s u : State} {core lid team handle n : Nat}

/-- A delivery (R176, R188). -/
theorem deliver_evaluated {b : BarObj} (hx : (s.team? b.lid b.team).isSome) :
    Evaluated s (s.deliver b n) b (s.barField b 0 2) (s.barField b 2 2) (s.barField b 4 4) ((s.barField b 8 4 + n) % 2 ^ 32) := by
  have h := State.evaluate_evaluated (s := s.setBarField b 8 4 (s.barField b 8 4 + n)) (b := b) (by simp [hx])
  rw [State.barField_setBarField_ne hx _ (by decide), State.barField_setBarField_ne hx _ (by decide),
    State.barField_setBarField_ne hx _ (by decide), State.barField_setBarField_same hx _ (by decide)] at h
  exact h.of_setBarField hx (by decide)

theorem deliverTo_moves (s : State) (core lid team handle n : Nat) : BarsMove s (s.deliverTo core lid team handle n) := by
  unfold State.deliverTo
  split
  · exact (State.setBarField_moves s _ _ _ _).bars.trans (State.evaluate_moves _ _)
  · rfl

/-- The object of a handle is told by the objects alone. -/
theorem handleObj_congr (h : u.bars = s.bars) (d : DWord) : u.handleObj core lid team d = s.handleObj core lid team d := by
  unfold State.handleObj State.bar?
  rw [h]

theorem deliverTo_none (h : s.handleObj core lid team (BitVec.ofNat 64 handle) = none) : s.deliverTo core lid team handle n = s := by
  unfold State.deliverTo
  rw [h]

/-- A delivery in a state with the objects and the scratchpads of another. -/
theorem deliverTo_delivered (hbars : u.bars = s.bars) (hteams : u.teams = s.teams) :
    Delivered s (u.deliverTo core lid team handle n).retry core lid team handle n := by
  refine ⟨fun o x ho hx => ?_, fun hnone => ?_⟩
  · have hdeliver : u.deliverTo core lid team handle n = u.deliver o n := by
      unfold State.deliverTo
      rw [handleObj_congr hbars, ho]
    have hteam : (u.team? o.lid o.team).isSome := by
      unfold State.team? at hx ⊢
      rw [hteams, hx]
      rfl
    have hfield (off k : Nat) : u.barField o off k = s.barField o off k := congrArg leNat (State.scratchRead_congr hteams _ _ _ _)
    have h := deliver_evaluated (n := n) hteam
    simp only [hfield] at h
    rw [hdeliver]
    exact h.of_teams hteams.symm rfl
  · rw [deliverTo_none ((handleObj_congr hbars _).trans hnone)]
    exact hteams

end

/-! ## Completion (R188) -/

section
variable {s : State} {q : CopyCmd} {die e : Nat}

/-- The commands but one are the same before and after that one takes another form. -/
theorem filter_putCopy {k : CopyCmd} (hk : k.seq = q.seq) : (s.putCopy q k).copies.filter (·.seq != q.seq) = s.copies.filter (·.seq != q.seq) := by
  unfold State.putCopy
  generalize s.copies = ks
  induction ks with
  | nil => rfl
  | cons r rs ih =>
    simp only [List.map_cons, List.filter_cons] at ih ⊢
    rw [ih]
    by_cases hr : r.seq = q.seq
    · simp [hr, hk]
    · simp [hr]

/-- A command completes in the state in which all that can land has landed. -/
theorem copyComplete_of {t : State} (hq : s.copies.find? (·.phase == .running die e) = some q) (ht : s.landAll q.seq (3 * q.pieces.length) = t)
    (hpieces : ∀ k ∈ t.copies, k.seq = q.seq → k.pieces = []) (hadds : ∀ a ∈ t.adds, a.job ≠ some q.seq) :
    Happens s (.copyComplete die e)
      (State.deliverTo { t with copies := t.copies.filter (·.seq != q.seq) } q.core q.lid q.team q.handle q.bytes).retry := by
  have hdone : (t.copies.all fun k => k.seq != q.seq || k.pieces.isEmpty) = true := by
    rw [List.all_eq_true]
    intro k hk
    by_cases h : k.seq = q.seq
    · simp [hpieces k hk h]
    · simp [h]
  have hnone : (t.adds.all fun a => a.job != some q.seq) = true := by
    rw [List.all_eq_true]
    exact fun a ha => bne_iff_ne.mpr (hadds a ha)
  refine happens_of_some rfl ?_
  unfold State.copyComplete
  rw [hq]
  dsimp only
  rw [ht, hdone, hnone]
  rfl

/-- A command with no word and no addition left delivers its bytes (R188). -/
theorem copyComplete_done (hq : s.copies.find? (·.phase == .running die e) = some q) (hpieces : ∀ k ∈ s.copies, k.seq = q.seq → k.pieces = [])
    (hadds : ∀ a ∈ s.adds, a.job ≠ some q.seq) :
    ∃ (t : State), Happens s (.copyComplete die e) t ∧ t.copies = s.copies.filter (·.seq != q.seq) ∧ t.mem = s.mem ∧
      Delivered s t q.core q.lid q.team q.handle q.bytes := by
  have hnone : q.pieces = [] := hpieces q (List.mem_of_find?_eq_some hq) rfl
  have hland : s.landAll q.seq (3 * q.pieces.length) = s := by rw [hnone]; rfl
  have hmoves := deliverTo_moves { s with copies := s.copies.filter (·.seq != q.seq) } q.core q.lid q.team q.handle q.bytes
  exact ⟨_, copyComplete_of hq hland hpieces hadds, hmoves.copies, hmoves.mem, deliverTo_delivered rfl rfl⟩

/-- The one word of a command lands, and then there is none. -/
theorem landAll_one {t : State} {x : CopyPiece} (hq : s.copies.filter (·.seq == q.seq) = [q]) (hpieces : q.pieces = [x])
    (ht : s.landCopy q x = some t) (hcopies : t.copies = (s.putCopy q (q.landed x)).copies) : s.landAll q.seq (3 * q.pieces.length) = t := by
  have hfind : s.copies.find? (·.seq == q.seq) = some q := by rw [← List.head?_filter, hq]; rfl
  have hnext : s.landNext q = some t := by rw [State.landNext, hpieces, List.findSome?_cons, ht]
  have hleft : (q.landed x).pieces = [] := by simp [CopyCmd.landed, hpieces, together_self]
  have hfound : t.copies.find? (·.seq == q.seq) = some (q.landed x) := by
    have hkey : ((fun k : CopyCmd => k.seq == q.seq) ∘ fun r => if r.seq == q.seq then q.landed x else r) = fun k => k.seq == q.seq := by
      funext r
      by_cases h : r.seq = q.seq
      · simp [h, CopyCmd.landed]
      · simp [h]
    rw [hcopies, State.putCopy, List.find?_map, hkey, hfind]
    simp
  have hstop : t.landNext (q.landed x) = none := by rw [State.landNext, hleft]; rfl
  have hlast : t.landAll q.seq 2 = t := by rw [State.landAll, hfound]; simp only [hstop]
  rw [hpieces, List.length_singleton, State.landAll, hfind]
  simp only [hnext]
  exact hlast

/-- A command with one word left writes it and delivers its bytes (R187, R188). -/
theorem copyComplete_one {x : CopyPiece} (hhot : s.svc.hot = false) (hq : s.copies.find? (·.phase == .running die e) = some q)
    (hone : s.copies.filter (·.seq == q.seq) = [q]) (hpieces : q.pieces = [x]) (hread : ∀ l ∈ x.srcLine, l ∈ q.read) (hlate : x.late = false)
    (hfirst : x.space = .global ∧ lineOf x.addr ∉ q.wrote → s.mayReach (sliceOf q.core x.addr) q.core q.asid x.addr true true = true)
    (hsooner : s.sooner q.lid q.seq x = false)
    (hglobal : x.space = .global → (∀ r ∈ s.regs, r.ahead q.core = true → ∀ w ∈ wordsOf r.bytes, w ∉ [x.addr / 4]) ∧
      s.mayRevoke (sliceOf q.core x.addr) noOwner [x.addr / 4] = true)
    (hadds : ∀ a ∈ s.adds, a.job ≠ some q.seq) :
    ∃ (t : State), Happens s (.copyComplete die e) t ∧ t.copies = s.copies.filter (·.seq != q.seq) ∧
      (x.space = .global → MemoryStandsBut s t (fun a => x.addr ≤ a ∧ a < x.addr + x.data.length) ∧
        (∀ i, i < x.data.length → t.readByte (x.addr + i) = x.data.getD i 0) ∧ Delivered s t q.core q.lid q.team q.handle q.bytes) ∧
      (x.space ≠ .global → t.mem = s.mem ∧
        ((s.team? q.lid x.team).isSome = true → s.handleObj q.core q.lid q.team (BitVec.ofNat 64 q.handle) = none →
          t.scratchRead q.lid x.team x.addr x.data.length = x.data)) := by
  have hgroup : q.group x = [x] := by simp [CopyCmd.group, hpieces, together_self]
  have hsource : s.pieceSource q x = (x.data, x.poison) := by simp [State.pieceSource, hlate]
  have hready : s.sourceReady q x = true := by simp [State.sourceReady, hlate]
  have hrun : q.phase = .running die e := by simpa using List.find?_some hq
  have hland := landCopy_writes hhot hrun hread hfirst (by rw [hgroup]; simpa using ⟨hsooner, hready⟩) (by rw [hgroup]; exact hglobal)
  have hcopies := landed_copies s q x (sectorsOf (q.group x)) (engineOwner die e)
  have hbars := landed_bars s q x (sectorsOf (q.group x)) (engineOwner die e)
  have hadds' := landed_adds s q x (sectorsOf (q.group x)) (engineOwner die e)
  have hmem := landed_global (s := s) (q := q) (x := x) (secs := sectorsOf (q.group x)) (o := engineOwner die e)
  have hscratch := landed_scratch (s := s) (q := q) (x := x) (secs := sectorsOf (q.group x)) (o := engineOwner die e)
  generalize (s.landedOn q x).dropOwner (sectorsOf (q.group x)) (engineOwner die e) = t at *
  have hall := landAll_one hone hpieces hland hcopies
  have hempty : ∀ k ∈ t.copies, k.seq = q.seq → k.pieces = [] := by
    intro k hk hseq
    rw [hcopies] at hk
    obtain ⟨r, -, rfl⟩ := List.mem_map.mp hk
    by_cases h : r.seq = q.seq
    · simp [h, CopyCmd.landed, hpieces, together_self]
    · simp [h] at hseq
  have hmoves := deliverTo_moves { t with copies := t.copies.filter (·.seq != q.seq) } q.core q.lid q.team q.handle q.bytes
  have hreads (a : Nat) : (State.deliverTo { t with copies := t.copies.filter (·.seq != q.seq) } q.core q.lid q.team q.handle q.bytes).retry.readByte a =
      t.readByte a := congrArg (sget 0 · a) hmoves.mem
  refine ⟨_, copyComplete_of hq hall hempty (by rw [hadds']; exact hadds), ?_, fun hx => ?_, fun hx => ?_⟩
  · refine hmoves.copies.trans ?_
    rw [hcopies]
    exact filter_putCopy rfl
  · obtain ⟨hteams, hstands, hwritten, -⟩ := hmem hx
    simp only [hgroup, hsource, List.mem_singleton, exists_eq_left, forall_eq, List.pairwise_singleton, true_implies] at hstands hwritten
    exact ⟨fun a ha => (hreads a).trans (hstands a ha), fun i hi => (hreads _).trans (hwritten i hi), deliverTo_delivered hbars hteams⟩
  · obtain ⟨hstands, -, hwritten⟩ := hscratch hx
    simp only [hgroup, hsource, List.mem_singleton, forall_eq, List.pairwise_singleton, true_implies] at hwritten
    refine ⟨hmoves.mem.trans hstands, fun hteam hnone => ?_⟩
    rw [deliverTo_none ((handleObj_congr (u := { t with copies := t.copies.filter (·.seq != q.seq) }) hbars _).trans hnone)]
    exact hwritten hteam

end

/-- Settles O43: a command goes from its registration over its dispatch to its words, each of which waits for what R187 and R205 name, and
delivers its bytes once none is left. -/
theorem copyEngines : Obligations.CopyEngines := by
  intro s hhot source running untouched starts free
  have hfree (q : CopyCmd) (e : Nat) (h : free q e) : q.registered = true ∧ (q.red ≠ none → ∀ x ∈ q.pieces, s.sourceReady q x = true) ∧
      s.freeEngine q.asid (q.core / 72) = some e := by
    obtain ⟨hreg, hready, he, hmask, hidle, hbusy⟩ := h
    exact ⟨hreg, hready, freeEngine_eq he hmask hidle hbusy⟩
  refine ⟨fun q hq hreg hturn => registerCopy_happens hq hreg hturn, fun core q e hq h => ?_, fun core q e w hq hphase htime h => ?_, ?_, ?_,
    fun die e q hq hpieces hadds => copyComplete_done hq hpieces hadds, ?_⟩
  · obtain ⟨hreg, hready, hfree⟩ := hfree q e h
    exact copyDispatch_starts hhot hq hreg hready hfree
  · obtain ⟨hreg, hready, hfree⟩ := hfree q e h
    exact timedDispatch_starts hhot hq hphase htime hreg hready hfree
  · intro q line x hrun hx hread group first hfirst hready hglobal
    obtain ⟨die, e, hphase⟩ := phase_of_running hrun
    have hland := landCopy_writes hhot hphase hread hfirst hready hglobal
    refine ⟨_, q.landed x, land_of_landCopy hrun hx hland, ?_, rfl, rfl, rfl, landed_registers s q x _ _, fun hspace => landed_global hspace _ _,
      fun hspace => landed_scratch hspace _ _⟩
    rw [landed_copies]
    exact mem_putCopy_self (List.mem_of_find?_eq_some hrun)
  · intro q line x l hrun hx hl hread hreach hready
    have hland := landCopy_reads hhot hl hread hreach hready
    have hreached := State.reach_reached s (sliceOf q.core (256 * l)) q.core q.asid (256 * l) false false q.hint
    refine ⟨_, land_of_landCopy hrun hx hland, hreached.mem, hreached.teams, hreached.crews, ?_⟩
    simp only [State.putCopy, hreached.copies, beq_iff_eq, State.readSource_eq]
    rfl
  · intro die e q x hq hone hpieces hread hlate hfirst hsooner hglobal hadds
    exact copyComplete_one hhot hq hone hpieces hread hlate hfirst hsooner hglobal hadds

end Sys2Proof.Machine
end
